-- ==== Sys2Proof/Word.lean ====
section
/-! DEFINITION. The word types of the node and their plainest arithmetic: 32-bit registers (R4), 64-bit interconnect and
envelope words, bytes, and fixed-width signed readings. -/

namespace Sys2Proof

/-- A 32-bit register (R4). -/
abbrev Word := BitVec 32
/-- A byte of memory. -/
abbrev Byte := BitVec 8
/-- A 64-bit word of the interconnect and of an envelope. -/
abbrev DWord := BitVec 64
/-- A master ID: node address in [19:4], local master index in [3:0] (R23). -/
abbrev MasterId := BitVec 20

/-- Bits [lo+w-1:lo] of a natural number. -/
def bitsOf (x lo w : Nat) : Nat := x / 2 ^ lo % 2 ^ w

/-- Bit i of a natural number. -/
def bitOf (x i : Nat) : Bool := x / 2 ^ i % 2 = 1

/-- A truth value as a bit. -/
def bit1 (b : Bool) : Nat := if b then 1 else 0

/-- The signed reading of an n-bit number. -/
def signed (n x : Nat) : Int := if x % 2 ^ n < 2 ^ (n - 1) then (x % 2 ^ n : Nat) else ((x % 2 ^ n : Nat) : Int) - ((2 ^ n : Nat) : Int)

/-- The n-bit number that an integer wraps to. -/
def wrap (n : Nat) (x : Int) : Nat := (x % ((2 ^ n : Nat) : Int)).toNat

/-- The n-bit signed number nearest an integer: it saturates at the ends of the range. -/
def saturate (n : Nat) (x : Int) : Nat :=
  let top : Int := ((2 ^ (n - 1) : Nat) : Int)
  wrap n (if x ≥ top then top - 1 else if x < -top then -top else x)

/-- The quotient rounded up. -/
def ceilDiv (a b : Nat) : Nat := (a + b - 1) / b

end Sys2Proof
end

