-- ==== Sys2Proof/Syntax.lean ====
section
/-! DEFINITION. The commands and events the node takes: one constructor of Instr for each row of spec/opcode_table.json,
with the row's operands, and the data those operands carry (masters, envelopes, bus frames). -/

namespace Sys2Proof

/-- Who makes an access (R23, R24, R167): a local master by its index, or a ring master by its master ID. -/
inductive Master where
  /-- A local master, by its index (R23). -/
  | loc (index : Fin 9)
  /-- A master whose access enters through requester 0: node address in [19:4], master index in [3:0] (R167). -/
  | ring (id : MasterId)
deriving DecidableEq, Repr

/-- The reason codes of R192. -/
inductive Reason where
  | unmapped | unaligned | readOnly | accessDenied | notPresent | claimRefused | liTimeout | poisoned | badRequest
  | splitPartial | lockOrder | lockTimeout | busy | noPrefetch | busRefused | noRoute | timeout
deriving DecidableEq, Repr

/-- The numeric value of a reason code (R192). -/
def Reason.code : Reason → Nat
  | .unmapped => 0x01 | .unaligned => 0x02 | .readOnly => 0x03 | .accessDenied => 0x04 | .notPresent => 0x05
  | .claimRefused => 0x06 | .liTimeout => 0x07 | .poisoned => 0x08 | .badRequest => 0x09 | .splitPartial => 0x0A
  | .lockOrder => 0x0B | .lockTimeout => 0x0C | .busy => 0x0D | .noPrefetch => 0x0E | .busRefused => 0x0F
  | .noRoute => 0x10 | .timeout => 0x20

/-- An envelope, field by field (R241). The header's and the trailer's CRCs are the ones received or sent; reserved bits
are kept because every node forwards them unchanged. -/
structure Envelope where
  /-- CLASS: 0 Scheduled, 1 Urgent, 2 Bulk, 3 Management. -/
  cls : BitVec 2
  kind : BitVec 5
  mc : Bool
  dst : BitVec 16
  src : BitVec 16
  hops : BitVec 12
  lenw : BitVec 6
  rsv0 : BitVec 6
  tag : BitVec 12
  poisonAny : Bool
  ordered : Bool
  lock : Bool
  prefetch : Bool
  addr : BitVec 48
  stamp : BitVec 32
  rsv2 : BitVec 16
  hcrc : BitVec 16
  payload : List DWord
  pcrc : BitVec 32
  /-- Trailer POISON: bit w marks payload word w. -/
  poison : BitVec 32
deriving DecidableEq, Repr

/-- The fields of an envelope whose header words are 0 and whose payload is empty. -/
def Envelope.blank : Envelope :=
  { cls := 0, kind := 0, mc := false, dst := 0, src := 0, hops := 0, lenw := 0, rsv0 := 0, tag := 0, poisonAny := false,
    ordered := false, lock := false, prefetch := false, addr := 0, stamp := 0, rsv2 := 0, hcrc := 0, payload := [],
    pcrc := 0, poison := 0 }

/-- The state and configuration registers of a Scribe engine that are written only while it is not enabled. -/
inductive EngineReg where
  | x | y | isr | osr | shc | shcfg | pins | olaneLo | olaneHi | ilaneLo | ilaneHi
deriving DecidableEq, Repr


/-- A message-bus frame (R99): its ID with a base ID in [28:18], its format flags, its length code and its data bytes. -/
structure BusFrame where
  id : BitVec 29
  ide : Bool
  rtr : Bool
  fdf : Bool
  brs : Bool
  esi : Bool
  dlc : BitVec 4
  data : List Byte
deriving DecidableEq, Repr

/-- The kinds of error that a controller detects (R112). -/
inductive BusFault where
  | stuff | form | ack | bit1 | bit0 | crc
deriving DecidableEq, Repr

/-- The strap balls that are sampled at cold start (R474): BOOT_MODE, ROOT_ELIG, DPX_ROLE (high for B) and FLD_AUTO. -/
structure Straps where
  bootMode : BitVec 2
  rootElig : Bool
  role : Bool
  fldAuto : Bool
deriving DecidableEq, Repr

/-- Where a parity error is met (R394, R398): the fetch of a Scribe engine, a FIFO word or a register (0 X, 1 Y, 2 ISR, 3 OSR) that
the engine reads, a small-table word by its register address, or a bridge semaphore. -/
inductive ParityPlace where
  | store (e : Fin 64)
  | fifo (e : Fin 64)
  | regFile (e : Fin 64) (r : Fin 4)
  | table (a : Word)
  | semaphore (n : Fin 64)
deriving DecidableEq, Repr

/-- What a read finds in a SECDED word (R394, R396). -/
inductive Found where
  | clean | correctable | uncorrectable
deriving DecidableEq, Repr

/-- What the firmware meets where it expects the manifest's next record (R423): the END record, the end of the manifest without one,
or a record of a reserved TYPE. -/
inductive ManifestEnd where
  | endRecord | missing | reservedType
deriving DecidableEq, Repr


/-- The commands and events of the node: one constructor for each row of spec/opcode_table.json. -/
inductive Instr where
  /-- REGISTER_WRITE (R5). A write to a register that has no row of its own, applying its access codes, reserved-bit and seal rules. -/
  | registerWrite (m : Master) (a : Word) (width : Nat) (v : DWord)
  /-- WIDE_LO_READ (R9). A read of a _LO register latches the _HI and _TOP parts for the reading master. -/
  | wideLoRead (m : Master) (a : Word)
  /-- WIDE_HI_WRITE (R10). A write of _HI or _TOP goes to the write stage, tagged with the writing master. -/
  | wideHiWrite (m : Master) (a : Word) (v : Word)
  /-- WIDE_LO_WRITE (R11). A write of _LO commits the whole wide value in one cycle, using the staged upper parts when they carry the master's tag. -/
  | wideLoWrite (m : Master) (a : Word) (v : Word)
  /-- SERVICE_WRITE (R27). A write of NODE_CTL.SERVICE requests a service mode transition, or is refused and counted. -/
  | serviceWrite (m : Master) (v : Word)
  /-- SERVICE_MODE_TAKES_EFFECT (R28). The requested service mode comes into force at the next cycle boundary, or within 1 µs when no timetable runs. -/
  | serviceModeTakesEffect
  /-- SEAL (R7). A write of 1 to NODE_CTL.SEAL makes every RWL field read-only until node reset. -/
  | seal (m : Master) (v : Word)
  /-- SOFT_RESET (R30). A write of NODE_CTL.RESET with KEY 0x5A causes node reset with cause SOFT. -/
  | softReset (m : Master) (v : Word)
  /-- RESET_L_LOW (R32). RESET_L held low for 1 µs or more causes node reset for as long as it stays low. -/
  | resetLLow
  /-- RESET_L_RELEASE (R32). RESET_L rises, and the digital die leaves node reset and the ROM boots again. -/
  | resetLRelease
  /-- KICK (R35). A write of 0x4B to NODE_WDOG.KICK restarts the watchdog timeout. -/
  | kick (m : Master) (v : Word)
  /-- WATCHDOG_EXPIRY (R35). The watchdog timeout elapses without a kick, and node reset with cause WDOG follows. -/
  | watchdogExpiry
  /-- CLOCK_LOSS (R18). The system PLL loses lock or REFCLK stops for more than 2 µs, causing node reset with cause CLK. -/
  | clockLoss
  /-- PLL_LOCK_HELD (R18). After the PLL has held lock for 1 ms, the digital die is released from clock-loss reset. -/
  | pllLockHeld
  /-- CLOCK_MONITOR_WINDOW (R17). At the end of each 64 µs window every clock is judged against its nominal frequency, setting or clearing its bad bit, NODE_FAULT_L and a notice. -/
  | clockMonitorWindow (fclk uclk core bus : Nat)
  /-- UNIT_RESET_HOLD (R33). A write of NODE_URST with HOLD 1 puts the selected unit in unit reset, lowers PRESENT and releases its pins to the keepers. -/
  | unitResetHold (m : Master) (v : Word)
  /-- UNIT_RESET_RELEASE (R33). A write of NODE_URST with HOLD 0 releases the selected unit, which starts from its reset values. -/
  | unitResetRelease (m : Master) (v : Word)
  /-- SUPPLY_FAULT_START (R37). A bank's measured VDDIO class differs from the expected one or falls below its minimum, and the bank enters supply fault. -/
  | supplyFaultStart (b : Fin 16)
  /-- SUPPLY_FAULT_END (R37). One millisecond after the measured class matches again, the bank's supply fault ends and a notice is posted. -/
  | supplyFaultEnd (b : Fin 16)
  /-- BANK_CFG_WRITE (R37). A write of BANK_CFG sets the expected supply, domain and queue, and a write of VDDIO 0 ends a supply fault at once. -/
  | bankCfgWrite (m : Master) (b : Fin 16) (v : Word)
  /-- STRAP_SAMPLE (R51). One millisecond after a bank's VDDIO is first valid, pin 15 is sampled and fixes the bank's strap pull until cold start. -/
  | strapSample (b : Fin 16) (level : Bool)
  /-- PIN_CFG_WRITE (R40). A write of PIN_CFG claims, releases or reconfigures a pin, or is refused with CLAIM_REFUSED. -/
  | pinCfgWrite (m : Master) (p : Fin 256) (v : Word)
  /-- PIN_TRANSITION (R42). A filtered transition on a claimed pin changes its filtered level and starts or restarts a debounce episode. -/
  | pinTransition (p : Fin 256) (level : Bool) (age : Nat)
  /-- EDGE_ACCEPTED (R43). The filtered level has differed for the stable time, the new level is accepted and the capture record and latch are committed. -/
  | edgeAccepted (p : Fin 256)
  /-- EDGE_REJECTED (R43). The filtered level has equalled the accepted level for the stable time, the episode ends and the glitch counter rises. -/
  | edgeRejected (p : Fin 256)
  /-- BANK_CAP_READ (R46). A read of BANK_CAP_LO removes the oldest capture record and latches its upper parts for the reader. -/
  | bankCapRead (m : Master) (b : Fin 16)
  /-- PIN_OUT_WRITE (R47). A write of PIN_OUT.VAL sets the value an unmapped DOUT pin drives. -/
  | pinOutWrite (m : Master) (p : Fin 256) (v : Word)
  /-- PIN_OUT_TOGGLE (R47). A write of 1 to PIN_OUT.TOGGLE inverts PIN_OUT.VAL. -/
  | pinOutToggle (m : Master) (p : Fin 256) (v : Word)
  /-- BANK_OUT_SET (R47). A write of BANK_OUT_SET sets PIN_OUT.VAL of the masked pins in one cycle. -/
  | bankOutSet (m : Master) (b : Fin 16) (v : Word)
  /-- BANK_OUT_CLR (R47). A write of BANK_OUT_CLR clears PIN_OUT.VAL of the masked pins in one cycle. -/
  | bankOutClr (m : Master) (b : Fin 16) (v : Word)
  /-- WAIT_LEVEL (R73). The engine waits until a pin's level equals POL. -/
  | waitLevel (e : Fin 64)
  /-- WAIT_EDGE (R73). The engine waits for an edge of the POL direction on a pin. -/
  | waitEdge (e : Fin 64)
  /-- WAIT_FLAG (R73). The engine waits for a cluster flag to equal POL, optionally lowering it. -/
  | waitFlag (e : Fin 64)
  /-- WAIT_COUNT (R73). The engine decrements X or Y each clock until it reads 0. -/
  | waitCount (e : Fin 64)
  /-- SHIN (R74). The engine shifts bits into ISR and hands a completed word to the RX FIFO when asked. -/
  | shin (e : Fin 64)
  /-- SHOUT (R75). The engine shifts bits out of OSR to a destination, refilling an exhausted OSR when asked. -/
  | shout (e : Fin 64)
  /-- PULL (R80). The engine takes a word from the TX FIFO into OSR, X or Y, or reloads from the latch when non-blocking and empty. -/
  | pull (e : Fin 64)
  /-- PUSH (R82). The engine appends ISR, X or Y to the RX FIFO, overwriting the youngest entry when non-blocking and full. -/
  | push (e : Fin 64)
  /-- MOVE (R76). The engine copies a source through a transform to a destination in one clock. -/
  | scribeMove (e : Fin 64)
  /-- SET (R77). The engine writes a 6-bit immediate to a register, count or out-lanes. -/
  | scribeSet (e : Fin 64)
  /-- JUMP (R66). The engine jumps conditionally, including counted loops on X or Y. -/
  | jump (e : Fin 64)
  /-- MARK (R78). The engine takes a short postmark into its mark registers or the RX FIFO. -/
  | mark (e : Fin 64)
  /-- FLAG_RAISE (R96). The engine raises a cluster flag. -/
  | flagRaise (e : Fin 64)
  /-- FLAG_LOWER (R96). The engine lowers a cluster flag. -/
  | flagLower (e : Fin 64)
  /-- FLAG_TOGGLE (R96). The engine inverts a cluster flag. -/
  | flagToggle (e : Fin 64)
  /-- FLAG_NOTICE (R97). The engine posts a notice with a 3-bit code to the cluster's queue. -/
  | flagNotice (e : Fin 64)
  /-- ILLEGAL (R89). An opcode 0xA to 0xF fetched or injected halts the engine in FAULT with cause ILLEGAL. -/
  | illegal (e : Fin 64)
  /-- STALL_COMPLETE (R68). A stalled instruction's condition clears and the instruction completes in that clock. -/
  | stallComplete (e : Fin 64)
  /-- DELAY_EXPIRY (R66). An instruction's DELAY clocks run out and the engine reaches its next instruction boundary and fetch. -/
  | delayExpiry (e : Fin 64)
  /-- ENGINE_ENABLE (R68). A write of SCR_CTL.EN = 1 moves an IDLE engine to RUN, or is refused in FAULT. -/
  | engineEnable (m : Master) (e : Fin 64) (v : Word)
  /-- ENGINE_DISABLE (R68). A write clearing SCR_CTL.EN moves the engine to IDLE at once, keeping its latch. -/
  | engineDisable (m : Master) (e : Fin 64) (v : Word)
  /-- ENGINE_STEP (R68). A write of SCR_CTL.STEP runs one instruction and its delay on an IDLE engine. -/
  | engineStep (m : Master) (e : Fin 64) (v : Word)
  /-- RESTART (R69). A write of SCR_CTL.RESTART sets PC to ENTRY, empties the latch and clears the shift registers. -/
  | restart (m : Master) (e : Fin 64) (v : Word)
  /-- CLRF (R68). A write of SCR_CTL.CLRF leaves FAULT for IDLE, unless a store parity error is still flagged. -/
  | clrf (m : Master) (e : Fin 64) (v : Word)
  /-- CSYNC_START (R65). A write of SCR_CSYNC.START enables the listed engines with a common divider phase origin. -/
  | csyncStart (m : Master) (k : Fin 16) (v : Word)
  /-- CSYNC_STOP (R65). A write of SCR_CSYNC.STOP clears EN of the listed engines in one cycle. -/
  | csyncStop (m : Master) (k : Fin 16) (v : Word)
  /-- CLKDIV_WRITE (R64). A write of SCR_CLKDIV sets a new divider whose phase origin is the second cycle after the write. -/
  | clkdivWrite (m : Master) (e : Fin 64) (v : Word)
  /-- INJECT (R87). A write of SCR_INJ places an instruction in the injection latch, executed at the next boundary or in place of a stall. -/
  | inject (m : Master) (e : Fin 64) (v : Word)
  /-- PROGRAM_STORE_WRITE (R85). A 16- or 32-bit write replaces program-store words without disturbing latched instructions. -/
  | programStoreWrite (m : Master) (k : Fin 16) (off : Nat) (width : Nat) (v : Word)
  /-- SCR_TXF_WRITE (R84). A write of SCR_TXF appends a word to the TX FIFO, or drops it when full or DMA-fed. -/
  | scrTxfWrite (m : Master) (e : Fin 64) (v : Word)
  /-- SCR_RXF_READ (R84). A read of SCR_RXF removes and returns the oldest RX word, or returns 0 when empty or DMA-drained. -/
  | scrRxfRead (m : Master) (e : Fin 64) (bad : Bool)
  /-- FLAGS_CLEAR (R96). A write of 1 to SCR_FLAGS.FLAG bits lowers those cluster flags. -/
  | flagsClear (m : Master) (k : Fin 16) (v : Word)
  /-- FLAGS_SET (R96). A write of SCR_FLAGS.SET raises the named cluster flags. -/
  | flagsSet (m : Master) (k : Fin 16) (v : Word)
  /-- ENGINE_STATE_WRITE (R58). A write of an engine state or configuration register while EN is 0 changes it; with EN 1 it is refused with CFGREF. -/
  | engineStateWrite (m : Master) (e : Fin 64) (r : EngineReg) (v : Word)
  /-- PC_WRITE (R58). A write of SCR_PC on an IDLE engine sets PC and empties the instruction latch. -/
  | pcWrite (m : Master) (e : Fin 64) (v : Word)
  /-- DMA_CHANNEL_WRITE (R92). A write of SCR_DMA_TX or SCR_DMA_RX sets a channel record, or is refused when it would pass the image half. -/
  | dmaChannelWrite (m : Master) (e : Fin 64) (rx : Bool) (v : Word)
  /-- DMA_TX_REFILL (R93). A REFILL TX channel starts a record read once the TX FIFO has room for the whole record. -/
  | dmaTxRefill (e : Fin 64)
  /-- DMA_TX_RETURN (R93). A TX record read returns and is pushed whole into the TX FIFO, or is skipped and counted. -/
  | dmaTxReturn (e : Fin 64) (ok : Bool)
  /-- DMA_RX_BLOCK (R95). An RX channel starts writing a record once the RX FIFO holds at least a whole record. -/
  | dmaRxBlock (e : Fin 64) (bad : BitVec 16)
  /-- DMA_RECORD_COMMIT (R497). A DMA write record's last access completes and the record is committed at the image together. -/
  | dmaRecordCommit (e : Fin 64)
  /-- MB_INIT_CLEAR (R100). A write clearing MB_CTL.INIT starts bus integration, or is refused with CFGREF. -/
  | mbInitClear (m : Master) (c : Fin 8) (v : Word)
  /-- MB_INIT_SET (R101). A write of 1 to MB_CTL.INIT takes the controller off the bus, at once or at the end of the current frame. -/
  | mbInitSet (m : Master) (c : Fin 8) (v : Word) (inFrame : Bool)
  /-- BUS_INTEGRATED (R112). Eleven consecutive recessive bits after INIT is cleared make the controller ERROR_ACTIVE. -/
  | busIntegrated (c : Fin 8)
  /-- FRAME_RECEIVED (R108). A frame received without error is stored into the first matching receive object at the end of its EOF. -/
  | frameReceived (c : Fin 8) (f : BusFrame) (age : Nat) (reference : Bool)
  /-- PROTOCOL_EXCEPTION (R99). A recessive res bit starts the protocol exception event, or a form error when RESERR is 1. -/
  | protocolException (c : Fin 8) (recUp : Nat)
  /-- BUS_ERROR (R111). A detected bus error updates the error counters and state, and schedules a retransmission or ends the request. -/
  | busError (c : Fin 8) (kind : BusFault) (tecUp recUp : Nat)
  /-- BUS_OFF_RECOVERY (R112). 128 occurrences of 11 recessive bits return a bus-off controller to ERROR_ACTIVE. -/
  | busOffRecovery (c : Fin 8)
  /-- TX_COPY (R109). At a transmit opportunity the winning pending object is copied into the transmit buffer in one bus clock. -/
  | txCopy (c : Fin 8) (loop : Option Nat) (uncorr : Bool)
  /-- TX_COMPLETE (R111). A transmitted frame completes at its EOF and the object's postmark, ID and count are updated. -/
  | txComplete (c : Fin 8) (age : Nat)
  /-- MB_TXREQ (R110). A write of 1 to an MB_TXREQ bit requests transmission of the object, or is refused. -/
  | mbTxreq (m : Master) (c : Fin 8) (j : Fin 4) (v : Word)
  /-- MB_TXCAN (R111). A write of 1 to an MB_TXCAN bit clears a pending request not yet copied. -/
  | mbTxcan (m : Master) (c : Fin 8) (j : Fin 4) (v : Word)
  /-- MB_NEW_CLEAR (R106). A write of 1 to an MB_NEW bit clears the object's NEW and LOST. -/
  | mbNewClear (m : Master) (c : Fin 8) (j : Fin 4) (v : Word)
  /-- TT_ENABLE (R116). Setting MB_TT_CFG.TTEN starts the basic cycle after checking the trigger list for S3 errors. -/
  | ttEnable (m : Master) (c : Fin 8) (v : Word)
  /-- TT_REFERENCE_REQUEST (R114). A time master's ITB reaches T0 + k × PERIOD and it requests its reference message. -/
  | ttReferenceRequest (c : Fin 8)
  /-- TT_TRIGGER (R115). The cycle time reaches an enabled trigger's TIME_MARK in a matching cycle and the trigger acts. -/
  | ttTrigger (c : Fin 8) (n : Fin 64) (busIdle : Bool)
  /-- GW_MAP_WRITE (R117). A write of a gateway map entry enables or changes it, or is refused with CFGREF. -/
  | gwMapWrite (m : Master) (n : Fin 512) (b : Bool) (v : Word)
  /-- GW_BUS_TO_IMAGE (R119). After a frame is stored, the gateway writes all its DIR 0 entries into the input image as one burst. -/
  | gwBusToImage
  /-- GW_IMAGE_TO_BUS (R120). After a boundary the gateway updates transmit objects from the stable output half and requests them by GWTX. -/
  | gwImageToBus
  /-- BUS_FRAME (R122). An incoming BUS_FRAME replaces an enabled transmit object's data and requests it, or is refused. -/
  | busFrame (e : Envelope)
  /-- UA_TXD_WRITE (R127). A write of UA_TXD appends a character, or is dropped when the TX FIFO is full. -/
  | uaTxdWrite (m : Master) (u : Fin 16) (v : Word)
  /-- UART_TX_START (R130). With a character queued and no reception in progress the UART raises DE and starts transmission after LEAD. -/
  | uartTxStart (u : Fin 16)
  /-- UART_TX_END (R130). LAG cycles after the last stop bit DE and RE_L fall. -/
  | uartTxEnd (u : Fin 16)
  /-- UART_CHAR_RECEIVED (R126). A character enters the RX FIFO at the middle of its first stop bit with its flags, or is discarded on overrun. -/
  | uartCharReceived (u : Fin 16) (d : BitVec 9) (par stop : Bool)
  /-- UART_START_BIT (R126). A low level after idle starts a character, confirmed half a bit later or abandoned. -/
  | uartStartBit (u : Fin 16) (confirmed : Bool) (age : Nat)
  /-- UART_GAP (R128). The line has been idle for IDLE bit times, END is set on the youngest entry and a notice is posted. -/
  | uartGap (u : Fin 16)
  /-- UA_RXD_READ (R131). A read of UA_RXD removes the oldest character, or is refused in image mode. -/
  | uaRxdRead (m : Master) (u : Fin 16)
  /-- ENCODER_EDGE (R133). An accepted A or B level change is counted by MODE, wraps by MOD, steps the track, or is judged illegal. -/
  | encoderEdge (n : Fin 16) (a b : Bool) (age : Nat)
  /-- ENCODER_INDEX (R135). An accepted rising Z edge latches the count, postmarks it, optionally resets the count and posts a notice. -/
  | encoderIndex (n : Fin 16) (z a b : Bool) (age : Nat)
  /-- EN_COUNT_WRITE (R134). A write of EN_COUNT sets the count at the next UCLK edge. -/
  | enCountWrite (m : Master) (n : Fin 16) (v : Word)
  /-- ZARM (R135). A write of 1 to EN_CTL.ZARM arms a one-time reset at the next index. -/
  | zarm (m : Master) (n : Fin 16) (v : Word)
  /-- MAINS_ENABLE (R139). Setting MP_CTL.EN starts the mains input in ACQUIRE at 50 or 60 Hz. -/
  | mainsEnable (m : Master) (n : Fin 2) (v : Word)
  /-- MAINS_EDGE (R137). An accepted mains edge corrects the loop frequency and may change the input state. -/
  | mainsEdge (n : Fin 2) (rising : Bool) (age : Nat)
  /-- MAINS_EDGE_MISSING (R139). No accepted edge for 1.5 periods moves the input to HOLDOVER. -/
  | mainsEdgeMissing (n : Fin 2)
  /-- MAINS_HOLD_MAX (R139). HOLD_MAX periods in HOLDOVER without an edge return the input to ACQUIRE. -/
  | mainsHoldMax (n : Fin 2)
  /-- LI_TIMEOUT (R143). A target that has not completed an access within LI_TOUT.CYCLES is ended with an error response LI_TIMEOUT. -/
  | liTimeout (requester : Fin 24) (a : Word) (write : Bool)
  /-- ARB_PRI_WRITE (R148). A write of ARB_PRIn changes a requester's rank, possibly preempting the current holder. -/
  | arbPriWrite (m : Master) (n : Fin 24) (v : Word)
  /-- ARB_QUOTA_WRITE (R147). A write of ARB_QUOTA sets a new quota and window that take effect at the next window boundary. -/
  | arbQuotaWrite (m : Master) (v : Word)
  /-- QUOTA_WINDOW_END (R147). A quota window ends, every rank-3 count returns to 0 and every quota mask clears. -/
  | quotaWindowEnd
  /-- NOTICE_ENTRY (R157). A notice enters its queue once earlier writes of its source are committed, with priority, SEQ and overflow handling. -/
  | noticeEntry (cap : BitVec 16) (inst : BitVec 8)
  /-- PH_POP (R156). A read of PH_POP removes the next item and latches the rest for the reading master. -/
  | phPop (m : Master) (q : Fin 32) (bad : BitVec 2)
  /-- PH_ITEM_READ (R156). A read of PH_ITEM1 to PH_ITEM3 returns the latched item part, or 0 with TORN for another master. -/
  | phItemRead (m : Master) (q : Fin 32) (k : Fin 3)
  /-- FLUSH (R155). A write of PH_CTL.FLUSH empties the queue in one cycle. -/
  | flush (m : Master) (q : Fin 32) (v : Word)
  /-- PH_CFG_WRITE (R160). A write of PH_CFG reconfigures a queue, or is refused; clearing EN empties it. -/
  | phCfgWrite (m : Master) (q : Fin 32) (v : Word)
  /-- NOTICE_ENVELOPE_BUILD (R158). With a subscribed queue holding items and room available the bridge builds a NOTICE envelope of up to BATCH items. -/
  | noticeEnvelopeBuild (q : Fin 32) (bad : BitVec 32)
  /-- NOTICE_ENVELOPE_RELEASE (R159). A NOTICE envelope leaves once earlier writes of its sources are accepted or answered, or the wait times out. -/
  | noticeEnvelopeRelease (q : Fin 32)
  /-- WRITE_P (R161). A posted write request arrives at the inbound half and is queued. -/
  | writeP (e : Envelope)
  /-- WRITE_A (R161). An acknowledged write request arrives at the inbound half and is queued. -/
  | writeA (e : Envelope)
  /-- READ (R161). A read request arrives at the inbound half and is queued, or refused under R185. -/
  | read (e : Envelope)
  /-- LOCK_READ (R179). A LOCK_READ arrives, takes a semaphore or locked grant, waits in the list, or is refused. -/
  | lockRead (e : Envelope)
  /-- UNLOCK_WRITE (R179). An UNLOCK_WRITE arrives, is performed and releases the lock. -/
  | unlockWrite (e : Envelope)
  /-- INBOUND_START (R172). The inbound half starts the next queued request by class order and checks it under R164. -/
  | inboundStart
  /-- INBOUND_PIECE (R173). One piece of a request is performed as an interconnect access; a failure ends the request with an NDN or error response. -/
  | inboundPiece (bad : BitVec 2) (found : Found)
  /-- LOCK_WAITER_GRANT (R181). When a semaphore is released the oldest eligible waiter takes it and starts. -/
  | lockWaiterGrant
  /-- LOCK_TIMEOUT (R183). A lock not released within BR_LOCKT is broken and the holder is sent an NDN LOCK_TIMEOUT. -/
  | lockTimeout (holder : MasterId)
  /-- PREFETCH_HOLD_EXPIRY (R186). A read-ahead buffer unclaimed for PF_HOLD µs is discarded and logged or counted. -/
  | prefetchHoldExpiry (k : Fin 4)
  /-- CHANNEL_GO (R188). A write of BR_OCn_CMD with GO issues the channel's request with a new tag, or is refused. -/
  | channelGo (m : Master) (c : Fin 4) (v : Word)
  /-- CHANNEL_ACCEPTED (R188). The sorting office accepts a channel's WRITE_P and the channel returns to IDLE. -/
  | channelAccepted (c : Fin 4)
  /-- WRITE_ACK (R170). A WRITE_ACK arrives and completes its request, or is logged as a late letter. -/
  | writeAck (e : Envelope)
  /-- READ_DATA (R170). A READ_DATA arrives and completes its request with its data, or is logged as a late letter. -/
  | readData (e : Envelope)
  /-- NDN (R170). An NDN arrives and completes its request in ERROR, or is logged as an NDN or late letter. -/
  | ndn (e : Envelope)
  /-- RESPONSE_TIMEOUT (R171). A non-posted request not completed within BR_RTOUT ends in ERROR TIMEOUT and its slot enters quarantine. -/
  | responseTimeout (index : Fin 512)
  /-- QUARANTINE_END (R168). A non-posted slot's quarantine of TQ ends and the slot becomes free. -/
  | quarantineEnd (index : Fin 512)
  /-- DL_TAIL_WRITE (R196). A write of DL_TAIL frees dead-letter entries, or is refused beyond HEAD. -/
  | dlTailWrite (m : Master) (v : Word)
  /-- UP_TAIL_WRITE (R200). A write of UP_TAIL frees unclaimed-prefetch entries, or is refused beyond HEAD. -/
  | upTailWrite (m : Master) (v : Word)
  /-- DL_FORWARD (R198). The office sends the next dead-letter entry as a WRITE_P through channel 2 once the channel is free. -/
  | dlForward
  /-- ENVELOPE_START (R226). An output starts the next envelope chosen among class heads with released cell 0 and credit. -/
  | envelopeStart (o : Fin 3) (uncorr : BitVec 36) (ph : Fin 32)
  /-- OUTPUT_STALL (R217). A cell not yet released when the link needs it makes the output send FILL and count a stall. -/
  | outputStall (o : Fin 3)
  /-- RESEQ_TIMEOUT (R209). A held pointer waits 16 slots without its predecessor, and the missing envelope is discarded. -/
  | reseqTimeout (o : Fin 8) (n : Fin 8) (c : Fin 4)
  /-- INTERNAL_DELIVERY (R225). An internal output offers a released envelope whole to its unit, which accepts it or holds the queue. -/
  | internalDelivery (o : Fin 5) (accept : Bool) (uncorr : BitVec 36)
  /-- SO_RES_WRITE (R214). A write of SO_RESp or SO_POOL changes reservations, or is refused with CFGREF. -/
  | soResWrite (m : Master) (a : Word) (v : Word)
  /-- ENVELOPE_RECEIVED (R244). A ring port receives a whole envelope, checks HCRC and PCRC, judges KIND and HOPS, and hands it to routing. -/
  | envelopeReceived (p : Fin 3) (e : Envelope) (age : Nat) (ph : Fin 32) (fills : Nat)
  /-- BAD_BLOCK (R237). A block with an invalid sync header or type is taken as unknown or discarded, and counted. -/
  | badBlock (p : Fin 3)
  /-- STAMP_SEND (R239). STAMP_INT × 8 blocks after the last stamp the port sends a STAMP, and an AUDIT after every 16th. -/
  | stampSend (p : Fin 3)
  /-- STAMP (R239). A received STAMP updates transmit credits and, in READY, brings the port UP. -/
  | stamp (p : Fin 3) (w : DWord)
  /-- AUDIT (R240). A received AUDIT recovers cells lost to hunting, or faults the link when the difference exceeds 4,096. -/
  | audit (p : Fin 3) (w : DWord)
  /-- TRAIN (R247). A received TRAIN moves the port toward READY, flags an incompatible role, or takes an UP port down. -/
  | train (p : Fin 3) (w : DWord)
  /-- PORT_ENABLE (R247). Setting PT_CTL.EN moves the port from OFF to NOMOD or SEARCH. -/
  | portEnable (m : Master) (p : Fin 3) (v : Word)
  /-- PORT_DISABLE (R247). Clearing PT_CTL.EN moves the port to OFF. -/
  | portDisable (m : Master) (p : Fin 3) (v : Word)
  /-- RETRAIN (R247). A write of PT_CTL.RETRAIN restarts SEARCH. -/
  | retrain (m : Master) (p : Fin 3) (v : Word)
  /-- MODULE_CHANGE (R234). SFP_x_MODABS changes; a removal holds the port in NOMOD. -/
  | moduleChange (p : Fin 3) (absent : Bool)
  /-- MODULE_QUALIFY (R234). MODABS low for 300 ms leads the hub to read the module ID and accept or refuse it. -/
  | moduleQualify (p : Fin 3) (id : Byte) (diag : Byte)
  /-- BLOCK_LOCK (R247). 64 consecutive valid sync headers move the port from SEARCH to TRAIN. -/
  | blockLock (p : Fin 3)
  /-- LOCKLOSS (R251). 16 invalid sync headers within 64 blocks take the port to SEARCH. -/
  | lockloss (p : Fin 3)
  /-- LOS (R251). SFP_x_LOS high for 256 ns takes the port to SEARCH. -/
  | los (p : Fin 3) (high : Bool)
  /-- HIBER (R251). More than 16 invalid sync headers in a 125 µs window take the port out of UP. -/
  | hiber (p : Fin 3)
  /-- STAMPTO (R251). No STAMP for 16 µs takes the port out of UP. -/
  | stampto (p : Fin 3)
  /-- READY_TIMEOUT (R247). One millisecond in READY without a stamp returns the port to TRAIN. -/
  | readyTimeout (p : Fin 3)
  /-- RATE_ALTERNATE (R249). In AUTO a port not READY within 10 ms changes to the other line rate. -/
  | rateAlternate (p : Fin 3)
  /-- DDM_POLL (R234). Once per second the hub reads the module's diagnostics into PT_DDM_A to PT_DDM_C. -/
  | ddmPoll (p : Fin 3) (temp vcc bias txpwr rxpwr : BitVec 16)
  /-- I2C_GO (R234). A write of PT_I2C_CMD.GO starts a module read or write, or is refused while busy. -/
  | i2cGo (m : Master) (p : Fin 3) (v : Word)
  /-- I2C_COMPLETE (R234). An I2C command completes, setting RDATA or ERR. -/
  | i2cComplete (p : Fin 3) (ack : Bool) (data : Byte)
  /-- LINK_EVENT (R270). A received LINK_EVENT enters or removes a boundary before the next routing decision. -/
  | linkEvent (p : Fin 3) (e : Envelope)
  /-- ELECTION_START (R274). An eligible hub unnumbered for 100 ms or without COMMIT for 3 × CINT sends a CLAIM. -/
  | electionStart
  /-- CN_CLAIM (R274). A write of CN_CMD.CLAIM starts an election. -/
  | cnClaim (m : Master) (v : Word)
  /-- CLAIM (R274). A received CLAIM is forwarded, dropped, turned back, or makes its claimant root. -/
  | claim (p : Fin 3) (e : Envelope)
  /-- NUMBER (R275). A received NUMBER gives the hub a position and index and is passed on. -/
  | number (p : Fin 3) (e : Envelope) (renumber : Bool)
  /-- RENUMBER (R275). A write of CN_CMD.RENUMBER starts a renumbering wave at the root, or is refused elsewhere. -/
  | renumber (m : Master) (v : Word)
  /-- CENSUS_REPLY (R277). A CENSUS_REPLY reaching the root is admitted or refused. -/
  | censusReply (p : Fin 3) (e : Envelope)
  /-- REPLY_RESEND (R276). 3 × CINT without an admitting COMMIT makes the hub resend its reply. -/
  | replyResend
  /-- COMMIT_SEND (R277). Every CINT × 100 ms, or after an admission, the root sends COMMIT parts 0 to 2. -/
  | commitSend
  /-- COMMIT (R277). A received COMMIT part loads RT_PRESj and, with all three parts, admits the hub or keeps it quarantined. -/
  | commit (p : Fin 3) (e : Envelope)
  /-- NEIGHBOUR (R279). A received NEIGHBOUR records the neighbour's index and may allow a join. -/
  | neighbour (p : Fin 3) (e : Envelope)
  /-- JOIN (R280). A quarantined unnumbered hub with NEIGHBOURs, or one after 1 s, takes an index and replies. -/
  | join
  /-- ITB_INC_COMMIT (R287). A write of ITBn_INC_LO commits a new increment, or refuses one outside ±0.1 %. -/
  | itbIncCommit (m : Master) (n : Fin 4) (v : Word)
  /-- ITB_STEP (R288). A write of ITBn_STEP_LO commits a relative or absolute step applied at the next FCLK edge. -/
  | itbStep (m : Master) (n : Fin 4) (v : Word)
  /-- VD_LOAD (R291). A write of VDn_CTL.LOAD applies the staged BASE, ANCHOR and RATE together. -/
  | vdLoad (m : Master) (d : Fin 16) (v : Word)
  /-- BEACON_SEND (R292). Every BPER µs the time unit sends a BEACON on each eligible port. -/
  | beaconSend (p : Fin 3)
  /-- DELAY_PROBE_SEND (R292). BPER/2 after each beacon the time unit sends a DELAY_PROBE. -/
  | delayProbeSend (p : Fin 3)
  /-- DELAY_PROBE (R294). A received DELAY_PROBE is answered with a DELAY_REPLY within 2 µs. -/
  | delayProbe (p : Fin 3) (e : Envelope) (age : Nat) (ph : Fin 32)
  /-- DELAY_REPLY (R295). A received DELAY_REPLY gives the mean path delay stored in TM_Pp_MPD. -/
  | delayReply (p : Fin 3) (e : Envelope) (age : Nat) (ph : Fin 32)
  /-- BEACON (R296). A received BEACON gives an offset sample and is judged for parent selection. -/
  | beacon (p : Fin 3) (e : Envelope) (age : Nat) (ph : Fin 32)
  /-- PARENT_LOST (R297). The parent's beacon stops being eligible with no other candidate, and SYNCED clears. -/
  | parentLost
  /-- CYCLE_BOUNDARY (R304). ITB0 reaches T_k: the cycle number advances, images swap, bank swaps and mode changes take effect. -/
  | cycleBoundary
  /-- INPUT_SEAL (R304). Within 2 µs of the boundary the sealing half becomes the stable input half and held reads complete. -/
  | inputSeal
  /-- SWAPNOW (R305). A write of TT_CTL.SWAPNOW performs one image swap while the timetable is not running. -/
  | swapnow (m : Master) (v : Word)
  /-- TT_RUN_WRITE (R303). A write of TT_CTL.RUN starts or stops the timetable at the next qualifying boundary, or is refused. -/
  | ttRunWrite (m : Master) (v : Word)
  /-- SWAP_REQ (R307). A write of TT_CTL.SWAP_REQ requests a bank swap at the next or a named boundary, or is refused. -/
  | swapReq (m : Master) (v : Word)
  /-- TT_ENTRY_STAGE (R309). A write of entry word 1, 2 or 3 stores it in the bank's entry stage. -/
  | ttEntryStage (m : Master) (bank : Fin 2) (n : Fin 256) (k : Fin 3) (v : Word)
  /-- TT_ENTRY_COMMIT (R309). A write of entry word 0 commits the entry, latches it when in transmission, or is refused. -/
  | ttEntryCommit (m : Master) (bank : Fin 2) (n : Fin 256) (v : Word)
  /-- TT_ENTRY_START (R310). At E + OFFSET, after the previous handover and with pool room, an entry's CYCLIC envelope is built. -/
  | ttEntryStart
  /-- TT_ENTRY_HANDOVER (R312). An entry's last cell is handed over and a pending latched commit lands. -/
  | ttEntryHandover
  /-- CYCLIC (R313). A received CYCLIC is dropped, discarded as late or refused, or written into the output fill half. -/
  | cyclic (e : Envelope)
  /-- TK_CFG_WRITE (R322). A write of TK_CFG or TK_RSRC changes a held track's source and restarts its velocity window, or is refused. -/
  | tkCfgWrite (m : Master) (n : Fin 16) (rsrc : Bool) (v : Word)
  /-- TRACK_HOLD (R321). Setting TK_CTL.HOLD freezes the track in HELD. -/
  | trackHold (m : Master) (n : Fin 16) (v : Word)
  /-- TRACK_RELEASE (R322). Clearing TK_CTL.HOLD releases the track, with a judged jump for absolute and remote tracks. -/
  | trackRelease (m : Master) (n : Fin 16) (v : Word)
  /-- TK_POS_WRITE (R320). A write of TK_POS commits a silent jump on an incremental track, or is refused. -/
  | tkPosWrite (m : Master) (n : Fin 16) (v : Word)
  /-- TRACK_SOURCE_INVALID (R321). A local track's source becomes invalid or valid again, moving it between STALE and LIVE. -/
  | trackSourceInvalid (n : Fin 16)
  /-- TRACK_FRESH_EXPIRY (R321). FRESH passes without an accepted sample and a remote track coasts or goes STALE. -/
  | trackFreshExpiry (n : Fin 16)
  /-- TRACK_COAST_EXPIRY (R321). The coast limit passes and a remote track freezes STALE at its extrapolation. -/
  | trackCoastExpiry (n : Fin 16)
  /-- TRACK_PUBLISH (R323). At the sample edge the track is sampled and sent as a TRACK_SAMPLE, or the sample is refused. -/
  | trackPublish (n : Fin 16)
  /-- TRACK_SAMPLE (R326). A received TRACK_SAMPLE is accepted by matching remote tracks or discarded. -/
  | trackSample (e : Envelope)
  /-- WAYMARK_TAKEUP (R333). Within 1 µs of a write the scheduler takes up an entry change, judging an entry armed behind. -/
  | waymarkTakeup (n : Fin 4096)
  /-- WAYMARK_CROSSING (R334). A track's lead position crosses an armed mark and the crossing enters the firing queue. -/
  | waymarkCrossing (n : Fin 16)
  /-- PIN (R345). A selected PIN action sets or toggles the masked WOUT pins of a bank. -/
  | actPin
  /-- PULSE (R345). A selected PULSE action drives masked WOUT pins to LEVEL with a pulse timer, or is refused. -/
  | actPulse
  /-- FLAG (R346). A selected FLAG action raises cluster flags. -/
  | actFlag
  /-- EMIT (R347). A selected EMIT action queues a WRITE_P from a template, or is dropped. -/
  | actEmit
  /-- BUS (R348). A selected BUS action requests a message object. -/
  | actBus
  /-- CAPTURE (R349). A selected CAPTURE action samples a bank into the capture FIFO and optionally the image. -/
  | actCapture
  /-- NOTICE (R350). A selected NOTICE action posts a notice with the entry's code and argument. -/
  | actNotice
  /-- CHAIN (R350). A selected CHAIN action arms or disarms a target entry, optionally moving its mark. -/
  | actChain
  /-- PULSE_END (R345). A pulse timer's WIDTH elapses and its pins go to the opposite level. -/
  | pulseEnd (k : Fin 64)
  /-- EMIT_DISPATCH (R347). A queued emit is issued through channel 3 once the channel is free and owned by master 2. -/
  | emitDispatch
  /-- WM_CTL_WRITE (R342). A write of WM_CTL.EN suspends or resumes firing, judging passed entries on resumption. -/
  | wmCtlWrite (m : Master) (v : Word)
  /-- WM_CAP_READ (R349). A read of WM_CAP_LO removes the oldest waymark capture record and latches its other parts. -/
  | wmCapRead (m : Master)
  /-- DPX_ENABLE (R353). A write setting DPX_CTL.EN puts the duplex unit in STANDBY, or is refused. -/
  | dpxEnable (m : Master) (v : Word)
  /-- DPX_DISABLE (R357). Clearing DPX_CTL.EN puts the duplex unit OFF with CLAIM low. -/
  | dpxDisable (m : Master) (v : Word)
  /-- YIELD (R357). A write of DPX_CTL.YIELD hands control to a READY partner, or is refused. -/
  | dpxYield (m : Master) (v : Word)
  /-- DPX_CLRF (R357). A write of DPX_CTL.CLRF returns a FAULTED hub to STANDBY, or is refused. -/
  | dpxClrf (m : Master) (v : Word)
  /-- DPX_SOFT_FAULT (R367). A write of DPX_CTL.FAULT latches SOFT in DPX_FAULT. -/
  | dpxSoftFault (m : Master) (v : Word)
  /-- PEER_CHANGE (R355). The synchronised DPX_PEER changes, possibly making side B withdraw its claim. -/
  | peerChange (level : Bool)
  /-- CLAIM_RAISE (R355). PEER low for 1 µs at a READY hub raises CLAIM, and the hub becomes ACTIVE and drives. -/
  | claimRaise
  /-- STEP_EDGE (R358). At each step edge the hub sends STEP, applies the partner's vectors, compares intent and loads corrections. -/
  | stepEdge
  /-- STEP (R360). A received STEP envelope is kept for application at the next step edge. -/
  | dpxStep (e : Envelope) (tie : Bool) (age : Nat) (ph : Fin 32)
  /-- STATE (R364). A received STATE envelope is kept to load cluster engine state two steps after capture. -/
  | dpxState (e : Envelope) (tie : Bool)
  /-- FRAME (R365). A received FRAME is stored into the standby's object or completes its pending request. -/
  | dpxFrame (e : Envelope) (tie : Bool)
  /-- HEALTH_REPORT (R370). Every PERIOD ms, or on a state or fault event, the hub sends a HEALTH REPORT. -/
  | healthReport
  /-- COLD_START (R376). VIN rises through the reset level and the power die starts the regulators in sequence. -/
  | coldStart (straps : Straps) (monEn : Bool)
  /-- REGULATOR_READY (R376). A regulator reaches 95 % and the next starts, with the digital die released 1 ms after the last. -/
  | regulatorReady
  /-- BROWN_OUT (R375). VIN falls below the warning level, entering BROWN, holding flash writes and latching SUPPLY. -/
  | brownOut (vin : Nat)
  /-- ALL_CLEAR (R375). VIN rises above warning plus hysteresis, returning to NORMAL and releasing the flash hold. -/
  | allClear (vin : Nat)
  /-- OVWARN (R374). VIN rises above 42.0 V and the over-voltage warning is set. -/
  | ovwarn (vin : Nat)
  /-- POWER_DOWN (R377). VIN falls below the reset level, holding the digital die in reset and turning the rails off. -/
  | powerDown
  /-- RAIL_OUT_OF_TOLERANCE (R378). A rail leaves its ±5 % window, setting RAIL_STAT, latching SUPPLY and posting a notice. -/
  | railOutOfTolerance (out : BitVec 4)
  /-- RAIL_COLLAPSE (R378). A rail below 80 % for 50 ticks powers down and pulls both feed gates low for 1 s. -/
  | railCollapse (rail : Fin 4)
  /-- COLLAPSE_HOLD_END (R378). After 1 s with both gates low the selector chooses a feed again. -/
  | collapseHoldEnd
  /-- TEMP_MEASURE (R379). Every 10 ms the junction temperature is measured, warning at TWARN and tripping at 135 °C. -/
  | tempMeasure (zone : Option (Fin 8)) (t : BitVec 16) (onTime : Nat)
  /-- FEED_QUALIFIED (R380). A feed stays within limits for QUAL and the selector may raise its gate. -/
  | feedQualified (b : Bool)
  /-- FEED_DISQUALIFIED (R380). A feed leaves its limits and the selector pulls its gate low and transfers or goes to NONE. -/
  | feedDisqualified (b : Bool)
  /-- FEED_HOLD_EXPIRY (R380). The preferred feed has been qualified for HOLD and the selector returns to it. -/
  | feedHoldExpiry
  /-- FEED_TRANSFER_DONE (R380). The old gate is off and DEAD has passed, so the new gate is raised. -/
  | feedTransferDone
  /-- GATE_FAULT (R380). The old gate is not off within 100 µs, GFAULT latches and the selector goes to NONE. -/
  | gateFault
  /-- FEED_MODE_WRITE (R381). A write of FEED_CFG.MODE changes the preferred feed, taking effect at the next tick. -/
  | feedModeWrite (m : Master) (v : Word)
  /-- GFCLR (R381). A write of PD_CTL.GFCLR clears both GFAULT bits. -/
  | gfclr (m : Master) (v : Word)
  /-- FLD_ENABLE (R383). With EN 1, a feed selected and no BROWN, the field rail or a zone enters RAMP. -/
  | fldEnable (c : Fin 9)
  /-- FLD_DISABLE (R383). EN cleared or the feed state NONE moves the field rail or zone to OFF without a trip. -/
  | fldDisable (c : Fin 9)
  /-- FLD_START_TIMEOUT (R383). The start timer expires in RAMP and the channel trips with cause START. -/
  | fldStartTimeout (c : Fin 9)
  /-- FLD_FULLY_ON (R383). The gate is fully on and the channel enters ON or LIMIT. -/
  | fldFullyOn (c : Fin 9) (atLimit : Bool)
  /-- FLD_LIMIT_ENTER (R383). The channel reaches its fold-back limit and the fault timer starts. -/
  | fldLimitEnter (c : Fin 9)
  /-- FLD_LIMIT_EXIT (R383). The channel falls below its limit and the episode ends with a notice. -/
  | fldLimitExit (c : Fin 9) (length : Nat)
  /-- FLD_FAULT_TIMEOUT (R383). The fault timer expires in LIMIT and the channel trips with cause FAULT. -/
  | fldFaultTimeout (c : Fin 9) (onTime : Nat)
  /-- FAST_TRIP (R382). Current above 2 × ILIM pulls the gate low within 1 µs with cause FAST. -/
  | fastTrip (c : Fin 9) (onTime : Nat)
  /-- COOL_DOWN_END (R384). Cool-down ends and the channel retries in RAMP or latches off. -/
  | coolDownEnd (c : Fin 9)
  /-- FLD_CLR (R383). A write of CLR restores the retries and moves a LATCHED channel to OFF. -/
  | fldClr (m : Master) (c : Fin 9) (v : Word)
  /-- FLD_PG_ASSERT (R385). In ON with FLD_OUT at or above RISE, FLD_PG is asserted. -/
  | fldPgAssert (vout : Nat)
  /-- FLD_PG_FALL (R385). FLD_OUT falls below FALL and FLD_PG is withdrawn. -/
  | fldPgFall (vout : Nat)
  /-- RETRY_RESTORE (R384). FLD_PG asserted continuously for 1 s restores the retries. -/
  | retryRestore
  /-- METER_SAMPLE (R388). An ADC sample is taken and the energy accumulators add V × I × Δt. -/
  | meterSample (c : Fin 10) (x y z : Nat)
  /-- METER_PUBLISH (R388). Every millisecond the averages of voltage, current and power are published. -/
  | meterPublish
  /-- ENERGY_WRITE (R389). A commit of an energy accumulator replaces it in STARTUP, or is refused. -/
  | energyWrite (m : Master) (c : Fin 9) (v : Word)
  /-- PD_LOCK (R391). A write of PD_CTL.LOCK makes the power die's configuration read-only until cold start. -/
  | pdLock (m : Master) (v : Word)
  /-- PARITY_ERROR (R398). A small-table parity error delivers the word poisoned to its consumer and posts a notice. -/
  | parityError (p : ParityPlace)
  /-- BUCKET_LEAK (R399). Every LEAK ms a class's bucket falls by 1. -/
  | bucketLeak (c : Fin 7)
  /-- SCRUB_WORD (R400). In an idle memory cycle the scrubber reads the next word and ends a lap at the last word. -/
  | scrubWord (c : Fin 7) (found : Found)
  /-- SCRUB_WRITEBACK (R400). In the next idle cycle the scrubber writes back a corrected word, or abandons the write-back. -/
  | scrubWriteback (c : Fin 7) (otherWrite : Bool)
  /-- BIST_GO (R404). A write of BIST_CMD.GO starts the test of TARGET, or is refused with CFGREF. -/
  | bistGo (m : Master) (v : Word)
  /-- BIST_COPY_DONE (R405). The copy to the spare or scratch completes and the target is switched out of service. -/
  | bistCopyDone
  /-- BIST_BANK_DRAINED (R405). With no spare, every cell of the bank is free and the bank goes offline for test. -/
  | bistBankDrained
  /-- BIST_TEST_DONE (R402). The March or logic test ends in PASS or FAIL, retiring, marking unusable or holding the target on FAIL. -/
  | bistTestDone (pass : Bool) (faddr misr : Word)
  /-- BIST_RETURN_DONE (R407). The copy back completes and the target serves again. -/
  | bistReturnDone
  /-- ROM_BOOT (R419). After reset the ROM chooses a slot, verifies it, loads firmware, or enters recovery. -/
  | romBoot (sfdp : Option (Nat × Bool)) (sram office : Bool)
  /-- WRITE32 (R423). A manifest WRITE32 record performs 32-bit writes. -/
  | mfWrite32 (a : Word) (ws : List Word)
  /-- WRITE16 (R423). A manifest WRITE16 record performs 16-bit writes. -/
  | mfWrite16 (a : Word) (hs : List (BitVec 16))
  /-- DELAY (R423). A manifest DELAY record waits ADDR µs. -/
  | mfDelay (us : Nat)
  /-- POLL (R423). A manifest POLL record waits for a masked value, failing the apply after 10 ms. -/
  | mfPoll (a : Word) (mask value : Word) (late : Bool)
  /-- PERSIST (R427). A manifest PERSIST record restores the latest persistent records. -/
  | mfPersist
  /-- NODECFG (R425). A manifest NODECFG record writes the watchdog and update-agent fields. -/
  | mfNodecfg (a : Word) (w0 w1 : Word)
  /-- END (R424). A manifest END record makes the firmware set the seal and then request NORMAL. -/
  | mfEnd (how : ManifestEnd)
  /-- PERSIST_WRITE (R429). A persistent record is appended when a token is available, or waits or is replaced. -/
  | persistWrite (kind : Fin 3)
  /-- TOKEN_GAIN (R429). Every 60 s the persistent write bucket gains a token. -/
  | tokenGain
  /-- ENERGY_CHECKPOINT (R429). Every ECKPT hours an energy checkpoint record is written. -/
  | energyCheckpoint
  /-- FOLIO_HEADER (R435). A FOLIO for folio 0 opens or resumes a session, or is refused. -/
  | folioHeader (p : Fin 3) (e : Envelope)
  /-- FOLIO_PART (R436). A FOLIO body part is gathered, answered as duplicate, dropped or refused. -/
  | folioPart (p : Fin 3) (e : Envelope)
  /-- FOLIO_QUERY (R436). A FOLIO with LENW 0 is answered with STATE for its window. -/
  | folioQuery (p : Fin 3) (e : Envelope)
  /-- FOLIO_WRITE (R436). A folio with all four parts is erased if needed, programmed, read back and journalled. -/
  | folioWrite (f : Nat) (good : Bool)
  /-- VERIFY_DONE (R436). Hashing of the written slot ends in COMPLETE or REFUSED HASH. -/
  | verifyDone
  /-- ABORT (R437). A write of UPD_CTL.ABORT closes a session that is not VERIFYING. -/
  | updAbort (m : Master) (v : Word)
  /-- ACTIVATE (R438). A write of UPD_CTL.ACTIVATE writes a TRIAL boot header and hands over to the new firmware, or is refused. -/
  | updActivate (m : Master) (v : Word)
  /-- HANDOVER_DONE (R438). The new firmware reads the handover record, releases the scratch and resumes. -/
  | handoverDone (withRecord : Bool)
  /-- CONFIRM (R439). A write of UPD_CTL.CONFIRM marks the trial slot CONFIRMED. -/
  | updConfirm (m : Master) (v : Word)
  /-- TRIAL_EXPIRY (R439). The trial time runs out unconfirmed and the agent hands over to the previous slot. -/
  | trialExpiry
  /-- RECOVERY_FRAME (R440). A framed part on the monitor UART in ROM recovery is taken as a FOLIO, or answered NAK. -/
  | recoveryFrame (bs : List Byte)
  /-- AT_ENTRY_STAGE (R444). A write of access-table word 1 or 2 stores it in the table's stage. -/
  | atEntryStage (m : Master) (t : Fin 148) (e : Fin 16) (k : Fin 2) (v : Word)
  /-- AT_ENTRY_COMMIT (R444). A write of access-table word 0 commits the entry, or is refused. -/
  | atEntryCommit (m : Master) (t : Fin 148) (e : Fin 16) (v : Word)
  /-- FUSE_PROGRAM (R452). An ID_FUSE_CMD PROGRAM blows the staged key into a slot, or is refused. -/
  | fuseProgram (m : Master) (v : Word)
  /-- FUSE_REVOKE (R452). An ID_FUSE_CMD REVOKE blows a slot's revoke fuse, or is refused. -/
  | fuseRevoke (m : Master) (v : Word)
  /-- FUSE_DONE (R452). A fuse command completes within 10 ms, revoking a slot on read-back mismatch. -/
  | fuseDone (matched : Bool)
  /-- SNAPSHOT_MARK (R459). A received SNAPSHOT_MARK becomes pending, replaces a pending one, or is refused. -/
  | snapshotMark (e : Envelope)
  /-- SNAPSHOT_TAKE (R460). ITB0 reaches a pending mark's instant and every register counter is copied into its bank. -/
  | snapshotTake
  /-- ARRAY_COPY_DONE (R461). The copy-on-write of array counters into the array shadow completes. -/
  | arrayCopyDone
  /-- CNT_SNAP (R462). A write of CNT_SNAP.GO takes a local snapshot at the next edge, or is refused. -/
  | cntSnap (m : Master) (v : Word)
  /-- MON_ID (R465). The monitor id command prints part, revision, serial, address and mode. -/
  | monId
  /-- MON_UNLOCK_NONCE (R464). The monitor unlock command prints a fresh nonce. -/
  | monUnlockNonce
  /-- MON_UNLOCK_TOKEN (R464). The monitor unlock k command checks a token and unlocks, or counts a failure. -/
  | monUnlockToken (k : Fin 4) (r sg : BitVec 256)
  /-- UNLOCK_LOCKOUT_END (R464). Sixty seconds after three invalid tokens the monitor accepts unlock again. -/
  | unlockLockoutEnd
  /-- MON_LOCK (R465). The monitor lock command locks the monitor. -/
  | monLock
  /-- MON_NODE (R466). The monitor node command opens a tunnelled session, or returns to the own node. -/
  | monNode (node : Option (BitVec 16))
  /-- MON_PEEK (R465). The monitor peek command reads 32-bit words. -/
  | monPeek (a : Word) (n : Nat)
  /-- MON_POKE (R465). The monitor poke command writes one 32-bit word. -/
  | monPoke (a : Word) (v : Word)
  /-- MON_DUMP (R465). The monitor dump command prints memory. -/
  | monDump (a : Word) (bytes : Nat)
  /-- MON_CENSUS (R465). The monitor census command prints census state and boundaries. -/
  | monCensus
  /-- MON_SNAP (R465). The monitor snap command takes a local snapshot. -/
  | monSnap (id : BitVec 16)
  /-- MON_SNAP_AT (R465). The monitor snap at command sends a SNAPSHOT_MARK to the own ring. -/
  | monSnapAt (id : BitVec 16) (ns : DWord)
  /-- MON_DL (R465). The monitor dl command prints the dead-letter entries. -/
  | monDl
  /-- MON_DL_FREE (R465). The monitor dl free command frees the dead-letter entries. -/
  | monDlFree
  /-- MON_SCRIBE_LOAD (R465). The monitor scribe load command writes program-store words. -/
  | monScribeLoad (k : Fin 16) (a : Nat) (words : List (BitVec 16))
  /-- MON_SCRIBE_INJECT (R465). The monitor scribe inject command writes SCR_INJ. -/
  | monScribeInject (e : Fin 64) (v : BitVec 16)
  /-- MON_SCRIBE_STEP (R465). The monitor scribe step command steps an engine and prints its status. -/
  | monScribeStep (e : Fin 64)
  /-- MON_TRACK (R465). The monitor track command prints a track's state. -/
  | monTrack (n : Fin 16)
  /-- MON_WAYMARK (R465). The monitor waymark command prints, arms or disarms an entry. -/
  | monWaymark (n : Fin 4096) (arm : Option Bool)
  /-- MON_POWER (R465). The monitor power command prints feeds, VIN, rail, zones and energies. -/
  | monPower
  /-- MON_BIST (R465). The monitor bist command starts a test and prints its outcome. -/
  | monBist (target : Byte)
  /-- MON_UPDATE_STATUS (R465). The monitor update status command prints update state. -/
  | monUpdateStatus
  /-- MON_BAUD (R465). The monitor baud command changes the bit rate after the ok line. -/
  | monBaud (rate : Nat)
  /-- MONITOR_OPEN (R467). A MONITOR OPEN starts a served session, or is answered BUSY. -/
  | monitorOpen (e : Envelope)
  /-- MONITOR_LINE (R467). A MONITOR LINE is carried out at the target and answered with OUTPUT and DONE. -/
  | monitorLine (e : Envelope)
  /-- MONITOR_OUTPUT (R467). A MONITOR OUTPUT line is printed at the terminal. -/
  | monitorOutput (e : Envelope)
  /-- MONITOR_DONE (R467). A MONITOR DONE ends the outstanding line at the terminal. -/
  | monitorDone (e : Envelope)
  /-- MONITOR_CLOSE (R467). A MONITOR CLOSE closes a session. -/
  | monitorClose (e : Envelope)
  /-- MONITOR_LINE_TIMEOUT (R467). No DONE within 2 s makes the terminal print err TIMEOUT. -/
  | monitorLineTimeout (k : Fin 4)
  /-- MONITOR_SESSION_IDLE (R467). A session with no LINE for 10 min is closed. -/
  | monitorSessionIdle (k : Fin 4) (served : Bool)
  /-- VDDIO_CLASS_CHANGE (R37). The measured VDDIO of a bank moves to another class, updating BANK_STAT.VLEVEL, the keeper's activity and, on the first valid measurement, starting the strap timer. -/
  | vddioClassChange (b : Fin 16) (cls : Fin 4)
  /-- MON_EN_CHANGE (R474). The MON_EN strap changes level after its 1 ms filter, unlocking or relocking the monitor and updating MON_STAT.STRAP. -/
  | monEnChange (level : Bool)
  /-- JTAG_INSTRUCTION (R476). A new JTAG instruction becomes current, so the TAP takes over or releases the balls under EXTEST, CLAMP or HIGHZ and overrides the duplex drive gate. -/
  | jtagInstruction (code : Byte)
  /-- ARBITRATION_LOST (R111). A frame copied for transmission loses bus arbitration, the attempt ends without counting against RETRY, the request stays pending, and the loss is counted. -/
  | arbitrationLost (c : Fin 8)
  /-- PROTOCOL_EXCEPTION_REJOIN (R99). After a protocol exception event the controller sees 11 consecutive recessive bits and takes part on the bus again. -/
  | protocolExceptionRejoin (c : Fin 8)
  /-- HEADER_RECEIVED (R216). Cell 0 of an envelope arrives with a good HCRC, is routed and, for cut-through, handed to the switch before the trailer arrives. -/
  | headerReceived (p : Fin 3) (e : Envelope) (age : Nat) (ph : Fin 32)
  /-- HUNT_END (R237). A hunting receiver meets a control block other than FILL, such as IDLE, stops discarding blocks and takes the next data block as header word 0. -/
  | huntEnd (p : Fin 3)
  /-- ENVELOPE_SENT (R211). The trailer of an envelope leaves an output, its cells' reference counts fall and freed cells are returned to their pools and release counts. -/
  | envelopeSent (o : Fin 3) (uncorr : BitVec 36)
  /-- FOLIO_ACK (R440). A FOLIO_ACK from a recovering hub arrives on a relaying neighbour's UPD_RELAY.PORT and is sent on to UPD_RELAY.HOST. -/
  | folioAck (p : Fin 3) (e : Envelope)
deriving DecidableEq, Repr

end Sys2Proof
end

