-- ==== Sys2Proof/Decode.lean ====
section
/-! DEFINITION. The commands that words spell. The opcode table of this block gives bits to no row: every command is an access, a
message or an event, and none is encoded in a word. -/

namespace Sys2Proof

/-- The command that a word of nbits bits spells by the opcode table: none. -/
def decodeTableWord (_nbits _w : Nat) : Option Instr := none

end Sys2Proof
end

