-- ==== Sys2Proof/Config.lean ====
section
/-! DEFINITION. What one implementation fixes and the free values: constants without a body, so that nothing can be proved
of their values. Each is named in a row of the assumption log. -/

namespace Sys2Proof.Config

/-- A value of n bits that the spec leaves open, at the k-th time one is needed (log entry 5). -/
opaque freeBits : (n : Nat) → (k : Nat) → BitVec n

/-- The value of an identity fuse word at an address of the identity block (R450: read from the part and not published). -/
opaque identityFuse : (a : Nat) → BitVec 32

/-- The index of a register counter inside the range R457 gives its category, for the counters whose index the spec does
not state (log entry 8). -/
opaque counterIndex : (cap : Nat) → (kind : Nat) → (inst : Nat) → Nat

/-- Word k (0 A, 1 B) of entry n of the counter directory: the spec states no entry's place (R457, log entry 8). -/
opaque directoryWord : (n : Nat) → (k : Nat) → BitVec 32

/-- The proportional gain of a mains input's filter for a value of BW: 2^-16 Hz per cycle of error. The spec gives its bandwidth only
(R137, log entry 137). -/
opaque mainsKp : (bw : Nat) → Nat

/-- The integral gain, per accepted edge (R137, log entry 137). -/
opaque mainsKi : (bw : Nat) → Nat

/-- Payload word or data byte i of an operand that carries fewer than its length field gives, by a number of the operand: the spec has no
such envelope or frame (log entry 126). -/
opaque missingWord : (n : Nat) → (i : Nat) → BitVec 64

end Sys2Proof.Config
end

