-- ==== Sys2Proof/Machine/Regs.lean ====
section
/-! DEFINITION. Every register of the node, from the register tables of the spec's chapters (R4, R5, R19): its local
address, its fields with their access codes and reset values, and the wide registers of R9 to R11. -/

namespace Sys2Proof.Machine

/-- A field of a 32-bit register: its lowest bit and its width. -/
structure Fld where
  lo : Nat
  width : Nat
deriving DecidableEq, Repr

/-- The access codes of R5. -/
inductive AccessCode where
  | rw | ro | w1c | w1s | rc | wo | rws | rwl
deriving DecidableEq, Repr

/-- One row of a register table: a field, its access code and its reset value. -/
structure FieldRow where
  fld : Fld
  acc : AccessCode
  reset : Nat
  /-- Writing 0 leaves the field unchanged (every NTC_Q field). -/
  keep0 : Bool
deriving DecidableEq, Repr

/-- A register, or an array of registers of one layout: instance (i, j) lies at base + s1 * i + s2 * j. -/
structure RegRow where
  name : String
  base : Nat
  n1 : Nat
  s1 : Nat
  n2 : Nat
  s2 : Nat
  fields : List FieldRow
deriving DecidableEq, Repr

/-- How a wide register behaves (R9 to R11): read and write, read only, write only, or a FIFO record. -/
inductive WideKind where
  | rw | ro | wo | fifo
deriving DecidableEq, Repr

/-- A wide register: the row of its _LO part, its number of parts and its kind. -/
structure WideRow where
  base : Nat
  n1 : Nat
  s1 : Nat
  n2 : Nat
  s2 : Nat
  parts : Nat
  kind : WideKind
deriving DecidableEq, Repr

/-! The local addresses of the registers, instance by instance. -/
namespace R


/-! 01_five_levels.md -/

abbrev NODE_CTL : Nat := 0x10000
abbrev NODE_STAT : Nat := 0x10004
abbrev NODE_RST_CAUSE : Nat := 0x10008
abbrev NODE_WDOG : Nat := 0x1000C
abbrev NODE_URST : Nat := 0x10010
abbrev NODE_CLK_STAT : Nat := 0x10014

/-! 02_field_pins.md -/

abbrev PIN_CFG (i : Nat) : Nat := 0x20000 + 0x10 * i
abbrev PIN_OUT (i : Nat) : Nat := 0x20004 + 0x10 * i
abbrev PIN_STAT (i : Nat) : Nat := 0x20008 + 0x10 * i
abbrev PIN_MAP (i : Nat) : Nat := 0x2000C + 0x10 * i
abbrev BANK_CFG (i : Nat) : Nat := 0x21000 + 0x40 * i
abbrev BANK_STAT (i : Nat) : Nat := 0x21004 + 0x40 * i
abbrev BANK_OUT_SET (i : Nat) : Nat := 0x21008 + 0x40 * i
abbrev BANK_OUT_CLR (i : Nat) : Nat := 0x2100C + 0x40 * i
abbrev BANK_IN (i : Nat) : Nat := 0x21010 + 0x40 * i
abbrev BANK_CAP_LO (i : Nat) : Nat := 0x21014 + 0x40 * i
abbrev BANK_CAP_HI (i : Nat) : Nat := 0x21018 + 0x40 * i
abbrev BANK_CAP_TOP (i : Nat) : Nat := 0x2101C + 0x40 * i

/-! 03_scribe_engines.md -/

abbrev SCR_CCTL (i : Nat) : Nat := 0x30000 + 0x1000 * i
abbrev SCR_CSYNC (i : Nat) : Nat := 0x30004 + 0x1000 * i
abbrev SCR_CSTAT (i : Nat) : Nat := 0x30008 + 0x1000 * i
abbrev SCR_FLAGS (i : Nat) : Nat := 0x3000C + 0x1000 * i
abbrev SCR_OWN_LO (i : Nat) : Nat := 0x30010 + 0x1000 * i
abbrev SCR_OWN_HI (i : Nat) : Nat := 0x30014 + 0x1000 * i
abbrev SCR_POUT (i : Nat) : Nat := 0x30018 + 0x1000 * i
abbrev SCR_PDIR (i : Nat) : Nat := 0x3001C + 0x1000 * i
abbrev SCR_PIN (i : Nat) : Nat := 0x30020 + 0x1000 * i
abbrev SCR_CTL (i j : Nat) : Nat := 0x30100 + 0x1000 * i + 0x80 * j
abbrev SCR_ESTAT (i j : Nat) : Nat := 0x30104 + 0x1000 * i + 0x80 * j
abbrev SCR_CLKDIV (i j : Nat) : Nat := 0x30108 + 0x1000 * i + 0x80 * j
abbrev SCR_EXEC (i j : Nat) : Nat := 0x3010C + 0x1000 * i + 0x80 * j
abbrev SCR_SHCFG (i j : Nat) : Nat := 0x30110 + 0x1000 * i + 0x80 * j
abbrev SCR_PINS (i j : Nat) : Nat := 0x30114 + 0x1000 * i + 0x80 * j
abbrev SCR_INJ (i j : Nat) : Nat := 0x30118 + 0x1000 * i + 0x80 * j
abbrev SCR_PC (i j : Nat) : Nat := 0x3011C + 0x1000 * i + 0x80 * j
abbrev SCR_X (i j : Nat) : Nat := 0x30120 + 0x1000 * i + 0x80 * j
abbrev SCR_Y (i j : Nat) : Nat := 0x30124 + 0x1000 * i + 0x80 * j
abbrev SCR_ISR (i j : Nat) : Nat := 0x30128 + 0x1000 * i + 0x80 * j
abbrev SCR_OSR (i j : Nat) : Nat := 0x3012C + 0x1000 * i + 0x80 * j
abbrev SCR_SHC (i j : Nat) : Nat := 0x30130 + 0x1000 * i + 0x80 * j
abbrev SCR_LATCH (i j : Nat) : Nat := 0x30134 + 0x1000 * i + 0x80 * j
abbrev SCR_TXF (i j : Nat) : Nat := 0x30138 + 0x1000 * i + 0x80 * j
abbrev SCR_RXF (i j : Nat) : Nat := 0x3013C + 0x1000 * i + 0x80 * j
abbrev SCR_FSTAT (i j : Nat) : Nat := 0x30140 + 0x1000 * i + 0x80 * j
abbrev SCR_MARK_LO (i j : Nat) : Nat := 0x30144 + 0x1000 * i + 0x80 * j
abbrev SCR_MARK_HI (i j : Nat) : Nat := 0x30148 + 0x1000 * i + 0x80 * j
abbrev SCR_DMA_TX (i j : Nat) : Nat := 0x3014C + 0x1000 * i + 0x80 * j
abbrev SCR_DMA_RX (i j : Nat) : Nat := 0x30150 + 0x1000 * i + 0x80 * j
abbrev SCR_DMA_STAT (i j : Nat) : Nat := 0x30154 + 0x1000 * i + 0x80 * j
abbrev SCR_OLANE_LO (i j : Nat) : Nat := 0x30158 + 0x1000 * i + 0x80 * j
abbrev SCR_OLANE_HI (i j : Nat) : Nat := 0x3015C + 0x1000 * i + 0x80 * j
abbrev SCR_ILANE_LO (i j : Nat) : Nat := 0x30160 + 0x1000 * i + 0x80 * j
abbrev SCR_ILANE_HI (i j : Nat) : Nat := 0x30164 + 0x1000 * i + 0x80 * j

/-! 04_message_buses.md -/

abbrev MB_CTL (i : Nat) : Nat := 0x40000 + 0x1000 * i
abbrev MB_STAT (i : Nat) : Nat := 0x40004 + 0x1000 * i
abbrev MB_NBT (i : Nat) : Nat := 0x40008 + 0x1000 * i
abbrev MB_DBT (i : Nat) : Nat := 0x4000C + 0x1000 * i
abbrev MB_TDC (i : Nat) : Nat := 0x40010 + 0x1000 * i
abbrev MB_ESTAT (i : Nat) : Nat := 0x40014 + 0x1000 * i
abbrev MB_TXREQ (i j : Nat) : Nat := 0x40020 + 0x1000 * i + 4 * j
abbrev MB_TXCAN (i j : Nat) : Nat := 0x40030 + 0x1000 * i + 4 * j
abbrev MB_NEW (i j : Nat) : Nat := 0x40040 + 0x1000 * i + 4 * j
abbrev MB_FWD (i : Nat) : Nat := 0x40050 + 0x1000 * i
abbrev MB_FWD_ADDR (i : Nat) : Nat := 0x40054 + 0x1000 * i
abbrev MB_TT_CFG (i : Nat) : Nat := 0x40060 + 0x1000 * i
abbrev MB_TT_PERIOD (i : Nat) : Nat := 0x40064 + 0x1000 * i
abbrev MB_TT_T0_LO (i : Nat) : Nat := 0x40068 + 0x1000 * i
abbrev MB_TT_T0_HI (i : Nat) : Nat := 0x4006C + 0x1000 * i
abbrev MB_TT_STAT (i : Nat) : Nat := 0x40070 + 0x1000 * i
abbrev MB_TRIG_A (i j : Nat) : Nat := 0x40400 + 0x1000 * i + 8 * j
abbrev MB_TRIG_B (i j : Nat) : Nat := 0x40404 + 0x1000 * i + 8 * j
abbrev GW_CTL : Nat := 0x48000
abbrev GW_STAT : Nat := 0x48004
abbrev GW_MAP_A (i : Nat) : Nat := 0x48100 + 8 * i
abbrev GW_MAP_B (i : Nat) : Nat := 0x48104 + 8 * i

/-! 05_serial_encoder_mains.md -/

abbrev UA_CTL (i : Nat) : Nat := 0x50000 + 0x100 * i
abbrev UA_BAUD (i : Nat) : Nat := 0x50004 + 0x100 * i
abbrev UA_DIR (i : Nat) : Nat := 0x50008 + 0x100 * i
abbrev UA_GAP (i : Nat) : Nat := 0x5000C + 0x100 * i
abbrev UA_STAT (i : Nat) : Nat := 0x50010 + 0x100 * i
abbrev UA_TXD (i : Nat) : Nat := 0x50014 + 0x100 * i
abbrev UA_RXD (i : Nat) : Nat := 0x50018 + 0x100 * i
abbrev UA_RXPM_LO (i : Nat) : Nat := 0x5001C + 0x100 * i
abbrev UA_RXPM_HI (i : Nat) : Nat := 0x50020 + 0x100 * i
abbrev UA_IMG (i : Nat) : Nat := 0x50024 + 0x100 * i
abbrev EN_CTL (i : Nat) : Nat := 0x51000 + 0x100 * i
abbrev EN_MOD (i : Nat) : Nat := 0x51004 + 0x100 * i
abbrev EN_COUNT (i : Nat) : Nat := 0x51008 + 0x100 * i
abbrev EN_ZCNT (i : Nat) : Nat := 0x5100C + 0x100 * i
abbrev EN_ZPM_LO (i : Nat) : Nat := 0x51010 + 0x100 * i
abbrev EN_ZPM_HI (i : Nat) : Nat := 0x51014 + 0x100 * i
abbrev EN_STAT (i : Nat) : Nat := 0x51018 + 0x100 * i
abbrev EN_IMG (i : Nat) : Nat := 0x5101C + 0x100 * i
abbrev MP_CTL (i : Nat) : Nat := 0x52000 + 0x100 * i
abbrev MP_OFFSET (i : Nat) : Nat := 0x52004 + 0x100 * i
abbrev MP_PHASE (i : Nat) : Nat := 0x52008 + 0x100 * i
abbrev MP_CYC (i : Nat) : Nat := 0x5200C + 0x100 * i
abbrev MP_FREQ (i : Nat) : Nat := 0x52010 + 0x100 * i
abbrev MP_ERR (i : Nat) : Nat := 0x52014 + 0x100 * i
abbrev MP_STAT (i : Nat) : Nat := 0x52018 + 0x100 * i
abbrev MP_IMG (i : Nat) : Nat := 0x5201C + 0x100 * i

/-! 06_local_interconnect.md -/

abbrev ARB_QUOTA : Nat := 0x60000
abbrev ARB_STAT : Nat := 0x60004
abbrev ARB_PRESENT : Nat := 0x60008
abbrev LI_TOUT : Nat := 0x6000C
abbrev LI_STAT : Nat := 0x60010
abbrev LI_TOUT_ADDR : Nat := 0x60014
abbrev ARB_PRI (i : Nat) : Nat := 0x60040 + 4 * i
abbrev PH_CFG (i : Nat) : Nat := 0x61000 + 0x40 * i
abbrev PH_PRI (i : Nat) : Nat := 0x61004 + 0x40 * i
abbrev PH_CTL (i : Nat) : Nat := 0x61008 + 0x40 * i
abbrev PH_STAT (i : Nat) : Nat := 0x6100C + 0x40 * i
abbrev PH_POP (i : Nat) : Nat := 0x61010 + 0x40 * i
abbrev PH_ITEM (i j : Nat) : Nat := 0x61014 + 0x40 * i + 4 * j
abbrev PH_DST (i : Nat) : Nat := 0x61020 + 0x40 * i
abbrev PH_DADDR_LO (i : Nat) : Nat := 0x61024 + 0x40 * i
abbrev PH_DADDR_HI (i : Nat) : Nat := 0x61028 + 0x40 * i

/-! 07_post_office_bridge.md -/

abbrev BR_CTL : Nat := 0x70000
abbrev BR_STAT : Nat := 0x70004
abbrev BR_RTOUT : Nat := 0x70008
abbrev BR_RTT : Nat := 0x7000C
abbrev BR_TQUAR : Nat := 0x70010
abbrev BR_LOCKT : Nat := 0x70014
abbrev BR_TAGSTAT : Nat := 0x70018
abbrev BR_HOPS : Nat := 0x7001C
abbrev BR_PFA_A (i : Nat) : Nat := 0x70040 + 8 * i
abbrev BR_PFA_B (i : Nat) : Nat := 0x70044 + 8 * i
abbrev BR_OC_CMD (i : Nat) : Nat := 0x70400 + 0x200 * i
abbrev BR_OC_DST (i : Nat) : Nat := 0x70404 + 0x200 * i
abbrev BR_OC_ADDR (i : Nat) : Nat := 0x70408 + 0x200 * i
abbrev BR_OC_STAT (i : Nat) : Nat := 0x7040C + 0x200 * i
abbrev BR_OC_TAG (i : Nat) : Nat := 0x70410 + 0x200 * i
abbrev BR_OC_OWN (i : Nat) : Nat := 0x70414 + 0x200 * i
abbrev BR_OC_DATA (i j : Nat) : Nat := 0x70500 + 0x200 * i + 4 * j
abbrev BR_SEM_A (i : Nat) : Nat := 0x70C00 + 8 * i
abbrev BR_SEM_B (i : Nat) : Nat := 0x70C04 + 8 * i

/-! 08_dead_letters.md -/

abbrev DL_CTL : Nat := 0x71000
abbrev DL_STAT : Nat := 0x71004
abbrev DL_HEAD : Nat := 0x71008
abbrev DL_TAIL : Nat := 0x7100C
abbrev UP_HEAD : Nat := 0x71010
abbrev UP_TAIL : Nat := 0x71014
abbrev DL_FWD : Nat := 0x71018
abbrev DL_FADDR : Nat := 0x7101C
abbrev DL_ENT (i j : Nat) : Nat := 0x71400 + 0x20 * i + 4 * j
abbrev UP_ENT_ADDR (i : Nat) : Nat := 0x72000 + 0x80 * i
abbrev UP_ENT_MASTER (i : Nat) : Nat := 0x72004 + 0x80 * i
abbrev UP_ENT_PM_LO (i : Nat) : Nat := 0x72008 + 0x80 * i
abbrev UP_ENT_PM_HI (i : Nat) : Nat := 0x7200C + 0x80 * i
abbrev UP_ENT_SEQ (i : Nat) : Nat := 0x72010 + 0x80 * i
abbrev UP_ENT_DATA (i j : Nat) : Nat := 0x72040 + 0x80 * i + 4 * j

/-! 09_sorting_office.md -/

abbrev SO_CTL : Nat := 0x80000
abbrev SO_CAP : Nat := 0x80004
abbrev SO_FREE : Nat := 0x80008
abbrev SO_POOL : Nat := 0x8000C
abbrev SO_IPOOL : Nat := 0x80010
abbrev SO_SLOT : Nat := 0x80014
abbrev SO_EVT : Nat := 0x80018
abbrev SO_RES_A (i : Nat) : Nat := 0x80020 + 8 * i
abbrev SO_RES_B (i : Nat) : Nat := 0x80024 + 8 * i
abbrev SO_FWD (i : Nat) : Nat := 0x80040 + 4 * i
abbrev SO_PC (i j : Nat) : Nat := 0x80100 + 0x10 * i + 4 * j
abbrev SO_QLEN (i : Nat) : Nat := 0x80140 + 4 * i

/-! 10_caravan_links.md -/

abbrev PT_CTL (i : Nat) : Nat := 0x90000 + 0x1000 * i
abbrev PT_STAT (i : Nat) : Nat := 0x90004 + 0x1000 * i
abbrev PT_NID (i : Nat) : Nat := 0x90008 + 0x1000 * i
abbrev PT_EVT (i : Nat) : Nat := 0x9000C + 0x1000 * i
abbrev PT_SDS_TX (i : Nat) : Nat := 0x90010 + 0x1000 * i
abbrev PT_SDS_RX (i : Nat) : Nat := 0x90014 + 0x1000 * i
abbrev PT_DLY_TX (i : Nat) : Nat := 0x90018 + 0x1000 * i
abbrev PT_DLY_RX (i : Nat) : Nat := 0x9001C + 0x1000 * i
abbrev PT_ASYM (i : Nat) : Nat := 0x90020 + 0x1000 * i
abbrev PT_I2C_CMD (i : Nat) : Nat := 0x90030 + 0x1000 * i
abbrev PT_I2C_DATA (i : Nat) : Nat := 0x90034 + 0x1000 * i
abbrev PT_DDM_A (i : Nat) : Nat := 0x90038 + 0x1000 * i
abbrev PT_DDM_B (i : Nat) : Nat := 0x9003C + 0x1000 * i
abbrev PT_DDM_C (i : Nat) : Nat := 0x90040 + 0x1000 * i
abbrev PT_MOD (i : Nat) : Nat := 0x90044 + 0x1000 * i

/-! 11_census_and_routing.md -/

abbrev CN_CFG : Nat := 0x94000
abbrev CN_STAT : Nat := 0x94004
abbrev CN_ADDR : Nat := 0x94008
abbrev CN_POS : Nat := 0x9400C
abbrev CN_BIND : Nat := 0x94010
abbrev CN_CMD : Nat := 0x94014
abbrev RT_CFG : Nat := 0x94020
abbrev RT_PREF : Nat := 0x94024
abbrev RT_KEY : Nat := 0x94028
abbrev RT_STAT : Nat := 0x9402C
abbrev RT_NBR (i : Nat) : Nat := 0x94030 + 4 * i
abbrev RT_BND (i : Nat) : Nat := 0x94040 + 4 * i
abbrev RT_JN (i : Nat) : Nat := 0x94100 + 4 * i
abbrev RT_GRP (i : Nat) : Nat := 0x94200 + 4 * i
abbrev RT_PRES (i : Nat) : Nat := 0x94400 + 4 * i
abbrev JN_CTL : Nat := 0x95000
abbrev JN_BEYOND : Nat := 0x95004
abbrev JN_STAT : Nat := 0x95008

/-! 12_timetable_and_time.md -/

abbrev TT_CTL : Nat := 0xA0000
abbrev TT_STAT : Nat := 0xA0004
abbrev TT_T0_LO : Nat := 0xA0008
abbrev TT_T0_HI : Nat := 0xA000C
abbrev TT_CYCLE : Nat := 0xA0010
abbrev TT_CNUM : Nat := 0xA0014
abbrev TT_SWAPC : Nat := 0xA0018
abbrev TT_HOPS : Nat := 0xA001C
abbrev TT_RX_A (i : Nat) : Nat := 0xA0100 + 8 * i
abbrev TT_RX_B (i : Nat) : Nat := 0xA0104 + 8 * i
abbrev LTICK_LO : Nat := 0xA0400
abbrev LTICK_HI : Nat := 0xA0404
abbrev ITB_NOW_LO (i : Nat) : Nat := 0xA0440 + 0x40 * i
abbrev ITB_NOW_HI (i : Nat) : Nat := 0xA0444 + 0x40 * i
abbrev ITB_NOW_TOP (i : Nat) : Nat := 0xA0448 + 0x40 * i
abbrev ITB_INC_LO (i : Nat) : Nat := 0xA044C + 0x40 * i
abbrev ITB_INC_HI (i : Nat) : Nat := 0xA0450 + 0x40 * i
abbrev ITB_STEP_LO (i : Nat) : Nat := 0xA0454 + 0x40 * i
abbrev ITB_STEP_HI (i : Nat) : Nat := 0xA0458 + 0x40 * i
abbrev ITB_STEP_TOP (i : Nat) : Nat := 0xA045C + 0x40 * i
abbrev ITB_CTL (i : Nat) : Nat := 0xA0460 + 0x40 * i
abbrev VD_NOW_LO (i : Nat) : Nat := 0xA0600 + 0x40 * i
abbrev VD_NOW_HI (i : Nat) : Nat := 0xA0604 + 0x40 * i
abbrev VD_NOW_TOP (i : Nat) : Nat := 0xA0608 + 0x40 * i
abbrev VD_BASE_LO (i : Nat) : Nat := 0xA060C + 0x40 * i
abbrev VD_BASE_HI (i : Nat) : Nat := 0xA0610 + 0x40 * i
abbrev VD_BASE_TOP (i : Nat) : Nat := 0xA0614 + 0x40 * i
abbrev VD_ANCHOR_LO (i : Nat) : Nat := 0xA0618 + 0x40 * i
abbrev VD_ANCHOR_HI (i : Nat) : Nat := 0xA061C + 0x40 * i
abbrev VD_RATE_LO (i : Nat) : Nat := 0xA0620 + 0x40 * i
abbrev VD_RATE_HI (i : Nat) : Nat := 0xA0624 + 0x40 * i
abbrev VD_CTL (i : Nat) : Nat := 0xA0628 + 0x40 * i
abbrev TM_CTL : Nat := 0xA0A00
abbrev TM_CFG : Nat := 0xA0A04
abbrev TM_STAT : Nat := 0xA0A08
abbrev TM_GM : Nat := 0xA0A0C
abbrev TM_SERVO : Nat := 0xA0A10
abbrev TM_P_BCN (i : Nat) : Nat := 0xA0A40 + 0x20 * i
abbrev TM_P_GM (i : Nat) : Nat := 0xA0A44 + 0x20 * i
abbrev TM_P_MPD (i : Nat) : Nat := 0xA0A48 + 0x20 * i
abbrev TM_P_OFS_LO (i : Nat) : Nat := 0xA0A4C + 0x20 * i
abbrev TM_P_OFS_HI (i : Nat) : Nat := 0xA0A50 + 0x20 * i
abbrev TM_P_SEQ (i : Nat) : Nat := 0xA0A54 + 0x20 * i
abbrev TT_ENT_W0 (i j : Nat) : Nat := 0xA1000 + 0x1000 * i + 0x10 * j
abbrev TT_ENT_W1 (i j : Nat) : Nat := 0xA1004 + 0x1000 * i + 0x10 * j
abbrev TT_ENT_W2 (i j : Nat) : Nat := 0xA1008 + 0x1000 * i + 0x10 * j
abbrev TT_ENT_W3 (i j : Nat) : Nat := 0xA100C + 0x1000 * i + 0x10 * j

/-! 13_tracks_and_waymarks.md -/

abbrev TK_CFG (i : Nat) : Nat := 0xB0000 + 0x100 * i
abbrev TK_CTL (i : Nat) : Nat := 0xB0004 + 0x100 * i
abbrev TK_STAT (i : Nat) : Nat := 0xB0008 + 0x100 * i
abbrev TK_SCALE (i : Nat) : Nat := 0xB000C + 0x100 * i
abbrev TK_POS_LO (i : Nat) : Nat := 0xB0010 + 0x100 * i
abbrev TK_POS_HI (i : Nat) : Nat := 0xB0014 + 0x100 * i
abbrev TK_VEL_LO (i : Nat) : Nat := 0xB0018 + 0x100 * i
abbrev TK_VEL_HI (i : Nat) : Nat := 0xB001C + 0x100 * i
abbrev TK_T_LO (i : Nat) : Nat := 0xB0020 + 0x100 * i
abbrev TK_T_HI (i : Nat) : Nat := 0xB0024 + 0x100 * i
abbrev TK_RSRC (i : Nat) : Nat := 0xB0028 + 0x100 * i
abbrev TK_RCFG (i : Nat) : Nat := 0xB002C + 0x100 * i
abbrev TK_JUMP (i : Nat) : Nat := 0xB0030 + 0x100 * i
abbrev TK_PUB_A (i : Nat) : Nat := 0xB0034 + 0x100 * i
abbrev TK_PUB_B (i : Nat) : Nat := 0xB0038 + 0x100 * i
abbrev TK_CARM (i : Nat) : Nat := 0xB003C + 0x100 * i
abbrev TK_COFF (i : Nat) : Nat := 0xB0040 + 0x100 * i
abbrev TK_CAP_POS_LO (i : Nat) : Nat := 0xB0044 + 0x100 * i
abbrev TK_CAP_POS_HI (i : Nat) : Nat := 0xB0048 + 0x100 * i
abbrev TK_CAP_PM_LO (i : Nat) : Nat := 0xB004C + 0x100 * i
abbrev TK_CAP_PM_HI (i : Nat) : Nat := 0xB0050 + 0x100 * i
abbrev TK_CAP_STAT (i : Nat) : Nat := 0xB0054 + 0x100 * i
abbrev TK_CARM_NEXT (i : Nat) : Nat := 0xB0058 + 0x100 * i
abbrev WM_CTL : Nat := 0xB1000
abbrev WM_STAT : Nat := 0xB1004
abbrev WM_CAP_LO : Nat := 0xB1008
abbrev WM_CAP_HI : Nat := 0xB100C
abbrev WM_CAP_TOP : Nat := 0xB1010
abbrev WM_CAP_EXT : Nat := 0xB1014
abbrev WM_TPL_A (i : Nat) : Nat := 0xB1100 + 8 * i
abbrev WM_TPL_B (i : Nat) : Nat := 0xB1104 + 8 * i

/-! 14_duplex_pairs.md -/

abbrev DPX_CTL : Nat := 0xC0000
abbrev DPX_STAT : Nat := 0xC0004
abbrev DPX_FAULT : Nat := 0xC0008
abbrev DPX_FMASK : Nat := 0xC000C
abbrev DPX_STEP : Nat := 0xC0010
abbrev DPX_OFS : Nat := 0xC0014
abbrev DPX_DIVC : Nat := 0xC0018
abbrev DPX_PNID : Nat := 0xC001C
abbrev DPX_HCFG : Nat := 0xC0020
abbrev DPX_HDST : Nat := 0xC0024
abbrev DPX_HADDR : Nat := 0xC0028

/-! 15_power_die.md -/

abbrev PD_CTL : Nat := 0xD0000
abbrev PD_STAT : Nat := 0xD0004
abbrev PD_EVT : Nat := 0xD0008
abbrev SUP_CFG : Nat := 0xD0010
abbrev SUP_VIN : Nat := 0xD0014
abbrev RAIL_STAT : Nat := 0xD0018
abbrev FEED_CFG : Nat := 0xD0020
abbrev FEED_TIM : Nat := 0xD0024
abbrev FEED_V : Nat := 0xD0028
abbrev FLD_CTL : Nat := 0xD0030
abbrev FLD_LIM : Nat := 0xD0034
abbrev FLD_RSNS : Nat := 0xD0038
abbrev FLD_TIM : Nat := 0xD003C
abbrev FLD_PGV : Nat := 0xD0040
abbrev FLD_STAT : Nat := 0xD0044
abbrev FLD_STAT2 : Nat := 0xD0048
abbrev ZN_CTL (i : Nat) : Nat := 0xD0100 + 0x10 * i
abbrev ZN_CFG (i : Nat) : Nat := 0xD0104 + 0x10 * i
abbrev ZN_STAT (i : Nat) : Nat := 0xD0108 + 0x10 * i
abbrev PM_FLD_V : Nat := 0xD0200
abbrev PM_FLD_I : Nat := 0xD0204
abbrev PM_FLD_P : Nat := 0xD0208
abbrev PM_FLD_E_LO : Nat := 0xD020C
abbrev PM_FLD_E_HI : Nat := 0xD0210
abbrev PM_VZ : Nat := 0xD0214
abbrev PM_ZN_I (i : Nat) : Nat := 0xD0240 + 0x10 * i
abbrev PM_ZN_P (i : Nat) : Nat := 0xD0244 + 0x10 * i
abbrev PM_ZN_E_LO (i : Nat) : Nat := 0xD0248 + 0x10 * i
abbrev PM_ZN_E_HI (i : Nat) : Nat := 0xD024C + 0x10 * i

/-! 16_memory_integrity.md -/

abbrev MI_CTL : Nat := 0xE0000
abbrev MI_STAT : Nat := 0xE0004
abbrev MI_LB_CFG (i : Nat) : Nat := 0xE0010 + 0x10 * i
abbrev MI_LB_STAT (i : Nat) : Nat := 0xE0014 + 0x10 * i
abbrev MI_LB_ADDR (i : Nat) : Nat := 0xE0018 + 0x10 * i
abbrev MI_LB_UADDR (i : Nat) : Nat := 0xE001C + 0x10 * i
abbrev MI_LAP (i : Nat) : Nat := 0xE0100 + 8 * i
abbrev MI_LAP_MAX (i : Nat) : Nat := 0xE0104 + 8 * i
abbrev MI_PADDR : Nat := 0xE0140
abbrev MI_PSRC : Nat := 0xE0144
abbrev BIST_CMD : Nat := 0xE1000
abbrev BIST_STAT : Nat := 0xE1004
abbrev BIST_FADDR : Nat := 0xE1008
abbrev BIST_MISR : Nat := 0xE100C
abbrev BIST_FLAGS : Nat := 0xE1010
abbrev BIST_BOOT : Nat := 0xE1014
abbrev BIST_AUTO : Nat := 0xE1018

/-! 17_manifest_and_update.md -/

abbrev UPD_CTL : Nat := 0x10800
abbrev UPD_STAT : Nat := 0x10804
abbrev UPD_DONE : Nat := 0x10808
abbrev UPD_IMG_LO : Nat := 0x1080C
abbrev UPD_IMG_HI : Nat := 0x10810
abbrev UPD_RUN_LO : Nat := 0x10814
abbrev UPD_RUN_HI : Nat := 0x10818
abbrev UPD_TRIALT : Nat := 0x1081C
abbrev UPD_BOOT : Nat := 0x10820
abbrev UPD_FLASH : Nat := 0x10824
abbrev UPD_RELAY : Nat := 0x10828
abbrev UPD_RELAY_CTL : Nat := 0x1082C
abbrev UPD_BMAP (i : Nat) : Nat := 0x10C00 + 4 * i

/-! 18_access_identity_capabilities.md -/

abbrev ID_PART : Nat := 0
abbrev ID_SERIAL_LO : Nat := 8
abbrev ID_SERIAL_HI : Nat := 0xC
abbrev ID_ALOT_LO : Nat := 0x10
abbrev ID_ALOT_HI : Nat := 0x14
abbrev ID_D_LOT_LO (i : Nat) : Nat := 0x20 + 0x20 * i
abbrev ID_D_LOT_HI (i : Nat) : Nat := 0x24 + 0x20 * i
abbrev ID_D_POS (i : Nat) : Nat := 0x28 + 0x20 * i
abbrev ID_MEM (i : Nat) : Nat := 0x80 + 4 * i
abbrev ID_KEYS : Nat := 0xC0
abbrev ID_FUSE_CMD : Nat := 0xC4
abbrev ID_FUSE_STAT : Nat := 0xC8
abbrev ID_CAP (i j : Nat) : Nat := 0x100 + 0x10 * i + 4 * j
abbrev ID_KEY (i j : Nat) : Nat := 0x400 + 0x40 * i + 4 * j
abbrev ID_KEYSTAGE (i : Nat) : Nat := 0x500 + 4 * i
abbrev AT_CTL : Nat := 0x72000
abbrev AT_STAT : Nat := 0x72004
abbrev AT_LAST_MASTER : Nat := 0x72008
abbrev AT_LAST_ADDR : Nat := 0x7200C
abbrev AT_LAST_INFO : Nat := 0x72010
abbrev AT_W0 (i j : Nat) : Nat := 0x72400 + 0x100 * i + 0x10 * j
abbrev AT_W1 (i j : Nat) : Nat := 0x72404 + 0x100 * i + 0x10 * j
abbrev AT_W2 (i j : Nat) : Nat := 0x72408 + 0x100 * i + 0x10 * j
abbrev AT_W3 (i j : Nat) : Nat := 0x7240C + 0x100 * i + 0x10 * j

/-! 19_counters_and_monitor.md -/

abbrev MON_CTL : Nat := 0x10C00
abbrev MON_STAT : Nat := 0x10C04
abbrev CNT_CTL : Nat := 0xF0000
abbrev CNT_SNAP : Nat := 0xF0004
abbrev CNT_STAT : Nat := 0xF0008
abbrev CNT_NUM : Nat := 0xF000C
abbrev CNT_SB_ID (i : Nat) : Nat := 0xF0010 + 0x10 * i
abbrev CNT_SB_PM_LO (i : Nat) : Nat := 0xF0014 + 0x10 * i
abbrev CNT_SB_PM_HI (i : Nat) : Nat := 0xF0018 + 0x10 * i
abbrev CNT_ARR : Nat := 0xF0030
abbrev CNT_DIR_A (i : Nat) : Nat := 0xF0100 + 8 * i
abbrev CNT_DIR_B (i : Nat) : Nat := 0xF0104 + 8 * i
abbrev CNT_REG_LO (i : Nat) : Nat := 0xF1000 + 8 * i
abbrev CNT_REG_HI (i : Nat) : Nat := 0xF1004 + 8 * i
abbrev CNT_SB0_LO (i : Nat) : Nat := 0xF2800 + 8 * i
abbrev CNT_SB0_HI (i : Nat) : Nat := 0xF2804 + 8 * i
abbrev CNT_SB1_LO (i : Nat) : Nat := 0xF4000 + 8 * i
abbrev CNT_SB1_HI (i : Nat) : Nat := 0xF4004 + 8 * i
abbrev CNT_ARRAY_LO (i : Nat) : Nat := 0xF6000 + 8 * i
abbrev CNT_ARRAY_HI (i : Nat) : Nat := 0xF6004 + 8 * i
abbrev CNT_ASH_LO (i : Nat) : Nat := 0xFA800 + 8 * i
abbrev CNT_ASH_HI (i : Nat) : Nat := 0xFA804 + 8 * i

end R

/-! The fields of the registers. -/
namespace F


/-! 01_five_levels.md -/

abbrev NODE_CTL_SERVICE : Fld := ⟨0, 2⟩
abbrev NODE_CTL_SEAL : Fld := ⟨2, 1⟩
abbrev NODE_CTL_RESET : Fld := ⟨3, 1⟩
abbrev NODE_CTL_FAULT : Fld := ⟨4, 1⟩
abbrev NODE_CTL_ATTN : Fld := ⟨5, 1⟩
abbrev NODE_CTL_KEY : Fld := ⟨24, 8⟩
abbrev NODE_STAT_SERVICE_EFF : Fld := ⟨0, 2⟩
abbrev NODE_STAT_SEALED : Fld := ⟨2, 1⟩
abbrev NODE_STAT_QUARANTINE : Fld := ⟨3, 1⟩
abbrev NODE_STAT_FAULT_IN : Fld := ⟨4, 1⟩
abbrev NODE_STAT_RSVD_WR : Fld := ⟨8, 12⟩
abbrev NODE_STAT_SEAL_WR : Fld := ⟨20, 12⟩
abbrev NODE_RST_CAUSE_COLD : Fld := ⟨0, 1⟩
abbrev NODE_RST_CAUSE_PIN : Fld := ⟨1, 1⟩
abbrev NODE_RST_CAUSE_SOFT : Fld := ⟨2, 1⟩
abbrev NODE_RST_CAUSE_WDOG : Fld := ⟨3, 1⟩
abbrev NODE_RST_CAUSE_CLK : Fld := ⟨4, 1⟩
abbrev NODE_WDOG_TIMEOUT : Fld := ⟨0, 16⟩
abbrev NODE_WDOG_EN : Fld := ⟨16, 1⟩
abbrev NODE_WDOG_KICK : Fld := ⟨24, 8⟩
abbrev NODE_URST_CAP : Fld := ⟨0, 16⟩
abbrev NODE_URST_INST : Fld := ⟨16, 8⟩
abbrev NODE_URST_HOLD : Fld := ⟨24, 1⟩
abbrev NODE_CLK_STAT_SYS_LOCK : Fld := ⟨0, 1⟩
abbrev NODE_CLK_STAT_SDS_LOCK : Fld := ⟨1, 1⟩
abbrev NODE_CLK_STAT_FCLK_BAD : Fld := ⟨2, 1⟩
abbrev NODE_CLK_STAT_UCLK_BAD : Fld := ⟨3, 1⟩
abbrev NODE_CLK_STAT_CORE_BAD : Fld := ⟨4, 1⟩
abbrev NODE_CLK_STAT_BUS_BAD : Fld := ⟨5, 1⟩

/-! 02_field_pins.md -/

abbrev PIN_CFG_FUNC : Fld := ⟨0, 4⟩
abbrev PIN_CFG_DRIVE : Fld := ⟨4, 2⟩
abbrev PIN_CFG_SLEW : Fld := ⟨6, 1⟩
abbrev PIN_CFG_OD : Fld := ⟨7, 1⟩
abbrev PIN_CFG_INV : Fld := ⟨8, 1⟩
abbrev PIN_CFG_PULL : Fld := ⟨9, 2⟩
abbrev PIN_CFG_SAFE : Fld := ⟨11, 2⟩
abbrev PIN_CFG_DEB : Fld := ⟨13, 4⟩
abbrev PIN_CFG_EDGE : Fld := ⟨17, 2⟩
abbrev PIN_CFG_ENTC : Fld := ⟨19, 1⟩
abbrev PIN_CFG_TRACK : Fld := ⟨20, 4⟩
abbrev PIN_OUT_VAL : Fld := ⟨0, 1⟩
abbrev PIN_OUT_TOGGLE : Fld := ⟨1, 1⟩
abbrev PIN_STAT_LEVEL : Fld := ⟨0, 1⟩
abbrev PIN_STAT_RAW : Fld := ⟨1, 1⟩
abbrev PIN_STAT_DRIVING : Fld := ⟨2, 1⟩
abbrev PIN_STAT_EVER_DRV : Fld := ⟨3, 1⟩
abbrev PIN_STAT_POISON : Fld := ⟨4, 1⟩
abbrev PIN_STAT_CONFLICT : Fld := ⟨5, 1⟩
abbrev PIN_STAT_COLL : Fld := ⟨6, 1⟩
abbrev PIN_STAT_BANKFLT : Fld := ⟨7, 1⟩
abbrev PIN_STAT_GLITCH : Fld := ⟨16, 16⟩
abbrev PIN_MAP_BIT : Fld := ⟨0, 18⟩
abbrev PIN_MAP_EN : Fld := ⟨31, 1⟩
abbrev BANK_CFG_VDDIO : Fld := ⟨0, 2⟩
abbrev BANK_CFG_VD : Fld := ⟨4, 4⟩
abbrev BANK_CFG_NTC_Q : Fld := ⟨8, 5⟩
abbrev BANK_STAT_VLEVEL : Fld := ⟨0, 2⟩
abbrev BANK_STAT_VFAULT : Fld := ⟨2, 1⟩
abbrev BANK_STAT_PULL_STRAP : Fld := ⟨3, 1⟩
abbrev BANK_STAT_CAP_OVF : Fld := ⟨4, 1⟩
abbrev BANK_STAT_CAP_CNT : Fld := ⟨5, 5⟩
abbrev BANK_OUT_SET_SET : Fld := ⟨0, 16⟩
abbrev BANK_OUT_CLR_CLR : Fld := ⟨0, 16⟩
abbrev BANK_IN_LEVEL : Fld := ⟨0, 16⟩
abbrev BANK_CAP_LO_FRAC : Fld := ⟨0, 16⟩
abbrev BANK_CAP_LO_NS_LO : Fld := ⟨16, 16⟩
abbrev BANK_CAP_HI_NS_HI : Fld := ⟨0, 32⟩
abbrev BANK_CAP_TOP_PIN : Fld := ⟨0, 4⟩
abbrev BANK_CAP_TOP_EDGE : Fld := ⟨4, 1⟩
abbrev BANK_CAP_TOP_LOST : Fld := ⟨5, 1⟩
abbrev BANK_CAP_TOP_VALID : Fld := ⟨31, 1⟩

/-! 03_scribe_engines.md -/

abbrev SCR_CCTL_VD : Fld := ⟨0, 4⟩
abbrev SCR_CCTL_NTC_Q : Fld := ⟨4, 5⟩
abbrev SCR_CSYNC_START : Fld := ⟨0, 4⟩
abbrev SCR_CSYNC_STOP : Fld := ⟨4, 4⟩
abbrev SCR_CSTAT_UNUSABLE : Fld := ⟨0, 1⟩
abbrev SCR_CSTAT_PARITY : Fld := ⟨1, 1⟩
abbrev SCR_CSTAT_PAR_ADDR : Fld := ⟨8, 5⟩
abbrev SCR_FLAGS_FLAG : Fld := ⟨0, 8⟩
abbrev SCR_FLAGS_SET : Fld := ⟨8, 8⟩
abbrev SCR_OWN_LO_OWN0 : Fld := ⟨0, 2⟩
abbrev SCR_OWN_LO_OWN1 : Fld := ⟨2, 2⟩
abbrev SCR_OWN_LO_OWN2 : Fld := ⟨4, 2⟩
abbrev SCR_OWN_LO_OWN3 : Fld := ⟨6, 2⟩
abbrev SCR_OWN_LO_OWN4 : Fld := ⟨8, 2⟩
abbrev SCR_OWN_LO_OWN5 : Fld := ⟨10, 2⟩
abbrev SCR_OWN_LO_OWN6 : Fld := ⟨12, 2⟩
abbrev SCR_OWN_LO_OWN7 : Fld := ⟨14, 2⟩
abbrev SCR_OWN_LO_OWN8 : Fld := ⟨16, 2⟩
abbrev SCR_OWN_LO_OWN9 : Fld := ⟨18, 2⟩
abbrev SCR_OWN_LO_OWN10 : Fld := ⟨20, 2⟩
abbrev SCR_OWN_LO_OWN11 : Fld := ⟨22, 2⟩
abbrev SCR_OWN_LO_OWN12 : Fld := ⟨24, 2⟩
abbrev SCR_OWN_LO_OWN13 : Fld := ⟨26, 2⟩
abbrev SCR_OWN_LO_OWN14 : Fld := ⟨28, 2⟩
abbrev SCR_OWN_LO_OWN15 : Fld := ⟨30, 2⟩
abbrev SCR_OWN_HI_OWN0 : Fld := ⟨0, 2⟩
abbrev SCR_OWN_HI_OWN1 : Fld := ⟨2, 2⟩
abbrev SCR_OWN_HI_OWN2 : Fld := ⟨4, 2⟩
abbrev SCR_OWN_HI_OWN3 : Fld := ⟨6, 2⟩
abbrev SCR_OWN_HI_OWN4 : Fld := ⟨8, 2⟩
abbrev SCR_OWN_HI_OWN5 : Fld := ⟨10, 2⟩
abbrev SCR_OWN_HI_OWN6 : Fld := ⟨12, 2⟩
abbrev SCR_OWN_HI_OWN7 : Fld := ⟨14, 2⟩
abbrev SCR_OWN_HI_OWN8 : Fld := ⟨16, 2⟩
abbrev SCR_OWN_HI_OWN9 : Fld := ⟨18, 2⟩
abbrev SCR_OWN_HI_OWN10 : Fld := ⟨20, 2⟩
abbrev SCR_OWN_HI_OWN11 : Fld := ⟨22, 2⟩
abbrev SCR_OWN_HI_OWN12 : Fld := ⟨24, 2⟩
abbrev SCR_OWN_HI_OWN13 : Fld := ⟨26, 2⟩
abbrev SCR_OWN_HI_OWN14 : Fld := ⟨28, 2⟩
abbrev SCR_OWN_HI_OWN15 : Fld := ⟨30, 2⟩
abbrev SCR_POUT_VAL : Fld := ⟨0, 32⟩
abbrev SCR_PDIR_DIR : Fld := ⟨0, 32⟩
abbrev SCR_PIN_LEVEL : Fld := ⟨0, 32⟩
abbrev SCR_CTL_EN : Fld := ⟨0, 1⟩
abbrev SCR_CTL_STEP : Fld := ⟨1, 1⟩
abbrev SCR_CTL_RESTART : Fld := ⟨2, 1⟩
abbrev SCR_CTL_CLRF : Fld := ⟨3, 1⟩
abbrev SCR_ESTAT_STATE : Fld := ⟨0, 2⟩
abbrev SCR_ESTAT_STALL_ON : Fld := ⟨2, 3⟩
abbrev SCR_ESTAT_FCAUSE : Fld := ⟨5, 3⟩
abbrev SCR_ESTAT_INJ_PEND : Fld := ⟨8, 1⟩
abbrev SCR_ESTAT_CFGREF : Fld := ⟨9, 1⟩
abbrev SCR_ESTAT_PINREF : Fld := ⟨10, 1⟩
abbrev SCR_ESTAT_INJREF : Fld := ⟨11, 1⟩
abbrev SCR_ESTAT_INSTR : Fld := ⟨16, 16⟩
abbrev SCR_CLKDIV_NUM : Fld := ⟨0, 8⟩
abbrev SCR_CLKDIV_DEN : Fld := ⟨8, 16⟩
abbrev SCR_EXEC_ENTRY : Fld := ⟨0, 5⟩
abbrev SCR_EXEC_LOOP_FROM : Fld := ⟨8, 5⟩
abbrev SCR_EXEC_LOOP_TO : Fld := ⟨16, 5⟩
abbrev SCR_SHCFG_IN_FIRST : Fld := ⟨0, 1⟩
abbrev SCR_SHCFG_OUT_FIRST : Fld := ⟨1, 1⟩
abbrev SCR_SHCFG_IN_LEN : Fld := ⟨2, 5⟩
abbrev SCR_SHCFG_OUT_LEN : Fld := ⟨7, 5⟩
abbrev SCR_SHCFG_FIFO_MODE : Fld := ⟨12, 2⟩
abbrev SCR_PINS_SHMASK : Fld := ⟨0, 8⟩
abbrev SCR_PINS_SETMASK : Fld := ⟨8, 8⟩
abbrev SCR_PINS_JLANE : Fld := ⟨16, 3⟩
abbrev SCR_INJ_VAL : Fld := ⟨0, 16⟩
abbrev SCR_PC_VAL : Fld := ⟨0, 5⟩
abbrev SCR_X_VAL : Fld := ⟨0, 32⟩
abbrev SCR_Y_VAL : Fld := ⟨0, 32⟩
abbrev SCR_ISR_VAL : Fld := ⟨0, 32⟩
abbrev SCR_OSR_VAL : Fld := ⟨0, 32⟩
abbrev SCR_SHC_ISC : Fld := ⟨0, 6⟩
abbrev SCR_SHC_OSC : Fld := ⟨8, 6⟩
abbrev SCR_LATCH_VAL : Fld := ⟨0, 32⟩
abbrev SCR_TXF_VAL : Fld := ⟨0, 32⟩
abbrev SCR_RXF_VAL : Fld := ⟨0, 32⟩
abbrev SCR_FSTAT_TX_LVL : Fld := ⟨0, 5⟩
abbrev SCR_FSTAT_RX_LVL : Fld := ⟨5, 5⟩
abbrev SCR_FSTAT_TX_DROP : Fld := ⟨10, 1⟩
abbrev SCR_FSTAT_RX_EMPTY : Fld := ⟨11, 1⟩
abbrev SCR_FSTAT_DMAREF : Fld := ⟨12, 1⟩
abbrev SCR_FSTAT_STALE : Fld := ⟨16, 8⟩
abbrev SCR_FSTAT_OVERRUN : Fld := ⟨24, 8⟩
abbrev SCR_MARK_LO_VAL : Fld := ⟨0, 32⟩
abbrev SCR_MARK_HI_VAL : Fld := ⟨0, 32⟩
abbrev SCR_DMA_TX_WOFF : Fld := ⟨2, 13⟩
abbrev SCR_DMA_TX_CNT : Fld := ⟨16, 4⟩
abbrev SCR_DMA_TX_MODE : Fld := ⟨20, 2⟩
abbrev SCR_DMA_RX_WOFF : Fld := ⟨2, 13⟩
abbrev SCR_DMA_RX_CNT : Fld := ⟨16, 4⟩
abbrev SCR_DMA_RX_MODE : Fld := ⟨20, 1⟩
abbrev SCR_DMA_STAT_TX_SKIP : Fld := ⟨0, 16⟩
abbrev SCR_DMA_STAT_RX_REC : Fld := ⟨16, 16⟩
abbrev SCR_OLANE_LO_PIN0 : Fld := ⟨0, 5⟩
abbrev SCR_OLANE_LO_EN0 : Fld := ⟨7, 1⟩
abbrev SCR_OLANE_LO_PIN1 : Fld := ⟨8, 5⟩
abbrev SCR_OLANE_LO_EN1 : Fld := ⟨15, 1⟩
abbrev SCR_OLANE_LO_PIN2 : Fld := ⟨16, 5⟩
abbrev SCR_OLANE_LO_EN2 : Fld := ⟨23, 1⟩
abbrev SCR_OLANE_LO_PIN3 : Fld := ⟨24, 5⟩
abbrev SCR_OLANE_LO_EN3 : Fld := ⟨31, 1⟩
abbrev SCR_OLANE_HI_PIN0 : Fld := ⟨0, 5⟩
abbrev SCR_OLANE_HI_EN0 : Fld := ⟨7, 1⟩
abbrev SCR_OLANE_HI_PIN1 : Fld := ⟨8, 5⟩
abbrev SCR_OLANE_HI_EN1 : Fld := ⟨15, 1⟩
abbrev SCR_OLANE_HI_PIN2 : Fld := ⟨16, 5⟩
abbrev SCR_OLANE_HI_EN2 : Fld := ⟨23, 1⟩
abbrev SCR_OLANE_HI_PIN3 : Fld := ⟨24, 5⟩
abbrev SCR_OLANE_HI_EN3 : Fld := ⟨31, 1⟩
abbrev SCR_ILANE_LO_PIN0 : Fld := ⟨0, 5⟩
abbrev SCR_ILANE_LO_EN0 : Fld := ⟨7, 1⟩
abbrev SCR_ILANE_LO_PIN1 : Fld := ⟨8, 5⟩
abbrev SCR_ILANE_LO_EN1 : Fld := ⟨15, 1⟩
abbrev SCR_ILANE_LO_PIN2 : Fld := ⟨16, 5⟩
abbrev SCR_ILANE_LO_EN2 : Fld := ⟨23, 1⟩
abbrev SCR_ILANE_LO_PIN3 : Fld := ⟨24, 5⟩
abbrev SCR_ILANE_LO_EN3 : Fld := ⟨31, 1⟩
abbrev SCR_ILANE_HI_PIN0 : Fld := ⟨0, 5⟩
abbrev SCR_ILANE_HI_EN0 : Fld := ⟨7, 1⟩
abbrev SCR_ILANE_HI_PIN1 : Fld := ⟨8, 5⟩
abbrev SCR_ILANE_HI_EN1 : Fld := ⟨15, 1⟩
abbrev SCR_ILANE_HI_PIN2 : Fld := ⟨16, 5⟩
abbrev SCR_ILANE_HI_EN2 : Fld := ⟨23, 1⟩
abbrev SCR_ILANE_HI_PIN3 : Fld := ⟨24, 5⟩
abbrev SCR_ILANE_HI_EN3 : Fld := ⟨31, 1⟩

/-! 04_message_buses.md -/

abbrev MB_CTL_INIT : Fld := ⟨0, 1⟩
abbrev MB_CTL_MODE : Fld := ⟨1, 3⟩
abbrev MB_CTL_RESERR : Fld := ⟨4, 1⟩
abbrev MB_CTL_RETRY : Fld := ⟨5, 4⟩
abbrev MB_CTL_BO_AUTO : Fld := ⟨9, 1⟩
abbrev MB_CTL_VD : Fld := ⟨10, 4⟩
abbrev MB_CTL_NTC_Q : Fld := ⟨14, 5⟩
abbrev MB_STAT_STATE : Fld := ⟨0, 2⟩
abbrev MB_STAT_ALT : Fld := ⟨2, 1⟩
abbrev MB_STAT_LEC : Fld := ⟨3, 3⟩
abbrev MB_STAT_TEC : Fld := ⟨8, 8⟩
abbrev MB_STAT_REC : Fld := ⟨16, 8⟩
abbrev MB_NBT_BRP : Fld := ⟨0, 8⟩
abbrev MB_NBT_TSEG1 : Fld := ⟨8, 8⟩
abbrev MB_NBT_TSEG2 : Fld := ⟨16, 7⟩
abbrev MB_NBT_SJW : Fld := ⟨24, 7⟩
abbrev MB_DBT_BRP : Fld := ⟨0, 5⟩
abbrev MB_DBT_TSEG1 : Fld := ⟨8, 5⟩
abbrev MB_DBT_TSEG2 : Fld := ⟨16, 4⟩
abbrev MB_DBT_SJW : Fld := ⟨24, 4⟩
abbrev MB_TDC_SSPP : Fld := ⟨0, 7⟩
abbrev MB_TDC_DMAX : Fld := ⟨8, 7⟩
abbrev MB_TDC_EN : Fld := ⟨15, 1⟩
abbrev MB_TDC_DLY : Fld := ⟨16, 7⟩
abbrev MB_TDC_DMIN : Fld := ⟨24, 7⟩
abbrev MB_ESTAT_CFGREF : Fld := ⟨0, 1⟩
abbrev MB_ESTAT_BUSOFF : Fld := ⟨1, 1⟩
abbrev MB_ESTAT_PASSIVE : Fld := ⟨2, 1⟩
abbrev MB_ESTAT_POISON : Fld := ⟨3, 1⟩
abbrev MB_ESTAT_TXFAIL : Fld := ⟨4, 1⟩
abbrev MB_ESTAT_REQREF : Fld := ⟨5, 1⟩
abbrev MB_ESTAT_RESEX : Fld := ⟨6, 1⟩
abbrev MB_ESTAT_TDCERR : Fld := ⟨7, 1⟩
abbrev MB_TXREQ_REQ : Fld := ⟨0, 32⟩
abbrev MB_TXCAN_CAN : Fld := ⟨0, 32⟩
abbrev MB_NEW_NEW : Fld := ⟨0, 32⟩
abbrev MB_FWD_DST : Fld := ⟨0, 16⟩
abbrev MB_FWD_MC : Fld := ⟨16, 1⟩
abbrev MB_FWD_URG : Fld := ⟨17, 1⟩
abbrev MB_FWD_ADDR_VAL : Fld := ⟨0, 32⟩
abbrev MB_TT_CFG_TTEN : Fld := ⟨0, 1⟩
abbrev MB_TT_CFG_ROLE : Fld := ⟨1, 2⟩
abbrev MB_TT_CFG_REF_OBJ : Fld := ⟨3, 7⟩
abbrev MB_TT_CFG_ITB : Fld := ⟨10, 2⟩
abbrev MB_TT_CFG_NTU : Fld := ⟨12, 12⟩
abbrev MB_TT_CFG_CYCMAX : Fld := ⟨24, 6⟩
abbrev MB_TT_PERIOD_PERIOD : Fld := ⟨0, 32⟩
abbrev MB_TT_T0_LO_T0 : Fld := ⟨0, 32⟩
abbrev MB_TT_T0_HI_T0 : Fld := ⟨0, 32⟩
abbrev MB_TT_STAT_CTIME : Fld := ⟨0, 16⟩
abbrev MB_TT_STAT_CCNT : Fld := ⟨16, 6⟩
abbrev MB_TT_STAT_ELEVEL : Fld := ⟨22, 2⟩
abbrev MB_TT_STAT_MASTER : Fld := ⟨24, 1⟩
abbrev MB_TT_STAT_SYNC : Fld := ⟨25, 1⟩
abbrev MB_TRIG_A_TIME_MARK : Fld := ⟨0, 16⟩
abbrev MB_TRIG_A_OBJ : Fld := ⟨16, 7⟩
abbrev MB_TRIG_A_TYPE : Fld := ⟨24, 3⟩
abbrev MB_TRIG_B_REP : Fld := ⟨0, 3⟩
abbrev MB_TRIG_B_CYC_OFF : Fld := ⟨8, 6⟩
abbrev MB_TRIG_B_EN : Fld := ⟨31, 1⟩
abbrev GW_CTL_EN : Fld := ⟨0, 1⟩
abbrev GW_CTL_NTC_Q : Fld := ⟨1, 5⟩
abbrev GW_STAT_CFGREF : Fld := ⟨0, 1⟩
abbrev GW_STAT_POISON : Fld := ⟨1, 1⟩
abbrev GW_MAP_A_IOFF : Fld := ⟨0, 15⟩
abbrev GW_MAP_A_EN : Fld := ⟨15, 1⟩
abbrev GW_MAP_A_CTRL : Fld := ⟨16, 3⟩
abbrev GW_MAP_A_OBJ : Fld := ⟨19, 7⟩
abbrev GW_MAP_A_DIR : Fld := ⟨26, 1⟩
abbrev GW_MAP_B_BOFF : Fld := ⟨0, 6⟩
abbrev GW_MAP_B_BW : Fld := ⟨6, 2⟩
abbrev GW_MAP_B_IW : Fld := ⟨8, 2⟩
abbrev GW_MAP_B_BORD : Fld := ⟨10, 1⟩
abbrev GW_MAP_B_SIGN : Fld := ⟨11, 1⟩
abbrev GW_MAP_B_SAT : Fld := ⟨12, 1⟩
abbrev GW_MAP_B_SRC : Fld := ⟨13, 2⟩

/-! 05_serial_encoder_mains.md -/

abbrev UA_CTL_EN : Fld := ⟨0, 1⟩
abbrev UA_CTL_MODE : Fld := ⟨1, 2⟩
abbrev UA_CTL_DATA : Fld := ⟨3, 4⟩
abbrev UA_CTL_PAR : Fld := ⟨7, 3⟩
abbrev UA_CTL_STOP2 : Fld := ⟨10, 1⟩
abbrev UA_CTL_ECHO : Fld := ⟨11, 1⟩
abbrev UA_CTL_VD : Fld := ⟨12, 4⟩
abbrev UA_CTL_NTC_Q : Fld := ⟨16, 5⟩
abbrev UA_BAUD_DIV : Fld := ⟨0, 20⟩
abbrev UA_DIR_LEAD : Fld := ⟨0, 10⟩
abbrev UA_DIR_LAG : Fld := ⟨16, 10⟩
abbrev UA_GAP_IDLE : Fld := ⟨0, 8⟩
abbrev UA_STAT_TX_LVL : Fld := ⟨0, 7⟩
abbrev UA_STAT_RX_LVL : Fld := ⟨8, 7⟩
abbrev UA_STAT_TX_BUSY : Fld := ⟨15, 1⟩
abbrev UA_STAT_OVR : Fld := ⟨16, 1⟩
abbrev UA_STAT_FERR : Fld := ⟨17, 1⟩
abbrev UA_STAT_PERR : Fld := ⟨18, 1⟩
abbrev UA_STAT_BRK : Fld := ⟨19, 1⟩
abbrev UA_STAT_COLL : Fld := ⟨20, 1⟩
abbrev UA_STAT_TXDROP : Fld := ⟨21, 1⟩
abbrev UA_STAT_CFGREF : Fld := ⟨22, 1⟩
abbrev UA_STAT_RXREF : Fld := ⟨23, 1⟩
abbrev UA_TXD_DATA : Fld := ⟨0, 9⟩
abbrev UA_RXD_DATA : Fld := ⟨0, 9⟩
abbrev UA_RXD_PERR : Fld := ⟨9, 1⟩
abbrev UA_RXD_FERR : Fld := ⟨10, 1⟩
abbrev UA_RXD_BRK : Fld := ⟨11, 1⟩
abbrev UA_RXD_END : Fld := ⟨12, 1⟩
abbrev UA_RXD_VALID : Fld := ⟨31, 1⟩
abbrev UA_RXPM_LO_PM : Fld := ⟨0, 32⟩
abbrev UA_RXPM_HI_PM : Fld := ⟨0, 32⟩
abbrev UA_IMG_IOFF : Fld := ⟨2, 13⟩
abbrev UA_IMG_LEN : Fld := ⟨16, 6⟩
abbrev UA_IMG_EN : Fld := ⟨31, 1⟩
abbrev EN_CTL_EN : Fld := ⟨0, 1⟩
abbrev EN_CTL_MODE : Fld := ⟨1, 3⟩
abbrev EN_CTL_DIRINV : Fld := ⟨4, 1⟩
abbrev EN_CTL_FILT : Fld := ⟨5, 4⟩
abbrev EN_CTL_ZRST : Fld := ⟨9, 2⟩
abbrev EN_CTL_ZGATE : Fld := ⟨11, 1⟩
abbrev EN_CTL_ZQ : Fld := ⟨12, 2⟩
abbrev EN_CTL_ZARM : Fld := ⟨14, 1⟩
abbrev EN_CTL_ZNTC : Fld := ⟨15, 1⟩
abbrev EN_CTL_VD : Fld := ⟨16, 4⟩
abbrev EN_CTL_NTC_Q : Fld := ⟨20, 5⟩
abbrev EN_MOD_MOD : Fld := ⟨0, 32⟩
abbrev EN_COUNT_COUNT : Fld := ⟨0, 32⟩
abbrev EN_ZCNT_ZCNT : Fld := ⟨0, 32⟩
abbrev EN_ZPM_LO_PM : Fld := ⟨0, 32⟩
abbrev EN_ZPM_HI_PM : Fld := ⟨0, 32⟩
abbrev EN_STAT_AB : Fld := ⟨0, 2⟩
abbrev EN_STAT_Z : Fld := ⟨2, 1⟩
abbrev EN_STAT_DIR : Fld := ⟨3, 1⟩
abbrev EN_STAT_ILLEGAL : Fld := ⟨16, 1⟩
abbrev EN_STAT_ZSEEN : Fld := ⟨17, 1⟩
abbrev EN_STAT_CFGREF : Fld := ⟨18, 1⟩
abbrev EN_IMG_IOFF : Fld := ⟨3, 12⟩
abbrev EN_IMG_EN : Fld := ⟨31, 1⟩
abbrev MP_CTL_EN : Fld := ⟨0, 1⟩
abbrev MP_CTL_EDGE : Fld := ⟨1, 1⟩
abbrev MP_CTL_BW : Fld := ⟨2, 2⟩
abbrev MP_CTL_HOLDOFF : Fld := ⟨4, 10⟩
abbrev MP_CTL_VD : Fld := ⟨14, 4⟩
abbrev MP_CTL_NTC_Q : Fld := ⟨18, 5⟩
abbrev MP_CTL_HOLD_MAX : Fld := ⟨23, 8⟩
abbrev MP_CTL_NOM60 : Fld := ⟨31, 1⟩
abbrev MP_OFFSET_OFFSET : Fld := ⟨0, 32⟩
abbrev MP_PHASE_PHASE : Fld := ⟨0, 32⟩
abbrev MP_CYC_CYC : Fld := ⟨0, 32⟩
abbrev MP_FREQ_FREQ : Fld := ⟨0, 24⟩
abbrev MP_FREQ_STATE : Fld := ⟨24, 2⟩
abbrev MP_ERR_ERR : Fld := ⟨0, 32⟩
abbrev MP_STAT_RANGE : Fld := ⟨8, 1⟩
abbrev MP_STAT_HOLD : Fld := ⟨9, 1⟩
abbrev MP_STAT_CFGREF : Fld := ⟨10, 1⟩
abbrev MP_IMG_IOFF : Fld := ⟨3, 12⟩
abbrev MP_IMG_EN : Fld := ⟨31, 1⟩

/-! 06_local_interconnect.md -/

abbrev ARB_QUOTA_Q : Fld := ⟨0, 10⟩
abbrev ARB_QUOTA_WM1 : Fld := ⟨16, 16⟩
abbrev ARB_STAT_QMASK : Fld := ⟨0, 24⟩
abbrev ARB_STAT_HOLDER : Fld := ⟨24, 5⟩
abbrev ARB_STAT_BUSY : Fld := ⟨29, 1⟩
abbrev ARB_STAT_LOCKED : Fld := ⟨30, 1⟩
abbrev ARB_PRESENT_PRESENT : Fld := ⟨0, 24⟩
abbrev LI_TOUT_CYCLES : Fld := ⟨0, 16⟩
abbrev LI_STAT_TOUT : Fld := ⟨0, 1⟩
abbrev LI_TOUT_ADDR_ADDR : Fld := ⟨0, 32⟩
abbrev ARB_PRI_RANK : Fld := ⟨0, 2⟩
abbrev PH_CFG_BASE : Fld := ⟨0, 9⟩
abbrev PH_CFG_SIZE : Fld := ⟨10, 10⟩
abbrev PH_CFG_VD : Fld := ⟨20, 4⟩
abbrev PH_CFG_EN : Fld := ⟨24, 1⟩
abbrev PH_CFG_SUB : Fld := ⟨25, 1⟩
abbrev PH_CFG_BATCH : Fld := ⟨26, 5⟩
abbrev PH_PRI_INFO : Fld := ⟨0, 3⟩
abbrev PH_PRI_DATA : Fld := ⟨4, 3⟩
abbrev PH_PRI_WARN : Fld := ⟨8, 3⟩
abbrev PH_PRI_FAULT : Fld := ⟨12, 3⟩
abbrev PH_CTL_FLUSH : Fld := ⟨0, 1⟩
abbrev PH_STAT_LEVEL : Fld := ⟨0, 14⟩
abbrev PH_STAT_OVF : Fld := ⟨16, 1⟩
abbrev PH_STAT_FLUSHED : Fld := ⟨17, 1⟩
abbrev PH_STAT_TORN : Fld := ⟨18, 1⟩
abbrev PH_STAT_PTRERR : Fld := ⟨19, 1⟩
abbrev PH_STAT_CFGREF : Fld := ⟨20, 1⟩
abbrev PH_POP_W0_LO : Fld := ⟨0, 32⟩
abbrev PH_ITEM_VAL : Fld := ⟨0, 32⟩
abbrev PH_DST_DST : Fld := ⟨0, 16⟩
abbrev PH_DST_MC : Fld := ⟨16, 1⟩
abbrev PH_DST_CLASS : Fld := ⟨17, 2⟩
abbrev PH_DST_VALID : Fld := ⟨31, 1⟩
abbrev PH_DADDR_LO_ADDR : Fld := ⟨0, 32⟩
abbrev PH_DADDR_HI_ADDR : Fld := ⟨0, 16⟩

/-! 07_post_office_bridge.md -/

abbrev BR_CTL_PF_EN : Fld := ⟨0, 1⟩
abbrev BR_CTL_PF_HOLD : Fld := ⟨8, 8⟩
abbrev BR_CTL_NTC_Q : Fld := ⟨16, 5⟩
abbrev BR_STAT_LOCKED : Fld := ⟨0, 1⟩
abbrev BR_STAT_SEM_USED : Fld := ⟨1, 7⟩
abbrev BR_STAT_WAITERS : Fld := ⟨8, 5⟩
abbrev BR_STAT_CFGREF : Fld := ⟨13, 1⟩
abbrev BR_STAT_TOUT : Fld := ⟨14, 1⟩
abbrev BR_STAT_BADREQ : Fld := ⟨15, 1⟩
abbrev BR_RTOUT_US : Fld := ⟨0, 24⟩
abbrev BR_RTT_US : Fld := ⟨0, 24⟩
abbrev BR_TQUAR_US : Fld := ⟨0, 24⟩
abbrev BR_LOCKT_US : Fld := ⟨0, 16⟩
abbrev BR_TAGSTAT_NP_OUT : Fld := ⟨0, 10⟩
abbrev BR_TAGSTAT_NP_QUAR : Fld := ⟨16, 10⟩
abbrev BR_HOPS_HOPS : Fld := ⟨0, 12⟩
abbrev BR_PFA_A_EN : Fld := ⟨0, 1⟩
abbrev BR_PFA_A_BASE : Fld := ⟨12, 20⟩
abbrev BR_PFA_B_LIMIT : Fld := ⟨12, 20⟩
abbrev BR_OC_CMD_KIND : Fld := ⟨0, 5⟩
abbrev BR_OC_CMD_CLASS : Fld := ⟨5, 2⟩
abbrev BR_OC_CMD_LOCK : Fld := ⟨7, 1⟩
abbrev BR_OC_CMD_PREFETCH : Fld := ⟨8, 1⟩
abbrev BR_OC_CMD_NTC : Fld := ⟨9, 1⟩
abbrev BR_OC_CMD_BYTES : Fld := ⟨10, 9⟩
abbrev BR_OC_CMD_GO : Fld := ⟨31, 1⟩
abbrev BR_OC_DST_DST : Fld := ⟨0, 16⟩
abbrev BR_OC_DST_MC : Fld := ⟨16, 1⟩
abbrev BR_OC_ADDR_ADDR : Fld := ⟨0, 32⟩
abbrev BR_OC_STAT_STATE : Fld := ⟨0, 2⟩
abbrev BR_OC_STAT_POISON : Fld := ⟨2, 1⟩
abbrev BR_OC_STAT_REASON : Fld := ⟨8, 8⟩
abbrev BR_OC_STAT_CAUSE : Fld := ⟨16, 8⟩
abbrev BR_OC_STAT_PIECES : Fld := ⟨24, 8⟩
abbrev BR_OC_TAG_TAG : Fld := ⟨0, 12⟩
abbrev BR_OC_OWN_MASTER : Fld := ⟨0, 4⟩
abbrev BR_OC_DATA_DATA : Fld := ⟨0, 32⟩
abbrev BR_SEM_A_VALID : Fld := ⟨0, 1⟩
abbrev BR_SEM_A_PAGE : Fld := ⟨12, 20⟩
abbrev BR_SEM_B_HOLDER : Fld := ⟨0, 20⟩
abbrev BR_SEM_B_WAIT : Fld := ⟨24, 5⟩

/-! 08_dead_letters.md -/

abbrev DL_CTL_NTC : Fld := ⟨0, 1⟩
abbrev DL_CTL_NTC_Q : Fld := ⟨1, 5⟩
abbrev DL_CTL_VD : Fld := ⟨6, 4⟩
abbrev DL_STAT_LEVEL : Fld := ⟨0, 7⟩
abbrev DL_STAT_OVF : Fld := ⟨7, 1⟩
abbrev DL_STAT_UP_LEVEL : Fld := ⟨8, 5⟩
abbrev DL_STAT_UP_OVF : Fld := ⟨13, 1⟩
abbrev DL_STAT_CFGREF : Fld := ⟨14, 1⟩
abbrev DL_STAT_FWD_BUSY : Fld := ⟨15, 1⟩
abbrev DL_HEAD_HEAD : Fld := ⟨0, 7⟩
abbrev DL_TAIL_TAIL : Fld := ⟨0, 7⟩
abbrev UP_HEAD_HEAD : Fld := ⟨0, 5⟩
abbrev UP_TAIL_TAIL : Fld := ⟨0, 5⟩
abbrev DL_FWD_DST : Fld := ⟨0, 16⟩
abbrev DL_FWD_MC : Fld := ⟨16, 1⟩
abbrev DL_FWD_CLASS : Fld := ⟨17, 2⟩
abbrev DL_FWD_DEPTH : Fld := ⟨19, 4⟩
abbrev DL_FWD_VALID : Fld := ⟨31, 1⟩
abbrev DL_FADDR_ADDR : Fld := ⟨0, 32⟩
abbrev DL_ENT_VAL : Fld := ⟨0, 32⟩
abbrev UP_ENT_ADDR_VAL : Fld := ⟨0, 32⟩
abbrev UP_ENT_MASTER_VAL : Fld := ⟨0, 32⟩
abbrev UP_ENT_PM_LO_VAL : Fld := ⟨0, 32⟩
abbrev UP_ENT_PM_HI_VAL : Fld := ⟨0, 32⟩
abbrev UP_ENT_SEQ_VAL : Fld := ⟨0, 32⟩
abbrev UP_ENT_DATA_VAL : Fld := ⟨0, 32⟩

/-! 09_sorting_office.md -/

abbrev SO_CTL_NTC_Q : Fld := ⟨0, 5⟩
abbrev SO_CAP_CELLS : Fld := ⟨0, 16⟩
abbrev SO_CAP_RETIRED : Fld := ⟨16, 6⟩
abbrev SO_CAP_SPARE : Fld := ⟨22, 1⟩
abbrev SO_FREE_FREE : Fld := ⟨0, 16⟩
abbrev SO_FREE_LOW : Fld := ⟨16, 16⟩
abbrev SO_POOL_SCHED : Fld := ⟨0, 14⟩
abbrev SO_POOL_ICAP : Fld := ⟨16, 14⟩
abbrev SO_IPOOL_CELLS : Fld := ⟨0, 16⟩
abbrev SO_IPOOL_USED : Fld := ⟨16, 16⟩
abbrev SO_SLOT_SLOT : Fld := ⟨0, 32⟩
abbrev SO_EVT_SCHED : Fld := ⟨0, 1⟩
abbrev SO_EVT_CREDIT : Fld := ⟨1, 1⟩
abbrev SO_EVT_RESEQ : Fld := ⟨2, 1⟩
abbrev SO_EVT_UNCORR : Fld := ⟨3, 1⟩
abbrev SO_EVT_POOLCUT : Fld := ⟨4, 1⟩
abbrev SO_EVT_CFGREF : Fld := ⟨5, 1⟩
abbrev SO_EVT_STALL : Fld := ⟨6, 1⟩
abbrev SO_RES_A_URG : Fld := ⟨0, 14⟩
abbrev SO_RES_A_MGMT : Fld := ⟨16, 14⟩
abbrev SO_RES_B_BULK : Fld := ⟨0, 14⟩
abbrev SO_FWD_CT : Fld := ⟨0, 4⟩
abbrev SO_PC_HELD : Fld := ⟨0, 16⟩
abbrev SO_PC_TXCR : Fld := ⟨16, 16⟩
abbrev SO_QLEN_CELLS : Fld := ⟨0, 16⟩
abbrev SO_QLEN_WAIT : Fld := ⟨16, 4⟩

/-! 10_caravan_links.md -/

abbrev PT_CTL_EN : Fld := ⟨0, 1⟩
abbrev PT_CTL_RATE : Fld := ⟨1, 2⟩
abbrev PT_CTL_AUTODN : Fld := ⟨3, 1⟩
abbrev PT_CTL_RETRAIN : Fld := ⟨4, 1⟩
abbrev PT_CTL_ANYMOD : Fld := ⟨5, 1⟩
abbrev PT_CTL_NTC_Q : Fld := ⟨6, 5⟩
abbrev PT_CTL_STAMP_INT : Fld := ⟨16, 8⟩
abbrev PT_STAT_STATE : Fld := ⟨0, 3⟩
abbrev PT_STAT_RATE_EFF : Fld := ⟨3, 1⟩
abbrev PT_STAT_LOS : Fld := ⟨4, 1⟩
abbrev PT_STAT_MODABS : Fld := ⟨5, 1⟩
abbrev PT_STAT_LOCK : Fld := ⟨6, 1⟩
abbrev PT_STAT_RLOCK : Fld := ⟨7, 1⟩
abbrev PT_STAT_NROLE : Fld := ⟨8, 2⟩
abbrev PT_STAT_DOWNSHIFTED : Fld := ⟨10, 1⟩
abbrev PT_NID_NID : Fld := ⟨0, 32⟩
abbrev PT_EVT_LOCKLOSS : Fld := ⟨0, 1⟩
abbrev PT_EVT_STAMPTO : Fld := ⟨1, 1⟩
abbrev PT_EVT_HIBER : Fld := ⟨2, 1⟩
abbrev PT_EVT_LOS : Fld := ⟨3, 1⟩
abbrev PT_EVT_MODCHG : Fld := ⟨4, 1⟩
abbrev PT_EVT_MODREF : Fld := ⟨5, 1⟩
abbrev PT_EVT_CABLE : Fld := ⟨6, 1⟩
abbrev PT_EVT_HCRC : Fld := ⟨7, 1⟩
abbrev PT_EVT_BADBLK : Fld := ⟨8, 1⟩
abbrev PT_EVT_AUDIT : Fld := ⟨9, 1⟩
abbrev PT_EVT_CFGREF : Fld := ⟨10, 1⟩
abbrev PT_EVT_I2CERR : Fld := ⟨11, 1⟩
abbrev PT_EVT_TRAINRX : Fld := ⟨12, 1⟩
abbrev PT_SDS_TX_AMP : Fld := ⟨0, 4⟩
abbrev PT_SDS_TX_PRE : Fld := ⟨4, 3⟩
abbrev PT_SDS_TX_POST : Fld := ⟨8, 4⟩
abbrev PT_SDS_RX_ADAPT : Fld := ⟨0, 1⟩
abbrev PT_SDS_RX_CTLE : Fld := ⟨1, 5⟩
abbrev PT_DLY_TX_PS : Fld := ⟨0, 20⟩
abbrev PT_DLY_RX_PS : Fld := ⟨0, 20⟩
abbrev PT_ASYM_PS : Fld := ⟨0, 32⟩
abbrev PT_I2C_CMD_DEV : Fld := ⟨0, 1⟩
abbrev PT_I2C_CMD_FAST : Fld := ⟨1, 1⟩
abbrev PT_I2C_CMD_OFFSET : Fld := ⟨8, 8⟩
abbrev PT_I2C_CMD_WDATA : Fld := ⟨16, 8⟩
abbrev PT_I2C_CMD_WRITE : Fld := ⟨24, 1⟩
abbrev PT_I2C_CMD_GO : Fld := ⟨31, 1⟩
abbrev PT_I2C_DATA_RDATA : Fld := ⟨0, 8⟩
abbrev PT_I2C_DATA_ERR : Fld := ⟨30, 1⟩
abbrev PT_I2C_DATA_VALID : Fld := ⟨31, 1⟩
abbrev PT_DDM_A_TEMP : Fld := ⟨0, 16⟩
abbrev PT_DDM_A_VCC : Fld := ⟨16, 16⟩
abbrev PT_DDM_B_BIAS : Fld := ⟨0, 16⟩
abbrev PT_DDM_B_TXPWR : Fld := ⟨16, 16⟩
abbrev PT_DDM_C_RXPWR : Fld := ⟨0, 16⟩
abbrev PT_MOD_ID : Fld := ⟨0, 8⟩
abbrev PT_MOD_DDM : Fld := ⟨8, 1⟩
abbrev PT_MOD_SOFTDIS : Fld := ⟨9, 1⟩

/-! 11_census_and_routing.md -/

abbrev CN_CFG_RING : Fld := ⟨0, 4⟩
abbrev CN_CFG_BIND : Fld := ⟨4, 1⟩
abbrev CN_CFG_GAPM1 : Fld := ⟨5, 4⟩
abbrev CN_CFG_RPRI : Fld := ⟨16, 8⟩
abbrev CN_CFG_CINT : Fld := ⟨24, 8⟩
abbrev CN_STAT_STATE : Fld := ⟨0, 3⟩
abbrev CN_STAT_ROOT : Fld := ⟨3, 1⟩
abbrev CN_STAT_ELIG : Fld := ⟨4, 1⟩
abbrev CN_ADDR_ADDR : Fld := ⟨0, 16⟩
abbrev CN_ADDR_ROOT : Fld := ⟨16, 16⟩
abbrev CN_POS_POS : Fld := ⟨0, 16⟩
abbrev CN_POS_EPOCH : Fld := ⟨16, 16⟩
abbrev CN_BIND_INDEX : Fld := ⟨0, 12⟩
abbrev CN_BIND_RING : Fld := ⟨12, 4⟩
abbrev CN_BIND_VALID : Fld := ⟨31, 1⟩
abbrev CN_CMD_CLAIM : Fld := ⟨0, 1⟩
abbrev CN_CMD_RENUMBER : Fld := ⟨1, 1⟩
abbrev RT_CFG_PAIR : Fld := ⟨0, 1⟩
abbrev RT_CFG_SIDEB : Fld := ⟨1, 1⟩
abbrev RT_CFG_EPORT : Fld := ⟨2, 2⟩
abbrev RT_CFG_WPORT : Fld := ⟨4, 2⟩
abbrev RT_CFG_NTC_Q : Fld := ⟨6, 5⟩
abbrev RT_PREF_PREF0 : Fld := ⟨0, 2⟩
abbrev RT_PREF_PREF1 : Fld := ⟨2, 2⟩
abbrev RT_PREF_PREF2 : Fld := ⟨4, 2⟩
abbrev RT_PREF_PREF3 : Fld := ⟨6, 2⟩
abbrev RT_KEY_KEY : Fld := ⟨0, 13⟩
abbrev RT_KEY_VALID : Fld := ⟨13, 1⟩
abbrev RT_STAT_NBND : Fld := ⟨0, 5⟩
abbrev RT_STAT_BNDFULL : Fld := ⟨8, 1⟩
abbrev RT_STAT_NOROUTE : Fld := ⟨9, 1⟩
abbrev RT_STAT_MCCUT : Fld := ⟨10, 1⟩
abbrev RT_STAT_CFGREF : Fld := ⟨11, 1⟩
abbrev RT_STAT_LOOP : Fld := ⟨12, 1⟩
abbrev RT_NBR_INDEX : Fld := ⟨0, 12⟩
abbrev RT_NBR_VALID : Fld := ⟨12, 1⟩
abbrev RT_BND_B : Fld := ⟨0, 13⟩
abbrev RT_BND_KEY : Fld := ⟨16, 13⟩
abbrev RT_BND_SIDE : Fld := ⟨29, 1⟩
abbrev RT_BND_LOCAL : Fld := ⟨30, 1⟩
abbrev RT_BND_VALID : Fld := ⟨31, 1⟩
abbrev RT_JN_PRI : Fld := ⟨0, 12⟩
abbrev RT_JN_PVALID : Fld := ⟨12, 1⟩
abbrev RT_JN_PDOWN : Fld := ⟨13, 1⟩
abbrev RT_JN_BAK : Fld := ⟨16, 12⟩
abbrev RT_JN_BVALID : Fld := ⟨28, 1⟩
abbrev RT_JN_BDOWN : Fld := ⟨29, 1⟩
abbrev RT_GRP_MEMBER : Fld := ⟨0, 32⟩
abbrev RT_PRES_PRESENT : Fld := ⟨0, 32⟩
abbrev JN_CTL_EN : Fld := ⟨0, 1⟩
abbrev JN_CTL_PEER : Fld := ⟨4, 4⟩
abbrev JN_CTL_HOPS : Fld := ⟨16, 12⟩
abbrev JN_BEYOND_RINGS : Fld := ⟨0, 16⟩
abbrev JN_STAT_UP : Fld := ⟨0, 1⟩
abbrev JN_STAT_CFGREF : Fld := ⟨1, 1⟩
abbrev JN_STAT_PEERERR : Fld := ⟨2, 1⟩

/-! 12_timetable_and_time.md -/

abbrev TT_CTL_RUN : Fld := ⟨0, 1⟩
abbrev TT_CTL_SWAP_REQ : Fld := ⟨1, 1⟩
abbrev TT_CTL_SWAP_AT : Fld := ⟨2, 1⟩
abbrev TT_CTL_SWAPNOW : Fld := ⟨3, 1⟩
abbrev TT_CTL_NTC_Q : Fld := ⟨4, 5⟩
abbrev TT_STAT_RUNNING : Fld := ⟨0, 1⟩
abbrev TT_STAT_ACTIVE : Fld := ⟨1, 1⟩
abbrev TT_STAT_PENDING : Fld := ⟨2, 1⟩
abbrev TT_STAT_OVERRUN : Fld := ⟨3, 1⟩
abbrev TT_STAT_PENDREF : Fld := ⟨4, 1⟩
abbrev TT_STAT_CFGREF : Fld := ⟨5, 1⟩
abbrev TT_STAT_LATE : Fld := ⟨6, 1⟩
abbrev TT_STAT_RXREF : Fld := ⟨7, 1⟩
abbrev TT_STAT_SKIP : Fld := ⟨8, 1⟩
abbrev TT_T0_LO_T0 : Fld := ⟨0, 32⟩
abbrev TT_T0_HI_T0 : Fld := ⟨0, 32⟩
abbrev TT_CYCLE_NS : Fld := ⟨0, 32⟩
abbrev TT_CNUM_K : Fld := ⟨0, 32⟩
abbrev TT_SWAPC_K : Fld := ⟨0, 32⟩
abbrev TT_HOPS_HOPS : Fld := ⟨0, 12⟩
abbrev TT_RX_A_SRC : Fld := ⟨0, 16⟩
abbrev TT_RX_A_EN : Fld := ⟨31, 1⟩
abbrev TT_RX_B_BASE : Fld := ⟨3, 12⟩
abbrev TT_RX_B_LIMIT : Fld := ⟨19, 12⟩
abbrev LTICK_LO_TICK : Fld := ⟨0, 32⟩
abbrev LTICK_HI_TICK : Fld := ⟨0, 32⟩
abbrev ITB_NOW_LO_NOW : Fld := ⟨0, 32⟩
abbrev ITB_NOW_HI_NOW : Fld := ⟨0, 32⟩
abbrev ITB_NOW_TOP_NOW : Fld := ⟨0, 16⟩
abbrev ITB_INC_LO_INC : Fld := ⟨0, 32⟩
abbrev ITB_INC_HI_INC : Fld := ⟨0, 8⟩
abbrev ITB_STEP_LO_STEP : Fld := ⟨0, 32⟩
abbrev ITB_STEP_HI_STEP : Fld := ⟨0, 32⟩
abbrev ITB_STEP_TOP_STEP : Fld := ⟨0, 17⟩
abbrev ITB_CTL_CFGREF : Fld := ⟨0, 1⟩
abbrev ITB_CTL_STEPPED : Fld := ⟨1, 1⟩
abbrev VD_NOW_LO_NOW : Fld := ⟨0, 32⟩
abbrev VD_NOW_HI_NOW : Fld := ⟨0, 32⟩
abbrev VD_NOW_TOP_NOW : Fld := ⟨0, 16⟩
abbrev VD_BASE_LO_BASE : Fld := ⟨0, 32⟩
abbrev VD_BASE_HI_BASE : Fld := ⟨0, 32⟩
abbrev VD_BASE_TOP_BASE : Fld := ⟨0, 16⟩
abbrev VD_ANCHOR_LO_ANCHOR : Fld := ⟨0, 32⟩
abbrev VD_ANCHOR_HI_ANCHOR : Fld := ⟨0, 32⟩
abbrev VD_RATE_LO_RATE : Fld := ⟨0, 32⟩
abbrev VD_RATE_HI_RATE : Fld := ⟨0, 16⟩
abbrev VD_CTL_LOAD : Fld := ⟨0, 1⟩
abbrev VD_CTL_FOLLOW : Fld := ⟨1, 1⟩
abbrev VD_CTL_ITB : Fld := ⟨2, 2⟩
abbrev TM_CTL_GM : Fld := ⟨0, 1⟩
abbrev TM_CTL_HOST : Fld := ⟨1, 1⟩
abbrev TM_CTL_SYNCED : Fld := ⟨2, 1⟩
abbrev TM_CTL_TIE_EN : Fld := ⟨3, 1⟩
abbrev TM_CTL_NTC_Q : Fld := ⟨4, 5⟩
abbrev TM_CFG_GPRI : Fld := ⟨0, 8⟩
abbrev TM_CFG_BPER : Fld := ⟨8, 16⟩
abbrev TM_STAT_PARENT : Fld := ⟨0, 2⟩
abbrev TM_STAT_STEPS : Fld := ⟨16, 16⟩
abbrev TM_GM_GMID : Fld := ⟨0, 16⟩
abbrev TM_GM_GPRI : Fld := ⟨16, 8⟩
abbrev TM_SERVO_KP : Fld := ⟨0, 8⟩
abbrev TM_SERVO_KI : Fld := ⟨8, 8⟩
abbrev TM_P_BCN_STEPS : Fld := ⟨0, 16⟩
abbrev TM_P_BCN_GPRI : Fld := ⟨16, 8⟩
abbrev TM_P_BCN_VALID : Fld := ⟨24, 1⟩
abbrev TM_P_BCN_GM : Fld := ⟨25, 1⟩
abbrev TM_P_BCN_ELIG : Fld := ⟨26, 1⟩
abbrev TM_P_GM_GMID : Fld := ⟨0, 16⟩
abbrev TM_P_GM_KEY : Fld := ⟨16, 13⟩
abbrev TM_P_MPD_PS : Fld := ⟨0, 32⟩
abbrev TM_P_OFS_LO_OFS : Fld := ⟨0, 32⟩
abbrev TM_P_OFS_HI_OFS : Fld := ⟨0, 32⟩
abbrev TM_P_SEQ_SEQ : Fld := ⟨0, 16⟩
abbrev TM_P_SEQ_STEPPED : Fld := ⟨16, 1⟩
abbrev TT_ENT_W0_OFFSET : Fld := ⟨0, 27⟩
abbrev TT_ENT_W0_REP : Fld := ⟨27, 3⟩
abbrev TT_ENT_W0_EN : Fld := ⟨31, 1⟩
abbrev TT_ENT_W1_DST : Fld := ⟨0, 16⟩
abbrev TT_ENT_W1_MC : Fld := ⟨16, 1⟩
abbrev TT_ENT_W1_LENW : Fld := ⟨17, 6⟩
abbrev TT_ENT_W1_PHASE : Fld := ⟨24, 7⟩
abbrev TT_ENT_W2_SOFF : Fld := ⟨3, 12⟩
abbrev TT_ENT_W3_DOFF : Fld := ⟨3, 12⟩

/-! 13_tracks_and_waymarks.md -/

abbrev TK_CFG_SRC : Fld := ⟨0, 3⟩
abbrev TK_CFG_SEL : Fld := ⟨3, 9⟩
abbrev TK_CFG_VWIN : Fld := ⟨12, 3⟩
abbrev TK_CFG_NTC_Q : Fld := ⟨15, 5⟩
abbrev TK_CFG_NOSYNC : Fld := ⟨20, 1⟩
abbrev TK_CTL_HOLD : Fld := ⟨0, 1⟩
abbrev TK_STAT_STATE : Fld := ⟨0, 2⟩
abbrev TK_STAT_ABS : Fld := ⟨2, 1⟩
abbrev TK_STAT_JUMPED : Fld := ⟨8, 1⟩
abbrev TK_STAT_CFGREF : Fld := ⟨9, 1⟩
abbrev TK_STAT_CARMREF : Fld := ⟨10, 1⟩
abbrev TK_STAT_PUBREF : Fld := ⟨11, 1⟩
abbrev TK_STAT_SAMPREF : Fld := ⟨12, 1⟩
abbrev TK_STAT_SEQ : Fld := ⟨16, 16⟩
abbrev TK_SCALE_SCALE : Fld := ⟨0, 32⟩
abbrev TK_POS_LO_VAL : Fld := ⟨0, 32⟩
abbrev TK_POS_HI_VAL : Fld := ⟨0, 32⟩
abbrev TK_VEL_LO_VAL : Fld := ⟨0, 32⟩
abbrev TK_VEL_HI_VAL : Fld := ⟨0, 32⟩
abbrev TK_T_LO_VAL : Fld := ⟨0, 32⟩
abbrev TK_T_HI_VAL : Fld := ⟨0, 32⟩
abbrev TK_RSRC_NODE : Fld := ⟨0, 16⟩
abbrev TK_RSRC_TRACK : Fld := ⟨16, 4⟩
abbrev TK_RSRC_EN : Fld := ⟨31, 1⟩
abbrev TK_RCFG_FRESH : Fld := ⟨0, 16⟩
abbrev TK_RCFG_COAST : Fld := ⟨16, 16⟩
abbrev TK_JUMP_UNITS : Fld := ⟨0, 32⟩
abbrev TK_PUB_A_OFFSET : Fld := ⟨0, 27⟩
abbrev TK_PUB_A_CLASS : Fld := ⟨28, 2⟩
abbrev TK_PUB_A_EN : Fld := ⟨31, 1⟩
abbrev TK_PUB_B_DST : Fld := ⟨0, 16⟩
abbrev TK_PUB_B_MC : Fld := ⟨16, 1⟩
abbrev TK_CARM_BASE : Fld := ⟨0, 12⟩
abbrev TK_CARM_CNTM1 : Fld := ⟨12, 8⟩
abbrev TK_CARM_EN : Fld := ⟨31, 1⟩
abbrev TK_COFF_OFFSET : Fld := ⟨0, 32⟩
abbrev TK_CAP_POS_LO_VAL : Fld := ⟨0, 32⟩
abbrev TK_CAP_POS_HI_VAL : Fld := ⟨0, 32⟩
abbrev TK_CAP_PM_LO_VAL : Fld := ⟨0, 32⟩
abbrev TK_CAP_PM_HI_VAL : Fld := ⟨0, 32⟩
abbrev TK_CAP_STAT_SEQ : Fld := ⟨0, 16⟩
abbrev TK_CAP_STAT_STATE : Fld := ⟨16, 2⟩
abbrev TK_CAP_STAT_ARMED : Fld := ⟨18, 1⟩
abbrev TK_CAP_STAT_ENTRY : Fld := ⟨19, 12⟩
abbrev TK_CARM_NEXT_NEXT : Fld := ⟨0, 12⟩
abbrev WM_CTL_EN : Fld := ⟨0, 1⟩
abbrev WM_CTL_NTC_Q : Fld := ⟨1, 5⟩
abbrev WM_STAT_ARMED : Fld := ⟨0, 13⟩
abbrev WM_STAT_BADENT : Fld := ⟨16, 1⟩
abbrev WM_STAT_SKEW : Fld := ⟨17, 1⟩
abbrev WM_STAT_MISSED : Fld := ⟨18, 1⟩
abbrev WM_STAT_DISCARD : Fld := ⟨19, 1⟩
abbrev WM_STAT_EMITDROP : Fld := ⟨20, 1⟩
abbrev WM_STAT_PULSEREF : Fld := ⟨21, 1⟩
abbrev WM_STAT_CAPOVF : Fld := ⟨22, 1⟩
abbrev WM_STAT_PINREF : Fld := ⟨23, 1⟩
abbrev WM_STAT_CAP_CNT : Fld := ⟨24, 6⟩
abbrev WM_CAP_LO_CAP : Fld := ⟨0, 32⟩
abbrev WM_CAP_HI_CAP : Fld := ⟨0, 32⟩
abbrev WM_CAP_TOP_CAP : Fld := ⟨0, 32⟩
abbrev WM_CAP_EXT_CAP : Fld := ⟨0, 32⟩
abbrev WM_TPL_A_DST : Fld := ⟨0, 16⟩
abbrev WM_TPL_A_MC : Fld := ⟨16, 1⟩
abbrev WM_TPL_A_CLASS : Fld := ⟨17, 2⟩
abbrev WM_TPL_A_FORM : Fld := ⟨19, 1⟩
abbrev WM_TPL_A_VALID : Fld := ⟨31, 1⟩
abbrev WM_TPL_B_ADDR : Fld := ⟨0, 32⟩

/-! 14_duplex_pairs.md -/

abbrev DPX_CTL_EN : Fld := ⟨0, 1⟩
abbrev DPX_CTL_YIELD : Fld := ⟨1, 1⟩
abbrev DPX_CTL_CLRF : Fld := ⟨2, 1⟩
abbrev DPX_CTL_FAULT : Fld := ⟨3, 1⟩
abbrev DPX_CTL_K : Fld := ⟨4, 4⟩
abbrev DPX_CTL_STEST : Fld := ⟨8, 1⟩
abbrev DPX_CTL_NTC_Q : Fld := ⟨9, 5⟩
abbrev DPX_STAT_STATE : Fld := ⟨0, 2⟩
abbrev DPX_STAT_ROLE : Fld := ⟨2, 1⟩
abbrev DPX_STAT_CLAIM : Fld := ⟨3, 1⟩
abbrev DPX_STAT_PEER : Fld := ⟨4, 1⟩
abbrev DPX_STAT_DRIVE : Fld := ⟨5, 1⟩
abbrev DPX_STAT_READY : Fld := ⟨6, 1⟩
abbrev DPX_STAT_PREADY : Fld := ⟨7, 1⟩
abbrev DPX_STAT_SOLO : Fld := ⟨8, 1⟩
abbrev DPX_STAT_ALIGNED : Fld := ⟨9, 1⟩
abbrev DPX_STAT_ROLEERR : Fld := ⟨10, 1⟩
abbrev DPX_STAT_INTENT : Fld := ⟨11, 1⟩
abbrev DPX_STAT_CFGREF : Fld := ⟨12, 1⟩
abbrev DPX_FAULT_FAULT : Fld := ⟨0, 6⟩
abbrev DPX_FMASK_SEL : Fld := ⟨0, 6⟩
abbrev DPX_FMASK_MEM : Fld := ⟨16, 6⟩
abbrev DPX_STEP_STEP : Fld := ⟨0, 32⟩
abbrev DPX_OFS_PS : Fld := ⟨0, 32⟩
abbrev DPX_DIVC_CLUSTER : Fld := ⟨0, 16⟩
abbrev DPX_DIVC_UART : Fld := ⟨16, 16⟩
abbrev DPX_PNID_NID : Fld := ⟨0, 32⟩
abbrev DPX_HCFG_PERIOD : Fld := ⟨0, 16⟩
abbrev DPX_HDST_DST : Fld := ⟨0, 16⟩
abbrev DPX_HDST_MC : Fld := ⟨16, 1⟩
abbrev DPX_HDST_VALID : Fld := ⟨31, 1⟩
abbrev DPX_HADDR_ADDR : Fld := ⟨0, 32⟩

/-! 15_power_die.md -/

abbrev PD_CTL_NTC_Q : Fld := ⟨0, 5⟩
abbrev PD_CTL_LOCK : Fld := ⟨8, 1⟩
abbrev PD_CTL_GFCLR : Fld := ⟨9, 1⟩
abbrev PD_STAT_BROWN : Fld := ⟨0, 1⟩
abbrev PD_STAT_RAILS_OK : Fld := ⟨1, 1⟩
abbrev PD_STAT_FEED : Fld := ⟨2, 3⟩
abbrev PD_STAT_FLD : Fld := ⟨5, 3⟩
abbrev PD_STAT_PG : Fld := ⟨8, 1⟩
abbrev PD_STAT_A_OK : Fld := ⟨9, 1⟩
abbrev PD_STAT_B_OK : Fld := ⟨10, 1⟩
abbrev PD_STAT_GFAULT_A : Fld := ⟨11, 1⟩
abbrev PD_STAT_GFAULT_B : Fld := ⟨12, 1⟩
abbrev PD_STAT_ZON : Fld := ⟨16, 8⟩
abbrev PD_EVT_BROWN : Fld := ⟨0, 1⟩
abbrev PD_EVT_ALLCLR : Fld := ⟨1, 1⟩
abbrev PD_EVT_RAIL : Fld := ⟨2, 1⟩
abbrev PD_EVT_FEEDSW : Fld := ⟨3, 1⟩
abbrev PD_EVT_GFAULT : Fld := ⟨4, 1⟩
abbrev PD_EVT_FLDTRIP : Fld := ⟨5, 1⟩
abbrev PD_EVT_FLDLIM : Fld := ⟨6, 1⟩
abbrev PD_EVT_FLDLATCH : Fld := ⟨7, 1⟩
abbrev PD_EVT_ZNTRIP : Fld := ⟨8, 1⟩
abbrev PD_EVT_THERM : Fld := ⟨9, 1⟩
abbrev PD_EVT_CFGREF : Fld := ⟨10, 1⟩
abbrev PD_EVT_OVWARN : Fld := ⟨11, 1⟩
abbrev SUP_CFG_WARN : Fld := ⟨0, 10⟩
abbrev SUP_CFG_HYST : Fld := ⟨12, 4⟩
abbrev SUP_CFG_TWARN : Fld := ⟨24, 8⟩
abbrev SUP_VIN_VIN : Fld := ⟨0, 16⟩
abbrev SUP_VIN_TJ : Fld := ⟨16, 16⟩
abbrev RAIL_STAT_OUT : Fld := ⟨0, 4⟩
abbrev FEED_CFG_MODE : Fld := ⟨0, 2⟩
abbrev FEED_CFG_UV : Fld := ⟨2, 10⟩
abbrev FEED_CFG_UVHYS : Fld := ⟨12, 4⟩
abbrev FEED_CFG_OV : Fld := ⟨16, 10⟩
abbrev FEED_TIM_HOLD : Fld := ⟨0, 16⟩
abbrev FEED_TIM_DEAD : Fld := ⟨16, 8⟩
abbrev FEED_TIM_QUAL : Fld := ⟨24, 8⟩
abbrev FEED_V_VA : Fld := ⟨0, 16⟩
abbrev FEED_V_VB : Fld := ⟨16, 16⟩
abbrev FLD_CTL_EN : Fld := ⟨0, 1⟩
abbrev FLD_CTL_CLR : Fld := ⟨1, 1⟩
abbrev FLD_CTL_NRST_OFF : Fld := ⟨2, 1⟩
abbrev FLD_LIM_ILIM : Fld := ⟨0, 16⟩
abbrev FLD_LIM_PMAX : Fld := ⟨16, 12⟩
abbrev FLD_RSNS_UOHM : Fld := ⟨0, 20⟩
abbrev FLD_TIM_START : Fld := ⟨0, 8⟩
abbrev FLD_TIM_FAULT : Fld := ⟨8, 12⟩
abbrev FLD_TIM_RETRY : Fld := ⟨20, 5⟩
abbrev FLD_PGV_RISE : Fld := ⟨0, 10⟩
abbrev FLD_PGV_FALL : Fld := ⟨16, 10⟩
abbrev FLD_STAT_I : Fld := ⟨0, 16⟩
abbrev FLD_STAT_VOUT : Fld := ⟨16, 16⟩
abbrev FLD_STAT2_RLEFT : Fld := ⟨0, 5⟩
abbrev FLD_STAT2_ONTIME : Fld := ⟨8, 24⟩
abbrev ZN_CTL_EN : Fld := ⟨0, 1⟩
abbrev ZN_CTL_CLR : Fld := ⟨1, 1⟩
abbrev ZN_CTL_NRST_OFF : Fld := ⟨2, 1⟩
abbrev ZN_CFG_ILIM : Fld := ⟨0, 5⟩
abbrev ZN_CFG_FAULT : Fld := ⟨8, 8⟩
abbrev ZN_CFG_RETRY : Fld := ⟨16, 5⟩
abbrev ZN_STAT_STATE : Fld := ⟨0, 3⟩
abbrev ZN_STAT_RLEFT : Fld := ⟨3, 5⟩
abbrev ZN_STAT_TRIP : Fld := ⟨8, 1⟩
abbrev ZN_STAT_THERM : Fld := ⟨9, 1⟩
abbrev ZN_STAT_I : Fld := ⟨16, 16⟩
abbrev PM_FLD_V_MV : Fld := ⟨0, 16⟩
abbrev PM_FLD_I_MA : Fld := ⟨0, 16⟩
abbrev PM_FLD_P_MW : Fld := ⟨0, 32⟩
abbrev PM_FLD_E_LO_E : Fld := ⟨0, 32⟩
abbrev PM_FLD_E_HI_E : Fld := ⟨0, 32⟩
abbrev PM_VZ_MV : Fld := ⟨0, 16⟩
abbrev PM_ZN_I_MA : Fld := ⟨0, 16⟩
abbrev PM_ZN_P_MW : Fld := ⟨0, 32⟩
abbrev PM_ZN_E_LO_E : Fld := ⟨0, 32⟩
abbrev PM_ZN_E_HI_E : Fld := ⟨0, 32⟩

/-! 16_memory_integrity.md -/

abbrev MI_CTL_SCRUB : Fld := ⟨0, 7⟩
abbrev MI_STAT_OVER : Fld := ⟨0, 7⟩
abbrev MI_STAT_UNC : Fld := ⟨8, 7⟩
abbrev MI_STAT_PAR : Fld := ⟨16, 4⟩
abbrev MI_LB_CFG_THRESH : Fld := ⟨0, 16⟩
abbrev MI_LB_CFG_LEAK : Fld := ⟨16, 16⟩
abbrev MI_LB_STAT_LEVEL : Fld := ⟨0, 16⟩
abbrev MI_LB_ADDR_ADDR : Fld := ⟨0, 32⟩
abbrev MI_LB_UADDR_ADDR : Fld := ⟨0, 32⟩
abbrev MI_LAP_LAST : Fld := ⟨0, 32⟩
abbrev MI_LAP_MAX_MAX : Fld := ⟨0, 32⟩
abbrev MI_PADDR_ADDR : Fld := ⟨0, 32⟩
abbrev MI_PSRC_CAP : Fld := ⟨0, 16⟩
abbrev MI_PSRC_INST : Fld := ⟨16, 8⟩
abbrev MI_PSRC_KIND : Fld := ⟨24, 4⟩
abbrev BIST_CMD_TARGET : Fld := ⟨0, 8⟩
abbrev BIST_CMD_GO : Fld := ⟨8, 1⟩
abbrev BIST_STAT_STATE : Fld := ⟨0, 2⟩
abbrev BIST_STAT_CFGREF : Fld := ⟨2, 1⟩
abbrev BIST_STAT_HELD : Fld := ⟨3, 1⟩
abbrev BIST_STAT_LTARGET : Fld := ⟨8, 8⟩
abbrev BIST_STAT_PHASE : Fld := ⟨16, 4⟩
abbrev BIST_FADDR_OFFSET : Fld := ⟨0, 32⟩
abbrev BIST_MISR_MISR : Fld := ⟨0, 32⟩
abbrev BIST_FLAGS_SO : Fld := ⟨0, 1⟩
abbrev BIST_FLAGS_BR : Fld := ⟨1, 1⟩
abbrev BIST_FLAGS_WM : Fld := ⟨2, 1⟩
abbrev BIST_FLAGS_MSRAM : Fld := ⟨3, 1⟩
abbrev BIST_BOOT_SO : Fld := ⟨0, 1⟩
abbrev BIST_AUTO_NEXT : Fld := ⟨0, 6⟩

/-! 17_manifest_and_update.md -/

abbrev UPD_CTL_ACTIVATE : Fld := ⟨0, 1⟩
abbrev UPD_CTL_CONFIRM : Fld := ⟨1, 1⟩
abbrev UPD_CTL_ABORT : Fld := ⟨2, 1⟩
abbrev UPD_CTL_NTC_Q : Fld := ⟨3, 5⟩
abbrev UPD_CTL_TRIAL : Fld := ⟨8, 8⟩
abbrev UPD_CTL_ECKPT : Fld := ⟨16, 8⟩
abbrev UPD_STAT_SESSION_ST : Fld := ⟨0, 3⟩
abbrev UPD_STAT_TRIAL : Fld := ⟨3, 1⟩
abbrev UPD_STAT_RUNSLOT : Fld := ⟨4, 1⟩
abbrev UPD_STAT_CFGREF : Fld := ⟨5, 1⟩
abbrev UPD_STAT_FLASHERR : Fld := ⟨6, 1⟩
abbrev UPD_STAT_REASON : Fld := ⟨8, 8⟩
abbrev UPD_STAT_SESSION : Fld := ⟨16, 16⟩
abbrev UPD_DONE_DONE : Fld := ⟨0, 14⟩
abbrev UPD_DONE_TOTAL : Fld := ⟨16, 14⟩
abbrev UPD_IMG_LO_ID : Fld := ⟨0, 32⟩
abbrev UPD_IMG_HI_ID : Fld := ⟨0, 32⟩
abbrev UPD_RUN_LO_ID : Fld := ⟨0, 32⟩
abbrev UPD_RUN_HI_ID : Fld := ⟨0, 32⟩
abbrev UPD_TRIALT_S : Fld := ⟨0, 16⟩
abbrev UPD_BOOT_BOOTFAIL : Fld := ⟨0, 4⟩
abbrev UPD_BOOT_TRIES : Fld := ⟨4, 4⟩
abbrev UPD_BOOT_MODE : Fld := ⟨8, 2⟩
abbrev UPD_BOOT_FALLBACK : Fld := ⟨10, 1⟩
abbrev UPD_BOOT_HANDOVER : Fld := ⟨11, 1⟩
abbrev UPD_BOOT_NOREC : Fld := ⟨12, 1⟩
abbrev UPD_FLASH_DENSITY : Fld := ⟨0, 8⟩
abbrev UPD_FLASH_SUSPEND : Fld := ⟨8, 1⟩
abbrev UPD_FLASH_TOKENS : Fld := ⟨16, 5⟩
abbrev UPD_RELAY_PORT : Fld := ⟨0, 2⟩
abbrev UPD_RELAY_HOST : Fld := ⟨16, 16⟩
abbrev UPD_RELAY_CTL_EN : Fld := ⟨0, 1⟩
abbrev UPD_BMAP_MAP : Fld := ⟨0, 32⟩

/-! 18_access_identity_capabilities.md -/

abbrev ID_PART_PART : Fld := ⟨0, 16⟩
abbrev ID_PART_REV : Fld := ⟨16, 8⟩
abbrev ID_SERIAL_LO_VAL : Fld := ⟨0, 32⟩
abbrev ID_SERIAL_HI_VAL : Fld := ⟨0, 32⟩
abbrev ID_ALOT_LO_VAL : Fld := ⟨0, 32⟩
abbrev ID_ALOT_HI_VAL : Fld := ⟨0, 32⟩
abbrev ID_D_LOT_LO_LOT : Fld := ⟨0, 32⟩
abbrev ID_D_LOT_HI_LOT : Fld := ⟨0, 16⟩
abbrev ID_D_LOT_HI_WAFER : Fld := ⟨16, 8⟩
abbrev ID_D_POS_X : Fld := ⟨0, 8⟩
abbrev ID_D_POS_Y : Fld := ⟨8, 8⟩
abbrev ID_D_POS_BIN : Fld := ⟨16, 8⟩
abbrev ID_MEM_BASE : Fld := ⟨0, 32⟩
abbrev ID_KEYS_PROG0 : Fld := ⟨0, 1⟩
abbrev ID_KEYS_REV0 : Fld := ⟨1, 1⟩
abbrev ID_KEYS_PROG1 : Fld := ⟨2, 1⟩
abbrev ID_KEYS_REV1 : Fld := ⟨3, 1⟩
abbrev ID_KEYS_PROG2 : Fld := ⟨4, 1⟩
abbrev ID_KEYS_REV2 : Fld := ⟨5, 1⟩
abbrev ID_KEYS_PROG3 : Fld := ⟨6, 1⟩
abbrev ID_KEYS_REV3 : Fld := ⟨7, 1⟩
abbrev ID_FUSE_CMD_OP : Fld := ⟨0, 2⟩
abbrev ID_FUSE_CMD_SLOT : Fld := ⟨2, 2⟩
abbrev ID_FUSE_CMD_KEY : Fld := ⟨24, 8⟩
abbrev ID_FUSE_STAT_BUSY : Fld := ⟨0, 1⟩
abbrev ID_FUSE_STAT_REF : Fld := ⟨1, 1⟩
abbrev ID_FUSE_STAT_ERR : Fld := ⟨2, 1⟩
abbrev ID_CAP_VAL : Fld := ⟨0, 32⟩
abbrev ID_KEY_VAL : Fld := ⟨0, 32⟩
abbrev ID_KEYSTAGE_VAL : Fld := ⟨0, 32⟩
abbrev AT_CTL_NTC_Q : Fld := ⟨0, 5⟩
abbrev AT_STAT_DENIED : Fld := ⟨0, 1⟩
abbrev AT_STAT_CFGREF : Fld := ⟨1, 1⟩
abbrev AT_LAST_MASTER_ID : Fld := ⟨0, 20⟩
abbrev AT_LAST_ADDR_ADDR : Fld := ⟨0, 32⟩
abbrev AT_LAST_INFO_TABLE : Fld := ⟨0, 8⟩
abbrev AT_LAST_INFO_PERM : Fld := ⟨8, 5⟩
abbrev AT_LAST_INFO_RING : Fld := ⟨13, 1⟩
abbrev AT_W0_MASTER : Fld := ⟨0, 20⟩
abbrev AT_W0_R : Fld := ⟨20, 1⟩
abbrev AT_W0_W : Fld := ⟨21, 1⟩
abbrev AT_W0_L : Fld := ⟨22, 1⟩
abbrev AT_W0_N : Fld := ⟨23, 1⟩
abbrev AT_W0_I : Fld := ⟨24, 1⟩
abbrev AT_W0_SCOPE : Fld := ⟨25, 2⟩
abbrev AT_W0_EN : Fld := ⟨31, 1⟩
abbrev AT_W1_MASK : Fld := ⟨0, 20⟩
abbrev AT_W2_BASE : Fld := ⟨0, 16⟩
abbrev AT_W2_LIMIT : Fld := ⟨16, 16⟩

/-! 19_counters_and_monitor.md -/

abbrev MON_CTL_BAUD : Fld := ⟨0, 3⟩
abbrev MON_CTL_NTC_Q : Fld := ⟨3, 5⟩
abbrev MON_STAT_LOCKED : Fld := ⟨0, 1⟩
abbrev MON_STAT_STRAP : Fld := ⟨1, 1⟩
abbrev MON_STAT_SERVED : Fld := ⟨2, 3⟩
abbrev MON_STAT_TERM : Fld := ⟨5, 3⟩
abbrev MON_STAT_FAILS : Fld := ⟨8, 2⟩
abbrev CNT_CTL_NTC_Q : Fld := ⟨0, 5⟩
abbrev CNT_SNAP_ID : Fld := ⟨0, 16⟩
abbrev CNT_SNAP_GO : Fld := ⟨31, 1⟩
abbrev CNT_STAT_PEND : Fld := ⟨0, 3⟩
abbrev CNT_STAT_LATE : Fld := ⟨3, 1⟩
abbrev CNT_STAT_OVR : Fld := ⟨4, 1⟩
abbrev CNT_STAT_CFGREF : Fld := ⟨5, 1⟩
abbrev CNT_NUM_REGS : Fld := ⟨0, 16⟩
abbrev CNT_NUM_ARRS : Fld := ⟨16, 16⟩
abbrev CNT_SB_ID_ID : Fld := ⟨0, 16⟩
abbrev CNT_SB_ID_VALID : Fld := ⟨16, 1⟩
abbrev CNT_SB_ID_LOCAL : Fld := ⟨17, 1⟩
abbrev CNT_SB_ID_SYNCED : Fld := ⟨18, 1⟩
abbrev CNT_SB_ID_SEQ : Fld := ⟨24, 8⟩
abbrev CNT_SB_PM_LO_PM : Fld := ⟨0, 32⟩
abbrev CNT_SB_PM_HI_PM : Fld := ⟨0, 32⟩
abbrev CNT_ARR_ID : Fld := ⟨0, 16⟩
abbrev CNT_ARR_DONE : Fld := ⟨16, 1⟩
abbrev CNT_DIR_A_CAP : Fld := ⟨0, 16⟩
abbrev CNT_DIR_A_INST : Fld := ⟨16, 8⟩
abbrev CNT_DIR_A_ARR : Fld := ⟨24, 1⟩
abbrev CNT_DIR_B_FIRST : Fld := ⟨0, 16⟩
abbrev CNT_DIR_B_COUNT : Fld := ⟨16, 16⟩
abbrev CNT_REG_LO_N : Fld := ⟨0, 32⟩
abbrev CNT_REG_HI_N : Fld := ⟨0, 16⟩
abbrev CNT_SB0_LO_N : Fld := ⟨0, 32⟩
abbrev CNT_SB0_HI_N : Fld := ⟨0, 16⟩
abbrev CNT_SB1_LO_N : Fld := ⟨0, 32⟩
abbrev CNT_SB1_HI_N : Fld := ⟨0, 16⟩
abbrev CNT_ARRAY_LO_N : Fld := ⟨0, 32⟩
abbrev CNT_ARRAY_HI_N : Fld := ⟨0, 16⟩
abbrev CNT_ASH_LO_N : Fld := ⟨0, 32⟩
abbrev CNT_ASH_HI_N : Fld := ⟨0, 16⟩

end F

/-- Registers of 01_five_levels.md. -/
def rows01 : List RegRow := [
  ⟨"NODE_CTL", 0x10000, 1, 0, 1, 0, [⟨F.NODE_CTL_SERVICE, .rw, 0, false⟩, ⟨F.NODE_CTL_SEAL, .w1s, 0, false⟩, ⟨F.NODE_CTL_RESET, .wo, 0, false⟩, ⟨F.NODE_CTL_FAULT, .rw, 0, false⟩, ⟨F.NODE_CTL_ATTN, .rw, 0, false⟩, ⟨F.NODE_CTL_KEY, .wo, 0, false⟩]⟩,
  ⟨"NODE_STAT", 0x10004, 1, 0, 1, 0, [⟨F.NODE_STAT_SERVICE_EFF, .ro, 0, false⟩, ⟨F.NODE_STAT_SEALED, .ro, 0, false⟩, ⟨F.NODE_STAT_QUARANTINE, .ro, 1, false⟩, ⟨F.NODE_STAT_FAULT_IN, .ro, 0, false⟩, ⟨F.NODE_STAT_RSVD_WR, .ro, 0, false⟩, ⟨F.NODE_STAT_SEAL_WR, .ro, 0, false⟩]⟩,
  ⟨"NODE_RST_CAUSE", 0x10008, 1, 0, 1, 0, [⟨F.NODE_RST_CAUSE_COLD, .rws, 1, false⟩, ⟨F.NODE_RST_CAUSE_PIN, .rws, 0, false⟩, ⟨F.NODE_RST_CAUSE_SOFT, .rws, 0, false⟩, ⟨F.NODE_RST_CAUSE_WDOG, .rws, 0, false⟩, ⟨F.NODE_RST_CAUSE_CLK, .rws, 0, false⟩]⟩,
  ⟨"NODE_WDOG", 0x1000C, 1, 0, 1, 0, [⟨F.NODE_WDOG_TIMEOUT, .rwl, 0xC35, false⟩, ⟨F.NODE_WDOG_EN, .rwl, 1, false⟩, ⟨F.NODE_WDOG_KICK, .wo, 0, false⟩]⟩,
  ⟨"NODE_URST", 0x10010, 1, 0, 1, 0, [⟨F.NODE_URST_CAP, .rw, 0, false⟩, ⟨F.NODE_URST_INST, .rw, 0, false⟩, ⟨F.NODE_URST_HOLD, .rw, 0, false⟩]⟩,
  ⟨"NODE_CLK_STAT", 0x10014, 1, 0, 1, 0, [⟨F.NODE_CLK_STAT_SYS_LOCK, .ro, 0, false⟩, ⟨F.NODE_CLK_STAT_SDS_LOCK, .ro, 0, false⟩, ⟨F.NODE_CLK_STAT_FCLK_BAD, .ro, 0, false⟩, ⟨F.NODE_CLK_STAT_UCLK_BAD, .ro, 0, false⟩, ⟨F.NODE_CLK_STAT_CORE_BAD, .ro, 0, false⟩, ⟨F.NODE_CLK_STAT_BUS_BAD, .ro, 0, false⟩]⟩]

/-- Registers of 02_field_pins.md. -/
def rows02 : List RegRow := [
  ⟨"PIN_CFG", 0x20000, 256, 0x10, 1, 0, [⟨F.PIN_CFG_FUNC, .rw, 0, false⟩, ⟨F.PIN_CFG_DRIVE, .rw, 1, false⟩, ⟨F.PIN_CFG_SLEW, .rw, 0, false⟩, ⟨F.PIN_CFG_OD, .rw, 0, false⟩, ⟨F.PIN_CFG_INV, .rw, 0, false⟩, ⟨F.PIN_CFG_PULL, .rw, 0, false⟩, ⟨F.PIN_CFG_SAFE, .rw, 0, false⟩, ⟨F.PIN_CFG_DEB, .rw, 0, false⟩, ⟨F.PIN_CFG_EDGE, .rw, 0, false⟩, ⟨F.PIN_CFG_ENTC, .rw, 0, false⟩, ⟨F.PIN_CFG_TRACK, .rw, 0, false⟩]⟩,
  ⟨"PIN_OUT", 0x20004, 256, 0x10, 1, 0, [⟨F.PIN_OUT_VAL, .rw, 0, false⟩, ⟨F.PIN_OUT_TOGGLE, .wo, 0, false⟩]⟩,
  ⟨"PIN_STAT", 0x20008, 256, 0x10, 1, 0, [⟨F.PIN_STAT_LEVEL, .ro, 0, false⟩, ⟨F.PIN_STAT_RAW, .ro, 0, false⟩, ⟨F.PIN_STAT_DRIVING, .ro, 0, false⟩, ⟨F.PIN_STAT_EVER_DRV, .ro, 0, false⟩, ⟨F.PIN_STAT_POISON, .w1c, 0, false⟩, ⟨F.PIN_STAT_CONFLICT, .w1c, 0, false⟩, ⟨F.PIN_STAT_COLL, .w1c, 0, false⟩, ⟨F.PIN_STAT_BANKFLT, .ro, 0, false⟩, ⟨F.PIN_STAT_GLITCH, .ro, 0, false⟩]⟩,
  ⟨"PIN_MAP", 0x2000C, 256, 0x10, 1, 0, [⟨F.PIN_MAP_BIT, .rw, 0, false⟩, ⟨F.PIN_MAP_EN, .rw, 0, false⟩]⟩,
  ⟨"BANK_CFG", 0x21000, 16, 0x40, 1, 0, [⟨F.BANK_CFG_VDDIO, .rw, 0, false⟩, ⟨F.BANK_CFG_VD, .rw, 0, false⟩, ⟨F.BANK_CFG_NTC_Q, .rw, 1, true⟩]⟩,
  ⟨"BANK_STAT", 0x21004, 16, 0x40, 1, 0, [⟨F.BANK_STAT_VLEVEL, .ro, 0, false⟩, ⟨F.BANK_STAT_VFAULT, .ro, 0, false⟩, ⟨F.BANK_STAT_PULL_STRAP, .ro, 0, false⟩, ⟨F.BANK_STAT_CAP_OVF, .w1c, 0, false⟩, ⟨F.BANK_STAT_CAP_CNT, .ro, 0, false⟩]⟩,
  ⟨"BANK_OUT_SET", 0x21008, 16, 0x40, 1, 0, [⟨F.BANK_OUT_SET_SET, .wo, 0, false⟩]⟩,
  ⟨"BANK_OUT_CLR", 0x2100C, 16, 0x40, 1, 0, [⟨F.BANK_OUT_CLR_CLR, .wo, 0, false⟩]⟩,
  ⟨"BANK_IN", 0x21010, 16, 0x40, 1, 0, [⟨F.BANK_IN_LEVEL, .ro, 0, false⟩]⟩,
  ⟨"BANK_CAP_LO", 0x21014, 16, 0x40, 1, 0, [⟨F.BANK_CAP_LO_FRAC, .ro, 0, false⟩, ⟨F.BANK_CAP_LO_NS_LO, .ro, 0, false⟩]⟩,
  ⟨"BANK_CAP_HI", 0x21018, 16, 0x40, 1, 0, [⟨F.BANK_CAP_HI_NS_HI, .ro, 0, false⟩]⟩,
  ⟨"BANK_CAP_TOP", 0x2101C, 16, 0x40, 1, 0, [⟨F.BANK_CAP_TOP_PIN, .ro, 0, false⟩, ⟨F.BANK_CAP_TOP_EDGE, .ro, 0, false⟩, ⟨F.BANK_CAP_TOP_LOST, .ro, 0, false⟩, ⟨F.BANK_CAP_TOP_VALID, .ro, 0, false⟩]⟩]

/-- Registers of 03_scribe_engines.md. -/
def rows03a : List RegRow := [
  ⟨"SCR_CCTL", 0x30000, 16, 0x1000, 1, 0, [⟨F.SCR_CCTL_VD, .rw, 0, false⟩, ⟨F.SCR_CCTL_NTC_Q, .rw, 1, true⟩]⟩,
  ⟨"SCR_CSYNC", 0x30004, 16, 0x1000, 1, 0, [⟨F.SCR_CSYNC_START, .wo, 0, false⟩, ⟨F.SCR_CSYNC_STOP, .wo, 0, false⟩]⟩,
  ⟨"SCR_CSTAT", 0x30008, 16, 0x1000, 1, 0, [⟨F.SCR_CSTAT_UNUSABLE, .ro, 0, false⟩, ⟨F.SCR_CSTAT_PARITY, .w1c, 0, false⟩, ⟨F.SCR_CSTAT_PAR_ADDR, .ro, 0, false⟩]⟩,
  ⟨"SCR_FLAGS", 0x3000C, 16, 0x1000, 1, 0, [⟨F.SCR_FLAGS_FLAG, .w1c, 0, false⟩, ⟨F.SCR_FLAGS_SET, .wo, 0, false⟩]⟩,
  ⟨"SCR_OWN_LO", 0x30010, 16, 0x1000, 1, 0, [⟨F.SCR_OWN_LO_OWN0, .rw, 0, false⟩, ⟨F.SCR_OWN_LO_OWN1, .rw, 0, false⟩, ⟨F.SCR_OWN_LO_OWN2, .rw, 0, false⟩, ⟨F.SCR_OWN_LO_OWN3, .rw, 0, false⟩, ⟨F.SCR_OWN_LO_OWN4, .rw, 0, false⟩, ⟨F.SCR_OWN_LO_OWN5, .rw, 0, false⟩, ⟨F.SCR_OWN_LO_OWN6, .rw, 0, false⟩, ⟨F.SCR_OWN_LO_OWN7, .rw, 0, false⟩, ⟨F.SCR_OWN_LO_OWN8, .rw, 0, false⟩, ⟨F.SCR_OWN_LO_OWN9, .rw, 0, false⟩, ⟨F.SCR_OWN_LO_OWN10, .rw, 0, false⟩, ⟨F.SCR_OWN_LO_OWN11, .rw, 0, false⟩, ⟨F.SCR_OWN_LO_OWN12, .rw, 0, false⟩, ⟨F.SCR_OWN_LO_OWN13, .rw, 0, false⟩, ⟨F.SCR_OWN_LO_OWN14, .rw, 0, false⟩, ⟨F.SCR_OWN_LO_OWN15, .rw, 0, false⟩]⟩,
  ⟨"SCR_OWN_HI", 0x30014, 16, 0x1000, 1, 0, [⟨F.SCR_OWN_HI_OWN0, .rw, 0, false⟩, ⟨F.SCR_OWN_HI_OWN1, .rw, 0, false⟩, ⟨F.SCR_OWN_HI_OWN2, .rw, 0, false⟩, ⟨F.SCR_OWN_HI_OWN3, .rw, 0, false⟩, ⟨F.SCR_OWN_HI_OWN4, .rw, 0, false⟩, ⟨F.SCR_OWN_HI_OWN5, .rw, 0, false⟩, ⟨F.SCR_OWN_HI_OWN6, .rw, 0, false⟩, ⟨F.SCR_OWN_HI_OWN7, .rw, 0, false⟩, ⟨F.SCR_OWN_HI_OWN8, .rw, 0, false⟩, ⟨F.SCR_OWN_HI_OWN9, .rw, 0, false⟩, ⟨F.SCR_OWN_HI_OWN10, .rw, 0, false⟩, ⟨F.SCR_OWN_HI_OWN11, .rw, 0, false⟩, ⟨F.SCR_OWN_HI_OWN12, .rw, 0, false⟩, ⟨F.SCR_OWN_HI_OWN13, .rw, 0, false⟩, ⟨F.SCR_OWN_HI_OWN14, .rw, 0, false⟩, ⟨F.SCR_OWN_HI_OWN15, .rw, 0, false⟩]⟩,
  ⟨"SCR_POUT", 0x30018, 16, 0x1000, 1, 0, [⟨F.SCR_POUT_VAL, .ro, 0, false⟩]⟩,
  ⟨"SCR_PDIR", 0x3001C, 16, 0x1000, 1, 0, [⟨F.SCR_PDIR_DIR, .ro, 0, false⟩]⟩,
  ⟨"SCR_PIN", 0x30020, 16, 0x1000, 1, 0, [⟨F.SCR_PIN_LEVEL, .ro, 0, false⟩]⟩,
  ⟨"SCR_CTL", 0x30100, 16, 0x1000, 4, 0x80, [⟨F.SCR_CTL_EN, .rw, 0, false⟩, ⟨F.SCR_CTL_STEP, .wo, 0, false⟩, ⟨F.SCR_CTL_RESTART, .wo, 0, false⟩, ⟨F.SCR_CTL_CLRF, .wo, 0, false⟩]⟩,
  ⟨"SCR_ESTAT", 0x30104, 16, 0x1000, 4, 0x80, [⟨F.SCR_ESTAT_STATE, .ro, 0, false⟩, ⟨F.SCR_ESTAT_STALL_ON, .ro, 0, false⟩, ⟨F.SCR_ESTAT_FCAUSE, .ro, 0, false⟩, ⟨F.SCR_ESTAT_INJ_PEND, .ro, 0, false⟩, ⟨F.SCR_ESTAT_CFGREF, .w1c, 0, false⟩, ⟨F.SCR_ESTAT_PINREF, .w1c, 0, false⟩, ⟨F.SCR_ESTAT_INJREF, .w1c, 0, false⟩, ⟨F.SCR_ESTAT_INSTR, .ro, 0, false⟩]⟩,
  ⟨"SCR_CLKDIV", 0x30108, 16, 0x1000, 4, 0x80, [⟨F.SCR_CLKDIV_NUM, .rw, 1, false⟩, ⟨F.SCR_CLKDIV_DEN, .rw, 1, false⟩]⟩,
  ⟨"SCR_EXEC", 0x3010C, 16, 0x1000, 4, 0x80, [⟨F.SCR_EXEC_ENTRY, .rw, 0, false⟩, ⟨F.SCR_EXEC_LOOP_FROM, .rw, 0, false⟩, ⟨F.SCR_EXEC_LOOP_TO, .rw, 0x1F, false⟩]⟩,
  ⟨"SCR_SHCFG", 0x30110, 16, 0x1000, 4, 0x80, [⟨F.SCR_SHCFG_IN_FIRST, .rw, 0, false⟩, ⟨F.SCR_SHCFG_OUT_FIRST, .rw, 0, false⟩, ⟨F.SCR_SHCFG_IN_LEN, .rw, 0, false⟩, ⟨F.SCR_SHCFG_OUT_LEN, .rw, 0, false⟩, ⟨F.SCR_SHCFG_FIFO_MODE, .rw, 0, false⟩]⟩,
  ⟨"SCR_PINS", 0x30114, 16, 0x1000, 4, 0x80, [⟨F.SCR_PINS_SHMASK, .rw, 0, false⟩, ⟨F.SCR_PINS_SETMASK, .rw, 0, false⟩, ⟨F.SCR_PINS_JLANE, .rw, 0, false⟩]⟩,
  ⟨"SCR_INJ", 0x30118, 16, 0x1000, 4, 0x80, [⟨F.SCR_INJ_VAL, .wo, 0, false⟩]⟩,
  ⟨"SCR_PC", 0x3011C, 16, 0x1000, 4, 0x80, [⟨F.SCR_PC_VAL, .rw, 0, false⟩]⟩,
  ⟨"SCR_X", 0x30120, 16, 0x1000, 4, 0x80, [⟨F.SCR_X_VAL, .rw, 0, false⟩]⟩,
  ⟨"SCR_Y", 0x30124, 16, 0x1000, 4, 0x80, [⟨F.SCR_Y_VAL, .rw, 0, false⟩]⟩,
  ⟨"SCR_ISR", 0x30128, 16, 0x1000, 4, 0x80, [⟨F.SCR_ISR_VAL, .rw, 0, false⟩]⟩,
  ⟨"SCR_OSR", 0x3012C, 16, 0x1000, 4, 0x80, [⟨F.SCR_OSR_VAL, .rw, 0, false⟩]⟩,
  ⟨"SCR_SHC", 0x30130, 16, 0x1000, 4, 0x80, [⟨F.SCR_SHC_ISC, .rw, 0, false⟩, ⟨F.SCR_SHC_OSC, .rw, 0x20, false⟩]⟩,
  ⟨"SCR_LATCH", 0x30134, 16, 0x1000, 4, 0x80, [⟨F.SCR_LATCH_VAL, .ro, 0, false⟩]⟩,
  ⟨"SCR_TXF", 0x30138, 16, 0x1000, 4, 0x80, [⟨F.SCR_TXF_VAL, .wo, 0, false⟩]⟩]

/-- Registers of 03_scribe_engines.md. -/
def rows03b : List RegRow := [
  ⟨"SCR_RXF", 0x3013C, 16, 0x1000, 4, 0x80, [⟨F.SCR_RXF_VAL, .ro, 0, false⟩]⟩,
  ⟨"SCR_FSTAT", 0x30140, 16, 0x1000, 4, 0x80, [⟨F.SCR_FSTAT_TX_LVL, .ro, 0, false⟩, ⟨F.SCR_FSTAT_RX_LVL, .ro, 0, false⟩, ⟨F.SCR_FSTAT_TX_DROP, .w1c, 0, false⟩, ⟨F.SCR_FSTAT_RX_EMPTY, .w1c, 0, false⟩, ⟨F.SCR_FSTAT_DMAREF, .w1c, 0, false⟩, ⟨F.SCR_FSTAT_STALE, .ro, 0, false⟩, ⟨F.SCR_FSTAT_OVERRUN, .ro, 0, false⟩]⟩,
  ⟨"SCR_MARK_LO", 0x30144, 16, 0x1000, 4, 0x80, [⟨F.SCR_MARK_LO_VAL, .ro, 0, false⟩]⟩,
  ⟨"SCR_MARK_HI", 0x30148, 16, 0x1000, 4, 0x80, [⟨F.SCR_MARK_HI_VAL, .ro, 0, false⟩]⟩,
  ⟨"SCR_DMA_TX", 0x3014C, 16, 0x1000, 4, 0x80, [⟨F.SCR_DMA_TX_WOFF, .rw, 0, false⟩, ⟨F.SCR_DMA_TX_CNT, .rw, 0, false⟩, ⟨F.SCR_DMA_TX_MODE, .rw, 0, false⟩]⟩,
  ⟨"SCR_DMA_RX", 0x30150, 16, 0x1000, 4, 0x80, [⟨F.SCR_DMA_RX_WOFF, .rw, 0, false⟩, ⟨F.SCR_DMA_RX_CNT, .rw, 0, false⟩, ⟨F.SCR_DMA_RX_MODE, .rw, 0, false⟩]⟩,
  ⟨"SCR_DMA_STAT", 0x30154, 16, 0x1000, 4, 0x80, [⟨F.SCR_DMA_STAT_TX_SKIP, .ro, 0, false⟩, ⟨F.SCR_DMA_STAT_RX_REC, .ro, 0, false⟩]⟩,
  ⟨"SCR_OLANE_LO", 0x30158, 16, 0x1000, 4, 0x80, [⟨F.SCR_OLANE_LO_PIN0, .rw, 0, false⟩, ⟨F.SCR_OLANE_LO_EN0, .rw, 0, false⟩, ⟨F.SCR_OLANE_LO_PIN1, .rw, 0, false⟩, ⟨F.SCR_OLANE_LO_EN1, .rw, 0, false⟩, ⟨F.SCR_OLANE_LO_PIN2, .rw, 0, false⟩, ⟨F.SCR_OLANE_LO_EN2, .rw, 0, false⟩, ⟨F.SCR_OLANE_LO_PIN3, .rw, 0, false⟩, ⟨F.SCR_OLANE_LO_EN3, .rw, 0, false⟩]⟩,
  ⟨"SCR_OLANE_HI", 0x3015C, 16, 0x1000, 4, 0x80, [⟨F.SCR_OLANE_HI_PIN0, .rw, 0, false⟩, ⟨F.SCR_OLANE_HI_EN0, .rw, 0, false⟩, ⟨F.SCR_OLANE_HI_PIN1, .rw, 0, false⟩, ⟨F.SCR_OLANE_HI_EN1, .rw, 0, false⟩, ⟨F.SCR_OLANE_HI_PIN2, .rw, 0, false⟩, ⟨F.SCR_OLANE_HI_EN2, .rw, 0, false⟩, ⟨F.SCR_OLANE_HI_PIN3, .rw, 0, false⟩, ⟨F.SCR_OLANE_HI_EN3, .rw, 0, false⟩]⟩,
  ⟨"SCR_ILANE_LO", 0x30160, 16, 0x1000, 4, 0x80, [⟨F.SCR_ILANE_LO_PIN0, .rw, 0, false⟩, ⟨F.SCR_ILANE_LO_EN0, .rw, 0, false⟩, ⟨F.SCR_ILANE_LO_PIN1, .rw, 0, false⟩, ⟨F.SCR_ILANE_LO_EN1, .rw, 0, false⟩, ⟨F.SCR_ILANE_LO_PIN2, .rw, 0, false⟩, ⟨F.SCR_ILANE_LO_EN2, .rw, 0, false⟩, ⟨F.SCR_ILANE_LO_PIN3, .rw, 0, false⟩, ⟨F.SCR_ILANE_LO_EN3, .rw, 0, false⟩]⟩,
  ⟨"SCR_ILANE_HI", 0x30164, 16, 0x1000, 4, 0x80, [⟨F.SCR_ILANE_HI_PIN0, .rw, 0, false⟩, ⟨F.SCR_ILANE_HI_EN0, .rw, 0, false⟩, ⟨F.SCR_ILANE_HI_PIN1, .rw, 0, false⟩, ⟨F.SCR_ILANE_HI_EN1, .rw, 0, false⟩, ⟨F.SCR_ILANE_HI_PIN2, .rw, 0, false⟩, ⟨F.SCR_ILANE_HI_EN2, .rw, 0, false⟩, ⟨F.SCR_ILANE_HI_PIN3, .rw, 0, false⟩, ⟨F.SCR_ILANE_HI_EN3, .rw, 0, false⟩]⟩]

/-- All registers of 03_scribe_engines.md. -/
def rows03 : List RegRow := rows03a ++ rows03b

/-- Registers of 04_message_buses.md. -/
def rows04 : List RegRow := [
  ⟨"MB_CTL", 0x40000, 8, 0x1000, 1, 0, [⟨F.MB_CTL_INIT, .rw, 1, false⟩, ⟨F.MB_CTL_MODE, .rw, 0, false⟩, ⟨F.MB_CTL_RESERR, .rw, 0, false⟩, ⟨F.MB_CTL_RETRY, .rw, 0xF, false⟩, ⟨F.MB_CTL_BO_AUTO, .rw, 1, false⟩, ⟨F.MB_CTL_VD, .rw, 0, false⟩, ⟨F.MB_CTL_NTC_Q, .rw, 1, true⟩]⟩,
  ⟨"MB_STAT", 0x40004, 8, 0x1000, 1, 0, [⟨F.MB_STAT_STATE, .ro, 0, false⟩, ⟨F.MB_STAT_ALT, .ro, 0, false⟩, ⟨F.MB_STAT_LEC, .ro, 0, false⟩, ⟨F.MB_STAT_TEC, .ro, 0, false⟩, ⟨F.MB_STAT_REC, .ro, 0, false⟩]⟩,
  ⟨"MB_NBT", 0x40008, 8, 0x1000, 1, 0, [⟨F.MB_NBT_BRP, .rw, 1, false⟩, ⟨F.MB_NBT_TSEG1, .rw, 0x3E, false⟩, ⟨F.MB_NBT_TSEG2, .rw, 0xF, false⟩, ⟨F.MB_NBT_SJW, .rw, 0xF, false⟩]⟩,
  ⟨"MB_DBT", 0x4000C, 8, 0x1000, 1, 0, [⟨F.MB_DBT_BRP, .rw, 0, false⟩, ⟨F.MB_DBT_TSEG1, .rw, 0x1E, false⟩, ⟨F.MB_DBT_TSEG2, .rw, 7, false⟩, ⟨F.MB_DBT_SJW, .rw, 7, false⟩]⟩,
  ⟨"MB_TDC", 0x40010, 8, 0x1000, 1, 0, [⟨F.MB_TDC_SSPP, .rw, 0x50, false⟩, ⟨F.MB_TDC_DMAX, .rw, 0x7F, false⟩, ⟨F.MB_TDC_EN, .rw, 0, false⟩, ⟨F.MB_TDC_DLY, .ro, 0, false⟩, ⟨F.MB_TDC_DMIN, .rw, 0, false⟩]⟩,
  ⟨"MB_ESTAT", 0x40014, 8, 0x1000, 1, 0, [⟨F.MB_ESTAT_CFGREF, .w1c, 0, false⟩, ⟨F.MB_ESTAT_BUSOFF, .w1c, 0, false⟩, ⟨F.MB_ESTAT_PASSIVE, .w1c, 0, false⟩, ⟨F.MB_ESTAT_POISON, .w1c, 0, false⟩, ⟨F.MB_ESTAT_TXFAIL, .w1c, 0, false⟩, ⟨F.MB_ESTAT_REQREF, .w1c, 0, false⟩, ⟨F.MB_ESTAT_RESEX, .w1c, 0, false⟩, ⟨F.MB_ESTAT_TDCERR, .w1c, 0, false⟩]⟩,
  ⟨"MB_TXREQ", 0x40020, 8, 0x1000, 4, 4, [⟨F.MB_TXREQ_REQ, .w1s, 0, false⟩]⟩,
  ⟨"MB_TXCAN", 0x40030, 8, 0x1000, 4, 4, [⟨F.MB_TXCAN_CAN, .wo, 0, false⟩]⟩,
  ⟨"MB_NEW", 0x40040, 8, 0x1000, 4, 4, [⟨F.MB_NEW_NEW, .w1c, 0, false⟩]⟩,
  ⟨"MB_FWD", 0x40050, 8, 0x1000, 1, 0, [⟨F.MB_FWD_DST, .rw, 0, false⟩, ⟨F.MB_FWD_MC, .rw, 0, false⟩, ⟨F.MB_FWD_URG, .rw, 0, false⟩]⟩,
  ⟨"MB_FWD_ADDR", 0x40054, 8, 0x1000, 1, 0, [⟨F.MB_FWD_ADDR_VAL, .rw, 0, false⟩]⟩,
  ⟨"MB_TT_CFG", 0x40060, 8, 0x1000, 1, 0, [⟨F.MB_TT_CFG_TTEN, .rw, 0, false⟩, ⟨F.MB_TT_CFG_ROLE, .rw, 0, false⟩, ⟨F.MB_TT_CFG_REF_OBJ, .rw, 0, false⟩, ⟨F.MB_TT_CFG_ITB, .rw, 0, false⟩, ⟨F.MB_TT_CFG_NTU, .rw, 0x50, false⟩, ⟨F.MB_TT_CFG_CYCMAX, .rw, 0, false⟩]⟩,
  ⟨"MB_TT_PERIOD", 0x40064, 8, 0x1000, 1, 0, [⟨F.MB_TT_PERIOD_PERIOD, .rw, 0, false⟩]⟩,
  ⟨"MB_TT_T0_LO", 0x40068, 8, 0x1000, 1, 0, [⟨F.MB_TT_T0_LO_T0, .rw, 0, false⟩]⟩,
  ⟨"MB_TT_T0_HI", 0x4006C, 8, 0x1000, 1, 0, [⟨F.MB_TT_T0_HI_T0, .rw, 0, false⟩]⟩,
  ⟨"MB_TT_STAT", 0x40070, 8, 0x1000, 1, 0, [⟨F.MB_TT_STAT_CTIME, .ro, 0, false⟩, ⟨F.MB_TT_STAT_CCNT, .ro, 0, false⟩, ⟨F.MB_TT_STAT_ELEVEL, .ro, 0, false⟩, ⟨F.MB_TT_STAT_MASTER, .ro, 0, false⟩, ⟨F.MB_TT_STAT_SYNC, .ro, 0, false⟩]⟩,
  ⟨"MB_TRIG_A", 0x40400, 8, 0x1000, 64, 8, [⟨F.MB_TRIG_A_TIME_MARK, .rw, 0, false⟩, ⟨F.MB_TRIG_A_OBJ, .rw, 0, false⟩, ⟨F.MB_TRIG_A_TYPE, .rw, 0, false⟩]⟩,
  ⟨"MB_TRIG_B", 0x40404, 8, 0x1000, 64, 8, [⟨F.MB_TRIG_B_REP, .rw, 0, false⟩, ⟨F.MB_TRIG_B_CYC_OFF, .rw, 0, false⟩, ⟨F.MB_TRIG_B_EN, .rw, 0, false⟩]⟩,
  ⟨"GW_CTL", 0x48000, 1, 0, 1, 0, [⟨F.GW_CTL_EN, .rw, 0, false⟩, ⟨F.GW_CTL_NTC_Q, .rw, 1, true⟩]⟩,
  ⟨"GW_STAT", 0x48004, 1, 0, 1, 0, [⟨F.GW_STAT_CFGREF, .w1c, 0, false⟩, ⟨F.GW_STAT_POISON, .w1c, 0, false⟩]⟩,
  ⟨"GW_MAP_A", 0x48100, 512, 8, 1, 0, [⟨F.GW_MAP_A_IOFF, .rw, 0, false⟩, ⟨F.GW_MAP_A_EN, .rw, 0, false⟩, ⟨F.GW_MAP_A_CTRL, .rw, 0, false⟩, ⟨F.GW_MAP_A_OBJ, .rw, 0, false⟩, ⟨F.GW_MAP_A_DIR, .rw, 0, false⟩]⟩,
  ⟨"GW_MAP_B", 0x48104, 512, 8, 1, 0, [⟨F.GW_MAP_B_BOFF, .rw, 0, false⟩, ⟨F.GW_MAP_B_BW, .rw, 0, false⟩, ⟨F.GW_MAP_B_IW, .rw, 0, false⟩, ⟨F.GW_MAP_B_BORD, .rw, 0, false⟩, ⟨F.GW_MAP_B_SIGN, .rw, 0, false⟩, ⟨F.GW_MAP_B_SAT, .rw, 0, false⟩, ⟨F.GW_MAP_B_SRC, .rw, 0, false⟩]⟩]

/-- Registers of 05_serial_encoder_mains.md. -/
def rows05a : List RegRow := [
  ⟨"UA_CTL", 0x50000, 16, 0x100, 1, 0, [⟨F.UA_CTL_EN, .rw, 0, false⟩, ⟨F.UA_CTL_MODE, .rw, 0, false⟩, ⟨F.UA_CTL_DATA, .rw, 8, false⟩, ⟨F.UA_CTL_PAR, .rw, 0, false⟩, ⟨F.UA_CTL_STOP2, .rw, 0, false⟩, ⟨F.UA_CTL_ECHO, .rw, 0, false⟩, ⟨F.UA_CTL_VD, .rw, 0, false⟩, ⟨F.UA_CTL_NTC_Q, .rw, 1, true⟩]⟩,
  ⟨"UA_BAUD", 0x50004, 16, 0x100, 1, 0, [⟨F.UA_BAUD_DIV, .rw, 0x87A2, false⟩]⟩,
  ⟨"UA_DIR", 0x50008, 16, 0x100, 1, 0, [⟨F.UA_DIR_LEAD, .rw, 4, false⟩, ⟨F.UA_DIR_LAG, .rw, 4, false⟩]⟩,
  ⟨"UA_GAP", 0x5000C, 16, 0x100, 1, 0, [⟨F.UA_GAP_IDLE, .rw, 0, false⟩]⟩,
  ⟨"UA_STAT", 0x50010, 16, 0x100, 1, 0, [⟨F.UA_STAT_TX_LVL, .ro, 0, false⟩, ⟨F.UA_STAT_RX_LVL, .ro, 0, false⟩, ⟨F.UA_STAT_TX_BUSY, .ro, 0, false⟩, ⟨F.UA_STAT_OVR, .w1c, 0, false⟩, ⟨F.UA_STAT_FERR, .w1c, 0, false⟩, ⟨F.UA_STAT_PERR, .w1c, 0, false⟩, ⟨F.UA_STAT_BRK, .w1c, 0, false⟩, ⟨F.UA_STAT_COLL, .w1c, 0, false⟩, ⟨F.UA_STAT_TXDROP, .w1c, 0, false⟩, ⟨F.UA_STAT_CFGREF, .w1c, 0, false⟩, ⟨F.UA_STAT_RXREF, .w1c, 0, false⟩]⟩,
  ⟨"UA_TXD", 0x50014, 16, 0x100, 1, 0, [⟨F.UA_TXD_DATA, .wo, 0, false⟩]⟩,
  ⟨"UA_RXD", 0x50018, 16, 0x100, 1, 0, [⟨F.UA_RXD_DATA, .ro, 0, false⟩, ⟨F.UA_RXD_PERR, .ro, 0, false⟩, ⟨F.UA_RXD_FERR, .ro, 0, false⟩, ⟨F.UA_RXD_BRK, .ro, 0, false⟩, ⟨F.UA_RXD_END, .ro, 0, false⟩, ⟨F.UA_RXD_VALID, .ro, 0, false⟩]⟩,
  ⟨"UA_RXPM_LO", 0x5001C, 16, 0x100, 1, 0, [⟨F.UA_RXPM_LO_PM, .ro, 0, false⟩]⟩,
  ⟨"UA_RXPM_HI", 0x50020, 16, 0x100, 1, 0, [⟨F.UA_RXPM_HI_PM, .ro, 0, false⟩]⟩,
  ⟨"UA_IMG", 0x50024, 16, 0x100, 1, 0, [⟨F.UA_IMG_IOFF, .rw, 0, false⟩, ⟨F.UA_IMG_LEN, .rw, 0, false⟩, ⟨F.UA_IMG_EN, .rw, 0, false⟩]⟩,
  ⟨"EN_CTL", 0x51000, 16, 0x100, 1, 0, [⟨F.EN_CTL_EN, .rw, 0, false⟩, ⟨F.EN_CTL_MODE, .rw, 0, false⟩, ⟨F.EN_CTL_DIRINV, .rw, 0, false⟩, ⟨F.EN_CTL_FILT, .rw, 0, false⟩, ⟨F.EN_CTL_ZRST, .rw, 0, false⟩, ⟨F.EN_CTL_ZGATE, .rw, 0, false⟩, ⟨F.EN_CTL_ZQ, .rw, 0, false⟩, ⟨F.EN_CTL_ZARM, .w1s, 0, false⟩, ⟨F.EN_CTL_ZNTC, .rw, 0, false⟩, ⟨F.EN_CTL_VD, .rw, 0, false⟩, ⟨F.EN_CTL_NTC_Q, .rw, 1, true⟩]⟩,
  ⟨"EN_MOD", 0x51004, 16, 0x100, 1, 0, [⟨F.EN_MOD_MOD, .rw, 0, false⟩]⟩,
  ⟨"EN_COUNT", 0x51008, 16, 0x100, 1, 0, [⟨F.EN_COUNT_COUNT, .rw, 0, false⟩]⟩,
  ⟨"EN_ZCNT", 0x5100C, 16, 0x100, 1, 0, [⟨F.EN_ZCNT_ZCNT, .ro, 0, false⟩]⟩,
  ⟨"EN_ZPM_LO", 0x51010, 16, 0x100, 1, 0, [⟨F.EN_ZPM_LO_PM, .ro, 0, false⟩]⟩,
  ⟨"EN_ZPM_HI", 0x51014, 16, 0x100, 1, 0, [⟨F.EN_ZPM_HI_PM, .ro, 0, false⟩]⟩,
  ⟨"EN_STAT", 0x51018, 16, 0x100, 1, 0, [⟨F.EN_STAT_AB, .ro, 0, false⟩, ⟨F.EN_STAT_Z, .ro, 0, false⟩, ⟨F.EN_STAT_DIR, .ro, 0, false⟩, ⟨F.EN_STAT_ILLEGAL, .w1c, 0, false⟩, ⟨F.EN_STAT_ZSEEN, .w1c, 0, false⟩, ⟨F.EN_STAT_CFGREF, .w1c, 0, false⟩]⟩,
  ⟨"EN_IMG", 0x5101C, 16, 0x100, 1, 0, [⟨F.EN_IMG_IOFF, .rw, 0, false⟩, ⟨F.EN_IMG_EN, .rw, 0, false⟩]⟩,
  ⟨"MP_CTL", 0x52000, 2, 0x100, 1, 0, [⟨F.MP_CTL_EN, .rw, 0, false⟩, ⟨F.MP_CTL_EDGE, .rw, 0, false⟩, ⟨F.MP_CTL_BW, .rw, 1, false⟩, ⟨F.MP_CTL_HOLDOFF, .rw, 0x1F4, false⟩, ⟨F.MP_CTL_VD, .rw, 0, false⟩, ⟨F.MP_CTL_NTC_Q, .rw, 1, true⟩, ⟨F.MP_CTL_HOLD_MAX, .rw, 0x32, false⟩, ⟨F.MP_CTL_NOM60, .rw, 0, false⟩]⟩,
  ⟨"MP_OFFSET", 0x52004, 2, 0x100, 1, 0, [⟨F.MP_OFFSET_OFFSET, .rw, 0, false⟩]⟩,
  ⟨"MP_PHASE", 0x52008, 2, 0x100, 1, 0, [⟨F.MP_PHASE_PHASE, .ro, 0, false⟩]⟩,
  ⟨"MP_CYC", 0x5200C, 2, 0x100, 1, 0, [⟨F.MP_CYC_CYC, .ro, 0, false⟩]⟩,
  ⟨"MP_FREQ", 0x52010, 2, 0x100, 1, 0, [⟨F.MP_FREQ_FREQ, .ro, 0, false⟩, ⟨F.MP_FREQ_STATE, .ro, 0, false⟩]⟩,
  ⟨"MP_ERR", 0x52014, 2, 0x100, 1, 0, [⟨F.MP_ERR_ERR, .ro, 0, false⟩]⟩]

/-- Registers of 05_serial_encoder_mains.md. -/
def rows05b : List RegRow := [
  ⟨"MP_STAT", 0x52018, 2, 0x100, 1, 0, [⟨F.MP_STAT_RANGE, .w1c, 0, false⟩, ⟨F.MP_STAT_HOLD, .w1c, 0, false⟩, ⟨F.MP_STAT_CFGREF, .w1c, 0, false⟩]⟩,
  ⟨"MP_IMG", 0x5201C, 2, 0x100, 1, 0, [⟨F.MP_IMG_IOFF, .rw, 0, false⟩, ⟨F.MP_IMG_EN, .rw, 0, false⟩]⟩]

/-- All registers of 05_serial_encoder_mains.md. -/
def rows05 : List RegRow := rows05a ++ rows05b

/-- Registers of 06_local_interconnect.md. -/
def rows06 : List RegRow := [
  ⟨"ARB_QUOTA", 0x60000, 1, 0, 1, 0, [⟨F.ARB_QUOTA_Q, .rw, 0x40, false⟩, ⟨F.ARB_QUOTA_WM1, .rw, 0x3FF, false⟩]⟩,
  ⟨"ARB_STAT", 0x60004, 1, 0, 1, 0, [⟨F.ARB_STAT_QMASK, .w1c, 0, false⟩, ⟨F.ARB_STAT_HOLDER, .ro, 0, false⟩, ⟨F.ARB_STAT_BUSY, .ro, 0, false⟩, ⟨F.ARB_STAT_LOCKED, .ro, 0, false⟩]⟩,
  ⟨"ARB_PRESENT", 0x60008, 1, 0, 1, 0, [⟨F.ARB_PRESENT_PRESENT, .ro, 0xFFFFFF, false⟩]⟩,
  ⟨"LI_TOUT", 0x6000C, 1, 0, 1, 0, [⟨F.LI_TOUT_CYCLES, .rw, 0x400, false⟩]⟩,
  ⟨"LI_STAT", 0x60010, 1, 0, 1, 0, [⟨F.LI_STAT_TOUT, .w1c, 0, false⟩]⟩,
  ⟨"LI_TOUT_ADDR", 0x60014, 1, 0, 1, 0, [⟨F.LI_TOUT_ADDR_ADDR, .ro, 0, false⟩]⟩,
  ⟨"ARB_PRI", 0x60040, 24, 4, 1, 0, [⟨F.ARB_PRI_RANK, .rw, 0, false⟩]⟩,
  ⟨"PH_CFG", 0x61000, 32, 0x40, 1, 0, [⟨F.PH_CFG_BASE, .rw, 0, false⟩, ⟨F.PH_CFG_SIZE, .rw, 0x10, false⟩, ⟨F.PH_CFG_VD, .rw, 0, false⟩, ⟨F.PH_CFG_EN, .rw, 1, false⟩, ⟨F.PH_CFG_SUB, .rw, 0, false⟩, ⟨F.PH_CFG_BATCH, .rw, 0x10, false⟩]⟩,
  ⟨"PH_PRI", 0x61004, 32, 0x40, 1, 0, [⟨F.PH_PRI_INFO, .rw, 1, false⟩, ⟨F.PH_PRI_DATA, .rw, 3, false⟩, ⟨F.PH_PRI_WARN, .rw, 5, false⟩, ⟨F.PH_PRI_FAULT, .rw, 7, false⟩]⟩,
  ⟨"PH_CTL", 0x61008, 32, 0x40, 1, 0, [⟨F.PH_CTL_FLUSH, .wo, 0, false⟩]⟩,
  ⟨"PH_STAT", 0x6100C, 32, 0x40, 1, 0, [⟨F.PH_STAT_LEVEL, .ro, 0, false⟩, ⟨F.PH_STAT_OVF, .w1c, 0, false⟩, ⟨F.PH_STAT_FLUSHED, .w1c, 0, false⟩, ⟨F.PH_STAT_TORN, .w1c, 0, false⟩, ⟨F.PH_STAT_PTRERR, .w1c, 0, false⟩, ⟨F.PH_STAT_CFGREF, .w1c, 0, false⟩]⟩,
  ⟨"PH_POP", 0x61010, 32, 0x40, 1, 0, [⟨F.PH_POP_W0_LO, .ro, 0, false⟩]⟩,
  ⟨"PH_ITEM", 0x61014, 32, 0x40, 3, 4, [⟨F.PH_ITEM_VAL, .ro, 0, false⟩]⟩,
  ⟨"PH_DST", 0x61020, 32, 0x40, 1, 0, [⟨F.PH_DST_DST, .rw, 0, false⟩, ⟨F.PH_DST_MC, .rw, 0, false⟩, ⟨F.PH_DST_CLASS, .rw, 1, false⟩, ⟨F.PH_DST_VALID, .rw, 0, false⟩]⟩,
  ⟨"PH_DADDR_LO", 0x61024, 32, 0x40, 1, 0, [⟨F.PH_DADDR_LO_ADDR, .rw, 0, false⟩]⟩,
  ⟨"PH_DADDR_HI", 0x61028, 32, 0x40, 1, 0, [⟨F.PH_DADDR_HI_ADDR, .rw, 0, false⟩]⟩]

/-- Registers of 07_post_office_bridge.md. -/
def rows07 : List RegRow := [
  ⟨"BR_CTL", 0x70000, 1, 0, 1, 0, [⟨F.BR_CTL_PF_EN, .rwl, 1, false⟩, ⟨F.BR_CTL_PF_HOLD, .rwl, 0x32, false⟩, ⟨F.BR_CTL_NTC_Q, .rwl, 1, true⟩]⟩,
  ⟨"BR_STAT", 0x70004, 1, 0, 1, 0, [⟨F.BR_STAT_LOCKED, .ro, 0, false⟩, ⟨F.BR_STAT_SEM_USED, .ro, 0, false⟩, ⟨F.BR_STAT_WAITERS, .ro, 0, false⟩, ⟨F.BR_STAT_CFGREF, .w1c, 0, false⟩, ⟨F.BR_STAT_TOUT, .w1c, 0, false⟩, ⟨F.BR_STAT_BADREQ, .w1c, 0, false⟩]⟩,
  ⟨"BR_RTOUT", 0x70008, 1, 0, 1, 0, [⟨F.BR_RTOUT_US, .rwl, 0x7D0, false⟩]⟩,
  ⟨"BR_RTT", 0x7000C, 1, 0, 1, 0, [⟨F.BR_RTT_US, .rwl, 0x7D0, false⟩]⟩,
  ⟨"BR_TQUAR", 0x70010, 1, 0, 1, 0, [⟨F.BR_TQUAR_US, .rwl, 0xFA0, false⟩]⟩,
  ⟨"BR_LOCKT", 0x70014, 1, 0, 1, 0, [⟨F.BR_LOCKT_US, .rwl, 0x64, false⟩]⟩,
  ⟨"BR_TAGSTAT", 0x70018, 1, 0, 1, 0, [⟨F.BR_TAGSTAT_NP_OUT, .ro, 0, false⟩, ⟨F.BR_TAGSTAT_NP_QUAR, .ro, 0, false⟩]⟩,
  ⟨"BR_HOPS", 0x7001C, 1, 0, 1, 0, [⟨F.BR_HOPS_HOPS, .rwl, 0xFFF, false⟩]⟩,
  ⟨"BR_PFA_A", 0x70040, 8, 8, 1, 0, [⟨F.BR_PFA_A_EN, .rwl, 0, false⟩, ⟨F.BR_PFA_A_BASE, .rwl, 0, false⟩]⟩,
  ⟨"BR_PFA_B", 0x70044, 8, 8, 1, 0, [⟨F.BR_PFA_B_LIMIT, .rwl, 0, false⟩]⟩,
  ⟨"BR_OC_CMD", 0x70400, 4, 0x200, 1, 0, [⟨F.BR_OC_CMD_KIND, .rw, 0, false⟩, ⟨F.BR_OC_CMD_CLASS, .rw, 1, false⟩, ⟨F.BR_OC_CMD_LOCK, .rw, 0, false⟩, ⟨F.BR_OC_CMD_PREFETCH, .rw, 0, false⟩, ⟨F.BR_OC_CMD_NTC, .rw, 0, false⟩, ⟨F.BR_OC_CMD_BYTES, .rw, 0, false⟩, ⟨F.BR_OC_CMD_GO, .wo, 0, false⟩]⟩,
  ⟨"BR_OC_DST", 0x70404, 4, 0x200, 1, 0, [⟨F.BR_OC_DST_DST, .rw, 0, false⟩, ⟨F.BR_OC_DST_MC, .rw, 0, false⟩]⟩,
  ⟨"BR_OC_ADDR", 0x70408, 4, 0x200, 1, 0, [⟨F.BR_OC_ADDR_ADDR, .rw, 0, false⟩]⟩,
  ⟨"BR_OC_STAT", 0x7040C, 4, 0x200, 1, 0, [⟨F.BR_OC_STAT_STATE, .ro, 0, false⟩, ⟨F.BR_OC_STAT_POISON, .ro, 0, false⟩, ⟨F.BR_OC_STAT_REASON, .ro, 0, false⟩, ⟨F.BR_OC_STAT_CAUSE, .ro, 0, false⟩, ⟨F.BR_OC_STAT_PIECES, .ro, 0, false⟩]⟩,
  ⟨"BR_OC_TAG", 0x70410, 4, 0x200, 1, 0, [⟨F.BR_OC_TAG_TAG, .ro, 0, false⟩]⟩,
  ⟨"BR_OC_OWN", 0x70414, 4, 0x200, 1, 0, [⟨F.BR_OC_OWN_MASTER, .rwl, 0, false⟩]⟩,
  ⟨"BR_OC_DATA", 0x70500, 4, 0x200, 64, 4, [⟨F.BR_OC_DATA_DATA, .rw, 0, false⟩]⟩,
  ⟨"BR_SEM_A", 0x70C00, 64, 8, 1, 0, [⟨F.BR_SEM_A_VALID, .ro, 0, false⟩, ⟨F.BR_SEM_A_PAGE, .ro, 0, false⟩]⟩,
  ⟨"BR_SEM_B", 0x70C04, 64, 8, 1, 0, [⟨F.BR_SEM_B_HOLDER, .ro, 0, false⟩, ⟨F.BR_SEM_B_WAIT, .ro, 0, false⟩]⟩]

/-- Registers of 08_dead_letters.md. -/
def rows08 : List RegRow := [
  ⟨"DL_CTL", 0x71000, 1, 0, 1, 0, [⟨F.DL_CTL_NTC, .rw, 1, false⟩, ⟨F.DL_CTL_NTC_Q, .rw, 1, true⟩, ⟨F.DL_CTL_VD, .rw, 0, false⟩]⟩,
  ⟨"DL_STAT", 0x71004, 1, 0, 1, 0, [⟨F.DL_STAT_LEVEL, .ro, 0, false⟩, ⟨F.DL_STAT_OVF, .w1c, 0, false⟩, ⟨F.DL_STAT_UP_LEVEL, .ro, 0, false⟩, ⟨F.DL_STAT_UP_OVF, .w1c, 0, false⟩, ⟨F.DL_STAT_CFGREF, .w1c, 0, false⟩, ⟨F.DL_STAT_FWD_BUSY, .ro, 0, false⟩]⟩,
  ⟨"DL_HEAD", 0x71008, 1, 0, 1, 0, [⟨F.DL_HEAD_HEAD, .ro, 0, false⟩]⟩,
  ⟨"DL_TAIL", 0x7100C, 1, 0, 1, 0, [⟨F.DL_TAIL_TAIL, .rw, 0, false⟩]⟩,
  ⟨"UP_HEAD", 0x71010, 1, 0, 1, 0, [⟨F.UP_HEAD_HEAD, .ro, 0, false⟩]⟩,
  ⟨"UP_TAIL", 0x71014, 1, 0, 1, 0, [⟨F.UP_TAIL_TAIL, .rw, 0, false⟩]⟩,
  ⟨"DL_FWD", 0x71018, 1, 0, 1, 0, [⟨F.DL_FWD_DST, .rw, 0, false⟩, ⟨F.DL_FWD_MC, .rw, 0, false⟩, ⟨F.DL_FWD_CLASS, .rw, 2, false⟩, ⟨F.DL_FWD_DEPTH, .rw, 0, false⟩, ⟨F.DL_FWD_VALID, .rw, 0, false⟩]⟩,
  ⟨"DL_FADDR", 0x7101C, 1, 0, 1, 0, [⟨F.DL_FADDR_ADDR, .rw, 0, false⟩]⟩,
  ⟨"DL_ENT", 0x71400, 64, 0x20, 8, 4, [⟨F.DL_ENT_VAL, .ro, 0, false⟩]⟩,
  ⟨"UP_ENT_ADDR", 0x72000, 16, 0x80, 1, 0, [⟨F.UP_ENT_ADDR_VAL, .ro, 0, false⟩]⟩,
  ⟨"UP_ENT_MASTER", 0x72004, 16, 0x80, 1, 0, [⟨F.UP_ENT_MASTER_VAL, .ro, 0, false⟩]⟩,
  ⟨"UP_ENT_PM_LO", 0x72008, 16, 0x80, 1, 0, [⟨F.UP_ENT_PM_LO_VAL, .ro, 0, false⟩]⟩,
  ⟨"UP_ENT_PM_HI", 0x7200C, 16, 0x80, 1, 0, [⟨F.UP_ENT_PM_HI_VAL, .ro, 0, false⟩]⟩,
  ⟨"UP_ENT_SEQ", 0x72010, 16, 0x80, 1, 0, [⟨F.UP_ENT_SEQ_VAL, .ro, 0, false⟩]⟩,
  ⟨"UP_ENT_DATA", 0x72040, 16, 0x80, 16, 4, [⟨F.UP_ENT_DATA_VAL, .ro, 0, false⟩]⟩]

/-- Registers of 09_sorting_office.md. -/
def rows09 : List RegRow := [
  ⟨"SO_CTL", 0x80000, 1, 0, 1, 0, [⟨F.SO_CTL_NTC_Q, .rw, 1, true⟩]⟩,
  ⟨"SO_CAP", 0x80004, 1, 0, 1, 0, [⟨F.SO_CAP_CELLS, .ro, 0x8000, false⟩, ⟨F.SO_CAP_RETIRED, .ro, 0, false⟩, ⟨F.SO_CAP_SPARE, .ro, 1, false⟩]⟩,
  ⟨"SO_FREE", 0x80008, 1, 0, 1, 0, [⟨F.SO_FREE_FREE, .ro, 0x8000, false⟩, ⟨F.SO_FREE_LOW, .rw, 0x8000, false⟩]⟩,
  ⟨"SO_POOL", 0x8000C, 1, 0, 1, 0, [⟨F.SO_POOL_SCHED, .rwl, 0x1000, false⟩, ⟨F.SO_POOL_ICAP, .rwl, 0x1000, false⟩]⟩,
  ⟨"SO_IPOOL", 0x80010, 1, 0, 1, 0, [⟨F.SO_IPOOL_CELLS, .ro, 0x4900, false⟩, ⟨F.SO_IPOOL_USED, .ro, 0, false⟩]⟩,
  ⟨"SO_SLOT", 0x80014, 1, 0, 1, 0, [⟨F.SO_SLOT_SLOT, .ro, 0, false⟩]⟩,
  ⟨"SO_EVT", 0x80018, 1, 0, 1, 0, [⟨F.SO_EVT_SCHED, .w1c, 0, false⟩, ⟨F.SO_EVT_CREDIT, .w1c, 0, false⟩, ⟨F.SO_EVT_RESEQ, .w1c, 0, false⟩, ⟨F.SO_EVT_UNCORR, .w1c, 0, false⟩, ⟨F.SO_EVT_POOLCUT, .w1c, 0, false⟩, ⟨F.SO_EVT_CFGREF, .w1c, 0, false⟩, ⟨F.SO_EVT_STALL, .w1c, 0, false⟩]⟩,
  ⟨"SO_RES_A", 0x80020, 3, 8, 1, 0, [⟨F.SO_RES_A_URG, .rwl, 0x400, false⟩, ⟨F.SO_RES_A_MGMT, .rwl, 0x100, false⟩]⟩,
  ⟨"SO_RES_B", 0x80024, 3, 8, 1, 0, [⟨F.SO_RES_B_BULK, .rwl, 0x800, false⟩]⟩,
  ⟨"SO_FWD", 0x80040, 3, 4, 1, 0, [⟨F.SO_FWD_CT, .rw, 3, false⟩]⟩,
  ⟨"SO_PC", 0x80100, 3, 0x10, 4, 4, [⟨F.SO_PC_HELD, .ro, 0, false⟩, ⟨F.SO_PC_TXCR, .ro, 0, false⟩]⟩,
  ⟨"SO_QLEN", 0x80140, 8, 4, 1, 0, [⟨F.SO_QLEN_CELLS, .ro, 0, false⟩, ⟨F.SO_QLEN_WAIT, .ro, 0, false⟩]⟩]

/-- Registers of 10_caravan_links.md. -/
def rows10 : List RegRow := [
  ⟨"PT_CTL", 0x90000, 3, 0x1000, 1, 0, [⟨F.PT_CTL_EN, .rw, 1, false⟩, ⟨F.PT_CTL_RATE, .rw, 0, false⟩, ⟨F.PT_CTL_AUTODN, .rw, 1, false⟩, ⟨F.PT_CTL_RETRAIN, .wo, 0, false⟩, ⟨F.PT_CTL_ANYMOD, .rw, 0, false⟩, ⟨F.PT_CTL_NTC_Q, .rw, 1, true⟩, ⟨F.PT_CTL_STAMP_INT, .rw, 0x20, false⟩]⟩,
  ⟨"PT_STAT", 0x90004, 3, 0x1000, 1, 0, [⟨F.PT_STAT_STATE, .ro, 0, false⟩, ⟨F.PT_STAT_RATE_EFF, .ro, 0, false⟩, ⟨F.PT_STAT_LOS, .ro, 0, false⟩, ⟨F.PT_STAT_MODABS, .ro, 0, false⟩, ⟨F.PT_STAT_LOCK, .ro, 0, false⟩, ⟨F.PT_STAT_RLOCK, .ro, 0, false⟩, ⟨F.PT_STAT_NROLE, .ro, 0, false⟩, ⟨F.PT_STAT_DOWNSHIFTED, .ro, 0, false⟩]⟩,
  ⟨"PT_NID", 0x90008, 3, 0x1000, 1, 0, [⟨F.PT_NID_NID, .ro, 0, false⟩]⟩,
  ⟨"PT_EVT", 0x9000C, 3, 0x1000, 1, 0, [⟨F.PT_EVT_LOCKLOSS, .w1c, 0, false⟩, ⟨F.PT_EVT_STAMPTO, .w1c, 0, false⟩, ⟨F.PT_EVT_HIBER, .w1c, 0, false⟩, ⟨F.PT_EVT_LOS, .w1c, 0, false⟩, ⟨F.PT_EVT_MODCHG, .w1c, 0, false⟩, ⟨F.PT_EVT_MODREF, .w1c, 0, false⟩, ⟨F.PT_EVT_CABLE, .w1c, 0, false⟩, ⟨F.PT_EVT_HCRC, .w1c, 0, false⟩, ⟨F.PT_EVT_BADBLK, .w1c, 0, false⟩, ⟨F.PT_EVT_AUDIT, .w1c, 0, false⟩, ⟨F.PT_EVT_CFGREF, .w1c, 0, false⟩, ⟨F.PT_EVT_I2CERR, .w1c, 0, false⟩, ⟨F.PT_EVT_TRAINRX, .w1c, 0, false⟩]⟩,
  ⟨"PT_SDS_TX", 0x90010, 3, 0x1000, 1, 0, [⟨F.PT_SDS_TX_AMP, .rw, 8, false⟩, ⟨F.PT_SDS_TX_PRE, .rw, 2, false⟩, ⟨F.PT_SDS_TX_POST, .rw, 4, false⟩]⟩,
  ⟨"PT_SDS_RX", 0x90014, 3, 0x1000, 1, 0, [⟨F.PT_SDS_RX_ADAPT, .rw, 1, false⟩, ⟨F.PT_SDS_RX_CTLE, .rw, 8, false⟩]⟩,
  ⟨"PT_DLY_TX", 0x90018, 3, 0x1000, 1, 0, [⟨F.PT_DLY_TX_PS, .rw, 0, false⟩]⟩,
  ⟨"PT_DLY_RX", 0x9001C, 3, 0x1000, 1, 0, [⟨F.PT_DLY_RX_PS, .rw, 0, false⟩]⟩,
  ⟨"PT_ASYM", 0x90020, 3, 0x1000, 1, 0, [⟨F.PT_ASYM_PS, .rw, 0, false⟩]⟩,
  ⟨"PT_I2C_CMD", 0x90030, 3, 0x1000, 1, 0, [⟨F.PT_I2C_CMD_DEV, .rw, 0, false⟩, ⟨F.PT_I2C_CMD_FAST, .rw, 0, false⟩, ⟨F.PT_I2C_CMD_OFFSET, .rw, 0, false⟩, ⟨F.PT_I2C_CMD_WDATA, .rw, 0, false⟩, ⟨F.PT_I2C_CMD_WRITE, .rw, 0, false⟩, ⟨F.PT_I2C_CMD_GO, .w1s, 0, false⟩]⟩,
  ⟨"PT_I2C_DATA", 0x90034, 3, 0x1000, 1, 0, [⟨F.PT_I2C_DATA_RDATA, .ro, 0, false⟩, ⟨F.PT_I2C_DATA_ERR, .ro, 0, false⟩, ⟨F.PT_I2C_DATA_VALID, .ro, 0, false⟩]⟩,
  ⟨"PT_DDM_A", 0x90038, 3, 0x1000, 1, 0, [⟨F.PT_DDM_A_TEMP, .ro, 0, false⟩, ⟨F.PT_DDM_A_VCC, .ro, 0, false⟩]⟩,
  ⟨"PT_DDM_B", 0x9003C, 3, 0x1000, 1, 0, [⟨F.PT_DDM_B_BIAS, .ro, 0, false⟩, ⟨F.PT_DDM_B_TXPWR, .ro, 0, false⟩]⟩,
  ⟨"PT_DDM_C", 0x90040, 3, 0x1000, 1, 0, [⟨F.PT_DDM_C_RXPWR, .ro, 0, false⟩]⟩,
  ⟨"PT_MOD", 0x90044, 3, 0x1000, 1, 0, [⟨F.PT_MOD_ID, .ro, 0, false⟩, ⟨F.PT_MOD_DDM, .ro, 0, false⟩, ⟨F.PT_MOD_SOFTDIS, .ro, 0, false⟩]⟩]

/-- Registers of 11_census_and_routing.md. -/
def rows11 : List RegRow := [
  ⟨"CN_CFG", 0x94000, 1, 0, 1, 0, [⟨F.CN_CFG_RING, .rwl, 0, false⟩, ⟨F.CN_CFG_BIND, .rwl, 0, false⟩, ⟨F.CN_CFG_GAPM1, .rwl, 3, false⟩, ⟨F.CN_CFG_RPRI, .rwl, 0x80, false⟩, ⟨F.CN_CFG_CINT, .rwl, 0xA, false⟩]⟩,
  ⟨"CN_STAT", 0x94004, 1, 0, 1, 0, [⟨F.CN_STAT_STATE, .ro, 0, false⟩, ⟨F.CN_STAT_ROOT, .ro, 0, false⟩, ⟨F.CN_STAT_ELIG, .ro, 0, false⟩]⟩,
  ⟨"CN_ADDR", 0x94008, 1, 0, 1, 0, [⟨F.CN_ADDR_ADDR, .ro, 0xFFFF, false⟩, ⟨F.CN_ADDR_ROOT, .ro, 0xFFFF, false⟩]⟩,
  ⟨"CN_POS", 0x9400C, 1, 0, 1, 0, [⟨F.CN_POS_POS, .ro, 0, false⟩, ⟨F.CN_POS_EPOCH, .ro, 0, false⟩]⟩,
  ⟨"CN_BIND", 0x94010, 1, 0, 1, 0, [⟨F.CN_BIND_INDEX, .rw, 0, false⟩, ⟨F.CN_BIND_RING, .rw, 0, false⟩, ⟨F.CN_BIND_VALID, .rw, 0, false⟩]⟩,
  ⟨"CN_CMD", 0x94014, 1, 0, 1, 0, [⟨F.CN_CMD_CLAIM, .wo, 0, false⟩, ⟨F.CN_CMD_RENUMBER, .wo, 0, false⟩]⟩,
  ⟨"RT_CFG", 0x94020, 1, 0, 1, 0, [⟨F.RT_CFG_PAIR, .rwl, 0, false⟩, ⟨F.RT_CFG_SIDEB, .rwl, 0, false⟩, ⟨F.RT_CFG_EPORT, .rwl, 0, false⟩, ⟨F.RT_CFG_WPORT, .rwl, 1, false⟩, ⟨F.RT_CFG_NTC_Q, .rw, 1, true⟩]⟩,
  ⟨"RT_PREF", 0x94024, 1, 0, 1, 0, [⟨F.RT_PREF_PREF0, .rw, 0, false⟩, ⟨F.RT_PREF_PREF1, .rw, 0, false⟩, ⟨F.RT_PREF_PREF2, .rw, 0, false⟩, ⟨F.RT_PREF_PREF3, .rw, 0, false⟩]⟩,
  ⟨"RT_KEY", 0x94028, 1, 0, 1, 0, [⟨F.RT_KEY_KEY, .ro, 0, false⟩, ⟨F.RT_KEY_VALID, .ro, 0, false⟩]⟩,
  ⟨"RT_STAT", 0x9402C, 1, 0, 1, 0, [⟨F.RT_STAT_NBND, .ro, 0, false⟩, ⟨F.RT_STAT_BNDFULL, .w1c, 0, false⟩, ⟨F.RT_STAT_NOROUTE, .w1c, 0, false⟩, ⟨F.RT_STAT_MCCUT, .w1c, 0, false⟩, ⟨F.RT_STAT_CFGREF, .w1c, 0, false⟩, ⟨F.RT_STAT_LOOP, .w1c, 0, false⟩]⟩,
  ⟨"RT_NBR", 0x94030, 3, 4, 1, 0, [⟨F.RT_NBR_INDEX, .ro, 0, false⟩, ⟨F.RT_NBR_VALID, .ro, 0, false⟩]⟩,
  ⟨"RT_BND", 0x94040, 16, 4, 1, 0, [⟨F.RT_BND_B, .ro, 0, false⟩, ⟨F.RT_BND_KEY, .ro, 0, false⟩, ⟨F.RT_BND_SIDE, .ro, 0, false⟩, ⟨F.RT_BND_LOCAL, .ro, 0, false⟩, ⟨F.RT_BND_VALID, .ro, 0, false⟩]⟩,
  ⟨"RT_JN", 0x94100, 16, 4, 1, 0, [⟨F.RT_JN_PRI, .rwl, 0, false⟩, ⟨F.RT_JN_PVALID, .rwl, 0, false⟩, ⟨F.RT_JN_PDOWN, .ro, 0, false⟩, ⟨F.RT_JN_BAK, .rwl, 0, false⟩, ⟨F.RT_JN_BVALID, .rwl, 0, false⟩, ⟨F.RT_JN_BDOWN, .ro, 0, false⟩]⟩,
  ⟨"RT_GRP", 0x94200, 128, 4, 1, 0, [⟨F.RT_GRP_MEMBER, .rw, 0, false⟩]⟩,
  ⟨"RT_PRES", 0x94400, 128, 4, 1, 0, [⟨F.RT_PRES_PRESENT, .ro, 0, false⟩]⟩,
  ⟨"JN_CTL", 0x95000, 1, 0, 1, 0, [⟨F.JN_CTL_EN, .rwl, 0, false⟩, ⟨F.JN_CTL_PEER, .rwl, 0, false⟩, ⟨F.JN_CTL_HOPS, .rwl, 0xFFF, false⟩]⟩,
  ⟨"JN_BEYOND", 0x95004, 1, 0, 1, 0, [⟨F.JN_BEYOND_RINGS, .rwl, 0, false⟩]⟩,
  ⟨"JN_STAT", 0x95008, 1, 0, 1, 0, [⟨F.JN_STAT_UP, .ro, 0, false⟩, ⟨F.JN_STAT_CFGREF, .w1c, 0, false⟩, ⟨F.JN_STAT_PEERERR, .w1c, 0, false⟩]⟩]

/-- Registers of 12_timetable_and_time.md. -/
def rows12a : List RegRow := [
  ⟨"TT_CTL", 0xA0000, 1, 0, 1, 0, [⟨F.TT_CTL_RUN, .rw, 0, false⟩, ⟨F.TT_CTL_SWAP_REQ, .w1s, 0, false⟩, ⟨F.TT_CTL_SWAP_AT, .rw, 0, false⟩, ⟨F.TT_CTL_SWAPNOW, .wo, 0, false⟩, ⟨F.TT_CTL_NTC_Q, .rw, 1, true⟩]⟩,
  ⟨"TT_STAT", 0xA0004, 1, 0, 1, 0, [⟨F.TT_STAT_RUNNING, .ro, 0, false⟩, ⟨F.TT_STAT_ACTIVE, .ro, 0, false⟩, ⟨F.TT_STAT_PENDING, .ro, 0, false⟩, ⟨F.TT_STAT_OVERRUN, .w1c, 0, false⟩, ⟨F.TT_STAT_PENDREF, .w1c, 0, false⟩, ⟨F.TT_STAT_CFGREF, .w1c, 0, false⟩, ⟨F.TT_STAT_LATE, .w1c, 0, false⟩, ⟨F.TT_STAT_RXREF, .w1c, 0, false⟩, ⟨F.TT_STAT_SKIP, .w1c, 0, false⟩]⟩,
  ⟨"TT_T0_LO", 0xA0008, 1, 0, 1, 0, [⟨F.TT_T0_LO_T0, .rw, 0, false⟩]⟩,
  ⟨"TT_T0_HI", 0xA000C, 1, 0, 1, 0, [⟨F.TT_T0_HI_T0, .rw, 0, false⟩]⟩,
  ⟨"TT_CYCLE", 0xA0010, 1, 0, 1, 0, [⟨F.TT_CYCLE_NS, .rw, 0, false⟩]⟩,
  ⟨"TT_CNUM", 0xA0014, 1, 0, 1, 0, [⟨F.TT_CNUM_K, .ro, 0, false⟩]⟩,
  ⟨"TT_SWAPC", 0xA0018, 1, 0, 1, 0, [⟨F.TT_SWAPC_K, .rw, 0, false⟩]⟩,
  ⟨"TT_HOPS", 0xA001C, 1, 0, 1, 0, [⟨F.TT_HOPS_HOPS, .rwl, 0xFFF, false⟩]⟩,
  ⟨"TT_RX_A", 0xA0100, 32, 8, 1, 0, [⟨F.TT_RX_A_SRC, .rwl, 0, false⟩, ⟨F.TT_RX_A_EN, .rwl, 0, false⟩]⟩,
  ⟨"TT_RX_B", 0xA0104, 32, 8, 1, 0, [⟨F.TT_RX_B_BASE, .rwl, 0, false⟩, ⟨F.TT_RX_B_LIMIT, .rwl, 0, false⟩]⟩,
  ⟨"LTICK_LO", 0xA0400, 1, 0, 1, 0, [⟨F.LTICK_LO_TICK, .ro, 0, false⟩]⟩,
  ⟨"LTICK_HI", 0xA0404, 1, 0, 1, 0, [⟨F.LTICK_HI_TICK, .ro, 0, false⟩]⟩,
  ⟨"ITB_NOW_LO", 0xA0440, 4, 0x40, 1, 0, [⟨F.ITB_NOW_LO_NOW, .ro, 0, false⟩]⟩,
  ⟨"ITB_NOW_HI", 0xA0444, 4, 0x40, 1, 0, [⟨F.ITB_NOW_HI_NOW, .ro, 0, false⟩]⟩,
  ⟨"ITB_NOW_TOP", 0xA0448, 4, 0x40, 1, 0, [⟨F.ITB_NOW_TOP_NOW, .ro, 0, false⟩]⟩,
  ⟨"ITB_INC_LO", 0xA044C, 4, 0x40, 1, 0, [⟨F.ITB_INC_LO_INC, .rw, 0x33333333, false⟩]⟩,
  ⟨"ITB_INC_HI", 0xA0450, 4, 0x40, 1, 0, [⟨F.ITB_INC_HI_INC, .rw, 3, false⟩]⟩,
  ⟨"ITB_STEP_LO", 0xA0454, 4, 0x40, 1, 0, [⟨F.ITB_STEP_LO_STEP, .wo, 0, false⟩]⟩,
  ⟨"ITB_STEP_HI", 0xA0458, 4, 0x40, 1, 0, [⟨F.ITB_STEP_HI_STEP, .wo, 0, false⟩]⟩,
  ⟨"ITB_STEP_TOP", 0xA045C, 4, 0x40, 1, 0, [⟨F.ITB_STEP_TOP_STEP, .wo, 0, false⟩]⟩,
  ⟨"ITB_CTL", 0xA0460, 4, 0x40, 1, 0, [⟨F.ITB_CTL_CFGREF, .w1c, 0, false⟩, ⟨F.ITB_CTL_STEPPED, .w1c, 0, false⟩]⟩,
  ⟨"VD_NOW_LO", 0xA0600, 16, 0x40, 1, 0, [⟨F.VD_NOW_LO_NOW, .ro, 0, false⟩]⟩,
  ⟨"VD_NOW_HI", 0xA0604, 16, 0x40, 1, 0, [⟨F.VD_NOW_HI_NOW, .ro, 0, false⟩]⟩,
  ⟨"VD_NOW_TOP", 0xA0608, 16, 0x40, 1, 0, [⟨F.VD_NOW_TOP_NOW, .ro, 0, false⟩]⟩]

/-- Registers of 12_timetable_and_time.md. -/
def rows12b : List RegRow := [
  ⟨"VD_BASE_LO", 0xA060C, 16, 0x40, 1, 0, [⟨F.VD_BASE_LO_BASE, .rw, 0, false⟩]⟩,
  ⟨"VD_BASE_HI", 0xA0610, 16, 0x40, 1, 0, [⟨F.VD_BASE_HI_BASE, .rw, 0, false⟩]⟩,
  ⟨"VD_BASE_TOP", 0xA0614, 16, 0x40, 1, 0, [⟨F.VD_BASE_TOP_BASE, .rw, 0, false⟩]⟩,
  ⟨"VD_ANCHOR_LO", 0xA0618, 16, 0x40, 1, 0, [⟨F.VD_ANCHOR_LO_ANCHOR, .rw, 0, false⟩]⟩,
  ⟨"VD_ANCHOR_HI", 0xA061C, 16, 0x40, 1, 0, [⟨F.VD_ANCHOR_HI_ANCHOR, .rw, 0, false⟩]⟩,
  ⟨"VD_RATE_LO", 0xA0620, 16, 0x40, 1, 0, [⟨F.VD_RATE_LO_RATE, .rw, 0x33333333, false⟩]⟩,
  ⟨"VD_RATE_HI", 0xA0624, 16, 0x40, 1, 0, [⟨F.VD_RATE_HI_RATE, .rw, 0x333, false⟩]⟩,
  ⟨"VD_CTL", 0xA0628, 16, 0x40, 1, 0, [⟨F.VD_CTL_LOAD, .wo, 0, false⟩, ⟨F.VD_CTL_FOLLOW, .rw, 0, false⟩, ⟨F.VD_CTL_ITB, .rw, 0, false⟩]⟩,
  ⟨"TM_CTL", 0xA0A00, 1, 0, 1, 0, [⟨F.TM_CTL_GM, .rw, 0, false⟩, ⟨F.TM_CTL_HOST, .rw, 0, false⟩, ⟨F.TM_CTL_SYNCED, .rw, 0, false⟩, ⟨F.TM_CTL_TIE_EN, .rw, 0, false⟩, ⟨F.TM_CTL_NTC_Q, .rw, 1, true⟩]⟩,
  ⟨"TM_CFG", 0xA0A04, 1, 0, 1, 0, [⟨F.TM_CFG_GPRI, .rwl, 0x80, false⟩, ⟨F.TM_CFG_BPER, .rwl, 0x3E8, false⟩]⟩,
  ⟨"TM_STAT", 0xA0A08, 1, 0, 1, 0, [⟨F.TM_STAT_PARENT, .ro, 3, false⟩, ⟨F.TM_STAT_STEPS, .ro, 0xFFFF, false⟩]⟩,
  ⟨"TM_GM", 0xA0A0C, 1, 0, 1, 0, [⟨F.TM_GM_GMID, .ro, 0xFFFF, false⟩, ⟨F.TM_GM_GPRI, .ro, 0xFF, false⟩]⟩,
  ⟨"TM_SERVO", 0xA0A10, 1, 0, 1, 0, [⟨F.TM_SERVO_KP, .rw, 0x20, false⟩, ⟨F.TM_SERVO_KI, .rw, 2, false⟩]⟩,
  ⟨"TM_P_BCN", 0xA0A40, 3, 0x20, 1, 0, [⟨F.TM_P_BCN_STEPS, .ro, 0xFFFF, false⟩, ⟨F.TM_P_BCN_GPRI, .ro, 0, false⟩, ⟨F.TM_P_BCN_VALID, .ro, 0, false⟩, ⟨F.TM_P_BCN_GM, .ro, 0, false⟩, ⟨F.TM_P_BCN_ELIG, .ro, 0, false⟩]⟩,
  ⟨"TM_P_GM", 0xA0A44, 3, 0x20, 1, 0, [⟨F.TM_P_GM_GMID, .ro, 0, false⟩, ⟨F.TM_P_GM_KEY, .ro, 0, false⟩]⟩,
  ⟨"TM_P_MPD", 0xA0A48, 3, 0x20, 1, 0, [⟨F.TM_P_MPD_PS, .ro, 0, false⟩]⟩,
  ⟨"TM_P_OFS_LO", 0xA0A4C, 3, 0x20, 1, 0, [⟨F.TM_P_OFS_LO_OFS, .ro, 0, false⟩]⟩,
  ⟨"TM_P_OFS_HI", 0xA0A50, 3, 0x20, 1, 0, [⟨F.TM_P_OFS_HI_OFS, .ro, 0, false⟩]⟩,
  ⟨"TM_P_SEQ", 0xA0A54, 3, 0x20, 1, 0, [⟨F.TM_P_SEQ_SEQ, .ro, 0, false⟩, ⟨F.TM_P_SEQ_STEPPED, .ro, 0, false⟩]⟩,
  ⟨"TT_ENT_W0", 0xA1000, 2, 0x1000, 256, 0x10, [⟨F.TT_ENT_W0_OFFSET, .rw, 0, false⟩, ⟨F.TT_ENT_W0_REP, .rw, 0, false⟩, ⟨F.TT_ENT_W0_EN, .rw, 0, false⟩]⟩,
  ⟨"TT_ENT_W1", 0xA1004, 2, 0x1000, 256, 0x10, [⟨F.TT_ENT_W1_DST, .rw, 0, false⟩, ⟨F.TT_ENT_W1_MC, .rw, 0, false⟩, ⟨F.TT_ENT_W1_LENW, .rw, 0, false⟩, ⟨F.TT_ENT_W1_PHASE, .rw, 0, false⟩]⟩,
  ⟨"TT_ENT_W2", 0xA1008, 2, 0x1000, 256, 0x10, [⟨F.TT_ENT_W2_SOFF, .rw, 0, false⟩]⟩,
  ⟨"TT_ENT_W3", 0xA100C, 2, 0x1000, 256, 0x10, [⟨F.TT_ENT_W3_DOFF, .rw, 0, false⟩]⟩]

/-- All registers of 12_timetable_and_time.md. -/
def rows12 : List RegRow := rows12a ++ rows12b

/-- Registers of 13_tracks_and_waymarks.md. -/
def rows13a : List RegRow := [
  ⟨"TK_CFG", 0xB0000, 16, 0x100, 1, 0, [⟨F.TK_CFG_SRC, .rw, 0, false⟩, ⟨F.TK_CFG_SEL, .rw, 0, false⟩, ⟨F.TK_CFG_VWIN, .rw, 4, false⟩, ⟨F.TK_CFG_NTC_Q, .rw, 1, true⟩, ⟨F.TK_CFG_NOSYNC, .rw, 0, false⟩]⟩,
  ⟨"TK_CTL", 0xB0004, 16, 0x100, 1, 0, [⟨F.TK_CTL_HOLD, .rw, 1, false⟩]⟩,
  ⟨"TK_STAT", 0xB0008, 16, 0x100, 1, 0, [⟨F.TK_STAT_STATE, .ro, 3, false⟩, ⟨F.TK_STAT_ABS, .ro, 0, false⟩, ⟨F.TK_STAT_JUMPED, .w1c, 0, false⟩, ⟨F.TK_STAT_CFGREF, .w1c, 0, false⟩, ⟨F.TK_STAT_CARMREF, .w1c, 0, false⟩, ⟨F.TK_STAT_PUBREF, .w1c, 0, false⟩, ⟨F.TK_STAT_SAMPREF, .w1c, 0, false⟩, ⟨F.TK_STAT_SEQ, .ro, 0, false⟩]⟩,
  ⟨"TK_SCALE", 0xB000C, 16, 0x100, 1, 0, [⟨F.TK_SCALE_SCALE, .rw, 0x10000, false⟩]⟩,
  ⟨"TK_POS_LO", 0xB0010, 16, 0x100, 1, 0, [⟨F.TK_POS_LO_VAL, .rw, 0, false⟩]⟩,
  ⟨"TK_POS_HI", 0xB0014, 16, 0x100, 1, 0, [⟨F.TK_POS_HI_VAL, .rw, 0, false⟩]⟩,
  ⟨"TK_VEL_LO", 0xB0018, 16, 0x100, 1, 0, [⟨F.TK_VEL_LO_VAL, .ro, 0, false⟩]⟩,
  ⟨"TK_VEL_HI", 0xB001C, 16, 0x100, 1, 0, [⟨F.TK_VEL_HI_VAL, .ro, 0, false⟩]⟩,
  ⟨"TK_T_LO", 0xB0020, 16, 0x100, 1, 0, [⟨F.TK_T_LO_VAL, .ro, 0, false⟩]⟩,
  ⟨"TK_T_HI", 0xB0024, 16, 0x100, 1, 0, [⟨F.TK_T_HI_VAL, .ro, 0, false⟩]⟩,
  ⟨"TK_RSRC", 0xB0028, 16, 0x100, 1, 0, [⟨F.TK_RSRC_NODE, .rw, 0, false⟩, ⟨F.TK_RSRC_TRACK, .rw, 0, false⟩, ⟨F.TK_RSRC_EN, .rw, 0, false⟩]⟩,
  ⟨"TK_RCFG", 0xB002C, 16, 0x100, 1, 0, [⟨F.TK_RCFG_FRESH, .rw, 0x5DC, false⟩, ⟨F.TK_RCFG_COAST, .rw, 0x1388, false⟩]⟩,
  ⟨"TK_JUMP", 0xB0030, 16, 0x100, 1, 0, [⟨F.TK_JUMP_UNITS, .rw, 0x10, false⟩]⟩,
  ⟨"TK_PUB_A", 0xB0034, 16, 0x100, 1, 0, [⟨F.TK_PUB_A_OFFSET, .rw, 0, false⟩, ⟨F.TK_PUB_A_CLASS, .rw, 0, false⟩, ⟨F.TK_PUB_A_EN, .rw, 0, false⟩]⟩,
  ⟨"TK_PUB_B", 0xB0038, 16, 0x100, 1, 0, [⟨F.TK_PUB_B_DST, .rw, 0, false⟩, ⟨F.TK_PUB_B_MC, .rw, 0, false⟩]⟩,
  ⟨"TK_CARM", 0xB003C, 16, 0x100, 1, 0, [⟨F.TK_CARM_BASE, .rw, 0, false⟩, ⟨F.TK_CARM_CNTM1, .rw, 0, false⟩, ⟨F.TK_CARM_EN, .rw, 0, false⟩]⟩,
  ⟨"TK_COFF", 0xB0040, 16, 0x100, 1, 0, [⟨F.TK_COFF_OFFSET, .rw, 0, false⟩]⟩,
  ⟨"TK_CAP_POS_LO", 0xB0044, 16, 0x100, 1, 0, [⟨F.TK_CAP_POS_LO_VAL, .ro, 0, false⟩]⟩,
  ⟨"TK_CAP_POS_HI", 0xB0048, 16, 0x100, 1, 0, [⟨F.TK_CAP_POS_HI_VAL, .ro, 0, false⟩]⟩,
  ⟨"TK_CAP_PM_LO", 0xB004C, 16, 0x100, 1, 0, [⟨F.TK_CAP_PM_LO_VAL, .ro, 0, false⟩]⟩,
  ⟨"TK_CAP_PM_HI", 0xB0050, 16, 0x100, 1, 0, [⟨F.TK_CAP_PM_HI_VAL, .ro, 0, false⟩]⟩,
  ⟨"TK_CAP_STAT", 0xB0054, 16, 0x100, 1, 0, [⟨F.TK_CAP_STAT_SEQ, .ro, 0, false⟩, ⟨F.TK_CAP_STAT_STATE, .ro, 0, false⟩, ⟨F.TK_CAP_STAT_ARMED, .ro, 0, false⟩, ⟨F.TK_CAP_STAT_ENTRY, .ro, 0, false⟩]⟩,
  ⟨"TK_CARM_NEXT", 0xB0058, 16, 0x100, 1, 0, [⟨F.TK_CARM_NEXT_NEXT, .ro, 0, false⟩]⟩,
  ⟨"WM_CTL", 0xB1000, 1, 0, 1, 0, [⟨F.WM_CTL_EN, .rw, 0, false⟩, ⟨F.WM_CTL_NTC_Q, .rw, 1, true⟩]⟩]

/-- Registers of 13_tracks_and_waymarks.md. -/
def rows13b : List RegRow := [
  ⟨"WM_STAT", 0xB1004, 1, 0, 1, 0, [⟨F.WM_STAT_ARMED, .ro, 0, false⟩, ⟨F.WM_STAT_BADENT, .w1c, 0, false⟩, ⟨F.WM_STAT_SKEW, .w1c, 0, false⟩, ⟨F.WM_STAT_MISSED, .w1c, 0, false⟩, ⟨F.WM_STAT_DISCARD, .w1c, 0, false⟩, ⟨F.WM_STAT_EMITDROP, .w1c, 0, false⟩, ⟨F.WM_STAT_PULSEREF, .w1c, 0, false⟩, ⟨F.WM_STAT_CAPOVF, .w1c, 0, false⟩, ⟨F.WM_STAT_PINREF, .w1c, 0, false⟩, ⟨F.WM_STAT_CAP_CNT, .ro, 0, false⟩]⟩,
  ⟨"WM_CAP_LO", 0xB1008, 1, 0, 1, 0, [⟨F.WM_CAP_LO_CAP, .ro, 0, false⟩]⟩,
  ⟨"WM_CAP_HI", 0xB100C, 1, 0, 1, 0, [⟨F.WM_CAP_HI_CAP, .ro, 0, false⟩]⟩,
  ⟨"WM_CAP_TOP", 0xB1010, 1, 0, 1, 0, [⟨F.WM_CAP_TOP_CAP, .ro, 0, false⟩]⟩,
  ⟨"WM_CAP_EXT", 0xB1014, 1, 0, 1, 0, [⟨F.WM_CAP_EXT_CAP, .ro, 0, false⟩]⟩,
  ⟨"WM_TPL_A", 0xB1100, 64, 8, 1, 0, [⟨F.WM_TPL_A_DST, .rw, 0, false⟩, ⟨F.WM_TPL_A_MC, .rw, 0, false⟩, ⟨F.WM_TPL_A_CLASS, .rw, 1, false⟩, ⟨F.WM_TPL_A_FORM, .rw, 0, false⟩, ⟨F.WM_TPL_A_VALID, .rw, 0, false⟩]⟩,
  ⟨"WM_TPL_B", 0xB1104, 64, 8, 1, 0, [⟨F.WM_TPL_B_ADDR, .rw, 0, false⟩]⟩]

/-- All registers of 13_tracks_and_waymarks.md. -/
def rows13 : List RegRow := rows13a ++ rows13b

/-- Registers of 14_duplex_pairs.md. -/
def rows14 : List RegRow := [
  ⟨"DPX_CTL", 0xC0000, 1, 0, 1, 0, [⟨F.DPX_CTL_EN, .rw, 0, false⟩, ⟨F.DPX_CTL_YIELD, .wo, 0, false⟩, ⟨F.DPX_CTL_CLRF, .wo, 0, false⟩, ⟨F.DPX_CTL_FAULT, .wo, 0, false⟩, ⟨F.DPX_CTL_K, .rw, 8, false⟩, ⟨F.DPX_CTL_STEST, .rw, 1, false⟩, ⟨F.DPX_CTL_NTC_Q, .rw, 1, true⟩]⟩,
  ⟨"DPX_STAT", 0xC0004, 1, 0, 1, 0, [⟨F.DPX_STAT_STATE, .ro, 0, false⟩, ⟨F.DPX_STAT_ROLE, .ro, 0, false⟩, ⟨F.DPX_STAT_CLAIM, .ro, 0, false⟩, ⟨F.DPX_STAT_PEER, .ro, 0, false⟩, ⟨F.DPX_STAT_DRIVE, .ro, 0, false⟩, ⟨F.DPX_STAT_READY, .ro, 0, false⟩, ⟨F.DPX_STAT_PREADY, .ro, 0, false⟩, ⟨F.DPX_STAT_SOLO, .ro, 0, false⟩, ⟨F.DPX_STAT_ALIGNED, .ro, 0, false⟩, ⟨F.DPX_STAT_ROLEERR, .w1c, 0, false⟩, ⟨F.DPX_STAT_INTENT, .w1c, 0, false⟩, ⟨F.DPX_STAT_CFGREF, .w1c, 0, false⟩]⟩,
  ⟨"DPX_FAULT", 0xC0008, 1, 0, 1, 0, [⟨F.DPX_FAULT_FAULT, .w1c, 0, false⟩]⟩,
  ⟨"DPX_FMASK", 0xC000C, 1, 0, 1, 0, [⟨F.DPX_FMASK_SEL, .rwl, 0x3F, false⟩, ⟨F.DPX_FMASK_MEM, .rwl, 7, false⟩]⟩,
  ⟨"DPX_STEP", 0xC0010, 1, 0, 1, 0, [⟨F.DPX_STEP_STEP, .ro, 0, false⟩]⟩,
  ⟨"DPX_OFS", 0xC0014, 1, 0, 1, 0, [⟨F.DPX_OFS_PS, .ro, 0, false⟩]⟩,
  ⟨"DPX_DIVC", 0xC0018, 1, 0, 1, 0, [⟨F.DPX_DIVC_CLUSTER, .w1c, 0, false⟩, ⟨F.DPX_DIVC_UART, .w1c, 0, false⟩]⟩,
  ⟨"DPX_PNID", 0xC001C, 1, 0, 1, 0, [⟨F.DPX_PNID_NID, .ro, 0, false⟩]⟩,
  ⟨"DPX_HCFG", 0xC0020, 1, 0, 1, 0, [⟨F.DPX_HCFG_PERIOD, .rw, 0xA, false⟩]⟩,
  ⟨"DPX_HDST", 0xC0024, 1, 0, 1, 0, [⟨F.DPX_HDST_DST, .rw, 0, false⟩, ⟨F.DPX_HDST_MC, .rw, 0, false⟩, ⟨F.DPX_HDST_VALID, .rw, 0, false⟩]⟩,
  ⟨"DPX_HADDR", 0xC0028, 1, 0, 1, 0, [⟨F.DPX_HADDR_ADDR, .rw, 0, false⟩]⟩]

/-- Registers of 15_power_die.md. -/
def rows15a : List RegRow := [
  ⟨"PD_CTL", 0xD0000, 1, 0, 1, 0, [⟨F.PD_CTL_NTC_Q, .rw, 1, true⟩, ⟨F.PD_CTL_LOCK, .w1s, 0, false⟩, ⟨F.PD_CTL_GFCLR, .wo, 0, false⟩]⟩,
  ⟨"PD_STAT", 0xD0004, 1, 0, 1, 0, [⟨F.PD_STAT_BROWN, .ro, 0, false⟩, ⟨F.PD_STAT_RAILS_OK, .ro, 0, false⟩, ⟨F.PD_STAT_FEED, .ro, 0, false⟩, ⟨F.PD_STAT_FLD, .ro, 0, false⟩, ⟨F.PD_STAT_PG, .ro, 0, false⟩, ⟨F.PD_STAT_A_OK, .ro, 0, false⟩, ⟨F.PD_STAT_B_OK, .ro, 0, false⟩, ⟨F.PD_STAT_GFAULT_A, .ro, 0, false⟩, ⟨F.PD_STAT_GFAULT_B, .ro, 0, false⟩, ⟨F.PD_STAT_ZON, .ro, 0, false⟩]⟩,
  ⟨"PD_EVT", 0xD0008, 1, 0, 1, 0, [⟨F.PD_EVT_BROWN, .w1c, 0, false⟩, ⟨F.PD_EVT_ALLCLR, .w1c, 0, false⟩, ⟨F.PD_EVT_RAIL, .w1c, 0, false⟩, ⟨F.PD_EVT_FEEDSW, .w1c, 0, false⟩, ⟨F.PD_EVT_GFAULT, .w1c, 0, false⟩, ⟨F.PD_EVT_FLDTRIP, .w1c, 0, false⟩, ⟨F.PD_EVT_FLDLIM, .w1c, 0, false⟩, ⟨F.PD_EVT_FLDLATCH, .w1c, 0, false⟩, ⟨F.PD_EVT_ZNTRIP, .w1c, 0, false⟩, ⟨F.PD_EVT_THERM, .w1c, 0, false⟩, ⟨F.PD_EVT_CFGREF, .w1c, 0, false⟩, ⟨F.PD_EVT_OVWARN, .w1c, 0, false⟩]⟩,
  ⟨"SUP_CFG", 0xD0010, 1, 0, 1, 0, [⟨F.SUP_CFG_WARN, .rws, 0x40, false⟩, ⟨F.SUP_CFG_HYST, .rws, 4, false⟩, ⟨F.SUP_CFG_TWARN, .rws, 0x6E, false⟩]⟩,
  ⟨"SUP_VIN", 0xD0014, 1, 0, 1, 0, [⟨F.SUP_VIN_VIN, .ro, 0, false⟩, ⟨F.SUP_VIN_TJ, .ro, 0, false⟩]⟩,
  ⟨"RAIL_STAT", 0xD0018, 1, 0, 1, 0, [⟨F.RAIL_STAT_OUT, .w1c, 0, false⟩]⟩,
  ⟨"FEED_CFG", 0xD0020, 1, 0, 1, 0, [⟨F.FEED_CFG_MODE, .rws, 0, false⟩, ⟨F.FEED_CFG_UV, .rws, 0x3C, false⟩, ⟨F.FEED_CFG_UVHYS, .rws, 4, false⟩, ⟨F.FEED_CFG_OV, .rws, 0x1A4, false⟩]⟩,
  ⟨"FEED_TIM", 0xD0024, 1, 0, 1, 0, [⟨F.FEED_TIM_HOLD, .rws, 0x64, false⟩, ⟨F.FEED_TIM_DEAD, .rws, 5, false⟩, ⟨F.FEED_TIM_QUAL, .rws, 0xA, false⟩]⟩,
  ⟨"FEED_V", 0xD0028, 1, 0, 1, 0, [⟨F.FEED_V_VA, .ro, 0, false⟩, ⟨F.FEED_V_VB, .ro, 0, false⟩]⟩,
  ⟨"FLD_CTL", 0xD0030, 1, 0, 1, 0, [⟨F.FLD_CTL_EN, .rws, 0, false⟩, ⟨F.FLD_CTL_CLR, .wo, 0, false⟩, ⟨F.FLD_CTL_NRST_OFF, .rws, 0, false⟩]⟩,
  ⟨"FLD_LIM", 0xD0034, 1, 0, 1, 0, [⟨F.FLD_LIM_ILIM, .rws, 0x1388, false⟩, ⟨F.FLD_LIM_PMAX, .rws, 0x64, false⟩]⟩,
  ⟨"FLD_RSNS", 0xD0038, 1, 0, 1, 0, [⟨F.FLD_RSNS_UOHM, .rws, 0x1388, false⟩]⟩,
  ⟨"FLD_TIM", 0xD003C, 1, 0, 1, 0, [⟨F.FLD_TIM_START, .rws, 0x32, false⟩, ⟨F.FLD_TIM_FAULT, .rws, 0x64, false⟩, ⟨F.FLD_TIM_RETRY, .rws, 3, false⟩]⟩,
  ⟨"FLD_PGV", 0xD0040, 1, 0, 1, 0, [⟨F.FLD_PGV_RISE, .rws, 0x32, false⟩, ⟨F.FLD_PGV_FALL, .rws, 0x2D, false⟩]⟩,
  ⟨"FLD_STAT", 0xD0044, 1, 0, 1, 0, [⟨F.FLD_STAT_I, .ro, 0, false⟩, ⟨F.FLD_STAT_VOUT, .ro, 0, false⟩]⟩,
  ⟨"FLD_STAT2", 0xD0048, 1, 0, 1, 0, [⟨F.FLD_STAT2_RLEFT, .ro, 0, false⟩, ⟨F.FLD_STAT2_ONTIME, .ro, 0, false⟩]⟩,
  ⟨"ZN_CTL", 0xD0100, 8, 0x10, 1, 0, [⟨F.ZN_CTL_EN, .rws, 0, false⟩, ⟨F.ZN_CTL_CLR, .wo, 0, false⟩, ⟨F.ZN_CTL_NRST_OFF, .rws, 0, false⟩]⟩,
  ⟨"ZN_CFG", 0xD0104, 8, 0x10, 1, 0, [⟨F.ZN_CFG_ILIM, .rws, 0x1E, false⟩, ⟨F.ZN_CFG_FAULT, .rws, 0x14, false⟩, ⟨F.ZN_CFG_RETRY, .rws, 3, false⟩]⟩,
  ⟨"ZN_STAT", 0xD0108, 8, 0x10, 1, 0, [⟨F.ZN_STAT_STATE, .ro, 0, false⟩, ⟨F.ZN_STAT_RLEFT, .ro, 0, false⟩, ⟨F.ZN_STAT_TRIP, .w1c, 0, false⟩, ⟨F.ZN_STAT_THERM, .w1c, 0, false⟩, ⟨F.ZN_STAT_I, .ro, 0, false⟩]⟩,
  ⟨"PM_FLD_V", 0xD0200, 1, 0, 1, 0, [⟨F.PM_FLD_V_MV, .ro, 0, false⟩]⟩,
  ⟨"PM_FLD_I", 0xD0204, 1, 0, 1, 0, [⟨F.PM_FLD_I_MA, .ro, 0, false⟩]⟩,
  ⟨"PM_FLD_P", 0xD0208, 1, 0, 1, 0, [⟨F.PM_FLD_P_MW, .ro, 0, false⟩]⟩,
  ⟨"PM_FLD_E_LO", 0xD020C, 1, 0, 1, 0, [⟨F.PM_FLD_E_LO_E, .rw, 0, false⟩]⟩,
  ⟨"PM_FLD_E_HI", 0xD0210, 1, 0, 1, 0, [⟨F.PM_FLD_E_HI_E, .rw, 0, false⟩]⟩]

/-- Registers of 15_power_die.md. -/
def rows15b : List RegRow := [
  ⟨"PM_VZ", 0xD0214, 1, 0, 1, 0, [⟨F.PM_VZ_MV, .ro, 0, false⟩]⟩,
  ⟨"PM_ZN_I", 0xD0240, 8, 0x10, 1, 0, [⟨F.PM_ZN_I_MA, .ro, 0, false⟩]⟩,
  ⟨"PM_ZN_P", 0xD0244, 8, 0x10, 1, 0, [⟨F.PM_ZN_P_MW, .ro, 0, false⟩]⟩,
  ⟨"PM_ZN_E_LO", 0xD0248, 8, 0x10, 1, 0, [⟨F.PM_ZN_E_LO_E, .rw, 0, false⟩]⟩,
  ⟨"PM_ZN_E_HI", 0xD024C, 8, 0x10, 1, 0, [⟨F.PM_ZN_E_HI_E, .rw, 0, false⟩]⟩]

/-- All registers of 15_power_die.md. -/
def rows15 : List RegRow := rows15a ++ rows15b

/-- Registers of 16_memory_integrity.md. -/
def rows16 : List RegRow := [
  ⟨"MI_CTL", 0xE0000, 1, 0, 1, 0, [⟨F.MI_CTL_SCRUB, .rw, 0x7F, false⟩]⟩,
  ⟨"MI_STAT", 0xE0004, 1, 0, 1, 0, [⟨F.MI_STAT_OVER, .w1c, 0, false⟩, ⟨F.MI_STAT_UNC, .w1c, 0, false⟩, ⟨F.MI_STAT_PAR, .w1c, 0, false⟩]⟩,
  ⟨"MI_LB_CFG", 0xE0010, 7, 0x10, 1, 0, [⟨F.MI_LB_CFG_THRESH, .rw, 0x10, false⟩, ⟨F.MI_LB_CFG_LEAK, .rw, 0x3E8, false⟩]⟩,
  ⟨"MI_LB_STAT", 0xE0014, 7, 0x10, 1, 0, [⟨F.MI_LB_STAT_LEVEL, .ro, 0, false⟩]⟩,
  ⟨"MI_LB_ADDR", 0xE0018, 7, 0x10, 1, 0, [⟨F.MI_LB_ADDR_ADDR, .ro, 0, false⟩]⟩,
  ⟨"MI_LB_UADDR", 0xE001C, 7, 0x10, 1, 0, [⟨F.MI_LB_UADDR_ADDR, .ro, 0, false⟩]⟩,
  ⟨"MI_LAP", 0xE0100, 7, 8, 1, 0, [⟨F.MI_LAP_LAST, .ro, 0, false⟩]⟩,
  ⟨"MI_LAP_MAX", 0xE0104, 7, 8, 1, 0, [⟨F.MI_LAP_MAX_MAX, .rw, 0, false⟩]⟩,
  ⟨"MI_PADDR", 0xE0140, 1, 0, 1, 0, [⟨F.MI_PADDR_ADDR, .ro, 0, false⟩]⟩,
  ⟨"MI_PSRC", 0xE0144, 1, 0, 1, 0, [⟨F.MI_PSRC_CAP, .ro, 0, false⟩, ⟨F.MI_PSRC_INST, .ro, 0, false⟩, ⟨F.MI_PSRC_KIND, .ro, 0, false⟩]⟩,
  ⟨"BIST_CMD", 0xE1000, 1, 0, 1, 0, [⟨F.BIST_CMD_TARGET, .rw, 0, false⟩, ⟨F.BIST_CMD_GO, .wo, 0, false⟩]⟩,
  ⟨"BIST_STAT", 0xE1004, 1, 0, 1, 0, [⟨F.BIST_STAT_STATE, .ro, 0, false⟩, ⟨F.BIST_STAT_CFGREF, .w1c, 0, false⟩, ⟨F.BIST_STAT_HELD, .ro, 0, false⟩, ⟨F.BIST_STAT_LTARGET, .ro, 0, false⟩, ⟨F.BIST_STAT_PHASE, .ro, 0, false⟩]⟩,
  ⟨"BIST_FADDR", 0xE1008, 1, 0, 1, 0, [⟨F.BIST_FADDR_OFFSET, .ro, 0, false⟩]⟩,
  ⟨"BIST_MISR", 0xE100C, 1, 0, 1, 0, [⟨F.BIST_MISR_MISR, .ro, 0, false⟩]⟩,
  ⟨"BIST_FLAGS", 0xE1010, 1, 0, 1, 0, [⟨F.BIST_FLAGS_SO, .rws, 0, false⟩, ⟨F.BIST_FLAGS_BR, .rws, 0, false⟩, ⟨F.BIST_FLAGS_WM, .rws, 0, false⟩, ⟨F.BIST_FLAGS_MSRAM, .rws, 0, false⟩]⟩,
  ⟨"BIST_BOOT", 0xE1014, 1, 0, 1, 0, [⟨F.BIST_BOOT_SO, .rws, 0, false⟩]⟩,
  ⟨"BIST_AUTO", 0xE1018, 1, 0, 1, 0, [⟨F.BIST_AUTO_NEXT, .ro, 0, false⟩]⟩]

/-- Registers of 17_manifest_and_update.md. -/
def rows17 : List RegRow := [
  ⟨"UPD_CTL", 0x10800, 1, 0, 1, 0, [⟨F.UPD_CTL_ACTIVATE, .wo, 0, false⟩, ⟨F.UPD_CTL_CONFIRM, .wo, 0, false⟩, ⟨F.UPD_CTL_ABORT, .wo, 0, false⟩, ⟨F.UPD_CTL_NTC_Q, .rw, 1, true⟩, ⟨F.UPD_CTL_TRIAL, .rwl, 0x3C, false⟩, ⟨F.UPD_CTL_ECKPT, .rwl, 6, false⟩]⟩,
  ⟨"UPD_STAT", 0x10804, 1, 0, 1, 0, [⟨F.UPD_STAT_SESSION_ST, .ro, 0, false⟩, ⟨F.UPD_STAT_TRIAL, .ro, 0, false⟩, ⟨F.UPD_STAT_RUNSLOT, .ro, 0, false⟩, ⟨F.UPD_STAT_CFGREF, .w1c, 0, false⟩, ⟨F.UPD_STAT_FLASHERR, .ro, 0, false⟩, ⟨F.UPD_STAT_REASON, .ro, 0, false⟩, ⟨F.UPD_STAT_SESSION, .ro, 0, false⟩]⟩,
  ⟨"UPD_DONE", 0x10808, 1, 0, 1, 0, [⟨F.UPD_DONE_DONE, .ro, 0, false⟩, ⟨F.UPD_DONE_TOTAL, .ro, 0, false⟩]⟩,
  ⟨"UPD_IMG_LO", 0x1080C, 1, 0, 1, 0, [⟨F.UPD_IMG_LO_ID, .ro, 0, false⟩]⟩,
  ⟨"UPD_IMG_HI", 0x10810, 1, 0, 1, 0, [⟨F.UPD_IMG_HI_ID, .ro, 0, false⟩]⟩,
  ⟨"UPD_RUN_LO", 0x10814, 1, 0, 1, 0, [⟨F.UPD_RUN_LO_ID, .ro, 0, false⟩]⟩,
  ⟨"UPD_RUN_HI", 0x10818, 1, 0, 1, 0, [⟨F.UPD_RUN_HI_ID, .ro, 0, false⟩]⟩,
  ⟨"UPD_TRIALT", 0x1081C, 1, 0, 1, 0, [⟨F.UPD_TRIALT_S, .ro, 0, false⟩]⟩,
  ⟨"UPD_BOOT", 0x10820, 1, 0, 1, 0, [⟨F.UPD_BOOT_BOOTFAIL, .rws, 0, false⟩, ⟨F.UPD_BOOT_TRIES, .ro, 0, false⟩, ⟨F.UPD_BOOT_MODE, .ro, 0, false⟩, ⟨F.UPD_BOOT_FALLBACK, .rws, 0, false⟩, ⟨F.UPD_BOOT_HANDOVER, .ro, 0, false⟩, ⟨F.UPD_BOOT_NOREC, .rws, 0, false⟩]⟩,
  ⟨"UPD_FLASH", 0x10824, 1, 0, 1, 0, [⟨F.UPD_FLASH_DENSITY, .ro, 0, false⟩, ⟨F.UPD_FLASH_SUSPEND, .ro, 0, false⟩, ⟨F.UPD_FLASH_TOKENS, .ro, 0x10, false⟩]⟩,
  ⟨"UPD_RELAY", 0x10828, 1, 0, 1, 0, [⟨F.UPD_RELAY_PORT, .rw, 0, false⟩, ⟨F.UPD_RELAY_HOST, .rw, 0, false⟩]⟩,
  ⟨"UPD_RELAY_CTL", 0x1082C, 1, 0, 1, 0, [⟨F.UPD_RELAY_CTL_EN, .rw, 0, false⟩]⟩,
  ⟨"UPD_BMAP", 0x10C00, 256, 4, 1, 0, [⟨F.UPD_BMAP_MAP, .ro, 0, false⟩]⟩]

/-- Registers of 18_access_identity_capabilities.md. -/
def rows18 : List RegRow := [
  ⟨"ID_PART", 0, 1, 0, 1, 0, [⟨F.ID_PART_PART, .ro, 0x7440, false⟩, ⟨F.ID_PART_REV, .ro, 0xB0, false⟩]⟩,
  ⟨"ID_SERIAL_LO", 8, 1, 0, 1, 0, [⟨F.ID_SERIAL_LO_VAL, .ro, 0, false⟩]⟩,
  ⟨"ID_SERIAL_HI", 0xC, 1, 0, 1, 0, [⟨F.ID_SERIAL_HI_VAL, .ro, 0, false⟩]⟩,
  ⟨"ID_ALOT_LO", 0x10, 1, 0, 1, 0, [⟨F.ID_ALOT_LO_VAL, .ro, 0, false⟩]⟩,
  ⟨"ID_ALOT_HI", 0x14, 1, 0, 1, 0, [⟨F.ID_ALOT_HI_VAL, .ro, 0, false⟩]⟩,
  ⟨"ID_D_LOT_LO", 0x20, 2, 0x20, 1, 0, [⟨F.ID_D_LOT_LO_LOT, .ro, 0, false⟩]⟩,
  ⟨"ID_D_LOT_HI", 0x24, 2, 0x20, 1, 0, [⟨F.ID_D_LOT_HI_LOT, .ro, 0, false⟩, ⟨F.ID_D_LOT_HI_WAFER, .ro, 0, false⟩]⟩,
  ⟨"ID_D_POS", 0x28, 2, 0x20, 1, 0, [⟨F.ID_D_POS_X, .ro, 0, false⟩, ⟨F.ID_D_POS_Y, .ro, 0, false⟩, ⟨F.ID_D_POS_BIN, .ro, 0, false⟩]⟩,
  ⟨"ID_MEM", 0x80, 5, 4, 1, 0, [⟨F.ID_MEM_BASE, .ro, 0, false⟩]⟩,
  ⟨"ID_KEYS", 0xC0, 1, 0, 1, 0, [⟨F.ID_KEYS_PROG0, .ro, 0, false⟩, ⟨F.ID_KEYS_REV0, .ro, 0, false⟩, ⟨F.ID_KEYS_PROG1, .ro, 0, false⟩, ⟨F.ID_KEYS_REV1, .ro, 0, false⟩, ⟨F.ID_KEYS_PROG2, .ro, 0, false⟩, ⟨F.ID_KEYS_REV2, .ro, 0, false⟩, ⟨F.ID_KEYS_PROG3, .ro, 0, false⟩, ⟨F.ID_KEYS_REV3, .ro, 0, false⟩]⟩,
  ⟨"ID_FUSE_CMD", 0xC4, 1, 0, 1, 0, [⟨F.ID_FUSE_CMD_OP, .wo, 0, false⟩, ⟨F.ID_FUSE_CMD_SLOT, .wo, 0, false⟩, ⟨F.ID_FUSE_CMD_KEY, .wo, 0, false⟩]⟩,
  ⟨"ID_FUSE_STAT", 0xC8, 1, 0, 1, 0, [⟨F.ID_FUSE_STAT_BUSY, .ro, 0, false⟩, ⟨F.ID_FUSE_STAT_REF, .ro, 0, false⟩, ⟨F.ID_FUSE_STAT_ERR, .ro, 0, false⟩]⟩,
  ⟨"ID_CAP", 0x100, 27, 0x10, 4, 4, [⟨F.ID_CAP_VAL, .ro, 0, false⟩]⟩,
  ⟨"ID_KEY", 0x400, 4, 0x40, 16, 4, [⟨F.ID_KEY_VAL, .ro, 0, false⟩]⟩,
  ⟨"ID_KEYSTAGE", 0x500, 16, 4, 1, 0, [⟨F.ID_KEYSTAGE_VAL, .wo, 0, false⟩]⟩,
  ⟨"AT_CTL", 0x72000, 1, 0, 1, 0, [⟨F.AT_CTL_NTC_Q, .rw, 1, true⟩]⟩,
  ⟨"AT_STAT", 0x72004, 1, 0, 1, 0, [⟨F.AT_STAT_DENIED, .w1c, 0, false⟩, ⟨F.AT_STAT_CFGREF, .w1c, 0, false⟩]⟩,
  ⟨"AT_LAST_MASTER", 0x72008, 1, 0, 1, 0, [⟨F.AT_LAST_MASTER_ID, .ro, 0, false⟩]⟩,
  ⟨"AT_LAST_ADDR", 0x7200C, 1, 0, 1, 0, [⟨F.AT_LAST_ADDR_ADDR, .ro, 0, false⟩]⟩,
  ⟨"AT_LAST_INFO", 0x72010, 1, 0, 1, 0, [⟨F.AT_LAST_INFO_TABLE, .ro, 0, false⟩, ⟨F.AT_LAST_INFO_PERM, .ro, 0, false⟩, ⟨F.AT_LAST_INFO_RING, .ro, 0, false⟩]⟩,
  ⟨"AT_W0", 0x72400, 148, 0x100, 16, 0x10, [⟨F.AT_W0_MASTER, .rwl, 0, false⟩, ⟨F.AT_W0_R, .rwl, 0, false⟩, ⟨F.AT_W0_W, .rwl, 0, false⟩, ⟨F.AT_W0_L, .rwl, 0, false⟩, ⟨F.AT_W0_N, .rwl, 0, false⟩, ⟨F.AT_W0_I, .rwl, 0, false⟩, ⟨F.AT_W0_SCOPE, .rwl, 0, false⟩, ⟨F.AT_W0_EN, .rwl, 0, false⟩]⟩,
  ⟨"AT_W1", 0x72404, 148, 0x100, 16, 0x10, [⟨F.AT_W1_MASK, .rwl, 0, false⟩]⟩,
  ⟨"AT_W2", 0x72408, 148, 0x100, 16, 0x10, [⟨F.AT_W2_BASE, .rwl, 0, false⟩, ⟨F.AT_W2_LIMIT, .rwl, 0, false⟩]⟩,
  ⟨"AT_W3", 0x7240C, 148, 0x100, 16, 0x10, []⟩]

/-- Registers of 19_counters_and_monitor.md. -/
def rows19 : List RegRow := [
  ⟨"MON_CTL", 0x10C00, 1, 0, 1, 0, [⟨F.MON_CTL_BAUD, .rw, 0, false⟩, ⟨F.MON_CTL_NTC_Q, .rw, 1, true⟩]⟩,
  ⟨"MON_STAT", 0x10C04, 1, 0, 1, 0, [⟨F.MON_STAT_LOCKED, .ro, 1, false⟩, ⟨F.MON_STAT_STRAP, .ro, 0, false⟩, ⟨F.MON_STAT_SERVED, .ro, 0, false⟩, ⟨F.MON_STAT_TERM, .ro, 0, false⟩, ⟨F.MON_STAT_FAILS, .ro, 0, false⟩]⟩,
  ⟨"CNT_CTL", 0xF0000, 1, 0, 1, 0, [⟨F.CNT_CTL_NTC_Q, .rw, 1, true⟩]⟩,
  ⟨"CNT_SNAP", 0xF0004, 1, 0, 1, 0, [⟨F.CNT_SNAP_ID, .wo, 0, false⟩, ⟨F.CNT_SNAP_GO, .wo, 0, false⟩]⟩,
  ⟨"CNT_STAT", 0xF0008, 1, 0, 1, 0, [⟨F.CNT_STAT_PEND, .ro, 0, false⟩, ⟨F.CNT_STAT_LATE, .w1c, 0, false⟩, ⟨F.CNT_STAT_OVR, .w1c, 0, false⟩, ⟨F.CNT_STAT_CFGREF, .w1c, 0, false⟩]⟩,
  ⟨"CNT_NUM", 0xF000C, 1, 0, 1, 0, [⟨F.CNT_NUM_REGS, .ro, 0x280, false⟩, ⟨F.CNT_NUM_ARRS, .ro, 0x840, false⟩]⟩,
  ⟨"CNT_SB_ID", 0xF0010, 2, 0x10, 1, 0, [⟨F.CNT_SB_ID_ID, .ro, 0, false⟩, ⟨F.CNT_SB_ID_VALID, .ro, 0, false⟩, ⟨F.CNT_SB_ID_LOCAL, .ro, 0, false⟩, ⟨F.CNT_SB_ID_SYNCED, .ro, 0, false⟩, ⟨F.CNT_SB_ID_SEQ, .ro, 0, false⟩]⟩,
  ⟨"CNT_SB_PM_LO", 0xF0014, 2, 0x10, 1, 0, [⟨F.CNT_SB_PM_LO_PM, .ro, 0, false⟩]⟩,
  ⟨"CNT_SB_PM_HI", 0xF0018, 2, 0x10, 1, 0, [⟨F.CNT_SB_PM_HI_PM, .ro, 0, false⟩]⟩,
  ⟨"CNT_ARR", 0xF0030, 1, 0, 1, 0, [⟨F.CNT_ARR_ID, .ro, 0, false⟩, ⟨F.CNT_ARR_DONE, .ro, 0, false⟩]⟩,
  ⟨"CNT_DIR_A", 0xF0100, 64, 8, 1, 0, [⟨F.CNT_DIR_A_CAP, .ro, 0, false⟩, ⟨F.CNT_DIR_A_INST, .ro, 0, false⟩, ⟨F.CNT_DIR_A_ARR, .ro, 0, false⟩]⟩,
  ⟨"CNT_DIR_B", 0xF0104, 64, 8, 1, 0, [⟨F.CNT_DIR_B_FIRST, .ro, 0, false⟩, ⟨F.CNT_DIR_B_COUNT, .ro, 0, false⟩]⟩,
  ⟨"CNT_REG_LO", 0xF1000, 640, 8, 1, 0, [⟨F.CNT_REG_LO_N, .ro, 0, false⟩]⟩,
  ⟨"CNT_REG_HI", 0xF1004, 640, 8, 1, 0, [⟨F.CNT_REG_HI_N, .ro, 0, false⟩]⟩,
  ⟨"CNT_SB0_LO", 0xF2800, 640, 8, 1, 0, [⟨F.CNT_SB0_LO_N, .ro, 0, false⟩]⟩,
  ⟨"CNT_SB0_HI", 0xF2804, 640, 8, 1, 0, [⟨F.CNT_SB0_HI_N, .ro, 0, false⟩]⟩,
  ⟨"CNT_SB1_LO", 0xF4000, 640, 8, 1, 0, [⟨F.CNT_SB1_LO_N, .ro, 0, false⟩]⟩,
  ⟨"CNT_SB1_HI", 0xF4004, 640, 8, 1, 0, [⟨F.CNT_SB1_HI_N, .ro, 0, false⟩]⟩,
  ⟨"CNT_ARRAY_LO", 0xF6000, 2112, 8, 1, 0, [⟨F.CNT_ARRAY_LO_N, .ro, 0, false⟩]⟩,
  ⟨"CNT_ARRAY_HI", 0xF6004, 2112, 8, 1, 0, [⟨F.CNT_ARRAY_HI_N, .ro, 0, false⟩]⟩,
  ⟨"CNT_ASH_LO", 0xFA800, 2112, 8, 1, 0, [⟨F.CNT_ASH_LO_N, .ro, 0, false⟩]⟩,
  ⟨"CNT_ASH_HI", 0xFA804, 2112, 8, 1, 0, [⟨F.CNT_ASH_HI_N, .ro, 0, false⟩]⟩]

/-- The wide registers: values of more than 32 bits in _LO, _HI, _TOP and _EXT parts at ascending addresses. -/
def wideRowsA : List WideRow := [
  ⟨0x21014, 16, 0x40, 1, 0, 3, .fifo⟩,
  ⟨0xB1008, 1, 0, 1, 0, 4, .fifo⟩,
  ⟨0x30144, 16, 0x1000, 4, 0x80, 2, .ro⟩,
  ⟨0x40068, 8, 0x1000, 1, 0, 2, .rw⟩,
  ⟨0x5001C, 16, 0x100, 1, 0, 2, .ro⟩,
  ⟨0x51010, 16, 0x100, 1, 0, 2, .ro⟩,
  ⟨0x61024, 32, 0x40, 1, 0, 2, .rw⟩,
  ⟨0x72088, 7, 0x80, 1, 0, 2, .ro⟩,
  ⟨0xA0008, 1, 0, 1, 0, 2, .rw⟩,
  ⟨0xA0400, 1, 0, 1, 0, 2, .ro⟩,
  ⟨0xA0440, 4, 0x40, 1, 0, 3, .ro⟩,
  ⟨0xA044C, 4, 0x40, 1, 0, 2, .rw⟩,
  ⟨0xA0454, 4, 0x40, 1, 0, 3, .wo⟩,
  ⟨0xA0600, 16, 0x40, 1, 0, 3, .ro⟩,
  ⟨0xA060C, 16, 0x40, 1, 0, 3, .rw⟩,
  ⟨0xA0618, 16, 0x40, 1, 0, 2, .rw⟩,
  ⟨0xA0620, 16, 0x40, 1, 0, 2, .rw⟩,
  ⟨0xA0A4C, 3, 0x20, 1, 0, 2, .ro⟩,
  ⟨0xB0010, 16, 0x100, 1, 0, 2, .rw⟩]

/-- The wide registers, second part. -/
def wideRowsB : List WideRow := [
  ⟨0xB0018, 16, 0x100, 1, 0, 2, .ro⟩,
  ⟨0xB0020, 16, 0x100, 1, 0, 2, .ro⟩,
  ⟨0xB0044, 16, 0x100, 1, 0, 2, .ro⟩,
  ⟨0xB004C, 16, 0x100, 1, 0, 2, .ro⟩,
  ⟨0xD020C, 1, 0, 1, 0, 2, .rw⟩,
  ⟨0xD0248, 8, 0x10, 1, 0, 2, .rw⟩,
  ⟨0x1080C, 1, 0, 1, 0, 2, .ro⟩,
  ⟨0x10814, 1, 0, 1, 0, 2, .ro⟩,
  ⟨0xF0014, 2, 0x10, 1, 0, 2, .ro⟩,
  ⟨0xF1000, 640, 8, 1, 0, 2, .ro⟩,
  ⟨0xF2800, 640, 8, 1, 0, 2, .ro⟩,
  ⟨0xF4000, 640, 8, 1, 0, 2, .ro⟩,
  ⟨0xF6000, 2112, 8, 1, 0, 2, .ro⟩,
  ⟨0xFA800, 2112, 8, 1, 0, 2, .ro⟩,
  ⟨8, 1, 0, 1, 0, 2, .ro⟩,
  ⟨0x10, 1, 0, 1, 0, 2, .ro⟩]

/-- The chapter whose register table a local address belongs to (R19, R453). -/
def rowsAt (a : Nat) : List RegRow :=
  if a < 0x10000 then rows18
  else if a < 0x10800 then rows01
  else if a < 0x10C00 then rows17
  else if a < 0x20000 then rows19 ++ rows17
  else if a < 0x30000 then rows02
  else if a < 0x40000 then rows03
  else if a < 0x50000 then rows04
  else if a < 0x60000 then rows05
  else if a < 0x70000 then rows06
  else if a < 0x71000 then rows07
  else if a < 0x72000 then rows08
  else if a < 0x80000 then rows18 ++ rows08
  else if a < 0x90000 then rows09
  else if a < 0x94000 then rows10
  else if a < 0xA0000 then rows11
  else if a < 0xB0000 then rows12
  else if a < 0xC0000 then rows13
  else if a < 0xD0000 then rows14
  else if a < 0xE0000 then rows15
  else if a < 0xF0000 then rows16
  else if a < 0x100000 then rows19
  else []

/-- The instance of row r that lies at address a, if one does. -/
def RegRow.hit (r : RegRow) (a : Nat) : Option (Nat × Nat) :=
  if a < r.base then none else
  let off := a - r.base
  let i := if r.s1 = 0 then 0 else off / r.s1
  let rest := off - i * r.s1
  let j := if r.s2 = 0 then 0 else rest / r.s2
  if i < r.n1 ∧ j < r.n2 ∧ rest = j * r.s2 then some (i, j) else none

/-- The register at an address, with its instance. -/
def findIn : List RegRow → Nat → Option (RegRow × Nat × Nat)
  | [], _ => none
  | r :: rs, a =>
    match r.hit a with
    | some (i, j) => some (r, i, j)
    | none => findIn rs a

/-- The register at an address: every address with none is unmapped (R20). -/
def findReg (a : Nat) : Option (RegRow × Nat × Nat) := findIn (rowsAt a) a

/-- The wide register and the part of it (0 for _LO) that lies at an address, with the address of its _LO part. -/
def findWideIn : List WideRow → Nat → Option (WideRow × Nat × Nat)
  | [], _ => none
  | r :: rs, a =>
    let off := a - r.base
    let i := if r.s1 = 0 then 0 else off / r.s1
    let rest := off - i * r.s1
    let j := if r.s2 = 0 then 0 else rest / r.s2
    let p := rest - j * r.s2
    if r.base ≤ a ∧ i < r.n1 ∧ j < r.n2 ∧ p % 4 = 0 ∧ p / 4 < r.parts then some (r, p / 4, a - p)
    else findWideIn rs a

/-- The wide register at an address (R9 to R11). -/
def findWide (a : Nat) : Option (WideRow × Nat × Nat) := findWideIn (wideRowsA ++ wideRowsB) a

end Sys2Proof.Machine
end

