-- ==== Sys2Proof/Machine/State.lean ====
section
/-! DEFINITION. The state of the node as plain data: the register file, the memories, the counters, and for each block the
state the spec gives it beyond its registers; the state after reset; the reasons a command can stop. -/

namespace Sys2Proof.Machine

/-- A sparse table with natural keys, in canonical form: keys strictly rising, and no entry equal to what an unlisted key
reads as. -/
abbrev Table (α : Type) := List (Nat × α)

/-- The read latch of a wide register, by the master that filled it (R9). -/
structure Latch where
  tag : MasterId
  hi : Word
  top : Word
  ext : Word
deriving DecidableEq, Repr

/-- The write stage of a wide register (R10): the parts that are present, and the master that wrote them. -/
structure Stage where
  tag : MasterId
  hi : Option Word
  top : Option Word
deriving DecidableEq, Repr

/-- What the local interconnect last answered. -/
inductive Resp where
  | none
  | ok
  /-- A read's data; poisoned when a word of it was uncorrectable (R176). -/
  | data (v : DWord) (poisoned : Bool)
  | err (r : Reason)
deriving DecidableEq, Repr

/-- A counter: the CAP_ID of its block, its place in that chapter's list, and its instance (R455, R457). -/
structure Ctr where
  cap : Nat
  kind : Nat
  inst : Nat
deriving DecidableEq, Repr

/-- State of node control beyond its registers (chapter 01). -/
structure NodeState where
  /-- RESET_L is low (R32). -/
  resetL : Bool
  /-- The digital die is held by a clock loss (R18). -/
  clkHold : Bool
  /-- The units in unit reset: CAP_ID and instance (R33). -/
  unitReset : List (Nat × Nat)
  /-- Consecutive windows each clock has been within 4 %: FCLK, UCLK, core, bus (R17). -/
  good : Table Nat
  /-- How many open values have been needed so far: the model's own counter, which feeds Config's free values. -/
  freeCount : Nat
  /-- LTICK at which the watchdog's timeout started last (R35). -/
  wdogFrom : Nat
  /-- The TAP's current instruction (R476). -/
  jtag : BitVec 6
deriving DecidableEq, Repr

/-- A notice (R151) in its queue, or waiting to enter it. -/
structure Item where
  cap : Nat
  inst : Nat
  code : Nat
  arg : Nat
  pri : Nat
  lost : Bool
  seq : Nat
  pm : DWord
deriving DecidableEq, Repr

/-- The latch of a popped item (R156): its master, the three parts, and which of them have been read. -/
structure PopLatch where
  tag : MasterId
  w1 : Word
  w2 : Word
  w3 : Word
  read1 : Bool
  read2 : Bool
  read3 : Bool
  /-- The latch holds an item, and not the empty answer of an empty queue. -/
  isItem : Bool
  /-- The item's two 64-bit words that were uncorrectable (R154). -/
  bad : BitVec 2
deriving DecidableEq, Repr

/-- A pigeonhole queue (R152 to R156): items in entry order. The pointers are held twice (R154), as distances from the
queue's base. -/
structure PhQueue where
  items : List Item
  seq : Nat
  lostNext : Bool
  wr : Nat
  wrCopy : Nat
  rd : Nat
  rdCopy : Nat
  latch : Option PopLatch
  /-- A built NOTICE envelope that waits for its release, with whether it is ORDERED (R158, R159). -/
  built : Option Envelope
deriving DecidableEq, Repr

/-- A notice that waits for its source's earlier writes (R157). -/
structure Waiting where
  queue : Nat
  item : Item
deriving DecidableEq, Repr

/-- Notices and the arbiter (chapter 06). -/
structure NoticeState where
  queues : Table PhQueue
  waiting : List Waiting
  /-- Sources with writes on the interconnect that are not yet committed: CAP and INST (R157). -/
  uncommitted : List (Nat × Nat)
  /-- Sources whose next item carries LOST (R157). -/
  srcLost : List (Nat × Nat)
  /-- Notices posted in the present millisecond: CAP, INST and CODE of those limited to one a millisecond. -/
  posted : List (Nat × Nat × Nat)
deriving DecidableEq, Repr

/-- The arbiter's state beyond its registers (R145 to R150). -/
structure ArbState where
  /-- Grants charged to each requester in this window. -/
  charged : Table Nat
  /-- Requesters masked by quota. -/
  masked : List Nat
  /-- Requesters with a request pending. -/
  pendingReq : List Nat
  /-- The requester last granted in each rank. -/
  lastGranted : Table Nat
  /-- The quota and window in force; ARB_QUOTA takes effect at the next window boundary. -/
  quotaInForce : Word
  /-- The requester that holds the interconnect for an access under way. -/
  holder : Option Nat
deriving DecidableEq, Repr

/-- A cell pointer (R206, R208): the slot in which it was handed over, and later the one in which it was released; a dead pointer still
crosses the switch and keeps its number, and is discarded at its output. -/
structure Ptr where
  id : Nat
  cell : Nat
  out : Nat
  cls : Nat
  inp : Nat
  seq : Nat
  slot : Nat
  dead : Bool
deriving DecidableEq, Repr

/-- A cell of an envelope: 1,024 times its logical bank and its place there, and its reference count, 0 once it is freed (R210, R211). -/
structure Cell where
  addr : Nat
  refs : Nat
deriving DecidableEq, Repr

/-- A ring postmark (R254): LTICK of the last FCLK edge, and PH in steps of 100 ps. -/
structure RingMark where
  tick : Nat
  ph : Nat
deriving DecidableEq, Repr

/-- An envelope in the oasis buffer (R210 to R212). -/
structure Stored where
  id : Nat
  env : Envelope
  /-- The input port, 0 to 7. -/
  inp : Nat
  cells : Nat
  /-- The outputs that still hold pointers to its cells. -/
  targets : List Nat
  /-- Handed over for cut-through before its trailer arrived (R216). -/
  cutThrough : Bool
  /-- The whole envelope is in. -/
  whole : Bool
  /-- Its PCRC was stomped or bad (R218). -/
  bad : Bool
  /-- Its cells in order, with their reference counts. -/
  held : List Cell
  /-- Cells handed to the switch so far, and the slot in which cell 0 was (R216). -/
  handed : Nat
  slot : Nat
  /-- By output: the sequence number of its first pointer there (R208), and its cells that have left there. -/
  first : Table Nat
  left : Table Nat
  /-- Its ring postmark of reception (R254). -/
  mark : Option RingMark
deriving DecidableEq, Repr

/-- An envelope that an internal output has delivered to its unit, with its ring postmark (R225, R255). -/
structure Delivered where
  port : Nat
  env : Envelope
  mark : Option RingMark
deriving DecidableEq, Repr

/-- The sorting office (chapter 09). -/
structure OfficeState where
  nextId : Nat
  stored : List Stored
  /-- Waiting pointers of each input, in the order they became ready. -/
  waiting : Table (List Ptr)
  /-- The middle queues: queue j, output o at key 8 * j + o (R207). -/
  middle : Table (List Ptr)
  /-- Next sequence number stamped: input i, output o, class c at key 32 * i + 4 * o + c. -/
  nextSeq : Table Nat
  /-- Next sequence number expected: output o, input i, class c at key 32 * o + 4 * i + c. -/
  expected : Table Nat
  /-- Held pointers with the slot in which they arrived. -/
  held : List (Ptr × Nat)
  /-- Released pointers: output o, class c at key 4 * o + c. -/
  released : Table (List Ptr)
  /-- The envelope in transmission at each output. -/
  sending : Table (Option (Nat × Envelope))
  /-- Starts of Urgent or Management since the waiting Bulk head was last served (R226). -/
  passed : Table Nat
  /-- Envelopes handed to their unit and not yet taken by it. -/
  delivered : List Delivered
  /-- The envelope that left last at each ring output. -/
  gone : Table (Option Envelope)
  /-- The words of the oasis buffer: word w of cell x at key 8 x + w (R210, R230). -/
  words : Table DWord
  /-- Envelopes of the bridge and of the firmware that wait for room, oldest first: the internal port, and the ring port by which one
  leaves without a routing decision (R213). -/
  outbox : List (Nat × Option Nat × Envelope)
deriving DecidableEq, Repr

/-- An envelope in reception: its header has passed (R237). -/
structure Receiving where
  env : Envelope
  /-- Its number in the buffer when it cuts through. -/
  id : Option Nat
  /-- A bad block was taken as one of its words. -/
  bad : Bool
  mark : RingMark
deriving DecidableEq, Repr

/-- A Caravan port's state beyond its registers (chapter 10). -/
structure PortState where
  moduleOk : Bool
  /-- Release counts sent in stamps, by class (R222). -/
  release : Table Nat
  /-- Release counts last received, by class. -/
  credit : Table Nat
  /-- Cells sent since the port entered UP, by class (R222, R240). -/
  sent : Table Nat
  /-- Cells received with a good HCRC since the port entered READY, by class (R240). -/
  received : Table Nat
  sseqTx : Nat
  sseqRx : Option Nat
  sinceAudit : Nat
  hunting : Bool
  /-- An envelope is being received: its header passed and its trailer has not arrived (R237). -/
  receiving : Option Receiving
  /-- A stamp is due that waits for the end of an envelope (R239). -/
  stampDue : Bool
  /-- Returns of credit still to be withheld, by class (R214). -/
  withheld : Table Nat
  /-- The port was brought down to 5.15625 Gbaud under AUTO, and stays there (R249). -/
  downshifted : Bool
  /-- The scrambler's last 58 bits sent, and the control block sent last as it stands on the lane: payload, then the sync header (R235). -/
  scrambler : BitVec 58
  txBlock : BitVec 66
  /-- The TRAIN block that the port sends in SEARCH and TRAIN (R246, R248). -/
  txTrain : DWord
  /-- The ring postmarks of the last envelope received and of the last one started (R254). -/
  rxMark : Option RingMark
  txMark : Option RingMark
  cableEpisode : Bool
  /-- Envelopes by class whose transmission began since the last control block was received in lock (R204). -/
  inTransit : Table Nat
  i2cBusy : Bool
  /-- The STAMP and the AUDIT sent last (R239, R240). -/
  txStamp : DWord
  txAudit : DWord
deriving DecidableEq, Repr

/-- A request held by the inbound half (R172). -/
structure Request where
  env : Envelope
  id : MasterId
deriving DecidableEq, Repr

/-- The inbound request being performed (R173). -/
structure Current where
  env : Envelope
  id : MasterId
  /-- The pieces still to perform: local address and bytes. -/
  pieces : List (Nat × Nat)
  done : Nat
  /-- The bytes read by the applied pieces. -/
  bytes : List Byte
  /-- Poisoned 8-byte words among them. -/
  poison : BitVec 32
  locked : Bool
deriving DecidableEq, Repr

/-- A lock held by a master ID (R179, R180): the page, and the semaphore bound, or none for a locked grant. -/
structure Lock where
  holder : MasterId
  page : Nat
  sem : Option Nat
  env : Envelope
  /-- The LOCK_READ's first piece has been granted: the lock's time runs, and a locked grant stands (R150, R180, R183). -/
  begun : Bool
deriving DecidableEq, Repr

/-- A read-ahead buffer (R186). -/
structure ReadAhead where
  master : MasterId
  addr : Nat
  data : List Byte
  poison : BitVec 8
  /-- The bytes already consumed. -/
  claimed : BitVec 64
  pm : DWord
  used : Nat
deriving DecidableEq, Repr

/-- The state of a non-posted slot (R168). -/
inductive SlotUse where
  | free
  /-- Outstanding: the channel that waits for the answer (none for a write converted under R178), and the request's DST,
  class and kind. -/
  | out (chan : Option Nat) (dst : BitVec 16) (cls : BitVec 2) (kind : BitVec 5)
  | quarantine
deriving DecidableEq, Repr

/-- A non-posted slot: its generation and its use. -/
structure NpSlot where
  gen : Nat
  use : SlotUse
deriving DecidableEq, Repr

/-- An outbound channel beyond its registers (R188). -/
structure Channel where
  /-- The request that waits for a slot or for the sorting office. -/
  waiting : Option Envelope
  /-- The slot of the request in flight. -/
  slot : Option Nat
  ntc : Bool
  /-- The waiting request still needs a non-posted slot (R168). -/
  needSlot : Bool
  /-- The waiting request is a WRITE_P that goes as WRITE_A (R178). -/
  converted : Bool
  /-- Poisoned words of BR_OCn_DATA. -/
  poison : BitVec 64
deriving DecidableEq, Repr

/-- The post office bridge (chapter 07). -/
structure BridgeState where
  inbound : List Request
  current : Option Current
  passed : Nat
  waiters : List Request
  locks : List Lock
  /-- Waiting LOCK_READs to which a release has given their lock, and which have yet to start (R181). -/
  ready : List Request
  buffers : Table (Option ReadAhead)
  useCount : Nat
  lastRead : List (MasterId × Nat)
  np : Table NpSlot
  postedNext : Table Nat
  postedGen : Table Nat
  postedStamp : Table (Option (BitVec 32))
  chan : Table Channel
  /-- What a built NOTICE envelope waits for (R159): per queue, slots with their generation, and channels. -/
  fenceSlots : List (Nat × Nat × Nat)
  fenceChans : List (Nat × Nat)
  /-- Per queue, the channels whose write in another class still waits for its slot (R159). -/
  fenceWait : List (Nat × Nat)
deriving DecidableEq, Repr

/-- The dead-letter office beyond its registers (chapter 08). -/
structure DeadState where
  seq : Nat
  lostNext : Bool
  upSeq : Nat
  upLostNext : Bool
  /-- Dead-letter entries written since node reset. -/
  total : Nat
  /-- Of these, the entries forwarded or skipped (R198). -/
  fwd : Nat
  /-- The unclaimed-prefetch log: the 32 words of each entry written (R199). -/
  upLog : Table (List Word)
deriving DecidableEq, Repr

/-- An independent time base (R286 to R288): its accumulator in units of 2^-32 ns, the INC that it adds, and the INC and the
step that take effect at the next FCLK edge. -/
structure Itb where
  val : Nat
  inc : Nat
  pendInc : Option Nat
  pendStep : Option (Bool × Nat)
  /-- The stretches before each change of INC and each step, the latest first: the FCLK edge that ended a stretch, and the accumulator and
  INC at the edge before it. A postmark of an earlier event reads from them (R286). -/
  past : List (Nat × Nat × Nat)
deriving DecidableEq, Repr

/-- A virtual domain's staged values, and what it does at the next FCLK edge (R291). -/
structure Vd where
  base : Nat
  anchor : Nat
  rate : Nat
  loadNext : Bool
  followNext : Bool
deriving DecidableEq, Repr

/-- Network time on one port (R292 to R296): what was sent and received last, in 2^-16 ns of ITB0. -/
structure NetPort where
  /-- SEQ of the next beacon, and the transmit reading of the last one. -/
  bcnSeq : Nat
  bcnTx : Option Nat
  /-- ITB0 was stepped since the last beacon sent, and since the last one received. -/
  steppedTx : Bool
  steppedRx : Bool
  /-- SEQ of the next probe, and the transmit readings of recent probes by SEQ. -/
  probeSeq : Nat
  t1 : List (Nat × Nat)
  /-- The probe answered last with its receive reading, while its reply has not started; and its TURN once the reply has (R294). -/
  turnRx : Option (Nat × Nat)
  turn : Option (Nat × Nat)
  /-- Receive readings of recent replies by SEQ. -/
  t4 : List (Nat × Nat)
  /-- The latest beacon: its SEQ and receive reading, the LTICK of its arrival, and the position index of its parent. -/
  rx : Option (Nat × Nat)
  rxTick : Nat
  pkey : Option Nat
  /-- The ring postmarks that the port handed over last, of an envelope of P5's kinds received and of one transmitted (R255). -/
  rxMark : Option RingMark
  txMark : Option RingMark
deriving DecidableEq, Repr

/-- The servo of R298: the integral as a fraction, and the count of good samples. -/
structure Servo where
  num : Int
  den : Nat
  good : Nat
deriving DecidableEq, Repr

/-- The time bases (chapter 12). -/
structure TimeState where
  /-- LTICK, modulo 2^64 (R285). -/
  ltick : Nat
  itb : Table Itb
  vd : Table Vd
  /-- Network time per port, and the servo (R292 to R298). -/
  net : Table NetPort
  servo : Servo
  /-- A half of the input image is being sealed, and reads of it are held (R304). -/
  sealing : Bool
deriving DecidableEq, Repr

/-- What a NEIGHBOUR said (R279): the sender's index, the index and the NID last admitted on the link, and its ring. -/
structure Heard where
  index : Nat
  last : Option (Nat × Nat)
  ring : Nat
  epoch : Nat
deriving DecidableEq, Repr

/-- A CENSUS_REPLY's contents (R276): the port it leaves by, index, status and position. -/
structure Reply where
  port : Nat
  index : Nat
  status : Nat
  pos : Nat
  epoch : Nat
deriving DecidableEq, Repr

/-- A COMMIT part received (R277). -/
structure MapPart where
  epoch : Nat
  part : Nat
  words : List DWord
deriving DecidableEq, Repr

/-- Census and routing beyond their registers (chapter 11). -/
structure CensusState where
  /-- The best claim seen in the present election: root priority and NID. -/
  best : Option (Nat × Nat)
  highestEpoch : Nat
  /-- COMMIT parts received. -/
  parts : List MapPart
  /-- At the root: the package ID that holds each position index, and its PAIR (R277, R354). -/
  holders : Table (Option (DWord × Bool))
  /-- The hub last admitted across each port's link: index and NID. -/
  last : Table (Option (Nat × Nat))
  /-- The index that the neighbour on each port has taken, as far as this hub has seen it (R279). -/
  across : Table (Option Nat)
  /-- What the neighbour on each port said: its index, its LASTIDX and LASTNID, the ring it named. -/
  heard : Table (Option Heard)
  /-- The ring that a junction's peer named since TIE entered UP (R281). -/
  peer : Option Nat
  linkSeq : Nat
  /-- This hub is in a numbering wave. -/
  inWave : Bool
  /-- A RENUMBER wave is under way. -/
  renumber : Bool
  /-- A RENUMBER's COMMIT is still to be sent: indexes admitted before it no longer count (R277). -/
  remap : Bool
  /-- The index and status this hub last replied with. -/
  reply : Option Reply
  /-- LINK_EVENTs received and not yet applied by the routing stage (R270). -/
  toApply : List Envelope
deriving DecidableEq, Repr

/-- A pending snapshot mark (R459). -/
structure SnapMark where
  id : Nat
  instant : Nat
deriving DecidableEq, Repr

/-- Where a monitor command line comes from: this hub's own terminal, or a session served for a remote terminal (R467). -/
inductive MonAsker where
  | terminal
  | served (session : BitVec 16) (node : BitVec 16)
deriving DecidableEq, Repr

/-- The reason in a final `err` line (R463): a name of R192, one of the monitor's own, or one that the spec does not name. -/
inductive MonErr where
  | reason (r : Reason)
  | locked | badLine | busy | timeout
  | unstated (v : Byte)
deriving DecidableEq, Repr

/-- The final line of a command (R463): `ok`, `err` with a reason, or a remote target's DONE text. -/
inductive MonResult where
  | ok
  | err (e : MonErr)
  | remote (text : List DWord)
deriving DecidableEq, Repr

/-- A monitor session (R467): at the terminal, or served for a remote terminal. -/
structure Session where
  session : BitVec 16
  node : BitVec 16
  /-- A LINE is outstanding. -/
  busy : Bool
  seq : Nat
deriving DecidableEq, Repr

/-- Counters and the monitor (chapter 19). -/
structure MonState where
  counters : List (Ctr × Nat)
  shadow0 : List (Ctr × Nat)
  shadow1 : List (Ctr × Nat)
  arrays : List (Ctr × Nat)
  marks : List SnapMark
  /-- Unlocked by a token (R464). -/
  tokenUnlocked : Bool
  /-- The nonce of R464 that waits for its token. -/
  nonce : Option DWord
  failsInRow : Nat
  lockedOut : Bool
  terminal : List Session
  served : List Session
  /-- The session the terminal's commands go to; none for the own node. -/
  current : Option (BitVec 16)
  /-- The command under way (R463, R465). -/
  active : Option MonAsker
  /-- What the terminal's last command has printed, and its final line. -/
  printed : List DWord
  result : Option MonResult
  /-- The number that the next session opened here gets. -/
  nextSession : Nat
  /-- A copy of the array counters is under way (R461). -/
  arrBusy : Bool
deriving DecidableEq, Repr

/-- The stage of an access table (R444). -/
structure AtStage where
  tag : MasterId
  entry : Nat
  w1 : Option Word
  w2 : Option Word
deriving DecidableEq, Repr

/-- Access tables, key stage and fuses beyond their registers (chapter 18). -/
structure TableState where
  stages : Table (Option AtStage)
  keyStage : Table Word
  /-- The fuse command under way: it programs (or revokes), and its slot. -/
  fuse : Option (Bool × Nat)
deriving DecidableEq, Repr

/-- A boot header (R415). -/
structure BootHeader where
  seq : Nat
  active : Nat
  /-- 0 CONFIRMED, 1 TRIAL. -/
  state : Nat
  tries : Nat
  /-- 0 EMPTY, 1 VALID, 2 REJECTED. -/
  slotA : Nat
  slotB : Nat
  imgA : Nat
  imgB : Nat
deriving DecidableEq, Repr

/-- Who sent a FOLIO, for its answer (R433, R440): the port it arrived on, or none for the monitor UART. -/
structure Asker where
  port : Option Nat
  src : BitVec 16
  tag : BitVec 12
  addr : BitVec 48
deriving DecidableEq, Repr

/-- An update session as the journal holds it (R435 to R437). -/
structure UpdSession where
  num : Nat
  header : List Byte
  /-- Slot blocks of 64 KiB that are erased. -/
  erased : List Nat
  /-- Body folios written. -/
  done : List Nat
  /-- 1 RECEIVING, 2 VERIFYING, 3 COMPLETE, 4 FAILED. -/
  st : Nat
deriving DecidableEq, Repr

/-- An assembly buffer (R436): a folio, its parts so far, and the sender of the latest one. -/
structure Assembly where
  folio : Nat
  parts : List (Nat × List DWord)
  asker : Asker
deriving DecidableEq, Repr

/-- A persistent record (R427, R428): its SEQ and its data, words or counter bases. -/
structure PersistRec where
  seq : Nat
  words : List Word
  ctrs : List (Ctr × Nat)
deriving DecidableEq, Repr

/-- A handover under way (R438, R439): the header that it writes first, and whether the management core has been handed over. -/
structure Handover where
  header : BootHeader
  started : Bool
deriving DecidableEq, Repr

/-- The apply of the manifest (R423): the index of the next record, the PERSIST and NODECFG records so far, and whether it is over:
ended, failed, or not begun. -/
structure Apply where
  index : Nat
  persists : Nat
  configs : Nat
  ended : Bool
deriving DecidableEq, Repr

/-- The line that the ROM last sent on MON_TX (R422, R440): the FLASH? line, NAK, or an acknowledgement's six words. -/
inductive RomLine where
  | none
  | flash
  | nak
  | ack (ws : List DWord)
deriving DecidableEq, Repr

/-- The update agent and the boot beyond their registers (chapter 17). -/
structure UpdState where
  /-- The key slot of the running image. -/
  keySlot : Nat
  /-- The ROM has run since reset, and it is in recovery (R440). -/
  booted : Bool
  recovery : Bool
  /-- The flash journal: the session, and the last SESSION number used. -/
  session : Option UpdSession
  lastNum : Nat
  bufs : List Assembly
  /-- The sender of the part that completed the image, who is told the outcome of the verification. -/
  last : Option Asker
  /-- Persistent node data in flash, by kind (0 census binding, 1 energy checkpoint, 2 counter bases), and the last SEQ. -/
  persist : Table (Option PersistRec)
  persistSeq : Nat
  /-- Records that wait for a token or for the end of a flash hold, in order (R429, R430). -/
  persistWait : List (Nat × PersistRec)
  /-- The firmware's own tables of counter bases (R427). -/
  bases : List (Ctr × Nat)
  /-- A boot header, and the end of a session, that wait for the end of a flash hold (R430). -/
  headerWait : Option BootHeader
  abortWait : Bool
  /-- LTICK at the start of the trial (R439). -/
  trialFrom : Nat
  handover : Option Handover
  apply : Apply
  line : RomLine
deriving DecidableEq, Repr

/-- A track position latched by a CAPT pin, pending acceptance (R46, R329): position, velocity, the ITB0 reading of the latch
edge in 2^-16 ns, and the track's state. -/
structure CapLatch where
  track : Nat
  pos : Nat
  vel : Nat
  edge : Nat
  state : Nat
deriving DecidableEq, Repr

/-- An edge episode of a discrete input (R43): the readings of its first transition in ITB0, in the bank's domain and in the
notice queue's domain, in whole nanoseconds, and the latched track value. -/
structure Episode where
  itb : DWord
  vd : DWord
  ntc : DWord
  latch : Option CapLatch
deriving DecidableEq, Repr

/-- The waymark actions that reached a pin in one UCLK cycle (R48): the cycle, the pin's value before it, and in ascending entry index
each action's level, none for an inversion. -/
structure PinActs where
  cycle : Nat
  base : Bool
  acts : List (Nat × Option Bool)
deriving DecidableEq, Repr

/-- A pin cell beyond its registers (chapter 02). -/
structure Pin where
  /-- The level on the net as the receiver last sampled it, without INV. -/
  net : Bool
  episode : Option Episode
  /-- The level that the pin's own sampler accepted last; PIN_STAT.LEVEL is the level in force (R43, R362). -/
  own : Bool
  /-- In a standby: accepted edges that wait for the partner's level, with the step in which each was accepted (R362). -/
  held : List (Bool × Episode × Nat)
  /-- What a WOUT pin's actions have made of it: none while its driver is high impedance (R48). -/
  wout : Option Bool
  /-- The value a mapped DOUT pin drives (R49, R54). -/
  mapped : Bool
  /-- The owning unit has left unit reset and has not yet acted on its pins (R41). -/
  quiet : Bool
  /-- The waymark actions of the UCLK cycle in which one last reached the pin (R48). -/
  acted : Option PinActs
deriving DecidableEq, Repr

/-- A capture record (R44). -/
structure CapRec where
  pm : DWord
  pin : Nat
  rising : Bool
  lost : Bool
deriving DecidableEq, Repr

/-- A bank beyond its registers. -/
structure Bank where
  caps : List CapRec
  lostNext : Bool
  /-- The strap has been sampled since cold start (R51). -/
  strapped : Bool
  /-- The bank's VDDIO has been measured as valid since cold start (R51, R478). -/
  valid : Bool
deriving DecidableEq, Repr

/-- A track beyond its registers (chapter 13). Positions are 64-bit 48.16 values, velocities 64-bit 16.48 values, instants
80-bit ITB0 readings in 2^-16 ns. -/
structure Track where
  pos : Nat
  vel : Nat
  t : Nat
  /-- The steps of the velocity window, newest first: position and instant (R319). -/
  window : List (Nat × Nat)
  /-- The size of the last step (R319). -/
  lastStep : Nat
  /-- The last raw value of a Scribe or bus-field source (R317). -/
  raw : Option Nat
  /-- The applied sample: POS, VEL and T (R327). -/
  sample : Option (Nat × Nat × Nat)
  /-- SEQ last accepted, none since reset; the sample was marked STALE or UNSYNC; LTICK of its arrival (R321, R326). -/
  seqIn : Option Nat
  badSample : Bool
  rxTick : Nat
  /-- Samples were discarded unapplied since the track left STALE or HELD: the next one is a judged jump (R327). -/
  firstAfter : Bool
  /-- SEQ of the next sample sent; a jump since the last one (R324). -/
  seqOut : Nat
  jumped : Bool
deriving DecidableEq, Repr

/-- An armed waymark entry as the scheduler took it up (R333, R334). -/
structure WmEntry where
  pos : Nat
  ctl : Nat
  period : Nat
  /-- The sign of d at the previous evaluated edge. -/
  side : Int
  /-- Taken up and not yet judged (R335). -/
  fresh : Bool
  /-- Its crossing is in the firing queue. -/
  queued : Bool
deriving DecidableEq, Repr

/-- A crossing in the firing queue (R336): the entry and its track, the crossing edge as a postmark in ITB0 and in each virtual domain
and as LTICK, the track's position there, whether the firing is late, and the direction of the crossing. -/
structure Firing where
  entry : Nat
  track : Nat
  pm : DWord
  pms : List DWord
  tick : Nat
  pos : Nat
  late : Bool
  forward : Bool
deriving DecidableEq, Repr

/-- A pulse timer (R345): the pins that still wait for the end, the level driven at the end, and the UCLK edge of the end. -/
structure Pulse where
  bank : Nat
  mask : Nat
  level : Bool
  due : Nat
deriving DecidableEq, Repr

/-- An emit that waits for channel 3 (R347). -/
structure Emit where
  template : Nat
  data : Nat
  entry : Nat
  track : Nat
  pm : DWord
deriving DecidableEq, Repr

/-- Tracks and waymarks (chapter 13). -/
structure TrackState where
  tracks : Table Track
  entries : Table (Option WmEntry)
  queue : List Firing
  /-- Firing was enabled at the last evaluation (R342). -/
  firing : Bool
  pulses : Table (Option Pulse)
  emits : List Emit
  caps : List (DWord × DWord)
  capLost : Bool
  /-- LTICK of the last write of each gateway map entry's value (R316). -/
  busWritten : Table (Option Nat)
  /-- Capture records whose image copy waits for the interconnect, each with its byte offset (R349). -/
  copies : List (Nat × DWord × DWord)
  /-- The tracks whose crossings were selected in the UCLK cycle given (R336). -/
  chosen : Nat × List Nat
  /-- The words of the waymark RAM that masters wrote in the UCLK cycle given (R331). -/
  stored : Nat × List Nat
  /-- Samples that wait for pool room: track, envelope, and LTICK of the sample edge (R325). -/
  samples : List (Nat × Envelope × Nat)
deriving DecidableEq, Repr

/-- A received UART character with its flags (R126, R128). -/
structure UartChar where
  data : Nat
  perr : Bool
  ferr : Bool
  brk : Bool
  gap : Bool
deriving DecidableEq, Repr

/-- A closed UART frame (R131): its stored bytes, whether it was longer, and whether a character was bad. -/
structure UartFrame where
  bytes : List Nat
  trunc : Bool
  err : Bool
deriving DecidableEq, Repr

/-- A UART beyond its registers (chapter 05). -/
structure Uart where
  tx : List Nat
  rx : List UartChar
  /-- The character being sent. -/
  sending : Option Nat
  /-- Characters received, modulo 16 (R360). -/
  count : Nat
  /-- A received character is in progress: its start bit is confirmed (R130). -/
  inChar : Bool
  /-- The next start bit is the first after a gap or after enable (R128). -/
  afterGap : Bool
  overrun : Bool
  /-- Characters sent whose echo has not come back (R130). -/
  echo : List Nat
  /-- Image mode: the frame being gathered, the latest closed one, frames closed since the boundary, and the sequence number. -/
  gather : UartFrame
  frame : UartFrame
  closed : Nat
  seq : Nat
  /-- After a break: the instant, in ps, from which the line may have been high; no character is taken until one bit time later (R126). -/
  broke : Option Nat
deriving DecidableEq, Repr

/-- An encoder beyond its registers: the count that its own sampling has reached, and in a standby the count applied last
(R134, R362). -/
structure Enc where
  own : Nat
  applied : Option Nat
  /-- The own count at the last step edge, and at the edge of the partner's values applied last. -/
  edge : Nat
  base : Nat
  /-- The nanoseconds of ITB0 of the last count (R360). -/
  last : Nat
deriving DecidableEq, Repr

/-- A mains-phase input beyond its registers (R137 to R140): the phase in 2^-48 cycle and the whole cycles at LTICK `at0`,
the runs of R139, the edge that sets the phase, and the LTICK of the last accepted edge. -/
structure Mains where
  phase : Nat
  cyc : Nat
  at0 : Nat
  good : Nat
  bad : Nat
  first : Bool
  lastEdge : Option Nat
  /-- The integrator of the loop's filter, in 2^-48 Hz (R137). -/
  integ : Int
deriving DecidableEq, Repr

/-- Field pins, banks and the fixed serial units. -/
structure FieldState where
  pins : Table Pin
  banks : Table Bank
  uarts : Table Uart
  mains : Table Mains
  encs : Table Enc
  /-- A cycle boundary has passed in NORMAL, and SAFE no longer applies to mapped DOUT and WOUT pins (R52). -/
  live : Bool
deriving DecidableEq, Repr

/-- The instruction latch of a Scribe engine (R57, R66): the word, the address it was fetched from, whether it was injected,
the loop window in force at its fetch, the level that a WAIT EDGE read last, and once it has completed the delay clocks left. -/
structure Latched where
  word : BitVec 16
  addr : Nat
  injected : Bool
  loopFrom : Nat
  loopTo : Nat
  edge : Option Bool
  /-- None while the instruction has not completed. -/
  delay : Option Nat
deriving DecidableEq, Repr

/-- A setting of an engine's clock divider: the UCLK cycle from which it holds, which is its phase origin, NUM and DEN, and the clocks
that the engine had before it (R64). -/
structure ClockSet where
  cycle : Nat
  num : Nat
  den : Nat
  before : Nat
deriving DecidableEq, Repr

/-- The changes of a cluster's flags in one UCLK cycle: the flags at its start, and the masks toggled, lowered and raised in it (R96). -/
structure FlagCycle where
  cycle : Nat
  start : Nat
  toggled : Nat
  lowered : Nat
  raised : Nat
deriving DecidableEq, Repr

/-- A Scribe engine beyond its registers (R57). -/
structure Engine where
  /-- TX words with their poison mark (R91). -/
  tx : List (Word × Bool)
  rx : List Word
  inj : Option (BitVec 16)
  latched : Option Latched
  /-- SCR_CTL.STEP runs one instruction (R68). -/
  stepping : Bool
  /-- The settings of the clock divider, the latest first; none before the first write since reset (R64). -/
  clocks : List ClockSet
  /-- The number of the last clock in which the engine executed or counted delay (R64, R66). -/
  lastMark : Nat
  /-- The TX record being read: word offset and words (R93). -/
  txOut : Option (Nat × Nat)
  /-- The RX record being written: word offset and words with their poison (R95, R497). -/
  rxOut : Option (Nat × List (Word × Bool))
deriving DecidableEq, Repr

/-- The Scribe clusters: engines 0 to 63, and word i of cluster k's program store at key 32 * k + i (R56, R85). -/
structure ScribeState where
  engines : Table Engine
  store : Table (BitVec 16)
  /-- The present UCLK cycle's changes of each cluster's flags (R96). -/
  flags : Table (Option FlagCycle)
deriving DecidableEq, Repr

/-- A frame in a controller's transmit buffer (R109): its object, the frame, and whether it is not to be sent again (R110, R111). -/
structure TxFrame where
  obj : Nat
  frame : BusFrame
  single : Bool
deriving DecidableEq, Repr

/-- A message-bus controller beyond its registers (chapter 04). -/
structure Mb where
  /-- LOST of each object (R106). -/
  lost : Table Bool
  /-- The frame being sent. -/
  tx : Option TxFrame
  /-- Retransmissions so far of each object's request (R111). -/
  retries : Table Nat
  /-- INIT is to be set at the end of the present frame (R101). -/
  initAtEnd : Bool
  /-- A protocol exception event: out of the frame until 11 recessive bits (R99). -/
  away : Bool
  /-- The error counters, without the saturation of MB_STAT (R112). -/
  tecFull : Nat
  recFull : Nat
  /-- The reference mark, in bus clocks of local time (R114). -/
  mark : Option Nat
  /-- An S1 event fell in this basic cycle (R116). -/
  s1 : Bool
  /-- Triggers whose object has stored a frame since they fired last (R115). -/
  seen : Table Bool
  /-- The object of a standing arbitrating window (R115). -/
  arb : Option Nat
  /-- Cycle starts requested by this master so far: the k of R114. -/
  starts : Nat
  /-- The triggers below this one have been walked in the present basic cycle (R115). -/
  walked : Nat
deriving DecidableEq, Repr

/-- The message buses and the gateway (chapter 04). -/
structure BusState where
  mbs : Table Mb
  /-- Bursts that wait: controller, object and the frame's start in ITB0 (R119, R317). -/
  bursts : List (Nat × Nat × Nat)
  /-- Objects, 128 * controller + n, with a frame in the present input half (R119). -/
  landed : List Nat
  /-- A cycle boundary's transmit objects wait to be updated (R120). -/
  toBus : Bool
deriving DecidableEq, Repr

/-- The duplex unit beyond its registers (chapter 14). -/
structure DuplexState where
  /-- SEQ of the next HEALTH report (R370). -/
  healthSeq : Nat
  /-- Envelopes originated since node reset, suppressed ones included (R360). -/
  envelopes : Nat
  /-- The standby's offsets of NFIRE and NENV (R363). -/
  fireOfs : Nat
  envOfs : Nat
  /-- The STEP received last: its step number, and its payload, kept for the next edge. -/
  partner : Option (Nat × List DWord)
  /-- The receive reading of the STEP received last, with its step number (R358). -/
  rxStep : Option (Nat × Nat)
  /-- The transmit reading of the STEP sent last. -/
  txStep : Option Nat
  /-- The payloads of this hub's latest STEPs, newest first, by step number. -/
  own : List (Nat × List DWord)
  missing : Nat
  /-- Consecutive divergences by domain: 0 intent, 0x10 + k cluster, 0x20 + u UART (R363). -/
  diverged : Table Nat
  /-- STATE envelopes kept, with the step at which each is loaded, and cluster states to capture, with their step (R364). -/
  loads : List (Nat × List DWord)
  captures : List (Nat × Nat)
  /-- The mains-phase values applied from the partner: source value and state (R362). -/
  mp : Table (Option (Nat × Nat))
  /-- The ITB3 nanosecond at which PEER first read low, and a take-over from a FAULTED partner whose gap is still open (R369). -/
  gapStart : Option Nat
  tookOver : Bool
  /-- An ACTIVE hub originates from the first step edge after its claim (R369). -/
  speaking : Bool
  /-- Partner messages that wait for room: TYPE, envelope, and LTICK of their step edge or event (R359). -/
  waiting : List (Nat × Envelope × Nat)
deriving DecidableEq, Repr

/-- Memory integrity and BIST beyond their registers (chapter 16). -/
structure IntegrityState where
  /-- Classes whose bucket notice waits for the level to fall (R399). -/
  reported : Table Bool
  /-- The scrubber: the next word of each class, the LTICK at which its lap started, and a corrected word to write back (R400). -/
  scrubAt : Table Nat
  lapFrom : Table Nat
  writeBack : Table (Option Nat)
  /-- The target under test (R404), whether it is a target of the standby's self-test (R371), and a command that waits for that
  target to end. -/
  test : Option Nat
  selfTest : Bool
  queued : Option Nat
  /-- The segment that the scratch serves: during its test, and after it failed (R407). -/
  segment : Option Nat
  /-- The bank that drains for a test without a spare, and whether it has gone offline; the cells that this took from each Bulk
  reservation (R214, R405). -/
  draining : Bool
  offline : Bool
  bulkCut : Nat
  /-- The bank that the spare serves, and the retired banks (R405). -/
  spareFor : Option Nat
  retired : List Nat
  /-- Small-table words, by register address, whose stored parity is wrong: they read poisoned until they are rewritten (R398). -/
  badWords : List Nat
  /-- Program-store addresses of the parity errors since node reset, each at most three times (R401). -/
  storeErrors : List Nat
deriving DecidableEq, Repr

/-- The stage of a timetable bank (R309): its tag and the words present. -/
structure TtStage where
  tag : MasterId
  entry : Nat
  w1 : Option Word
  w2 : Option Word
  w3 : Option Word
deriving DecidableEq, Repr

/-- A commit that waits for the handover of its entry (R312). -/
structure TtLatch where
  bank : Nat
  entry : Nat
  w0 : Word
  w1 : Word
  w2 : Word
  w3 : Word
deriving DecidableEq, Repr

/-- The timetable beyond its registers (chapter 12). -/
structure TtState where
  stages : Table (Option TtStage)
  latch : Option TtLatch
  /-- The number of the next boundary (R301). -/
  next : Nat
  /-- ITB0's nanoseconds at the last boundary edge. -/
  edge : Nat
  /-- The walk of this cycle: the next index, 256 when it has ended, and entries whose start had passed when they were
  committed (R310, R312). -/
  walk : Nat
  skip : List Nat
  /-- The entry in transmission, with its bank (R312). -/
  sending : Option (Nat × Nat)
  /-- The wait of the next entry for pool room is counted (R310). -/
  waited : Bool
  /-- Receive windows written in this cycle (R313). -/
  written : List Nat
  /-- A boundary has occurred since the cycle was last configured, and the tracks sampled in its cycle (R301, R323). -/
  cycling : Bool
  published : List Nat
deriving DecidableEq, Repr

/-- The samples of a meter channel in the present millisecond (R388): how many, and the sums of its two readings and of their
products, with the node bus's for the feeds. -/
structure MeterSum where
  n : Nat
  x : Nat
  y : Nat
  xy : Nat
  z : Nat
deriving DecidableEq, Repr

/-- The power die beyond its registers (chapter 15). Channel 0 is the field rail and channel 1 + n zone n. -/
structure PowerState where
  /-- The power die holds the digital die in reset (R376, R377). -/
  hold : Bool
  /-- Regulators that have reached 95 % since cold start, 0 to 4; 5 when the digital die has been released (R376). -/
  ready : Nat
  /-- The strap balls' levels (R474). -/
  straps : Straps
  /-- Both feed gates are held low after a collapse (R378). -/
  gatesLow : Bool
  /-- Rails outside their windows now: bit 0 3.3 V, 1 1.8 V, 2 0.8 V, 3 0.9 V (R378). -/
  outside : BitVec 4
  /-- Channels that have used a retry since their retries were last restored (R384). -/
  retried : Table Bool
  /-- The sensor that tripped a channel which is in COOL with cause THERM: 1 the die's, 2 the zone's own (R379, R387). -/
  therm : Table Nat
  /-- The die has reached 135 degrees and has not fallen below 120 since; a zone's sensor 160 and 140 (R379, R387): channel 0
  the die, 1 + n zone n. -/
  hot : Table Bool
  sums : Table MeterSum
  /-- VIN has risen above 42.0 V and has not fallen below 41.5 V since (R374). -/
  overVin : Bool
deriving DecidableEq, Repr

/-- The state of the node. -/
structure State where
  /-- The commands that wait, first in, first out. -/
  pending : List Instr
  /-- Every register of the node by its local address; a register not listed holds its reset value. -/
  regs : Table Word
  /-- Read latches and write stages of the wide registers, by the address of the _LO part (R9, R10). -/
  latches : Table (Option Latch)
  stages : Table (Option Stage)
  /-- Memory bytes (R19): the images, the message RAM, the waymark RAM and the flash. -/
  mem : List Host.Cell
  /-- Poisoned 8-byte words of the memories, by address divided by 8 (R396). -/
  poison : Table Bool
  /-- What the interconnect last answered. -/
  resp : Resp
  node : NodeState
  notices : NoticeState
  arb : ArbState
  office : OfficeState
  ports : Table PortState
  bridge : BridgeState
  dead : DeadState
  census : CensusState
  mon : MonState
  time : TimeState
  tables : TableState
  upd : UpdState
  field : FieldState
  tracks : TrackState
  scribe : ScribeState
  buses : BusState
  duplex : DuplexState
  integrity : IntegrityState
  tt : TtState
  power : PowerState
deriving DecidableEq, Repr

/-- Why the node stops with a fault. No command of this model raises one: what the spec calls an error is an answer, a flag
or a notice. -/
inductive Fault where
  /-- Raised by no command: a state that the spec excludes (safe). -/
  | excluded (why : String)
deriving DecidableEq, Repr

/-- Why a command is refused by the model. -/
inductive Refusal where
  /-- Raised by a dispatcher arm whose command has no meaning yet; every command has one (safe). -/
  | notModelled (mnemonic : String)
deriving DecidableEq, Repr

/-- An empty pigeonhole queue. -/
def PhQueue.empty : PhQueue :=
  { items := [], seq := 0, lostNext := false, wr := 0, wrCopy := 0, rd := 0, rdCopy := 0, latch := none, built := none }

/-- A Caravan port after reset. -/
def PortState.reset : PortState :=
  { moduleOk := false, release := [], credit := [], sent := [], received := [], sseqTx := 0, sseqRx := none, sinceAudit := 0,
    hunting := false, receiving := none, stampDue := false, withheld := [], downshifted := false, scrambler := 0, txBlock := 0, txTrain := 0,
    rxMark := none, txMark := none, cableEpisode := false, inTransit := [], i2cBusy := false, txStamp := 0, txAudit := 0 }

/-- A non-posted slot after reset (R168). -/
def NpSlot.reset : NpSlot := { gen := 0, use := .free }

/-- An outbound channel after reset (R188). -/
def Channel.reset : Channel := 
  { waiting := none, slot := none, ntc := false, needSlot := false, converted := false, poison := 0 }

/-- A time base after reset: held at 0, with the nominal INC 0x03_3333_3333 (R286). -/
def Itb.reset : Itb := { val := 0, inc := 0x0333333333, pendInc := none, pendStep := none, past := [] }

/-- A port's network-time state after reset. -/
def NetPort.reset : NetPort :=
  { bcnSeq := 0, bcnTx := none, steppedTx := false, steppedRx := false, probeSeq := 0, t1 := [], turnRx := none, turn := none, t4 := [],
    rx := none, rxTick := 0, pkey := none, rxMark := none, txMark := none }

/-- A virtual domain after reset (R290). -/
def Vd.reset : Vd := { base := 0, anchor := 0, rate := 0x033333333333, loadNext := false, followNext := false }
/-- Node control after reset. -/
def NodeState.reset : NodeState :=
  { resetL := false, clkHold := false, unitReset := [], good := [], freeCount := 0, wdogFrom := 0, jtag := 2 }

/-- Notices after reset. -/
def NoticeState.reset : NoticeState := { queues := [], waiting := [], uncommitted := [], srcLost := [], posted := [] }

/-- The arbiter after reset. -/
def ArbState.reset : ArbState :=
  { charged := [], masked := [], pendingReq := [], lastGranted := [], quotaInForce := 0x03FF0040, holder := none }

/-- The sorting office after reset: every cell free. -/
def OfficeState.reset : OfficeState :=
  { nextId := 0, stored := [], waiting := [], middle := [], nextSeq := [], expected := [], held := [], released := [],
    sending := [], passed := [], delivered := [], gone := [], words := [], outbox := [] }

/-- The bridge after reset. -/
def BridgeState.reset : BridgeState :=
  { inbound := [], current := none, passed := 0, waiters := [], locks := [], ready := [], buffers := [], useCount := 0, lastRead := [],
    np := [], postedNext := [], postedGen := [], postedStamp := [], chan := [],
    fenceSlots := [], fenceChans := [], fenceWait := [] }

/-- The dead-letter office after reset. -/
def DeadState.reset : DeadState := { seq := 0, lostNext := false, upSeq := 0, upLostNext := false, total := 0, fwd := 0, upLog := [] }

/-- Census after reset. -/
def CensusState.reset : CensusState :=
  { best := none, highestEpoch := 0, parts := [], holders := [], last := [], across := [], heard := [], peer := none, linkSeq := 0,
    inWave := false, renumber := false, remap := false, reply := none, toApply := [] }

/-- Counters and monitor after reset. -/
def MonState.reset : MonState :=
  { counters := [], shadow0 := [], shadow1 := [], arrays := [], marks := [], tokenUnlocked := false, nonce := none,
    failsInRow := 0, lockedOut := false, terminal := [], served := [], current := none, active := none, printed := [], result := none,
    nextSession := 0, arrBusy := false }

/-- The time bases after reset. -/
def TimeState.reset : TimeState :=
  { ltick := 0, itb := [], vd := [], net := [], servo := { num := 0, den := 1, good := 0 }, sealing := false }

/-- Access tables and fuses after reset. -/
def TableState.reset : TableState := { stages := [], keyStage := [], fuse := none }

/-- The update agent after reset. -/
def UpdState.reset : UpdState :=
  { keySlot := 0, booted := false, recovery := false, session := none, lastNum := 0, bufs := [], last := none, persist := [],
    persistSeq := 0, persistWait := [], bases := [], headerWait := none, abortWait := false, trialFrom := 0, handover := none,
    apply := { index := 0, persists := 0, configs := 0, ended := true }, line := .none }

/-- A pin after cold start: high impedance, nothing latched. -/
def Pin.reset : Pin := { net := false, episode := none, own := false, held := [], wout := none, mapped := false, quiet := false, acted := none }

/-- A bank after reset. -/
def Bank.reset : Bank := { caps := [], lostNext := false, strapped := false, valid := false }

/-- A track after reset (R322). -/
def Track.reset : Track :=
  { pos := 0, vel := 0, t := 0, window := [], lastStep := 0, raw := none, sample := none, seqIn := none, badSample := false,
    rxTick := 0, firstAfter := true, seqOut := 0, jumped := false }

/-- A UART after reset. -/
def Uart.reset : Uart :=
  { tx := [], rx := [], sending := none, count := 0, inChar := false, afterGap := false, overrun := false, echo := [],
    gather := { bytes := [], trunc := false, err := false }, frame := { bytes := [], trunc := false, err := false },
    closed := 0, seq := 0, broke := none }

/-- A mains-phase input after reset. -/
def Mains.reset : Mains := { phase := 0, cyc := 0, at0 := 0, good := 0, bad := 0, first := true, lastEdge := none, integ := 0 }

/-- An encoder after reset. -/
def Enc.reset : Enc := { own := 0, applied := none, edge := 0, base := 0, last := 0 }

/-- The field side after reset. -/
def FieldState.reset : FieldState := { pins := [], banks := [], uarts := [], mains := [], encs := [], live := false }

/-- Tracks and waymarks after reset. -/
def TrackState.reset : TrackState :=
  { tracks := [], entries := [], queue := [], firing := false, pulses := [], emits := [], caps := [], capLost := false,
    busWritten := [], copies := [], chosen := (0, []), stored := (0, []), samples := [] }

/-- An engine after reset (R57). -/
def Engine.reset : Engine :=
  { tx := [], rx := [], inj := none, latched := none, stepping := false, clocks := [], lastMark := 0, txOut := none, rxOut := none }

/-- The clusters after reset. -/
def ScribeState.reset : ScribeState := { engines := [], store := [], flags := [] }

/-- A message-bus controller after reset (R102). -/
def Mb.reset : Mb :=
  { lost := [], tx := none, retries := [], initAtEnd := false, away := false, tecFull := 0, recFull := 0, mark := none, s1 := false,
    seen := [], arb := none, starts := 0, walked := 0 }

/-- The message buses after reset. -/
def BusState.reset : BusState := { mbs := [], bursts := [], landed := [], toBus := false }

/-- The duplex unit after reset. -/
def DuplexState.reset : DuplexState :=
  { healthSeq := 0, envelopes := 0, fireOfs := 0, envOfs := 0, partner := none, rxStep := none, txStep := none, own := [],
    missing := 0, diverged := [], loads := [], captures := [], mp := [], gapStart := none, tookOver := false, speaking := false, waiting := [] }

/-- Memory integrity and BIST after reset. -/
def IntegrityState.reset : IntegrityState :=
  { reported := [], scrubAt := [], lapFrom := [], writeBack := [], test := none, selfTest := false, queued := none, segment := none,
    draining := false, offline := false, bulkCut := 0, spareFor := none, retired := [], badWords := [], storeErrors := [] }

/-- The timetable after reset. -/
def TtState.reset : TtState :=
  { stages := [], latch := none, next := 0, edge := 0, walk := 256, skip := [], sending := none, waited := false, written := [],
    cycling := false, published := [] }

/-- A meter channel's sums at the start of a millisecond. -/
def MeterSum.zero : MeterSum := { n := 0, x := 0, y := 0, xy := 0, z := 0 }

/-- The straps left open: every ball low (R474). -/
def Straps.low : Straps := { bootMode := 0, rootElig := false, role := false, fldAuto := false }

/-- The power die after cold start, with the digital die released. -/
def PowerState.reset : PowerState :=
  { hold := false, ready := 5, straps := Straps.low, gatesLow := false, outside := 0, retried := [], therm := [], hot := [],
    sums := [], overVin := false }

/-- The node right after cold start: every register at its reset value, memory zero, nothing queued. -/
def State.reset : State :=
  { pending := [], regs := [], latches := [], stages := [], mem := [], poison := [], resp := .none,
    node := NodeState.reset, notices := NoticeState.reset, arb := ArbState.reset, office := OfficeState.reset, ports := [],
    bridge := BridgeState.reset, dead := DeadState.reset, census := CensusState.reset, mon := MonState.reset,
    time := TimeState.reset, tables := TableState.reset, upd := UpdState.reset,
    field := FieldState.reset, tracks := TrackState.reset,
    scribe := ScribeState.reset,
    buses := BusState.reset, duplex := DuplexState.reset,
    integrity := IntegrityState.reset,
    tt := TtState.reset,
    power := PowerState.reset }


end Sys2Proof.Machine
end

