-- ==== Sys2Proof/Machine/Ops.lean ====
section
/-! DEFINITION. The named operations over the node's state: sparse tables, register fields, counters, memory bytes and
poison, the readings of the time bases, and notices on their way to a queue. -/

namespace Sys2Proof.Machine

/-! Sparse tables in canonical form. -/

/-- The entry of a table at a key. -/
def tabLookup {α : Type} : Table α → Nat → Option α
  | [], _ => none
  | (k, v) :: t, n => if k = n then some v else tabLookup t n

/-- A table without the entry at a key. -/
def tabErase {α : Type} (t : Table α) (n : Nat) : Table α := t.filter (fun e => e.1 ≠ n)

/-- A table with an entry put at its place. -/
def tabInsert {α : Type} : Table α → Nat → α → Table α
  | [], n, v => [(n, v)]
  | (k, w) :: t, n, v =>
    if n < k then (n, v) :: (k, w) :: t
    else if n = k then (n, v) :: t
    else (k, w) :: tabInsert t n v

/-- What a key reads as: its entry, or the default of a key that is not listed. -/
def tabGet {α : Type} (d : Nat → α) (t : Table α) (n : Nat) : α := (tabLookup t n).getD (d n)

/-- A table after a write: writing a key's default removes its entry. -/
def tabSet {α : Type} [DecidableEq α] (d : Nat → α) (t : Table α) (n : Nat) (v : α) : Table α :=
  if v = d n then tabErase t n else tabInsert (tabErase t n) n v

/-- The keys of a table rise strictly from a bound. -/
def risingFrom {α : Type} : Nat → Table α → Bool
  | _, [] => true
  | b, (k, _) :: t => decide (b ≤ k) && risingFrom (k + 1) t

/-- The canonical form: keys strictly rising, and no entry equal to what an unlisted key reads as. -/
def tabWf {α : Type} [DecidableEq α] (d : Nat → α) (t : Table α) : Bool :=
  risingFrom 0 t && t.all (fun e => decide (e.2 ≠ d e.1))

/-! Registers. -/

/-- A field's value in a register word. -/
def Fld.get (f : Fld) (w : Word) : Nat := bitsOf w.toNat f.lo f.width

/-- The bits of a register word that a field covers. -/
def Fld.mask (f : Fld) : Word := BitVec.ofNat 32 ((2 ^ f.width - 1) * 2 ^ f.lo)

/-- A register word with a field replaced. -/
def Fld.put (f : Fld) (w : Word) (v : Nat) : Word :=
  (w &&& ~~~f.mask) ||| (BitVec.ofNat 32 (v * 2 ^ f.lo) &&& f.mask)

/-- The bits of a register that some field covers; the others are reserved (R6). -/
def namedBits (rows : List FieldRow) : Word := rows.foldl (fun m r => m ||| r.fld.mask) 0

/-- The word that a register's fields give at reset. -/
def fieldsReset : List FieldRow → Word
  | [] => 0
  | r :: rs => r.fld.put (fieldsReset rs) r.reset

/-- The reset rank of requester n (R146). -/
def resetRank (n : Nat) : Nat :=
  if n = 3 ∨ (4 ≤ n ∧ n ≤ 20) then 3 else if n = 0 ∨ n = 21 then 2 else if n = 1 ∨ n = 2 then 1 else 0

/-- The capability list's entries: CAP_ID, instances, base and stride (R453). -/
def capEntries : List (Nat × Nat × Nat × Nat) := [
  (0x01, 1, 0x10000, 0), (0x02, 16, 0x20000, 0x100), (0x03, 16, 0x30000, 0x1000), (0x04, 8, 0x40000, 0x1000),
  (0x05, 16, 0x50000, 0x100), (0x06, 16, 0x51000, 0x100), (0x07, 2, 0x52000, 0x100), (0x08, 1, 0x60000, 0),
  (0x09, 32, 0x61000, 0x40), (0x0A, 1, 0x70000, 0), (0x0B, 1, 0x71000, 0), (0x0C, 1, 0x80000, 0),
  (0x0D, 3, 0x90000, 0x1000), (0x0E, 1, 0x94000, 0), (0x0F, 1, 0xA0000, 0), (0x10, 1, 0xA0400, 0),
  (0x11, 16, 0xB0000, 0x100), (0x12, 1, 0xB1000, 0), (0x13, 1, 0xC0000, 0), (0x14, 1, 0xD0000, 0),
  (0x15, 1, 0xE0000, 0), (0x16, 1, 0xE1000, 0), (0x17, 1, 0xF0000, 0), (0x18, 1, 0x10800, 0),
  (0x19, 1, 0x10C00, 0), (0x1A, 1, 0x72000, 0), (0x1B, 1, 0x95000, 0)]

/-- Word k of capability entry n, at 0x100 + 16 * n (R453): VERSION is 1, and the last entry's NEXT is 0. -/
def capWord (n k : Nat) : Nat :=
  match capEntries[n]? with
  | none => 0
  | some (id, inst, base, stride) =>
    if k = 0 then id + 0x10000 + inst * 0x1000000
    else if k = 1 then base
    else if k = 2 then stride
    else if n + 1 < capEntries.length then 0x100 + 16 * (n + 1) else 0

/-- The base of memory n in ID_MEMn (R450). -/
def memBase (n : Nat) : Nat :=
  if n = 0 then 0x200000 else if n = 1 then 0x208000 else if n = 2 then 0x100000 else if n = 3 then 0x300000 else 0x10000000

/-- What a register reads after cold start: the reset values of its fields, and the values that differ by instance or come
from fuses. A register that is not in the tables reads 0. -/
def resetWord (a : Nat) : Word :=
  match findReg a with
  | none => 0
  | some (r, i, j) =>
    if a = R.PH_CFG i ∧ r.base = R.PH_CFG 0 then F.PH_CFG_BASE.put (fieldsReset r.fields) (16 * i)
    else if r.base = R.ARB_PRI 0 then BitVec.ofNat 32 (resetRank i)
    else if r.base = R.BR_OC_OWN 0 then BitVec.ofNat 32 (if i = 2 then 5 else if i = 3 then 2 else i)
    else if r.base = R.RT_GRP 0 then (if i = 127 then 0x80000000 else 0)
    else if r.base = R.ID_CAP 0 0 then BitVec.ofNat 32 (capWord i j)
    else if r.base = R.ID_MEM 0 then BitVec.ofNat 32 (memBase i)
    else if a = R.ID_KEYS then 1
    else if 0x440 ≤ a ∧ a < 0x500 then 0
    else if a < 0x10000 ∧ a ≠ R.ID_PART ∧ a ≠ R.ID_FUSE_CMD ∧ a ≠ R.ID_FUSE_STAT ∧ ¬(0x500 ≤ a ∧ a < 0x540) then
      Config.identityFuse a &&& namedBits r.fields
    else fieldsReset r.fields

/-- A register's stored word. -/
def getReg (s : State) (a : Nat) : Word := tabGet resetWord s.regs a

/-- The state after a register's stored word is replaced. -/
def setReg (s : State) (a : Nat) (w : Word) : State := { s with regs := tabSet resetWord s.regs a w }

/-- A field of a register. -/
def getF (s : State) (a : Nat) (f : Fld) : Nat := f.get (getReg s a)

/-- The state after a field of a register is replaced. -/
def setF (s : State) (a : Nat) (f : Fld) (v : Nat) : State := setReg s a (f.put (getReg s a) v)

/-- A one-bit field as a truth value. -/
def getB (s : State) (a : Nat) (f : Fld) : Bool := getF s a f ≠ 0

/-- The state after a one-bit field is replaced. -/
def setB (s : State) (a : Nat) (f : Fld) (b : Bool) : State := setF s a f (bit1 b)

/-! Counters (R455, R456). -/

/-- A counter's value. -/
def ctrLookup : List (Ctr × Nat) → Ctr → Nat
  | [], _ => 0
  | (k, v) :: t, c => if k = c then v else ctrLookup t c

/-- The list with a counter raised by n, modulo 2^48. -/
def ctrAdd : List (Ctr × Nat) → Ctr → Nat → List (Ctr × Nat)
  | [], c, n => [(c, n % 2 ^ 48)]
  | (k, v) :: t, c, n => if k = c then (k, (v + n) % 2 ^ 48) :: t else (k, v) :: ctrAdd t c n

/-- A counter of the node. -/
def getCtr (s : State) (c : Ctr) : Nat := ctrLookup s.mon.counters c

/-- The state after a counter rises by n. -/
def bumpN (c : Ctr) (n : Nat) (s : State) : State :=
  { s with mon := { s.mon with counters := ctrAdd s.mon.counters c n } }

/-- The state after a counter rises by 1. -/
def bump (c : Ctr) (s : State) : State := bumpN c 1 s

/-- The counter of block cap that stands at place kind of its chapter's list, for instance inst. -/
abbrev ctr (cap kind inst : Nat) : Ctr := ⟨cap, kind, inst⟩

/-- Node control's state after a change. -/
def onNode (f : NodeState → NodeState) (s : State) : State := { s with node := f s.node }

/-- The notices' state after a change. -/
def onNotices (f : NoticeState → NoticeState) (s : State) : State := { s with notices := f s.notices }

/-- The arbiter's state after a change. -/
def onArb (f : ArbState → ArbState) (s : State) : State := { s with arb := f s.arb }

/-! Free values. -/

/-- A value of n bits that the spec leaves open, with the state in which the next one will differ. -/
def fresh (n : Nat) (s : State) : BitVec n × State :=
  (Config.freeBits n s.node.freeCount, onNode (fun x => { x with freeCount := x.freeCount + 1 }) s)

/-! Memory. -/

/-- What a memory byte that nothing has written reads as: 0 in the SECDED memories (R495), 0xFF in the flash. -/
def memDefault (a : Nat) : Byte := if 0x10000000 ≤ a ∧ a < 0x20000000 then 0xFF else 0

/-- A memory byte. -/
def getByte (s : State) (a : Nat) : Byte := tabGet memDefault s.mem a

/-- The state after a memory byte is written. -/
def setByte (s : State) (a : Nat) (b : Byte) : State := { s with mem := tabSet memDefault s.mem a b }

/-- n bytes from an address. -/
def getBytes (s : State) (a : Nat) : Nat → List Byte
  | 0 => []
  | n + 1 => getByte s a :: getBytes s (a + 1) n

/-- The state after bytes are written from an address. -/
def setBytes (s : State) (a : Nat) : List Byte → State
  | [] => s
  | b :: bs => setBytes (setByte s a b) (a + 1) bs

/-- The little-endian number of a list of bytes (R163). -/
def leNat : List Byte → Nat
  | [] => 0
  | b :: bs => b.toNat + 256 * leNat bs

/-- The n little-endian bytes of a number. -/
def leBytes : Nat → Nat → List Byte
  | 0, _ => []
  | n + 1, x => BitVec.ofNat 8 x :: leBytes n (x / 256)

/-- A 32-bit memory word. -/
def getMem32 (s : State) (a : Nat) : Word := BitVec.ofNat 32 (leNat (getBytes s a 4))

/-- The state after a 32-bit memory word is written. -/
def setMem32 (s : State) (a : Nat) (w : Word) : State := setBytes s a (leBytes 4 w.toNat)

/-- The low half of a 64-bit word. -/
def lo32 (w : DWord) : Word := w.truncate 32
/-- The high half of a 64-bit word. -/
def hi32 (w : DWord) : Word := (w >>> 32).truncate 32

/-- A 64-bit memory word. -/
def getMem64 (s : State) (a : Nat) : DWord := BitVec.ofNat 64 (leNat (getBytes s a 8))

/-- The state after a 64-bit memory word is written. -/
def setMem64 (s : State) (a : Nat) (w : DWord) : State := setBytes s a (leBytes 8 w.toNat)

/-- Whether the 8-byte word that holds an address is poisoned (R396). -/
def poisoned (s : State) (a : Nat) : Bool := tabGet (fun _ => false) s.poison (a / 8)

/-- The state after the poison mark of the 8-byte word that holds an address is set or cleared. -/
def setPoison (s : State) (a : Nat) (b : Bool) : State := { s with poison := tabSet (fun _ => false) s.poison (a / 8) b }

/-! The readings of the time bases (R285 to R291). -/

/-- Time base n. -/
def getItb (s : State) (n : Nat) : Itb := tabGet (fun _ => Itb.reset) s.time.itb n

/-- The state after time base n is replaced. -/
def setItb (s : State) (n : Nat) (t : Itb) : State :=
  { s with time := { s.time with itb := tabSet (fun _ => Itb.reset) s.time.itb n t } }

/-- The 80-bit reading of ITBn: NS[63:0] above FRAC[15:0] (R286). -/
def itbRead (s : State) (n : Nat) : Nat := (getItb s n).val / 2 ^ 16 % 2 ^ 80

/-- The nanoseconds of ITBn. -/
def itbNs (s : State) (n : Nat) : Nat := (getItb s n).val / 2 ^ 32 % 2 ^ 64

/-- Network time: the nanoseconds of ITB0 (R289). -/
def nowNs (s : State) : Nat := itbNs s 0

/-- The value of a wide register's stored parts, _LO first. -/
def regs64 (s : State) (lo hi : Nat) : Nat := (getReg s lo).toNat + 2 ^ 32 * (getReg s hi).toNat

/-- The BASE, ANCHOR and RATE in force of domain d. -/
def vdBase (s : State) (d : Nat) : Nat :=
  regs64 s (R.VD_BASE_LO d) (R.VD_BASE_HI d) + 2 ^ 64 * (getReg s (R.VD_BASE_TOP d)).toNat

/-- ANCHOR in force of domain d. -/
def vdAnchor (s : State) (d : Nat) : Nat := regs64 s (R.VD_ANCHOR_LO d) (R.VD_ANCHOR_HI d)

/-- RATE in force of domain d. -/
def vdRate (s : State) (d : Nat) : Nat := regs64 s (R.VD_RATE_LO d) (R.VD_RATE_HI d)

/-- The 80-bit reading of VDd at LTICK: BASE + (L - ANCHOR) * RATE, truncated to 2^-16 ns (R290). -/
def vdRead (s : State) (d : Nat) : Nat :=
  wrap 80 (((vdBase s d : Nat) : Int) +
    ((signed 64 (s.time.ltick + 2 ^ 64 - vdAnchor s d)) * ((vdRate s d : Nat) : Int)) / ((2 ^ 24 : Nat) : Int))

/-- A short postmark from an 80-bit reading: NS[47:0] above FRAC[15:0] (R151, R290). -/
def shortPm (reading : Nat) : DWord := BitVec.ofNat 64 reading

/-- The accumulator and INC of a time base at FCLK edge `tick`, from its value and INC at edge `top` and the stretches before (R286). -/
def itbWalk (tick : Int) : List (Nat × Nat × Nat) → Nat → Nat → Nat → Int × Nat
  | [], top, val, inc => ((val : Int) - ((top : Int) - tick) * (inc : Int), inc)
  | (edge, val0, inc0) :: rest, top, val, inc =>
    if (edge : Int) ≤ tick then ((val : Int) - ((top : Int) - tick) * (inc : Int), inc)
    else itbWalk tick rest (edge - 1) val0 inc0

/-- The nominal INC: 3.2 ns in units of 2^-32 ns, truncated (R286). -/
def incNominal : Nat := 13743895347

/-- The 80-bit reading of ITBn at an instant of the node's clocks, in ps: its value at the last FCLK edge, and the time from that edge
scaled by INC over the nominal INC (R286). FCLK edge l lies at 3,200 l ps and the UCLK edge that starts cycle c at 4,000 c ps (R16). -/
def itbAt (s : State) (n : Nat) (ps : Int) : Nat :=
  let t := getItb s n
  let tick := ps / 3200
  let (val, inc) := itbWalk tick t.past s.time.ltick t.val t.inc
  wrap 80 ((val * ((1000 * incNominal : Nat) : Int) + (ps - 3200 * tick) * ((2 ^ 32 * inc : Nat) : Int)) /
    ((1000 * incNominal * 2 ^ 16 : Nat) : Int))

/-- The 80-bit reading of VDd at an instant in ps: L is LTICK plus the fraction of a tick at which the instant lies (R290). -/
def vdAt (s : State) (d : Nat) (ps : Int) : Nat :=
  let l : Int := signed 64 (s.time.ltick + 2 ^ 64 - vdAnchor s d) * 3200 + (ps - 3200 * (s.time.ltick : Int))
  wrap 80 (((vdBase s d : Nat) : Int) + l * ((vdRate s d : Nat) : Int) / ((3200 * 2 ^ 24 : Nat) : Int))

/-- The UCLK cycle whose edge is the last at or before the end of FCLK tick l: four UCLK cycles for every five ticks (R16). -/
def uclkEdges (l : Nat) : Nat := (4 * l + 3) / 5

/-- The ticks since an LTICK. -/
def ticksSince (s : State) (l : Nat) : Nat := (s.time.ltick + 2 ^ 64 - l % 2 ^ 64) % 2 ^ 64

/-- The instant, in ps, of the UCLK edge that starts the present cycle: an event of a unit that UCLK clocks lies on it (R286). -/
def uclkNow (s : State) : Int := 4000 * (uclkEdges s.time.ltick : Int)

/-- The instant of the present FCLK edge, in ps. -/
def fclkNow (s : State) : Int := 3200 * (s.time.ltick : Int)

/-- The short postmark in domain d of an event at the present UCLK edge. -/
def pmVd (s : State) (d : Nat) : DWord := shortPm (vdAt s d (uclkNow s))

/-- The short postmark in ITBn of an event at the present UCLK edge. -/
def pmItb (s : State) (n : Nat) : DWord := shortPm (itbAt s n (uclkNow s))

/-- The short postmark in domain d of an event at the present FCLK edge. -/
def pmVdTick (s : State) (d : Nat) : DWord := shortPm (vdRead s d)

/-- A short postmark truncated to whole nanoseconds, with FRAC 0 (R286). -/
def wholeNs (pm : DWord) : DWord := pm &&& 0xFFFFFFFFFFFF0000

/-! Notices on their way to a queue (R151, R157). -/

/-- Queue q. -/
def getPh (s : State) (q : Nat) : PhQueue := tabGet (fun _ => PhQueue.empty) s.notices.queues q

/-- The state after queue q is replaced. -/
def setPh (s : State) (q : Nat) (p : PhQueue) : State :=
  onNotices (fun x => { x with queues := tabSet (fun _ => PhQueue.empty) x.queues q p }) s

/-- The class of a notice: CODE[7:6] (R151). -/
def noticeClass (code : Nat) : Nat := code / 64 % 4

/-- The items of a source that wait for its earlier writes. -/
def waitingOf (s : State) (cap inst : Nat) : List Waiting :=
  s.notices.waiting.filter (fun w => w.item.cap = cap ∧ w.item.inst = inst)

/-- An item is lost for queue q: OVF is set and the queue's loss counter rises (R153). -/
def lostItem (q : Nat) (s : State) : State := bump (ctr 0x0009 0 q) (setB s (R.PH_STAT q) F.PH_STAT_OVF true)

/-- A source posts a notice: it waits with at most three others of the source for the source's earlier writes, and a fifth is
discarded (R157). -/
def postPm (q cap inst code arg : Nat) (pm : DWord) (s : State) : State :=
  if (waitingOf s cap inst).length < 4 then
    let it : Item := { cap := cap, inst := inst, code := code, arg := arg % 2 ^ 16, pri := 0, lost := false, seq := 0, pm := pm }
    onNotices (fun x => { x with waiting := x.waiting ++ [{ queue := q, item := it }] }) s
  else
    let s := lostItem q s
    onNotices (fun x => { x with srcLost := (cap, inst) :: x.srcLost }) s

/-- A unit's events lie on FCLK edges: the sorting office, the links, census, the timetable and the time bases (R16). -/
def onFclk (cap : Nat) : Bool := 0x000C ≤ cap && cap ≤ 0x0010

/-- A source posts a notice of an event at the present edge of its clock, postmarked in the queue's domain PH_CFG.VD (R151). -/
def post (q cap inst code arg : Nat) (s : State) : State :=
  let d := getF s (R.PH_CFG q) F.PH_CFG_VD
  postPm q cap inst code arg (if onFclk cap then pmVdTick s d else pmVd s d) s

/-- A source posts a notice of a kind limited to one a millisecond; within the millisecond nothing more is posted. -/
def postOnce (q cap inst code arg : Nat) (s : State) : State :=
  if (cap, inst, code) ∈ s.notices.posted then s
  else
    let s := post q cap inst code arg s
    onNotices (fun x => { x with posted := (cap, inst, code) :: x.posted }) s

/-! Service modes and the node's own address. -/

/-- The service mode in force: 0 STARTUP, 1 NORMAL, 2 RECOVERY, 3 TEST (R26). -/
def serviceMode (s : State) : Nat := getF s R.NODE_STAT F.NODE_STAT_SERVICE_EFF

/-- NODE_CTL.SEAL is set (R7). -/
def sealed (s : State) : Bool := getB s R.NODE_CTL F.NODE_CTL_SEAL

/-- The node is not admitted by census. -/
def quarantined (s : State) : Bool := getB s R.NODE_STAT F.NODE_STAT_QUARANTINE

/-- The node address: 0xFFFF until census has admitted the node (R25). -/
def nodeAddr (s : State) : Nat := getF s R.CN_ADDR F.CN_ADDR_ADDR

/-- The master ID an access carries (R25, R167). -/
def masterId (s : State) : Master → MasterId
  | .loc i => BitVec.ofNat 20 (nodeAddr s * 16 + i.val)
  | .ring id => id

/-- The timetable is running (R303). -/
def ttRunning (s : State) : Bool := getB s R.TT_STAT F.TT_STAT_RUNNING

/-- A unit is in unit reset, with PRESENT low (R33). -/
def inUnitReset (s : State) (cap inst : Nat) : Bool := (cap, inst) ∈ s.node.unitReset

/-- BIST tests a target (R404). -/
def underTest (s : State) (t : Nat) : Bool := s.integrity.test = some t

/-- A small-table word reads poisoned (R398). -/
def badWord (s : State) (a : Nat) : Bool := a ∈ s.integrity.badWords

/-- A small-table word is rewritten, and its parity is right again (R398). -/
def rewritten (a : Nat) (s : State) : State :=
  { s with integrity := { s.integrity with badWords := s.integrity.badWords.filter (fun b => b ≠ a) } }

/-- A notice to which the spec gives no CODE and no ARG (log entry 12). -/
def postOpen (q cap inst : Nat) (s : State) : State :=
  let (code, s) := fresh 8 s
  let (arg, s) := fresh 16 s
  post q cap inst code.toNat arg.toNat s

/-- A port's state. -/
def getPort (s : State) (p : Nat) : PortState := tabGet (fun _ => PortState.reset) s.ports p

/-- The state after a port's state is replaced. -/
def setPort (s : State) (p : Nat) (t : PortState) : State :=
  { s with ports := tabSet (fun _ => PortState.reset) s.ports p t }

/-- The digital die runs: it is not held by RESET_L, by a clock loss, or by the power die (R18, R32, R376, R377). -/
def clocked (s : State) : Bool := !s.node.resetL && !s.node.clkHold && !s.power.hold

/-- The state whose interconnect answered r. -/
def answer (r : Resp) (s : State) : State := { s with resp := r }

end Sys2Proof.Machine
end

