-- ==== Sys2Proof/Machine/Operands.lean ====
section
/-! DEFINITION. The operand forms of an access: the region its address lies in, its width and alignment (R4, R19 to R21),
the access table that guards it (R442), and the unit it belongs to (R33). -/

namespace Sys2Proof.Machine

/-- What lies at a local address (R19). -/
inductive Region where
  | register
  /-- A Scribe program store (R85). -/
  | store
  | messageRam | inputImage | outputImage | waymarkRam | oasis | flash
  | unmapped
deriving DecidableEq, Repr

/-- The address lies in the program store of a Scribe cluster. -/
def isStore (a : Nat) : Bool := 0x30000 ≤ a && a < 0x40000 && 0x400 ≤ a % 0x1000 && a % 0x1000 < 0x440

/-- The region of a local address; an address in no memory and no register is unmapped (R19, R20). -/
def regionOf (a : Nat) : Region :=
  if 0x100000 ≤ a ∧ a < 0x120000 then .messageRam
  else if 0x200000 ≤ a ∧ a < 0x208000 then .inputImage
  else if 0x208000 ≤ a ∧ a < 0x210000 then .outputImage
  else if 0x300000 ≤ a ∧ a < 0x320000 then .waymarkRam
  else if 0x1000000 ≤ a ∧ a < 0x1200000 then .oasis
  else if 0x10000000 ≤ a ∧ a < 0x20000000 then .flash
  else if isStore a then .store
  else if (findReg (a / 4 * 4)).isSome then .register
  else .unmapped

/-- The widths, in bytes, that a region takes (R4, R19). -/
def widthsOf : Region → List Nat
  | .register => [4]
  | .store => [2, 4]
  | .messageRam | .inputImage | .outputImage | .flash => [1, 2, 4, 8]
  | .waymarkRam => [4, 8]
  | .oasis => [8]
  | .unmapped => []

/-- An access's width is one the region takes, and its address is aligned to it (R4, R21). -/
def aligned (a width : Nat) : Bool := width ∈ widthsOf (regionOf a) && a % width = 0

/-- The access table that guards an address, and the address's offset in that table's unit (R442). -/
def tableOf (a : Nat) : Option (Nat × Nat) :=
  if a < 0x1000 then some (146, a / 256)
  else if 0x10000 ≤ a ∧ a < 0x10800 then some (0, (a - 0x10000) / 256)
  else if a = R.MON_CTL ∨ a = R.MON_STAT then some (140, 0)
  else if 0x10800 ≤ a ∧ a < 0x11000 then some (139, (a - 0x10800) / 256)
  else if 0x20000 ≤ a ∧ a < 0x21000 then some (1 + (a - 0x20000) / 0x100, a % 0x100 / 16)
  else if 0x21000 ≤ a ∧ a < 0x21400 then some (1 + (a - 0x21000) / 0x40, 0x10)
  else if 0x30000 ≤ a ∧ a < 0x40000 then some (17 + (a - 0x30000) / 0x1000, a % 0x1000 / 128)
  else if 0x40000 ≤ a ∧ a < 0x48000 then some (33 + (a - 0x40000) / 0x1000, a % 0x1000 / 256)
  else if 0x48000 ≤ a ∧ a < 0x4A000 then some (143, (a - 0x48000) / 256)
  else if 0x50000 ≤ a ∧ a < 0x51000 then some (41 + (a - 0x50000) / 0x100, 0)
  else if 0x51000 ≤ a ∧ a < 0x52000 then some (57 + (a - 0x51000) / 0x100, 0)
  else if 0x52000 ≤ a ∧ a < 0x52200 then some (73 + (a - 0x52000) / 0x100, 0)
  else if 0x60000 ≤ a ∧ a < 0x61000 then some (75, (a - 0x60000) / 256)
  else if 0x61000 ≤ a ∧ a < 0x61800 then some (76 + (a - 0x61000) / 0x40, 0)
  else if 0x70000 ≤ a ∧ a < 0x71000 then some (108, (a - 0x70000) / 256)
  else if 0x71000 ≤ a ∧ a < 0x72000 then some (109, (a - 0x71000) / 256)
  else if 0x72000 ≤ a ∧ a < 0x80000 then some (141, (a - 0x72000) / 256)
  else if 0x80000 ≤ a ∧ a < 0x90000 then some (110, (a - 0x80000) / 256)
  else if 0x90000 ≤ a ∧ a < 0x93000 then some (111 + (a - 0x90000) / 0x1000, a % 0x1000 / 256)
  else if 0x94000 ≤ a ∧ a < 0x95000 then some (114, (a - 0x94000) / 256)
  else if 0x95000 ≤ a ∧ a < 0x96000 then some (142, (a - 0x95000) / 256)
  else if 0xA0400 ≤ a ∧ a < 0xA0C00 then some (116, (a - 0xA0400) / 64)
  else if 0xA0000 ≤ a ∧ a < 0xB0000 then some (115, (a - 0xA0000) / 256)
  else if 0xB0000 ≤ a ∧ a < 0xB1000 then some (117 + (a - 0xB0000) / 0x100, 0)
  else if 0xB1000 ≤ a ∧ a < 0xC0000 then some (133, (a - 0xB1000) / 256)
  else if 0xC0000 ≤ a ∧ a < 0xD0000 then some (134, (a - 0xC0000) / 256)
  else if 0xD0000 ≤ a ∧ a < 0xE0000 then some (135, (a - 0xD0000) / 256)
  else if 0xE0000 ≤ a ∧ a < 0xE1000 then some (136, (a - 0xE0000) / 256)
  else if 0xE1000 ≤ a ∧ a < 0xF0000 then some (137, (a - 0xE1000) / 256)
  else if 0xF0000 ≤ a ∧ a < 0x100000 then some (138, (a - 0xF0000) / 256)
  else if 0x100000 ≤ a ∧ a < 0x120000 then some (33 + (a - 0x100000) / 0x4000, 0x100 + a % 0x4000 / 256)
  else if 0x200000 ≤ a ∧ a < 0x208000 then some (144, (a - 0x200000) / 256)
  else if 0x208000 ≤ a ∧ a < 0x210000 then some (145, (a - 0x208000) / 256)
  else if 0x300000 ≤ a ∧ a < 0x320000 then some (133, 0x100 + (a - 0x300000) / 256)
  else if 0x10000000 ≤ a ∧ a < 0x20000000 then some (147, (a - 0x10000000) / 4096)
  else none

/-- The resettable unit whose registers hold an address: CAP_ID and instance (R33). -/
def unitAt (a : Nat) : Option (Nat × Nat) :=
  if 0x30000 ≤ a ∧ a < 0x40000 then some (0x0003, (a - 0x30000) / 0x1000)
  else if 0x40000 ≤ a ∧ a < 0x48000 then some (0x0004, (a - 0x40000) / 0x1000)
  else if 0x50000 ≤ a ∧ a < 0x51000 then some (0x0005, (a - 0x50000) / 0x100)
  else if 0x51000 ≤ a ∧ a < 0x52000 then some (0x0006, (a - 0x51000) / 0x100)
  else if 0x52000 ≤ a ∧ a < 0x52200 then some (0x0007, (a - 0x52000) / 0x100)
  else if 0xB0000 ≤ a ∧ a < 0xB1000 then some (0x0011, (a - 0xB0000) / 0x100)
  else none

/-- The number of instances of a resettable unit kind; 0 for a block that has no unit reset (R33). -/
def resettable (cap : Nat) : Nat :=
  if cap = 0x0003 then 16 else if cap = 0x0004 then 8 else if cap = 0x0005 then 16 else if cap = 0x0006 then 16
  else if cap = 0x0007 then 2 else if cap = 0x0011 then 16 else 0

/-- An access on the local interconnect: who makes it, where, how wide, whether it writes, and whether it is a piece of a
locked sequence. -/
structure Access where
  m : Master
  a : Nat
  width : Nat
  write : Bool
  lock : Bool
deriving DecidableEq, Repr

/-- The access enters through requester 0 (R447). -/
def Access.isRing (x : Access) : Bool :=
  match x.m with
  | .loc _ => false
  | .ring _ => true

/-- The access is made by local master i. -/
def Access.isLocal (x : Access) (i : Nat) : Bool :=
  match x.m with
  | .loc j => j.val = i
  | .ring _ => false

/-- The permissions an access needs, as bits 0 R, 1 W, 2 L, 3 N, 4 I (R446). -/
def neededPerms (x : Access) : List Nat :=
  let base :=
    if ¬x.write then 0
    else if 0x61000 ≤ x.a ∧ x.a < 0x61800 ∧ 0x20 ≤ x.a % 0x40 ∧ x.a % 0x40 < 0x2C then 3
    else if 0x30000 ≤ x.a ∧ x.a < 0x40000 ∧ 0x100 ≤ x.a % 0x1000 ∧ x.a % 0x1000 < 0x300 ∧ x.a % 0x80 = 0x18 then 4
    else 1
  if x.lock then [2, base] else [base]

end Sys2Proof.Machine
end

