-- ==== Sys2Proof/Machine/ReadAhead.lean ====
section
/-! DEFINITION. The bridge's read-ahead buffers and the unclaimed-prefetch log that records their discards (R184, R186, R187, R199,
R200). -/

namespace Sys2Proof.Machine

/-- The office's state after a change. -/
def onDead (f : DeadState → DeadState) (s : State) : State := { s with dead := f s.dead }

/-- Prefetch entries held: (HEAD - TAIL) mod 32. -/
def upLevel (s : State) : Nat := (getF s R.UP_HEAD F.UP_HEAD_HEAD + 32 - getF s R.UP_TAIL F.UP_TAIL_TAIL) % 32

/-- The office posts a notice while DL_CTL.NTC is 1 (R197). -/
def dlNotice (code arg : Nat) (s : State) : State :=
  if getB s R.DL_CTL F.DL_CTL_NTC then post (getF s R.DL_CTL F.DL_CTL_NTC_Q) 0x000B 0 code arg s else s

/-! The unclaimed-prefetch log (R187, R199, R200). -/

/-- A local address is in a memory range that is always prefetchable (R184). -/
def builtInPrefetch (a : Nat) : Bool :=
  match regionOf a with
  | .messageRam | .inputImage | .outputImage | .waymarkRam | .flash => true
  | _ => a < 0x1000

/-- The 32-bit words of a list of bytes. -/
def wordsOf : Nat → List Byte → List Word
  | 0, _ => []
  | n + 1, bs => BitVec.ofNat 32 (leNat (bs.take 4)) :: wordsOf n (bs.drop 4)

/-- The 32 words of an unclaimed-prefetch entry (R199). -/
def upWords (s : State) (why : Nat) (lost : Bool) (b : ReadAhead) : List Word :=
  [BitVec.ofNat 32 b.addr,
    BitVec.ofNat 32 (b.master.toNat + b.poison.toNat * 2 ^ 20 + bit1 lost * 2 ^ 28 + why * 2 ^ 29),
    lo32 b.pm, hi32 b.pm, BitVec.ofNat 32 s.dead.upSeq] ++ List.replicate 11 0 ++ wordsOf 16 b.data

/-- The count of poison consumed by consumer kind: the row of R202's table. -/
def consumePoison (row : Nat) (s : State) : State := bump (ctr 0x000B 6 row) s

/-- A discarded buffer is logged, or only counted when it came from a built-in memory (R187, R199, R200). -/
def discardBuffer (why : Nat) (b : ReadAhead) (s : State) : State :=
  let s := bump (ctr 0x000A 10 0) s
  if builtInPrefetch b.addr then bump (ctr 0x000B 5 0) s
  else
    let next := (s.dead.upSeq + 1) % 65536
    if upLevel s = 16 then
      let s := bump (ctr 0x000B 3 0) (setB s R.DL_STAT F.DL_STAT_UP_OVF true)
      dlNotice 0x84 0x10 (onDead (fun d => { d with upSeq := next, upLostNext := true }) s)
    else
      let h := getF s R.UP_HEAD F.UP_HEAD_HEAD
      let ws := upWords s why s.dead.upLostNext b
      let s := if b.poison ≠ 0 then consumePoison 9 s else s
      let s := onDead (fun d => { d with
        upSeq := next, upLostNext := false, upLog := tabSet (fun _ => []) d.upLog (h % 16) ws }) s
      dlNotice 0x83 (h % 16) (setF s R.UP_HEAD F.UP_HEAD_HEAD ((h + 1) % 32))

/-- Read-ahead buffer k. -/
def getBuf (s : State) (k : Nat) : Option ReadAhead := tabGet (fun _ => none) s.bridge.buffers k

/-- The bridge after a change. -/
def onBridge (f : BridgeState → BridgeState) (s : State) : State := { s with bridge := f s.bridge }

/-- The state after buffer k is replaced. -/
def setBuf (k : Nat) (b : Option ReadAhead) (s : State) : State :=
  onBridge (fun t => { t with buffers := tabSet (fun _ => none) t.buffers k b }) s

/-- Buffer k's data is discarded unclaimed (R186). -/
def dropBuf (why k : Nat) (s : State) : State :=
  match getBuf s k with
  | none => s
  | some b => discardBuffer why b (setBuf k none s)

/-- A write of n bytes at a: every buffer that it overlaps is discarded (R186). -/
def dropOverlap (a n : Nat) (s : State) : State :=
  [0, 1, 2, 3].foldl (fun s k =>
    match getBuf s k with
    | some b => if b.addr < a + n ∧ a < b.addr + 64 then dropBuf 2 k s else s
    | none => s) s

end Sys2Proof.Machine
end

