-- ==== Sys2Proof/Machine/Access.lean ====
section
/-! DEFINITION. How a target judges an access: the order of checks (R448), the access tables (R443, R447), what a denial
records (R449), and the guarded register access that every register command makes. -/

namespace Sys2Proof.Machine

/-- Entry e of access table t matches an access of this master ID at this offset (R447). -/
def entryMatches (s : State) (t e : Nat) (id : MasterId) (ring : Bool) (off : Nat) : Bool :=
  let w0 := R.AT_W0 t e
  let mask := (getReg s (R.AT_W1 t e)) &&& 0xFFFFF
  let scope := getF s w0 F.AT_W0_SCOPE
  getB s w0 F.AT_W0_EN &&
  ((BitVec.zeroExtend 32 id) &&& mask) = ((getReg s w0) &&& mask) &&
  getF s (R.AT_W2 t e) F.AT_W2_BASE ≤ off && off ≤ getF s (R.AT_W2 t e) F.AT_W2_LIMIT &&
  (scope = 0 || (scope = 1 && !ring) || (scope = 2 && ring))

/-- The entry holds a permission, numbered 0 R to 4 I (R443). -/
def entryHolds (s : State) (t e perm : Nat) : Bool := bitOf (getReg s (R.AT_W0 t e)).toNat (20 + perm)

/-- The first entry from index e on that matches, among n entries. -/
def firstMatch (s : State) (t : Nat) (id : MasterId) (ring : Bool) (off : Nat) : Nat → Nat → Option Nat
  | _, 0 => none
  | e, n + 1 => if entryMatches s t e id ring off then some e else firstMatch s t id ring off (e + 1) n

/-- What is allowed when no entry matches (R447). -/
def defaultAllows (x : Access) (table : Nat) : Bool :=
  match x.m with
  | .ring _ => !x.write && table = 146 && !x.lock
  | .loc i =>
    if i.val = 0 ∨ i.val = 1 then true
    else if i.val = 2 then x.write && table = 144
    else if i.val = 3 ∨ i.val = 4 then (x.write && table = 144) || (!x.write && table = 145)
    else if i.val = 6 then table = 138
    else if i.val = 7 then table = 136 || table = 137
    else if i.val = 8 then table = 139 || (!x.write && table = 147)
    else false

/-- The access table allows the access (R446, R447); with an entry that reads poisoned it refuses (R398). -/
def tableAllows (s : State) (x : Access) : Bool :=
  match tableOf x.a with
  | none => true
  | some (t, off) =>
    if (List.range 16).any (fun e => badWord s (R.AT_W0 t e) || badWord s (R.AT_W1 t e) || badWord s (R.AT_W2 t e)) then false
    else
      match firstMatch s t (masterId s x.m) x.isRing off 0 16 with
      | some e => (neededPerms x).all (fun p => entryHolds s t e p)
      | none => defaultAllows x t

/-- A master holds W on a block as a whole, for envelopes judged against its table (R433, R458). -/
def holdsWrite (s : State) (id : MasterId) (a : Nat) : Bool :=
  tableAllows s { m := .ring id, a := a, width := 4, write := true, lock := false }

/-- The fixed rules of step 3 (R22, R144, R188, R450). -/
def fixedRefusal (s : State) (x : Access) : Option Reason :=
  let r := regionOf x.a
  if x.write ∧ (r = .flash ∨ r = .oasis) then some .readOnly
  else if r = .oasis ∧ ¬(x.isLocal 0 ∨ x.isLocal 1) then some .accessDenied
  else if x.write ∧ x.a < 0x1000 ∧ x.a ≠ R.ID_FUSE_CMD ∧ ¬(0x500 ≤ x.a ∧ x.a < 0x540) then some .readOnly
  else if 0x60000 ≤ x.a ∧ x.a < 0x60100 ∧ ¬(x.isRing ∨ x.isLocal 0 ∨ x.isLocal 1) then some .accessDenied
  else if 0x70400 ≤ x.a ∧ x.a < 0x70C00 ∧ x.a % 0x200 ≠ 0x0C ∧
      ¬(x.isLocal (getF s (R.BR_OC_OWN ((x.a - 0x70400) / 0x200)) F.BR_OC_OWN_MASTER)) then some .accessDenied
  else none

/-- The check that a target's access fails first, before the unit's own refusals (R448 steps 1 to 4 and NOT_PRESENT). -/
def refusal (s : State) (x : Access) : Option Reason :=
  if regionOf x.a = .unmapped then some .unmapped
  else if ¬aligned x.a x.width then some .unaligned
  else
    match fixedRefusal s x with
    | some r => some r
    | none =>
      if ¬tableAllows s x then some .accessDenied
      else
        match unitAt x.a with
        | some (cap, inst) => if inUnitReset s cap inst then some .notPresent else none
        | none => none

/-- The access is refused by its table, and not by a fixed rule. -/
def tableDenies (s : State) (x : Access) : Bool :=
  regionOf x.a ≠ .unmapped && aligned x.a x.width && fixedRefusal s x = none && !tableAllows s x

/-- The permission field of AT_LAST_INFO: bit 8 R to bit 12 I. -/
def permBits (ps : List Nat) : Nat := (ps.map (fun p => 2 ^ p)).sum

/-- What a denial does: the table's counter, AT_LAST_MASTER, AT_LAST_ADDR and AT_LAST_INFO, AT_STAT.DENIED and notice 0x81
(R449). -/
def recordDenial (x : Access) (s : State) : State :=
  let t := ((tableOf x.a).getD (0, 0)).1
  let s := bump (ctr 0x001A 0 t) s
  let s := setF s R.AT_LAST_MASTER F.AT_LAST_MASTER_ID (masterId s x.m).toNat
  let s := setReg s R.AT_LAST_ADDR (BitVec.ofNat 32 x.a)
  let s := setF s R.AT_LAST_INFO F.AT_LAST_INFO_TABLE t
  let s := setF s R.AT_LAST_INFO F.AT_LAST_INFO_PERM (permBits (neededPerms x))
  let s := setB s R.AT_LAST_INFO F.AT_LAST_INFO_RING x.isRing
  let s := setB s R.AT_STAT F.AT_STAT_DENIED true
  postOnce (getF s R.AT_CTL F.AT_CTL_NTC_Q) 0x001A 0 0x81 t s

/-- An envelope that a unit judges as a write of its block is denied (R446, R449). -/
def denyEnvelope (id : MasterId) (a : Nat) (s : State) : State :=
  recordDenial { m := .ring id, a := a, width := 4, write := true, lock := false } s

/-- The state after an access is refused with reason r: a denial by a table is recorded. -/
def refuse (x : Access) (s : State) : State := if tableDenies s x then recordDenial x s else s

/-- An access of a local master waits while a locked grant of the bridge stands, except on the control path of R144: requester 0 holds the
interconnect in every cycle (R150). -/
def lockedOut (s : State) (m : Master) (a : Nat) : Bool :=
  match m with
  | .loc _ => getB s R.ARB_STAT F.ARB_STAT_LOCKED && !(0x60000 ≤ a && a < 0x60100)
  | .ring _ => false

/-- A write access: refused by R448, or performed by eff, which may refuse it for the unit's own reason; read-ahead that it overlaps is
discarded (R186). While the digital die is
in reset nothing is accessed and nothing answers; a master that a locked grant holds off gets no answer yet, and its access is to be
made again (R150). -/
def guardWriteAt (m : Master) (a width : Nat) (eff : State → State × Option Reason) (s : State) : State :=
  let x : Access := { m := m, a := a, width := width, write := true, lock := false }
  if ¬clocked s ∨ lockedOut s m a then answer .none s else
  match refusal s x with
  | some r => answer (.err r) (refuse x s)
  | none =>
    match eff (dropOverlap a width s) with
    | (t, none) => answer .ok t
    | (t, some r) => answer (.err r) t

/-- A write access to a register. -/
def guardWrite (m : Master) (a : Nat) (eff : State → State × Option Reason) (s : State) : State := guardWriteAt m a 4 eff s

/-- The management core meets poison in what it reads: a bus error exception, counted among its consumers (R188, R202). -/
def coreMeets (m : Master) (r : Resp) (s : State) : State :=
  let bad : Bool := match r with
    | .data _ b => b
    | .err e => e = .poisoned
    | _ => false
  if bad = true ∧ m = .loc 0 then consumePoison 5 s else s

/-- A read access to a register: refused by R448, or performed by eff, which gives the word read and whether it is poisoned
(R176). -/
def guardReadP (m : Master) (a : Nat) (eff : State → State × Word × Bool) (s : State) : State :=
  let x : Access := { m := m, a := a, width := 4, write := false, lock := false }
  if ¬clocked s ∨ lockedOut s m a then answer .none s else
  match refusal s x with
  | some r => answer (.err r) (refuse x s)
  | none => let (t, w, b) := eff s; let r := Resp.data (w.zeroExtend 64) b; answer r (coreMeets m r t)

/-- A read access to a register whose word is clean. -/
def guardRead (m : Master) (a : Nat) (eff : State → State × Word) (s : State) : State :=
  guardReadP m a (fun s => let (t, w) := eff s; (t, w, false)) s

/-! Plain register writes (R5 to R7). -/

/-- A register word after one field takes its part of a write, by the field's access code (R5, R7). RWS fields are written
like RW ones: the code says what resets keep. -/
def writeField (sl : Bool) (v : Word) (w : Word) (r : FieldRow) : Word :=
  if r.keep0 ∧ r.fld.get v = 0 then w else
  match r.acc with
  | .rw | .rws => r.fld.put w (r.fld.get v)
  | .rwl => if sl then w else r.fld.put w (r.fld.get v)
  | .w1c => w &&& ~~~(v &&& r.fld.mask)
  | .w1s => w ||| (v &&& r.fld.mask)
  | .ro | .rc | .wo => w

/-- The write is refused by the seal: it carries, for an RWL field, a value that differs from the value in force (R7). -/
def sealRefuses (sl : Bool) (old v : Word) (rows : List FieldRow) : Bool :=
  sl && rows.any (fun r => r.acc = .rwl && r.fld.get old ≠ r.fld.get v)

/-- The counters of R6 and R7. -/
def rsvdWr : Ctr := ctr 0x0001 0 0
/-- Writes refused by the seal (R7). -/
def sealWr : Ctr := ctr 0x0001 1 0

/-- What a write counts: a nonzero value for a reserved bit (R6), and a value the seal refuses (R7). -/
def countWrite (rows : List FieldRow) (old v : Word) (s : State) : State :=
  let s := if v &&& ~~~(namedBits rows) ≠ 0 then bump rsvdWr s else s
  if sealRefuses (sealed s) old v rows then bump sealWr s else s

/-- A write to a register by its access codes, with the reserved-bit and seal rules (R5 to R7). -/
def plainWrite (a : Nat) (v : Word) (s : State) : State :=
  match findReg a with
  | none => s
  | some (r, _, _) =>
    let old := getReg s a
    countWrite r.fields old v (rewritten a (setReg s a (r.fields.foldl (writeField (sealed s) v) old)))

/-- A write that the unit's own check declines whole: the register keeps its word, and R6 and R7 still count what the write carries. -/
def declineWrite (a : Nat) (v : Word) (s : State) : State :=
  match findReg a with
  | none => s
  | some (r, _, _) => countWrite r.fields (getReg s a) v s

/-- A write that the unit's own check declines in part: the register takes `kept`, and R6 and R7 count what the write `v` carried. -/
def writeInPart (a : Nat) (kept v : Word) (s : State) : State :=
  match findReg a with
  | none => s
  | some (r, _, _) =>
    let old := getReg s a
    countWrite r.fields old v (rewritten a (setReg s a (r.fields.foldl (writeField (sealed s) kept) old)))

/-! Wide registers (R9 to R11). -/

/-- The latch of the wide register at lo. -/
def getLatch (s : State) (lo : Nat) : Option Latch := tabGet (fun _ => none) s.latches lo

/-- The state after the latch at lo is replaced. -/
def setLatch (s : State) (lo : Nat) (l : Option Latch) : State :=
  { s with latches := tabSet (fun _ => none) s.latches lo l }

/-- The write stage of the wide register at lo. -/
def getStage (s : State) (lo : Nat) : Option Stage := tabGet (fun _ => none) s.stages lo

/-- The state after the stage at lo is replaced. -/
def setStage (s : State) (lo : Nat) (g : Option Stage) : State :=
  { s with stages := tabSet (fun _ => none) s.stages lo g }

/-- A write of _HI (part 1) or _TOP (part 2): the stage keeps the part under the writer's tag, and another master's write
replaces its contents and tag (R10). -/
def stagePart (id : MasterId) (lo part : Nat) (v : Word) (s : State) : State :=
  let g : Stage :=
    match getStage s lo with
    | some g => if g.tag = id then g else { tag := id, hi := none, top := none }
    | none => { tag := id, hi := none, top := none }
  setStage s lo (some (if part = 1 then { g with hi := some v } else { g with top := some v }))

/-- The upper parts that a commit of _LO takes: the staged ones if the stage holds the master's tag, and the current ones
otherwise (R11). -/
def stagedUpper (s : State) (id : MasterId) (lo : Nat) (curHi curTop : Word) : Word × Word :=
  match getStage s lo with
  | some g => if g.tag = id then (g.hi.getD curHi, g.top.getD curTop) else (curHi, curTop)
  | none => (curHi, curTop)

/-- A read of _LO: the upper parts are latched for the reading master (R9). -/
def latchUpper (id : MasterId) (lo : Nat) (hi top ext : Word) (s : State) : State :=
  setLatch s lo (some { tag := id, hi := hi, top := top, ext := ext })

/-- A read of an upper part: the latched part for the master that holds the latch, and the live part otherwise (R9). -/
def upperRead (s : State) (id : MasterId) (lo part : Nat) (live : Word) : Word :=
  match getLatch s lo with
  | some l => if l.tag = id then (if part = 1 then l.hi else if part = 2 then l.top else l.ext) else live
  | none => live

/-- A word with the bits of a register's fields only. -/
def fieldBits (a : Nat) (v : Word) : Word :=
  match findReg a with
  | some (r, _, _) => v &&& namedBits r.fields
  | none => 0

/-- A commit of a wide read and write register: all parts change together, and the stage is emptied (R11). Reserved bits of
the parts are counted when they are written (R6). -/
def commitWide (id : MasterId) (lo parts : Nat) (v : Word) (s : State) : State :=
  let (hi, top) := stagedUpper s id lo (getReg s (lo + 4)) (getReg s (lo + 8))
  let s := setReg s lo (fieldBits lo v)
  let s := setReg s (lo + 4) (fieldBits (lo + 4) hi)
  let s := if 3 ≤ parts then setReg s (lo + 8) (fieldBits (lo + 8) top) else s
  setStage s lo none

/-- Counts the reserved bits of a write to a part of a wide register (R6). -/
def countPart (a : Nat) (v : Word) (s : State) : State :=
  match findReg a with
  | some (r, _, _) => if v &&& ~~~(namedBits r.fields) ≠ 0 then bump rsvdWr s else s
  | none => s

end Sys2Proof.Machine
end

