-- ==== Sys2Proof/Machine/Notices.lean ====
section
/-! DEFINITION. Pigeonhole queues (chapter 06): the entry of a notice, priority and overflow, reading, flushing and
configuring a queue. -/

namespace Sys2Proof.Machine

/-- Word 0 of an item (R151). -/
def itemWord0 (it : Item) : DWord :=
  BitVec.ofNat 64 (it.cap % 2 ^ 16 + it.inst % 2 ^ 8 * 2 ^ 16 + it.code % 2 ^ 8 * 2 ^ 24 + it.arg % 2 ^ 16 * 2 ^ 32 +
    it.pri % 8 * 2 ^ 48 + bit1 it.lost * 2 ^ 51 + it.seq % 2 ^ 11 * 2 ^ 53)


/-- A queue's capacity in items: SIZE 0 is treated as 1 (PH_CFG). -/
def phCapacity (s : State) (q : Nat) : Nat := 16 * max 1 (getF s (R.PH_CFG q) F.PH_CFG_SIZE)

/-- The priority that PH_PRI gives a code's class (R152). -/
def phPriority (s : State) (q code : Nat) : Nat :=
  let c := noticeClass code
  getF s (R.PH_PRI q)
    (if c = 0 then F.PH_PRI_INFO else if c = 1 then F.PH_PRI_DATA else if c = 2 then F.PH_PRI_WARN else F.PH_PRI_FAULT)

/-- The lowest priority among items. -/
def lowestPri (its : List Item) : Nat := its.foldl (fun m it => min m it.pri) 7

/-- The items without the youngest one of a priority (R153). -/
def dropYoungest (pri : Nat) (its : List Item) : List Item :=
  match its.reverse.span (fun it => it.pri ≠ pri) with
  | (later, _ :: earlier) => earlier.reverse ++ later.reverse
  | (later, []) => later.reverse

/-- The next item in read order: the highest priority first, and entry order within it (R152). -/
def nextItem : List Item → Option Item
  | [] => none
  | it :: rest =>
    match nextItem rest with
    | none => some it
    | some b => if b.pri ≤ it.pri then some it else some b

/-- Both copies of the pointers agree (R154). -/
def pointersAgree (p : PhQueue) : Bool := p.wr = p.wrCopy && p.rd = p.rdCopy

/-- An item is appended to a queue that has room: it is stamped with SEQ and LOST, and the write pointer advances (R152). -/
def appendItem (cap : Nat) (it : Item) (lost : Bool) (p : PhQueue) : PhQueue :=
  { p with
    items := p.items ++ [{ it with seq := p.seq, lost := lost || p.lostNext }],
    seq := (p.seq + 1) % 2048, lostNext := false,
    wr := (p.wr + 1) % cap, wrCopy := (p.wrCopy + 1) % cap }

/-- An arriving item enters a queue, displaces an item of lower priority, or is lost (R153). -/
def enterItem (q : Nat) (it : Item) (lost : Bool) (s : State) : State :=
  let p := getPh s q
  let cap := phCapacity s q
  let it := { it with pri := phPriority s q it.code }
  if getF s (R.PH_CFG q) F.PH_CFG_EN = 0 then lostItem q (setPh s q { p with lostNext := true })
  else if p.items.length < cap then setPh s q (appendItem cap it lost p)
  else if lowestPri p.items < it.pri then
    let p := { p with items := dropYoungest (lowestPri p.items) p.items, rd := (p.rd + 1) % cap, rdCopy := (p.rdCopy + 1) % cap }
    lostItem q (setPh s q (appendItem cap it true p))
  else lostItem q (setPh s q { p with lostNext := true })

/-- The pointer check of every entry and every read: on a mismatch the queue is emptied, PTRERR is set and counted, and a
FAULT notice goes to queue 0, into the emptied queue itself when q is 0; its CODE within the class and its ARG are open
(R154, log entry 12). -/
def pointerCheck (q : Nat) (s : State) : State :=
  let p := getPh s q
  if pointersAgree p then s
  else
    let s := setPh s q { p with items := [], wr := 0, wrCopy := 0, rd := 0, rdCopy := 0 }
    let s := setB s (R.PH_STAT q) F.PH_STAT_PTRERR true
    let s := bump (ctr 0x0009 1 q) s
    let (c, s) := fresh 6 s
    let (a, s) := fresh 16 s
    let it : Item := { cap := 0x0009, inst := q, code := 0xC0 + c.toNat, arg := a.toNat, pri := 0, lost := false, seq := 0,
                       pm := pmVd s (getF s (R.PH_CFG 0) F.PH_CFG_VD) }
    if q = 0 then enterItem 0 it false s else postPm 0 0x0009 q it.code it.arg it.pm s

/-- The first waiting item of a source, with the rest. -/
def takeWaiting (cap inst : Nat) : List Waiting → Option (Waiting × List Waiting)
  | [] => none
  | w :: ws =>
    if w.item.cap = cap ∧ w.item.inst = inst then some (w, ws)
    else
      match takeWaiting cap inst ws with
      | some (x, rest) => some (x, w :: rest)
      | none => none

/-- NOTICE_ENTRY (R152 to R154, R157): the oldest waiting item of a source enters its queue once every write that the source
issued earlier on the interconnect is committed. LOST stays due to the source's next item that enters. -/
def execNoticeEntry (cap : BitVec 16) (inst : BitVec 8) (s : State) : Host.Outcome State Fault Refusal :=
  let key := (cap.toNat, inst.toNat)
  if key ∈ s.notices.uncommitted then .next s
  else
    match takeWaiting cap.toNat inst.toNat s.notices.waiting with
    | none => .next s
    | some (w, rest) =>
      let lost := decide (key ∈ s.notices.srcLost)
      let s := pointerCheck w.queue (onNotices (fun x => { x with waiting := rest }) s)
      let t := enterItem w.queue w.item lost s
      .next (if (getPh t w.queue).seq = (getPh s w.queue).seq then t
        else onNotices (fun x => { x with srcLost := x.srcLost.filter (fun k => k ≠ key) }) t)

/-- A read of PH_POP (R156): the next item leaves the queue, its low word is returned and the rest is latched. Bit w of `bad` marks
the item's 64-bit word w as uncorrectable: it is delivered poisoned (R154, R394). -/
def popQueue (id : MasterId) (q : Nat) (bad : BitVec 2) (s : State) : State × Word × Bool :=
  if getB s (R.PH_CFG q) F.PH_CFG_SUB then (setB s (R.PH_STAT q) F.PH_STAT_CFGREF true, 0, false)
  else
    let s := pointerCheck q s
    let p := getPh s q
    match nextItem p.items with
    | none =>
      (setPh s q { p with latch := some { tag := id, w1 := 0, w2 := 0, w3 := 0, read1 := false, read2 := false, read3 := false,
                                          isItem := false, bad := 0 } }, 0, false)
    | some it =>
      let cap := phCapacity s q
      let w := itemWord0 it
      let l : PopLatch := { tag := id, w1 := hi32 w, w2 := lo32 it.pm, w3 := hi32 it.pm, read1 := false, read2 := false,
                            read3 := false, isItem := true, bad := bad }
      (setPh s q { p with items := p.items.erase it, latch := some l, rd := (p.rd + 1) % cap, rdCopy := (p.rdCopy + 1) % cap },
        lo32 w, bad.getLsbD 0)

/-- PH_POP (R156). -/
def execPhPop (m : Master) (q : Fin 32) (bad : BitVec 2) (s : State) : Host.Outcome State Fault Refusal :=
  .next (guardReadP m (R.PH_POP q) (popQueue (masterId s m) q bad) s)

/-- A read of PH_ITEM1 to PH_ITEM3 (k 0 to 2): the latched part for the master that holds the latch; 0 and TORN for any
other (R156). -/
def readItem (id : MasterId) (q k : Nat) (s : State) : State × Word × Bool :=
  let p := getPh s q
  let torn := (setB s (R.PH_STAT q) F.PH_STAT_TORN true, (0 : Word), false)
  match p.latch with
  | none => torn
  | some l =>
    if l.tag = id then
      if k = 0 then (setPh s q { p with latch := some { l with read1 := true } }, l.w1, l.bad.getLsbD 0)
      else if k = 1 then (setPh s q { p with latch := some { l with read2 := true } }, l.w2, l.bad.getLsbD 1)
      else (setPh s q { p with latch := some { l with read3 := true } }, l.w3, l.bad.getLsbD 1)
    else torn

/-- PH_ITEM_READ (R156). -/
def execPhItemRead (m : Master) (q : Fin 32) (k : Fin 3) (s : State) : Host.Outcome State Fault Refusal :=
  .next (guardReadP m (R.PH_ITEM q k) (readItem (masterId s m) q k) s)

/-- Emptying a queue: the parts of a popped item not yet read become 0, and FLUSHED says that an item was cut (R155). -/
def flushQueue (q : Nat) (s : State) : State :=
  let p := getPh s q
  match p.latch with
  | none => setPh s q { p with items := [], rd := p.wr, rdCopy := p.wrCopy }
  | some l =>
    let cut := l.isItem && !(l.read1 && l.read2 && l.read3)
    let l := { l with w1 := if l.read1 then l.w1 else 0, w2 := if l.read2 then l.w2 else 0, w3 := if l.read3 then l.w3 else 0,
                      bad := if l.read1 && l.read2 && l.read3 then l.bad else 0 }
    let s := setPh s q { p with items := [], latch := some l, rd := p.wr, rdCopy := p.wrCopy }
    if cut then setB s (R.PH_STAT q) F.PH_STAT_FLUSHED true else s

/-- A write of PH_CTL. -/
def writePhCtl (q : Nat) (v : Word) (s : State) : State :=
  let s := plainWrite (R.PH_CTL q) v s
  if F.PH_CTL_FLUSH.get v = 1 then flushQueue q s else s

/-- FLUSH (R155): a write of PH_CTL with FLUSH 1. -/
def execFlush (m : Master) (q : Fin 32) (v : Word) (s : State) : Host.Outcome State Fault Refusal :=
  .next (guardWrite m (R.PH_CTL q) (fun s => (writePhCtl q (F.PH_CTL_FLUSH.put v 1) s, none)) s)

/-- The pool items of a queue configured by a word: first, and one past the last. -/
def phRegion (w : Word) : Nat × Nat :=
  let b := 16 * F.PH_CFG_BASE.get w
  (b, b + 16 * max 1 (F.PH_CFG_SIZE.get w))

/-- Two ranges share an item. -/
def overlap (a b : Nat × Nat) : Bool := a.1 < b.2 && b.1 < a.2

/-- A write of PH_CFG is refused (R160). -/
def phCfgRefused (s : State) (q : Nat) (v : Word) : Bool :=
  let old := getReg s (R.PH_CFG q)
  (F.PH_CFG_EN.get old = 1 &&
    (F.PH_CFG_BASE.get v ≠ F.PH_CFG_BASE.get old || F.PH_CFG_SIZE.get v ≠ F.PH_CFG_SIZE.get old)) ||
  (F.PH_CFG_EN.get v = 1 &&
    (8192 < (phRegion v).2 ||
      (List.range 32).any (fun r => r ≠ q && getF s (R.PH_CFG r) F.PH_CFG_EN = 1 &&
        overlap (phRegion v) (phRegion (getReg s (R.PH_CFG r)))))) ||
  (q = 0 && F.PH_CFG_EN.get v = 0)

/-- A write of PH_CFG (R160): refused with CFGREF, or performed; clearing EN empties the queue. -/
def writePhCfg (q : Nat) (v : Word) (s : State) : State :=
  if phCfgRefused s q v then setB (declineWrite (R.PH_CFG q) v s) (R.PH_STAT q) F.PH_STAT_CFGREF true
  else
    let s := plainWrite (R.PH_CFG q) v s
    if F.PH_CFG_EN.get v = 0 then flushQueue q s else s

/-- PH_CFG_WRITE (R160). -/
def execPhCfgWrite (m : Master) (q : Fin 32) (v : Word) (s : State) : Host.Outcome State Fault Refusal :=
  .next (guardWrite m (R.PH_CFG q) (fun s => (writePhCfg q v s, none)) s)

end Sys2Proof.Machine
end

