-- ==== Sys2Proof/Machine/Arbiter.lean ====
section
/-! DEFINITION. The arbiter of the local interconnect (chapter 06): ranks, eligibility, quota and preemption. -/

namespace Sys2Proof.Machine

/-- A requester's rank (R145). -/
def rankOf (s : State) (n : Nat) : Nat := getF s (R.ARB_PRI n) F.ARB_PRI_RANK

/-- A requester's PRESENT side-band (R149): a Scribe cluster in unit reset is not present. -/
def present (s : State) (n : Nat) : Bool :=
  bitOf (getReg s R.ARB_PRESENT).toNat n && !(4 ≤ n && n ≤ 19 && inUnitReset s 0x0003 (n - 4))

/-- A requester is eligible: a request pending, PRESENT high, not masked by quota (R145). -/
def eligible (s : State) (n : Nat) : Bool :=
  n ∈ s.arb.pendingReq && present s n && !(n ∈ s.arb.masked && rankOf s n = 3)

/-- The eligible requester of a rank that comes first after the one last granted in it, wrapping from 23 to 0 (R145). -/
def firstInRank (s : State) (rank : Nat) : Option Nat :=
  let last := tabGet (fun _ => 23) s.arb.lastGranted rank
  ((List.range 24).map (fun k => (last + 1 + k) % 24)).find? (fun n => eligible s n && rankOf s n = rank)

/-- The requester that a decision grants (R145). -/
def arbWinner (s : State) : Option Nat :=
  match firstInRank s 3 with
  | some n => some n
  | none =>
    match firstInRank s 2 with
    | some n => some n
    | none =>
      match firstInRank s 1 with
      | some n => some n
      | none => firstInRank s 0

/-- The holder shown in ARB_STAT. -/
def showHolder (s : State) : State :=
  match s.arb.holder with
  | some n => setB (setF s R.ARB_STAT F.ARB_STAT_HOLDER n) R.ARB_STAT F.ARB_STAT_BUSY true
  | none => setB s R.ARB_STAT F.ARB_STAT_BUSY false

/-- The quota Q in force, 0 for no limit (R147). -/
def quotaQ (s : State) : Nat := F.ARB_QUOTA_Q.get s.arb.quotaInForce

/-- A grant: the requester holds the interconnect, the grant is counted, and a rank-3 grant is charged to its quota; a
requester whose charge reaches Q is masked (R145, R147). -/
def grant (n : Nat) (s : State) : State :=
  let rank := rankOf s n
  let s := (onArb (fun x => { x with holder := some n, pendingReq := x.pendingReq.filter (fun k => k ≠ n), lastGranted := tabSet (fun _ => 23) x.lastGranted rank n }) s)
  let s := showHolder (bump (ctr 0x0008 0 n) s)
  if rank = 3 then
    let c := tabGet (fun _ => 0) s.arb.charged n + 1
    let s := (onArb (fun x => { x with charged := tabSet (fun _ => 0) x.charged n c }) s)
    if quotaQ s ≠ 0 ∧ quotaQ s ≤ c then
      let s := (onArb (fun x => { x with masked := n :: x.masked }) s)
      let s := setReg s R.ARB_STAT (getReg s R.ARB_STAT ||| BitVec.ofNat 32 (2 ^ n))
      bump (ctr 0x0008 2 n) s
    else s
  else s

/-- One decision of the arbiter (R145): a locked grant and a holder with beats left keep the interconnect. -/
def arbDecide (s : State) : State :=
  if getB s R.ARB_STAT F.ARB_STAT_LOCKED ∨ s.arb.holder.isSome then s
  else
    match arbWinner s with
    | some n => grant n s
    | none => s

/-- A requester raises its request. -/
def request (n : Nat) (s : State) : State :=
  if n ∈ s.arb.pendingReq ∨ s.arb.holder = some n then s
  else (onArb (fun x => { x with pendingReq := x.pendingReq ++ [n] }) s)

/-- A requester's access ends: its grant or its pending request goes. The bridge keeps the interconnect between the accesses of a locked
grant (R150). -/
def endRequest (n : Nat) (s : State) : State :=
  let keep := n = 0 ∧ getB s R.ARB_STAT F.ARB_STAT_LOCKED
  let s := (onArb (fun x => { x with pendingReq := x.pendingReq.filter (fun k => k ≠ n), holder := if x.holder = some n ∧ ¬keep then none else x.holder }) s)
  showHolder s

/-- Requester n asks for the interconnect and the arbiter decides: n holds it afterwards only when the decision was for n (R145). -/
def acquire (n : Nat) (s : State) : State := arbDecide (request n s)

/-- Requester n holds the interconnect. -/
def holds (s : State) (n : Nat) : Bool := s.arb.holder = some n

/-- An access that the bridge makes on its own account is counted and charged like a grant, beside the holder (R186). -/
def sideGrant (n : Nat) (s : State) : State :=
  let h := s.arb.holder
  let p := s.arb.pendingReq
  showHolder (onArb (fun x => { x with holder := h, pendingReq := p }) (grant n s))

/-- The change of a requester's rank to a lower one preempts it when it holds the interconnect, no locked grant stands and an
eligible requester now outranks it (R148): its request stays pending, its burst leaves nothing behind, and the new winner is
granted. -/
def preempt (n : Nat) (s : State) : State :=
  if s.arb.holder = some n ∧ ¬getB s R.ARB_STAT F.ARB_STAT_LOCKED ∧
      (List.range 24).any (fun k => k ≠ n && eligible s k && rankOf s n < rankOf s k) then
    let s := (onArb (fun x => { x with holder := none }) s)
    let s := bump (ctr 0x0008 1 n) (request n s)
    arbDecide (showHolder s)
  else s

/-- A write of ARB_PRIn (R148). -/
def writeArbPri (n : Nat) (v : Word) (s : State) : State :=
  let old := rankOf s n
  let s := plainWrite (R.ARB_PRI n) v s
  if rankOf s n < old then preempt n s else s

/-- ARB_PRI_WRITE (R148). -/
def execArbPriWrite (m : Master) (n : Fin 24) (v : Word) (s : State) : Host.Outcome State Fault Refusal :=
  .next (guardWrite m (R.ARB_PRI n) (fun s => (writeArbPri n v s, none)) s)

/-- ARB_QUOTA_WRITE (R147): the new quota and window take effect at the next window boundary. -/
def execArbQuotaWrite (m : Master) (v : Word) (s : State) : Host.Outcome State Fault Refusal :=
  .next (guardWrite m R.ARB_QUOTA (fun s => (plainWrite R.ARB_QUOTA v s, none)) s)

/-- The first cycle of a new window: every count returns to 0, every mask clears, and the quota written last is in force
(R147). -/
def windowEnd (s : State) : State :=
  (onArb (fun x => { x with charged := [], masked := [], quotaInForce := getReg s R.ARB_QUOTA }) s)

/-- QUOTA_WINDOW_END (R147). -/
def execQuotaWindowEnd (s : State) : Host.Outcome State Fault Refusal := .next (windowEnd s)

/-- The address LI_TOUT_ADDR keeps, LI_STAT.TOUT and the timeout counter, when a target does not complete an access (R143). -/
def noteTimeout (n a : Nat) (s : State) : State :=
  let s := setB s R.LI_STAT F.LI_STAT_TOUT true
  let s := setReg s R.LI_TOUT_ADDR (BitVec.ofNat 32 a)
  answer (.err .liTimeout) (bump (ctr 0x0008 3 n) (endRequest n s))

end Sys2Proof.Machine
end

