-- ==== Sys2Proof/Machine/Crypto.lean ====
section
/-! DEFINITION. SHA-256 (FIPS 180-4) and the verification of an ECDSA signature on P-256 (FIPS 186-5), which R416, R420, R423 and
R464 use by name. -/

namespace Sys2Proof.Machine.Crypto

/-- The primes below n, in rising order. -/
def primesBelow (n : Nat) : List Nat :=
  (List.range n).filter (fun p => 2 ≤ p && (List.range p).all (fun d => d < 2 || p % d ≠ 0))

/-- The largest r with r ^ k ≤ x, by bisection below 2 ^ n. -/
def rootFloor (k x : Nat) : Nat → Nat → Nat
  | 0, lo => lo
  | n + 1, lo => if (lo + 2 ^ n) ^ k ≤ x then rootFloor k x n (lo + 2 ^ n) else rootFloor k x n lo

/-- The first 32 fraction bits of the k-th root of p. -/
def rootFraction (k p : Nat) : Word := BitVec.ofNat 32 (rootFloor k (p * 2 ^ (32 * k)) 40 0)

/-- The round constants: fraction bits of the cube roots of the first 64 primes. -/
def roundConstants : List Word := (primesBelow 312).map (rootFraction 3)

/-- The chaining values at the start: fraction bits of the square roots of the first eight primes. -/
def startValues : List Word := (primesBelow 20).map (rootFraction 2)

/-- The schedule: from the last 16 words, newest first, the next one, n times. -/
def schedule : Nat → List Word → List Word
  | 0, ws => ws.reverse
  | n + 1, ws =>
    let a := ws[14]?.getD 0
    let b := ws[1]?.getD 0
    let s0 := a.rotateRight 7 ^^^ a.rotateRight 18 ^^^ (a >>> 3)
    let s1 := b.rotateRight 17 ^^^ b.rotateRight 19 ^^^ (b >>> 10)
    schedule n ((s1 + ws[6]?.getD 0 + s0 + ws[15]?.getD 0) :: ws)

/-- The eight working variables. -/
structure Vars where
  a : Word
  b : Word
  c : Word
  d : Word
  e : Word
  f : Word
  g : Word
  h : Word
deriving DecidableEq, Repr

/-- One round with a constant and a schedule word. -/
def round (v : Vars) (kw : Word × Word) : Vars :=
  let s1 := v.e.rotateRight 6 ^^^ v.e.rotateRight 11 ^^^ v.e.rotateRight 25
  let ch := (v.e &&& v.f) ^^^ (~~~v.e &&& v.g)
  let t1 := v.h + s1 + ch + kw.1 + kw.2
  let s0 := v.a.rotateRight 2 ^^^ v.a.rotateRight 13 ^^^ v.a.rotateRight 22
  let maj := (v.a &&& v.b) ^^^ (v.a &&& v.c) ^^^ (v.b &&& v.c)
  { a := t1 + (s0 + maj), b := v.a, c := v.b, d := v.c, e := v.d + t1, f := v.e, g := v.f, h := v.g }

/-- The big-endian number of a list of bytes. -/
def beNat (bs : List Byte) : Nat := bs.foldl (fun n b => 256 * n + b.toNat) 0

/-- The n big-endian bytes of a number. -/
def beBytes : Nat → Nat → List Byte
  | 0, _ => []
  | n + 1, x => beBytes n (x / 256) ++ [BitVec.ofNat 8 x]

/-- The first n words of a block. -/
def blockWords : Nat → List Byte → List Word
  | 0, _ => []
  | n + 1, bs => BitVec.ofNat 32 (beNat (bs.take 4)) :: blockWords n (bs.drop 4)

/-- The chaining values after a block of 64 bytes. -/
def compress (v : Vars) (block : List Byte) : Vars :=
  let ws := schedule 48 (blockWords 16 block).reverse
  let r := (roundConstants.zip ws).foldl round v
  { a := v.a + r.a, b := v.b + r.b, c := v.c + r.c, d := v.d + r.d, e := v.e + r.e, f := v.f + r.f, g := v.g + r.g, h := v.h + r.h }

/-- The message with its padding: a one bit, zeros, and the length in bits. -/
def padded (bs : List Byte) : List Byte :=
  bs ++ [0x80] ++ List.replicate ((119 - bs.length % 64) % 64) 0 ++ beBytes 8 (8 * bs.length)

/-- The chaining values after n blocks. -/
def overBlocks : Nat → Vars → List Byte → Vars
  | 0, v, _ => v
  | n + 1, v, bs => overBlocks n (compress v (bs.take 64)) (bs.drop 64)

/-- The start values as working variables. -/
def startVars : Vars :=
  let w := fun i => startValues[i]?.getD 0
  { a := w 0, b := w 1, c := w 2, d := w 3, e := w 4, f := w 5, g := w 6, h := w 7 }

/-- SHA-256: 32 bytes. -/
def sha256 (bs : List Byte) : List Byte :=
  let p := padded bs
  let v := overBlocks (p.length / 64) startVars p
  [v.a, v.b, v.c, v.d, v.e, v.f, v.g, v.h].flatMap (fun w => beBytes 4 w.toNat)

/-- The prime of P-256. -/
def fieldP : Nat := 2 ^ 256 - 2 ^ 224 + 2 ^ 192 + 2 ^ 96 - 1
/-- The order of the base point. -/
def orderN : Nat := 0xFFFFFFFF00000000FFFFFFFFFFFFFFFFBCE6FAADA7179E84F3B9CAC2FC632551
/-- The constant term of the curve. -/
def curveB : Nat := 0x5AC635D8AA3A93E7B3EBBD55769886BC651D06B0CC53B0F63BCE3C3E27D2604B
/-- The base point. -/
def baseX : Nat := 0x6B17D1F2E12C4247F8BCE6E563A440F277037D812DEB33A0F4A13945D898C296
/-- Its ordinate. -/
def baseY : Nat := 0x4FE342E2FE1A7F9B8EE7EB4A7C0F9E162BCE33576B315ECECBB6406837BF51F5

/-- x ^ e modulo m, over the low n bits of e. -/
def powMod (m : Nat) : Nat → Nat → Nat → Nat
  | 0, _, _ => 1
  | n + 1, x, e =>
    let r := powMod m n (x * x % m) (e / 2)
    if e % 2 = 1 then x * r % m else r

/-- The inverse modulo a prime. -/
def invMod (m x : Nat) : Nat := powMod m 256 x (m - 2)

/-- A point of the curve; none is the point at infinity. -/
abbrev Point := Option (Nat × Nat)

/-- The sum of two points (a = -3). -/
def addPoints : Point → Point → Point
  | none, q => q
  | p, none => p
  | some (x1, y1), some (x2, y2) =>
    if x1 = x2 ∧ (y1 + y2) % fieldP = 0 then none
    else
      let l := if x1 = x2 then (3 * x1 * x1 + fieldP - 3) * invMod fieldP (2 * y1) % fieldP
        else (y2 + fieldP - y1) * invMod fieldP ((x2 + fieldP - x1) % fieldP) % fieldP
      let x3 := (l * l + 2 * fieldP - x1 - x2) % fieldP
      some (x3, (l * (x1 + fieldP - x3) + fieldP - y1) % fieldP)

/-- k times a point, over the low n bits of k. -/
def mulPoint : Nat → Nat → Point → Point
  | 0, _, _ => none
  | n + 1, k, p =>
    let r := mulPoint n (k / 2) (addPoints p p)
    if k % 2 = 1 then addPoints p r else r

/-- The coordinates are those of a point on the curve. -/
def onCurve (x y : Nat) : Bool := x < fieldP && y < fieldP && y * y % fieldP = (x * x * x + (fieldP - 3) * x + curveB) % fieldP

/-- A signature (r, s) verifies for a digest under the public key (x, y). -/
def verifies (x y : Nat) (digest : List Byte) (r s : Nat) : Bool :=
  if ¬onCurve x y ∨ r = 0 ∨ orderN ≤ r ∨ s = 0 ∨ orderN ≤ s then false
  else
    let w := invMod orderN s
    let u := beNat digest * w % orderN
    let v := r * w % orderN
    match addPoints (mulPoint 256 u (some (baseX, baseY))) (mulPoint 256 v (some (x, y))) with
    | none => false
    | some (px, _) => px % orderN = r

end Sys2Proof.Machine.Crypto
end

