-- ==== Sys2Proof/Machine/Envelope.lean ====
section
/-! DEFINITION. Envelopes (chapter 10): header words, the two CRCs, sizes in cells, kinds and their ports, and the envelopes
that the node's own sources build. -/

namespace Sys2Proof.Machine

/-- Header word 0, the route word (R241). -/
def routeWord (e : Envelope) : DWord :=
  e.cls ++ e.kind ++ BitVec.ofBool e.mc ++ e.dst ++ e.src ++ e.hops ++ e.lenw ++ e.rsv0

/-- Header word 1, the transaction word (R241). -/
def transWord (e : Envelope) : DWord :=
  e.tag ++ BitVec.ofBool e.poisonAny ++ BitVec.ofBool e.ordered ++ BitVec.ofBool e.lock ++ BitVec.ofBool e.prefetch ++ e.addr

/-- Header word 2, the seal word (R241). -/
def sealWord (e : Envelope) : DWord := e.stamp ++ e.rsv2 ++ e.hcrc

/-- The trailer (R241). -/
def trailerWord (e : Envelope) : DWord := e.pcrc ++ e.poison

/-- One bit of the CRC-16 register, polynomial 0x1021 (R242). -/
def crc16Bit (c : BitVec 16) : BitVec 16 := if c.msb then (c <<< 1) ^^^ 0x1021 else c <<< 1

/-- CRC-16/CCITT-FALSE over bytes, from a register value (R242). -/
def crc16From (c : BitVec 16) : List Byte → BitVec 16
  | [] => c
  | b :: bs =>
    let c := c ^^^ ((b.zeroExtend 16) <<< 8)
    crc16From (crc16Bit (crc16Bit (crc16Bit (crc16Bit (crc16Bit (crc16Bit (crc16Bit (crc16Bit c)))))))) bs

/-- One bit of the reflected CRC-32 register, polynomial 0x04C1_1DB7 (R242). -/
def crc32Bit (c : BitVec 32) : BitVec 32 := if c.getLsbD 0 then (c >>> 1) ^^^ 0xEDB88320 else c >>> 1

/-- CRC-32 over bytes, from a register value (R242). -/
def crc32From (c : BitVec 32) : List Byte → BitVec 32
  | [] => c
  | b :: bs =>
    let c := c ^^^ (b.zeroExtend 32)
    crc32From (crc32Bit (crc32Bit (crc32Bit (crc32Bit (crc32Bit (crc32Bit (crc32Bit (crc32Bit c)))))))) bs

/-- CRC-16/CCITT-FALSE: initial value 0xFFFF, no final exclusive-or (R242). -/
def crc16 (bs : List Byte) : BitVec 16 := crc16From 0xFFFF bs

/-- CRC-32 of IEEE 802.3 (R242). -/
def crc32 (bs : List Byte) : BitVec 32 := ~~~(crc32From 0xFFFFFFFF bs)

/-- The 22 bytes that HCRC covers (R242). -/
def hcrcBytes (e : Envelope) : List Byte :=
  leBytes 8 (routeWord e).toNat ++ leBytes 8 (transWord e).toNat ++ leBytes 6 ((sealWord e).toNat / 2 ^ 16)

/-- The header CRC an envelope should carry. -/
def hcrcOf (e : Envelope) : BitVec 16 := crc16 (hcrcBytes e)

/-- The payload CRC an envelope should carry; 0 with no payload (R242). -/
def pcrcOf (e : Envelope) : BitVec 32 := crc32 (e.payload.flatMap (fun w => leBytes 8 w.toNat))

/-- The outcome of the payload check (R218). -/
inductive PayloadCheck where
  | good | stomped | bad
deriving DecidableEq, Repr

/-- PCRC compared with the CRC of the payload (R218). -/
def payloadCheck (e : Envelope) : PayloadCheck :=
  if e.pcrc = pcrcOf e then .good else if e.pcrc = ~~~(pcrcOf e) then .stomped else .bad

/-- The cells an envelope of n payload words occupies (R210). -/
def cellsFor (n : Nat) : Nat := ceilDiv (32 + 8 * n) 64

/-- The cells an envelope occupies. -/
def cellsOf (e : Envelope) : Nat := cellsFor e.lenw.toNat

/-- The envelope with LENW and both CRCs as they should be. -/
def withCrcs (e : Envelope) : Envelope :=
  let e := { e with lenw := BitVec.ofNat 6 e.payload.length }
  let e := { e with pcrc := pcrcOf e }
  { e with hcrc := hcrcOf e }

/-- The kinds (R245). -/
def kWriteP : BitVec 5 := 0x01
/-- WRITE_A. -/
def kWriteA : BitVec 5 := 0x02
/-- WRITE_ACK. -/
def kWriteAck : BitVec 5 := 0x03
/-- READ. -/
def kRead : BitVec 5 := 0x04
/-- READ_DATA. -/
def kReadData : BitVec 5 := 0x05
/-- LOCK_READ. -/
def kLockRead : BitVec 5 := 0x06
/-- UNLOCK_WRITE. -/
def kUnlockWrite : BitVec 5 := 0x07
/-- NDN. -/
def kNdn : BitVec 5 := 0x08
/-- NOTICE. -/
def kNotice : BitVec 5 := 0x09
/-- CYCLIC. -/
def kCyclic : BitVec 5 := 0x0A
/-- TRACK_SAMPLE. -/
def kTrackSample : BitVec 5 := 0x0B
/-- BEACON. -/
def kBeacon : BitVec 5 := 0x0C
/-- DELAY_PROBE. -/
def kDelayProbe : BitVec 5 := 0x0D
/-- DELAY_REPLY. -/
def kDelayReply : BitVec 5 := 0x0E
/-- CENSUS. -/
def kCensus : BitVec 5 := 0x0F
/-- CENSUS_REPLY. -/
def kCensusReply : BitVec 5 := 0x10
/-- SNAPSHOT_MARK. -/
def kSnapshotMark : BitVec 5 := 0x11
/-- FOLIO. -/
def kFolio : BitVec 5 := 0x12
/-- FOLIO_ACK. -/
def kFolioAck : BitVec 5 := 0x13
/-- LINK_EVENT. -/
def kLinkEvent : BitVec 5 := 0x14
/-- BUS_FRAME. -/
def kBusFrame : BitVec 5 := 0x15
/-- MONITOR. -/
def kMonitor : BitVec 5 := 0x16
/-- HEALTH. -/
def kHealth : BitVec 5 := 0x17

/-- Code 0x00 and codes 0x18 to 0x1F are reserved (R245). -/
def reservedKind (k : BitVec 5) : Bool := k = 0 || 0x18 ≤ k.toNat

/-- The master that a request's tag names: SRC, and MI in TAG[10:7] (R24, R166). -/
def taggedMaster (e : Envelope) : MasterId := e.src ++ e.tag.extractLsb' 7 4

/-- The internal port of a kind (R245). -/
def portOfKind (k : BitVec 5) : Nat :=
  if k.toNat ≤ 8 then 3
  else if k = kCyclic then 4
  else if k = kTrackSample ∨ k = kBeacon ∨ k = kDelayProbe ∨ k = kDelayReply ∨ k = kSnapshotMark then 5
  else if k = kBusFrame ∨ k = kNotice then 7
  else 6

/-- The kinds that an NDN answers (R189). -/
def ndnEligible (k : BitVec 5) : Bool :=
  k = kWriteP || k = kWriteA || k = kRead || k = kLockRead || k = kUnlockWrite || k = kBusFrame

/-- The payload words that a receiving node takes as poisoned: every word when POISON_ANY and the POISON bits below LENW
disagree (R201). -/
def poisonBits (e : Envelope) : BitVec 32 :=
  let n := e.lenw.toNat
  let low := e.poison &&& BitVec.ofNat 32 (2 ^ n - 1)
  if e.poisonAny = (low ≠ 0) then low else BitVec.ofNat 32 (2 ^ n - 1)

/-- POISON_ANY and the POISON bits below LENW disagree (R201). -/
def poisonMismatch (e : Envelope) : Bool :=
  e.poisonAny ≠ (e.poison &&& BitVec.ofNat 32 (2 ^ e.lenw.toNat - 1) ≠ 0)

/-- Payload word w, 0 beyond the payload. -/
def payloadWord (e : Envelope) (w : Nat) : DWord := (e.payload[w]?).getD 0

/-- The envelope's list of words has the length its LENW says. -/
def isFormed (e : Envelope) : Bool := e.payload.length = e.lenw.toNat

/-- An envelope as a row of a kind takes it: of that kind, with a payload of LENW words, of which one that the operand does not carry is open
(DESIGN CHOICE, log entry 126). An envelope of the kind that carries LENW words is itself. -/
def asKind (k : BitVec 5) (e : Envelope) : Envelope :=
  { e with kind := k, payload := (List.range e.lenw.toNat).map (fun i => (e.payload[i]?).getD (Config.missingWord e.hcrc.toNat i)) }

/-- An envelope that this node builds: its SRC is the node's address and its STAMP network time at dispatch (R241, R165). -/
def build (s : State) (cls : Nat) (kind : BitVec 5) (mc : Bool) (dst hops : Nat) (payload : List DWord) : Envelope :=
  withCrcs { Envelope.blank with
    cls := BitVec.ofNat 2 cls, kind := kind, mc := mc, dst := BitVec.ofNat 16 dst, src := BitVec.ofNat 16 (nodeAddr s),
    hops := BitVec.ofNat 12 hops, stamp := BitVec.ofNat 32 (nowNs s), payload := payload }

/-- A class field in which Scheduled is treated as Urgent. -/
def classOrUrgent (c : Nat) : Nat := if c = 0 then 1 else c

end Sys2Proof.Machine
end

