-- ==== Sys2Proof/Machine/Flash.lean ====
section
/-! DEFINITION. The flash (R412 to R430): boot headers, programming and its hold in BROWN, and persistent node data. Counters of
CAP 0x0018: 0 folio parts received, 1 duplicates, 2 drops, 3 refusals by reason, 4 folios written, 5 block erases, 6 sessions, 7
handovers, 8 fallbacks, 9 persistent records written, 10 replaced, 11 boots by BOOT_MODE. -/

namespace Sys2Proof.Machine

/-- The update agent after a change. -/
def onUpd (f : UpdState → UpdState) (s : State) : State := { s with upd := f s.upd }

/-- The agent's notices (R441). -/
def updNotice (code arg : Nat) (s : State) : State := post (getF s R.UPD_CTL F.UPD_CTL_NTC_Q) 0x0018 0 code arg s

/-- The flash window's base. -/
abbrev flashBase : Nat := 0x10000000

/-- Where a slot starts in the window (R413). -/
def slotBase (slot : Nat) : Nat := flashBase + (if slot = 0 then 0x100000 else 0x900000)

/-- In BROWN no flash program or erase starts (R430). -/
def flashHeld (s : State) : Bool := getB s R.PD_STAT F.PD_STAT_BROWN

/-- A range of flash is erased: every byte reads 0xFF. -/
def eraseFlash (a n : Nat) (s : State) : State := { s with mem := s.mem.filter (fun e => e.1 < a || a + n ≤ e.1) }

/-! Boot headers (R415). -/

/-- The 60 bytes that a boot header's CRC covers. -/
def headerBytes (h : BootHeader) : List Byte :=
  leBytes 4 0x48424C44 ++ leBytes 4 h.seq ++ leBytes 1 h.active ++ leBytes 1 h.state ++ leBytes 1 h.tries ++
  leBytes 1 h.slotA ++ leBytes 1 h.slotB ++ leBytes 3 0 ++ leBytes 8 h.imgA ++ leBytes 8 h.imgB ++ leBytes 28 0

/-- The boot header that 64 bytes hold, when MAGIC and CRC are correct. -/
def readHeader (bs : List Byte) : Option BootHeader :=
  let f := fun lo n => leNat ((bs.drop lo).take n)
  if f 0 4 = 0x48424C44 ∧ f 60 4 = (crc32 (bs.take 60)).toNat then
    some { seq := f 4 4, active := f 8 1, state := f 9 1, tries := f 10 1, slotA := f 11 1, slotB := f 12 1, imgA := f 16 8, imgB := f 24 8 }
  else none

/-- Copy i of the boot header, when it is valid. -/
def headerCopy (s : State) (i : Nat) : Option BootHeader := readHeader (getBytes s (flashBase + 0x1000 * i) 64)

/-- The governing boot header and its copy: the valid copy with the higher SEQ, and copy 0 on a tie. -/
def governing (s : State) : Option (Nat × BootHeader) :=
  match headerCopy s 0, headerCopy s 1 with
  | some a, some b => if a.seq < b.seq then some (1, b) else some (0, a)
  | some a, none => some (0, a)
  | none, some b => some (1, b)
  | none, none => none

/-- The boot header before any is written. -/
def BootHeader.empty : BootHeader :=
  { seq := 0, active := 0, state := 0, tries := 0, slotA := 0, slotB := 0, imgA := 0, imgB := 0 }

/-- The header that governs once waiting writes are done. -/
def presentHeader (s : State) : BootHeader :=
  match s.upd.headerWait with
  | some h => h
  | none => ((governing s).map (fun g => g.2)).getD BootHeader.empty

/-- A header is programmed with SEQ + 1 into the other copy's sector, which is erased first. -/
def programHeader (h : BootHeader) (s : State) : State :=
  let (copy, seq) := match governing s with
    | some (i, g) => (1 - i, (g.seq + 1) % 2 ^ 32)
    | none => (0, 1)
  let a := flashBase + 0x1000 * copy
  let bs := headerBytes { h with seq := seq }
  setBytes (eraseFlash a 0x1000 s) a (bs ++ leBytes 4 (crc32 bs).toNat)

/-- A new boot header is written, at the all-clear when the flash is held. -/
def writeHeader (h : BootHeader) (s : State) : State :=
  if flashHeld s then onUpd (fun u => { u with headerWait := some h }) s else programHeader h s

/-- A slot's state in a header. -/
def slotState (h : BootHeader) (slot : Nat) : Nat := if slot = 0 then h.slotA else h.slotB

/-- A header with a slot's state changed. -/
def putSlot (slot st : Nat) (h : BootHeader) : BootHeader := if slot = 0 then { h with slotA := st } else { h with slotB := st }

/-- A header with the IMAGE_ID of a slot changed. -/
def putImage (slot id : Nat) (h : BootHeader) : BootHeader := if slot = 0 then { h with imgA := id } else { h with imgB := id }

/-! Persistent node data (R427 to R430). -/

/-- Tokens of the persistent writer (R429). -/
def tokens (s : State) : Nat := getF s R.UPD_FLASH F.UPD_FLASH_TOKENS

/-- A record is appended to the persistent region: it costs a token. -/
def appendRecord (kind : Nat) (r : PersistRec) (s : State) : State :=
  let seq := s.upd.persistSeq + 1
  let s := setF s R.UPD_FLASH F.UPD_FLASH_TOKENS (tokens s - 1)
  bump (ctr 0x0018 9 0) (onUpd (fun u => { u with
    persistSeq := seq, persist := tabSet (fun _ => none) u.persist kind (some { r with seq := seq }) }) s)

/-- A record is submitted: appended when a token is there and the flash is free, and waiting otherwise; a newer record of a kind
replaces the one that waits (R429, R430). The spec gives the record types no numbers, so the notice's ARG is a free value. -/
def submitRecord (kind : Nat) (r : PersistRec) (s : State) : State :=
  if s.upd.persistWait = [] ∧ 0 < tokens s ∧ ¬flashHeld s then appendRecord kind r s
  else if s.upd.persistWait.any (fun w => w.1 = kind) then
    let s := onUpd (fun u => { u with persistWait := u.persistWait.map (fun w => if w.1 = kind then (kind, r) else w) }) s
    let (arg, s) := fresh 16 s
    updNotice 0x83 arg.toNat (bump (ctr 0x0018 10 0) s)
  else onUpd (fun u => { u with persistWait := u.persistWait ++ [(kind, r)] }) s

/-- Waiting records are appended, oldest first, as long as tokens last: at most n. -/
def flushRecords : Nat → State → State
  | 0, s => s
  | n + 1, s =>
    match s.upd.persistWait with
    | [] => s
    | (k, r) :: rest =>
      if 0 < tokens s ∧ ¬flashHeld s then flushRecords n (appendRecord k r (onUpd (fun u => { u with persistWait := rest }) s))
      else s

/-- The energy accumulators' registers, field first (R389). -/
def energyRegs : List Nat :=
  [R.PM_FLD_E_LO, R.PM_FLD_E_HI] ++ (List.range 8).flatMap (fun n => [R.PM_ZN_E_LO n, R.PM_ZN_E_HI n])

/-- The totals of the counters: the bases and what has been counted since. -/
def counterTotals (s : State) : List (Ctr × Nat) := s.mon.counters.foldl (fun t c => ctrAdd t c.1 c.2) s.upd.bases

/-- The record of a kind as the firmware would write it now: 0 the census binding, 1 the energies, 2 the counter bases. -/
def recordNow (s : State) (kind : Nat) : PersistRec :=
  { seq := 0,
    words := if kind = 0 then [getReg s R.CN_BIND] else if kind = 1 then energyRegs.map (getReg s) else [],
    ctrs := if kind = 2 then counterTotals s else [] }

/-- PERSIST_WRITE (R429): the firmware writes a record of a kind. -/
def execPersistWrite (kind : Fin 3) (s : State) : Host.Outcome State Fault Refusal :=
  .next (submitRecord kind (recordNow s kind) s)

/-- TOKEN_GAIN (R429): the bucket gains a token, up to 16, and a waiting record is written. -/
def execTokenGain (s : State) : Host.Outcome State Fault Refusal :=
  .next (flushRecords 1 (setF s R.UPD_FLASH F.UPD_FLASH_TOKENS (min 16 (tokens s + 1))))

/-- ENERGY_CHECKPOINT (R429): ECKPT hours have passed. -/
def execEnergyCheckpoint (s : State) : Host.Outcome State Fault Refusal := .next (submitRecord 1 (recordNow s 1) s)

/-- A session ends: the journal is empty and the inactive slot EMPTY (R437). -/
def closeSession (s : State) : State :=
  let slot := if s.upd.recovery then 0 else 1 - getF s R.UPD_STAT F.UPD_STAT_RUNSLOT
  let s := writeHeader (putSlot slot 0 (presentHeader s)) s
  let s := onUpd (fun u => { u with session := none, bufs := [], abortWait := false }) s
  let s := setF (setF s R.UPD_STAT F.UPD_STAT_SESSION_ST 0) R.UPD_STAT F.UPD_STAT_SESSION 0
  setReg (setReg (setReg s R.UPD_DONE 0) R.UPD_IMG_LO 0) R.UPD_IMG_HI 0

/-- The all-clear releases the flash: what waited is programmed (R430). -/
def releaseFlash (s : State) : State :=
  let s := match s.upd.headerWait with
    | some h => programHeader h (onUpd (fun u => { u with headerWait := none }) s)
    | none => s
  let s := if s.upd.abortWait then closeSession s else s
  flushRecords 3 s

end Sys2Proof.Machine
end

