-- ==== Sys2Proof/Machine/Routing.lean ====
section
/-! DEFINITION. The routing decision (chapter 11): position indexes, boundaries, reach limits, the directions of originated
and received envelopes, and the boundary table. -/

namespace Sys2Proof.Machine

/-- The hub's own position index (R261). -/
def position (s : State) : Nat := getF s R.RT_KEY F.RT_KEY_KEY

/-- The hub has been numbered. -/
def numbered (s : State) : Bool := getB s R.RT_KEY F.RT_KEY_VALID

/-- The eastward ring port (R263). -/
def eastPort (s : State) : Nat := getF s R.RT_CFG F.RT_CFG_EPORT
/-- The westward ring port (R263). -/
def westPort (s : State) : Nat := getF s R.RT_CFG F.RT_CFG_WPORT

/-- The side of a ring port: 0 eastward, 1 westward; none for a TIE that is no span of the ring. -/
def sideOf (s : State) (p : Nat) : Option Nat :=
  if p = eastPort s then some 0 else if p = westPort s then some 1 else none

/-- The ring that this hub is on: its address's; while it has none, the ring that census named its root on, or the configured one (R260,
R278). -/
def ringId (s : State) : Nat :=
  if nodeAddr s ≠ 0xFFFF then nodeAddr s / 4096 % 16
  else
    let root := getF s R.CN_ADDR F.CN_ADDR_ROOT
    if numbered s ∧ root ≠ 0xFFFF then root / 4096 % 16 else getF s R.CN_CFG F.CN_CFG_RING

/-- The table entries that hold a boundary. -/
def heldBnds (s : State) : List Nat := (List.range 16).filter (fun n => getB s (R.RT_BND n) F.RT_BND_VALID)

/-- The boundaries that a decision sees: one that reads poisoned is ignored (R398). -/
def boundaries (s : State) : List Nat :=
  ((heldBnds s).filter (fun n => !badWord s (R.RT_BND n))).map (fun n => getF s (R.RT_BND n) F.RT_BND_B)

/-- The eastward reach limit dE of a hub at a position (R264). -/
def reachEast (bs : List Nat) (pos : Nat) : Nat := bs.foldl (fun d b => min d ((b + 8192 - pos) % 8192)) 8191

/-- The westward reach limit dW of a hub at a position (R264). -/
def reachWest (bs : List Nat) (pos : Nat) : Nat := bs.foldl (fun d b => min d ((pos + 2 * 8192 - b - 1) % 8192)) 8191

/-- Position p is reached eastward from a position with limit dE (R264). -/
def eastOk (dE pos p : Nat) : Bool := let d := (p + 8192 - pos) % 8192; 1 ≤ d && d ≤ dE

/-- Position p is reached westward (R264). -/
def westOk (dW pos p : Nat) : Bool := let d := (pos + 8192 - p) % 8192; 1 ≤ d && d ≤ dW

/-- Node index d is reached eastward from this hub. -/
def reachesEast (s : State) (d : Nat) : Bool :=
  let dE := reachEast (boundaries s) (position s)
  eastOk dE (position s) (2 * d) || eastOk dE (position s) (2 * d + 1)

/-- Node index d is reached westward from this hub. -/
def reachesWest (s : State) (d : Nat) : Bool :=
  let dW := reachWest (boundaries s) (position s)
  westOk dW (position s) (2 * d) || westOk dW (position s) (2 * d + 1)

/-- RT_PREF of a class; 3 is treated as 0. -/
def pref (s : State) (cls : Nat) : Nat :=
  let p := getF s R.RT_PREF ⟨2 * cls, 2⟩
  if p = 3 then 0 else p

/-- The port on which an originated unicast envelope of a class leaves toward node index d, if there is one (R264). -/
def direction (s : State) (cls d : Nat) : Option Nat :=
  let e := reachesEast s d
  let w := reachesWest s d
  let de := (2 * d + 8192 - position s) % 8192
  let dw := (position s + 8192 - 2 * d % 8192) % 8192
  if e && w then
    if pref s cls = 1 then some (eastPort s)
    else if pref s cls = 2 then some (westPort s)
    else if de ≤ dw then some (eastPort s) else some (westPort s)
  else if e then some (eastPort s)
  else if w then some (westPort s)
  else none

/-- The bit of node index d in RT_PRESj (R266). -/
def isPresent (s : State) (d : Nat) : Bool := bitOf (getReg s (R.RT_PRES (d / 32))).toNat (d % 32)

/-- The node index toward which a DST is routed: its own index in this ring, and a junction's in another (R282). -/
def routeIndex (s : State) (dst : Nat) : Option Nat :=
  let r := dst / 4096 % 16
  if r = ringId s then some (dst % 4096)
  else
    let j := R.RT_JN r
    if getB s j F.RT_JN_PVALID ∧ ¬getB s j F.RT_JN_PDOWN then some (getF s j F.RT_JN_PRI)
    else if getB s j F.RT_JN_BVALID ∧ ¬getB s j F.RT_JN_BDOWN then some (getF s j F.RT_JN_BAK)
    else none

/-- The port on which this hub originates a unicast envelope, if R266 lets it: the index is admitted and has a direction. -/
def originPort (s : State) (cls dst : Nat) : Option Nat :=
  match routeIndex s dst with
  | none => none
  | some d => if isPresent s d then direction s cls d else none

/-- A Caravan port's state number (R246). -/
def portState (s : State) (p : Nat) : Nat := getF s (R.PT_STAT p) F.PT_STAT_STATE

/-- A port is UP (R246). -/
def portUp (s : State) (p : Nat) : Bool := portState s p = 5

/-- The port opposite an input port on the ring. -/
def straight (s : State) (p : Nat) : Nat := if p = eastPort s then westPort s else eastPort s

/-- Nothing is forwarded straight into a port: a numbered hub's ring port with a local boundary (R268, R271), and any other port that is not
UP. -/
def deadPort (s : State) (p : Nat) : Bool :=
  match sideOf s p with
  | some side =>
    if numbered s then
      (List.range 16).any (fun n => getB s (R.RT_BND n) F.RT_BND_VALID && getB s (R.RT_BND n) F.RT_BND_LOCAL &&
        getF s (R.RT_BND n) F.RT_BND_SIDE = side)
    else !portUp s p
  | none => !portUp s p

/-- The hub is a member of a multicast group; every hub is a member of group 0xFFF (R260). -/
def inGroup (s : State) (g : Nat) : Bool := g = 0xFFF || bitOf (getReg s (R.RT_GRP (g / 32))).toNat (g % 32)

/-- A multicast copy from a source index that arrived on a port is in range (R267). -/
def inRange (s : State) (p src : Nat) : Bool :=
  let pos := 2 * (src % 4096)
  let re := min (reachEast (boundaries s) pos) 4095
  let rw := min (reachWest (boundaries s) pos) (8191 - re)
  if p = westPort s then eastOk re pos (position s) else westOk rw pos (position s)

/-- Crossing is possible: TIE is UP, and the peer named the ring of JN_CTL.PEER (R281, R283). -/
def crossing (s : State) : Bool := portUp s 2 && s.census.peer = some (getF s R.JN_CTL F.JN_CTL_PEER)

/-- A junction takes a unicast envelope off the ring (R281). -/
def junctionTakes (s : State) (dst : Nat) : Bool :=
  getB s R.JN_CTL F.JN_CTL_EN && crossing s && dst / 4096 % 16 ≠ ringId s &&
  bitOf (getF s R.JN_BEYOND F.JN_BEYOND_RINGS) (dst / 4096 % 16)

/-! The boundary table (R268, R270). -/

/-- The table entry with this KEY and SIDE. -/
def findBnd (s : State) (key side : Nat) : Option Nat :=
  (List.range 16).find? (fun n => getB s (R.RT_BND n) F.RT_BND_VALID && getF s (R.RT_BND n) F.RT_BND_KEY = key &&
    getF s (R.RT_BND n) F.RT_BND_SIDE = side)

/-- A free table entry. -/
def freeBnd (s : State) : Option Nat := (List.range 16).find? (fun n => !getB s (R.RT_BND n) F.RT_BND_VALID)

/-- A boundary entry's word. -/
def bndWord (b key side : Nat) (isLocal : Bool) : Word :=
  BitVec.ofNat 32 (b % 8192 + key % 8192 * 2 ^ 16 + side % 2 * 2 ^ 29 + bit1 isLocal * 2 ^ 30 + 2 ^ 31)

/-- RT_STAT.NBND counts the boundaries held. -/
def countBnd (s : State) : State := setF s R.RT_STAT F.RT_STAT_NBND (heldBnds s).length

/-- The queue of census and routing notices. -/
def rtQueue (s : State) : Nat := getF s R.RT_CFG F.RT_CFG_NTC_Q

/-- One of the events of RT_STAT that share a notice: its bit, its counter, and notice 0x83 with the bit's number (R267, R270, R281,
R284). -/
def rtEvent (f : Fld) (k : Nat) (s : State) : State :=
  postOnce (rtQueue s) 0x000E 0 0x83 f.lo (bump (ctr 0x000E k 0) (setB s R.RT_STAT f true))

/-- A multicast copy is cut (R267). -/
def cutCopy (s : State) : State := rtEvent F.RT_STAT_MCCUT 2 s

/-- A boundary is entered; a repeated one changes nothing, and one that finds the table full sets BNDFULL (R270). -/
def enterBnd (b key side : Nat) (isLocal : Bool) (s : State) : State :=
  match findBnd s key side with
  | some _ => s
  | none =>
    match freeBnd s with
    | some n =>
      let s := countBnd (rewritten (R.RT_BND n) (setReg s (R.RT_BND n) (bndWord b key side isLocal)))
      postOnce (rtQueue s) 0x000E 0 0x81 b s
    | none => rtEvent F.RT_STAT_BNDFULL 5 s

/-- The boundary with this KEY and SIDE is removed (R270). -/
def removeBnd (key side : Nat) (s : State) : State :=
  match findBnd s key side with
  | none => s
  | some n =>
    let b := getF s (R.RT_BND n) F.RT_BND_B
    postOnce (rtQueue s) 0x000E 0 0x03 b (countBnd (rewritten (R.RT_BND n) (setReg s (R.RT_BND n) 0)))

/-- The fields of a LINK_EVENT's word 0 (R269). -/
def linkWord (evt side key b cause seq : Nat) : DWord :=
  BitVec.ofNat 64 (evt % 4 + side % 2 * 4 + key % 8192 * 8 + b % 8192 * 2 ^ 16 + cause % 16 * 2 ^ 32 + seq % 65536 * 2 ^ 48)

/-- PDOWN and BDOWN of every junction entry that names an index (R282). -/
def markJunction (index : Nat) (down : Bool) (s : State) : State :=
  (List.range 16).foldl (fun s r =>
    let j := R.RT_JN r
    let s := if getB s j F.RT_JN_PVALID ∧ getF s j F.RT_JN_PRI = index then setB s j F.RT_JN_PDOWN down else s
    if getB s j F.RT_JN_BVALID ∧ getF s j F.RT_JN_BAK = index then setB s j F.RT_JN_BDOWN down else s) s

/-- A LINK_EVENT applied by the routing stage (R270, R282). -/
def applyLink (e : Envelope) (s : State) : State :=
  let w := (payloadWord e 0).toNat
  let evt := bitsOf w 0 2
  let side := bitsOf w 2 1
  let key := bitsOf w 3 13
  let b := bitsOf w 16 13
  let s := bump (ctr 0x000E 4 0) s
  if evt = 0 then enterBnd b key side false s
  else if evt = 1 then removeBnd key side s
  else markJunction (key / 2) (evt = 2) s

/-- Every LINK_EVENT that was received and not yet applied is applied, in the order of arrival: the routing stage does so
before it routes the next envelope (R270). -/
def applyLinks (s : State) : State :=
  s.census.toApply.foldl (fun s e => applyLink e s) { s with census := { s.census with toApply := [] } }

end Sys2Proof.Machine
end

