-- ==== Sys2Proof/Machine/Office.lean ====
section
/-! DEFINITION. The sorting office (chapter 09): the oasis buffer's cells and pools, the two stages of the switch, resequencing, what enters
from a ring port or an internal source, and which envelope may start at an output. -/

namespace Sys2Proof.Machine

/-! Pools (R212, R213). -/

/-- The cells of an envelope that are not freed (R211). -/
def liveCells (e : Stored) : Nat := (e.held.filter (fun c => c.refs ≠ 0)).length

/-- Cells of the stored envelopes that satisfy p. -/
def cellsWhere (s : State) (p : Stored → Bool) : Nat := ((s.office.stored.filter p).map liveCells).sum

/-- Cells held from ring input p in class c; for Scheduled, cells of the Scheduled pool held from that input (SO_PCp_c). -/
def heldCells (s : State) (p c : Nat) : Nat := cellsWhere s (fun e => e.inp = p && e.env.cls.toNat = c)

/-- Cells of the Scheduled pool in use. -/
def schedUsed (s : State) : Nat := cellsWhere s (fun e => e.env.cls.toNat = 0)

/-- Cells of the internal pool in use. -/
def internalUsed (s : State) : Nat := cellsWhere s (fun e => 3 ≤ e.inp && e.env.cls.toNat ≠ 0)

/-- The reservation of ring port p in credited class c. -/
def reservation (s : State) (p c : Nat) : Nat :=
  if c = 1 then getF s (R.SO_RES_A p) F.SO_RES_A_URG
  else if c = 3 then getF s (R.SO_RES_A p) F.SO_RES_A_MGMT
  else getF s (R.SO_RES_B p) F.SO_RES_B_BULK

/-- All reservations of the three ring ports. -/
def reserved (s : State) : Nat :=
  ((List.range 3).map (fun p => reservation s p 1 + reservation s p 2 + reservation s p 3)).sum

/-- The size of the Scheduled pool. -/
def schedPool (s : State) : Nat := getF s R.SO_POOL F.SO_POOL_SCHED

/-- The size of the internal pool: what the reservations and the Scheduled pool leave of the capacity (R212). -/
def internalPool (s : State) : Nat := getF s R.SO_CAP F.SO_CAP_CELLS - reserved s - schedPool s

/-- Free cells of the buffer. -/
def freeCells (s : State) : Nat := getF s R.SO_CAP F.SO_CAP_CELLS - cellsWhere s (fun _ => true)

/-- An internal port has room for an envelope of n cells in class c (R213). -/
def hasRoom (s : State) (port c n : Nat) : Bool :=
  if c = 0 then schedUsed s + n ≤ schedPool s
  else internalUsed s + n ≤ internalPool s &&
    cellsWhere s (fun e => e.inp = port && e.env.cls.toNat ≠ 0) + n ≤ getF s R.SO_POOL F.SO_POOL_ICAP

/-- SO_FREE.LOW keeps the lowest FREE. -/
def noteLow (s : State) : State :=
  if freeCells s < getF s R.SO_FREE F.SO_FREE_LOW then setF s R.SO_FREE F.SO_FREE_LOW (freeCells s) else s

/-! Pointers (R206 to R208). -/

/-- The queue that waits at key k of a table of lists. -/
def getQ {α : Type} (t : Table (List α)) (k : Nat) : List α := tabGet (fun _ => []) t k

/-- The office after a change. -/
def onOffice (f : OfficeState → OfficeState) (s : State) : State := { s with office := f s.office }

/-- The slot counter. -/
def slotNow (s : State) : Nat := getF s R.SO_SLOT F.SO_SLOT_SLOT

/-- The slots that have passed since slot t. -/
def slotsSince (s : State) (t : Nat) : Nat := (slotNow s + 2 ^ 32 - t) % 2 ^ 32

/-- An input stamps a pointer with the next sequence number of its output and class and lets it wait (R207, R208). -/
def handPtr (inp out cls id cell : Nat) (s : State) : State :=
  let k := 32 * inp + 4 * out + cls
  let n := tabGet (fun _ => 0) s.office.nextSeq k
  let p : Ptr := { id := id, cell := cell, out := out, cls := cls, inp := inp, seq := n, slot := slotNow s, dead := false }
  onOffice (fun o => { o with
    nextSeq := tabSet (fun _ => 0) o.nextSeq k ((n + 1) % 64),
    waiting := tabSet (fun _ => []) o.waiting inp (getQ o.waiting inp ++ [p]) }) s

/-- An input hands over one cell: a pointer for each target, in ascending port order (R227). -/
def handCell (inp : Nat) (targets : List Nat) (cls id cell : Nat) (s : State) : State :=
  targets.foldl (fun s out => handPtr inp out cls id cell s) s

/-- An input hands over cells from a first one on. -/
def handCells (inp : Nat) (targets : List Nat) (cls id : Nat) : Nat → Nat → State → State
  | _, 0, s => s
  | first, n + 1, s => handCells inp targets cls id (first + 1) n (handCell inp targets cls id first s)

/-- A pointer with the expected number leaves the resequencer: its output expects the next number, and a pointer that is not dead joins the
queue of its class in this slot (R208). -/
def releasePtr (p : Ptr) (s : State) : State :=
  let k := 32 * p.out + 4 * p.inp + p.cls
  let q := 4 * p.out + p.cls
  let slot := slotNow s
  onOffice (fun f => { f with
    released := if p.dead then f.released else tabSet (fun _ => []) f.released q (getQ f.released q ++ [{ p with slot := slot }]),
    expected := tabSet (fun _ => 0) f.expected k ((p.seq + 1) % 64) }) s

/-- Held pointers that follow the expected number without a gap are released too (R208). -/
def releaseHeld (o i c : Nat) : Nat → State → State
  | 0, s => s
  | n + 1, s =>
    let want := tabGet (fun _ => 0) s.office.expected (32 * o + 4 * i + c)
    match s.office.held.find? (fun h => h.1.out = o && h.1.inp = i && h.1.cls = c && h.1.seq = want) with
    | none => s
    | some h => releaseHeld o i c n (releasePtr h.1 (onOffice (fun f => { f with held := f.held.erase h }) s))

/-- A pointer arrives at its output: with the expected number it is released, with those held behind it; ahead of it, it is
held (R208). -/
def arrivePtr (p : Ptr) (s : State) : State :=
  if p.seq = tabGet (fun _ => 0) s.office.expected (32 * p.out + 4 * p.inp + p.cls) then
    releaseHeld p.out p.inp p.cls 64 (releasePtr p s)
  else onOffice (fun f => { f with held := f.held ++ [(p, getF s R.SO_SLOT F.SO_SLOT_SLOT)] }) s

/-- Middle queue j hands the oldest pointer for output (j + t) mod 8 to it in slot t (R206). -/
def middleOut (t j : Nat) (s : State) : State :=
  let o := (j + t) % 8
  match getQ s.office.middle (8 * j + o) with
  | [] => s
  | p :: rest => arrivePtr p (onOffice (fun f => { f with middle := tabSet (fun _ => []) f.middle (8 * j + o) rest }) s)

/-- The class order of the switch and of departure: Scheduled, Urgent, Management, Bulk (R207, R226). -/
def classOrder : List Nat := [0, 1, 3, 2]

/-- The first pointer of input i, in class order and readiness, whose queue in middle j holds fewer than two (R207). -/
def pickPtr (s : State) (i j : Nat) : Option Ptr :=
  classOrder.findSome? (fun c =>
    (getQ s.office.waiting i).find? (fun p => p.cls = c && (getQ s.office.middle (8 * j + p.out)).length < 2))

/-- Input i hands at most one pointer to middle queue (i + t) mod 8 in slot t (R206, R207). -/
def middleIn (t i : Nat) (s : State) : State :=
  let j := (i + t) % 8
  match pickPtr s i j with
  | none => s
  | some p => onOffice (fun f => { f with
      waiting := tabSet (fun _ => []) f.waiting i ((getQ f.waiting i).erase p),
      middle := tabSet (fun _ => []) f.middle (8 * j + p.out) (getQ f.middle (8 * j + p.out) ++ [p]) }) s

/-- One slot of the switch: pointers written in earlier slots are delivered, then each input writes one (R206). -/
def switchSlot (s : State) : State :=
  let t := getF s R.SO_SLOT F.SO_SLOT_SLOT
  let s := (List.range 8).foldl (fun s j => middleOut t j s) s
  let s := (List.range 8).foldl (fun s i => middleIn t i s) s
  setF s R.SO_SLOT F.SO_SLOT_SLOT ((t + 1) % 2 ^ 32)

/-! Stored envelopes. -/

/-- A stored envelope by its number. -/
def findStored (s : State) (id : Nat) : Option Stored := s.office.stored.find? (fun e => e.id = id)

/-- The stored envelope with a changed record. -/
def updStored (id : Nat) (f : Stored → Stored) (s : State) : State :=
  onOffice (fun o => { o with stored := o.stored.map (fun e => if e.id = id then f e else e) }) s

/-- Cells of a credited class returned as credit to the neighbour of the ring port they came from, but for the returns that a smaller
reservation withholds (R214, R220, R222). -/
def returnCredit (p c n : Nat) (s : State) : State :=
  if p < 3 ∧ c ≠ 0 then
    let t := getPort s p
    let w := tabGet (fun _ => 0) t.withheld c
    setPort s p { t with
      withheld := tabSet (fun _ => 0) t.withheld c (w - n),
      release := tabSet (fun _ => 0) t.release c ((tabGet (fun _ => 0) t.release c + (n - w)) % 65536) }
  else s

/-- Returns of credit to be withheld (R214). -/
def withhold (p c n : Nat) (s : State) : State :=
  let t := getPort s p
  setPort s p { t with withheld := tabSet (fun _ => 0) t.withheld c (tabGet (fun _ => 0) t.withheld c + n) }

/-- The reference counts of n cells from cell a on fall by 1 (R211). -/
def lowerRefs : Nat → Nat → List Cell → List Cell
  | _, _, [] => []
  | 0, 0, cs => cs
  | 0, n + 1, c :: cs => { c with refs := c.refs - 1 } :: lowerRefs 0 n cs
  | a + 1, n, c :: cs => c :: lowerRefs a n cs

/-- One output is done with n cells of an envelope from cell a on: those whose count reaches 0 are freed, and return to their pool and as
credit (R211, R222). -/
def releaseCells (id a n : Nat) (s : State) : State :=
  match findStored s id with
  | none => s
  | some e =>
    let h := lowerRefs a n e.held
    returnCredit e.inp e.env.cls.toNat (liveCells e - liveCells { e with held := h }) (updStored id (fun x => { x with held := h }) s)

/-- A pointer to an envelope at one output. -/
def pointsAt (id out : Nat) (p : Ptr) : Bool := p.id = id && p.out = out

/-- A pointer to an envelope at one output dies. -/
def killPtr (id out : Nat) (p : Ptr) : Ptr := if pointsAt id out p then { p with dead := true } else p

/-- Every pointer to an envelope at one output is dropped; one still in the switch crosses it dead, so that the numbering has no gap
(R208). -/
def dropPtrs (id out : Nat) (s : State) : State :=
  onOffice (fun o => { o with
    waiting := o.waiting.map (fun q => (q.1, q.2.map (killPtr id out))),
    middle := o.middle.map (fun q => (q.1, q.2.map (killPtr id out))),
    held := o.held.map (fun h => (killPtr id out h.1, h.2)),
    released := o.released.map (fun q => (q.1, q.2.filter (fun p => !pointsAt id out p))) }) s

/-- The cells of an envelope that have left at an output. -/
def leftAt (e : Stored) (out : Nat) : Nat := tabGet (fun _ => 0) e.left out

/-- One output is done with an envelope: the counts of the cells it still held fall (R211). -/
def dropTarget (id out : Nat) (s : State) : State :=
  let s := dropPtrs id out s
  match findStored s id with
  | none => s
  | some e =>
    let s := releaseCells id (leftAt e out) (e.cells - leftAt e out) s
    let left := e.targets.filter (fun t => t ≠ out)
    if left = [] then onOffice (fun o => { o with stored := o.stored.filter (fun x => x.id ≠ id) }) s
    else updStored id (fun x => { x with targets := left }) s

/-! The cells of the buffer (R210, R405). -/

/-- The cells in use. -/
def usedCells (s : State) : List Nat :=
  s.office.stored.flatMap (fun e => (e.held.filter (fun c => c.refs ≠ 0)).map (fun c => c.addr))

/-- The allocator gives cells from a logical bank: not from one that is retired with no spare in its place, or that a test drains
(R214, R405). -/
def bankServes (s : State) (b : Nat) : Bool :=
  !(b ∈ s.integrity.retired && s.integrity.spareFor ≠ some b) && !(s.integrity.draining && s.integrity.test = some b)

/-- The free cells of a bank. -/
def freeIn (s : State) (used : List Nat) (b : Nat) : List Nat :=
  if bankServes s b then ((List.range 1024).map (fun x => 1024 * b + x)).filter (fun c => c ∉ used) else []

/-- A free cell of bank b, or of the next bank that has one: which of a bank's is left open (DESIGN CHOICE, log entry 9). With none free, which
the pools never let happen, the cell is none of the 32,768. -/
def pickCell (used : List Nat) (b : Nat) (s : State) : Nat × State :=
  match ((List.range 32).map (fun k => freeIn s used ((b + k) % 32))).find? (fun l => l ≠ []) with
  | none => (32768, s)
  | some l =>
    let (v, s) := fresh 10 s
    ((l[v.toNat % l.length]?).getD 32768, s)

/-- The cells of one envelope: successive ones come from successive banks in rotation (R210). -/
def pickCells : Nat → Nat → List Nat → State → List Nat × State
  | 0, _, _, s => ([], s)
  | n + 1, b, used, s =>
    let (c, s) := pickCell used b s
    let (cs, s) := pickCells n (c / 1024 + 1) (c :: used) s
    (c :: cs, s)

/-- Word w of the n cells of an envelope: the header first, then the payload, and the trailer last; the words between, if any, hold nothing of
it (R210). -/
def cellWord (e : Envelope) (n w : Nat) : Option DWord :=
  if w = 0 then some (routeWord e)
  else if w = 1 then some (transWord e)
  else if w = 2 then some (sealWord e)
  else if w < 3 + e.lenw.toNat then some (payloadWord e (w - 3))
  else if w + 1 = 8 * n then some (trailerWord e)
  else none

/-- The local address of word w of a cell (R230). -/
def cellAddr (c w : Nat) : Nat := 0x1000000 + 64 * c + 8 * w

/-- A word of a cell is written, clean. -/
def putCellWord (c w : Nat) (v : DWord) (s : State) : State :=
  setPoison (onOffice (fun o => { o with words := tabSet (fun _ => 0) o.words (8 * c + w) v }) s) (cellAddr c w) false

/-- The input writes cell k of an envelope; a word that holds nothing of it is open (DESIGN CHOICE, log entry 9). -/
def writeCell (e : Stored) (s : State) (k : Nat) : State :=
  match e.held[k]? with
  | none => s
  | some c =>
    (List.range 8).foldl (fun s w =>
      match cellWord e.env e.cells (8 * k + w) with
      | some v => putCellWord c.addr w v s
      | none => let (v, s) := fresh 64 s; putCellWord c.addr w v s) s

/-- The number of the next pointer that an input stamps for an output and class. -/
def nextNumber (s : State) (inp out cls : Nat) : Nat := tabGet (fun _ => 0) s.office.nextSeq (32 * inp + 4 * out + cls)

/-- The next n cells of an envelope are complete: they are in the buffer, and the input hands their pointers over (R210, R216). -/
def handOver (id n : Nat) (s : State) : State :=
  match findStored s id with
  | none => s
  | some e =>
    let s := (List.range n).foldl (fun s i => writeCell e s (e.handed + i)) s
    let slot := slotNow s
    let first := e.targets.foldl (fun t o => tabSet (fun _ => 0) t o (nextNumber s e.inp o e.env.cls.toNat)) e.first
    let s := updStored id (fun x => { x with
      handed := x.handed + n, slot := if e.handed = 0 then slot else x.slot, first := if e.handed = 0 then first else x.first }) s
    handCells e.inp e.targets e.env.cls.toNat id e.handed n s

/-- An envelope enters the buffer with its targets, each cell counted once for each of them, and its first `ready` cells are handed to the
switch (R210, R211, R227). -/
def storeEnvelope (inp : Nat) (e : Envelope) (targets : List Nat) (ct whole : Bool) (ready : Nat) (mark : Option RingMark) (s : State) : State :=
  let id := s.office.nextId
  let (b, s) := fresh 5 s
  let (cs, s) := pickCells (cellsOf e) b.toNat (usedCells s) s
  let r : Stored :=
    { id := id, env := e, inp := inp, cells := cellsOf e, targets := targets, cutThrough := ct, whole := whole, bad := false,
      held := cs.map (fun c => { addr := c, refs := targets.length }), handed := 0, slot := 0, first := [], left := [], mark := mark }
  let s := onOffice (fun o => { o with nextId := id + 1, stored := o.stored ++ [r] }) s
  let s := bumpN (ctr 0x000C 0 (8 * e.cls.toNat + inp)) (cellsOf e) s
  let s := bump (ctr 0x000C 1 (8 * e.cls.toNat + inp)) s
  noteLow (handOver id ready s)

/-! Originated envelopes (R213, R266, R267, R278). -/

/-- The ports on which a multicast copy of this hub can leave: eastward and westward, without a dead one, which is counted as
a cut (R267). -/
def multicastPorts (s : State) : List Nat :=
  [0, 1, 2].filter (fun p => (p = eastPort s || p = westPort s) && !deadPort s p)

/-- One of the two copies of an originated multicast meets a dead port (R267). -/
def cutAtOrigin (s : State) (e : Envelope) : Bool := e.mc && (deadPort s (eastPort s) || deadPort s (westPort s))

/-- What became of an envelope that a source of this node wants to send. -/
inductive Sent where
  | accepted | noRoom | noRoute
deriving DecidableEq, Repr

/-- The outputs of an originated envelope: both ring directions for multicast, the direction of R264 for unicast. -/
def originTargets (s : State) (e : Envelope) : List Nat :=
  if e.mc then multicastPorts s
  else
    match originPort s e.cls.toNat e.dst.toNat with
    | some p => [p]
    | none => []

/-- This hub is one of a pair and is not ACTIVE, or has not yet reached the first step edge after its claim: what it originates
stays inside (R366, R369). -/
def standbyHub (s : State) : Bool :=
  getB s R.DPX_CTL F.DPX_CTL_EN && (getF s R.DPX_STAT F.DPX_STAT_STATE ≠ 2 || !s.duplex.speaking)

/-- The kinds that a hub of a pair discards while it is not ACTIVE: answers, requests of the channels and forwards, CYCLIC,
TRACK_SAMPLE, NOTICE, BUS_FRAME and FOLIO_ACK (R366). -/
def suppressedKind (k : BitVec 5) : Bool :=
  (1 ≤ k.toNat && k.toNat ≤ 8) || k = kCyclic || k = kTrackSample || k = kNotice || k = kBusFrame || k = kFolioAck

/-- The kinds that a quarantined hub originates (R278). -/
def freeKind (k : BitVec 5) : Bool := k = kCensus || k = kCensusReply || k = kLinkEvent

/-- An envelope is originated: it counts whether it leaves or is suppressed (R360). -/
def countOrigin (s : State) : State := { s with duplex := { s.duplex with envelopes := s.duplex.envelopes + 1 } }

/-- An internal source on port P hands an envelope to the sorting office: it needs a direction (R266) and room (R213). A hub of a pair that
is not ACTIVE discards and counts it instead (R366), and a quarantined hub originates only the kinds of R278. -/
def originate (port : Nat) (e : Envelope) (s : State) : State × Sent :=
  let s := applyLinks s
  if standbyHub s ∧ suppressedKind e.kind then (bump (ctr 0x0013 0 e.kind.toNat) (countOrigin s), .accepted)
  else if quarantined s ∧ ¬freeKind e.kind then (s, .noRoute)
  else if originTargets s e = [] then
    if e.mc then (cutCopy s, .noRoute)
    else (bump (ctr 0x000E 1 0) (setB s R.RT_STAT F.RT_STAT_NOROUTE true), .noRoute)
  else if ¬hasRoom s port e.cls.toNat (cellsOf e) then (s, .noRoom)
  else (storeEnvelope port e (originTargets s e) false true (cellsOf e) none (countOrigin (if cutAtOrigin s e then cutCopy s else s)), .accepted)

/-- An internal source sends an envelope out of one ring port, without a routing decision (CENSUS, BEACON and the like). -/
def sendOnPort (port out : Nat) (e : Envelope) (s : State) : State × Sent :=
  if ¬hasRoom s port e.cls.toNat (cellsOf e) then (s, .noRoom)
  else (storeEnvelope port e [out] false true (cellsOf e) none s, .accepted)

/-- Payload word 0 of an NDN (R190). -/
def ndnWord (reason cause pieces : Nat) (e : Envelope) : DWord :=
  BitVec.ofNat 64 (reason % 256 + cause % 256 * 2 ^ 8 + pieces % 256 * 2 ^ 16 + e.kind.toNat * 2 ^ 24 + e.cls.toNat * 2 ^ 29 +
    e.stamp.toNat * 2 ^ 32)

/-- The class of an answer: the request's, with Scheduled answered in Urgent (R165). -/
def answerClass (e : Envelope) : Nat := classOrUrgent e.cls.toNat

/-- An NDN for a failed envelope (R190, R191). -/
def mkNdn (s : State) (reason cause pieces : Nat) (data : DWord) (pois : Bool) (e : Envelope) : Envelope :=
  let n := build s (answerClass e) kNdn false e.src.toNat (getF s R.BR_HOPS F.BR_HOPS_HOPS) [ndnWord reason cause pieces e, data]
  withCrcs { n with tag := e.tag, addr := e.addr, poisonAny := pois, poison := if pois then 2 else 0 }

/-- A word with only its low n bytes, for data that ends inside a word. -/
def lowBytes (n : Nat) (w : DWord) : DWord := if 8 ≤ n then w else w &&& BitVec.ofNat 64 (2 ^ (8 * n) - 1)

/-- DATA of an NDN for an envelope that failed before anything was performed (R191), with its poison. -/
def ndnData (e : Envelope) : DWord × Bool :=
  if e.kind = kWriteP ∨ e.kind = kWriteA ∨ e.kind = kUnlockWrite then
    (lowBytes ((payloadWord e 0).toNat % 512) (payloadWord e 1), (poisonBits e).getLsbD 1)
  else if e.kind = kBusFrame then (payloadWord e 0, (poisonBits e).getLsbD 0)
  else (0, false)

/-- An envelope leaves an internal source, with a routing decision or by the ring port `out`. -/
def sendBy (port : Nat) (out : Option Nat) (e : Envelope) (s : State) : State × Sent :=
  match out with
  | none => originate port e s
  | some o => sendOnPort port o e s

/-- An envelope of the bridge or the firmware leaves; without room it waits, behind earlier ones of its port (R213). -/
def sendOrWait (port : Nat) (out : Option Nat) (e : Envelope) (s : State) : State :=
  let e := withCrcs e
  if s.office.outbox.any (fun w => w.1 = port) then onOffice (fun f => { f with outbox := f.outbox ++ [(port, out, e)] }) s
  else
    match sendBy port out e s with
    | (s, .noRoom) => onOffice (fun f => { f with outbox := f.outbox ++ [(port, out, e)] }) s
    | (s, _) => s

/-- An envelope that waited, as it is dispatched now: STAMP is network time at dispatch, but for one that is only relayed (R241,
R440). -/
def stampAgain (s : State) (e : Envelope) : Envelope :=
  if e.kind = kFolio ∨ (e.kind = kFolioAck ∧ e.src.toNat ≠ nodeAddr s) then e else { e with stamp := BitVec.ofNat 32 (nowNs s) }

/-- Envelopes that waited for room are handed over in order. -/
def flushOutbox (s : State) : State :=
  s.office.outbox.foldl (fun s w => sendOrWait w.1 w.2.1 (stampAgain s w.2.2) s) (onOffice (fun f => { f with outbox := [] }) s)

/-- The bridge answers a failed envelope with an NDN, unless the node is quarantined, the envelope is multicast or its kind
gets none (R165, R189). -/
def sendNdn (reason cause pieces : Nat) (data : DWord) (pois : Bool) (e : Envelope) (s : State) : State :=
  if quarantined s ∨ e.mc ∨ ¬ndnEligible e.kind then s
  else sendOrWait 3 none (mkNdn s reason cause pieces data pois e) s

/-! Received envelopes (R265, R271, R281). -/

/-- The input port is a ring port of the hub's own ring, and not a junction's TIE. -/
def ringInput (s : State) (p : Nat) : Bool := p = eastPort s || p = westPort s

/-- Where a received envelope goes: its outputs, or its discard with the counter that rises. -/
inductive Route where
  | to (outs : List Nat)
  | turn
  | drop (c : Ctr)
deriving DecidableEq, Repr

/-- A multicast copy goes on straight from port p: it is in range, or the hub is not numbered (R265, R267). -/
def goesOn (s : State) (p : Nat) (e : Envelope) : Bool := !numbered s || (ringInput s p && inRange s p e.src.toNat)

/-- A multicast copy that would go on straight meets a dead port (R267). -/
def copyCut (s : State) (p : Nat) (e : Envelope) : Bool := e.mc && goesOn s p e && deadPort s (straight s p)

/-- The outputs of a multicast copy received on port p (R265, R267). -/
def copyOutputs (s : State) (p : Nat) (e : Envelope) : List Nat :=
  if ¬goesOn s p e then []
  else
    let delivers := if numbered s then inGroup s (e.dst.toNat % 4096) else (e.kind = kLinkEvent || e.dst.toNat % 4096 = 0xFFF)
    (if deadPort s (straight s p) then [] else [straight s p]) ++ (if delivers then [portOfKind e.kind] else [])

/-- The routing decision for a unicast envelope that arrives over a junction's TIE: nothing crosses unless crossing is possible, one whose
ring lies across the TIE is a loop, and the others are routed afresh (R264, R281, R283). -/
def routeCrossed (s : State) (e : Envelope) : Route :=
  if ¬(getB s R.JN_CTL F.JN_CTL_EN ∧ crossing s) then .drop (ctr 0x000E 1 0)
  else if bitOf (getF s R.JN_BEYOND F.JN_BEYOND_RINGS) (e.dst.toNat / 4096 % 16) then .drop (ctr 0x000E 7 0)
  else
    match routeIndex s e.dst.toNat with
    | none => .turn
    | some d =>
      match direction s e.cls.toNat d with
      | some o => .to [o]
      | none => .turn

/-- The routing decision for an envelope received on port p (R265, R267, R281, and R440 for a hub in recovery). -/
def routeReceived (s : State) (p : Nat) (e : Envelope) : Route :=
  let int := portOfKind e.kind
  let st := straight s p
  if e.mc then
    if numbered s ∧ ¬ringInput s p then .drop (ctr 0x000E 2 0) else .to (copyOutputs s p e)
  else if e.kind = kCensus ∨ (s.upd.recovery ∧ e.kind = kFolio ∧ e.dst = 0xFFFF) then .to [6]
  else if ¬numbered s then
    if e.kind = kCensusReply ∧ e.dst = 0xFFFF then .to [6] else if deadPort s st then .turn else .to [st]
  else if e.dst.toNat = nodeAddr s then
    if getB s R.RT_CFG F.RT_CFG_PAIR ∧ p ≠ 2 then .to [2, int] else .to [int]
  else if ¬ringInput s p then routeCrossed s e
  else if junctionTakes s e.dst.toNat then .to [2]
  else if deadPort s st then .turn
  else .to [st]

/-- An envelope that meets a dead port is turned back where its direction reaches DST, answered NO_ROUTE where an NDN is due,
and discarded otherwise (R271). The output it turns to is `back`. -/
def turnTargets (s : State) (back : Nat) (e : Envelope) : List Nat :=
  if ¬numbered s then [back]
  else
    match routeIndex s e.dst.toNat with
    | none => []
    | some d =>
      if back = eastPort s then (if reachesEast s d then [back] else [])
      else if back = westPort s then (if reachesWest s d then [back] else [])
      else []

/-- The envelope as it goes on: a junction sets HOPS afresh (R281); elsewhere the output reduces HOPS (R243). -/
def crossJunction (s : State) (outs : List Nat) (e : Envelope) : Envelope :=
  if outs = [2] ∧ ¬e.mc ∧ junctionTakes s e.dst.toNat then
    withCrcs { e with hops := BitVec.ofNat 12 (getF s R.JN_CTL F.JN_CTL_HOPS + 1) }
  else e

/-- The cut-through condition of R215 for an input and an output. -/
def cutsThrough (s : State) (p : Nat) (outs : List Nat) (e : Envelope) : Bool :=
  outs ≠ [] && outs.all (fun o => o < 3 && bitOf (getF s (R.SO_FWD o) F.SO_FWD_CT) e.cls.toNat &&
    getF s (R.PT_STAT p) F.PT_STAT_RATE_EFF ≤ getF s (R.PT_STAT o) F.PT_STAT_RATE_EFF)

/-- The queue and notices of the sorting office (R231). -/
def soNotice (code arg : Nat) (s : State) : State := postOnce (getF s R.SO_CTL F.SO_CTL_NTC_Q) 0x000C 0 code arg s

/-- An arrival breaks its reservation or the Scheduled pool (R223). -/
def breaksPool (s : State) (p : Nat) (e : Envelope) : Bool :=
  let c := e.cls.toNat
  if c = 0 then schedPool s < schedUsed s + cellsOf e else reservation s p c < heldCells s p c + cellsOf e

/-- An arrival that breaks its reservation is a credit violation; a Scheduled one that finds no room is a drop (R223). -/
def poolDrop (p : Nat) (e : Envelope) (s : State) : State :=
  let c := e.cls.toNat
  if c = 0 then soNotice 0x81 p (bump (ctr 0x000C 9 p) (setB s R.SO_EVT F.SO_EVT_SCHED true))
  else soNotice 0x82 (p * 256 + c)
    (bump (ctr 0x000C 8 p) (setB (returnCredit p c (cellsOf e) s) R.SO_EVT F.SO_EVT_CREDIT true))

/-- What the census of this hub sees of an envelope that passes: the index that the neighbour on port p takes in its CENSUS_REPLY, known by its
NID (R276, R279; DESIGN CHOICE, log entry 142). -/
def seeReply (p : Nat) (e : Envelope) (s : State) : State :=
  if e.kind = kCensusReply ∧ bitsOf (payloadWord e 1).toNat 0 32 = (getReg s (R.PT_NID p)).toNat ∧ bitsOf (payloadWord e 0).toNat 12 4 ≠ 1 then
    { s with census := { s.census with across := tabSet (fun _ => none) s.census.across p (some (bitsOf (payloadWord e 0).toNat 0 12)) } }
  else s

/-- An envelope received on port p is placed at its outputs, turned back, or discarded with its credit returned (R220, R265,
R271). `ready` cells are handed to the switch. -/
def placeReceived (p : Nat) (e : Envelope) (ct whole : Bool) (ready : Nat) (mark : RingMark) (s : State) : State :=
  let give := returnCredit p e.cls.toNat (cellsOf e)
  let s := if copyCut s p e then cutCopy s else s
  let s := seeReply p e s
  match routeReceived s p e with
  | .drop c => give (if c.kind = 7 then rtEvent F.RT_STAT_LOOP 7 s else if c.kind = 2 then cutCopy s else bump c s)
  | .to [] => give s
  | .to outs =>
    let s := if outs = [2] ∧ ¬e.mc ∧ junctionTakes s e.dst.toNat then bump (ctr 0x000E 6 0) s else s
    storeEnvelope p (crossJunction s outs e) outs ct whole ready (some mark) s
  | .turn =>
    match turnTargets s p e with
    | [] =>
      let s := give (bump (ctr 0x000E 1 0) s)
      let (d, b) := ndnData e
      sendNdn Reason.noRoute.code 0 0 d b e s
    | outs => storeEnvelope p e outs ct whole ready (some mark) (bump (ctr 0x000E 0 0) s)

/-- A LINK_EVENT that was received whole, and good, waits for the routing stage, which applies it before it routes the next envelope
(R270). -/
def keepLinkEvent (e : Envelope) (s : State) : State :=
  if e.kind = kLinkEvent then { s with census := { s.census with toApply := s.census.toApply ++ [e] } } else s

/-! Departure (R221, R226). -/

/-- The transmit credit of ring output p in class c: what was received last less what was sent since link-up (R222); 0 in every
state but UP (R246). -/
def txCredit (s : State) (p c : Nat) : Nat :=
  if ¬portUp s p ∨ c = 0 then 0
  else
    let t := getPort s p
    (tabGet (fun _ => 0) t.credit c + 65536 - tabGet (fun _ => 0) t.sent c) % 65536

/-- The head of class c at output o: the envelope of the first released pointer. -/
def headOf (s : State) (o c : Nat) : Option Stored :=
  match getQ s.office.released (4 * o + c) with
  | [] => none
  | p :: _ => findStored s p.id

/-- A ring output may start an envelope in this slot: in a later one than that in which its cell 0 was released, and a cut-through one no
earlier than 10 slots after cell 0 was handed over (R216). -/
def mayStart (s : State) (o : Nat) (p : Ptr) (e : Stored) : Bool :=
  3 ≤ o || (1 ≤ slotsSince s p.slot && (!e.cutThrough || 10 ≤ slotsSince s e.slot))

/-- A head has the credit it needs: a ring output's in a credited class (R221). -/
def hasCredit (s : State) (o c : Nat) (e : Stored) : Bool := 3 ≤ o || c = 0 || e.cells ≤ txCredit s o c

/-- A head can start at an output: its cell 0 is released, and its credit suffices (R216, R221, R226). -/
def canStart (s : State) (o c : Nat) : Bool :=
  match getQ s.office.released (4 * o + c) with
  | [] => false
  | p :: _ =>
    match findStored s p.id with
    | none => false
    | some e => mayStart s o p e && hasCredit s o c e

/-- The head of class c at a ring output lacks credit (SO_QLENo.WAIT). -/
def lacksCredit (s : State) (o c : Nat) : Bool :=
  match headOf s o c with
  | none => false
  | some e => !hasCredit s o c e

/-- The class that starts next at an output: Scheduled, then Urgent, Management and Bulk, with the 8th start given to a Bulk
head that 7 starts passed over (R226). -/
def nextClass (s : State) (o : Nat) : Option Nat :=
  if canStart s o 0 then some 0
  else if canStart s o 2 ∧ 7 ≤ tabGet (fun _ => 0) s.office.passed o then some 2
  else if canStart s o 1 then some 1
  else if canStart s o 3 then some 3
  else if canStart s o 2 then some 2
  else none

/-- The count of starts that passed the Bulk head over (R226). -/
def notePassed (o c : Nat) (s : State) : State :=
  let n := tabGet (fun _ => 0) s.office.passed o
  let m := if c = 2 then 0
    else if c = 0 then n
    else if (headOf s o 2).isSome then min 7 (n + 1) else 0
  onOffice (fun f => { f with passed := tabSet (fun _ => 0) f.passed o m }) s

/-- The envelope in transmission at an output. -/
def sendingAt (s : State) (o : Nat) : Option (Nat × Envelope) := tabGet (fun _ => none) s.office.sending o

/-- The state after the envelope in transmission at an output is replaced. -/
def setSending (o : Nat) (x : Option (Nat × Envelope)) (s : State) : State :=
  onOffice (fun f => { f with sending := tabSet (fun _ => none) f.sending o x }) s

/-- The envelope as an output sends it: forwarded ones with HOPS reduced and HCRC recomputed (R243). -/
def outgoing (e : Stored) : Envelope :=
  if e.inp < 3 then
    let f := { e.env with hops := e.env.hops - 1 }
    { f with hcrc := hcrcOf f }
  else e.env

/-- An uncorrectable word met in an envelope: a payload word is marked in the trailer and in POISON_ANY, a trailer word makes
the trailer a stomped one (R229). -/
def markWord (w : Nat) (e : Envelope) : Envelope :=
  if w < 3 then e
  else if w - 3 < e.lenw.toNat then
    let f := { e with poison := e.poison ||| BitVec.ofNat 32 (2 ^ (w - 3)), poisonAny := true }
    { f with hcrc := hcrcOf f }
  else { e with pcrc := ~~~(pcrcOf e) }

/-- The cells of an envelope that wait, released, at an output. -/
def releasedCells (s : State) (o c id : Nat) : Nat := ((getQ s.office.released (4 * o + c)).filter (fun p => p.id = id)).length

/-- The cells of an envelope that have left at an output or wait there released. -/
def arrivedCells (s : State) (o : Nat) (e : Stored) : Nat := leftAt e o + releasedCells s o e.env.cls.toNat e.id

/-- OUTPUT_STALL (R211, R217): a cell of the envelope in transmission has not been released when the link needs it; the output sends FILL and
counts a stall. The cells before it have left. -/
def execOutputStall (o : Fin 3) (s : State) : Host.Outcome State Fault Refusal :=
  match sendingAt s o with
  | none => .next s
  | some (id, _) =>
    match findStored s id with
    | none => .next s
    | some e =>
      let n := arrivedCells s o e
      if e.cells ≤ n then .next s
      else
        let s := bump (ctr 0x000C 7 o) (setB s R.SO_EVT F.SO_EVT_STALL true)
        let q := 4 * o.val + e.env.cls.toNat
        let s := onOffice (fun f => { f with released := tabSet (fun _ => []) f.released q ((getQ f.released q).filter (fun p => p.id ≠ id)) }) s
        let s := releaseCells id (leftAt e o) (n - leftAt e o) s
        .next (updStored id (fun x => { x with left := tabSet (fun _ => 0) x.left o n }) s)

/-- A pointer of input i and class c for output o is numbered among those of an envelope. -/
def ownsNumber (e : Stored) (o i c n : Nat) : Bool :=
  e.inp = i && e.env.cls.toNat = c && o ∈ e.targets && (n + 64 - tabGet (fun _ => 0) e.first o) % 64 < e.handed

/-- The pointers of an envelope at an output go out of the switch. -/
def removePtrs (id out : Nat) (s : State) : State :=
  let keep := fun (p : Ptr) => !pointsAt id out p
  onOffice (fun o => { o with
    waiting := o.waiting.map (fun q => (q.1, q.2.filter keep)),
    middle := o.middle.map (fun q => (q.1, q.2.filter keep)),
    held := o.held.filter (fun h => keep h.1),
    released := o.released.map (fun q => (q.1, q.2.filter keep)) }) s

/-- The least number that follows n among held pointers of one output, input and class, n + 1 where there is none. -/
def nextHeld (s : State) (o i c n : Nat) : Nat :=
  let ds := (s.office.held.filter (fun h => h.1.out = o && h.1.inp = i && h.1.cls = c)).map (fun h => (h.1.seq + 64 - n) % 64)
  (n + (ds.foldl min 64) % 64 + (if ds = [] then 1 else 0)) % 64

/-- RESEQ_TIMEOUT (R209): a held pointer of input i and class c has waited 16 slots at output o; the envelope of the missing pointer is
discarded there, with its held pointers, and the expected number passes it. A number that belongs to no envelope is passed up to the next
pointer held. -/
def execReseqTimeout (o : Fin 8) (i : Fin 8) (c : Fin 4) (s : State) : Host.Outcome State Fault Refusal :=
  let k := 32 * o.val + 4 * i.val + c.val
  let want := tabGet (fun _ => 0) s.office.expected k
  let late := s.office.held.any (fun h => h.1.out = o.val && h.1.inp = i.val && h.1.cls = c.val && 16 ≤ slotsSince s h.2)
  if ¬late then .next s
  else
    let (s, next) : State × Nat :=
      match s.office.stored.find? (fun e => ownsNumber e o i c want) with
      | some e => (dropTarget e.id o (removePtrs e.id o s), (tabGet (fun _ => 0) e.first o.val + e.handed) % 64)
      | none => (s, nextHeld s o i c want)
    let s := onOffice (fun f => { f with expected := tabSet (fun _ => 0) f.expected k next }) s
    let s := releaseHeld o i c 64 s
    .next (soNotice 0x83 (o.val * 256 + i.val) (bump (ctr 0x000C 10 o) (setB s R.SO_EVT F.SO_EVT_RESEQ true)))

/-- The ring postmark that was handed to a unit with an envelope (R255). -/
def deliveredMark (s : State) (e : Envelope) : Option RingMark := (s.office.delivered.find? (fun d => d.env = e)).bind (fun d => d.mark)

/-- A unit takes an envelope that was delivered to it. -/
def takeDelivered (e : Envelope) (s : State) : State :=
  match s.office.delivered.find? (fun d => d.env = e) with
  | some d => onOffice (fun f => { f with delivered := f.delivered.erase d }) s
  | none => s

/-! Reservations (R214). -/

/-- A write of SO_RESp or SO_POOL is refused: a field exceeds 8,192, or the internal pool would fall below 1,024. -/
def soResRefused (s : State) (a : Nat) (v : Word) : Bool :=
  let t := plainWrite a v s
  if internalPool t < 1024 ∨ getF s R.SO_CAP F.SO_CAP_CELLS < reserved t + schedPool t + 1024 then true
  else if a = R.SO_POOL then 8192 < F.SO_POOL_SCHED.get v
  else if a % 8 = 0 then 8192 < F.SO_RES_A_URG.get v ∨ 8192 < F.SO_RES_A_MGMT.get v
  else 8192 < F.SO_RES_B_BULK.get v

/-- The credit follows the reservations from those of s to those of t: the cells of a larger one are returned, and those of a smaller one
withheld (R214, R222). -/
def moveCredit (s t : State) : State :=
  (List.range 3).foldl (fun u p => [1, 2, 3].foldl (fun u c =>
    returnCredit p c (reservation t p c - reservation s p c) (withhold p c (reservation s p c - reservation t p c) u)) u) t

/-- A write of SO_RESp or SO_POOL (R214). -/
def writeSoRes (a : Nat) (v : Word) (s : State) : State :=
  if soResRefused s a v then setB (declineWrite a v s) R.SO_EVT F.SO_EVT_CFGREF true
  else moveCredit s (plainWrite a v s)

end Sys2Proof.Machine
end

