-- ==== Sys2Proof/Machine/Ports.lean ====
section
/-! DEFINITION. The Caravan ports (chapter 10): modules, bring-up and loss of a link, stamps and audits, and the reception of
envelopes up to the routing decision. -/

namespace Sys2Proof.Machine

/-! Small operations on a port. -/

/-- A counter of port p, at place k of R259's list. -/
abbrev ptCtr (k p : Nat) : Ctr := ctr 0x000D k p

/-- A port's state after a change. -/
def onPort (p : Nat) (f : PortState → PortState) (s : State) : State := setPort s p (f (getPort s p))

/-- A port posts a notice (R259). -/
def ptNotice (p code arg : Nat) (s : State) : State := post (getF s (R.PT_CTL p) F.PT_CTL_NTC_Q) 0x000D p code arg s

/-- A bit of PT_EVT is set. -/
def ptEvt (p : Nat) (f : Fld) (s : State) : State := setB s (R.PT_EVT p) f true

/-- The low 32 bits of the package serial: the NID of R248. -/
def ownNid (s : State) : Nat := (getReg s (R.ID_SERIAL_LO)).toNat

/-- The scrambler x^58 + x^39 + 1 over a block's payload, bit 0 first: its register, whose bit k is the bit sent k + 1 bits before, and the
scrambled payload (R235). -/
def scramble (seed : BitVec 58) (d : DWord) : BitVec 58 × DWord :=
  (List.range 64).foldl (fun x i =>
    let b := BitVec.ofBool ((d.getLsbD i ^^ x.1.getLsbD 38) ^^ x.1.getLsbD 57)
    ((x.1 <<< 1) ||| b.zeroExtend 58, x.2 ||| (b.zeroExtend 64 <<< i))) (seed, 0)

/-- The sync header of a block, its first bit in bit 0: 0 then 1 for a data block, 1 then 0 for a control block (R235). -/
def syncHeader (control : Bool) : BitVec 2 := if control then 1 else 2

/-- A port sends a block: the scrambled payload behind the sync header. The blocks sent since the last one that the model names leave the
scrambler's register open (R235; DESIGN CHOICE, log entry 143). -/
def sendBlock (p : Nat) (control : Bool) (d : DWord) (s : State) : State :=
  let (seed, s) := fresh 58 s
  let (reg, x) := scramble seed d
  onPort p (fun t => { t with scrambler := reg, txBlock := x ++ syncHeader control }) s

/-- The TRAIN block of a port: its ROLE, CAP5, RLOCK in TRAIN, the NID, and a TCNT that the blocks sent so far leave open (R246, R248;
DESIGN CHOICE, log entry 144). -/
def trainWord (s : State) (p : Nat) (rlock : Bool) (tcnt : Nat) : DWord :=
  BitVec.ofNat 64 (0x66 + p % 4 * 2 ^ 8 + 2 ^ 10 + bit1 rlock * 2 ^ 11 + ownNid s % 2 ^ 32 * 2 ^ 16 + tcnt % 256 * 2 ^ 48)

/-- A port in SEARCH or TRAIN sends TRAIN blocks (R246). -/
def sendTrain (p : Nat) (rlock : Bool) (s : State) : State :=
  let (n, s) := fresh 8 s
  let w := trainWord s p rlock n.toNat
  sendBlock p true w (onPort p (fun t => { t with txTrain := w }) s)

/-- The state shown in PT_STAT; a port in OFF or NOMOD has the module's soft TX disable set, and one in SEARCH or TRAIN sends TRAIN (R234,
R246). -/
def setPortState (p st : Nat) (s : State) : State :=
  let s := setB (setF s (R.PT_STAT p) F.PT_STAT_STATE st) (R.PT_MOD p) F.PT_MOD_SOFTDIS (st ≤ 1)
  if st = 2 then sendTrain p false s else if st = 3 then sendTrain p true s else s

/-- RATE in PT_CTL, with 3 treated as 0 (R249). -/
def portRate (s : State) (p : Nat) : Nat :=
  let r := getF s (R.PT_CTL p) F.PT_CTL_RATE
  if r = 3 then 0 else r

/-- A port starts SEARCH at rate r, 1 being 5.15625 Gbaud: block lock is sought afresh (R247, R249). -/
def startSearch (p r : Nat) (s : State) : State :=
  let s := if getF s (R.PT_STAT p) F.PT_STAT_RATE_EFF ≠ r then bump (ptCtr 13 p) s else s
  let s := setF s (R.PT_STAT p) F.PT_STAT_RATE_EFF r
  let s := setB s (R.PT_STAT p) F.PT_STAT_LOCK false
  let s := onPort p (fun t => { t with cableEpisode := false, hunting := false }) s
  bump (ptCtr 12 p) (setPortState p 2 s)

/-- The rate at which SEARCH starts after OFF, NOMOD and RETRAIN: the lower one only when it is fixed (R249). -/
def firstRate (s : State) (p : Nat) : Nat := if portRate s p = 2 then 1 else 0

/-- A port waits for a module, or starts SEARCH when one is accepted (R247). -/
def seekModule (p : Nat) (s : State) : State :=
  if (getPort s p).moduleOk then startSearch p (firstRate s p) s else setPortState p 1 s

/-! LINK_EVENT, boundaries and NEIGHBOUR of a port (R268, R269, R279, R282). -/

/-- The hub originates a LINK_EVENT in the Scheduled class to group 0xFFF (R269). -/
def sendLinkEvent (evt side b cause : Nat) (s : State) : State :=
  let w := linkWord evt side (position s) b cause s.census.linkSeq
  let e := build s 0 kLinkEvent true (ringId s * 4096 + 0xFFF) 0xFFF [w, shortPm (itbRead s 0)]
  let s := { s with census := { s.census with linkSeq := (s.census.linkSeq + 1) % 65536 } }
  sendOrWait 6 none e (bump (ctr 0x000E 3 0) s)

/-- The boundary position of a break on a side (R268). -/
def breakAt (s : State) (side : Nat) : Nat := if side = 0 then position s else (position s + 8191) % 8192

/-- A link that leaves UP for a cause of R251: a numbered hub enters the local boundary and sends DOWN (R268, R269). -/
def linkDown (p cause : Nat) (s : State) : State :=
  match sideOf s p with
  | some side =>
    if ¬numbered s then s
    else
      let b := breakAt s side
      sendLinkEvent 0 side b cause (enterBnd b (position s) side true s)
  | none => s

/-- A junction can be crossed: it is enabled, TIE is no span of the ring, and its peer named the ring of JN_CTL.PEER (R281 to R283). -/
def junctionUp (s : State) : Bool := getB s R.JN_CTL F.JN_CTL_EN && crossing s && (sideOf s 2).isNone

/-- TIE_DOWN with the cause for which TIE left UP. A junction that goes down for another reason has a cause that no rule names, an open
value (R269; DESIGN CHOICE, log entry 146). -/
def sendTieDown (cause : Option Nat) (s : State) : State :=
  match cause with
  | some c => sendLinkEvent 2 0 0 c s
  | none => let (c, s) := fresh 4 s; sendLinkEvent 2 0 0 c.toNat s

/-- JN_STAT.UP follows the junction, and the hub reports a change with TIE_DOWN or TIE_UP (R269, R282). -/
def reviewJunction (cause : Option Nat) (s : State) : State :=
  if junctionUp s = getB s R.JN_STAT F.JN_STAT_UP then s
  else if junctionUp s then sendLinkEvent 3 0 0 0 (setB s R.JN_STAT F.JN_STAT_UP true)
  else sendTieDown cause (setB s R.JN_STAT F.JN_STAT_UP false)

/-- A peer that names another ring than JN_CTL.PEER is an error of an enabled junction (R283). -/
def judgePeer (s : State) : State :=
  let wrong := match s.census.peer with
    | some r => r ≠ getF s R.JN_CTL F.JN_CTL_PEER
    | none => false
  let bad := getB s R.JN_CTL F.JN_CTL_EN && portUp s 2 && (sideOf s 2).isNone && wrong
  reviewJunction none (if bad then setB s R.JN_STAT F.JN_STAT_PEERERR true else s)

/-- The peer across TIE named a ring, or is gone (R281). -/
def setPeer (r : Option Nat) (s : State) : State := { s with census := { s.census with peer := r } }

/-- The local boundary of a side, if one is held. -/
def localBnd (s : State) (side : Nat) : Option Nat :=
  (List.range 16).find? (fun n => getB s (R.RT_BND n) F.RT_BND_VALID && getB s (R.RT_BND n) F.RT_BND_LOCAL &&
    getF s (R.RT_BND n) F.RT_BND_SIDE = side)

/-- A port that enters UP removes the local boundary it created, and the hub sends UP (R268, R269). -/
def linkUp (p : Nat) (s : State) : State :=
  match sideOf s p with
  | none => s
  | some side =>
    match localBnd s side with
    | none => s
    | some n =>
      let b := getF s (R.RT_BND n) F.RT_BND_B
      let key := getF s (R.RT_BND n) F.RT_BND_KEY
      sendLinkEvent 1 side b 0 (removeBnd key side s)

/-- Word 0 of a CENSUS payload (R273): OP, LEG, TURNS, POS, INDEX and what every message carries of the configuration. -/
def censusWord (s : State) (op leg turns pos index : Nat) (ivalid : Bool) : DWord :=
  BitVec.ofNat 64 (op % 16 + leg % 2 * 2 ^ 4 + turns % 4 * 2 ^ 5 + getF s R.CN_CFG F.CN_CFG_BIND * 2 ^ 7 +
    getF s R.CN_CFG F.CN_CFG_RING * 2 ^ 8 + getF s R.CN_CFG F.CN_CFG_GAPM1 * 2 ^ 12 +
    getF s R.CN_POS F.CN_POS_EPOCH * 2 ^ 16 + pos % 65536 * 2 ^ 32 + index % 4096 * 2 ^ 48 + bit1 ivalid * 2 ^ 60)

/-- The root's index and its validity, for word 1 (R273). -/
def rootBits (s : State) : Nat :=
  let r := getF s R.CN_ADDR F.CN_ADDR_ROOT
  if r = 0xFFFF then 0 else r % 4096 + 4096

/-- A link-local CENSUS envelope: MC 0, HOPS 1, DST 0xFFFF, Management (chapter 11, Census). -/
def censusEnv (s : State) (ws : List DWord) : Envelope := build s 3 kCensus false 0xFFFF 1 ws

/-- A CENSUS envelope leaves on a port, and the messages of its OP are counted (R284). -/
def sendCensus (p op : Nat) (ws : List DWord) (s : State) : State :=
  sendOrWait 6 (some p) (censusEnv s ws) (bump (ctr 0x000E (8 + op) 0) s)

/-- The hub is admitted. -/
def admitted (s : State) : Bool := getF s R.CN_STAT F.CN_STAT_STATE = 3

/-- NEIGHBOUR, sent by an admitted hub on a port that enters UP (R279). -/
def sendNeighbour (p : Nat) (s : State) : State :=
  if ¬admitted s then s
  else
    let w0 := censusWord s 4 0 0 (getF s R.CN_POS F.CN_POS_POS) (nodeAddr s % 4096) true
    let (idx, nid, v) := match tabGet (fun _ => none) s.census.last p with
      | some (i, n) => (i, n, 1)
      | none => (0, 0, 0)
    let w1 : DWord := BitVec.ofNat 64 (rootBits s + nid % 2 ^ 32 * 2 ^ 32)
    let w2 : DWord := BitVec.ofNat 64 (idx % 4096 + v * 4096)
    sendCensus p 4 [w0, w1, w2] s

/-! Leaving UP (R204, R224, R251, R252). -/

/-- An envelope is in transmission at an output. -/
def startedAt (s : State) (o id : Nat) : Bool :=
  match sendingAt s o with
  | some (k, _) => k = id
  | none => false

/-- What waits at an output is moved to another one: its pointers there are stamped afresh, and its cells keep their counts (R224, R271). -/
def retarget (e : Stored) (out new : Nat) (s : State) : State :=
  let s := dropPtrs e.id out s
  let n := nextNumber s e.inp new e.env.cls.toNat
  let s := updStored e.id (fun x => { x with
    targets := x.targets.filter (fun t => t ≠ out) ++ [new], first := tabSet (fun _ => 0) x.first new n }) s
  handCells e.inp [new] e.env.cls.toNat e.id 0 e.handed s

/-- Where an envelope that waits at a dead output goes: turned to the other ring port where that reaches its DST; one that was to cross a
junction, which is down, is routed again (R224, R265, R271, R281). -/
def backTargets (s : State) (p : Nat) (e : Stored) : List Nat :=
  if (sideOf s p).isSome ∨ ¬numbered s then turnTargets s (straight s p) e.env
  else if ringInput s e.inp then
    (if deadPort s (straight s e.inp) then turnTargets s e.inp e.env else [straight s e.inp])
  else (originPort s e.env.cls.toNat e.env.dst.toNat).toList

/-- An envelope is handed back from a dead output: multicast is cut, and one that has nowhere to go is answered or counted (R224, R267,
R271). -/
def handBack (p : Nat) (e : Stored) (s : State) : State :=
  let s := bump (ctr 0x000C 15 p) s
  if e.env.mc then dropTarget e.id p (cutCopy s)
  else
    match backTargets s p e with
    | o :: _ => bump (ctr 0x000E 0 0) (retarget e p o s)
    | [] =>
      let s := dropTarget e.id p (bump (ctr 0x000E 1 0) s)
      let (d, b) := ndnData e.env
      sendNdn Reason.noRoute.code 0 0 d b e.env s

/-- The envelopes queued for an output in a class and not started, in queue order: first those whose cell 0 is released (R224). -/
def queuedFor (s : State) (p c : Nat) : List Stored :=
  let here := s.office.stored.filter (fun e => p ∈ e.targets && e.env.cls.toNat = c && !startedAt s p e.id)
  let heads := ((getQ s.office.released (4 * p + c)).filter (fun q => q.cell = 0)).map (fun q => q.id)
  heads.filterMap (fun i => here.find? (fun e => e.id = i)) ++ here.filter (fun e => !(e.id ∈ heads))

/-- Every envelope queued for an output and not started goes back to the routing decision, in queue order within each class (R224). Where the
output is not dead, the decision finds it again and the envelope stays queued. -/
def handBackAll (p : Nat) (s : State) : State :=
  if ¬deadPort s p then s
  else (classOrder.flatMap (queuedFor s p)).foldl (fun s e => handBack p e s) s

/-- An envelope of the buffer and its copies in transmission change. -/
def updEnv (id : Nat) (f : Envelope → Envelope) (s : State) : State :=
  onOffice (fun o => { o with
    stored := o.stored.map (fun e => if e.id = id then { e with env := f e.env } else e),
    sending := o.sending.map (fun x => (x.1, x.2.map (fun y => if y.1 = id then (y.1, f y.2) else y))) }) s

/-- The rest of an envelope's cells are complete. -/
def handRest (id : Nat) (s : State) : State :=
  match findStored s id with
  | none => s
  | some e => handOver id (e.cells - e.handed) s

/-- A stomped trailer: PCRC is the inverse of the CRC over the payload (R219, R242). -/
def stomp (e : Envelope) : Envelope := { e with pcrc := ~~~(pcrcOf e) }

/-- The rest of an envelope that turned out bad: every target that has not started it drops it; a cut-through output that has
started it completes it to LENW and stomps its trailer (R219, R224). -/
def finishBad (id : Nat) (s : State) : State :=
  match findStored s id with
  | none => s
  | some e =>
    let s := (e.targets.filter (fun o => !startedAt s o id)).foldl (fun s o => dropTarget id o s) s
    handRest id (updEnv id stomp (updStored id (fun x => { x with bad := true, whole := true }) s))

/-- The payload of an envelope cut off in reception: the words of its complete cells, and zero words from there on (R224; DESIGN CHOICE, log
entry 145). -/
def cutPayload (handed : Nat) (e : Envelope) : Envelope :=
  { e with payload := (List.range e.lenw.toNat).map (fun i => if i + 3 < 8 * handed then payloadWord e i else 0) }

/-- The envelope that a port is receiving ends as bad: counted, it returns its cells as credit, or completes where it has been cut through
(R204, R218, R224, R237). -/
def cutReception (p : Nat) (s : State) : State :=
  match (getPort s p).receiving with
  | none => s
  | some r =>
    let s := bump (ctr 0x000C 6 p) (onPort p (fun t => { t with receiving := none }) s)
    match r.id with
    | none => returnCredit p r.env.cls.toNat (cellsOf r.env) s
    | some id =>
      match findStored s id with
      | none => s
      | some e => finishBad id (updEnv id (cutPayload e.handed) s)

/-- The lost-in-transit counters: envelopes whose transmission began after the last control block received in lock (R204). -/
def countLost (p : Nat) (s : State) : State :=
  let t := (getPort s p).inTransit
  let s := [0, 1, 2, 3].foldl (fun s c => bumpN (ptCtr 15 (8 * p + c)) (tabGet (fun _ => 0) t c) s) s
  onPort p (fun t => { t with inTransit := [] }) s

/-- A port in UP stops carrying envelopes: its credits go, what it was receiving ends, a junction's TIE is reported, and what waited for it is
handed back (R224, R282). -/
def leaveLink (p : Nat) (cause : Option Nat) (s : State) : State :=
  let s := setB s (R.PT_STAT p) F.PT_STAT_DOWNSHIFTED false
  let s := cutReception p (countLost p s)
  let s := onPort p (fun t => { t with credit := [], hunting := false, stampDue := false }) s
  handBackAll p (reviewJunction cause (if p = 2 then setPeer none s else s))

/-- The bit of a cause of R251 in PT_EVT. -/
abbrev causeFld (cause : Nat) : Fld := ⟨cause, 1⟩

/-- A port in UP leaves it for SEARCH with a cause of R251: the PT_EVT bit, the notice, the boundary and LINK_EVENT, and the
hand-back of R224. -/
def leaveUp (p cause rate : Nat) (s : State) : State :=
  let s := bump (ptCtr 11 (16 * p + cause)) (ptEvt p (causeFld cause) s)
  let s := startSearch p rate s
  let s := linkDown p cause s
  ptNotice p 0x81 cause (leaveLink p (some cause) s)

/-- A port leaves UP by its registers or its module, for none of R251's causes: what CAUSE says of it is open (R269; DESIGN CHOICE, log entry
146). -/
def dropLink (p : Nat) (s : State) : State :=
  leaveLink p none s

/-- The rate in force, kept through the losses of R251 (R249). -/
def keptRate (s : State) (p : Nat) : Nat := getF s (R.PT_STAT p) F.PT_STAT_RATE_EFF

/-! Bring-up (R247 to R249). -/

/-- A port enters READY: the release counts start at the reservation less the cells held, and the counts of reception start
afresh (R222, R240). Of a reservation that the cells held exceed, as many returns are withheld (R214). -/
def enterReady (p : Nat) (s : State) : State :=
  let table := fun (f : Nat → Nat) => [1, 2, 3].foldl (fun t c => tabSet (fun _ => 0) t c (f c)) []
  let rel := table (fun c => (reservation s p c - heldCells s p c) % 65536)
  let less := table (fun c => heldCells s p c - reservation s p c)
  let s := onPort p (fun t => { t with
    release := rel, withheld := less, received := [], sseqRx := none, sinceAudit := 0, cableEpisode := false }) s
  setPortState p 4 s

/-- A port enters UP: its own count of cells starts afresh, its local boundary goes, and NEIGHBOUR is sent (R222, R247, R249,
R259, R268, R279). -/
def enterUp (p : Nat) (s : State) : State :=
  let s := setPortState p 5 (onPort p (fun t => { t with sent := [], inTransit := [] }) s)
  let r := keptRate s p
  let s := ptNotice p 0x01 r s
  let s := if r = 1 ∧ portRate s p = 0 then
      ptNotice p 0x84 0 (setB (onPort p (fun t => { t with downshifted := true }) s) (R.PT_STAT p) F.PT_STAT_DOWNSHIFTED true)
    else s
  sendNeighbour p (linkUp p s)

/-- The roles that may face each other (R248). -/
def compatible (p role : Nat) : Bool := role = 3 || (p = 0 && role = 1) || (p = 1 && role = 0) || (p = 2 && role = 2)

/-- A control block other than FILL: hunting ends, an envelope under way ends as bad, and the envelopes sent before it are no
longer counted as in transit (R204, R237). -/
def controlBlock (p : Nat) (s : State) : State :=
  cutReception p (onPort p (fun t => { t with hunting := false, inTransit := [] }) s)

/-- The port is no longer held at the lower rate: RETRAIN, EN or a change of its module (R249). -/
def freeRate (p : Nat) (s : State) : State := onPort p (fun t => { t with downshifted := false }) s

/-- PORT_ENABLE's effect (R247). -/
def enablePort (p : Nat) (s : State) : State := seekModule p (freeRate p s)

/-- A port that is disabled goes to OFF (R247). -/
def disablePort (p : Nat) (s : State) : State :=
  let up := portUp s p
  let s := setPortState p 0 (setB (freeRate p s) (R.PT_STAT p) F.PT_STAT_LOCK false)
  if up then dropLink p s else cutReception p s

/-- RETRAIN restarts SEARCH from any state but OFF and NOMOD (R247, R249). -/
def retrainPort (p : Nat) (s : State) : State :=
  if portState s p ≤ 1 then s
  else
    let up := portUp s p
    let s := startSearch p (firstRate s p) (freeRate p s)
    if up then dropLink p s else cutReception p s

/-- A write of PT_CTL: a change of RATE while EN is 1 is refused with CFGREF (R258); EN and RETRAIN move the port. -/
def writePtCtl (p : Nat) (v : Word) (s : State) : State :=
  let old := getReg s (R.PT_CTL p)
  let was := F.PT_CTL_EN.get old
  if was = 1 ∧ F.PT_CTL_RATE.get v ≠ F.PT_CTL_RATE.get old then ptEvt p F.PT_EVT_CFGREF (declineWrite (R.PT_CTL p) v s)
  else
    let s := plainWrite (R.PT_CTL p) v s
    let now := F.PT_CTL_EN.get v
    let s := if now = 0 ∧ (was = 1 ∨ portState s p ≠ 0) then disablePort p s
      else if now = 1 ∧ portState s p = 0 then enablePort p s else s
    if F.PT_CTL_RETRAIN.get v = 1 then retrainPort p s else s

/-- PORT_ENABLE (R247): a write of PT_CTL with EN 1. -/
def execPortEnable (m : Master) (p : Fin 3) (v : Word) (s : State) : Host.Outcome State Fault Refusal :=
  .next (guardWrite m (R.PT_CTL p) (fun s => (writePtCtl p (F.PT_CTL_EN.put v 1) s, none)) s)

/-- PORT_DISABLE (R247): a write of PT_CTL with EN 0. -/
def execPortDisable (m : Master) (p : Fin 3) (v : Word) (s : State) : Host.Outcome State Fault Refusal :=
  .next (guardWrite m (R.PT_CTL p) (fun s => (writePtCtl p (F.PT_CTL_EN.put v 0) s, none)) s)

/-- RETRAIN (R247): a write of PT_CTL with RETRAIN 1. -/
def execRetrain (m : Master) (p : Fin 3) (v : Word) (s : State) : Host.Outcome State Fault Refusal :=
  .next (guardWrite m (R.PT_CTL p) (fun s => (writePtCtl p (F.PT_CTL_RETRAIN.put v 1) s, none)) s)

/-- A write of PT_SDS_RX while EN is 1 is refused with CFGREF (R258). -/
def writePtSdsRx (p : Nat) (v : Word) (s : State) : State :=
  if getB s (R.PT_CTL p) F.PT_CTL_EN then ptEvt p F.PT_EVT_CFGREF (declineWrite (R.PT_SDS_RX p) v s) else plainWrite (R.PT_SDS_RX p) v s

/-- A port without an accepted module is held in NOMOD unless it is OFF (R247); a port whose EN is 1 does not stay OFF. -/
def loseModule (p : Nat) (s : State) : State :=
  let up := portUp s p
  let s := onPort p (fun t => { t with moduleOk := false, downshifted := false }) s
  if portState s p = 0 ∧ ¬getB s (R.PT_CTL p) F.PT_CTL_EN then s
  else
    let s := setPortState p 1 (setB s (R.PT_STAT p) F.PT_STAT_LOCK false)
    if up then dropLink p s else cutReception p s

/-- MODULE_CHANGE (R234): SFP_x_MODABS changes; a removal holds the port in NOMOD. -/
def execModuleChange (p : Fin 3) (absent : Bool) (s : State) : Host.Outcome State Fault Refusal :=
  if getB s (R.PT_STAT p) F.PT_STAT_MODABS = absent then .next s
  else
    let s := ptEvt p F.PT_EVT_MODCHG (setB s (R.PT_STAT p) F.PT_STAT_MODABS absent)
    let s := ptNotice p 0x82 (getF s (R.PT_MOD p) F.PT_MOD_ID) s
    .next (if absent then loseModule p s else s)

/-- MODULE_QUALIFY (R234): after MODABS has been low for 300 ms the module's byte 0 is judged, and an accepted module's byte
92 says whether it has diagnostics. -/
def execModuleQualify (p : Fin 3) (id : Byte) (diag : Byte) (s : State) : Host.Outcome State Fault Refusal :=
  if getB s (R.PT_STAT p) F.PT_STAT_MODABS then .next s
  else
    let s := setF s (R.PT_MOD p) F.PT_MOD_ID id.toNat
    if id = 3 ∨ getB s (R.PT_CTL p) F.PT_CTL_ANYMOD then
      let s := setB s (R.PT_MOD p) F.PT_MOD_DDM (diag.getLsbD 6)
      let s := onPort p (fun t => { t with moduleOk := true, downshifted := false }) s
      let st := portState s p
      .next (if st = 1 ∨ (st = 0 ∧ getB s (R.PT_CTL p) F.PT_CTL_EN) then startSearch p (firstRate s p) s else s)
    else .next (loseModule p (ptNotice p 0x82 id.toNat (ptEvt p F.PT_EVT_MODREF s)))

/-- BLOCK_LOCK (R247): 64 consecutive blocks with valid sync headers take SEARCH to TRAIN. -/
def execBlockLock (p : Fin 3) (s : State) : Host.Outcome State Fault Refusal :=
  if portState s p = 2 then
    .next (setPortState p 3 (setB s (R.PT_STAT p) F.PT_STAT_LOCK true))
  else .next s

/-- A received TRAIN (R247, R248, R251). -/
def receiveTrain (p : Nat) (w : Nat) (s : State) : State :=
  let role := bitsOf w 8 2
  let rlock := bitsOf w 11 1
  let st := portState s p
  if st < 3 then s
  else
    let s := bump (ptCtr 1 (8 * p + 4)) (controlBlock p s)
    let s := setF (setF s (R.PT_STAT p) F.PT_STAT_RLOCK rlock) (R.PT_STAT p) F.PT_STAT_NROLE role
    let s := setReg s (R.PT_NID p) (BitVec.ofNat 32 (bitsOf w 16 32))
    if st = 5 then leaveUp p 12 (keptRate s p) s
    else if st = 4 then (if rlock = 0 then setPortState p 3 s else s)
    else if ¬compatible p role then
      let s := ptEvt p F.PT_EVT_CABLE s
      if (getPort s p).cableEpisode then s
      else ptNotice p 0x83 role (onPort p (fun t => { t with cableEpisode := true }) s)
    else
      let s := onPort p (fun t => { t with cableEpisode := false }) s
      if rlock = 1 then enterReady p s else s

/-- READY_TIMEOUT (R247): 1 ms without a stamp takes READY to TRAIN. -/
def execReadyTimeout (p : Fin 3) (s : State) : Host.Outcome State Fault Refusal :=
  .next (if portState s p = 4 then setPortState p 3 s else s)

/-- RATE_ALTERNATE (R249): in AUTO a port that has not reached READY in 10 ms searches at the other rate, unless
it is held at the lower one. -/
def execRateAlternate (p : Fin 3) (s : State) : Host.Outcome State Fault Refusal :=
  if portRate s p = 0 ∧ ¬(getPort s p).downshifted ∧ (portState s p = 2 ∨ portState s p = 3) then .next (startSearch p (1 - keptRate s p) s) else .next s

/-! Losses (R251). -/

/-- LOCKLOSS (R247, R251): a port in TRAIN or READY goes to SEARCH, and one in UP leaves it with this cause. -/
def execLockloss (p : Fin 3) (s : State) : Host.Outcome State Fault Refusal :=
  let st := portState s p
  if st = 5 then .next (leaveUp p 0 (keptRate s p) s)
  else if st = 3 ∨ st = 4 then .next (startSearch p (keptRate s p) (cutReception p s))
  else .next s

/-- LOS (R234, R251): SFP_x_LOS has been high for 256 ns, or falls; PT_STAT shows its level. -/
def execLos (p : Fin 3) (high : Bool) (s : State) : Host.Outcome State Fault Refusal :=
  let s := setB s (R.PT_STAT p) F.PT_STAT_LOS high
  .next (if high ∧ portUp s p then leaveUp p 3 (keptRate s p) s else s)

/-- HIBER (R249, R251): under AUTODN and RATE 0 the port searches at 5.15625 Gbaud, and is held there. -/
def execHiber (p : Fin 3) (s : State) : Host.Outcome State Fault Refusal :=
  if ¬portUp s p then .next s
  else if getB s (R.PT_CTL p) F.PT_CTL_AUTODN ∧ portRate s p = 0 then
    .next (leaveUp p 2 1 (onPort p (fun t => { t with downshifted := true }) s))
  else .next (leaveUp p 2 (keptRate s p) s)

/-- STAMPTO (R251). -/
def execStampto (p : Fin 3) (s : State) : Host.Outcome State Fault Refusal :=
  .next (if portUp s p then leaveUp p 1 (keptRate s p) s else s)

/-! Stamps and audits (R239, R240). -/

/-- The counts of the three credited classes in a STAMP or AUDIT: class and lowest bit. -/
def stampFields : List (Nat × Nat) := [(1, 8), (3, 24), (2, 40)]

/-- A block that carries counts of the three credited classes. -/
def countsWord (btype : Nat) (t : Table Nat) : Nat :=
  btype + (stampFields.map (fun f => tabGet (fun _ => 0) t f.1 % 65536 * 2 ^ f.2)).sum

/-- A received STAMP: the credits, the lost stamps, and UP from READY (R222, R239, R247). -/
def receiveStamp (p : Nat) (w : Nat) (s : State) : State :=
  let st := portState s p
  if st < 4 then s
  else
    let s := bump (ptCtr 1 (8 * p + 3)) (controlBlock p s)
    let seq := bitsOf w 56 4
    let lost := match (getPort s p).sseqRx with
      | some q => (seq + 31 - q) % 16
      | none => 0
    let s := bumpN (ptCtr 7 p) lost s
    let credit := stampFields.foldl (fun t f => tabSet (fun _ => 0) t f.1 (bitsOf w f.2 16)) []
    let s := onPort p (fun t => { t with sseqRx := some seq, credit := credit }) s
    let s := setF s (R.PT_STAT p) F.PT_STAT_RLOCK (bitsOf w 60 1)
    if st = 4 then enterUp p s else s

/-- The port sends a STAMP with its release counts, and with every 16th in UP an AUDIT (R239, R240, R246). One due in READY waits for UP
(DESIGN CHOICE, log entry 147). -/
def sendStamp (p : Nat) (s : State) : State :=
  let t := getPort s p
  let w : DWord := BitVec.ofNat 64 (countsWord 0x55 t.release + t.sseqTx * 2 ^ 56 + getF s (R.PT_STAT p) F.PT_STAT_LOCK * 2 ^ 60)
  let n := t.sinceAudit + 1
  let s := bump (ptCtr 0 (8 * p + 3)) s
  let s := setPort s p { t with txStamp := w, sseqTx := (t.sseqTx + 1) % 16, sinceAudit := n, stampDue := false }
  let s := sendBlock p true w s
  if 16 ≤ n ∧ portUp s p then
    let a : DWord := BitVec.ofNat 64 (countsWord 0x99 t.sent)
    sendBlock p true a (bump (ptCtr 0 (8 * p + 5)) (onPort p (fun t => { t with sinceAudit := 0, txAudit := a }) s))
  else s

/-- STAMP_SEND (R238, R239, R240): a stamp is due; inside an envelope it waits for the envelope's end. -/
def execStampSend (p : Fin 3) (s : State) : Host.Outcome State Fault Refusal :=
  if portState s p < 4 then .next s
  else if (sendingAt s p).isSome then .next (onPort p (fun t => { t with stampDue := true }) s)
  else .next (sendStamp p s)

/-- One class of a received AUDIT: cells lost to hunting are added to the count and returned as credit; a difference above
4,096 is an audit fault, which the result tells (R240). -/
def auditClass (p c count : Nat) (s : State) : State × Bool :=
  let d := (count + 65536 - tabGet (fun _ => 0) (getPort s p).received c) % 65536
  if d = 0 then (s, false)
  else if 4096 < d then (bump (ptCtr 10 p) s, true)
  else
    let s := onPort p (fun t => { t with
      received := tabSet (fun _ => 0) t.received c ((tabGet (fun _ => 0) t.received c + d) % 65536) }) s
    let s := returnCredit p c d (ptEvt p F.PT_EVT_AUDIT s)
    (bumpN (ptCtr 9 (8 * p + c)) d (bump (ptCtr 8 (8 * p + c)) s), false)

/-- The counts of an AUDIT, class by class, and whether one is an audit fault (R240). -/
def auditAll (p w : Nat) : List (Nat × Nat) → State → State × Bool
  | [], s => (s, false)
  | f :: fs, s =>
    let x := auditClass p f.1 (bitsOf w f.2 16) s
    let y := auditAll p w fs x.1
    (y.1, x.2 || y.2)

/-- A received AUDIT (R240). -/
def receiveAudit (p : Nat) (w : Nat) (s : State) : State :=
  if portState s p < 4 then s
  else
    let s := bump (ptCtr 1 (8 * p + 5)) (controlBlock p s)
    let x := auditAll p w stampFields s
    if x.2 ∧ portUp x.1 p then leaveUp p 9 (keptRate x.1 p) x.1 else x.1

/-! Control blocks (R236, R237). -/

/-- A bad block: inside an envelope it is taken as a word, and the envelope is bad; elsewhere it is discarded. It is counted in every case
(R237). -/
def badBlock (p : Nat) (s : State) : State :=
  let s := bump (ptCtr 2 p) (ptEvt p F.PT_EVT_BADBLK s)
  let t := getPort s p
  let s := if t.hunting then bump (ptCtr 5 p) s else s
  match t.receiving with
  | some r => onPort p (fun t => { t with receiving := some { r with bad := true } }) s
  | none => s

/-- BAD_BLOCK (R237). -/
def execBadBlock (p : Fin 3) (s : State) : Host.Outcome State Fault Refusal := .next (badBlock p s)

/-- An IDLE: a control block that says nothing more (R236, R259). -/
def receiveIdle (p : Nat) (s : State) : State := if portState s p < 3 then s else bump (ptCtr 1 (8 * p + 1)) (controlBlock p s)

/-- FILL blocks: skipped inside an envelope, discarded in a hunt; what was sent before them is no longer counted as in transit (R204, R236,
R237, R259). -/
def receiveFills (p n : Nat) (s : State) : State :=
  if n = 0 ∨ portState s p < 3 then s
  else
    let s := if (getPort s p).hunting then bumpN (ptCtr 5 p) n s else s
    onPort p (fun t => { t with inTransit := [] }) (bumpN (ptCtr 1 (8 * p + 2)) n s)

/-- A received control block, by its BTYPE; one of another type is a bad block (R236). -/
def receiveControl (p : Nat) (w : DWord) (s : State) : State :=
  let b := bitsOf w.toNat 0 8
  if b = 0x0F then receiveIdle p s
  else if b = 0x33 then receiveFills p 1 s
  else if b = 0x55 then receiveStamp p w.toNat s
  else if b = 0x66 then receiveTrain p w.toNat s
  else if b = 0x99 then receiveAudit p w.toNat s
  else badBlock p s

/-- TRAIN (R247, R248), taken as the block that its BTYPE names (R236). -/
def execTrain (p : Fin 3) (w : DWord) (s : State) : Host.Outcome State Fault Refusal := .next (receiveControl p w s)

/-- STAMP (R239), taken as the block that its BTYPE names (R236). -/
def execStamp (p : Fin 3) (w : DWord) (s : State) : Host.Outcome State Fault Refusal := .next (receiveControl p w s)

/-- AUDIT (R240), taken as the block that its BTYPE names (R236). -/
def execAudit (p : Fin 3) (w : DWord) (s : State) : Host.Outcome State Fault Refusal := .next (receiveControl p w s)

/-- HUNT_END (R237): a control block other than FILL, such as IDLE, ends the hunt; inside an envelope it ends the envelope as bad. -/
def execHuntEnd (p : Fin 3) (s : State) : Host.Outcome State Fault Refusal := .next (receiveIdle p s)

/-! Reception (R218, R219, R237, R243, R244). -/

/-- Header words 0 to 2 pass their check (R237): HCRC is right and LENW is at most 32. -/
def headerGood (e : Envelope) : Bool := e.hcrc = hcrcOf e && e.lenw.toNat ≤ 32

/-- A header error: the envelope is discarded and the receiver hunts (R237). -/
def headerError (p : Nat) (s : State) : State :=
  bump (ptCtr 4 p) (bump (ptCtr 3 p) (onPort p (fun t => { t with hunting := true }) (ptEvt p F.PT_EVT_HCRC s)))

/-- The cells of an envelope whose header was good join the count that an AUDIT is compared with (R240). -/
def countReceived (p : Nat) (e : Envelope) (s : State) : State :=
  let c := e.cls.toNat
  if c = 0 then s
  else onPort p (fun t => { t with
    received := tabSet (fun _ => 0) t.received c ((tabGet (fun _ => 0) t.received c + cellsOf e) % 65536) }) s

/-- The outputs that the routing decision gives a received envelope. -/
def receivedOutputs (s : State) (p : Nat) (e : Envelope) : List Nat :=
  match routeReceived s p e with
  | .to outs => outs
  | .turn => turnTargets s p e
  | .drop _ => []

/-- The port can receive envelopes: it has passed TRAIN, and no hunt is on. -/
def canReceive (s : State) (p : Nat) : Bool := 4 ≤ portState s p && !(getPort s p).hunting

/-- The ring postmark of an instant ph steps after the FCLK edge `age` edges back (R254). -/
def markAt (s : State) (age ph : Nat) : RingMark := { tick := (s.time.ltick + 2 ^ 64 - age % 2 ^ 64) % 2 ^ 64, ph := ph % 32 }

/-- Port p's network-time state. -/
def getNet (s : State) (p : Nat) : NetPort := tabGet (fun _ => NetPort.reset) s.time.net p

/-- The state after port p's network-time state is changed. -/
def onNet (p : Nat) (f : NetPort → NetPort) (s : State) : State :=
  { s with time := { s.time with net := tabSet (fun _ => NetPort.reset) s.time.net p (f (tabGet (fun _ => NetPort.reset) s.time.net p)) } }

/-- An envelope's ring postmark of reception is handed to the time and track unit where the kind is one of P5's (R255). -/
def handMark (p : Nat) (e : Envelope) (mark : RingMark) (s : State) : State :=
  if portOfKind e.kind = 5 then onNet p (fun n => { n with rxMark := some mark }) s else s

/-- An envelope whose header has passed is in reception: it is counted for the AUDIT, and has its postmark (R240, R254). -/
def beginReception (p : Nat) (e : Envelope) (mark : RingMark) (s : State) : State :=
  onPort p (fun t => { t with receiving := some { env := e, id := none, bad := false, mark := mark }, rxMark := some mark })
    (countReceived p e s)

/-- An envelope is placed before its trailer arrives: its cells go on, it is cut through, and cell 0 is not its last (R215, R216). -/
def cutsEarly (s : State) (p : Nat) (e : Envelope) : Bool :=
  !reservedKind e.kind && e.hops ≠ 0 && !breaksPool s p e && 1 < cellsOf e && cutsThrough s p (receivedOutputs s p e) e

/-- HEADER_RECEIVED (R216, R237): the header of an envelope is in, and cell 0 with it. A bad header starts a hunt; an envelope of several
cells that cuts through is routed and its first cell handed over before the trailer arrives. -/
def execHeaderReceived (p : Fin 3) (e : Envelope) (age : Nat) (ph : Fin 32) (s : State) : Host.Outcome State Fault Refusal :=
  let e := asKind e.kind e
  if ¬canReceive s p ∨ (getPort s p).receiving.isSome then .next s
  else if ¬headerGood e then .next (headerError p s)
  else
    let mark := markAt s age ph
    let s := beginReception p e mark (applyLinks s)
    if ¬cutsEarly s p e then .next s
    else
      let id := s.office.nextId
      let s := placeReceived p e true false 1 mark (handMark p e mark s)
      .next (onPort p (fun t => { t with receiving := some { env := e, id := some id, bad := false, mark := mark } }) s)

/-- Each later cell of an envelope that is being cut through is handed over as soon as it is complete: 8 blocks of the lane, which are 4
slots, or 8 at the lower rate; its last cell waits for the trailer (R216; DESIGN CHOICE, log entry 148). -/
def paceCells (p : Nat) (s : State) : State :=
  match (getPort s p).receiving with
  | none => s
  | some r =>
    match r.id.bind (findStored s) with
    | none => s
    | some e =>
      if e.handed + 1 < e.cells ∧ 4 * (keptRate s p + 1) * e.handed ≤ slotsSince s e.slot then handOver e.id 1 s else s

/-- What the trailer's arrival says of an envelope whose header came before: its payload, PCRC and POISON. -/
def withTrailer (h e : Envelope) : Envelope :=
  let x := asKind h.kind { h with payload := e.payload, pcrc := e.pcrc, poison := e.poison }
  { h with payload := x.payload, pcrc := e.pcrc, poison := e.poison }

/-- The trailer of a cut-through envelope is in: a good one hands over its remaining cells, a bad one is stomped where it has
started and discarded elsewhere (R218, R219). -/
def finishReception (p id : Nat) (bad : Bool) (e : Envelope) (s : State) : State :=
  let s := updEnv id (fun x => withTrailer x e) s
  match findStored s id with
  | none => s
  | some st =>
    if bad then finishBad id (bump (ctr 0x000C 6 p) s)
    else
      match payloadCheck st.env with
      | .good => handRest id (keepLinkEvent st.env (updStored id (fun x => { x with whole := true }) s))
      | .stomped => finishBad id (bump (ctr 0x000C 5 p) s)
      | .bad => finishBad id (bump (ctr 0x000C 6 p) s)

/-- A whole envelope with a good header that was not cut through: its kind, HOPS and pool are judged, its credit kept or returned, its
payload checked, and it goes to the routing decision (R215, R218 to R220, R223, R244). -/
def receiveWhole (p : Nat) (bad : Bool) (mark : RingMark) (e : Envelope) (s : State) : State :=
  let s := applyLinks s
  let give := returnCredit p e.cls.toNat (cellsOf e)
  if reservedKind e.kind ∨ e.hops = 0 then give (bump (ptCtr 6 p) s)
  else if breaksPool s p e then poolDrop p e s
  else if bad then give (bump (ctr 0x000C 6 p) s)
  else
    match payloadCheck e with
    | .good =>
      let ct := cutsThrough s p (receivedOutputs s p e) e && cellsOf e ≤ 1
      keepLinkEvent e (placeReceived p e ct true (cellsOf e) mark (handMark p e mark s))
    | .stomped => give (bump (ctr 0x000C 5 p) s)
    | .bad => give (bump (ctr 0x000C 6 p) s)

/-- An envelope's last block is in: what its header began is finished; one whose header comes with it is judged from there (R237, R244). -/
def receiveEnvelope (p : Nat) (e : Envelope) (mark : RingMark) (s : State) : State :=
  match (getPort s p).receiving with
  | some r =>
    let s := onPort p (fun t => { t with receiving := none }) s
    match r.id with
    | some id => finishReception p id r.bad e s
    | none => receiveWhole p r.bad r.mark (withTrailer r.env e) s
  | none =>
    if ¬headerGood e then headerError p s
    else
      let s := onPort p (fun t => { t with receiving := none }) (beginReception p e mark s)
      receiveWhole p false mark e s

/-- ENVELOPE_RECEIVED (R237, R244): an envelope's data blocks have arrived, with `fills` FILL blocks among them; those of a hunt are discarded
and counted; otherwise the envelope is received. -/
def execEnvelopeReceived (p : Fin 3) (e : Envelope) (age : Nat) (ph : Fin 32) (fills : Nat) (s : State) :
    Host.Outcome State Fault Refusal :=
  let e := asKind e.kind e
  if portState s p < 4 then .next s
  else
    let blocks := 4 + e.lenw.toNat
    let s := receiveFills p fills (bumpN (ptCtr 1 (8 * p.val)) blocks s)
    if (getPort s p).hunting then .next (bumpN (ptCtr 5 p) blocks s)
    else .next (receiveEnvelope p e (markAt s age ph) s)

/-! The module's management pair (R234). -/

/-- DDM_POLL (R234): once per second the diagnostics of an accepted module that has them are read. -/
def execDdmPoll (p : Fin 3) (temp vcc bias txpwr rxpwr : BitVec 16) (s : State) : Host.Outcome State Fault Refusal :=
  if (getPort s p).moduleOk ∧ getB s (R.PT_MOD p) F.PT_MOD_DDM then
    let s := setReg s (R.PT_DDM_A p) (vcc ++ temp)
    let s := setReg s (R.PT_DDM_B p) (txpwr ++ bias)
    .next (setReg s (R.PT_DDM_C p) (rxpwr.zeroExtend 32))
  else .next s

/-- A write of PT_I2C_CMD: GO while a command is busy is refused with CFGREF (R258). -/
def writeI2cCmd (p : Nat) (v : Word) (s : State) : State :=
  if F.PT_I2C_CMD_GO.get v = 1 then
    if (getPort s p).i2cBusy then ptEvt p F.PT_EVT_CFGREF (declineWrite (R.PT_I2C_CMD p) v s)
    else onPort p (fun t => { t with i2cBusy := true }) (plainWrite (R.PT_I2C_CMD p) v s)
  else plainWrite (R.PT_I2C_CMD p) v s

/-- I2C_GO (R234): a write of PT_I2C_CMD with GO 1. -/
def execI2cGo (m : Master) (p : Fin 3) (v : Word) (s : State) : Host.Outcome State Fault Refusal :=
  .next (guardWrite m (R.PT_I2C_CMD p) (fun s => (writeI2cCmd p (F.PT_I2C_CMD_GO.put v 1) s, none)) s)

/-- I2C_COMPLETE (R234): the command ends with the byte read, or without an acknowledgement. -/
def execI2cComplete (p : Fin 3) (ack : Bool) (data : Byte) (s : State) : Host.Outcome State Fault Refusal :=
  if ¬(getPort s p).i2cBusy then .next s
  else
    let s := onPort p (fun t => { t with i2cBusy := false }) (setB s (R.PT_I2C_CMD p) F.PT_I2C_CMD_GO false)
    let rd := ¬getB s (R.PT_I2C_CMD p) F.PT_I2C_CMD_WRITE
    let d := R.PT_I2C_DATA p
    if ack then
      let s := setB s d F.PT_I2C_DATA_ERR false
      .next (if rd then setB (setF s d F.PT_I2C_DATA_RDATA data.toNat) d F.PT_I2C_DATA_VALID true else s)
    else
      let s := bump (ptCtr 14 p) (ptEvt p F.PT_EVT_I2CERR (setB s d F.PT_I2C_DATA_ERR true))
      .next (if rd then setB s d F.PT_I2C_DATA_VALID false else s)

end Sys2Proof.Machine
end

