-- ==== Sys2Proof/Machine/Census.lean ====
section
/-! DEFINITION. Census (chapter 11): elections, the numbering wave, admission, joining, and the LINK_EVENTs that the routing
stage applies. -/

namespace Sys2Proof.Machine

/-! What a CENSUS payload says (R273). -/

/-- A field of payload word w. -/
def cField (e : Envelope) (w lo n : Nat) : Nat := bitsOf (payloadWord e w).toNat lo n

/-- OP. -/
def cOp (e : Envelope) : Nat := cField e 0 0 4
/-- LEG. -/
def cLeg (e : Envelope) : Nat := cField e 0 4 1
/-- TURNS. -/
def cTurns (e : Envelope) : Nat := cField e 0 5 2
/-- RING. -/
def cRing (e : Envelope) : Nat := cField e 0 8 4
/-- GAP: GAPM1 + 1. -/
def cGap (e : Envelope) : Nat := cField e 0 12 4 + 1
/-- EPOCH. -/
def cEpoch (e : Envelope) : Nat := cField e 0 16 16
/-- POS, as 16 bits. -/
def cPos (e : Envelope) : Nat := cField e 0 32 16
/-- INDEX. -/
def cIndex (e : Envelope) : Nat := cField e 0 48 12
/-- ROOTIDX. -/
def cRoot (e : Envelope) : Nat := cField e 1 0 12

/-- Census state after a change. -/
def onCensus (f : CensusState → CensusState) (s : State) : State := { s with census := f s.census }

/-- A CENSUS payload with n bits of its word 0 from bit lo on replaced. -/
def setField (lo n v : Nat) : List DWord → List DWord
  | [] => []
  | w :: ws => BitVec.ofNat 64 (w.toNat / 2 ^ (lo + n) * 2 ^ (lo + n) + v % 2 ^ n * 2 ^ lo + w.toNat % 2 ^ lo) :: ws

/-- A payload with another TURNS. -/
def setTurns (turns : Nat) (ws : List DWord) : List DWord := setField 5 2 turns ws

/-- The place of an OP among the counters: a message of another OP than the four is only discarded and counted (R273, R284). -/
def opPlace (op : Nat) : Nat := if op = 0 then 24 else 8 + op

/-- A census message is taken from P6 and counted by OP, and the highest EPOCH seen is kept (R273, R274, R284). -/
def noteCensus (e : Envelope) (s : State) : State :=
  let s := bump (ctr 0x000E (opPlace (cOp e)) 0) (takeDelivered e s)
  if 1 ≤ cOp e ∧ cOp e ≤ 4 then onCensus (fun c => { c with highestEpoch := max c.highestEpoch (cEpoch e) }) s else s

/-- The index that the neighbour on a port has taken, as a message of its own tells (R279). -/
def noteAcross (p : Nat) (e : Envelope) (s : State) : State :=
  if cField e 0 60 1 = 1 then onCensus (fun c => { c with across := tabSet (fun _ => none) c.across p (some (cIndex e)) }) s else s

/-- The unit's notices, at most one per code per millisecond (R284). -/
def cnNotice (code arg : Nat) (s : State) : State := postOnce (rtQueue s) 0x000E 0 code arg s

/-- CN_STAT.STATE. -/
def setCnState (n : Nat) (s : State) : State := setF s R.CN_STAT F.CN_STAT_STATE n

/-- The hub is the root. -/
def isRoot (s : State) : Bool := getB s R.CN_STAT F.CN_STAT_ROOT

/-- The census binding that this hub holds. -/
def binding (s : State) : Option Nat :=
  if getB s R.CN_BIND F.CN_BIND_VALID then some (getF s R.CN_BIND F.CN_BIND_INDEX) else none

/-! Elections (R274). -/

/-- The port on which this hub's own CLAIM leaves: eastward, or westward when the eastward port is not UP. -/
def claimPort (s : State) : Nat := if portUp s (eastPort s) then eastPort s else westPort s

/-- A claim is no worse than another: lower RPRI, or the same and a NID not above (R274). -/
def noWorse (a b : Nat × Nat) : Bool := a.1 < b.1 || (a.1 = b.1 && a.2 ≤ b.2)

/-- This hub's claim: its RPRI and NID. -/
def ownClaim (s : State) : Nat × Nat := (getF s R.CN_CFG F.CN_CFG_RPRI, ownNid s)

/-- The words of a CLAIM. -/
def claimWords (s : State) (turns : Nat) (c : Nat × Nat) : List DWord :=
  [censusWord s 1 0 turns 0 0 false, BitVec.ofNat 64 (rootBits s + c.1 % 256 * 2 ^ 16 + c.2 % 2 ^ 32 * 2 ^ 32), 0]

/-- A CLAIM leaves on a port that is UP. -/
def sendClaim (p : Nat) (ws : List DWord) (s : State) : State := if portUp s p then sendCensus p 1 ws s else s

/-- A hub that is neither numbered nor refused is ELECTING while an election runs. -/
def showElecting (s : State) : State := if getF s R.CN_STAT F.CN_STAT_STATE = 0 then setCnState 1 s else s

/-- An eligible hub starts an election: it sends a CLAIM (R274). -/
def startElection (s : State) : State :=
  if ¬getB s R.CN_STAT F.CN_STAT_ELIG then s
  else
    let c := ownClaim s
    let best := match s.census.best with
      | some b => if noWorse b c then b else c
      | none => c
    let s := showElecting (bump (ctr 0x000E 8 0) (onCensus (fun k => { k with best := some best }) s))
    sendClaim (claimPort s) (claimWords s 0 c) s

/-- ELECTION_START (R274): unnumbered for 100 ms after the manifest was applied, or no COMMIT for 3 × CINT. -/
def execElectionStart (s : State) : Host.Outcome State Fault Refusal := .next (startElection s)

/-! The numbering wave (R275, R276, R354). -/

/-- GAP of this hub's configuration. -/
def ownGap (s : State) : Nat := getF s R.CN_CFG F.CN_CFG_GAPM1 + 1

/-- The hub takes an index: its position index, its position from the root, and NUMBERED (R261, R275). -/
def takeIndex (index pos : Nat) (s : State) : State :=
  let s := setF s R.RT_KEY F.RT_KEY_KEY (2 * (index % 4096) + bit1 (getB s R.RT_CFG F.RT_CFG_PAIR && getB s R.RT_CFG F.RT_CFG_SIDEB))
  let s := setB s R.RT_KEY F.RT_KEY_VALID true
  setCnState 2 (setF s R.CN_POS F.CN_POS_POS (pos % 65536))

/-- A CENSUS_REPLY leaves on a port toward the root (R276), with SRC 0xFFFF. -/
def sendReply (r : Reply) (s : State) : State :=
  let dst := getF s R.CN_ADDR F.CN_ADDR_ROOT
  let w0 : DWord := BitVec.ofNat 64 (r.index % 4096 + r.status % 16 * 2 ^ 12 + r.pos % 65536 * 2 ^ 16 +
    r.epoch % 65536 * 2 ^ 32 + getF s R.RT_CFG F.RT_CFG_PAIR * 2 ^ 48 + getF s R.RT_CFG F.RT_CFG_SIDEB * 2 ^ 49)
  let w1 : DWord := getReg s R.ID_SERIAL_HI ++ getReg s R.ID_SERIAL_LO
  let e := build s 3 kCensusReply false dst (getF s R.BR_HOPS F.BR_HOPS_HOPS) [w0, w1]
  sendOrWait 6 (some r.port) { e with src := 0xFFFF } s

/-- The hub answers with a reply, which it keeps for resending (R276). -/
def answerCensus (r : Reply) (s : State) : State := sendReply r (onCensus (fun c => { c with reply := some r }) s)

/-- NO_INDEX: the hub takes none, says so and stays quarantined (R275, R280, R284). -/
def noIndex (r : Reply) (s : State) : State := cnNotice 0x82 r.index (answerCensus { r with status := 1 } (setCnState 4 s))

/-- A NUMBER message's words, as the root with this position and index sends it. -/
def numberWords (s : State) (leg turns pos index root : Nat) (gap : Nat) (bind : Nat) : List DWord :=
  let w := (censusWord s 2 leg turns pos index true).toNat
  let w := w / 2 ^ 16 * 2 ^ 16 + w % 2 ^ 7 + bind * 2 ^ 7 + w / 2 ^ 8 % 16 * 2 ^ 8 + (gap - 1) % 16 * 2 ^ 12
  [BitVec.ofNat 64 w, BitVec.ofNat 64 (root % 4096 + 4096), 0]

/-- The distance of an index from the root's, modulo 4,096: o(x) of R275. -/
def fromRoot (root x : Nat) : Nat := (x + 4096 - root % 4096) % 4096

/-- The index that the wave gives a hub, if it is monotonic and on its own leg's side of the root (R275). `pos` is the new
position, i the neighbour's index. -/
def waveIndex (bind : Bool) (leg root gap i : Nat) (pos : Int) (bound : Option Nat) : Option Nat :=
  let step := pos.natAbs * gap
  let c : Nat :=
    if ¬bind then (if leg = 0 then (root + step) % 4096 else (root + 4096 - step % 4096) % 4096)
    else
      match bound with
      | some b =>
        if leg = 0 then (if fromRoot root i < fromRoot root b then b else (i + 1) % 4096)
        else (if fromRoot root b < fromRoot root i then b else (i + 4095) % 4096)
      | none => if leg = 0 then (i + 1) % 4096 else (i + 4095) % 4096
  let fits := bind || step < 4096
  let mono := if leg = 0 then fromRoot root i < fromRoot root c
    else fromRoot root c ≠ 0 && (fromRoot root i = 0 || fromRoot root c < fromRoot root i)
  if fits && mono then some c else none

/-- The wave leaves on a port, or is turned back where that port is not UP, at most twice (R275). -/
def passWave (arrived onward turns : Nat) (ws : List DWord) (s : State) : State :=
  if portUp s onward then sendCensus onward 2 ws s
  else if turns < 2 then (if portUp s arrived then sendCensus arrived 2 (setTurns (turns + 1) ws) s else s)
  else s

/-- The root begins the westward leg (R275). -/
def startWestLeg (s : State) : State :=
  let idx := position s / 2
  if portUp s (westPort s) then
    sendCensus (westPort s) 2 (numberWords s 1 1 0 idx idx (ownGap s) (getF s R.CN_CFG F.CN_CFG_BIND)) s
  else onCensus (fun c => { c with inWave := false }) s

/-- The root numbers itself and sends the wave eastward (R275). -/
def startWave (s : State) : State :=
  let idx := if getB s R.CN_CFG F.CN_CFG_BIND then getF s R.CN_BIND F.CN_BIND_INDEX else 0
  let s := takeIndex idx 0 s
  let s := setF s R.CN_ADDR F.CN_ADDR_ROOT (getF s R.CN_CFG F.CN_CFG_RING * 4096 + idx)
  let own := (getReg s R.ID_SERIAL_HI ++ getReg s R.ID_SERIAL_LO, getB s R.RT_CFG F.RT_CFG_PAIR)
  let s := onCensus (fun c => { c with inWave := true, holders := tabSet (fun _ => none) [] (position s) (some own) }) s
  if portUp s (eastPort s) then
    sendCensus (eastPort s) 2 (numberWords s 0 0 0 idx idx (ownGap s) (getF s R.CN_CFG F.CN_CFG_BIND)) s
  else startWestLeg s

/-- The hub becomes the root, with an epoch above every one it has seen; unnumbered, it runs a numbering wave (R274, R275). -/
def becomeRoot (s : State) : State :=
  let ep := (s.census.highestEpoch + 1) % 65536
  let s := setF (setB s R.CN_STAT F.CN_STAT_ROOT true) R.CN_POS F.CN_POS_EPOCH ep
  let s := onCensus (fun c => { c with highestEpoch := ep, best := none }) s
  let s := cnNotice 0x02 ep s
  if numbered s then setF s R.CN_ADDR F.CN_ADDR_ROOT (nodeAddr s) else startWave s

/-- A write of CN_CMD (R274, R275): CLAIM starts an election; RENUMBER is accepted by the root only. -/
def writeCnCmd (v : Word) (s : State) : State :=
  let s := plainWrite R.CN_CMD v s
  let s := if F.CN_CMD_CLAIM.get v = 1 then startElection s else s
  if F.CN_CMD_RENUMBER.get v = 1 then
    (if isRoot s then startWave (onCensus (fun c => { c with renumber := true, remap := true }) s) else setB s R.RT_STAT F.RT_STAT_CFGREF true)
  else s

/-- CN_CLAIM (R274): a write of CN_CMD with CLAIM 1. -/
def execCnClaim (m : Master) (v : Word) (s : State) : Host.Outcome State Fault Refusal :=
  .next (guardWrite m R.CN_CMD (fun s => (writeCnCmd (F.CN_CMD_CLAIM.put v 1) s, none)) s)

/-- A claim is no worse than the best seen in this election. -/
def mayPass (s : State) (c : Nat × Nat) : Bool :=
  match s.census.best with
  | some b => noWorse c b
  | none => true

/-- CLAIM (R274): forwarded as it came while it is the best seen, turned back at the end of a segment, dropped when worse; one's own claim
that comes back makes this hub the root. -/
def receiveClaim (p : Nat) (e : Envelope) (s : State) : State :=
  let s := showElecting (noteCensus e s)
  let c := (cField e 1 16 8, cField e 1 32 32)
  let onward := straight s p
  let turns := cTurns e
  if c = ownClaim s ∧ (p ≠ claimPort s ∨ 2 ≤ turns ∨ (¬portUp s onward ∧ 1 ≤ turns)) then becomeRoot s
  else if ¬mayPass s c then s
  else
    let s := onCensus (fun k => { k with best := some c }) s
    if portUp s onward then sendClaim onward e.payload s
    else if turns < 2 then sendClaim p (setTurns (turns + 1) e.payload) s else s

/-- A CENSUS message with another OP is discarded and counted (R273). -/
def censusGuard (op : Nat) (e : Envelope) (f : Envelope → State → State) (s : State) : Host.Outcome State Fault Refusal :=
  let e := asKind kCensus e
  if cOp e = op then .next (f e s) else .next (noteCensus e s)

/-- CLAIM (R273, R274). -/
def execClaim (p : Fin 3) (e : Envelope) (s : State) : Host.Outcome State Fault Refusal := censusGuard 1 e (receiveClaim p) s

/-- The position that the wave gives: one further from the root, or the sender's own over the TIE of a pair (R275, R354). -/
def wavePos (s : State) (p : Nat) (e : Envelope) : Int :=
  let q := signed 16 (cPos e)
  if getB s R.RT_CFG F.RT_CFG_PAIR ∧ p = 2 then q else if cLeg e = 0 then q + 1 else q - 1

/-- The index that the wave gives this hub. -/
def waveTake (s : State) (p : Nat) (e : Envelope) : Option Nat :=
  if getB s R.RT_CFG F.RT_CFG_PAIR ∧ p = 2 then some (cIndex e)
  else waveIndex (cField e 0 7 1 = 1) (cLeg e) (cRoot e) (cGap e) (cIndex e) (wavePos s p e) (binding s)

/-- A NUMBER message as this hub passes it on, with its own position and index (R275). -/
def renumbered (e : Envelope) (pos idx : Nat) : List DWord := setField 32 16 pos (setField 48 12 idx (setField 60 1 1 e.payload))

/-- NUMBER at a hub that is not the root: an unnumbered hub, or any hub in a RENUMBER wave, takes an index and replies; a numbered one passes
the wave on unchanged (R275, R276). -/
def receiveNumber (p : Nat) (e : Envelope) (renumber : Bool) (s : State) : State :=
  let s := setF (noteAcross p e s) R.CN_POS F.CN_POS_EPOCH (cEpoch e)
  let s := setF s R.CN_ADDR F.CN_ADDR_ROOT (cRing e * 4096 + cRoot e)
  let onward := straight s p
  if numbered s ∧ ¬(renumber ∧ ¬s.census.inWave) then passWave p onward (cTurns e) e.payload s
  else
    let s := onCensus (fun c => { c with inWave := true, renumber := renumber }) s
    let pos := wrap 16 (wavePos s p e)
    match waveTake s p e with
    | some idx =>
      let s := answerCensus { port := p, index := idx, status := 0, pos := pos, epoch := cEpoch e } (takeIndex idx pos s)
      passWave p onward (cTurns e) (renumbered e pos idx) s
    | none =>
      let s := noIndex { port := p, index := cIndex e, status := 1, pos := pos, epoch := cEpoch e } s
      passWave p onward (cTurns e) (renumbered e pos (cIndex e)) s

/-- NUMBER at the root: the turned eastward wave begins the westward leg; any other return ends the wave (R275). -/
def rootNumber (p : Nat) (e : Envelope) (s : State) : State :=
  if p = eastPort s ∧ cLeg e = 0 then startWestLeg s else onCensus (fun c => { c with inWave := false, renumber := false }) s

/-- NUMBER (R275). `renumber` says that RENUMBER started the wave. -/
def execNumber (p : Fin 3) (e : Envelope) (renumber : Bool) (s : State) : Host.Outcome State Fault Refusal :=
  censusGuard 2 e (fun e s =>
    let s := noteCensus e s
    if isRoot s then rootNumber p e (noteAcross p e s) else receiveNumber p e renumber s) s

/-- RENUMBER (R275): the root numbers the ring afresh; any other hub refuses the command with RT_STAT.CFGREF. -/
def execRenumber (m : Master) (v : Word) (s : State) : Host.Outcome State Fault Refusal :=
  .next (guardWrite m R.CN_CMD (fun s => (writeCnCmd (F.CN_CMD_RENUMBER.put v 1) s, none)) s)

/-! Admission (R277). -/

/-- The ID and PAIR that the root binds to a position index. -/
def holderOf (s : State) (k : Nat) : Option (DWord × Bool) := tabGet (fun _ => none) s.census.holders k

/-- The root may give an ID a place at an index: the index is free, held by the same ID, or by the other side of the pair (R277,
R354). -/
def mayAdmit (s : State) (idx : Nat) (pair : Bool) (side : Nat) (id : DWord) : Bool :=
  let mine := 2 * idx + (if pair then side else 0)
  let other := if mine % 2 = 0 then mine + 1 else mine - 1
  (match holderOf s mine with
   | none => true
   | some (h, _) => h = id) &&
  (match holderOf s other with
   | none => true
   | some (h, q) => h = id || (pair && q))

/-- CENSUS_REPLY (R276, R277): the root admits a reply with STATUS OK or RETURN, or refuses it. -/
def receiveReply (e : Envelope) (s : State) : State :=
  let s := takeDelivered e s
  if ¬isRoot s then s
  else
    let idx := cField e 0 0 12
    let status := cField e 0 12 4
    let pair := cField e 0 48 1 = 1
    let side := cField e 0 49 1
    let id := payloadWord e 1
    if status ≠ 0 ∧ status ≠ 2 then s
    else if mayAdmit s idx pair side id then
      let k := 2 * idx + (if pair then side else 0)
      onCensus (fun c => { c with holders := tabSet (fun _ => none) c.holders k (some (id, pair)) }) s
    else cnNotice 0x82 idx s

/-- CENSUS_REPLY (R277). -/
def execCensusReply (p : Fin 3) (e : Envelope) (s : State) : Host.Outcome State Fault Refusal :=
  .next (if p.val < 3 then receiveReply (asKind kCensusReply e) s else s)

/-- REPLY_RESEND (R276): a hub that no COMMIT has admitted in 3 × CINT resends its reply. -/
def execReplyResend (s : State) : Host.Outcome State Fault Refusal :=
  if admitted s then .next s
  else
    match s.census.reply with
    | some r => .next (sendReply r s)
    | none => .next s

/-- An index is admitted: it is bound at the root, or was present when this root took over, unless
a RENUMBER's indexes are to be announced (R277). -/
def inMap (s : State) (i : Nat) : Bool :=
  (holderOf s (2 * i)).isSome || (holderOf s (2 * i + 1)).isSome || (isPresent s i && !s.census.remap)

/-- A word of the admission map of a root: bit b of word w of part k is index 1,856 k + 64 w + b (R273). -/
def mapWord (s : State) (k w : Nat) : DWord :=
  BitVec.ofNat 64 (((List.range 64).map (fun b => if inMap s (1856 * k + 64 * w + b) then 2 ^ b else 0)).sum)

/-- The words of the map in part k of a COMMIT: 29 in parts 0 and 1, and 6 in part 2 (R273). -/
def partWords (k : Nat) : Nat := if k = 2 then 6 else 29

/-- The payload of part k of a COMMIT (R273). -/
def commitWords (s : State) (k : Nat) : List DWord :=
  [censusWord s 3 0 0 0 (position s / 2) true, BitVec.ofNat 64 (rootBits s), BitVec.ofNat 64 k] ++
    (List.range (partWords k)).map (fun w => mapWord s k w)

/-- The words of the map received in a part of an epoch. -/
def partOf (s : State) (ep k : Nat) : Option (List DWord) :=
  (s.census.parts.find? (fun q => q.epoch = ep && q.part = k)).map (fun q => q.words)

/-- Bit i of an admission map given as its three parts. -/
def mapBit (parts : Nat → List DWord) (i : Nat) : Bool :=
  let k := i / 1856
  bitOf (((parts k)[(i - 1856 * k) / 64]?).getD 0).toNat ((i - 1856 * k) % 64)

/-- Word j of RT_PRES from an admission map. -/
def presWord (parts : Nat → List DWord) (j : Nat) : Word :=
  BitVec.ofNat 32 (((List.range 32).map (fun b => if mapBit parts (32 * j + b) then 2 ^ b else 0)).sum)

/-- A hub whose own bit is set is admitted: its address, its binding, which goes to flash too, and the end of its quarantine
(R277). -/
def enterRing (ring : Nat) (s : State) : State :=
  let idx := position s / 2
  let new := ¬admitted s
  let s := setF s R.CN_ADDR F.CN_ADDR_ADDR (ring * 4096 + idx)
  let s := setCnState 3 (setB s R.NODE_STAT F.NODE_STAT_QUARANTINE false)
  let s := setF (setF s R.CN_BIND F.CN_BIND_INDEX idx) R.CN_BIND F.CN_BIND_RING ring
  let s := setB s R.CN_BIND F.CN_BIND_VALID true
  let s := onCensus (fun c => { c with inWave := false }) s
  let s := if new ∨ (((tabGet (fun _ => none) s.upd.persist 0).map (fun r => r.words)) ≠ some [getReg s R.CN_BIND]) then
      submitRecord 0 (recordNow s 0) s
    else s
  if new then cnNotice 0x01 idx s else s

/-- The neighbour on a port that is UP is admitted by a map that holds its index: it is the hub last admitted across that link (R279). -/
def noteLast (parts : Nat → List DWord) (p : Nat) (s : State) : State :=
  match tabGet (fun _ => none) s.census.across p with
  | some i =>
    if portUp s p ∧ mapBit parts i then
      onCensus (fun c => { c with last := tabSet (fun _ => none) c.last p (some (i, (getReg s (R.PT_NID p)).toNat)) }) s
    else s
  | none => s

/-- A complete map takes effect: RT_PRES, the neighbours it admits, and this hub's own admission (R277, R279). -/
def applyMap (ring : Nat) (parts : Nat → List DWord) (s : State) : State :=
  let s := (List.range 128).foldl (fun s j => setReg s (R.RT_PRES j) (presWord parts j)) s
  let s := [0, 1, 2].foldl (fun s p => noteLast parts p s) s
  if numbered s ∧ mapBit parts (position s / 2) then enterRing ring s else onCensus (fun c => { c with inWave := false }) s

/-- COMMIT_SEND (R277): the root sends the three parts to group 0xFFF, and takes the map for itself. -/
def execCommitSend (s : State) : Host.Outcome State Fault Refusal :=
  if ¬isRoot s then .next s
  else
    let ring := getF s R.CN_CFG F.CN_CFG_RING
    let maps := fun k => (List.range (partWords k)).map (fun w => mapWord s k w)
    let send := fun (s : State) k =>
      let e := build s 3 kCensus true (ring * 4096 + 0xFFF) (getF s R.BR_HOPS F.BR_HOPS_HOPS) (commitWords s k)
      sendOrWait 6 none e (bump (ctr 0x000E 11 0) s)
    let s := [0, 1, 2].foldl send s
    .next (onCensus (fun c => { c with remap := false }) (applyMap ring maps s))

/-- COMMIT (R277): the part is kept; all three parts of one epoch take effect together. -/
def receiveCommit (e : Envelope) (s : State) : State :=
  let s := noteCensus e s
  let ep := cEpoch e
  let k := cField e 2 0 2
  let s := if isRoot s ∧ getF s R.CN_POS F.CN_POS_EPOCH < ep then setB s R.CN_STAT F.CN_STAT_ROOT false else s
  let mp : MapPart := { epoch := ep, part := k, words := e.payload.drop 3 }
  let keep := s.census.parts.filter (fun q => q.epoch = ep && q.part ≠ k)
  let s := onCensus (fun c => { c with parts := keep ++ [mp], best := none }) s
  match partOf s ep 0, partOf s ep 1, partOf s ep 2 with
  | some a, some b, some c =>
    let s := onCensus (fun c => { c with parts := [] }) s
    let s := setF s R.CN_POS F.CN_POS_EPOCH ep
    let s := setF s R.CN_ADDR F.CN_ADDR_ROOT (cRing e * 4096 + cRoot e)
    applyMap (cRing e) (fun j => if j = 0 then a else if j = 1 then b else c) s
  | _, _, _ => s

/-- COMMIT (R273, R277). -/
def execCommit (p : Fin 3) (e : Envelope) (s : State) : Host.Outcome State Fault Refusal :=
  censusGuard 3 e (fun e s => if p.val < 3 then receiveCommit e s else s) s

/-! Neighbours and joining (R279, R280, R283). -/

/-- NEIGHBOUR (R279): the sender's index is kept, with the hub last admitted across the link; over TIE it names the ring there (R281). -/
def receiveNeighbour (p : Nat) (e : Envelope) (s : State) : State :=
  let s := noteAcross p e (noteCensus e s)
  let n := R.RT_NBR p
  let s := setB (setF s n F.RT_NBR_INDEX (cIndex e)) n F.RT_NBR_VALID (cField e 0 60 1 = 1)
  let last := if cField e 2 12 1 = 1 then some (cField e 2 0 12, cField e 1 32 32) else none
  let h : Heard := { index := cIndex e, last := last, ring := cRing e, epoch := cEpoch e }
  let s := onCensus (fun c => { c with
    heard := tabSet (fun _ => none) c.heard p (some h),
    last := tabSet (fun _ => none) c.last p (some (cIndex e, (getReg s (R.PT_NID p)).toNat)) }) s
  let s := if numbered s then s else
    setF s R.CN_ADDR F.CN_ADDR_ROOT (if cField e 1 12 1 = 1 then cRing e * 4096 + cRoot e else 0xFFFF)
  if p = 2 ∧ portUp s p then judgePeer (setPeer (some (cRing e)) s) else s

/-- NEIGHBOUR (R273, R279). -/
def execNeighbour (p : Fin 3) (e : Envelope) (s : State) : Host.Outcome State Fault Refusal :=
  censusGuard 4 e (receiveNeighbour p) s

/-- What the neighbour on a port said. -/
def heardOn (s : State) (p : Nat) : Option Heard := tabGet (fun _ => none) s.census.heard p

/-- An index lies strictly between w and L (R280). -/
def between (w l x : Nat) : Bool := 1 ≤ (x + 4096 - w) % 4096 && (x + 4096 - w) % 4096 < (l + 4096 - w) % 4096

/-- LASTIDX of a neighbour whose LASTNID is this hub's own (R280). -/
def returnIndex (s : State) (h : Option Heard) : Option Nat :=
  match h with
  | some x =>
    match x.last with
    | some (i, n) => if n = ownNid s then some i else none
    | none => none
  | none => none

/-- The limit L of R280: the east neighbour's index, or the west neighbour's LASTIDX. -/
def joinLimit (e w : Option Heard) : Option Nat :=
  match e with
  | some x => some x.index
  | none => (w.bind (fun x => x.last)).map (fun l => l.1)

/-- The index that rules 2 and 3 of R280 give. -/
def joinBetween (s : State) (w l : Nat) : Option Nat :=
  let ok := fun x => between w l x && !isPresent s x
  match binding s with
  | some b => if ok b then some b else ([(w + ownGap s) % 4096, (w + 1) % 4096].find? ok)
  | none => [(w + ownGap s) % 4096, (w + 1) % 4096].find? ok

/-- The EPOCH of what the neighbour on a port said. -/
def heardEpoch (h : Option Heard) : Nat := (h.map (fun x => x.epoch)).getD 0

/-- The index and STATUS of a joining hub, with the port it answers on and the epoch it answers (R276, R280). -/
def joinChoice (s : State) : Reply :=
  let e := heardOn s (eastPort s)
  let w := heardOn s (westPort s)
  let west : Reply := { port := westPort s, index := 0, status := 1, pos := 0x8000, epoch := heardEpoch w }
  let east : Reply := { port := eastPort s, index := 0, status := 1, pos := 0x8000, epoch := heardEpoch e }
  let nowhere := if w.isSome then west else east
  match returnIndex s w, returnIndex s e with
  | some i, _ => { west with index := i, status := 2 }
  | none, some i => { east with index := i, status := 2 }
  | none, none =>
    match w, joinLimit e w with
    | some x, some l =>
      match joinBetween s x.index l with
      | some i => { west with index := i, status := 0 }
      | none => nowhere
    | _, _ => nowhere

/-- JOIN (R280): a quarantined, unnumbered hub that is in no numbering wave and holds a NEIGHBOUR takes an index and replies. -/
def execJoin (s : State) : Host.Outcome State Fault Refusal :=
  if ¬quarantined s ∨ numbered s ∨ s.census.inWave ∨
      ((heardOn s (eastPort s)).isNone ∧ (heardOn s (westPort s)).isNone) then .next s
  else
    let r := joinChoice s
    if r.status = 1 then .next (noIndex r s)
    else .next (answerCensus r (takeIndex r.index r.pos s))

/-! LINK_EVENT (R269, R270). -/

/-- LINK_EVENT (R270): the routing stage applies a received LINK_EVENT before it routes the next envelope, and the firmware
takes its copy from P6. -/
def execLinkEvent (p : Fin 3) (e : Envelope) (s : State) : Host.Outcome State Fault Refusal :=
  let e := asKind kLinkEvent e
  let s := if 3 ≤ p.val then s else takeDelivered e s
  if e ∈ s.census.toApply then
    .next (applyLink e (onCensus (fun c => { c with toApply := c.toApply.erase e }) s))
  else .next s

/-! Registers of chapter 11 with a rule of their own. -/

/-- A write of JN_CTL: EN cannot be set while RT_CFG.PAIR is 1, and the peer is judged by what is written (R281 to R283). -/
def writeJnCtl (v : Word) (s : State) : State :=
  if F.JN_CTL_EN.get v = 1 ∧ getB s R.RT_CFG F.RT_CFG_PAIR then setB (declineWrite R.JN_CTL v s) R.JN_STAT F.JN_STAT_CFGREF true
  else judgePeer (plainWrite R.JN_CTL v s)

/-- A write of RT_GRPj: bit 31 of word 127, group 0xFFF, stays 1 (R260). -/
def writeRtGrp (j : Nat) (v : Word) (s : State) : State :=
  plainWrite (R.RT_GRP j) (if j = 127 then v ||| 0x80000000 else v) s

end Sys2Proof.Machine
end

