-- ==== Sys2Proof/Machine/DeadLetters.lean ====
section
/-! DEFINITION. The dead-letter office (chapter 08): the dead-letter log, the freeing of both logs, and their losses. -/

namespace Sys2Proof.Machine

/-- HEAD of the dead-letter log. -/
def dlHead (s : State) : Nat := getF s R.DL_HEAD F.DL_HEAD_HEAD
/-- TAIL of the dead-letter log. -/
def dlTail (s : State) : Nat := getF s R.DL_TAIL F.DL_TAIL_TAIL
/-- Dead-letter entries held: (HEAD - TAIL) mod 128. -/
def dlLevel (s : State) : Nat := (dlHead s + 128 - dlTail s) % 128
/-- How R170 judged a logged answer. -/
structure Verdict where
  late : Bool
  stale : Bool
  ambiguous : Bool
deriving DecidableEq, Repr

/-- The DATA of an answer's record is poisoned (R195). -/
def dlPoison (e : Envelope) : Bool :=
  if e.kind = kNdn then (poisonBits e).getLsbD 1 else if e.kind = kReadData then (poisonBits e).getLsbD 0 else false

/-- The eight words of a dead-letter entry (R195). -/
def dlWords (s : State) (v : Verdict) (lost : Bool) (e : Envelope) : List Word :=
  let n := e.kind = kNdn
  let w0 := (payloadWord e 0).toNat
  let data : DWord := if n then payloadWord e 1 else if e.kind = kReadData then payloadWord e 0 else 0
  let reason := if n then bitsOf w0 0 8 else 0
  let q0 := e.tag.toNat + bit1 v.late * 2 ^ 12 + bit1 v.stale * 2 ^ 14 + bit1 v.ambiguous * 2 ^ 15 + bit1 (dlPoison e) * 2 ^ 16 +
    bit1 lost * 2 ^ 17 + reason * 2 ^ 24
  let q1 := (if n then bitsOf w0 8 16 else 0) + e.kind.toNat * 2 ^ 16 + (if n then bitsOf w0 24 5 * 2 ^ 21 else 0) +
    (if n then bitsOf w0 29 2 else e.cls.toNat) * 2 ^ 26
  let stamp := if n then bitsOf w0 32 32 else e.stamp.toNat
  [BitVec.ofNat 32 q0, BitVec.ofNat 32 q1, BitVec.ofNat 32 (e.src.toNat + s.dead.seq * 2 ^ 16), e.addr.truncate 32,
    BitVec.ofNat 32 stamp, BitVec.ofNat 32 (nowNs s), lo32 data, hi32 data]

/-- Words are put into consecutive registers. -/
def setWords (a : Nat) : List Word → State → State
  | [], s => s
  | w :: ws, s => setWords (a + 4) ws (setReg s a w)

/-- A record is written at HEAD, or lost to a full log (R194 to R197). -/
def logRecord (v : Verdict) (e : Envelope) (s : State) : State :=
  let reason := if e.kind = kNdn then bitsOf (payloadWord e 0).toNat 0 8 else 0
  let next := (s.dead.seq + 1) % 65536
  if dlLevel s = 64 then
    let s := bump (ctr 0x000B 2 0) (setB s R.DL_STAT F.DL_STAT_OVF true)
    dlNotice 0x84 0x40 (onDead (fun d => { d with seq := next, lostNext := true }) s)
  else
    let h := dlHead s
    let s := setWords (R.DL_ENT (h % 64) 0) (dlWords s v s.dead.lostNext e) s
    let s := if dlPoison e then consumePoison 9 s else s
    let s := setF s R.DL_HEAD F.DL_HEAD_HEAD ((h + 1) % 128)
    let s := bump (ctr 0x000B 1 (bit1 v.late)) (onDead (fun d => { d with seq := next, lostNext := false, total := d.total + 1 }) s)
    dlNotice (if v.late then 0x82 else 0x81) (reason * 256 + h % 64) s

/-- A write of DL_TAIL frees entries; one that would move TAIL beyond HEAD is refused (R196). -/
def writeDlTail (v : Word) (s : State) : State :=
  if dlLevel s < (F.DL_TAIL_TAIL.get v + 128 - dlTail s) % 128 then
    setB (declineWrite R.DL_TAIL v s) R.DL_STAT F.DL_STAT_CFGREF true
  else plainWrite R.DL_TAIL v s

/-- DL_TAIL_WRITE (R196). -/
def execDlTailWrite (m : Master) (v : Word) (s : State) : Host.Outcome State Fault Refusal :=
  .next (guardWrite m R.DL_TAIL (fun s => (writeDlTail v s, none)) s)

/-- A write of UP_TAIL (R196, R200). -/
def writeUpTail (v : Word) (s : State) : State :=
  if upLevel s < (F.UP_TAIL_TAIL.get v + 32 - getF s R.UP_TAIL F.UP_TAIL_TAIL) % 32 then
    setB (declineWrite R.UP_TAIL v s) R.DL_STAT F.DL_STAT_CFGREF true
  else plainWrite R.UP_TAIL v s

/-- UP_TAIL_WRITE (R200). -/
def execUpTailWrite (m : Master) (v : Word) (s : State) : Host.Outcome State Fault Refusal :=
  .next (guardWrite m R.UP_TAIL (fun s => (writeUpTail v s, none)) s)

/-- A write of DL_FADDR that is not 32-byte aligned is refused. -/
def writeDlFaddr (v : Word) (s : State) : State :=
  if v.toNat % 32 ≠ 0 then setB (declineWrite R.DL_FADDR v s) R.DL_STAT F.DL_STAT_CFGREF true else plainWrite R.DL_FADDR v s

/-- PREFETCH_HOLD_EXPIRY (R186): BR_CTL.PF_HOLD passes without the buffer being claimed. -/
def execPrefetchHoldExpiry (k : Fin 4) (s : State) : Host.Outcome State Fault Refusal := .next (dropBuf 0 k s)

/-- Bytes are stored in a memory, clean, as a master's write: read-ahead that overlaps them is discarded (R186, R396). -/
def storeBytes (a : Nat) (bs : List Byte) (s : State) : State := setBytes (dropOverlap a bs.length s) a bs

end Sys2Proof.Machine
end

