-- ==== Sys2Proof/Machine/Bridge.lean ====
section
/-! DEFINITION. The outbound half of the post office bridge (chapter 07): channels, tags and generations, the answers that come
back, NOTICE envelopes (chapter 06), and dead-letter forwards. -/

namespace Sys2Proof.Machine

/-! Requests and their limits (R162, R164). -/

/-- BYTES and ADDR keep R162's form: 1, 2 or 4 bytes at a multiple of their number, or a multiple of 8 bytes at a multiple of
8. -/
def bytesAligned (bytes addr : Nat) : Bool :=
  if bytes = 1 ∨ bytes = 2 ∨ bytes = 4 then addr % bytes = 0 else addr % 8 = 0

/-- BYTES is in its range and of an allowed number for a kind (R162). -/
def bytesAllowed (k : BitVec 5) (bytes : Nat) : Bool :=
  (bytes = 1 || bytes = 2 || bytes = 4 || (bytes % 8 = 0 && 0 < bytes)) &&
  bytes ≤ (if k = kRead ∨ k = kLockRead then 256 else 248)

/-- The kinds that a channel issues. -/
def channelKind (k : BitVec 5) : Bool := k = kWriteP || k = kWriteA || k = kRead || k = kLockRead || k = kUnlockWrite

/-- The kinds that carry data from payload word 1 on. -/
def carriesData (k : BitVec 5) : Bool := k = kWriteP || k = kWriteA || k = kUnlockWrite

/-! Channels and slots. -/

/-- Channel c. -/
def getChan (s : State) (c : Nat) : Channel := tabGet (fun _ => Channel.reset) s.bridge.chan c

/-- The state after channel c is changed. -/
def onChan (c : Nat) (f : Channel → Channel) (s : State) : State :=
  onBridge (fun t => { t with chan := tabSet (fun _ => Channel.reset) t.chan c (f (tabGet (fun _ => Channel.reset) t.chan c)) }) s

/-- The owner of channel c. -/
def ownerOf (s : State) (c : Nat) : Nat := getF s (R.BR_OC_OWN c) F.BR_OC_OWN_MASTER

/-- Channel c's STATE. -/
def chanState (s : State) (c : Nat) : Nat := getF s (R.BR_OC_STAT c) F.BR_OC_STAT_STATE

/-- Non-posted slot i, 0 to 511. -/
def getSlot (s : State) (i : Nat) : NpSlot := tabGet (fun _ => NpSlot.reset) s.bridge.np i

/-- The state after a non-posted slot is replaced. -/
def setSlot (i : Nat) (x : NpSlot) (s : State) : State :=
  onBridge (fun t => { t with np := tabSet (fun _ => NpSlot.reset) t.np i x }) s

/-- The lowest free slot of a master (R168). -/
def freeSlot (s : State) (mi : Nat) : Option Nat :=
  ((List.range 32).map (fun k => mi * 32 + k)).find? (fun i => (getSlot s i).use = .free)

/-- The tag of an index and a generation (R166). -/
def tagOf (index gen : Nat) : BitVec 12 := BitVec.ofNat 12 (index * 4 + gen % 4)

/-- The next posted slot of a master, taken in turn, with its generation raised (R169). -/
def takePosted (mi : Nat) (s : State) : Nat × Nat × State :=
  let slot := tabGet (fun _ => 0) s.bridge.postedNext mi
  let i := mi * 32 + slot
  let g := (tabGet (fun _ => 0) s.bridge.postedGen i + 1) % 4
  (512 + i, g, onBridge (fun t => { t with
    postedNext := tabSet (fun _ => 0) t.postedNext mi ((slot + 1) % 32),
    postedGen := tabSet (fun _ => 0) t.postedGen i g }) s)

/-- The STAMP of the last WRITE_P issued with a posted index and generation is kept (R169). -/
def keepStamp (index gen : Nat) (w : BitVec 32) (s : State) : State :=
  onBridge (fun t => { t with postedStamp := tabSet (fun _ => none) t.postedStamp (index * 4 + gen) (some w) }) s

/-- The queues to which a master's units post (R159): census and update for the management core, and each other master's own
block. -/
def noticeQueues (s : State) (mi : Nat) : List Nat :=
  if mi = 0 then [getF s R.RT_CFG F.RT_CFG_NTC_Q, getF s R.UPD_CTL F.UPD_CTL_NTC_Q]
  else if mi = 1 then [getF s R.MON_CTL F.MON_CTL_NTC_Q]
  else if mi = 2 then [getF s R.WM_CTL F.WM_CTL_NTC_Q]
  else if mi = 4 then [getF s R.GW_CTL F.GW_CTL_NTC_Q]
  else if mi = 5 then [getF s R.DL_CTL F.DL_CTL_NTC_Q]
  else []

/-- The master whose writes a notice's source unit issues (R23, R159). -/
def sourceMaster (cap : Nat) : Option Nat :=
  if cap = 0x000E ∨ cap = 0x0018 then some 0 else if cap = 0x0019 then some 1 else if cap = 0x0012 then some 2
  else if cap = 0x000B then some 5 else if cap = 0x0004 then some 4 else none

/-- A master's notices go to a destination in another class than this one (R159, R178). -/
def noticesElsewhere (s : State) (mi dst : Nat) (mc : Bool) (cls : Nat) : Bool :=
  (noticeQueues s mi).any (fun q =>
    getB s (R.PH_CFG q) F.PH_CFG_SUB && getB s (R.PH_DST q) F.PH_DST_VALID && getF s (R.PH_DST q) F.PH_DST_DST = dst &&
    (getB s (R.PH_DST q) F.PH_DST_MC = mc) && classOrUrgent (getF s (R.PH_DST q) F.PH_DST_CLASS) ≠ cls)

/-- The data of a channel: 64-bit words from BR_OCc_DATA. -/
def chanWord (s : State) (c w : Nat) : DWord := getReg s (R.BR_OC_DATA c (2 * w + 1)) ++ getReg s (R.BR_OC_DATA c (2 * w))

/-- The data words that carry n bytes of a channel's data. -/
def dataWords (n : Nat) (f : Nat → DWord) : List DWord :=
  (List.range (ceilDiv n 8)).map (fun w => lowBytes (n - 8 * w) (f w))

/-- The poison of the data words that carry n bytes of a channel's data, by 8-byte word (R201). -/
def chanPoison (s : State) (c n : Nat) : BitVec 32 :=
  BitVec.ofNat 32 (((List.range (ceilDiv n 8)).map (fun w =>
    if (getChan s c).poison.getLsbD (2 * w) || ((getChan s c).poison.getLsbD (2 * w + 1) && 8 * w + 4 < n) then 2 ^ w else 0)).sum)

/-- The request that a channel's registers describe (R161, R162, R188), without its tag. -/
def requestOf (s : State) (c : Nat) : Envelope :=
  let cmd := R.BR_OC_CMD c
  let kind : BitVec 5 := BitVec.ofNat 5 (getF s cmd F.BR_OC_CMD_KIND)
  let bytes := getF s cmd F.BR_OC_CMD_BYTES
  let access : DWord := BitVec.ofNat 64 bytes
  let payload := access :: (if carriesData kind then dataWords bytes (chanWord s c) else [])
  let e := build s (classOrUrgent (getF s cmd F.BR_OC_CMD_CLASS)) kind (getB s (R.BR_OC_DST c) F.BR_OC_DST_MC)
    (getF s (R.BR_OC_DST c) F.BR_OC_DST_DST) (getF s R.BR_HOPS F.BR_HOPS_HOPS) payload
  let p := if carriesData kind then chanPoison s c bytes <<< 1 else 0
  { e with lock := getB s cmd F.BR_OC_CMD_LOCK, prefetch := getB s cmd F.BR_OC_CMD_PREFETCH,
           addr := (getReg s (R.BR_OC_ADDR c)).zeroExtend 48, poison := p, poisonAny := p ≠ 0 }

/-- A GO is refused with CFGREF: the channel is BUSY, or its settings break R162 or R164 (R188). -/
def goRefused (s : State) (c : Nat) (v : Word) : Bool :=
  let kind : BitVec 5 := BitVec.ofNat 5 (F.BR_OC_CMD_KIND.get v)
  let bytes := F.BR_OC_CMD_BYTES.get v
  chanState s c = 1 || !channelKind kind || !bytesAllowed kind bytes ||
  !bytesAligned bytes (getReg s (R.BR_OC_ADDR c)).toNat ||
  (F.BR_OC_CMD_LOCK.get v = 1 && kind = kWriteP) || (getB s (R.BR_OC_DST c) F.BR_OC_DST_MC && kind ≠ kWriteP)

/-- No NOTICE envelope waits any longer for the write in a channel (R159). -/
def dropFences (c : Nat) (s : State) : State :=
  onBridge (fun b => { b with fenceChans := b.fenceChans.filter (fun f => f.2 ≠ c), fenceWait := b.fenceWait.filter (fun f => f.2 ≠ c) }) s

/-- The NOTICE envelopes that wait for the write in a channel wait for the answer of its slot (R159). -/
def moveFences (c i g : Nat) (s : State) : State :=
  onBridge (fun b => { b with
    fenceSlots := b.fenceSlots ++ (b.fenceWait.filter (fun f => f.2 = c)).map (fun f => (f.1, i, g)),
    fenceWait := b.fenceWait.filter (fun f => f.2 ≠ c) }) s

/-- A channel ends in DONE or ERROR, with a notice when NTC was set at GO. The spec gives this notice no CODE and no ARG (log
entry 12). -/
def endChannel (c st reason cause pieces : Nat) (s : State) : State :=
  let r := R.BR_OC_STAT c
  let s := setF (setF s r F.BR_OC_STAT_STATE st) r F.BR_OC_STAT_REASON reason
  let s := setF (setF s r F.BR_OC_STAT_CAUSE cause) r F.BR_OC_STAT_PIECES pieces
  let ntc := (getChan s c).ntc
  let s := onChan c (fun t => { t with waiting := none, slot := none, needSlot := false }) s
  let s := dropFences c s
  if ntc then postOpen (getF s R.BR_CTL F.BR_CTL_NTC_Q) 0x000A 0 s else s

/-- A waiting non-posted request takes the lowest free slot of its master, whose generation rises (R168). -/
def allocate (c : Nat) (s : State) : State :=
  let t := getChan s c
  match t.waiting with
  | none => s
  | some e =>
    if ¬t.needSlot then s
    else
      match freeSlot s (ownerOf s c) with
      | none => s
      | some i =>
        let g := ((getSlot s i).gen + 1) % 4
        let s := setSlot i { gen := g, use := .out (if t.converted then none else some c) e.dst e.cls e.kind } s
        let s := setF s (R.BR_OC_TAG c) F.BR_OC_TAG_TAG (tagOf i g).toNat
        moveFences c i g (onChan c (fun t => { t with waiting := some { e with tag := tagOf i g }, needSlot := false, slot := some i }) s)

/-- A request is placed in its channel: BUSY, with its tag, or waiting for a slot (R168, R169, R178, R188). A request that R266
gives no direction ends at once with NO_ROUTE. -/
def issue (c : Nat) (ntc : Bool) (s : State) : State :=
  let mi := ownerOf s c
  let e := requestOf s c
  let r := R.BR_OC_STAT c
  let s := setF (setReg s r 0) r F.BR_OC_STAT_STATE 1
  let s := onChan c (fun t => { t with waiting := some e, slot := none, ntc := ntc, needSlot := false, converted := false }) s
  if ¬e.mc ∧ originTargets s e = [] then
    endChannel c 3 Reason.noRoute.code 0 0 (bump (ctr 0x000E 1 0) (setB s R.RT_STAT F.RT_STAT_NOROUTE true))
  else if e.kind = kWriteP ∧ (e.mc ∨ ¬noticesElsewhere s mi e.dst.toNat e.mc e.cls.toNat) then
    let (i, g, s) := takePosted mi s
    let s := setF s (R.BR_OC_TAG c) F.BR_OC_TAG_TAG (tagOf i g).toNat
    onChan c (fun t => { t with waiting := some { e with tag := tagOf i g } }) s
  else
    let conv := e.kind = kWriteP
    let s := if conv then bump (ctr 0x000A 8 0) s else s
    let e := if conv then { e with kind := kWriteA } else e
    let s := onChan c (fun t => { t with waiting := some e, needSlot := true, converted := conv }) s
    if (freeSlot s mi).isNone then bump (ctr 0x000A 11 0) s else allocate c s

/-- A write of BR_OCc_CMD (R188). -/
def writeOcCmd (c : Nat) (v : Word) (s : State) : State :=
  if F.BR_OC_CMD_GO.get v = 1 then
    if goRefused s c v then setB (declineWrite (R.BR_OC_CMD c) v s) R.BR_STAT F.BR_STAT_CFGREF true
    else issue c (F.BR_OC_CMD_NTC.get v = 1) (plainWrite (R.BR_OC_CMD c) v s)
  else plainWrite (R.BR_OC_CMD c) v s

/-- A write of BR_OCc_DATA: refused with CFGREF while BUSY (R188). The written word is clean. -/
def writeOcData (c j : Nat) (v : Word) (s : State) : State :=
  if chanState s c = 1 then setB (declineWrite (R.BR_OC_DATA c j) v s) R.BR_STAT F.BR_STAT_CFGREF true
  else
    let s := onChan c (fun t => { t with poison := t.poison &&& ~~~(BitVec.ofNat 64 (2 ^ j)) }) s
    plainWrite (R.BR_OC_DATA c j) v s

/-- A read of BR_OCc_DATA: refused with POISONED where the word is poisoned (R188). -/
def ocDataPoisoned (s : State) (c j : Nat) : Bool := (getChan s c).poison.getLsbD j

/-- CHANNEL_GO (R188): a write of BR_OCc_CMD with GO 1. -/
def execChannelGo (m : Master) (c : Fin 4) (v : Word) (s : State) : Host.Outcome State Fault Refusal :=
  .next (guardWrite m (R.BR_OC_CMD c) (fun s => (writeOcCmd c (F.BR_OC_CMD_GO.put v 1) s, none)) s)

/-- The sorting office takes a channel's waiting envelope, dispatched now (R178, R188); a logic test of the bridge holds it (R403). -/
def acceptChannel (c : Nat) (s : State) : State :=
  if underTest s 0x70 then s else
  let s := allocate c s
  let t := getChan s c
  match t.waiting with
  | none => s
  | some e =>
    if t.needSlot then s
    else
      let e := withCrcs { e with stamp := BitVec.ofNat 32 (nowNs s) }
      match originate 3 e s with
      | (s, .noRoom) => s
      | (s, .noRoute) =>
        let s := match t.slot with
          | some i => setSlot i { getSlot s i with use := .quarantine } s
          | none => s
        endChannel c 3 Reason.noRoute.code 0 0 s
      | (s, .accepted) =>
        let s := dropFences c s
        let s := onChan c (fun t => { t with waiting := none }) s
        let s := if e.kind = kWriteP then keepStamp (e.tag.toNat / 4) (e.tag.toNat % 4) e.stamp s else s
        if e.kind = kWriteP ∨ t.converted then
          onChan c (fun t => { t with slot := none }) (setF s (R.BR_OC_STAT c) F.BR_OC_STAT_STATE 0)
        else s

/-- CHANNEL_ACCEPTED (R178, R188). -/
def execChannelAccepted (c : Fin 4) (s : State) : Host.Outcome State Fault Refusal := .next (acceptChannel c s)

/-! Answers (R170, R171, R193). -/

/-- A slot's request completes or times out, and the slot enters quarantine (R168). -/
def quarantineSlot (i : Nat) (s : State) : State := setSlot i { getSlot s i with use := .quarantine } s

/-- The data of a READ_DATA lands in its channel, with POISON when a word is poisoned (R188). -/
def landData (c : Nat) (e : Envelope) (s : State) : State :=
  let s := setWords (R.BR_OC_DATA c 0) (e.payload.flatMap (fun w => [lo32 w, hi32 w])) s
  let p := poisonBits e
  let s := if p ≠ 0 then consumePoison 7 s else s
  let q : BitVec 64 := BitVec.ofNat 64 (((List.range e.lenw.toNat).map (fun w => if p.getLsbD w then 3 * 4 ^ w else 0)).sum)
  let clean : BitVec 64 := BitVec.ofNat 64 (2 ^ 64 - 4 ^ e.lenw.toNat)
  setB (onChan c (fun t => { t with poison := (t.poison &&& clean) ||| q }) s) (R.BR_OC_STAT c) F.BR_OC_STAT_POISON (p ≠ 0)

/-- An answer completes the request of a channel (R188). -/
def completeChannel (c : Nat) (e : Envelope) (s : State) : State :=
  if e.kind = kNdn then
    let w := (payloadWord e 0).toNat
    endChannel c 3 (bitsOf w 0 8) (bitsOf w 8 8) (bitsOf w 16 8) s
  else endChannel c 2 0 0 0 (if e.kind = kReadData then landData c e s else s)

/-- An answer that completes no channel's request is logged; one that matches nothing at a standby hub is discarded and counted (R170,
R194, R366). -/
def logAnswer (v : Verdict) (e : Envelope) (s : State) : State :=
  if standbyHub s ∧ (v.late ∨ v.ambiguous) then bump (ctr 0x0013 1 0) s
  else logRecord v e (if v.late then bump (ctr 0x000A 5 0) s else s)

/-- The first row of R170 that applies to an answer. -/
def judgeAnswer (e : Envelope) (s : State) : State :=
  let i := e.tag.toNat / 4
  let g := e.tag.toNat % 4
  if i < 512 then
    let t := getSlot s i
    match t.use with
    | .out chan dst _ _ =>
      if t.gen = g ∧ e.src = dst then
        let s := quarantineSlot i s
        match chan with
        | some c => completeChannel c e s
        | none => if e.kind = kNdn then logAnswer { late := false, stale := false, ambiguous := false } e s else s
      else logAnswer { late := true, stale := true, ambiguous := false } e s
    | _ => logAnswer { late := true, stale := t.gen ≠ g, ambiguous := false } e s
  else if e.kind = kNdn then
    let kept := tabGet (fun _ => none) s.bridge.postedStamp (i * 4 + g)
    let orig : BitVec 32 := BitVec.ofNat 32 (bitsOf (payloadWord e 0).toNat 32 32)
    logAnswer { late := false, stale := false, ambiguous := kept ≠ some orig } e s
  else logAnswer { late := true, stale := true, ambiguous := false } e s

/-- An answer arrives: a mismatch of its poison is counted (R201), and R170 judges it; an NDN with a LENW other than 2 is discarded and
counted as malformed (R193). -/
def takeAnswer (e : Envelope) (s : State) : State :=
  let s := if poisonMismatch e then bump (ctr 0x000B 7 0) s else s
  if e.kind = kNdn ∧ e.lenw ≠ 2 then bump (ctr 0x000B 0 0) s else judgeAnswer e s

/-- An answer of a kind is taken from P3. -/
def answerRow (k : BitVec 5) (e : Envelope) (s : State) : Host.Outcome State Fault Refusal :=
  .next (takeAnswer (asKind k e) (takeDelivered (asKind k e) s))

/-- WRITE_ACK (R170). -/
def execWriteAck (e : Envelope) (s : State) : Host.Outcome State Fault Refusal := answerRow kWriteAck e s

/-- READ_DATA (R170). -/
def execReadData (e : Envelope) (s : State) : Host.Outcome State Fault Refusal := answerRow kReadData e s

/-- NDN (R170, R193). -/
def execNdn (e : Envelope) (s : State) : Host.Outcome State Fault Refusal := answerRow kNdn e s

/-- The request that holds a non-posted slot still waits for the sorting office to take it. -/
def undispatched (s : State) (i : Nat) : Bool :=
  [0, 1, 2, 3].any (fun c => (getChan s c).slot = some i && (getChan s c).waiting.isSome)

/-- RESPONSE_TIMEOUT (R171, R178): an outstanding request was not completed within BR_RTOUT of its dispatch. -/
def execResponseTimeout (index : Fin 512) (s : State) : Host.Outcome State Fault Refusal :=
  if undispatched s index then .next s else
  match (getSlot s index).use with
  | .out chan _ _ _ =>
    let s := bump (ctr 0x000A 4 0) (setB (quarantineSlot index s) R.BR_STAT F.BR_STAT_TOUT true)
    match chan with
    | some c => .next (endChannel c 3 Reason.timeout.code 0 0 s)
    | none => .next s
  | _ => .next s

/-- QUARANTINE_END (R168): TQ has passed, and the slot is free again. -/
def execQuarantineEnd (index : Fin 512) (s : State) : Host.Outcome State Fault Refusal :=
  let t := getSlot s index
  if t.use = .quarantine then .next (setSlot index { t with use := .free } s) else .next s

/-! NOTICE envelopes (R158, R159). -/

/-- The items of a queue in read order. -/
def inReadOrder : Nat → List Item → List Item
  | 0, _ => []
  | n + 1, its =>
    match nextItem its with
    | none => []
    | some it => it :: inReadOrder n (its.erase it)

/-- Items per envelope: BATCH, with 0 as 1 and values above 16 as 16. -/
def batchOf (s : State) (q : Nat) : Nat := min 16 (max 1 (getF s (R.PH_CFG q) F.PH_CFG_BATCH))

/-- A master's writes toward D that are still unanswered in another class: slot and generation (R159). -/
def unanswered (s : State) (mi : Nat) (d : BitVec 16) (cls : Nat) : List (Nat × Nat) :=
  ((List.range 32).map (fun k => mi * 32 + k)).filterMap (fun i =>
    match getSlot s i with
    | { gen := g, use := .out _ dst c k } => if dst = d ∧ c.toNat ≠ cls ∧ carriesData k then some (i, g) else none
    | _ => none)

/-- A master's channels whose write toward D in the same class waits for the sorting office (R159). -/
def unaccepted (s : State) (mi : Nat) (d : BitVec 16) (cls : Nat) : List Nat :=
  [0, 1, 2, 3].filter (fun c => ownerOf s c = mi &&
    match (getChan s c).waiting with
    | some e => carriesData e.kind && e.dst = d && e.cls.toNat = cls
    | none => false)

/-- A master's channels whose write toward D in another class still waits for its slot, and so has no tag to be answered (R159). -/
def unslotted (s : State) (mi : Nat) (d : BitVec 16) (cls : Nat) : List Nat :=
  [0, 1, 2, 3].filter (fun c => ownerOf s c = mi && (getChan s c).needSlot &&
    match (getChan s c).waiting with
    | some e => carriesData e.kind && e.dst = d && e.cls.toNat ≠ cls
    | none => false)

/-- NOTICE_ENVELOPE_BUILD (R158, R159): the bridge takes up to BATCH items of a subscribed queue, in read order, into one
envelope, and notes what it has to wait for. Bit w of `bad` marks the 64-bit word w among the items read as uncorrectable: it goes
out poisoned (R154). -/
def execNoticeEnvelopeBuild (q : Fin 32) (bad : BitVec 32) (s : State) : Host.Outcome State Fault Refusal :=
  let s := pointerCheck q s
  let p := getPh s q
  let dreg := R.PH_DST q
  let cls := classOrUrgent (getF s dreg F.PH_DST_CLASS)
  if ¬getB s (R.PH_CFG q) F.PH_CFG_SUB ∨ ¬getB s dreg F.PH_DST_VALID ∨ p.items = [] ∨ p.built.isSome ∨ quarantined s ∨ underTest s 0x70 then .next s
  else
    let its := inReadOrder (batchOf s q) p.items
    let n := its.length
    let cap := phCapacity s q
    let d := getF s dreg F.PH_DST_DST
    let ws := its.flatMap (fun it => [itemWord0 it, it.pm])
    let e := build s cls kNotice (getB s dreg F.PH_DST_MC) d (getF s R.BR_HOPS F.BR_HOPS_HOPS) ws
    if ¬e.mc ∧ originTargets s e = [] ∧ ¬standbyHub s then
      .next (bump (ctr 0x000E 1 0) (setB s R.RT_STAT F.RT_STAT_NOROUTE true))
    else if ¬hasRoom s 7 cls (cellsOf e) then .next s
    else
      let ms := (its.filterMap (fun it => sourceMaster it.cap)).eraseDups
      let slots := ms.flatMap (fun m => unanswered s m e.dst cls)
      let chans := ms.flatMap (fun m => unaccepted s m e.dst cls)
      let late := ms.flatMap (fun m => unslotted s m e.dst cls)
      let adr : BitVec 48 := BitVec.ofNat 48 (regs64 s (R.PH_DADDR_LO q) (R.PH_DADDR_HI q))
      let pois : BitVec 32 := bad &&& BitVec.ofNat 32 (2 ^ ws.length - 1)
      let e := withCrcs { e with addr := adr, ordered := slots ≠ [] ∨ late ≠ [], poison := pois, poisonAny := pois ≠ 0 }
      let s := setPh s q { p with
        items := its.foldl (fun l it => l.erase it) p.items, built := some e,
        rd := (p.rd + n) % cap, rdCopy := (p.rdCopy + n) % cap }
      .next (onBridge (fun b => { b with
        fenceSlots := b.fenceSlots ++ slots.map (fun x => (q.val, x)),
        fenceChans := b.fenceChans ++ chans.map (fun c => (q.val, c)),
        fenceWait := b.fenceWait ++ late.map (fun c => (q.val, c)) }) s)

/-- A write that a NOTICE envelope waits for is answered: its slot is no longer outstanding with that generation (R159). -/
def fenceOpen (s : State) (f : Nat × Nat × Nat) : Bool :=
  match getSlot s f.2.1 with
  | { gen := g, use := .out _ _ _ _ } => g ≠ f.2.2
  | _ => true

/-- NOTICE_ENVELOPE_RELEASE (R159): the envelope leaves once every earlier write is accepted or answered. -/
def execNoticeEnvelopeRelease (q : Fin 32) (s : State) : Host.Outcome State Fault Refusal :=
  let p := getPh s q
  match p.built with
  | none => .next s
  | some e =>
    if underTest s 0x70 then .next s
    else if (s.bridge.fenceSlots.filter (fun f => f.1 = q.val)).all (fenceOpen s) ∧
        ¬(s.bridge.fenceChans ++ s.bridge.fenceWait).any (fun f => f.1 = q.val) then
      match originate 7 (withCrcs { e with stamp := BitVec.ofNat 32 (nowNs s) }) s with
      | (s, .accepted) =>
        let s := setPh s q { getPh s q with built := none }
        .next (onBridge (fun b => { b with fenceSlots := b.fenceSlots.filter (fun f => f.1 ≠ q.val) }) s)
      | (s, _) => .next s
    else .next s

/-! Forwards of the dead-letter office (R198). -/

/-- The words of dead-letter entry i. -/
def dlEntry (s : State) (i : Nat) : List Word := (List.range 8).map (fun j => getReg s (R.DL_ENT i j))

/-- The next entry to forward, counted from node reset: entries that were freed before are skipped. -/
def nextForward (s : State) : Nat := max s.dead.fwd (s.dead.total - dlLevel s)

/-- DL_FORWARD (R198): a copy of the next dead-letter entry goes through channel 2 as a 32-byte WRITE_P of master index 5. -/
def execDlForward (s : State) : Host.Outcome State Fault Refusal :=
  if ¬getB s R.DL_FWD F.DL_FWD_VALID ∨ chanState s 2 = 1 ∨ ownerOf s 2 ≠ 5 then .next s
  else
    let f := nextForward s
    let s := bumpN (ctr 0x000B 4 0) (f - s.dead.fwd) s
    let s := onDead (fun d => { d with fwd := f }) s
    if s.dead.total ≤ f then .next s
    else
      let ws := dlEntry s ((dlHead s + 128 - (s.dead.total - f)) % 64)
      let w0 := (ws[0]?.getD 0).toNat
      let seq := (ws[2]?.getD 0).toNat / 65536
      let s := onDead (fun d => { d with fwd := f + 1 }) s
      if bitsOf w0 7 4 = 5 then .next s
      else
        let depth := min 8 (getF s R.DL_FWD F.DL_FWD_DEPTH)
        let cls := classOrUrgent (getF s R.DL_FWD F.DL_FWD_CLASS)
        let s := setReg s (R.BR_OC_DST 2) ((getReg s R.DL_FWD) &&& 0x1FFFF)
        let s := setReg s (R.BR_OC_ADDR 2) (BitVec.ofNat 32 ((getReg s R.DL_FADDR).toNat + 32 * (seq % 2 ^ depth)))
        let s := setWords (R.BR_OC_DATA 2 0) ws (onChan 2 (fun t => { t with poison := t.poison &&& ~~~(0xFF : BitVec 64) }) s)
        let v : Word := BitVec.ofNat 32 (1 + cls * 2 ^ 5 + 32 * 2 ^ 10 + 2 ^ 31)
        .next (writeOcCmd 2 v s)

/-! The bridge's configuration registers. -/

/-- The blocks that are never prefetchable (R184): field pins, Scribe, UARTs, pigeonholes, dead letters and access tables, as
first and last addresses. -/
def neverPrefetch : List (Nat × Nat) :=
  [(0x20000, 0x21FFF), (0x30000, 0x3FFFF), (0x50000, 0x50FFF), (0x61000, 0x617FF), (0x71000, 0x7FFFF)]

/-- A BR_PFA range overlaps a block that is never prefetchable. -/
def pfaForbidden (a b : Nat) : Bool :=
  let lo := a / 4096 * 4096
  let hi := b / 4096 * 4096 + 4095
  neverPrefetch.any (fun r => lo ≤ r.2 && r.1 ≤ hi)

/-- A write of BR_PFAn_A (`part` 0) or BR_PFAn_B: refused while EN is 1, except to clear EN, and where an enabled range overlaps
a block that is never prefetchable (R184). -/
def writePfa (n part : Nat) (v : Word) (s : State) : State :=
  let a := getReg s (R.BR_PFA_A n)
  let en := F.BR_PFA_A_EN.get a = 1
  let clears := part = 0 ∧ F.BR_PFA_A_EN.get v = 0
  let a' := if part = 0 then v else a
  let b' := if part = 0 then getReg s (R.BR_PFA_B n) else v
  let r := if part = 0 then R.BR_PFA_A n else R.BR_PFA_B n
  if (en ∧ ¬clears) ∨ (F.BR_PFA_A_EN.get a' = 1 ∧ pfaForbidden a'.toNat b'.toNat) then
    setB (declineWrite r v s) R.BR_STAT F.BR_STAT_CFGREF true
  else plainWrite r v s

/-- An enabled BR_PFA entry covers an address (R184). -/
def pfaCovers (s : State) (a : Nat) : Bool :=
  (List.range 8).any (fun n => getB s (R.BR_PFA_A n) F.BR_PFA_A_EN &&
    getF s (R.BR_PFA_A n) F.BR_PFA_A_BASE ≤ a / 4096 && a / 4096 ≤ getF s (R.BR_PFA_B n) F.BR_PFA_B_LIMIT)

/-- An address is prefetchable (R184). -/
def prefetchable (s : State) (a : Nat) : Bool :=
  builtInPrefetch a || (!neverPrefetch.any (fun r => r.1 ≤ a && a ≤ r.2) && pfaCovers s a)

end Sys2Proof.Machine
end

