-- ==== Sys2Proof/Machine/Tables.lean ====
section
/-! DEFINITION. Commits to access tables (R444), and the key fuses of the identity block (R450 to R452). -/

namespace Sys2Proof.Machine

/-- The tables' state after a change. -/
def onTables (f : TableState → TableState) (s : State) : State := { s with tables := f s.tables }

/-- The stage of table t. -/
def atStage (s : State) (t : Nat) : Option AtStage := tabGet (fun _ => none) s.tables.stages t

/-- The state after the stage of table t is replaced. -/
def setAtStage (t : Nat) (g : Option AtStage) (s : State) : State :=
  onTables (fun x => { x with stages := tabSet (fun _ => none) x.stages t g }) s

/-- The stage of a table as a master that writes an entry finds it: emptied when the tag names another master or entry (R444). -/
def ownStage (s : State) (t e : Nat) (id : MasterId) : AtStage :=
  match atStage s t with
  | some g => if g.tag = id ∧ g.entry = e then g else { tag := id, entry := e, w1 := none, w2 := none }
  | none => { tag := id, entry := e, w1 := none, w2 := none }

/-- A write of word 1 (k 0) or word 2 (k 1) of an entry goes to the table's stage (R444). -/
def stageEntry (id : MasterId) (t e k : Nat) (v : Word) (s : State) : State :=
  let g := ownStage s t e id
  let a := if k = 0 then R.AT_W1 t e else R.AT_W2 t e
  countPart a v (setAtStage t (some (if k = 0 then { g with w1 := some (fieldBits a v) } else { g with w2 := some v })) s)

/-- Words 1 and 2 as a commit by a master would take them: the staged ones, or the ones in force (R444). -/
def commitParts (s : State) (id : MasterId) (t e : Nat) : Word × Word :=
  let g := ownStage s t e id
  (g.w1.getD (getReg s (R.AT_W1 t e)), g.w2.getD (getReg s (R.AT_W2 t e)))

/-- A write of word 0 commits the entry; a LIMIT below BASE refuses it with CFGREF, and with the seal set a commit that would
change the entry leaves it and is counted once (R7, R444). -/
def commitEntry (id : MasterId) (t e : Nat) (v : Word) (s : State) : State :=
  let (w1, w2) := commitParts s id t e
  let w0 := fieldBits (R.AT_W0 t e) v
  let s := countPart (R.AT_W0 t e) v (setAtStage t none s)
  let same := w0 = getReg s (R.AT_W0 t e) ∧ w1 = getReg s (R.AT_W1 t e) ∧ w2 = getReg s (R.AT_W2 t e)
  let s := if sealed s ∧ ¬same then bump sealWr s else s
  if F.AT_W2_LIMIT.get w2 < F.AT_W2_BASE.get w2 then setB s R.AT_STAT F.AT_STAT_CFGREF true
  else if sealed s then s
  else
    rewritten (R.AT_W0 t e) (rewritten (R.AT_W1 t e) (rewritten (R.AT_W2 t e)
      (setReg (setReg (setReg s (R.AT_W1 t e) w1) (R.AT_W2 t e) w2) (R.AT_W0 t e) w0)))

/-- AT_ENTRY_STAGE (R444). -/
def execAtEntryStage (m : Master) (t : Fin 148) (e : Fin 16) (k : Fin 2) (v : Word) (s : State) :
    Host.Outcome State Fault Refusal :=
  .next (guardWrite m (if k.val = 0 then R.AT_W1 t e else R.AT_W2 t e) (fun s => (stageEntry (masterId s m) t e k v s, none)) s)

/-- AT_ENTRY_COMMIT (R444). -/
def execAtEntryCommit (m : Master) (t : Fin 148) (e : Fin 16) (v : Word) (s : State) : Host.Outcome State Fault Refusal :=
  .next (guardWrite m (R.AT_W0 t e) (fun s => (commitEntry (masterId s m) t e v s, none)) s)

/-! Key slots and fuses (R450 to R452). -/

/-- PROGk. -/
def slotProgrammed (s : State) (k : Nat) : Bool := bitOf (getReg s R.ID_KEYS).toNat (2 * k)
/-- REVk. -/
def slotRevoked (s : State) (k : Nat) : Bool := bitOf (getReg s R.ID_KEYS).toNat (2 * k + 1)
/-- A slot is usable: programmed and not revoked (R451). -/
def slotUsable (s : State) (k : Nat) : Bool := slotProgrammed s k && !slotRevoked s k

/-- A bit of ID_KEYS is blown. -/
def blowKeys (bit : Nat) (s : State) : State := setReg s R.ID_KEYS (getReg s R.ID_KEYS ||| BitVec.ofNat 32 (2 ^ bit))

/-- A fuse command is performed: R452's conditions. -/
def fuseAllowed (s : State) (m : Master) (v : Word) : Bool :=
  let op := F.ID_FUSE_CMD_OP.get v
  let k := F.ID_FUSE_CMD_SLOT.get v
  (m = .loc 0 || m = .loc 1) && F.ID_FUSE_CMD_KEY.get v = 0xA5 && (serviceMode s = 3 || serviceMode s = 2) &&
  !getB s R.PD_STAT F.PD_STAT_BROWN && 1 ≤ k && s.tables.fuse = none &&
  ((op = 1 && !slotProgrammed s k) || (op = 2 && slotProgrammed s k && s.upd.keySlot ≠ k))

/-- A write of ID_FUSE_CMD (R452): the command starts, or REF is set. -/
def writeFuseCmd (m : Master) (v : Word) (s : State) : State :=
  let s := countPart R.ID_FUSE_CMD v s
  if fuseAllowed s m v then
    let s := setReg s R.ID_FUSE_STAT (F.ID_FUSE_STAT_BUSY.put 0 1)
    onTables (fun t => { t with fuse := some (decide (F.ID_FUSE_CMD_OP.get v = 1), F.ID_FUSE_CMD_SLOT.get v) }) s
  else setB s R.ID_FUSE_STAT F.ID_FUSE_STAT_REF true

/-- FUSE_PROGRAM (R452): a write of ID_FUSE_CMD with OP PROGRAM. -/
def execFuseProgram (m : Master) (v : Word) (s : State) : Host.Outcome State Fault Refusal :=
  .next (guardWrite m R.ID_FUSE_CMD (fun s => (writeFuseCmd m (F.ID_FUSE_CMD_OP.put v 1) s, none)) s)

/-- FUSE_REVOKE (R452): a write of ID_FUSE_CMD with OP REVOKE. -/
def execFuseRevoke (m : Master) (v : Word) (s : State) : Host.Outcome State Fault Refusal :=
  .next (guardWrite m R.ID_FUSE_CMD (fun s => (writeFuseCmd m (F.ID_FUSE_CMD_OP.put v 2) s, none)) s)

/-- A write of a key stage word: write-only, so it is kept beside the registers (R450). -/
def writeKeyStage (j : Nat) (v : Word) (s : State) : State :=
  onTables (fun t => { t with keyStage := tabSet (fun _ => 0) t.keyStage j v }) s

/-- FUSE_DONE (R452): the command ends; PROGRAM has blown the staged key, and a read-back mismatch revokes the slot. -/
def execFuseDone (matched : Bool) (s : State) : Host.Outcome State Fault Refusal :=
  match s.tables.fuse with
  | none => .next s
  | some (prog, k) =>
    let s := setB (onTables (fun t => { t with fuse := none }) s) R.ID_FUSE_STAT F.ID_FUSE_STAT_BUSY false
    if ¬prog then .next (blowKeys (2 * k + 1) s)
    else
      let s := (List.range 16).foldl (fun s j => setReg s (R.ID_KEY k j) (tabGet (fun _ => 0) s.tables.keyStage j)) s
      let s := blowKeys (2 * k) s
      .next (if matched then s else blowKeys (2 * k + 1) (setB s R.ID_FUSE_STAT F.ID_FUSE_STAT_ERR true))

end Sys2Proof.Machine
end

