-- ==== Sys2Proof/Machine/Counters.lean ====
section
/-! DEFINITION. Counters and snapshots (chapter 19): where counters stand, snapshot marks, and the copies a snapshot takes. -/

namespace Sys2Proof.Machine

/-- The monitor's and counters' state after a change. -/
def onMon (f : MonState → MonState) (s : State) : State := { s with mon := f s.mon }

/-- The index of an array counter (R457): glitches per pin, five counts per engine, rate drops per message object, short
frames per gateway map entry. -/
def arrayIndex (c : Ctr) : Option Nat :=
  if c.cap = 0x0002 ∧ c.kind = 0 then some c.inst
  else if c.cap = 0x0003 ∧ c.kind < 5 then some (256 + 5 * c.inst + c.kind)
  else if c.cap = 0x0004 ∧ c.kind = 0 then some (576 + c.inst)
  else if c.cap = 0x0004 ∧ c.kind = 1 then some (1600 + c.inst)
  else none

/-- The index of a register counter: 248 for the bridge's first and 288 for the dead-letter office's first, as R457 and the
example of chapter 19 place them; the spec does not state the others one by one (log entry 8). -/
def registerIndex (c : Ctr) : Nat :=
  if c = ctr 0x000A 0 0 then 248 else if c = ctr 0x000B 0 0 then 288 else Config.counterIndex c.cap c.kind c.inst

/-- The value that a list of counters holds at a register-counter index. -/
def registerValue (l : List (Ctr × Nat)) (i : Nat) : Nat :=
  match l.find? (fun e => (arrayIndex e.1).isNone && registerIndex e.1 = i) with
  | some (_, n) => n
  | none => 0

/-- The value that a list of counters holds at an array-counter index. -/
def arrayValue (l : List (Ctr × Nat)) (j : Nat) : Nat :=
  match l.find? (fun e => arrayIndex e.1 = some j) with
  | some (_, n) => n
  | none => 0

/-- The counter block's notices (R468). -/
def cntNotice (code arg : Nat) (s : State) : State := postOnce (getF s R.CNT_CTL F.CNT_CTL_NTC_Q) 0x0017 0 code arg s

/-- The pending mark stays out: late, or a fifth one (R459). -/
def refuseMark (f : Fld) (kind id : Nat) (s : State) : State :=
  cntNotice 0x81 id (bump (ctr 0x0017 kind 0) (setB s R.CNT_STAT f true))

/-- A mark is accepted, or refused as LATE or OVR; one with the ID of a pending mark replaces it (R459). -/
def acceptMark (id instant : Nat) (s : State) : State :=
  if instant ≤ nowNs s then refuseMark F.CNT_STAT_LATE 1 id s
  else
    let rest := s.mon.marks.filter (fun k => k.id ≠ id)
    if rest.length = s.mon.marks.length ∧ 4 ≤ rest.length then refuseMark F.CNT_STAT_OVR 2 id s
    else bump (ctr 0x0017 0 0) (onMon (fun m => { m with marks := rest ++ [{ id := id, instant := instant }] }) s)

/-- SNAPSHOT_MARK (R458, R459). -/
def execSnapshotMark (e : Envelope) (s : State) : Host.Outcome State Fault Refusal :=
  let e := asKind kSnapshotMark e
  let s := takeDelivered e s
  .next (if e.lenw ≠ 2 ∨ (payloadWord e 0).toNat / 65536 ≠ 0 ∨ quarantined s ∨ ¬holdsWrite s (taggedMaster e) 0xF0000 then
      bump (ctr 0x0017 6 0) s
    else acceptMark (bitsOf (payloadWord e 0).toNat 0 16) (payloadWord e 1).toNat s)

/-- A snapshot at this edge: every register counter into bank ID & 1, the bank's words, and the array copy, which abandons one
under way (R460, R461). -/
def takeSnapshot (id : Nat) (isLocal : Bool) (s : State) : State :=
  let b := id % 2
  let all := s.mon.counters
  let abandoned := s.mon.arrBusy
  let s := onMon (fun m => { m with
    shadow0 := if b = 0 then all else m.shadow0, shadow1 := if b = 1 then all else m.shadow1,
    arrays := all, arrBusy := true }) s
  let seq := (getF s (R.CNT_SB_ID b) F.CNT_SB_ID_SEQ + 1) % 256
  let w := id % 65536 + 2 ^ 16 + bit1 isLocal * 2 ^ 17 + getF s R.TM_CTL F.TM_CTL_SYNCED * 2 ^ 18 + seq * 2 ^ 24
  let s := setReg s (R.CNT_SB_ID b) (BitVec.ofNat 32 w)
  let pm := pmItb s 0
  let s := setReg (setReg s (R.CNT_SB_PM_LO b) (lo32 pm)) (R.CNT_SB_PM_HI b) (hi32 pm)
  let s := setReg s R.CNT_ARR (BitVec.ofNat 32 (id % 65536))
  let s := if abandoned then bump (ctr 0x0017 5 0) s else s
  cntNotice 0x01 id (bump (ctr 0x0017 (if isLocal then 4 else 3) 0) s)

/-- The marks whose instant ITB0 has reached, in the order of acceptance (R306, R460). -/
def dueMarks (s : State) : List SnapMark := s.mon.marks.filter (fun k => k.instant ≤ nowNs s)

/-- Of the due marks for a bank, the one accepted last stands, and the others are counted as OVR (R460). -/
def takeBank (b : Nat) (due : List SnapMark) (s : State) : State :=
  let ks := due.filter (fun k => k.id % 2 = b)
  match ks.getLast? with
  | none => s
  | some k => takeSnapshot k.id false (ks.dropLast.foldl (fun s x => refuseMark F.CNT_STAT_OVR 2 x.id s) s)

/-- SNAPSHOT_TAKE (R306, R460): the pending marks whose instant is reached are taken. -/
def execSnapshotTake (s : State) : Host.Outcome State Fault Refusal :=
  let due := dueMarks s
  let s := onMon (fun m => { m with marks := m.marks.filter (fun k => ¬(k ∈ due)) }) s
  .next (takeBank 1 due (takeBank 0 due s))

/-- ARRAY_COPY_DONE (R461): the array copy is complete. -/
def execArrayCopyDone (s : State) : Host.Outcome State Fault Refusal :=
  if s.mon.arrBusy then .next (onMon (fun m => { m with arrBusy := false }) (setB s R.CNT_ARR F.CNT_ARR_DONE true)) else .next s

/-- A write of CNT_SNAP (R462): a local snapshot, refused with CFGREF where a due mark takes the same bank at this edge. -/
def writeCntSnap (v : Word) (s : State) : State :=
  let s := plainWrite R.CNT_SNAP v s
  if F.CNT_SNAP_GO.get v = 0 then s
  else
    let id := F.CNT_SNAP_ID.get v
    if (dueMarks s).any (fun k => k.id % 2 = id % 2) then setB s R.CNT_STAT F.CNT_STAT_CFGREF true else takeSnapshot id true s

/-- CNT_SNAP (R462): a write of CNT_SNAP with GO 1. -/
def execCntSnap (m : Master) (v : Word) (s : State) : Host.Outcome State Fault Refusal :=
  .next (guardWrite m R.CNT_SNAP (fun s => (writeCntSnap (F.CNT_SNAP_GO.put v 1) s, none)) s)

end Sys2Proof.Machine
end

