-- ==== Sys2Proof/Machine/Images.lean ====
section
/-! DEFINITION. The process images and their halves (R305): the stable halves stand at the images' own addresses, the fill
halves and the sealing half beside them; and the reads and writes of memory that masters make. -/

namespace Sys2Proof.Machine

/-- The first address of the input image. -/
abbrev inImage : Nat := 0x200000
/-- The first address of the output image. -/
abbrev outImage : Nat := 0x208000
/-- Bytes of one image half. -/
abbrev imageBytes : Nat := 0x8000

/-- Where the fill half of an image address is kept. -/
def fillOf (a : Nat) : Nat := a + 2 ^ 32
/-- Where the sealing half of an input-image address is kept. -/
def sealOf (a : Nat) : Nat := a + 2 ^ 33

/-- An address lies in one of the images. -/
def inImages (a : Nat) : Bool := 0x200000 ≤ a && a < 0x210000

/-- An address lies in the input image. -/
def inInput (a : Nat) : Bool := 0x200000 ≤ a && a < 0x208000

/-- Where a read of an address looks: the stable half; for the input image while a half is being sealed, the half that the
held read will return (R304, R305). -/
def readPlace (s : State) (a : Nat) : Nat := if inInput a ∧ s.time.sealing then sealOf a else a

/-- Where a master's write of an address goes: the fill half of an image (R305). -/
def writePlace (a : Nat) : Nat := if inImages a then fillOf a else a

/-- A table without its entries in a range. -/
def tabCut {α : Type} (t : Table α) (a n : Nat) : Table α := t.filter (fun e => e.1 < a || a + n ≤ e.1)

/-- A table whose range at `dst` becomes a copy of the range at `src`; both read the same default. -/
def tabCopy {α : Type} [DecidableEq α] (d : Nat → α) (src dst n : Nat) (t : Table α) : Table α :=
  (t.filter (fun e => src ≤ e.1 && e.1 < src + n)).foldl (fun u e => tabSet d u (e.1 - src + dst) e.2) (tabCut t dst n)

/-- Memory bytes with their poison are copied from one range to another. -/
def copyMem (src dst n : Nat) (s : State) : State :=
  { s with
    mem := tabCopy memDefault src dst n s.mem,
    poison := tabCopy (fun _ => false) (src / 8) (dst / 8) (n / 8) s.poison }

/-- The output fill half becomes stable; the new fill half holds what the stable one holds (R305). -/
def swapOutput (s : State) : State := copyMem (fillOf outImage) outImage imageBytes s

/-- The input fill half becomes the sealing half; the new fill half starts with the same contents (R305). -/
def startSeal (s : State) : State :=
  let s := copyMem (fillOf inImage) (sealOf inImage) imageBytes s
  { s with time := { s.time with sealing := true } }

/-- The sealing half becomes the stable input half, and held reads complete (R304, step 4). -/
def endSeal (s : State) : State :=
  if s.time.sealing then
    let s := copyMem (sealOf inImage) inImage imageBytes s
    { s with time := { s.time with sealing := false } }
  else s

/-- The doubleword of a memory address, whole. -/
def wordAt (s : State) (place : Nat) : DWord := getMem64 s (place / 8 * 8)

/-- The memory class of a local address (R394): process image, waymark RAM, message RAM; none elsewhere. -/
def memClass (a : Nat) : Option Nat :=
  if inImages a then some 1
  else if 0x300000 ≤ a ∧ a < 0x320000 then some 2
  else if 0x100000 ≤ a ∧ a < 0x120000 then some 3
  else none

/-- The poison of one 8-byte word after bytes of it were written: all 8 bytes set it as the data is, fewer leave a poisoned word
poisoned, which is counted (R395). -/
def wordPoison (a place : Nat) (whole pois : Bool) (s : State) : State :=
  if whole then setPoison s place pois
  else if poisoned s place then bump (ctr 0x0015 5 ((memClass a).getD 0)) s
  else if pois then setPoison s place true else s

/-- Bytes written at a place, for an address: the poison of the words they cover follows (R395, R396). -/
def writeAt (a place : Nat) (bs : List Byte) (pois : Bool) (s : State) : State :=
  let s := setBytes s place bs
  let first := place / 8
  let last := (place + bs.length - 1) / 8
  if bs = [] then s
  else (List.range (last + 1 - first)).foldl (fun s k =>
    let w := 8 * (first + k)
    wordPoison a w (decide (place ≤ w ∧ w + 8 ≤ place + bs.length)) pois s) s

/-- Bytes written by a master at an address: they go to the fill half of an image, and read-ahead that overlaps them is discarded
(R176, R187, R305). -/
def masterWrite (a : Nat) (bs : List Byte) (pois : Bool) (s : State) : State :=
  writeAt a (writePlace a) bs pois (dropOverlap a bs.length s)

/-- A unit's record or pin bits enter the input half that is being sealed, through the image's boundary port (R124). -/
def boundaryWrite (off : Nat) (bs : List Byte) (s : State) : State := writeAt (inImage + off) (sealOf inImage + off) bs false s

/-- n bytes as a master's read returns them. -/
def masterRead (s : State) (a n : Nat) : List Byte := (List.range n).map (fun i => getByte s (readPlace s (a + i)))

/-- Poison of the 8-byte word that holds an address, as a master's read sees it. -/
def readPoisoned (s : State) (a : Nat) : Bool := poisoned s (readPlace s a)

/-- A bit of an image half. -/
def imageBit (s : State) (base bit : Nat) : Bool := (getByte s (base + bit / 8)).getLsbD (bit % 8)

/-- The state after a bit of an image half is written. -/
def setImageBit (base bit : Nat) (b : Bool) (s : State) : State :=
  let a := base + bit / 8
  let m : Byte := BitVec.ofNat 8 (2 ^ (bit % 8))
  setByte s a (if b then getByte s a ||| m else getByte s a &&& ~~~m)

end Sys2Proof.Machine
end

