-- ==== Sys2Proof/Machine/Interlock.lean ====
section
/-! DEFINITION. The core of the duplex unit (chapter 14): its state, field drive, READY, the HEALTH report, and what a latched
fault does. Counters of CAP 0x0013: 0 envelopes suppressed by kind, 1 unmatched answers, 2 to 4 partner messages sent, received
and without room by TYPE, 5 missing steps, 6 divergences by domain, 7 corrections by cluster, 8 capture records discarded, 9
claims, 10 releases, 11 yields, 12 faults by bit, 13 and 14 self-test passes and failures, 15 partner messages on a wrong port. -/

namespace Sys2Proof.Machine

/-- The duplex unit after a change. -/
def onDpx (f : DuplexState → DuplexState) (s : State) : State := { s with duplex := f s.duplex }

/-- DPX_CTL.EN. -/
def dpxOn (s : State) : Bool := getB s R.DPX_CTL F.DPX_CTL_EN
/-- DPX_STAT.STATE: 0 OFF, 1 STANDBY, 2 ACTIVE, 3 FAULTED. -/
def dpxState (s : State) : Nat := getF s R.DPX_STAT F.DPX_STAT_STATE
/-- The DPX_ROLE strap: 0 A, 1 B. -/
def dpxRole (s : State) : Nat := getF s R.DPX_STAT F.DPX_STAT_ROLE

/-- Field drive (R356): while EN is 0 it is on when RT_CFG.PAIR is 0; while EN is 1 it is what the interlock made it. -/
def fieldDrive (s : State) : Bool :=
  if dpxOn s then getB s R.DPX_STAT F.DPX_STAT_DRIVE else !getB s R.RT_CFG F.RT_CFG_PAIR

/-- Latched faults that DPX_FMASK selects. -/
def selectedFaults (s : State) : Nat := ((getReg s R.DPX_FAULT) &&& (getReg s R.DPX_FMASK) &&& 0x3F).toNat

/-- READY (R355). -/
def dpxReady (s : State) : Bool :=
  dpxOn s && serviceMode s = 1 && selectedFaults s = 0 && !getB s R.DPX_STAT F.DPX_STAT_ROLEERR

/-- The hub takes its slow domains from its partner: a standby that is not SOLO (R361, R362). -/
def followsPartner (s : State) : Bool :=
  getB s R.DPX_CTL F.DPX_CTL_EN && getF s R.DPX_STAT F.DPX_STAT_STATE = 1 && !getB s R.DPX_STAT F.DPX_STAT_SOLO

/-- The unit's notices, at most one of a code in a millisecond (R372). -/
def dpxNotice (code arg : Nat) (s : State) : State := postOnce (getF s R.DPX_CTL F.DPX_CTL_NTC_Q) 0x0013 (dpxRole s) code arg s

/-- The sum of a counter over instances. -/
def ctrSum (s : State) (cap kind n : Nat) : Nat := ((List.range n).map (fun i => getCtr s (ctr cap kind i))).sum

/-- Two 32-bit halves as one word. -/
def pair32 (lo hi : Nat) : DWord := BitVec.ofNat 64 (lo % 2 ^ 32 + hi % 2 ^ 32 * 2 ^ 32)

/-- The payload of a HEALTH report (R370). -/
def healthWords (s : State) (cause : Nat) : List DWord :=
  [BitVec.ofNat 64 (dpxRole s * 2 ^ 4 + dpxState s * 2 ^ 5 + getF s R.RT_CFG F.RT_CFG_PAIR * 2 ^ 8 + cause * 2 ^ 9 +
      s.duplex.healthSeq % 65536 * 2 ^ 16),
    pair32 (getReg s R.DPX_FAULT).toNat (getReg s R.NODE_RST_CAUSE).toNat,
    pair32 (getReg s R.DPX_STEP).toNat (ctrSum s 0x0013 6 48),
    pair32 (ctrSum s 0x0013 7 16) (getCtr s (ctr 0x0013 5 0)),
    pair32 (ctrSum s 0x0015 0 7) (ctrSum s 0x0015 1 7),
    pair32 (getReg s R.SUP_VIN).toNat (getF s R.PM_FLD_I F.PM_FLD_I_MA),
    pair32 (getCtr s (ctr 0x0013 13 0)) (getCtr s (ctr 0x0013 14 0)),
    pmItb s 0]

/-- A HEALTH report of a cause: 0 periodic, 1 fault, 2 state change, 3 supply warning; one without room is not retried, and the
next carries the next SEQ (R370). -/
def healthReport (cause : Nat) (s : State) : State :=
  if getB s R.DPX_HDST F.DPX_HDST_VALID then
    let e := build s 3 kHealth (getB s R.DPX_HDST F.DPX_HDST_MC) (getF s R.DPX_HDST F.DPX_HDST_DST) (getF s R.BR_HOPS F.BR_HOPS_HOPS)
      (healthWords s cause)
    let e := withCrcs { e with addr := BitVec.ofNat 48 (getReg s R.DPX_HADDR).toNat }
    (originate 6 e (onDpx (fun d => { d with healthSeq := (d.healthSeq + 1) % 65536 }) s)).1
  else s

/-- A partner message is offered to TIE's queue (R359). -/
def offerPartner (type : Nat) (e : Envelope) (s : State) : State × Sent :=
  match sendOnPort 6 2 e s with
  | (s, .accepted) => (bump (ctr 0x0013 2 type) s, .accepted)
  | r => r

/-- A partner message goes out of TIE without a routing decision, or waits for room (R359): class, TYPE and payload. -/
def sendPartner (cls type : Nat) (ws : List DWord) (s : State) : State :=
  let e := build s cls kHealth false (nodeAddr s) 1 ws
  match offerPartner type e s with
  | (s, .accepted) => s
  | (s, _) => onDpx (fun d => { d with waiting := d.waiting ++ [(type, e, s.time.ltick)] }) s

/-- A partner message that waits is offered again; one that finds no room within 1 µs is not sent and is counted (R359). -/
def retryPartner (s : State) (x : Nat × Envelope × Nat) : State :=
  let gone := fun (s : State) => onDpx (fun d => { d with waiting := d.waiting.erase x }) s
  match offerPartner x.1 x.2.1 s with
  | (t, .accepted) => gone t
  | (t, _) => if 2 * ticksSince s x.2.2 ≤ 625 then s else bump (ctr 0x0013 4 x.1) (gone t)

/-- The partner messages that wait are offered again. -/
def retryPartners (s : State) : State := s.duplex.waiting.foldl retryPartner s

/-- A hub that gives up control starts no new envelope of the kinds that it suppresses (R366, R368): those of its own that have not started
leave the queues of its ring outputs, and are counted. -/
def silence (s : State) : State :=
  s.office.stored.foldl (fun s e =>
    let outs := e.targets.filter (fun o => o < 3 && decide ((tabGet (fun _ => none) s.office.sending o).map (fun x => x.1) ≠ some e.id))
    if e.inp < 3 ∨ ¬suppressedKind e.env.kind ∨ outs = [] then s
    else bump (ctr 0x0013 0 e.env.kind.toNat) (outs.foldl (fun s o => dropTarget e.id o s) s)) s

/-- Controllers whose frame is cut: it goes back to its object's request (R368, R369). -/
def cutFrames (s : State) : State :=
  (List.range 8).foldl (fun s m =>
    let b := tabGet (fun _ => Mb.reset) s.buses.mbs m
    match b.tx with
    | none => s
    | some t =>
      let s := { s with buses := { s.buses with mbs := tabSet (fun _ => Mb.reset) s.buses.mbs m { b with tx := none } } }
      if t.single then s
      else setReg s (R.MB_TXREQ m (t.obj / 32)) (getReg s (R.MB_TXREQ m (t.obj / 32)) ||| BitVec.ofNat 32 (2 ^ (t.obj % 32)))) s

/-- CLAIM falls and field drive turns off (R355, R368). -/
def dropClaim (s : State) : State :=
  let s := if getB s R.DPX_STAT F.DPX_STAT_CLAIM then bump (ctr 0x0013 10 0) s else s
  let s := setB (setB s R.DPX_STAT F.DPX_STAT_CLAIM false) R.DPX_STAT F.DPX_STAT_DRIVE false
  cutFrames (onDpx (fun d => { d with speaking := false }) s)

/-- The standby's self-test starts its next target (R371): a logical bank, by migration to the spare, or the spare itself. -/
def selfTestKick (s : State) : State :=
  if dpxOn s ∧ dpxState s = 1 ∧ getB s R.DPX_CTL F.DPX_CTL_STEST ∧ s.integrity.test.isNone ∧ s.integrity.spareFor.isNone ∧ s.upd.handover.isNone ∧
      getB s R.SO_CAP F.SO_CAP_SPARE then
    let n := getF s R.BIST_AUTO F.BIST_AUTO_NEXT
    let t := if 32 ≤ n then 0x20 else n
    let s := bump (ctr 0x0016 0 (if t = 0x20 then 1 else 0)) s
    let s := setF (setF s R.BIST_STAT F.BIST_STAT_STATE 1) R.BIST_STAT F.BIST_STAT_PHASE (if t = 0x20 then 0 else 1)
    let s := if getB s R.BIST_STAT F.BIST_STAT_HELD then s else setF s R.BIST_STAT F.BIST_STAT_LTARGET t
    { s with integrity := { s.integrity with test := some t, selfTest := true } }
  else s

/-- A change of state (R357) posts a notice and sends a HEALTH report (R370, R372). -/
def setDpxState (st cause : Nat) (s : State) : State :=
  if dpxState s = st then s
  else
    let was := dpxState s
    let s := setF s R.DPX_STAT F.DPX_STAT_STATE st
    let step := (getReg s R.DPX_STEP).toNat
    let s := if st = 2 then dpxNotice 0x01 step s
      else if st = 1 then dpxNotice 0x02 step s
      else if st = 3 ∨ was = 2 then dpxNotice 0xC1 (getReg s R.DPX_FAULT).toNat s
      else s
    selfTestKick (healthReport cause s)

/-- A hub that is not READY lowers its CLAIM (R355). -/
def reviewClaim (s : State) : State :=
  if dpxOn s ∧ ¬dpxReady s ∧ getB s R.DPX_STAT F.DPX_STAT_CLAIM then dropClaim s else s

/-- A selected fault takes an ACTIVE or STANDBY hub to FAULTED, an ACTIVE one with its drive, its CLAIM and its voice (R357, R368). -/
def giveUp (s : State) : State :=
  if dpxState s = 2 then setDpxState 3 1 (silence (dropClaim s))
  else if dpxState s = 1 then setDpxState 3 1 (dropClaim s)
  else s

/-- A fault is latched in DPX_FAULT; one that DPX_FMASK selects ends READY (R367). -/
def latchFault (bit : Nat) (s : State) : State :=
  let s := bump (ctr 0x0013 12 bit) (setReg s R.DPX_FAULT (getReg s R.DPX_FAULT ||| BitVec.ofNat 32 (2 ^ bit)))
  if (getReg s R.DPX_FMASK).getLsbD bit then giveUp s else s

end Sys2Proof.Machine
end

