-- ==== Sys2Proof/Machine/Integrity.lean ====
section
/-! DEFINITION. What the memories do on errors (chapter 16): fresh uncorrectable words, corrected words and their buckets, and
parity errors. Counters of CAP 0x0015: 0 corrected and 1 fresh uncorrectable words by class, 2 poison marks read, 3 scrub laps, 4
abandoned write-backs, 5 read-modify-writes into poisoned words, 6 parity errors by kind. -/

namespace Sys2Proof.Machine

/-- The unit's notices, to queue 0 and at most one of a code and class in a millisecond (R411). -/
def miNotice (inst code arg : Nat) (s : State) : State := postOnce 0 0x0015 inst code arg s

/-- A fresh uncorrectable word of class c at a local address: marked, counted, recorded and reported, and a fault of a pair where
DPX_FMASK.MEM selects the class (R396). `place` is where the model keeps the word. -/
def freshError (c a place : Nat) (s : State) : State :=
  let s := bump (ctr 0x0015 1 c) (setPoison s place true)
  let s := setReg s R.MI_STAT (getReg s R.MI_STAT ||| BitVec.ofNat 32 (2 ^ (8 + c)))
  let s := miNotice c 0xC1 (bitsOf a 3 16) (setReg s (R.MI_LB_UADDR c) (BitVec.ofNat 32 a))
  if dpxOn s ∧ c < 6 ∧ bitOf (getF s R.DPX_FMASK F.DPX_FMASK_MEM) c then latchFault 0 s else s

/-- A corrected word of class c: its counter and address, and its bucket, which reports when it rises above the threshold (R399). -/
def correctedWord (c a : Nat) (s : State) : State :=
  let s := setReg (bump (ctr 0x0015 0 c) s) (R.MI_LB_ADDR c) (BitVec.ofNat 32 a)
  let lvl := getF s (R.MI_LB_STAT c) F.MI_LB_STAT_LEVEL
  let up := min 65535 (lvl + 1)
  let thr := getF s (R.MI_LB_CFG c) F.MI_LB_CFG_THRESH
  let s := setF s (R.MI_LB_STAT c) F.MI_LB_STAT_LEVEL up
  if lvl ≤ thr ∧ thr < up then
    let s := setReg s R.MI_STAT (getReg s R.MI_STAT ||| BitVec.ofNat 32 (2 ^ c))
    if tabGet (fun _ => false) s.integrity.reported c then s
    else
      let s := { s with integrity := { s.integrity with reported := tabSet (fun _ => false) s.integrity.reported c true } }
      miNotice c 0x81 up s
  else s

/-- What a parity error of a kind (8 store, 9 FIFO, 10 register file, 11 small table) records: the counter, MI_STAT.PAR, MI_PADDR,
MI_PSRC and notice 0xC2 (R398). -/
def parityRecord (kind cap inst a : Nat) (s : State) : State :=
  let s := bump (ctr 0x0015 6 kind) s
  let s := setReg s R.MI_STAT (getReg s R.MI_STAT ||| BitVec.ofNat 32 (2 ^ (8 + kind)))
  let s := setReg s R.MI_PADDR (BitVec.ofNat 32 a)
  let s := setReg s R.MI_PSRC (BitVec.ofNat 32 (cap % 2 ^ 16 + inst % 2 ^ 8 * 2 ^ 16 + kind % 16 * 2 ^ 24))
  miNotice kind 0xC2 cap s

end Sys2Proof.Machine
end

