-- ==== Sys2Proof/Machine/Time.lean ====
section
/-! DEFINITION. Local ticks, the independent time bases and the virtual domains (R285 to R291): their registers' commits, and
what happens at an FCLK edge. -/

namespace Sys2Proof.Machine

/-- The time bases after a change. -/
def onTime (f : TimeState → TimeState) (s : State) : State := { s with time := f s.time }

/-- Domain d's staged values. -/
def getVd (s : State) (d : Nat) : Vd := tabGet (fun _ => Vd.reset) s.time.vd d

/-- The state after domain d's staged values are changed. -/
def onVd (d : Nat) (f : Vd → Vd) (s : State) : State :=
  onTime (fun t => { t with vd := tabSet (fun _ => Vd.reset) t.vd d (f (tabGet (fun _ => Vd.reset) t.vd d)) }) s

/-- The time unit's notices (R314). -/
def tmNotice (inst code arg : Nat) (s : State) : State := postOnce (getF s R.TM_CTL F.TM_CTL_NTC_Q) 0x0010 inst code arg s

/-- An INC within 0.1 % of the nominal one (R287). -/
def incAllowed (v : Nat) : Bool := 13730151452 ≤ v && v ≤ 13757639242

/-- An INC for ITBn: an allowed value applies from the next FCLK edge, and reads return it at once; any other is refused
with CFGREF, counted, and reported (R287). -/
def applyInc (n inc : Nat) (s : State) : State :=
  if incAllowed inc then
    let s := setReg s (R.ITB_INC_LO n) (BitVec.ofNat 32 inc)
    let s := setReg s (R.ITB_INC_HI n) (BitVec.ofNat 32 (inc / 2 ^ 32))
    setItb s n { getItb s n with pendInc := some inc }
  else
    let s := bump (ctr 0x0010 10 n) (setB s (R.ITB_CTL n) F.ITB_CTL_CFGREF true)
    tmNotice n 0x82 0 s

/-- A commit of ITBn_INC by a write of its _LO (R11, R287). -/
def commitInc (id : MasterId) (n : Nat) (v : Word) (s : State) : State :=
  let lo := R.ITB_INC_LO n
  let hi := (stagedUpper s id lo (getReg s (R.ITB_INC_HI n)) 0).1
  applyInc n (v.toNat + 2 ^ 32 * (hi.toNat % 256)) (setStage s lo none)

/-- A step of ITBn that applies at the next FCLK edge (R288). -/
def applyStep (n : Nat) (abs : Bool) (val : Nat) (s : State) : State :=
  setItb s n { getItb s n with pendStep := some (abs, val) }

/-- ITB_INC_COMMIT (R287): a write of ITBn_INC_LO. -/
def execItbIncCommit (m : Master) (n : Fin 4) (v : Word) (s : State) : Host.Outcome State Fault Refusal :=
  .next (guardWrite m (R.ITB_INC_LO n) (fun s => (commitInc (masterId s m) n v s, none)) s)

/-- A commit of ITBn_STEP: the step applies at the next FCLK edge; upper parts that the master did not stage are 0 (R288). -/
def commitStep (id : MasterId) (n : Nat) (v : Word) (s : State) : State :=
  let lo := R.ITB_STEP_LO n
  let (hi, top) := stagedUpper s id lo 0 0
  let val := v.toNat + 2 ^ 32 * hi.toNat + 2 ^ 64 * (top.toNat % 65536)
  applyStep n (top.getLsbD 16) val (setStage s lo none)

/-- ITB_STEP (R288): a write of ITBn_STEP_LO. -/
def execItbStep (m : Master) (n : Fin 4) (v : Word) (s : State) : Host.Outcome State Fault Refusal :=
  .next (guardWrite m (R.ITB_STEP_LO n) (fun s => (commitStep (masterId s m) n v s, none)) s)

/-- A commit into one of a domain's staged values (R291): the upper parts are the master's staged ones, or those of the staged
value. `which` is 0 BASE, 1 ANCHOR, 2 RATE. -/
def commitVd (id : MasterId) (d which : Nat) (v : Word) (s : State) : State :=
  let lo := if which = 0 then R.VD_BASE_LO d else if which = 1 then R.VD_ANCHOR_LO d else R.VD_RATE_LO d
  let g := getVd s d
  let old := if which = 0 then g.base else if which = 1 then g.anchor else g.rate
  let (hi, top) := stagedUpper s id lo (BitVec.ofNat 32 (old / 2 ^ 32)) (BitVec.ofNat 32 (old / 2 ^ 64))
  let s := setStage s lo none
  let n := v.toNat + 2 ^ 32 * hi.toNat
  if which = 0 then onVd d (fun g => { g with base := n + 2 ^ 64 * (top.toNat % 65536) }) s
  else if which = 1 then onVd d (fun g => { g with anchor := n }) s
  else onVd d (fun g => { g with rate := n % 2 ^ 48 }) s

/-- A write of VDn_CTL (R291): LOAD applies the staged values at the next FCLK edge; setting FOLLOW, or naming another base
while it is 1, reloads the domain there. -/
def writeVdCtl (d : Nat) (v : Word) (s : State) : State :=
  let old := getReg s (R.VD_CTL d)
  let s := plainWrite (R.VD_CTL d) v s
  let follows := F.VD_CTL_FOLLOW.get v = 1
  let reload := follows ∧ (F.VD_CTL_FOLLOW.get old = 0 ∨ F.VD_CTL_ITB.get v ≠ F.VD_CTL_ITB.get old)
  let s := if F.VD_CTL_LOAD.get v = 1 then onVd d (fun g => { g with loadNext := true }) s else s
  if reload then onVd d (fun g => { g with followNext := true }) s else s

/-- VD_LOAD (R291): a write of VDn_CTL with LOAD 1. -/
def execVdLoad (m : Master) (d : Fin 16) (v : Word) (s : State) : Host.Outcome State Fault Refusal :=
  .next (guardWrite m (R.VD_CTL d) (fun s => (writeVdCtl d (F.VD_CTL_LOAD.put v 1) s, none)) s)

/-! An FCLK edge. -/

/-- A base's accumulator at FCLK edge `tick`: INC is added, with a relative step; an absolute step replaces the value (R286,
R288). NS has 64 bits above 32 fraction bits. -/
def itbEdge (tick : Nat) (t : Itb) : Itb :=
  let inc := t.pendInc.getD t.inc
  let past := if t.pendInc.isSome ∨ t.pendStep.isSome then (tick, t.val, t.inc) :: t.past else t.past
  let val := match t.pendStep with
    | none => t.val + inc
    | some (true, v) => v * 2 ^ 16
    | some (false, v) => t.val + inc + v * 2 ^ 16
  { val := val % 2 ^ 96, inc := inc, pendInc := none, pendStep := none, past := past }

/-- A port's record that ITB0 was stepped. -/
def markStep (s : State) : State :=
  onTime (fun t => { t with net := [0, 1, 2].foldl (fun n p =>
    tabSet (fun _ => NetPort.reset) n p { tabGet (fun _ => NetPort.reset) n p with steppedTx := true, steppedRx := true }) t.net }) s

/-- What a step that takes effect reports (R288, R314). -/
def noteStep (n : Nat) (s : State) : State :=
  let s := bump (ctr 0x0010 9 n) (setB s (R.ITB_CTL n) F.ITB_CTL_STEPPED true)
  let s := tmNotice n 0x02 0 s
  if n = 0 then markStep s else s

/-- A domain takes BASE, ANCHOR and RATE in force. -/
def putVd (d base anchor rate : Nat) (s : State) : State :=
  let w := fun x k => (BitVec.ofNat 32 (x / 2 ^ (32 * k)) : Word)
  let s := setReg (setReg (setReg s (R.VD_BASE_LO d) (w base 0)) (R.VD_BASE_HI d) (w base 1)) (R.VD_BASE_TOP d)
    (BitVec.ofNat 32 (base / 2 ^ 64 % 65536))
  let s := setReg (setReg s (R.VD_ANCHOR_LO d) (w anchor 0)) (R.VD_ANCHOR_HI d) (w anchor 1)
  setReg (setReg s (R.VD_RATE_LO d) (w rate 0)) (R.VD_RATE_HI d) (BitVec.ofNat 32 (rate / 2 ^ 32 % 65536))

/-- A domain at an FCLK edge (R291): it follows its ITB where a commit took effect or FOLLOW asks for it, or takes its staged
values at a LOAD. -/
def vdEdge (changed : Nat → Bool) (d : Nat) (s : State) : State :=
  let g := getVd s d
  let ctl := getReg s (R.VD_CTL d)
  let m := F.VD_CTL_ITB.get ctl
  let s := if g.loadNext ∨ g.followNext then onVd d (fun g => { g with loadNext := false, followNext := false }) s else s
  if F.VD_CTL_FOLLOW.get ctl = 1 then
    if g.followNext ∨ changed m then putVd d (itbRead s m) s.time.ltick ((getItb s m).inc * 256) s else s
  else if g.loadNext then putVd d g.base g.anchor g.rate s
  else s

/-- An FCLK edge (R285 to R291): LTICK rises, each ITB accumulates with the commits that take effect, and domains reload. -/
def fclkEdge (s : State) : State :=
  if ¬clocked s then s
  else
    let moved := fun n => (getItb s n).pendInc.isSome || (getItb s n).pendStep.isSome
    let stepped := [0, 1, 2, 3].filter (fun n => (getItb s n).pendStep.isSome)
    let s := onTime (fun t => { t with
      ltick := (t.ltick + 1) % 2 ^ 64,
      itb := [0, 1, 2, 3].foldl (fun u n => tabSet (fun _ => Itb.reset) u n (itbEdge ((s.time.ltick + 1) % 2 ^ 64) (tabGet (fun _ => Itb.reset) t.itb n))) t.itb }) s
    let s := stepped.foldl (fun s n => noteStep n s) s
    (List.range 16).foldl (fun s d => vdEdge moved d s) s

end Sys2Proof.Machine
end

