-- ==== Sys2Proof/Machine/NetTime.lean ====
section
/-! DEFINITION. Network time (R292 to R299): beacons, delay probes and replies, the choice of a parent, and the firmware's
servo. Counters of CAP 0x0010: 0 to 5 beacons, probes and replies, sent and received per port; 8 parent changes. -/

namespace Sys2Proof.Machine

/-- The reading of a ring postmark in ITBn (R295), in 2^-16 ns: the base at PH * 100 ps after the FCLK edge of its LTICK, moved by the delay `dly` in
ps (R286). -/
def ringReadingIn (s : State) (n : Nat) (m : RingMark) (dly : Int) : Nat :=
  let age := (s.time.ltick + 2 ^ 64 - m.tick) % 2 ^ 64
  itbAt s n (fclkNow s - ((3200 * age : Nat) : Int) + ((100 * m.ph : Nat) : Int) + dly)

/-- A receive reading of ITBn on port p: PT_DLY_RX is subtracted (R256). -/
def rxReadingIn (s : State) (n p : Nat) (m : RingMark) : Nat :=
  ringReadingIn s n m (-((getF s (R.PT_DLY_RX p) F.PT_DLY_RX_PS : Nat) : Int))

/-- The ITB0 reading at which an envelope was received at port p (R295). -/
def rxReading (s : State) (p : Nat) (m : RingMark) : Nat := rxReadingIn s 0 p m

/-- A transmit reading of ITBn on port p: PT_DLY_TX is added (R256). -/
def txReadingIn (s : State) (n p : Nat) (m : RingMark) : Nat :=
  ringReadingIn s n m ((getF s (R.PT_DLY_TX p) F.PT_DLY_TX_PS : Nat) : Int)

/-- The ITB0 reading at which an envelope left port p (R295). -/
def txReading (s : State) (p : Nat) (m : RingMark) : Nat := txReadingIn s 0 p m

/-- The time unit sends on port p (R292). -/
def timeSends (s : State) (p : Nat) : Bool :=
  !quarantined s && portUp s p && getB s (R.RT_NBR p) F.RT_NBR_VALID && (p < 2 || getB s R.TM_CTL F.TM_CTL_TIE_EN)

/-- The neighbour's address on port p: the own ring with its index; over TIE a junction's peer, or the pair's own address
(R292, R299). -/
def neighbourAddr (s : State) (p : Nat) : Nat :=
  let idx := getF s (R.RT_NBR p) F.RT_NBR_INDEX
  if p < 2 then ringId s * 4096 + idx
  else if getB s R.DPX_CTL F.DPX_CTL_EN then nodeAddr s
  else ((heardOn s p).map (fun h => h.ring)).getD 0 * 4096 + idx

/-- A time envelope leaves by port p: Scheduled, HOPS 1 (R292). -/
def sendTime (p : Nat) (kind : BitVec 5) (payload : List DWord) (s : State) : State :=
  (sendOnPort 5 p (build s 0 kind false (neighbourAddr s p) 1 payload) s).1

/-- A 64-bit word from fields, each with its lowest bit. -/
def packed (fs : List (Nat × Nat)) : DWord := BitVec.ofNat 64 ((fs.map (fun f => f.2 * 2 ^ f.1)).sum)

/-- BPER, 0 treated as 1. -/
def beaconPeriod (s : State) : Nat := max 1 (getF s R.TM_CFG F.TM_CFG_BPER)

/-- The port of the parent; 3 for none. -/
def parentPort (s : State) : Nat := getF s R.TM_STAT F.TM_STAT_PARENT

/-- The hub is its own grandmaster: no parent, and STEPS 0 (R296). -/
def ownMaster (s : State) : Bool := parentPort s = 3 && getF s R.TM_STAT F.TM_STAT_STEPS = 0

/-- The payload of a beacon on port p (R293, R296). -/
def beaconWords (s : State) (p : Nat) : List DWord :=
  let n := getNet s p
  let own := ownMaster s
  let par := parentPort s
  let pkey := if par = 3 then 0 else getF s (R.TM_P_GM par) F.TM_P_GM_KEY
  let tx := n.bcnTx.getD 0
  [packed [(0, getF s R.TM_GM F.TM_GM_GPRI), (8, getF s R.TM_STAT F.TM_STAT_STEPS), (24, getF s R.TM_GM F.TM_GM_GMID),
      (40, n.bcnSeq), (56, if own then 1 else getF s R.TM_CTL F.TM_CTL_SYNCED), (57, bit1 own), (58, bit1 n.bcnTx.isSome),
      (59, bit1 n.steppedTx)],
    BitVec.ofNat 64 (tx / 2 ^ 16),
    packed [(0, tx % 2 ^ 16), (16, position s), (32, pkey), (45, bit1 (decide (par ≠ 3)))]]

/-- BEACON_SEND (R292, R293): a beacon goes to port p; its transmit reading, once it has started, goes into the next one. -/
def execBeaconSend (p : Fin 3) (s : State) : Host.Outcome State Fault Refusal :=
  if ¬timeSends s p then .next s
  else
    let s := bump (ctr 0x0010 0 p) (sendTime p kBeacon (beaconWords s p) s)
    .next (onNet p (fun n => { n with bcnSeq := (n.bcnSeq + 1) % 65536, bcnTx := none }) s)

/-- DELAY_PROBE_SEND (R292, R294): a probe goes to port p; its transmit reading is kept once it has started. -/
def execDelayProbeSend (p : Fin 3) (s : State) : Host.Outcome State Fault Refusal :=
  if ¬timeSends s p then .next s
  else
    let q := (getNet s p).probeSeq
    let s := bump (ctr 0x0010 1 p) (sendTime p kDelayProbe [packed [(0, q), (16, position s)]] s)
    .next (onNet p (fun n => { n with probeSeq := (q + 1) % 65536 }) s)

/-- Bits of payload word w of an envelope. -/
def wordBits (e : Envelope) (w lo n : Nat) : Nat := bitsOf (payloadWord e w).toNat lo n

/-- The time unit takes an envelope of one kind with its ring postmark: the one handed over with it, or the operands' where the row stands for
the arrival too (R255). One that has another number of words than its format is discarded. -/
def timeGuard (kind : BitVec 5) (words age ph : Nat) (e : Envelope) (f : RingMark → Envelope → State → State) (s : State) :
    Host.Outcome State Fault Refusal :=
  let e := asKind kind e
  let mark := (deliveredMark s e).getD (markAt s age ph)
  let s := takeDelivered e s
  .next (if e.payload.length ≠ words then s else f mark e s)

/-- The time unit on the start of an envelope of its own on port p (R254, R255, R293 to R295): the transmit reading of a beacon and of a probe,
and the TURN of a reply. -/
def timeStarted (p : Nat) (e : Envelope) (m : RingMark) (s : State) : State :=
  let tx := txReading s p m
  let n := getNet s p
  if e.kind = kBeacon then
    if (wordBits e 0 40 16 + 1) % 65536 = n.bcnSeq then onNet p (fun n => { n with bcnTx := some tx, steppedTx := false }) s else s
  else if e.kind = kDelayProbe then onNet p (fun n => { n with t1 := ((wordBits e 0 0 16, tx) :: n.t1).take 4 }) s
  else if e.kind = kDelayReply then
    match n.turnRx with
    | some (q, rx) =>
      if q = wordBits e 0 0 16 then onNet p (fun n => { n with turn := some (q, wrap 64 ((tx : Int) - (rx : Int))), turnRx := none }) s else s
    | none => s
  else s

/-- A received probe is answered out of its arrival port (R294); TURN is that of the probe answered before. -/
def answerProbe (p : Nat) (m : RingMark) (e : Envelope) (s : State) : State :=
  let s := bump (ctr 0x0010 4 p) s
  if ¬timeSends s p then s
  else
    let q := wordBits e 0 0 16
    let prev := (getNet s p).turn
    let rx := rxReading s p m
    let pseq := (prev.map (fun x => x.1)).getD 0
    let turn := (prev.map (fun x => x.2)).getD 0
    let words := [packed [(0, q), (16, pseq), (32, position s), (45, bit1 prev.isSome)], BitVec.ofNat 64 turn]
    onNet p (fun n => { n with turnRx := some (q, rx) }) (bump (ctr 0x0010 2 p) (sendTime p kDelayReply words s))

/-- DELAY_PROBE (R294). -/
def execDelayProbe (p : Fin 3) (e : Envelope) (age : Nat) (ph : Fin 32) (s : State) : Host.Outcome State Fault Refusal :=
  timeGuard kDelayProbe 1 age ph e (answerProbe p) s

/-- The reading that a list keeps for a sequence number. -/
def readingOf (l : List (Nat × Nat)) (q : Nat) : Option Nat := (l.find? (fun x => x.1 = q)).map (fun x => x.2)

/-- The mean path delay in ps from t1, t4 and TURN in 2^-16 ns (R295). -/
def meanDelay (t1 t4 turn : Nat) : Word :=
  BitVec.ofInt 32 ((signed 80 (t4 + 2 ^ 80 - t1) - signed 64 turn) * 1000 / (2 * 65536))

/-- A received reply gives the mean path delay of the probe that the previous reply answered (R295). -/
def takeReply (p : Nat) (m : RingMark) (e : Envelope) (s : State) : State :=
  let s := bump (ctr 0x0010 5 p) s
  let n := getNet s p
  let pseq := wordBits e 0 16 16
  let rx := rxReading s p m
  let s :=
    match readingOf n.t1 pseq, readingOf n.t4 pseq with
    | some t1, some t4 =>
      if wordBits e 0 45 1 = 1 then setReg s (R.TM_P_MPD p) (meanDelay t1 t4 (payloadWord e 1).toNat) else s
    | _, _ => s
  onNet p (fun n => { n with t4 := ((wordBits e 0 0 16, rx) :: n.t4).take 4 }) s

/-- DELAY_REPLY (R295). -/
def execDelayReply (p : Fin 3) (e : Envelope) (age : Nat) (ph : Fin 32) (s : State) : Host.Outcome State Fault Refusal :=
  timeGuard kDelayReply 2 age ph e (takeReply p) s

/-! The choice of a parent (R296, R297). -/

/-- The latest beacon on port p is eligible (R296): four beacon periods are 1,250 * 4 / 4 ticks of 3.2 ns for each µs. -/
def beaconEligible (s : State) (p : Nat) : Bool :=
  let n := getNet s p
  let b := R.TM_P_BCN p
  n.rx.isSome && (s.time.ltick + 2 ^ 64 - n.rxTick) % 2 ^ 64 ≤ 1250 * beaconPeriod s && getF s b F.TM_P_BCN_STEPS < 0xFFFF &&
  (getB s b F.TM_P_BCN_VALID || getB s b F.TM_P_BCN_GM) && n.pkey ≠ some (position s)

/-- A candidate (R296): its grandmaster's priority and address, its STEPS + 1, and its port (3 for the hub itself). -/
structure Candidate where
  gpri : Nat
  gmid : Nat
  steps : Nat
  port : Nat
deriving DecidableEq, Repr

/-- The candidate of port p. -/
def portCandidate (s : State) (p : Nat) : Candidate :=
  { gpri := getF s (R.TM_P_BCN p) F.TM_P_BCN_GPRI, gmid := getF s (R.TM_P_GM p) F.TM_P_GM_GMID,
    steps := getF s (R.TM_P_BCN p) F.TM_P_BCN_STEPS + 1, port := p }

/-- The hub itself as a candidate with STEPS -1. -/
def selfCandidate (s : State) : Candidate := { gpri := getF s R.TM_CFG F.TM_CFG_GPRI, gmid := nodeAddr s, steps := 0, port := 3 }

/-- A candidate is better: lower GPRI, then GMID, then STEPS. -/
def better (a b : Candidate) : Bool :=
  a.gpri < b.gpri || (a.gpri = b.gpri && (a.gmid < b.gmid || (a.gmid = b.gmid && a.steps < b.steps)))

/-- The candidates in port order, the hub itself first. -/
def candidates (s : State) : List Candidate :=
  (if getB s R.TM_CTL F.TM_CTL_GM then [selfCandidate s] else []) ++
  ([0, 1, 2].filter (fun p => beaconEligible s p)).map (portCandidate s)

/-- The best candidate; among equals the first in port order. -/
def bestCandidate : List Candidate → Option Candidate
  | [] => none
  | c :: cs =>
    match bestCandidate cs with
    | none => some c
    | some d => if better d c then some d else some c

/-- The present parent as a candidate, while it is eligible. -/
def presentParent (s : State) : Option Candidate :=
  if ownMaster s then (candidates s).find? (fun c => c.port = 3)
  else if parentPort s = 3 then none
  else (candidates s).find? (fun c => c.port = parentPort s)

/-- The candidate that R296 picks: the present parent unless another is strictly better. -/
def chosenParent (s : State) : Option Candidate :=
  match presentParent s, bestCandidate (candidates s) with
  | some c, some b => if better b c then some b else some c
  | none, b => b
  | c, none => c

/-- A candidate's values become those the hub follows, with the notices of a new parent and a new grandmaster (R296, R314). -/
def followParent (c : Candidate) (s : State) : State :=
  let newPort := c.port ≠ parentPort s ∨ (c.port = 3 ∧ ¬ownMaster s)
  let newGm := c.gmid ≠ getF s R.TM_GM F.TM_GM_GMID
  let s := setF (setF s R.TM_STAT F.TM_STAT_PARENT c.port) R.TM_STAT F.TM_STAT_STEPS c.steps
  let s := setF (setF s R.TM_GM F.TM_GM_GMID c.gmid) R.TM_GM F.TM_GM_GPRI c.gpri
  let s := if newPort then tmNotice c.port 0x01 c.port (bump (ctr 0x0010 8 0) s) else s
  if newGm then tmNotice c.port 0x03 c.gmid s else s

/-- The parent is lost: SYNCED clears, and ITB0 runs on (R297). A hub that stops being its own grandmaster has no STEPS. -/
def loseParent (s : State) : State :=
  let p := parentPort s
  if p = 3 then (if ownMaster s then setF s R.TM_STAT F.TM_STAT_STEPS 0xFFFF else s)
  else
    let s := setB s R.TM_CTL F.TM_CTL_SYNCED false
    tmNotice p 0x81 p (bump (ctr 0x0010 8 0) (setF s R.TM_STAT F.TM_STAT_PARENT 3))

/-- Parent selection (R296, R297), with the ELIG bits. -/
def judgeParents (s : State) : State :=
  let s := [0, 1, 2].foldl (fun s p => setB s (R.TM_P_BCN p) F.TM_P_BCN_ELIG (beaconEligible s p)) s
  if quarantined s then s
  else
    match chosenParent s with
    | some c => followParent c s
    | none => loseParent s

/-- PARENT_LOST (R297). -/
def execParentLost (s : State) : Host.Outcome State Fault Refusal := .next (judgeParents s)

/-! Samples and the servo (R295, R298). -/

/-- The offset of a beacon's predecessor (R295), in 2^-16 ns: R - (PTX + MPD - PT_ASYM / 2). -/
def sampleOffset (r ptx : Nat) (mpd asym : Int) : Int := signed 80 (r + 2 ^ 80 - ptx) - (2 * mpd - asym) * 65536 / 2000

/-- The sum of a fraction and a / d. -/
def addFraction (v : Servo) (a : Int) (d : Nat) : Servo :=
  if v.den = d then { v with num := v.num + a } else { v with num := v.num * (d : Int) + a * (v.den : Int), den := v.den * d }

/-- The servo's INC (R298): INC_NOM * (1 - KP * r - KI * integ), with r = ofs / (65536 * BPER * 1000). The rounding to a
whole unit is left open: the lower neighbour or the one above. -/
def servoInc (s : State) (ofs : Int) (d : Nat) (v : Servo) (up : Bool) : Nat :=
  let kp : Int := ((getF s R.TM_SERVO F.TM_SERVO_KP : Nat) : Int)
  let ki : Int := ((getF s R.TM_SERVO F.TM_SERVO_KI : Nat) : Int)
  let den : Int := ((256 * d * v.den : Nat) : Int)
  let num : Int := (incNominal : Int) * (den - kp * ofs * (v.den : Int) - ki * v.num * (d : Int))
  (num / den + (if up ∧ num % den ≠ 0 then 1 else 0)).toNat

/-- The firmware's servo at a parent sample (R298); ofs in 2^-16 ns. -/
def servoSample (ofs : Int) (stepped : Bool) (s : State) : State :=
  let far : Bool := decide ((1000 * 65536 : Nat) < ofs.natAbs)
  if stepped then s
  else if ¬getB s R.TM_CTL F.TM_CTL_SYNCED ∧ far then
    let s := applyStep 0 false (wrap 80 (-ofs)) s
    onTime (fun t => { t with servo := { num := 0, den := 1, good := 0 } }) s
  else
    let d := 65536 * 1000 * beaconPeriod s
    let v := addFraction s.time.servo ofs d
    let (up, s) := fresh 1 s
    let s := applyInc 0 (servoInc s ofs d v (up = 1)) s
    let good := if ofs.natAbs < 100 * 65536 then v.good + 1 else 0
    let s := onTime (fun t => { t with servo := { v with good := good } }) s
    let s := if 16 ≤ good then setB s R.TM_CTL F.TM_CTL_SYNCED true else s
    if far then setB s R.TM_CTL F.TM_CTL_SYNCED false else s

/-- The sample that a beacon gives, with the mark of a step between its readings. -/
def beaconSample (s : State) (p : Nat) (e : Envelope) : Option (Int × Bool) :=
  let n := getNet s p
  match n.rx with
  | some (q, r) =>
    if wordBits e 0 58 1 = 1 ∧ (q + 1) % 65536 = wordBits e 0 40 16 then
      let ptx := (payloadWord e 1).toNat * 2 ^ 16 + wordBits e 2 0 16
      let asym := signed 32 (getReg s (R.PT_ASYM p)).toNat
      some (sampleOffset r ptx (signed 32 (getReg s (R.TM_P_MPD p)).toNat) asym, n.steppedRx || decide (wordBits e 0 59 1 = 1))
    else none
  | none => none

/-- The registers and the port's record take a beacon's contents (R296). -/
def storeBeacon (p : Nat) (m : RingMark) (e : Envelope) (s : State) : State :=
  let b := R.TM_P_BCN p
  let s := setF (setF s b F.TM_P_BCN_STEPS (wordBits e 0 8 16)) b F.TM_P_BCN_GPRI (wordBits e 0 0 8)
  let s := setF (setF s b F.TM_P_BCN_VALID (wordBits e 0 56 1)) b F.TM_P_BCN_GM (wordBits e 0 57 1)
  let s := setF (setF s (R.TM_P_GM p) F.TM_P_GM_GMID (wordBits e 0 24 16)) (R.TM_P_GM p) F.TM_P_GM_KEY (wordBits e 2 16 13)
  let r := rxReading s p m
  let pk := if wordBits e 2 45 1 = 1 then some (wordBits e 2 32 13) else none
  onNet p (fun n => { n with rx := some (wordBits e 0 40 16, r), rxTick := s.time.ltick, pkey := pk, steppedRx := false }) s

/-- A beacon is received on port p: its sample, the choice of a parent, and the parent's sample to the servo (R295 to R298). -/
def takeBeacon (p : Nat) (m : RingMark) (e : Envelope) (s : State) : State :=
  let sample := beaconSample s p e
  let q := (wordBits e 0 40 16 + 65535) % 65536
  let s := storeBeacon p m e (bump (ctr 0x0010 3 p) s)
  let s :=
    match sample with
    | some (ofs, stepped) =>
      let w : DWord := BitVec.ofInt 64 ofs
      let s := setReg (setReg s (R.TM_P_OFS_LO p) (lo32 w)) (R.TM_P_OFS_HI p) (hi32 w)
      setB (setF s (R.TM_P_SEQ p) F.TM_P_SEQ_SEQ q) (R.TM_P_SEQ p) F.TM_P_SEQ_STEPPED stepped
    | none => s
  let s := judgeParents s
  match sample with
  | some (ofs, stepped) =>
    if parentPort s = p then
      let s := post (getF s R.TM_CTL F.TM_CTL_NTC_Q) 0x0010 p 0x41 q s
      if getB s R.TM_CTL F.TM_CTL_HOST then s else servoSample ofs stepped s
    else s
  | none => s

/-- BEACON (R295 to R298). A hub that is not admitted follows no parent (R292). -/
def execBeacon (p : Fin 3) (e : Envelope) (age : Nat) (ph : Fin 32) (s : State) : Host.Outcome State Fault Refusal :=
  timeGuard kBeacon 3 age ph e (takeBeacon p) s

/-- A write of TM_CTL or TM_CFG: the choice of R296 follows it. -/
def writeTm (a : Nat) (v : Word) (s : State) : State := judgeParents (plainWrite a v s)

end Sys2Proof.Machine
end

