-- ==== Sys2Proof/Machine/TrackCore.lean ====
section
/-! DEFINITION. Tracks (R315 to R322), captures (R329, R330), and the waymark scheduler's judging of entries (R331 to R341):
positions, velocities, states, crossings and outcomes. Counters of CAP 0x0011: 0 steps, 1 saturated differences, 2 to 4 samples
sent, accepted and discarded, 5 unmatched, 6 publication refusals, 7 captures, 8 capture-arm refusals, 9 judged jumps; of CAP
0x0012: 0 crossings, 1 firings, 2 late, 3 misses, 4 discards, 5 bad, 6 skew, 7 skipped periods, 8 PINREF pins, 9 pulse and 10
emit losses, 11 capture records and 12 losses. -/

namespace Sys2Proof.Machine

/-- A list with an element put before the first one that it does not follow. -/
def insertBy {α : Type} (le : α → α → Bool) (x : α) : List α → List α
  | [] => [x]
  | y :: ys => if le x y then x :: y :: ys else y :: insertBy le x ys

/-- A list in order, equal elements as they stood. -/
def sortBy {α : Type} (le : α → α → Bool) : List α → List α
  | [] => []
  | x :: xs => insertBy le x (sortBy le xs)

/-- The timetable after a change. -/
def onTt (f : TtState → TtState) (s : State) : State := { s with tt := f s.tt }

/-- Track n. -/
def getTrack (s : State) (n : Nat) : Track := tabGet (fun _ => Track.reset) s.tracks.tracks n

/-- The track and waymark state after a change. -/
def onTracks (f : TrackState → TrackState) (s : State) : State := { s with tracks := f s.tracks }

/-- The state after track n is changed. -/
def onTrack (n : Nat) (f : Track → Track) (s : State) : State :=
  onTracks (fun x => { x with tracks := tabSet (fun _ => Track.reset) x.tracks n (f (tabGet (fun _ => Track.reset) x.tracks n)) }) s

/-! Sources (R316). -/

/-- The source in force: a SEL outside its range selects NONE, and so does SRC 7. -/
def trackSrc (s : State) (n : Nat) : Nat :=
  let src := getF s (R.TK_CFG n) F.TK_CFG_SRC
  let sel := getF s (R.TK_CFG n) F.TK_CFG_SEL
  let range := if src = 1 then 16 else if src = 2 then 2 else if src = 3 then 512 else if src = 4 then 20
    else if src = 5 then 64 else if src = 6 then 512 else 0
  if sel < range then src else 0

/-- SEL. -/
def trackSel (s : State) (n : Nat) : Nat := getF s (R.TK_CFG n) F.TK_CFG_SEL

/-- The source is absolute. -/
def isAbsolute (s : State) (n : Nat) : Bool := trackSrc s n = 2 || trackSrc s n = 4
/-- The source is another node's track. -/
def isRemote (s : State) (n : Nat) : Bool := trackSrc s n = 3
/-- The track moves by steps only, or not at all. -/
def isIncremental (s : State) (n : Nat) : Bool := !isAbsolute s n && !isRemote s n

/-- FRESH in ticks of 3.2 ns, doubled: 625 half ticks for each µs; 0 is treated as 1 µs. -/
def freshTicks2 (s : State) (n : Nat) : Nat := 625 * max 1 (getF s (R.TK_RCFG n) F.TK_RCFG_FRESH)

/-- The partner's value and state of a mains-phase input that a standby uses (R362). -/
def partnerMains (s : State) (i : Nat) : Option (Nat × Nat) :=
  if followsPartner s then tabGet (fun _ => none) s.duplex.mp i else none

/-- The state that a mains-phase input reports to its tracks. -/
def mainsState (s : State) (i : Nat) : Nat :=
  match partnerMains s i with
  | some x => x.2
  | none => getF s (R.MP_FREQ i) F.MP_FREQ_STATE

/-- A local source is valid (R316). -/
def sourceValid (s : State) (n : Nat) : Bool :=
  let sel := trackSel s n
  let src := trackSrc s n
  if src = 1 then getB s (R.EN_CTL sel) F.EN_CTL_EN && !getB s (R.BANK_STAT sel) F.BANK_STAT_VFAULT && !inUnitReset s 0x0006 sel
  else if src = 2 then 2 ≤ mainsState s sel
  else if src = 4 then true
  else if src = 5 then
    let st := getF s (R.SCR_ESTAT (sel / 4) (sel % 4)) F.SCR_ESTAT_STATE
    st = 1 || st = 2
  else if src = 6 then
    let a := R.GW_MAP_A sel
    let st := getF s (R.MB_STAT (getF s a F.GW_MAP_A_CTRL)) F.MB_STAT_STATE
    getB s a F.GW_MAP_A_EN && getB s R.GW_CTL F.GW_CTL_EN && !getB s a F.GW_MAP_A_DIR && (st = 1 || st = 2) &&
    (match tabGet (fun _ => none) s.tracks.busWritten sel with
      | some l => 2 * ticksSince s l ≤ freshTicks2 s n
      | none => false)
  else false

/-! Positions and velocities (R317 to R319, R327). -/

/-- Mains input i: its phase in 2^-48 cycle and its whole cycles at the present edge (R137 to R140). The frequency word is
MP_FREQ, in 2^-16 Hz, over the UCLK edges since the phase was last set. -/
def mainsNow (s : State) (i : Nat) : Nat × Nat :=
  let m := tabGet (fun _ => Mains.reset) s.field.mains i
  let edges := uclkEdges s.time.ltick - uclkEdges m.at0
  let adv := if getF s (R.MP_FREQ i) F.MP_FREQ_STATE = 0 then 0
    else getF s (R.MP_FREQ i) F.MP_FREQ_FREQ * 2 ^ 32 * 4 * edges / 1000000000
  let total := m.phase + adv
  (total % 2 ^ 48, (m.cyc + total / 2 ^ 48) % 2 ^ 32)

/-- The value that a track reads from a mains-phase input, in 2^-16 cycle (R140, R362). -/
def mainsValue (s : State) (i : Nat) : Nat :=
  match partnerMains s i with
  | some x => x.1
  | none =>
    let (ph, cyc) := mainsNow s i
    (cyc * 2 ^ 16 + ph / 2 ^ 32) % 2 ^ 48

/-- The value of an absolute source at the present UCLK edge as a 48.16 position (R315, R318). -/
def absolutePos (s : State) (n : Nat) : Nat :=
  let sel := trackSel s n
  if trackSrc s n = 2 then
    mainsValue s sel * 2 ^ 16
  else if sel < 16 then (pmVd s sel).toNat else (pmItb s (sel - 16)).toNat

/-- ITB0 at the present UCLK edge, as a short postmark holds it (R286, R315). -/
def now64 (s : State) : Nat := (pmItb s 0).toNat

/-- A sample's position at an instant: POS + VEL * (t - T), truncated to 2^-16 units (R327). -/
def extrapolate (x : Nat × Nat × Nat) (t : Nat) : Nat :=
  wrap 64 (signed 64 x.1 + signed 64 x.2.1 * signed 64 (t + 2 ^ 64 - x.2.2) / ((2 ^ 48 : Nat) : Int))

/-- The position that the source gives now. -/
def livePos (s : State) (n : Nat) : Nat :=
  let t := getTrack s n
  if isAbsolute s n then absolutePos s n
  else if isRemote s n then (t.sample.map (fun x => extrapolate x (now64 s))).getD t.pos
  else t.pos

/-- TK_STAT.STATE: 0 LIVE, 1 COAST, 2 STALE, 3 HELD. -/
def trackState (s : State) (n : Nat) : Nat := getF s (R.TK_STAT n) F.TK_STAT_STATE

/-- The track follows its source or extrapolates: LIVE or COAST. -/
def moving (s : State) (n : Nat) : Bool := trackState s n < 2

/-- The track's position (R322). -/
def trackPos (s : State) (n : Nat) : Nat := if moving s n then livePos s n else (getTrack s n).pos

/-- A magnitude limit on a signed value. -/
def limitTo (m : Nat) (v : Int) : Int := if v > (m : Int) then (m : Int) else if v < -(m : Int) then -(m : Int) else v

/-- The track's velocity at the present edge, 16.48 (R319). -/
def trackVel (s : State) (n : Nat) : Int :=
  let t := getTrack s n
  let sel := trackSel s n
  let inc0 := (getItb s 0).inc
  if trackSrc s n = 2 then (((getF s (R.MP_FREQ sel) F.MP_FREQ_FREQ * 2 ^ 48 / 1000000000 : Nat)) : Int)
  else if trackSrc s n = 4 then
    (((if sel < 16 then vdRate s sel * 2 ^ 40 / inc0 else (getItb s (sel - 16)).inc * 2 ^ 48 / inc0 : Nat)) : Int)
  else if isRemote s n then signed 64 ((t.sample.map (fun x => x.2.1)).getD 0)
  else
    let dt := signed 64 (now64 s + 2 ^ 64 - t.t % 2 ^ 64)
    let v := signed 64 t.vel
    if dt ≤ 0 then v else limitTo (t.lastStep * 2 ^ 48 / dt.toNat) v

/-- The window's velocity after a step (R319): 0 before the track has 2^VWIN + 1 steps; a value that the spec does not state
where the two instants do not rise or the quotient leaves the format. -/
def windowVel (w : List (Nat × Nat)) (k : Nat) (s : State) : Nat × State :=
  match w[0]?, w[k]? with
  | some (p, t), some (p0, t0) =>
    let dp := signed 64 (p + 2 ^ 64 - p0)
    let dt := signed 64 (t % 2 ^ 64 + 2 ^ 64 - t0 % 2 ^ 64)
    let v := dp * ((2 ^ 48 : Nat) : Int) / dt
    if dt ≤ 0 ∨ v ≥ ((2 ^ 63 : Nat) : Int) ∨ v < -((2 ^ 63 : Nat) : Int) then
      let (x, s) := fresh 64 s
      (x.toNat, s)
    else (wrap 64 v, s)
  | _, _ => (0, s)

/-- A step of an incremental track at an ITB0 instant (R317, R319): d source units, scaled. A track that is not LIVE loses it
(R322). -/
def stepTrack (n : Nat) (d : Int) (instant : Nat) (s : State) : State :=
  if ¬moving s n then s
  else
    let t := getTrack s n
    let dp := d * signed 32 (getReg s (R.TK_SCALE n)).toNat
    let p := wrap 64 (signed 64 t.pos + dp)
    let w := ((p, instant) :: t.window).take 129
    let (v, s) := windowVel w (2 ^ getF s (R.TK_CFG n) F.TK_CFG_VWIN) s
    bump (ctr 0x0011 0 n) (onTrack n (fun t => { t with pos := p, t := instant, window := w, vel := v, lastStep := dp.natAbs }) s)

/-- A change of a raw source value reaches every track that follows it (R317). -/
def feedTracks (src sel : Nat) (d : Int) (instant : Nat) (s : State) : State :=
  (List.range 16).foldl (fun s n => if trackSrc s n = src ∧ trackSel s n = sel then stepTrack n d instant s else s) s

/-- A converted value of a bus field of IW bytes reaches its tracks: the difference modulo 2^(8 * IW), signed and saturated
(R317). -/
def feedField (entry iw value : Nat) (instant : Nat) (s : State) : State :=
  let s := onTracks (fun x => { x with busWritten := tabSet (fun _ => none) x.busWritten entry (some s.time.ltick) }) s
  (List.range 16).foldl (fun s n =>
    if trackSrc s n = 6 ∧ trackSel s n = entry then
      let old := (getTrack s n).raw
      let s := onTrack n (fun t => { t with raw := some value }) s
      match old with
      | none => s
      | some o =>
        let d := signed (8 * iw) (value + 2 ^ (8 * iw) - o % 2 ^ (8 * iw))
        let c := limitTo (2 ^ 31 - 1) d
        let s := if c = d then s else bump (ctr 0x0011 1 n) s
        if d = 0 then s else stepTrack n c instant s
    else s) s

/-! Waymark entries (R331 to R333). -/

/-- Where word w of entry i lies in the waymark RAM. -/
def wmAddr (i w : Nat) : Nat := 0x300000 + 32 * i + 4 * w

/-- Word w of entry i. -/
def wmWord (s : State) (i w : Nat) : Nat := (getMem32 s (wmAddr i w)).toNat

/-- A master wrote word w of entry i in the present UCLK cycle (R331). -/
def wmHeld (s : State) (i w : Nat) : Bool :=
  s.tracks.stored.1 = uclkEdges s.time.ltick && decide (8 * i + w ∈ s.tracks.stored.2)

/-- A hub write of one word of an entry: a master's write of the word in the same UCLK cycle stands (R331), and a poisoned doubleword
stays poisoned (R395). -/
def wmPut (i w v : Nat) (s : State) : State :=
  if wmHeld s i w then s
  else wordPoison (wmAddr i w) (wmAddr i w) false false (setMem32 s (wmAddr i w) (BitVec.ofNat 32 v))

/-- A hub write of an entry's mark: a whole doubleword, but for a word that a master wrote in the same UCLK cycle. -/
def wmPutPos (i pos : Nat) (s : State) : State :=
  if wmHeld s i 0 ∨ wmHeld s i 1 then wmPut i 1 (pos / 2 ^ 32 % 2 ^ 32) (wmPut i 0 (pos % 2 ^ 32) s)
  else setPoison (setMem64 s (wmAddr i 0) (BitVec.ofNat 64 pos)) (wmAddr i 0) false

/-- A master's write of bytes of the waymark RAM stands over the hub's writes of the same UCLK cycle (R331). -/
def noteStored (a len : Nat) (s : State) : State :=
  if a < 0x300000 ∨ 0x320000 ≤ a then s
  else
    let now := uclkEdges s.time.ltick
    let ws := ((List.range 3).map (fun k => (a - 0x300000) / 4 + k)).filter (fun w => 4 * w < a - 0x300000 + len)
    onTracks (fun x => { x with stored := (now, ws ++ (if x.stored.1 = now then x.stored.2 else [])) }) s

/-- The scheduler's copy of entry i, while it is armed. -/
def getEntry (s : State) (i : Nat) : Option WmEntry := tabGet (fun _ => none) s.tracks.entries i

/-- The state after the scheduler's copy of entry i is replaced. -/
def setEntry (i : Nat) (e : Option WmEntry) (s : State) : State :=
  onTracks (fun x => { x with entries := tabSet (fun _ => none) x.entries i e }) s

/-- CTL fields (R332). -/
def wmTrack (c : Nat) : Nat := bitsOf c 1 4
/-- KIND. -/
def wmKind (c : Nat) : Nat := bitsOf c 5 3
/-- DIR: 0 forward, 1 backward, 2 either. -/
def wmDir (c : Nat) : Nat := bitsOf c 8 2
/-- STP. -/
def wmStp (c : Nat) : Nat := bitsOf c 10 2
/-- LATEW. -/
def wmLatew (c : Nat) : Nat := bitsOf c 12 4
/-- PERIODIC. -/
def wmPeriodic (c : Nat) : Bool := bitOf c 16
/-- LEAD, in µs. -/
def wmLead (c : Nat) : Nat := bitsOf c 18 14

/-- The hub disarms an entry: EN is cleared, and the scheduler's copy goes at once. -/
def wmDisarm (i : Nat) (s : State) : State :=
  let w := wmWord s i 2
  setEntry i none (wmPut i 2 (w - w % 2) s)

/-- Firing is enabled: service mode NORMAL and WM_CTL.EN (R342). -/
def firingOn (s : State) : Bool := serviceMode s = 1 && getB s R.WM_CTL F.WM_CTL_EN

/-- A notice of which at most 64 of a code are posted per millisecond (R351). -/
def postMany (q cap inst code arg : Nat) (s : State) : State :=
  if 64 ≤ (s.notices.posted.filter (fun x => x = (cap, 256, code))).length then s
  else
    let s := post q cap inst code arg s
    (onNotices (fun x => { x with posted := (cap, 256, code) :: x.posted }) s)

/-- The scheduler's notices (R351). -/
def wmNotice (track code arg : Nat) (s : State) : State := postMany (getF s R.WM_CTL F.WM_CTL_NTC_Q) 0x0012 track code arg s
/-- A track's notices (R351). -/
def tkNotice (n code arg : Nat) (s : State) : State := postMany (getF s (R.TK_CFG n) F.TK_CFG_NTC_Q) 0x0011 n code arg s

/-- The low 32 bits of a short postmark's nanoseconds. -/
def whenNs (pm : DWord) : Nat := pm.toNat / 2 ^ 16 % 2 ^ 32

/-- Words 6 and 7 after an outcome other than a firing: the outcome bits are replaced, COUNT, LATE and SKEW stay, and WHEN is
the instant given (R331). -/
def wmOutcome (i bit ns : Nat) (s : State) : State :=
  let w := wmWord s i 6
  let kept := w - bitsOf w 16 1 * 2 ^ 16 - bitsOf w 18 3 * 2 ^ 18 - bitsOf w 22 10 * 2 ^ 22
  wmPut i 7 (ns % 2 ^ 32) (wmPut i 6 (kept + 2 ^ bit) s)

/-- An entry is discarded by stale policy (R341). -/
def wmDiscard (i track : Nat) (s : State) : State :=
  let s := wmOutcome i 19 (whenNs (pmItb s 0)) s
  let s := bump (ctr 0x0012 4 0) (setB s R.WM_STAT F.WM_STAT_DISCARD true)
  wmDisarm i (wmNotice track 0x82 i s)

/-- d = P_lead - POS at the present edge, signed (R334). -/
def wmDiff (s : State) (e : WmEntry) : Int :=
  let n := wmTrack e.ctl
  let lead := trackVel s n * ((wmLead e.ctl * 1000 : Nat) : Int) / ((2 ^ 32 : Nat) : Int)
  signed 64 (wrap 64 (signed 64 (trackPos s n) + lead - signed 64 e.pos))

/-- The sign of a number. -/
def signOf (x : Int) : Int := if x > 0 then 1 else if x < 0 then -1 else 0

/-- The mark is passed in the entry's direction between two signs of d (R334); a reserved DIR is taken as either until the
action step finds it bad. -/
def crosses (dir : Nat) (prev d : Int) : Bool :=
  let fwd := prev < 0 && d ≥ 0
  let bwd := prev > 0 && d ≤ 0
  if dir = 0 then fwd else if dir = 1 then bwd else fwd || bwd

/-- A periodic entry's mark moves by PERIOD until it lies ahead again; each move beyond the first is a skipped period (R338). -/
def wmMove (i : Nat) (forward : Bool) (s : State) : State :=
  match getEntry s i with
  | none => s
  | some e =>
    let step : Nat := e.period * 2 ^ 8
    let d := wmDiff s e
    let ahead := if forward then d else -d
    let k := max 1 ((ahead / (step : Int)).toNat + 1)
    let pos := wrap 64 (signed 64 e.pos + (if forward then ((k * step : Nat) : Int) else -((k * step : Nat) : Int)))
    let e := { e with pos := pos, queued := false }
    let s := bumpN (ctr 0x0012 7 0) (k - 1) (wmPutPos i pos s)
    setEntry i (some { e with side := signOf (wmDiff s e) }) s

/-- A bad entry (R343): not performed, disarmed, BAD and BADENT set, counted and reported. -/
def wmBad (i track ns : Nat) (s : State) : State :=
  let s := wmOutcome i 20 ns s
  let s := bump (ctr 0x0012 5 0) (setB s R.WM_STAT F.WM_STAT_BADENT true)
  wmDisarm i (wmNotice track 0xC1 i s)

/-- A missed entry (R340): MISSED, counted, reported; a one-shot entry is disarmed, a periodic one moves its mark, and one with
PERIOD 0 is bad. -/
def wmMiss (i : Nat) (forward : Bool) (e : WmEntry) (s : State) : State :=
  let n := wmTrack e.ctl
  let s := wmOutcome i 18 (whenNs (pmItb s 0)) s
  let s := bump (ctr 0x0012 3 0) (setB s R.WM_STAT F.WM_STAT_MISSED true)
  let s := wmNotice n 0x81 i s
  if ¬wmPeriodic e.ctl then wmDisarm i s
  else if e.period = 0 then wmBad i n (whenNs (pmItb s 0)) s
  else wmMove i forward s

/-- A crossing enters the firing queue, or is missed when the queue is full (R336). -/
def wmEnqueue (i : Nat) (late forward : Bool) (e : WmEntry) (s : State) : State :=
  let n := wmTrack e.ctl
  let s := bump (ctr 0x0012 0 0) s
  if 64 ≤ s.tracks.queue.length then wmMiss i forward e s
  else
    let f : Firing := { entry := i, track := n, pm := pmItb s 0, pms := (List.range 16).map (fun d => pmVd s d),
                        tick := s.time.ltick, pos := trackPos s n, late := late, forward := forward }
    setEntry i (some { e with queued := true }) (onTracks (fun x => { x with queue := x.queue ++ [f] }) s)

/-- The lateness of a judged entry is within its window (R340): L = d / VEL against 2^(n-1) µs; 15 is unlimited. -/
def lateEnough (s : State) (forward : Bool) (d : Int) (e : WmEntry) : Bool :=
  let v := trackVel s (wmTrack e.ctl)
  let w := wmLatew e.ctl
  w = 15 || (w ≠ 0 && (if forward then decide (v > 0) else decide (v < 0)) &&
    d.natAbs * 2 ^ 32 ≤ 1000 * 2 ^ (w - 1) * v.natAbs)

/-- A judged entry fires late or is missed (R340). -/
def wmJudge (fromStale : Bool) (i : Nat) (forward : Bool) (d : Int) (e : WmEntry) (s : State) : State :=
  if (fromStale ∧ wmStp e.ctl = 1) ∨ lateEnough s forward d e then wmEnqueue i true forward e s else wmMiss i forward e s

/-- What an evaluation does with the marks that were passed. -/
inductive EvalMode where
  /-- Ordinary movement: a passed mark is a crossing (R334). -/
  | cross
  /-- A judged jump, with whether it is the return from STALE (R339, R340). -/
  | judged (fromStale : Bool)
  /-- A silent jump: every entry takes its side afresh (R320). -/
  | silent
deriving DecidableEq, Repr

/-- The armed entries of a track, in the order in which crossings at one edge enter: marks along the motion, then index
(R336). -/
def trackEntries (s : State) (n : Nat) : List (Nat × WmEntry) :=
  let es := s.tracks.entries.filterMap (fun x => x.2.map (fun e => (x.1, e)))
  let es := es.filter (fun x => wmTrack x.2.ctl = n && !x.2.queued)
  let key := fun (x : Nat × WmEntry) =>
    let d := wmDiff s x.2
    if x.2.side > 0 then d else -d
  sortBy (fun a b => key a < key b || (key a = key b && a.1 ≤ b.1)) es

/-- One entry at an evaluated edge of a LIVE or COAST track (R334, R335, R339). -/
def evalEntry (mode : EvalMode) (x : Nat × WmEntry) (s : State) : State :=
  let (i, e) := x
  let d := wmDiff s e
  let prev := e.side
  let dir := wmDir e.ctl
  let t := { e with side := signOf d, fresh := false }
  let s := setEntry i (some t) s
  if e.fresh then
    if (dir = 0 ∧ d ≥ 0) ∨ (dir = 1 ∧ d ≤ 0) then
      wmJudge (match mode with
        | .judged b => b
        | _ => false) i (decide (dir = 0)) d t s
    else s
  else if ¬crosses dir prev d then s
  else
    match mode with
    | .cross => wmEnqueue i false (decide (prev < 0)) t s
    | .judged b => wmJudge b i (decide (prev < 0)) d t s
    | .silent => s

/-- All armed entries of a track at the present edge. Sides are taken afresh at a silent jump in any state (R320); otherwise
nothing is evaluated while the track does not move or firing is suspended (R322, R342). -/
def evalTrack (mode : EvalMode) (n : Nat) (s : State) : State :=
  if mode = .silent then
    (trackEntries s n).foldl (fun s x =>
      if x.2.fresh then s else setEntry x.1 (some { x.2 with side := signOf (wmDiff s x.2) }) s) s
  else if moving s n ∧ firingOn s then (trackEntries s n).foldl (fun s x => evalEntry mode x s) s
  else s

/-! Track states (R321, R322). -/

/-- ITB0 is past the coast limit of the last accepted sample (R321). -/
def pastCoast (s : State) (n : Nat) : Bool :=
  let c := getF s (R.TK_RCFG n) F.TK_RCFG_COAST
  match (getTrack s n).sample with
  | some x => c ≠ 0 && decide (signed 64 (now64 s + 2 ^ 64 - x.2.2) > ((c * 1000 * 65536 : Nat) : Int))
  | none => false

/-- The state that R321's conditions give at the present edge. -/
def evalState (s : State) (n : Nat) : Nat :=
  let t := getTrack s n
  if getB s (R.TK_CTL n) F.TK_CTL_HOLD then 3
  else if ¬isRemote s n then (if sourceValid s n then 0 else 2)
  else if t.seqIn.isNone ∨ t.badSample ∨ t.sample.isNone ∨
      (¬getB s R.TM_CTL F.TM_CTL_SYNCED ∧ ¬getB s (R.TK_CFG n) F.TK_CFG_NOSYNC) then 2
  else if pastCoast s n then 2
  else if 2 * ticksSince s t.rxTick > freshTicks2 s n then (if getF s (R.TK_RCFG n) F.TK_RCFG_COAST = 0 then 2 else 1)
  else 0

/-- The position at which a track freezes (R322): where it is, or the extrapolation to T_s + COAST at the coast limit. -/
def frozenPos (s : State) (n : Nat) : Nat :=
  let t := getTrack s n
  if isRemote s n ∧ ¬t.badSample ∧ ¬getB s (R.TK_CTL n) F.TK_CTL_HOLD ∧ pastCoast s n then
    (t.sample.map (fun x => extrapolate x (x.2.2 + getF s (R.TK_RCFG n) F.TK_RCFG_COAST * 1000 * 65536))).getD t.pos
  else trackPos s n

/-- A judged jump of a track (R339): JUMPED, the next sample's JUMP, the counter, and its entries judged. -/
def judgedJump (fromStale : Bool) (n : Nat) (s : State) : State :=
  let s := bump (ctr 0x0011 9 n) (setB s (R.TK_STAT n) F.TK_STAT_JUMPED true)
  evalTrack (.judged fromStale) n (onTrack n (fun t => { t with jumped := true }) s)

/-- The DISCARD entries of a track that enters STALE are disarmed (R341). -/
def stalePolicy (n : Nat) (s : State) : State :=
  (trackEntries s n).foldl (fun s x => if wmStp x.2.ctl = 2 then wmDiscard x.1 n s else s) s

/-- The track takes the state that R321 gives, with what entering or leaving a state does (R322, R339, R341). -/
def reviewTrack (n : Nat) (s : State) : State :=
  let old := trackState s n
  let new := evalState s n
  if old = new then s
  else
    let p := frozenPos s n
    let s := if old < 2 ∧ 2 ≤ new then onTrack n (fun t => { t with pos := p }) s else s
    let s := tkNotice n 0x01 new (setF s (R.TK_STAT n) F.TK_STAT_STATE new)
    if new = 2 then stalePolicy n s
    else if 2 ≤ old ∧ new < 2 then
      if isIncremental s n then evalTrack .cross n s
      else judgedJump (decide (old = 2)) n (onTrack n (fun t => { t with firstAfter := true }) s)
    else s

/-- Every track is reviewed. -/
def reviewTracks (s : State) : State := (List.range 16).foldl (fun s n => reviewTrack n s) s

/-- The tracks that follow a source are judged after it became valid or invalid (R316, R321). -/
def reviewSource (src sel : Nat) (s : State) : State :=
  (List.range 16).foldl (fun s n => if trackSrc s n = src ∧ trackSel s n = sel then reviewTrack n s else s) s

/-- A crossing that is not acted on leaves its entry armed, with the side it had (R342). -/
def dropFiring (s : State) (f : Firing) : State :=
  match getEntry s f.entry with
  | some e => setEntry f.entry (some { e with queued := false, side := if f.forward then -1 else 1 }) s
  | none => s

/-- Firing is resumed after a suspension: every armed entry that was passed meanwhile is judged. On suspension running pulses lose
their end, and crossings that wait are not acted on (R339, R342). -/
def reviewFiring (s : State) : State :=
  let now := firingOn s
  if now = s.tracks.firing then s
  else
    let s := onTracks (fun x => { x with firing := now }) s
    if now then (List.range 16).foldl (fun s n => evalTrack (.judged false) n s) s
    else onTracks (fun x => { x with pulses := [], queue := [] }) (s.tracks.queue.foldl dropFiring s)

/-! Captures (R329, R330). -/

/-- The value of a track latched at the present edge (R46, R329): an incremental track's needs no correction, so its latched
velocity is 0. -/
def latchTrack (s : State) (n : Nat) : CapLatch :=
  { track := n, pos := trackPos s n, vel := if isIncremental s n then 0 else wrap 64 (trackVel s n), edge := now64 s,
    state := trackState s n }

/-- The captured value: POS - VEL * (latch edge - postmark) (R329). -/
def capturedPos (l : CapLatch) (pm : DWord) : Nat :=
  wrap 64 (signed 64 l.pos - signed 64 l.vel * signed 64 (l.edge + 2 ^ 64 - pm.toNat) / ((2 ^ 48 : Nat) : Int))

/-- The capture-arm: the ring's next entry is armed at the captured value plus TK_COFF, or the arm is refused (R330). -/
def captureArm (n pos : Nat) (live : Bool) (s : State) : State :=
  let base := getF s (R.TK_CARM n) F.TK_CARM_BASE
  let next := getF s (R.TK_CARM_NEXT n) F.TK_CARM_NEXT_NEXT
  if ¬getB s (R.TK_CARM n) F.TK_CARM_EN then s
  else if ¬live ∨ wmWord s next 2 % 2 = 1 then
    tkNotice n 0x81 next (bump (ctr 0x0011 8 n) (setB s (R.TK_STAT n) F.TK_STAT_CARMREF true))
  else
    let mark := wrap 64 (signed 64 pos + signed 32 (getReg s (R.TK_COFF n)).toNat * 65536)
    let ctl := wmWord s next 2
    let s := wmPut next 2 (ctl / 2 * 2 + 1) (wmPutPos next mark s)
    let after := if next = base + getF s (R.TK_CARM n) F.TK_CARM_CNTM1 then base else next + 1
    let s := setF s (R.TK_CARM_NEXT n) F.TK_CARM_NEXT_NEXT after
    setF (setB s (R.TK_CAP_STAT n) F.TK_CAP_STAT_ARMED true) (R.TK_CAP_STAT n) F.TK_CAP_STAT_ENTRY next

/-- A latched value is committed to the track's capture registers, and arms the next entry (R329, R330). -/
def commitCapture (l : CapLatch) (pm : DWord) (s : State) : State :=
  let n := l.track
  let pos := capturedPos l pm
  let w : DWord := BitVec.ofNat 64 pos
  let s := setReg (setReg s (R.TK_CAP_POS_LO n) (lo32 w)) (R.TK_CAP_POS_HI n) (hi32 w)
  let s := setReg (setReg s (R.TK_CAP_PM_LO n) (lo32 pm)) (R.TK_CAP_PM_HI n) (hi32 pm)
  let seq := (getF s (R.TK_CAP_STAT n) F.TK_CAP_STAT_SEQ + 1) % 65536
  let s := setReg s (R.TK_CAP_STAT n) (BitVec.ofNat 32 (seq + l.state * 2 ^ 16))
  let s := tkNotice n 0x02 seq (bump (ctr 0x0011 7 n) s)
  captureArm n pos (decide (l.state < 2)) s

end Sys2Proof.Machine
end

