-- ==== Sys2Proof/Machine/Pins.lean ====
section
/-! DEFINITION. Field pins and banks (chapter 02): claims, outputs and the safe states, input filtering, debounce and capture
records, supply faults and straps. Counters of CAP 0x0002: 0 glitches per pin, 1 claim conflicts and 2 lost captures per bank. -/

namespace Sys2Proof.Machine

/-- Pin p's cell. -/
def getPin (s : State) (p : Nat) : Pin := tabGet (fun _ => Pin.reset) s.field.pins p

/-- The field side after a change. -/
def onField (f : FieldState → FieldState) (s : State) : State := { s with field := f s.field }

/-- The state after pin p's cell is changed. -/
def onPin (p : Nat) (f : Pin → Pin) (s : State) : State :=
  onField (fun x => { x with pins := tabSet (fun _ => Pin.reset) x.pins p (f (tabGet (fun _ => Pin.reset) x.pins p)) }) s

/-- Bank b. -/
def getBank (s : State) (b : Nat) : Bank := tabGet (fun _ => Bank.reset) s.field.banks b

/-- The state after bank b is changed. -/
def onBank (b : Nat) (f : Bank → Bank) (s : State) : State :=
  onField (fun x => { x with banks := tabSet (fun _ => Bank.reset) x.banks b (f (tabGet (fun _ => Bank.reset) x.banks b)) }) s

/-- PIN_CFG.FUNC. -/
def pinFunc (s : State) (p : Nat) : Nat := getF s (R.PIN_CFG p) F.PIN_CFG_FUNC

/-- The pin is a discrete input: DIN or CAPT. -/
def isInput (s : State) (p : Nat) : Bool := pinFunc s p = 1 || pinFunc s p = 4

/-- The filtered level, inverted where INV is set (R42). -/
def filteredLevel (s : State) (p : Nat) : Bool := (getPin s p).net != getB s (R.PIN_CFG p) F.PIN_CFG_INV

/-- The bank is in supply fault (R37). -/
def supplyFault (s : State) (b : Nat) : Bool := getB s (R.BANK_STAT b) F.BANK_STAT_VFAULT

/-- The cluster is marked unusable by BIST. -/
def clusterUnusable (s : State) (k : Nat) : Bool := getB s (R.SCR_CSTAT k) F.SCR_CSTAT_UNUSABLE

/-- The unit that owns a pin (R38): CAP_ID and instance. -/
def pinOwner (s : State) (p : Nat) : Option (Nat × Nat) :=
  let b := p / 16
  let f := pinFunc s p
  if f = 5 then some (0x0003, b) else if f = 6 then some (0x0003, (b + 15) % 16) else if f = 7 then some (0x0005, b)
  else if f = 8 then some (0x0006, b) else if f = 9 then some (0x0004, b / 2) else if f = 10 then some (0x0007, b / 8) else none

/-- The owner is in unit reset, or a cluster that is unusable or under test, so that the keeper holds the net (R41, R406). -/
def ownerAway (s : State) (p : Nat) : Bool :=
  match pinOwner s p with
  | some (cap, i) => inUnitReset s cap i || (cap = 0x0003 && (clusterUnusable s i || underTest s (0x40 + i)))
  | none => false

/-! Outputs (R47 to R54). -/

/-- PIN_CFG.SAFE: high impedance, low or high (R52). -/
def safeOut (s : State) (p : Nat) : Option Bool :=
  let f := getF s (R.PIN_CFG p) F.PIN_CFG_SAFE
  if f = 1 then some false else if f = 2 then some true else none

/-- A mapped DOUT pin or a WOUT pin applies SAFE: in RECOVERY and TEST, and until the first cycle boundary in NORMAL; an
unmapped DOUT pin in RECOVERY and TEST only (R52). -/
def appliesSafe (s : State) (p : Nat) : Bool :=
  2 ≤ serviceMode s || (!s.field.live && (pinFunc s p = 3 || getB s (R.PIN_MAP p) F.PIN_MAP_EN))

/-- The cluster and window pin that a SCRIBE or SCRIBE_PREV pin is (R59). -/
def windowOf (s : State) (p : Nat) : Nat × Nat :=
  if pinFunc s p = 5 then (p / 16, p % 16) else ((p / 16 + 15) % 16, 16 + p % 16)

/-- What a cluster commands for a pin: its value bit while its direction bit is 1 (R60, R61). -/
def scribeValue (s : State) (p : Nat) : Option Bool :=
  let (k, w) := windowOf s p
  if (getReg s (R.SCR_PDIR k)).getLsbD w then some ((getReg s (R.SCR_POUT k)).getLsbD w) else none

/-- UART u's level for pin i of its bank: TX, RX, DE and RE_L (R129, R130). TX stands at idle, which is all that a model without
the bits of a character shows. -/
def uartLevel (s : State) (u i : Nat) : Option Bool :=
  let ctl := R.UA_CTL u
  let mode := getF s ctl F.UA_CTL_MODE
  let on := getB s ctl F.UA_CTL_EN
  let sends := (tabGet (fun _ => Uart.reset) s.field.uarts u).sending.isSome
  let de := on && (if mode = 1 then sends else mode = 2)
  if i = 0 then some true
  else if i = 2 then some de
  else if i = 3 then some (de && mode = 1 && !getB s ctl F.UA_CTL_ECHO)
  else none

/-- The value that the pin's owner commands, none for high impedance, before OD (R41, R47, R48, R52); bus TX stands at recessive
between the bits of frames. -/
def ownerValue (s : State) (p : Nat) : Option Bool :=
  let f := pinFunc s p
  let c := getPin s p
  if f = 2 then
    if appliesSafe s p then safeOut s p
    else if getB s (R.PIN_MAP p) F.PIN_MAP_EN then some c.mapped
    else some (getB s (R.PIN_OUT p) F.PIN_OUT_VAL)
  else if f = 3 then (if appliesSafe s p then safeOut s p else c.wout)
  else if ownerAway s p then none
  else if f = 5 ∨ f = 6 then scribeValue s p
  else if c.quiet then none
  else if f = 7 then uartLevel s (p / 16) (p % 16)
  else if f = 9 ∧ p % 16 = 8 then some true
  else none

/-- The owner's intent for the pin's driver: none while high impedance. A bank in supply fault drives nothing (R37), and an
open-drain pin only pulls low (R47). -/
def intent (s : State) (p : Nat) : Option Bool :=
  if supplyFault s (p / 16) then none
  else
    match ownerValue s p with
    | some true => if getB s (R.PIN_CFG p) F.PIN_CFG_OD then none else some true
    | v => v

/-- Field drive is on for the pin: the duplex gate of R356, which does not cover bus pins. -/
def driveGate (s : State) (p : Nat) : Bool := fieldDrive s || pinFunc s p = 9

/-- The TAP holds the balls: EXTEST, CLAMP or HIGHZ is its current instruction, and a ball's owner has no effect on it (R476). -/
def tapHolds (s : State) : Bool := s.node.jtag = 0 || s.node.jtag = 4 || s.node.jtag = 5

/-- What the pin's owner makes the pad drive. -/
def padDrive (s : State) (p : Nat) : Option Bool := if driveGate s p && !tapHolds s then intent s p else none

/-- The keeper of a bank's pins works: its VDDIO is present (R50, R475). -/
def keeperActive (s : State) (b : Nat) : Bool := getF s (R.BANK_STAT b) F.BANK_STAT_VLEVEL ≠ 0

/-- PIN_STAT follows a pin's driver: DRIVING shows the owner's intent (R356), and EVER_DRV stays from the first drive on (R51). -/
def refreshPin (p : Nat) (s : State) : State :=
  let s := setB s (R.PIN_STAT p) F.PIN_STAT_DRIVING (intent s p).isSome
  if (padDrive s p).isSome then setB s (R.PIN_STAT p) F.PIN_STAT_EVER_DRV true else s

/-- Every pin's status follows its driver. -/
def refreshPins (s : State) : State := (List.range 256).foldl (fun s p => refreshPin p s) s

/-- The pins of a bank follow their drivers. -/
def refreshBank (b : Nat) (s : State) : State := (List.range 16).foldl (fun s i => refreshPin (16 * b + i) s) s

/-- The pull applied to a pin (R51): none, or up (true) or down (false). -/
def pinPull (s : State) (p : Nat) : Option Bool :=
  let b := p / 16
  let strap := if (getBank s b).strapped then some (getB s (R.BANK_STAT b) F.BANK_STAT_PULL_STRAP) else none
  if pinFunc s p = 0 then (if getB s (R.PIN_STAT p) F.PIN_STAT_EVER_DRV then none else strap)
  else
    let f := getF s (R.PIN_CFG p) F.PIN_CFG_PULL
    if f = 0 then strap else if f = 2 then some true else if f = 3 then some false else none

/-- A pin's value at the ball as R48 reads it: the level it drives, or the level that the receiver sampled. -/
def currentValue (s : State) (p : Nat) : Bool := (intent s p).getD (getPin s p).net

/-- The safe output becomes what a WOUT pin holds while SAFE applies (R48). -/
def holdSafe (p : Nat) (s : State) : State :=
  if pinFunc s p = 3 ∧ appliesSafe s p then onPin p (fun c => { c with wout := safeOut s p }) s else s

/-- A waymark action drives a WOUT pin to a level; nothing changes while SAFE applies (R48, R52). -/
def driveWout (p : Nat) (level : Bool) (s : State) : State :=
  if appliesSafe s p then s else refreshPin p (onPin p (fun c => { c with wout := some level }) s)

/-- The pins after the service mode in force changed: outside NORMAL the safe outputs apply again (R52). -/
def safePins (s : State) : State :=
  let s := if serviceMode s = 1 then s else onField (fun x => { x with live := false }) s
  refreshPins ((List.range 256).foldl (fun s p => holdSafe p s) s)

/-- The value that the pin last drove: what its owner makes it drive, or while its driver is high impedance what the keeper holds (R49,
R50). -/
def heldValue (s : State) (p : Nat) : Bool := (ownerValue s p).getD (getPin s p).net

/-- A mapped DOUT pin takes its bit of the stable output half; with a poisoned word it holds the value last driven, and POISON is set
(R49). -/
def takeMapped (p : Nat) (held : Bool) (s : State) : State :=
  if pinFunc s p = 2 ∧ getB s (R.PIN_MAP p) F.PIN_MAP_EN then
    let bit := getF s (R.PIN_MAP p) F.PIN_MAP_BIT
    if poisoned s (outImage + bit / 8) then
      onPin p (fun c => { c with mapped := held }) (consumePoison 2 (setB s (R.PIN_STAT p) F.PIN_STAT_POISON true))
    else onPin p (fun c => { c with mapped := imageBit s outImage bit }) s
  else s

/-- Every mapped output takes its value from the stable output image (R54). -/
def takeAllMapped (s : State) : State := (List.range 256).foldl (fun s p => takeMapped p (heldValue s p) (holdSafe p s)) s

/-- From a cycle boundary in NORMAL on, SAFE no longer applies to mapped outputs (R52). -/
def goLive (boundary : Bool) (s : State) : State :=
  if boundary ∧ serviceMode s = 1 then onField (fun x => { x with live := true }) s else s

/-- The mapped DOUT pins follow the newly stable output half (R54). At a cycle boundary in NORMAL, SAFE ends (R52). -/
def mappedOutputs (boundary : Bool) (s : State) : State := refreshPins (goLive boundary (takeAllMapped s))

/-- A write of PIN_MAP: the pin follows the bit it now names. -/
def writePinMap (p : Nat) (v : Word) (s : State) : State := refreshPin p (takeMapped p (heldValue s p) (plainWrite (R.PIN_MAP p) v s))

/-- The mapped DIN and CAPT pins write their accepted levels into the input half being sealed; a bank in supply fault leaves
its bits (R37, R53, R55). -/
def pinsToImage (base : Nat) (s : State) : State :=
  (List.range 256).foldl (fun s p =>
    if isInput s p ∧ getB s (R.PIN_MAP p) F.PIN_MAP_EN ∧ ¬supplyFault s (p / 16) then
      setImageBit base (getF s (R.PIN_MAP p) F.PIN_MAP_BIT) (getB s (R.PIN_STAT p) F.PIN_STAT_LEVEL) s
    else s) s

/-! Claims (R38 to R41). -/

/-- A fixed function stands at a position that R38 and R39 give it. -/
def positionOk (f p : Nat) : Bool :=
  let i := p % 16
  if f = 7 then i < 4
  else if f = 8 then 4 ≤ i && i ≤ 6
  else if f = 9 then i = 8 || i = 9
  else if f = 10 then p = 12 || p = 140
  else true

/-- The pin at position i of the other bank of the pair. -/
def pairPin (p i : Nat) : Nat := (if p / 16 % 2 = 0 then p / 16 + 1 else p / 16 - 1) * 16 + i

/-- A change of FUNC is refused (R40). -/
def claimRefused (s : State) (p new : Nat) : Bool :=
  let old := pinFunc s p
  let b := p / 16
  (old ≠ 0 && new ≠ 0) || !positionOk new p || 11 ≤ new ||
  (new = 9 && (pinFunc s (pairPin p 8) = 9 || pinFunc s (pairPin p 9) = 9)) ||
  (new = 5 && clusterUnusable s b) || (new = 6 && clusterUnusable s ((b + 15) % 16)) ||
  (new ≠ 0 && getF s (R.BANK_CFG b) F.BANK_CFG_VDDIO = 0)

/-- RAW shows the filtered level of a claimed pin. -/
def showRaw (p : Nat) (s : State) : State :=
  setB s (R.PIN_STAT p) F.PIN_STAT_RAW (decide (pinFunc s p ≠ 0) && filteredLevel s p)

/-- The pin's owner is a unit, not a cluster, that is held in unit reset: the pin follows it only from its first driving action (R41). -/
def ownerHeld (s : State) (p : Nat) : Bool :=
  match pinOwner s p with
  | some (cap, i) => cap ≠ 0x0003 && inUnitReset s cap i
  | none => false

/-- A performed write of PIN_CFG that changes FUNC: a new DIN or CAPT pin takes its filtered level silently, and no episode or
owner's drive of the old function stays (R40, R41, R43, R48). What LEVEL shows once a pin is no input is not in the spec: it keeps the
last accepted level (DESIGN CHOICE, log entry 123). -/
def newFunc (p : Nat) (s : State) : State :=
  let lvl := filteredLevel s p
  let s := onPin p (fun c => { c with episode := none, held := [], own := lvl, quiet := ownerHeld s p, wout := none }) s
  if isInput s p then setB s (R.PIN_STAT p) F.PIN_STAT_LEVEL lvl else takeMapped p (getPin s p).net s

/-- A write of PIN_CFG (R40). -/
def writePinCfg (p : Nat) (v : Word) (s : State) : State × Option Reason :=
  let new := F.PIN_CFG_FUNC.get v
  let old := pinFunc s p
  if new ≠ old ∧ claimRefused s p new then
    (bump (ctr 0x0002 1 (p / 16)) (setB (declineWrite (R.PIN_CFG p) v s) (R.PIN_STAT p) F.PIN_STAT_CONFLICT true), some .claimRefused)
  else
    let s := plainWrite (R.PIN_CFG p) v s
    let s := if new ≠ old then newFunc p s else s
    (refreshPin p (showRaw p (holdSafe p s)), none)

/-- PIN_CFG_WRITE (R40). -/
def execPinCfgWrite (m : Master) (p : Fin 256) (v : Word) (s : State) : Host.Outcome State Fault Refusal :=
  .next (guardWrite m (R.PIN_CFG p) (fun s => writePinCfg p v s) s)

/-! Inputs (R42 to R46). -/

/-- An ITB reading `ns` nanoseconds ago, truncated to whole nanoseconds (R286). -/
def itbBack (s : State) (n ns : Nat) : DWord := wholeNs (shortPm (itbAt s n (fclkNow s - ((1000 * ns : Nat) : Int))))

/-- A domain's reading `ns` nanoseconds ago, truncated to whole nanoseconds: the event lies ns / 3.2 ticks back (R290). -/
def vdBack (s : State) (d ns : Nat) : DWord := wholeNs (shortPm (vdAt s d (fclkNow s - ((1000 * ns : Nat) : Int))))

/-- The queue domain of a notice queue. -/
def queueVd (s : State) (q : Nat) : Nat := getF s (R.PH_CFG q) F.PH_CFG_VD

/-- PIN_CFG.EDGE selects an edge's direction. -/
def edgeSelected (s : State) (p : Nat) (rising : Bool) : Bool :=
  bitOf (getF s (R.PIN_CFG p) F.PIN_CFG_EDGE) (if rising then 0 else 1)

/-- The first transition of an edge, seen now, `ns` nanoseconds after it: its postmarks, and on a CAPT pin the latched track
position (R43, R46). The domains are those that BANK_CFG and PH_CFG name at the first transition; the spec does not say which count when
they are rewritten before the acceptance (DESIGN CHOICE, log entry 124). -/
def firstTransition (s : State) (p ns : Nat) : Episode :=
  let b := R.BANK_CFG (p / 16)
  { itb := itbBack s 0 ns, vd := vdBack s (getF s b F.BANK_CFG_VD) ns,
    ntc := vdBack s (queueVd s (getF s b F.BANK_CFG_NTC_Q)) ns,
    latch := if pinFunc s p = 4 ∧ edgeSelected s p (filteredLevel s p) then
      some (latchTrack s (getF s (R.PIN_CFG p) F.PIN_CFG_TRACK)) else none }

/-- A capture record enters the bank's FIFO, with its notice, or is lost (R44, R45, R37, R496). Acceptances of one UCLK cycle are commands
that the sender gives in ascending pin order, the order of R45 (DESIGN CHOICE, log entry 125). -/
def captureRecord (p : Nat) (rising : Bool) (ep : Episode) (s : State) : State :=
  let b := p / 16
  let k := getBank s b
  if supplyFault s b then s
  else if 16 ≤ k.caps.length then
    bump (ctr 0x0002 2 b) (setB (onBank b (fun k => { k with lostNext := true }) s) (R.BANK_STAT b) F.BANK_STAT_CAP_OVF true)
  else
    let r : CapRec := { pm := ep.vd, pin := p % 16, rising := rising, lost := k.lostNext }
    let s := onBank b (fun k => { k with caps := k.caps ++ [r], lostNext := false }) s
    let s := setF s (R.BANK_STAT b) F.BANK_STAT_CAP_CNT (k.caps.length + 1)
    if getB s (R.PIN_CFG p) F.PIN_CFG_ENTC then
      postPm (getF s (R.BANK_CFG b) F.BANK_CFG_NTC_Q) 0x0002 p 0x41 (bit1 rising + 2 * bit1 r.lost) ep.ntc s
    else s

/-- What an accepted edge commits: its capture record and its track latch (R44, R46). -/
def commitEdge (p : Nat) (rising : Bool) (ep : Episode) (s : State) : State :=
  let s := if edgeSelected s p rising then captureRecord p rising ep s else s
  match ep.latch with
  | some l => commitCapture l ep.itb s
  | none => s

/-- An edge is accepted (R43): the level in force changes and the edge commits; in a standby both wait for the partner's level
(R362). -/
def acceptEdge (p : Nat) (ep : Episode) (s : State) : State :=
  let lvl := filteredLevel s p
  let s := onPin p (fun c => { c with episode := none, own := lvl }) s
  if followsPartner s then onPin p (fun c => { c with held := c.held ++ [(lvl, ep, (getReg s R.DPX_STEP).toNat)] }) s
  else commitEdge p lvl ep (setB s (R.PIN_STAT p) F.PIN_STAT_LEVEL lvl)

/-- The accepted level of an encoder pin: A, B or Z (R132). -/
def encoderLevel (s : State) (p : Nat) : Bool :=
  let i := p % 16
  bitOf (getReg s (R.EN_STAT (p / 16))).toNat (if i = 4 then 0 else if i = 5 then 1 else 2)

/-- A pulse on an encoder pin that ended before it was accepted is a glitch (R132). -/
def encoderGlitch (p : Nat) (s : State) : State :=
  if pinFunc s p = 8 ∧ getB s (R.EN_CTL (p / 16)) F.EN_CTL_EN ∧ ¬ownerAway s p ∧ filteredLevel s p = encoderLevel s p then bump (ctr 0x0006 0 (p / 16)) s else s

/-- The RX line of a UART that has received a break rises: the bit time for which it is to stay high counts from there (R126). -/
def lineRose (p : Nat) (level : Bool) (age : Nat) (s : State) : State :=
  let u := p / 16
  if level ∧ pinFunc s p = 7 ∧ p % 16 = 1 ∧ (tabGet (fun _ => Uart.reset) s.field.uarts u).broke.isSome then
    let x : Uart := { tabGet (fun _ => Uart.reset) s.field.uarts u with broke := some (3200 * s.time.ltick - 1000 * age) }
    onField (fun f => { f with uarts := tabSet (fun _ => Uart.reset) f.uarts u x }) s
  else s

/-- PIN_TRANSITION (R42, R43): the receiver's filter passes a transition of the net, `age` nanoseconds ago. -/
def execPinTransition (p : Fin 256) (level : Bool) (age : Nat) (s : State) : Host.Outcome State Fault Refusal :=
  if (getPin s p).net = level then .next s
  else
    let s := lineRose p level age (showRaw p (onPin p (fun c => { c with net := level }) s))
    if ¬isInput s p then .next (encoderGlitch p s)
    else if getF s (R.PIN_CFG p) F.PIN_CFG_DEB = 0 then .next (acceptEdge p (firstTransition s p age) s)
    else
      match (getPin s p).episode with
      | some _ => .next s
      | none =>
        if filteredLevel s p = (getPin s p).own then .next s
        else .next (onPin p (fun c => { c with episode := some (firstTransition s p age) }) s)

/-- EDGE_ACCEPTED (R43): the filtered level has differed from the accepted level for the stable time. -/
def execEdgeAccepted (p : Fin 256) (s : State) : Host.Outcome State Fault Refusal :=
  match (getPin s p).episode with
  | some ep => .next (if isInput s p ∧ filteredLevel s p ≠ (getPin s p).own then acceptEdge p ep s else s)
  | none => .next s

/-- EDGE_REJECTED (R43): the filtered level has equalled the accepted level for the stable time, and the episode ends. -/
def execEdgeRejected (p : Fin 256) (s : State) : Host.Outcome State Fault Refusal :=
  match (getPin s p).episode with
  | some _ =>
    if filteredLevel s p = (getPin s p).own then
      let s := bump (ctr 0x0002 0 p) (onPin p (fun c => { c with episode := none }) s)
      .next (setF s (R.PIN_STAT p) F.PIN_STAT_GLITCH (getCtr s (ctr 0x0002 0 p)))
    else .next s
  | none => .next s

/-- The words of a capture record: _LO, _HI and _TOP with VALID. -/
def capWords (r : CapRec) : Word × Word × Word :=
  (lo32 r.pm, hi32 r.pm, BitVec.ofNat 32 (r.pin + 16 * bit1 r.rising + 32 * bit1 r.lost + 2 ^ 31))

/-- A read of BANK_CAP_LO removes the oldest record and latches its upper parts (R9, R46); an empty FIFO reads 0. -/
def readBankCap (id : MasterId) (b : Nat) (s : State) : State × Word :=
  match (getBank s b).caps with
  | [] => (latchUpper id (R.BANK_CAP_LO b) 0 0 0 s, 0)
  | r :: rest =>
    let (lo, hi, top) := capWords r
    let s := setF (onBank b (fun k => { k with caps := rest }) s) (R.BANK_STAT b) F.BANK_STAT_CAP_CNT rest.length
    (latchUpper id (R.BANK_CAP_LO b) hi top 0 s, lo)

/-- BANK_CAP_READ (R46). -/
def execBankCapRead (m : Master) (b : Fin 16) (s : State) : Host.Outcome State Fault Refusal :=
  .next (guardRead m (R.BANK_CAP_LO b) (fun s => readBankCap (masterId s m) b s) s)

/-! Output registers (R47). -/

/-- A write of PIN_OUT: VAL, then TOGGLE. -/
def writePinOut (p : Nat) (v : Word) (s : State) : State :=
  let s := plainWrite (R.PIN_OUT p) v s
  let s := if F.PIN_OUT_TOGGLE.get v = 1 then setB s (R.PIN_OUT p) F.PIN_OUT_VAL (!getB s (R.PIN_OUT p) F.PIN_OUT_VAL) else s
  refreshPin p s

/-- PIN_OUT_WRITE (R47). -/
def execPinOutWrite (m : Master) (p : Fin 256) (v : Word) (s : State) : Host.Outcome State Fault Refusal :=
  .next (guardWrite m (R.PIN_OUT p) (fun s => (writePinOut p v s, none)) s)

/-- PIN_OUT_TOGGLE (R47): a write of PIN_OUT with TOGGLE 1. -/
def execPinOutToggle (m : Master) (p : Fin 256) (v : Word) (s : State) : Host.Outcome State Fault Refusal :=
  .next (guardWrite m (R.PIN_OUT p) (fun s => (writePinOut p (F.PIN_OUT_TOGGLE.put v 1) s, none)) s)

/-- A write of BANK_OUT_SET or BANK_OUT_CLR changes PIN_OUT.VAL of the masked pins together. -/
def writeBankOut (b : Nat) (set : Bool) (v : Word) (s : State) : State :=
  let s := countPart (if set then R.BANK_OUT_SET b else R.BANK_OUT_CLR b) v s
  (List.range 16).foldl (fun s i =>
    if v.getLsbD i then refreshPin (16 * b + i) (setB s (R.PIN_OUT (16 * b + i)) F.PIN_OUT_VAL set) else s) s

/-- BANK_OUT_SET (R47). -/
def execBankOutSet (m : Master) (b : Fin 16) (v : Word) (s : State) : Host.Outcome State Fault Refusal :=
  .next (guardWrite m (R.BANK_OUT_SET b) (fun s => (writeBankOut b true v s, none)) s)

/-- BANK_OUT_CLR (R47). -/
def execBankOutClr (m : Master) (b : Fin 16) (v : Word) (s : State) : Host.Outcome State Fault Refusal :=
  .next (guardWrite m (R.BANK_OUT_CLR b) (fun s => (writeBankOut b false v s, none)) s)

/-! Supplies and straps (R37, R51). -/

/-- A bank's supply-fault notices (R496). -/
def bankNotice (b code : Nat) (s : State) : State :=
  let c := R.BANK_CFG b
  post (getF s c F.BANK_CFG_NTC_Q) 0x0002 b code
    (getF s c F.BANK_CFG_VDDIO + 256 * getF s (R.BANK_STAT b) F.BANK_STAT_VLEVEL) s

/-- BANK_STAT.VFAULT and the pins' BANKFLT. -/
def setSupplyFault (b : Nat) (on : Bool) (s : State) : State :=
  let s := setB s (R.BANK_STAT b) F.BANK_STAT_VFAULT on
  let s := (List.range 16).foldl (fun s i => setB s (R.PIN_STAT (16 * b + i)) F.PIN_STAT_BANKFLT on) s
  reviewTracks (refreshBank b s)

/-- A supply fault starts (R37). -/
def startSupplyFault (b : Nat) (s : State) : State :=
  if supplyFault s b ∨ getF s (R.BANK_CFG b) F.BANK_CFG_VDDIO = 0 then s else bankNotice b 0x81 (setSupplyFault b true s)

/-- A supply fault ends (R37). -/
def endSupplyFault (b : Nat) (s : State) : State :=
  if supplyFault s b then bankNotice b 0x01 (setSupplyFault b false s) else s

/-- The measured class differs from a nonzero expected one. -/
def supplyMismatch (s : State) (b : Nat) : Bool :=
  let v := getF s (R.BANK_CFG b) F.BANK_CFG_VDDIO
  v ≠ 0 && v ≠ getF s (R.BANK_STAT b) F.BANK_STAT_VLEVEL

/-- SUPPLY_FAULT_START (R37): the class differs, or the supply has fallen below its class's minimum. -/
def execSupplyFaultStart (b : Fin 16) (s : State) : Host.Outcome State Fault Refusal := .next (startSupplyFault b s)

/-- SUPPLY_FAULT_END (R37): the measured class has matched for 1 ms. -/
def execSupplyFaultEnd (b : Fin 16) (s : State) : Host.Outcome State Fault Refusal :=
  .next (if supplyMismatch s b then s else endSupplyFault b s)

/-- A write of BANK_CFG (R37): VDDIO 0 ends a fault at once, and an expected class that differs from the measured one starts
one. -/
def writeBankCfg (b : Nat) (v : Word) (s : State) : State :=
  let s := plainWrite (R.BANK_CFG b) v s
  if getF s (R.BANK_CFG b) F.BANK_CFG_VDDIO = 0 then endSupplyFault b s
  else if supplyMismatch s b then startSupplyFault b s else s

/-- BANK_CFG_WRITE (R37). -/
def execBankCfgWrite (m : Master) (b : Fin 16) (v : Word) (s : State) : Host.Outcome State Fault Refusal :=
  .next (guardWrite m (R.BANK_CFG b) (fun s => (writeBankCfg b v s, none)) s)

/-- STRAP_SAMPLE (R51): pin 15 of a bank is sampled once after each cold start, 1 ms after its supply is first valid. -/
def execStrapSample (b : Fin 16) (level : Bool) (s : State) : Host.Outcome State Fault Refusal :=
  if (getBank s b).strapped ∨ ¬(getBank s b).valid then .next s
  else .next (setB (onBank b (fun k => { k with strapped := true }) s) (R.BANK_STAT b) F.BANK_STAT_PULL_STRAP level)

end Sys2Proof.Machine
end

