-- ==== Sys2Proof/Machine/Scribe.lean ====
section
/-! DEFINITION. Scribe engines (chapter 03): the pin window and its lanes, the instruction latch and the engine clock, the
instructions one by one, FIFOs, injection, faults, and cluster DMA. Counters of CAP 0x0003: 0 STALE, 1 OVERRUN, 2 TX drops, 3 TX
skips, 4 RX records. -/

namespace Sys2Proof.Machine

/-! Engines and their state (R56, R57). Engine n is engine n % 4 of cluster n / 4. -/

/-- Engine n beyond its registers. -/
def getEng (s : State) (n : Nat) : Engine := tabGet (fun _ => Engine.reset) s.scribe.engines n

/-- The Scribe clusters after a change. -/
def onScribe (f : ScribeState → ScribeState) (s : State) : State := { s with scribe := f s.scribe }

/-- The state after engine n is changed. -/
def onEng (n : Nat) (f : Engine → Engine) (s : State) : State :=
  onScribe (fun x => { x with engines := tabSet (fun _ => Engine.reset) x.engines n (f (tabGet (fun _ => Engine.reset) x.engines n)) }) s

/-- Word i of cluster k's program store. -/
def storeWord (s : State) (k i : Nat) : BitVec 16 := tabGet (fun _ => 0) s.scribe.store (32 * k + i % 32)

/-- SCR_X of engine n, and so on. -/
abbrev rX (n : Nat) : Nat := R.SCR_X (n / 4) (n % 4)
abbrev rY (n : Nat) : Nat := R.SCR_Y (n / 4) (n % 4)
abbrev rIsr (n : Nat) : Nat := R.SCR_ISR (n / 4) (n % 4)
abbrev rOsr (n : Nat) : Nat := R.SCR_OSR (n / 4) (n % 4)
abbrev rShc (n : Nat) : Nat := R.SCR_SHC (n / 4) (n % 4)
abbrev rPc (n : Nat) : Nat := R.SCR_PC (n / 4) (n % 4)
abbrev rEstat (n : Nat) : Nat := R.SCR_ESTAT (n / 4) (n % 4)
abbrev rScrCtl (n : Nat) : Nat := R.SCR_CTL (n / 4) (n % 4)
abbrev rShcfg (n : Nat) : Nat := R.SCR_SHCFG (n / 4) (n % 4)
abbrev rLatch (n : Nat) : Nat := R.SCR_LATCH (n / 4) (n % 4)
abbrev rFstat (n : Nat) : Nat := R.SCR_FSTAT (n / 4) (n % 4)
abbrev rDmaTx (n : Nat) : Nat := R.SCR_DMA_TX (n / 4) (n % 4)
abbrev rDmaRx (n : Nat) : Nat := R.SCR_DMA_RX (n / 4) (n % 4)

/-- SCR_ESTAT.STATE: 0 IDLE, 1 RUN, 2 STALL, 3 FAULT (R67). -/
def engState (s : State) (n : Nat) : Nat := getF s (rEstat n) F.SCR_ESTAT_STATE

/-- The state after SCR_ESTAT.STATE and STALL_ON are set. -/
def setEngState (n st on : Nat) (s : State) : State :=
  setF (setF s (rEstat n) F.SCR_ESTAT_STATE st) (rEstat n) F.SCR_ESTAT_STALL_ON on

/-- SCR_CTL.EN. -/
def engEnabled (s : State) (n : Nat) : Bool := getB s (rScrCtl n) F.SCR_CTL_EN

/-- ISC and OSC. -/
def getIsc (s : State) (n : Nat) : Nat := getF s (rShc n) F.SCR_SHC_ISC
/-- OSC. -/
def getOsc (s : State) (n : Nat) : Nat := getF s (rShc n) F.SCR_SHC_OSC
/-- ISC is set, at most 32. -/
def setIsc (n v : Nat) (s : State) : State := setF s (rShc n) F.SCR_SHC_ISC (min v 32)
/-- OSC is set, at most 32. -/
def setOsc (n v : Nat) (s : State) : State := setF s (rShc n) F.SCR_SHC_OSC (min v 32)

/-- A register of an engine's register file is written, with its parity. -/
def putEng (a : Nat) (v : Word) (s : State) : State := rewritten a (setReg s a v)

/-- X is set, and every track that follows it takes the difference as a step at this edge (R98, R317). -/
def setX (n : Nat) (v : Word) (s : State) : State :=
  let old := getReg s (rX n)
  let s := putEng (rX n) v s
  let d := (v - old).toInt
  if d = 0 then s else feedTracks 5 n d (now64 s) s

/-- Y is set. -/
def setY (n : Nat) (v : Word) (s : State) : State := putEng (rY n) v s

/-- ISR is set. -/
def setIsr (n : Nat) (v : Word) (s : State) : State := putEng (rIsr n) v s

/-- OSR is set. -/
def setOsr (n : Nat) (v : Word) (s : State) : State := putEng (rOsr n) v s

/-- A count field in which 0 means 32. -/
def or32 (x : Nat) : Nat := if x = 0 then 32 else x

/-- FIFO capacities by FIFO_MODE (R79). -/
def txCap (s : State) (n : Nat) : Nat :=
  let m := getF s (rShcfg n) F.SCR_SHCFG_FIFO_MODE
  if m = 1 then 16 else if m = 2 then 0 else 8
/-- The RX capacity. -/
def rxCap (s : State) (n : Nat) : Nat :=
  let m := getF s (rShcfg n) F.SCR_SHCFG_FIFO_MODE
  if m = 1 then 0 else if m = 2 then 16 else 8

/-- Room in the RX FIFO. -/
def rxRoom (s : State) (n : Nat) : Nat := rxCap s n - (getEng s n).rx.length

/-! The pin window (R59 to R62). -/

/-- The pin that window pin w of cluster k is. -/
def windowPin (k w : Nat) : Nat := (k + w / 16) % 16 * 16 + w % 16

/-- The window pin belongs to the cluster. -/
def windowOwned (s : State) (k w : Nat) : Bool := pinFunc s (windowPin k w) = if w < 16 then 5 else 6

/-- The level of a window pin as the engines read it: 0 where it does not belong to the cluster. -/
def windowLevel (s : State) (k w : Nat) : Bool :=
  windowOwned s k w && !ownerAway s (windowPin k w) && filteredLevel s (windowPin k w)

/-- The whole window, bit w for window pin w. -/
def windowWord (s : State) (k : Nat) : Word :=
  BitVec.ofNat 32 (((List.range 32).map (fun w => if windowLevel s k w then 2 ^ w else 0)).sum)

/-- The lane byte of out-lane i (or in-lane i) of engine n: its window pin and its enable. -/
def laneByte (s : State) (n i : Nat) (out : Bool) : Nat :=
  let lo := if out then R.SCR_OLANE_LO (n / 4) (n % 4) else R.SCR_ILANE_LO (n / 4) (n % 4)
  let hi := if out then R.SCR_OLANE_HI (n / 4) (n % 4) else R.SCR_ILANE_HI (n / 4) (n % 4)
  bitsOf (getReg s (if i < 4 then lo else hi)).toNat (8 * (i % 4)) 8

/-- The level of in-lane i; a disabled lane reads 0. -/
def inLane (s : State) (n i : Nat) : Bool :=
  let b := laneByte s n i false
  bitOf b 7 && windowLevel s (n / 4) (b % 32)

/-- The eight in-lanes, bit i for in-lane i. -/
def inLanes (s : State) (n : Nat) : Nat := ((List.range 8).map (fun i => if inLane s n i then 2 ^ i else 0)).sum

/-- The engine that writes window pin w (SCR_OWN). -/
def windowOwner (s : State) (k w : Nat) : Nat :=
  bitsOf (getReg s (if w < 16 then R.SCR_OWN_LO k else R.SCR_OWN_HI k)).toNat (2 * (w % 16)) 2

/-- Bit i of a register is set to b. -/
def putBit (a i : Nat) (b : Bool) (s : State) : State :=
  let m : Word := BitVec.ofNat 32 (2 ^ i)
  setReg s a (if b then getReg s a ||| m else getReg s a &&& ~~~m)

/-- One out-lane takes a value or direction bit: written only by the pin's engine, and PINREF set otherwise (R60). -/
def writeLane (n i : Nat) (dir bit : Bool) (s : State) : State :=
  let b := laneByte s n i true
  let k := n / 4
  let w := b % 32
  if ¬bitOf b 7 then s
  else if windowOwner s k w ≠ n % 4 then setB s (rEstat n) F.SCR_ESTAT_PINREF true
  else refreshPin (windowPin k w) (putBit (if dir then R.SCR_PDIR k else R.SCR_POUT k) w bit s)

/-- A value goes to the out-lanes of a mask, bit i to out-lane i for i below the width; a higher lane stands where two name one
pin (R62). -/
def writeLanes (n : Nat) (dir : Bool) (mask width v : Nat) (s : State) : State :=
  (List.range (min width 8)).foldl (fun s i => if bitOf mask i then writeLane n i dir (bitOf v i) s else s) s

/-- SHMASK and SETMASK. -/
def shMask (s : State) (n : Nat) : Nat := getF s (R.SCR_PINS (n / 4) (n % 4)) F.SCR_PINS_SHMASK
/-- SETMASK. -/
def setMask (s : State) (n : Nat) : Nat := getF s (R.SCR_PINS (n / 4) (n % 4)) F.SCR_PINS_SETMASK

/-! Cluster flags (R96). -/

/-- The changes of cluster k's flags in the present UCLK cycle. -/
def flagCycle (s : State) (k : Nat) : FlagCycle :=
  let now := uclkEdges s.time.ltick
  let fresh : FlagCycle := { cycle := now, start := getF s (R.SCR_FLAGS k) F.SCR_FLAGS_FLAG, toggled := 0, lowered := 0, raised := 0 }
  match tabGet (fun _ => none) s.scribe.flags k with
  | some g => if g.cycle = now then g else fresh
  | none => fresh

/-- The flags as the engines of cluster k read them: as they stand at the start of the UCLK cycle (R96). -/
def flagsSeen (s : State) (k : Nat) : Nat := (flagCycle s k).start

/-- Flag f of cluster k as its engines read it. -/
def scrFlag (s : State) (k f : Nat) : Bool := bitOf (flagsSeen s k) f

/-- The flags that a cycle's changes give: toggles of the value at its start, then lowerings, then raisings (R96). -/
def flagsAfter (g : FlagCycle) : Nat := 
  (((BitVec.ofNat 8 g.start ^^^ BitVec.ofNat 8 g.toggled) &&& ~~~(BitVec.ofNat 8 g.lowered)) ||| BitVec.ofNat 8 g.raised).toNat

/-- Flags of cluster k change in the present UCLK cycle, by masks toggled, lowered and raised (R96). Two toggles of a flag in one cycle
invert it twice (DESIGN CHOICE, log entry 127). -/
def changeFlags (k tog low up : Nat) (s : State) : State :=
  let g := flagCycle s k
  let g := { g with toggled := g.toggled ^^^ tog, lowered := g.lowered ||| low, raised := g.raised ||| up }
  setF (onScribe (fun x => { x with flags := tabSet (fun _ => none) x.flags k (some g) }) s) (R.SCR_FLAGS k) F.SCR_FLAGS_FLAG (flagsAfter g)

/-- Flags are raised by a mask. -/
def raiseFlags (k mask : Nat) (s : State) : State := changeFlags k 0 0 mask s

/-! What one engine clock does. -/

/-- The outcome of an engine clock: the instruction stalls on a cause of STALL_ON, completes with or without a write of PC, or
faults with a cause of FCAUSE. -/
inductive Clock where
  | stall (on : Nat) (s : State)
  | done (pc : Option Nat) (s : State)
  | fault (cause : Nat) (s : State)

/-- An instruction's operand bits. -/
def opBits (w : BitVec 16) (lo n : Nat) : Nat := bitsOf w.toNat lo n

/-- The engine releases its pins: the direction bits of every window pin it owns are cleared (R90). -/
def releaseOwned (n : Nat) (s : State) : State :=
  (List.range 32).foldl (fun s w =>
    if windowOwner s (n / 4) w = n % 4 ∧ (getReg s (R.SCR_PDIR (n / 4))).getLsbD w then
      refreshPin (windowPin (n / 4) w) (putBit (R.SCR_PDIR (n / 4)) w false s)
    else s) s

/-- The cluster's notices (R498). -/
def scrNotice (n code arg : Nat) (s : State) : State :=
  post (getF s (R.SCR_CCTL (n / 4)) F.SCR_CCTL_NTC_Q) 0x0003 n code arg s

/-- A change of an engine's state reaches the tracks it feeds (R316). -/
def reviewEngineTracks (n : Nat) (s : State) : State :=
  reviewSource 5 n s

/-- The sources of notices of engine n's cluster: its four engines (R157). -/
def clusterSources (n : Nat) : List (Nat × Nat) := (List.range 4).map (fun i => (0x0003, n / 4 * 4 + i))

/-- An engine of cluster k has a record on the interconnect. -/
def recordOut (s : State) (k : Nat) : Bool :=
  (List.range 4).any (fun i => (getEng s (4 * k + i)).txOut.isSome || (getEng s (4 * k + i)).rxOut.isSome)

/-- After a change of cluster k's records: its notices wait while a record of it is still being written (R157), and its requester asks
for the interconnect while one is outstanding and withdraws otherwise (R94, R497). -/
def settleDma (k : Nat) (s : State) : State :=
  let writes := (List.range 4).any (fun i => (getEng s (4 * k + i)).rxOut.isSome)
  let rest := s.notices.uncommitted.filter (fun x => x ∉ clusterSources (4 * k))
  let s := onNotices (fun x => { x with uncommitted := if writes then clusterSources (4 * k) ++ rest else rest }) s
  if recordOut s k then request (4 + k) s else endRequest (4 + k) s

/-- The engine enters FAULT (R89, R90): its pins are released, its DMA stops, a pending injection is discarded, and a notice is
posted. A record under way is dropped with its channel, and what becomes of it is not in the spec (DESIGN CHOICE, log entry 130). -/
def enterFault (n cause : Nat) (s : State) : State :=
  let s := setEngState n 3 0 s
  let s := setF s (rEstat n) F.SCR_ESTAT_FCAUSE cause
  let s := setB (setB s (rEstat n) F.SCR_ESTAT_INJ_PEND false) (rScrCtl n) F.SCR_CTL_EN false
  let s := onEng n (fun e => { e with inj := none, stepping := false, txOut := none, rxOut := none }) s
  let s := setF (setF s (rDmaTx n) F.SCR_DMA_TX_MODE 0) (rDmaRx n) F.SCR_DMA_RX_MODE 0
  let s := settleDma (n / 4) s
  reviewEngineTracks n (scrNotice n 0xC1 cause (releaseOwned n s))

/-- The instruction has completed and its delay is over: a single step ends there (R68). A step of an engine whose latch holds delay
clocks ends with that delay: which instruction the step counts is not in the spec (DESIGN CHOICE, log entry 129). -/
def atBoundary (n : Nat) (s : State) : State :=
  if (getEng s n).stepping then
    reviewEngineTracks n (setEngState n 0 0 (onEng n (fun e => { e with stepping := false }) s))
  else s

/-- The next PC of a completed instruction (R66, R88): the written value, or for a fetched one LOOP_FROM after LOOP_TO and
PC + 1 otherwise; an injected one leaves PC. -/
def nextPc (l : Latched) (pc : Option Nat) : Nat :=
  match pc with
  | some a => a % 32
  | none => if l.injected then l.addr else if l.addr = l.loopTo then l.loopFrom else (l.addr + 1) % 32

/-- What a clock's outcome makes of the engine. -/
def finishClock (n : Nat) (l : Latched) (c : Clock) : State :=
  match c with
  | .stall on s => reviewEngineTracks n (setEngState n 2 on s)
  | .fault cause s => enterFault n cause s
  | .done pc s =>
    let d := opBits l.word 9 3
    let s := setReg s (rPc n) (BitVec.ofNat 32 (nextPc l pc))
    let s := onEng n (fun e => { e with latched := e.latched.map (fun x => { x with delay := some d }) }) s
    let s := reviewEngineTracks n (setEngState n 1 0 s)
    if d = 0 then atBoundary n s else s

/-! The engine clock (R64). -/

/-- A setting with NUM and DEN as they count: 0 is 1, and NUM is at most DEN. -/
def divSetting (cycle num den before : Nat) : ClockSet :=
  { cycle := cycle, num := min (max 1 den) (max 1 num), den := max 1 den, before := before }

/-- NUM and DEN of SCR_CLKDIV. -/
def clkNum (s : State) (n : Nat) : Nat := getF s (R.SCR_CLKDIV (n / 4) (n % 4)) F.SCR_CLKDIV_NUM
/-- DEN. -/
def clkDen (s : State) (n : Nat) : Nat := getF s (R.SCR_CLKDIV (n / 4) (n % 4)) F.SCR_CLKDIV_DEN

/-- The setting in force in UCLK cycle c. The phase origin before the first write is cycle 0 (DESIGN CHOICE, log entry 128). -/
def clockAt (s : State) (n c : Nat) : ClockSet :=
  ((getEng s n).clocks.find? (fun g => g.cycle ≤ c)).getD (divSetting 0 (clkNum s n) (clkDen s n) 0)

/-- UCLK cycle c is marked: it is a clock of engine n. -/
def clockMarked (s : State) (n c : Nat) : Bool :=
  let g := clockAt s n c
  (c - g.cycle) * g.num % g.den < g.num

/-- The clocks of engine n up to UCLK cycle c, that cycle's included. -/
def marksAt (s : State) (n c : Nat) : Nat :=
  let g := clockAt s n c
  g.before + (c - g.cycle) * g.num / g.den + 1

/-- The clocks of engine n so far. -/
def marksNow (s : State) (n : Nat) : Nat := marksAt s n (uclkEdges s.time.ltick)

/-- The present UCLK cycle is a clock of engine n that it has not yet used. -/
def clockDue (s : State) (n : Nat) : Bool :=
  clockMarked s n (uclkEdges s.time.ltick) && decide ((getEng s n).lastMark < marksNow s n)

/-- Engine n uses the present clock. -/
def useClock (n : Nat) (s : State) : State := onEng n (fun e => { e with lastMark := marksNow s n }) s

/-- A setting of SCR_CLKDIV that takes effect at the second UCLK cycle from now, which is its phase origin (R64, R65). `old` and `oldDen`
are the NUM and DEN in force until then when no setting stands yet. -/
def newOrigin (n oldNum oldDen : Nat) (s : State) : State :=
  let now := uclkEdges s.time.ltick
  let olds := if (getEng s n).clocks = [] then [divSetting 0 oldNum oldDen 0] else (getEng s n).clocks
  let t := onEng n (fun e => { e with clocks := olds }) s
  let g := divSetting (now + 2) (clkNum s n) (clkDen s n) (marksAt t n (now + 1))
  let kept := olds.filter (fun x => now < x.cycle) ++ (olds.find? (fun x => x.cycle ≤ now)).toList
  onEng n (fun e => { e with clocks := g :: kept }) s

/-- Delay clocks stop counting when the engine is disabled: what is left stays in the latch (R68). -/
def holdDelay (n : Nat) (s : State) : State :=
  let gone := marksNow s n - (getEng s n).lastMark
  onEng n (fun e => { e with latched := e.latched.map (fun l => { l with delay := l.delay.map (fun d => d - gone) }) }) s

/-- The delay left in the latch counts on from the next clock (R68). -/
def resumeDelay (n : Nat) (s : State) : State :=
  match (getEng s n).latched with
  | some l => if (l.delay.getD 0) = 0 then s else useClock n s
  | none => s

/-- The engine executes: RUN or STALL. -/
def running (s : State) (n : Nat) : Bool := engState s n = 1 || engState s n = 2

/-- A word enters the instruction latch, fetched from PC or taken from the injection latch (R66, R87). -/
def fetchInto (n : Nat) (w : BitVec 16) (injected : Bool) (s : State) : State :=
  let x := R.SCR_EXEC (n / 4) (n % 4)
  let l : Latched := { word := w, addr := getF s (rPc n) F.SCR_PC_VAL, injected := injected, edge := none, delay := none,
                       loopFrom := getF s x F.SCR_EXEC_LOOP_FROM, loopTo := getF s x F.SCR_EXEC_LOOP_TO }
  let s := onEng n (fun e => { e with latched := some l, inj := if injected then none else e.inj }) s
  let s := if injected then setB s (rEstat n) F.SCR_ESTAT_INJ_PEND false else s
  setF s (rEstat n) F.SCR_ESTAT_INSTR w.toNat

/-- The instruction that the engine's next clock works on, with the state in which it is in the latch: the injected one at a
boundary or in place of a stall, the stalled one, or the one at PC (R66, R87). None while delay clocks run. -/
def nextInstr (s : State) (n : Nat) : Option (Latched × State) :=
  let e := getEng s n
  let stalled : Bool := match e.latched with
    | some l => l.delay.isNone
    | none => false
  let delayed : Bool := match e.latched with
    | some l => match l.delay with
      | some d => decide (0 < d)
      | none => false
    | none => false
  if ¬running s n ∨ delayed then none
  else
    let t := match e.inj with
      | some w => fetchInto n w true s
      | none => if stalled then s else fetchInto n (storeWord s (n / 4) (getF s (rPc n) F.SCR_PC_VAL)) false s
    (getEng t n).latched.map (fun l => (l, t))

/-- OPCODE. -/
def opcodeOf (w : BitVec 16) : Nat := opBits w 12 4

/-- The registers of the register file, of X, Y, ISR and OSR, that a clock of an instruction reads (R73 to R77). -/
def regsRead (s : State) (n : Nat) (w : BitVec 16) : List Nat :=
  let op := opcodeOf w
  let refills := opBits w 5 1 = 1 ∧ or32 (getF s (rShcfg n) F.SCR_SHCFG_OUT_LEN) ≤ getOsc s n
  let sel := opBits w 6 3
  if op = 0 then (if opBits w 7 2 = 3 then [if opBits w 0 1 = 0 then rX n else rY n] else [])
  else if op = 1 then rIsr n :: (if sel = 1 then [rX n] else if sel = 2 then [rY n] else if sel = 5 then [rOsr n] else [])
  else if op = 2 then (if refills then [] else [rOsr n]) ++ (if sel = 4 then [rIsr n] else [])
  else if op = 4 then (if opBits w 6 2 = 0 then [rIsr n] else if opBits w 6 2 = 1 then [rX n] else if opBits w 6 2 = 2 then [rY n] else [])
  else if op = 5 then
    (let src := opBits w 0 3
     if src = 0 then [rX n] else if src = 1 then [rY n] else if src = 2 then [rIsr n] else if src = 3 then [rOsr n] else [])
  else if op = 7 then (if sel = 1 then [rX n] else if sel = 2 then [rY n] else if sel = 3 then [rX n, rY n] else [])
  else []

/-- A clock of an instruction takes a word from the TX FIFO (R75, R80). -/
def readsTx (s : State) (n : Nat) (w : BitVec 16) : Bool :=
  (getEng s n).tx ≠ [] &&
  (opcodeOf w = 3 || (opcodeOf w = 2 && opBits w 5 1 = 1 && decide (or32 (getF s (rShcfg n) F.SCR_SHCFG_OUT_LEN) ≤ getOsc s n)))

/-- The engine faults on a register whose stored parity is wrong (R89, R398). -/
def regParity (n a : Nat) (s : State) : State := parityRecord 10 0x0003 (n / 4) a (enterFault n 6 s)

/-- One engine clock, when the present UCLK cycle is one and the instruction it works on is of the kind `is`; otherwise nothing happens.
An instruction that reads a register with a parity error faults instead (R64, R66, R89). -/
def runClock (n : Nat) (is : BitVec 16 → Bool) (f : Nat → Latched → State → Clock) (s : State) : State :=
  if ¬clockDue s n then s
  else
    match nextInstr s n with
    | some (l, t) =>
      if ¬is l.word then s
      else
        match (regsRead s n l.word).find? (fun a => badWord s a) with
        | some a => regParity n a (useClock n t)
        | none => finishClock n l (f n l (useClock n t))
    | none => s
/-- OPCODE is k and the field at bit 7 of width 2 is j. -/
def isKind (k j : Nat) (w : BitVec 16) : Bool := opcodeOf w = k && opBits w 7 2 = j

/-! WAIT (R73). -/

/-- The level that a WAIT LEVEL or EDGE reads, none for a reserved operand. -/
def waitLevelOf (s : State) (n : Nat) (w : BitVec 16) : Option Bool :=
  if opBits w 5 1 = 1 then some (windowLevel s (n / 4) (opBits w 0 5))
  else if opBits w 3 2 ≠ 0 then none
  else some (inLane s n (opBits w 0 3))

/-- A clock of WAIT LEVEL. -/
def clockWaitLevel (n : Nat) (l : Latched) (s : State) : Clock :=
  match waitLevelOf s n l.word with
  | none => .fault 2 s
  | some b => if b = decide (opBits l.word 6 1 = 1) then .done none s else .stall 1 s

/-- A clock of WAIT EDGE: the first reading only sets the level to compare with. -/
def clockWaitEdge (n : Nat) (l : Latched) (s : State) : Clock :=
  match waitLevelOf s n l.word with
  | none => .fault 2 s
  | some b =>
    let pol := decide (opBits l.word 6 1 = 1)
    if l.edge = some (!pol) ∧ b = pol then .done none s
    else .stall 1 (onEng n (fun e => { e with latched := e.latched.map (fun x => { x with edge := some b }) }) s)

/-- A clock of WAIT FLAG. -/
def clockWaitFlag (n : Nat) (l : Latched) (s : State) : Clock :=
  let pol := decide (opBits l.word 6 1 = 1)
  let clr := decide (opBits l.word 5 1 = 1)
  let f := opBits l.word 0 3
  if opBits l.word 3 2 ≠ 0 ∨ (clr ∧ ¬pol) then .fault 2 s
  else if scrFlag s (n / 4) f ≠ pol then .stall 1 s
  else .done none (if clr then changeFlags (n / 4) 0 (2 ^ f) 0 s else s)

/-- A clock of WAIT COUNT: the register counts down and the WAIT stalls until it reads 0. -/
def clockWaitCount (n : Nat) (l : Latched) (s : State) : Clock :=
  if opBits l.word 5 2 ≠ 0 ∨ opBits l.word 1 4 ≠ 0 then .fault 2 s
  else if opBits l.word 0 1 = 0 then
    let v := getReg s (rX n)
    if v = 0 then .done none s else .stall 4 (setX n (v - 1) s)
  else
    let v := getReg s (rY n)
    if v = 0 then .done none s else .stall 4 (setY n (v - 1) s)

/-! FIFOs (R79 to R84). -/

/-- A word goes into the RX FIFO as the youngest. -/
def pushRx (n : Nat) (w : Word) (s : State) : State := onEng n (fun e => { e with rx := e.rx ++ [w] }) s

/-- ISR is emptied. -/
def emptyIsr (n : Nat) (s : State) : State := setIsc n 0 (setIsr n 0 s)

/-- A PULL or a refill takes the oldest TX word (R80, R91): a poisoned one is removed and faults; a clean one enters the
last-pulled latch. None when the FIFO is empty. -/
def takeTx (n : Nat) (s : State) : Option (Except State (Word × State)) :=
  match (getEng s n).tx with
  | [] => none
  | (w, pois) :: rest =>
    let s := onEng n (fun e => { e with tx := rest }) s
    if pois then some (.error (consumePoison 3 s)) else some (.ok (w, setReg s (rLatch n) w))

/-! SHIN and SHOUT (R74, R75). -/

/-- N bits shifted into ISR, with ISC (R74). -/
def shiftIn (n N bits : Nat) (s : State) : State :=
  let isr := (getReg s (rIsr n)).toNat
  let v := if getB s (rShcfg n) F.SCR_SHCFG_IN_FIRST then isr / 2 ^ N + bits % 2 ^ N * 2 ^ (32 - N) else isr * 2 ^ N + bits % 2 ^ N
  setIsc n (getIsc s n + N) (setIsr n (BitVec.ofNat 32 v) s)

/-- The bits that SHIN takes. -/
def shinBits (s : State) (n src : Nat) : Nat :=
  if src = 0 then inLanes s n
  else if src = 1 then (getReg s (rX n)).toNat
  else if src = 2 then (getReg s (rY n)).toNat
  else if src = 3 then 0
  else if src = 4 then 2 ^ 32 - 1
  else (getReg s (rOsr n)).toNat

/-- A clock of SHIN. -/
def clockShin (n : Nat) (l : Latched) (s : State) : Clock :=
  let src := opBits l.word 6 3
  let N := or32 (opBits l.word 0 5)
  let hand := decide (opBits l.word 5 1 = 1 ∧ or32 (getF s (rShcfg n) F.SCR_SHCFG_IN_LEN) ≤ getIsc s n + N)
  if 6 ≤ src then .fault 2 s
  else if hand ∧ rxRoom s n = 0 then .stall 3 s
  else
    let s := shiftIn n N (shinBits s n src) s
    .done none (if hand then emptyIsr n (pushRx n (getReg s (rIsr n)) s) else s)

/-- The N bits that SHOUT takes from OSR, and the OSR that is left. -/
def shoutBits (s : State) (n N : Nat) : Nat × Nat :=
  let osr := (getReg s (rOsr n)).toNat
  if getB s (rShcfg n) F.SCR_SHCFG_OUT_FIRST then (osr % 2 ^ N, osr / 2 ^ N) else (osr / 2 ^ (32 - N), osr * 2 ^ N % 2 ^ 32)

/-- SHOUT takes its bits and delivers them. -/
def shoutTo (n N dst : Nat) (s : State) : Clock :=
  let (v, rest) := shoutBits s n N
  let s := setOsc n (getOsc s n + N) (setOsr n (BitVec.ofNat 32 rest) s)
  let w : Word := BitVec.ofNat 32 v
  if dst = 0 then .done none (writeLanes n false (shMask s n) N v s)
  else if dst = 1 then .done none (writeLanes n true (shMask s n) N v s)
  else if dst = 2 then .done none (setX n w s)
  else if dst = 3 then .done none (setY n w s)
  else if dst = 4 then .done none (shiftIn n N v s)
  else if dst = 5 then .done none s
  else .done (some (v % 32)) s

/-- A clock of SHOUT. -/
def clockShout (n : Nat) (l : Latched) (s : State) : Clock :=
  let dst := opBits l.word 6 3
  let N := or32 (opBits l.word 0 5)
  if dst = 7 then .fault 2 s
  else if opBits l.word 5 1 = 1 ∧ or32 (getF s (rShcfg n) F.SCR_SHCFG_OUT_LEN) ≤ getOsc s n then
    match takeTx n s with
    | none => .stall 2 s
    | some (.error t) => .fault 4 t
    | some (.ok (w, t)) => shoutTo n N dst (setOsc n 0 (setOsr n w t))
  else shoutTo n N dst s

/-! PULL and PUSH (R80 to R83). -/

/-- A pulled word goes to OSR, X or Y. -/
def pullInto (n dst : Nat) (w : Word) (s : State) : State :=
  if dst = 0 then setOsc n 0 (setOsr n w s) else if dst = 1 then setX n w s else setY n w s

/-- A clock of PULL. -/
def clockPull (n : Nat) (l : Latched) (s : State) : Clock :=
  let dst := opBits l.word 6 2
  if dst = 3 ∨ opBits l.word 0 6 ≠ 0 then .fault 2 s
  else
    match takeTx n s with
    | some (.error t) => .fault 4 t
    | some (.ok (w, t)) => .done none (pullInto n dst w t)
    | none =>
      if opBits l.word 8 1 = 1 then .stall 2 s
      else .done none (bump (ctr 0x0003 0 n) (pullInto n dst (getReg s (rLatch n)) s))

/-- The youngest RX entry is replaced. -/
def replaceYoungest (n : Nat) (w : Word) (s : State) : State :=
  onEng n (fun e => { e with rx := if e.rx = [] then [] else e.rx.dropLast ++ [w] }) s

/-- A clock of PUSH. -/
def clockPush (n : Nat) (l : Latched) (s : State) : Clock :=
  let src := opBits l.word 6 2
  if src = 3 ∨ opBits l.word 0 6 ≠ 0 then .fault 2 s
  else
    let v := getReg s (if src = 0 then rIsr n else if src = 1 then rX n else rY n)
    let drop := fun s => if src = 0 then emptyIsr n s else s
    if rxRoom s n ≠ 0 then .done none (drop (pushRx n v s))
    else if opBits l.word 8 1 = 1 then .stall 3 s
    else .done none (bump (ctr 0x0003 1 n) (drop (replaceYoungest n v s)))

/-! MOVE, SET and JUMP (R76, R77, R66). -/

/-- Gray code to binary: each bit is the exclusive or of the bits from it upward. -/
def gray2bin (g : Word) : Word :=
  let a := g ^^^ (g >>> 1)
  let b := a ^^^ (a >>> 2)
  let c := b ^^^ (b >>> 4)
  let d := c ^^^ (c >>> 8)
  d ^^^ (d >>> 16)

/-- Byte order reversed. -/
def swapBytes (w : Word) : Word := w.extractLsb 7 0 ++ w.extractLsb 15 8 ++ w.extractLsb 23 16 ++ w.extractLsb 31 24

/-- MOVE's transforms. -/
def moveOp (op : Nat) (w : Word) : Word :=
  if op = 0 then w else if op = 1 then ~~~w else if op = 2 then w + 1 else if op = 3 then w - 1
  else if op = 4 then gray2bin w else if op = 5 then w ^^^ (w >>> 1) else if op = 6 then swapBytes w else w.reverse

/-- STATUS: FIFO levels, cluster flags and ISC (R76). -/
def statusWord (s : State) (n : Nat) : Word :=
  let e := getEng s n
  BitVec.ofNat 32 (e.tx.length + e.rx.length * 2 ^ 8 + flagsSeen s (n / 4) * 2 ^ 16 + getIsc s n * 2 ^ 24)

/-- MOVE's sources. -/
def moveSrc (s : State) (n src : Nat) : Word :=
  if src = 0 then getReg s (rX n) else if src = 1 then getReg s (rY n) else if src = 2 then getReg s (rIsr n)
  else if src = 3 then getReg s (rOsr n) else if src = 4 then windowWord s (n / 4) else if src = 5 then statusWord s n
  else if src = 6 then 0 else getReg s (rLatch n)

/-- A clock of MOVE. -/
def clockMove (n : Nat) (l : Latched) (s : State) : Clock :=
  let dst := opBits l.word 6 3
  let v := moveOp (opBits l.word 3 3) (moveSrc s n (opBits l.word 0 3))
  if dst = 0 then .done none (setX n v s)
  else if dst = 1 then .done none (setY n v s)
  else if dst = 2 then .done none (setIsc n 0 (setIsr n v s))
  else if dst = 3 then .done none (setOsc n 0 (setOsr n v s))
  else if dst = 4 then .done none (writeLanes n false (shMask s n) 32 v.toNat s)
  else if dst = 5 then .done none (writeLanes n true (shMask s n) 32 v.toNat s)
  else if dst = 6 then .done (some (v.toNat % 32)) s
  else .fault 2 s

/-- A clock of SET. -/
def clockSet (n : Nat) (l : Latched) (s : State) : Clock :=
  let dst := opBits l.word 6 3
  let d := opBits l.word 0 6
  if dst = 0 then .done none (setX n (BitVec.ofNat 32 d) s)
  else if dst = 1 then .done none (setY n (BitVec.ofNat 32 d) s)
  else if dst = 2 then .done none (writeLanes n false (setMask s n) 6 d s)
  else if dst = 3 then .done none (writeLanes n true (setMask s n) 6 d s)
  else if dst = 4 then .done none (setIsc n d s)
  else if dst = 5 then .done none (setOsc n d s)
  else .fault 2 s

/-- A clock of JUMP. -/
def clockJump (n : Nat) (l : Latched) (s : State) : Clock :=
  let cond := opBits l.word 6 3
  let target := opBits l.word 0 5
  let go := fun (b : Bool) (s : State) => Clock.done (if b then some target else none) s
  let lane := inLane s n (getF s (R.SCR_PINS (n / 4) (n % 4)) F.SCR_PINS_JLANE)
  if opBits l.word 5 1 ≠ 0 then .fault 2 s
  else if cond = 0 then go true s
  else if cond = 1 then go (decide (getReg s (rX n) - 1 ≠ 0)) (setX n (getReg s (rX n) - 1) s)
  else if cond = 2 then go (decide (getReg s (rY n) - 1 ≠ 0)) (setY n (getReg s (rY n) - 1) s)
  else if cond = 3 then go (decide (getReg s (rX n) = getReg s (rY n))) s
  else if cond = 4 then go lane s
  else if cond = 5 then go (!lane) s
  else if cond = 6 then go (decide ((getEng s n).tx = [])) s
  else go (decide (or32 (getF s (rShcfg n) F.SCR_SHCFG_OUT_LEN) ≤ getOsc s n)) s

/-! MARK and FLAG (R78, R96, R97). -/

/-- The postmark of a MARK: the cluster's domain, to 4 ns, with FRAC 0. -/
def markPm (s : State) (n : Nat) : DWord :=
  let pm := pmVd s (getF s (R.SCR_CCTL (n / 4)) F.SCR_CCTL_VD)
  pm - BitVec.ofNat 64 (pm.toNat % 2 ^ 18)

/-- A clock of MARK. -/
def clockMark (n : Nat) (l : Latched) (s : State) : Clock :=
  let dst := opBits l.word 7 2
  let pm := markPm s n
  if dst = 3 ∨ opBits l.word 0 6 ≠ 0 then .fault 2 s
  else if dst = 0 then
    .done none (setReg (setReg s (R.SCR_MARK_LO (n / 4) (n % 4)) (lo32 pm)) (R.SCR_MARK_HI (n / 4) (n % 4)) (hi32 pm))
  else
    let words := if dst = 1 then [lo32 pm, hi32 pm] else [BitVec.ofNat 32 (pm.toNat / 2 ^ 16)]
    if words.length ≤ rxRoom s n then .done none (words.foldl (fun s w => pushRx n w s) s)
    else if opBits l.word 6 1 = 1 then .stall 3 s
    else .done none (bump (ctr 0x0003 1 n) s)

/-- FLAG's reserved bits are 0. -/
def flagOk (l : Latched) : Bool := opBits l.word 3 4 = 0

/-- A clock of FLAG RAISE. -/
def clockFlagRaise (n : Nat) (l : Latched) (s : State) : Clock :=
  if flagOk l then .done none (changeFlags (n / 4) 0 0 (2 ^ opBits l.word 0 3) s) else .fault 2 s

/-- A clock of FLAG LOWER. -/
def clockFlagLower (n : Nat) (l : Latched) (s : State) : Clock :=
  if flagOk l then .done none (changeFlags (n / 4) 0 (2 ^ opBits l.word 0 3) 0 s) else .fault 2 s

/-- A clock of FLAG TOGGLE. -/
def clockFlagToggle (n : Nat) (l : Latched) (s : State) : Clock :=
  if flagOk l then .done none (changeFlags (n / 4) (2 ^ opBits l.word 0 3) 0 0 s) else .fault 2 s

/-- A clock of FLAG NOTICE. -/
def clockFlagNotice (n : Nat) (l : Latched) (s : State) : Clock :=
  if flagOk l then .done none (scrNotice n 0x41 (opBits l.word 0 3) s) else .fault 2 s

/-- A clock of an illegal opcode. -/
def clockIllegal (_ : Nat) (_ : Latched) (s : State) : Clock := .fault 1 s

/-- A clock of whatever instruction is in the latch. -/
def clockAny (n : Nat) (l : Latched) (s : State) : Clock :=
  let w := l.word
  let op := opcodeOf w
  let k := opBits w 7 2
  if op = 0 then
    (if k = 0 then clockWaitLevel n l s else if k = 1 then clockWaitEdge n l s else if k = 2 then clockWaitFlag n l s
     else clockWaitCount n l s)
  else if op = 1 then clockShin n l s
  else if op = 2 then clockShout n l s
  else if op = 3 then clockPull n l s
  else if op = 4 then clockPush n l s
  else if op = 5 then clockMove n l s
  else if op = 6 then clockSet n l s
  else if op = 7 then clockJump n l s
  else if op = 8 then clockMark n l s
  else if op = 9 then
    (if k = 0 then clockFlagRaise n l s else if k = 1 then clockFlagLower n l s else if k = 2 then clockFlagToggle n l s
     else clockFlagNotice n l s)
  else clockIllegal n l s

/-! The engine's commands: one engine clock in which the named instruction is executed. -/

/-- WAIT_LEVEL (R73). -/
def execWaitLevel (e : Fin 64) (s : State) : Host.Outcome State Fault Refusal := .next (runClock e (isKind 0 0) clockWaitLevel s)
/-- WAIT_EDGE (R73). -/
def execWaitEdge (e : Fin 64) (s : State) : Host.Outcome State Fault Refusal := .next (runClock e (isKind 0 1) clockWaitEdge s)
/-- WAIT_FLAG (R73). -/
def execWaitFlag (e : Fin 64) (s : State) : Host.Outcome State Fault Refusal := .next (runClock e (isKind 0 2) clockWaitFlag s)
/-- WAIT_COUNT (R73). -/
def execWaitCount (e : Fin 64) (s : State) : Host.Outcome State Fault Refusal := .next (runClock e (isKind 0 3) clockWaitCount s)
/-- SHIN (R74). -/
def execShin (e : Fin 64) (s : State) : Host.Outcome State Fault Refusal :=
  .next (runClock e (fun w => opcodeOf w = 1) clockShin s)
/-- SHOUT (R75). -/
def execShout (e : Fin 64) (s : State) : Host.Outcome State Fault Refusal :=
  .next (runClock e (fun w => opcodeOf w = 2) clockShout s)
/-- PULL (R80, R81, R91). -/
def execPull (e : Fin 64) (s : State) : Host.Outcome State Fault Refusal :=
  .next (runClock e (fun w => opcodeOf w = 3) clockPull s)
/-- PUSH (R82, R83). -/
def execPush (e : Fin 64) (s : State) : Host.Outcome State Fault Refusal :=
  .next (runClock e (fun w => opcodeOf w = 4) clockPush s)
/-- MOVE (R76). -/
def execScribeMove (e : Fin 64) (s : State) : Host.Outcome State Fault Refusal :=
  .next (runClock e (fun w => opcodeOf w = 5) clockMove s)
/-- SET (R77). -/
def execScribeSet (e : Fin 64) (s : State) : Host.Outcome State Fault Refusal :=
  .next (runClock e (fun w => opcodeOf w = 6) clockSet s)
/-- JUMP (R66). -/
def execJump (e : Fin 64) (s : State) : Host.Outcome State Fault Refusal :=
  .next (runClock e (fun w => opcodeOf w = 7) clockJump s)
/-- MARK (R78). -/
def execMark (e : Fin 64) (s : State) : Host.Outcome State Fault Refusal :=
  .next (runClock e (fun w => opcodeOf w = 8) clockMark s)
/-- FLAG_RAISE (R96). -/
def execFlagRaise (e : Fin 64) (s : State) : Host.Outcome State Fault Refusal := .next (runClock e (isKind 9 0) clockFlagRaise s)
/-- FLAG_LOWER (R96). -/
def execFlagLower (e : Fin 64) (s : State) : Host.Outcome State Fault Refusal := .next (runClock e (isKind 9 1) clockFlagLower s)
/-- FLAG_TOGGLE (R96). -/
def execFlagToggle (e : Fin 64) (s : State) : Host.Outcome State Fault Refusal := .next (runClock e (isKind 9 2) clockFlagToggle s)
/-- FLAG_NOTICE (R97). -/
def execFlagNotice (e : Fin 64) (s : State) : Host.Outcome State Fault Refusal := .next (runClock e (isKind 9 3) clockFlagNotice s)
/-- ILLEGAL (R89). -/
def execIllegal (e : Fin 64) (s : State) : Host.Outcome State Fault Refusal :=
  .next (runClock e (fun w => decide (10 ≤ opcodeOf w)) clockIllegal s)

/-- STALL_COMPLETE (R68): a clock in which a stalled instruction's condition is tested again; it completes when it holds. -/
def execStallComplete (e : Fin 64) (s : State) : Host.Outcome State Fault Refusal :=
  match (getEng s e).latched with
  | some l => .next (if l.delay.isNone ∧ (getEng s e).inj.isNone then runClock e (fun _ => true) clockAny s else s)
  | none => .next s

/-- DELAY_EXPIRY (R64, R66): once the engine has had its delay clocks, the delay runs out and the engine is at its next boundary, where the next command fetches. -/
def execDelayExpiry (e : Fin 64) (s : State) : Host.Outcome State Fault Refusal :=
  match (getEng s e).latched with
  | some l =>
    match l.delay with
    | some d =>
      if running s e ∧ 0 < d ∧ (getEng s e).lastMark + d ≤ marksNow s e then
        .next (atBoundary e (onEng e (fun x => { x with latched := some { l with delay := some 0 }, lastMark := x.lastMark + d }) s))
      else .next s
    | none => .next s
  | none => .next s

/-! Engine control (R64, R65, R68, R69). -/

/-- The instruction latch is emptied. -/
def emptyLatch (n : Nat) (s : State) : State :=
  setF (onEng n (fun e => { e with latched := none }) s) (rEstat n) F.SCR_ESTAT_INSTR 0

/-- RESTART (R69). -/
def restartEngine (n : Nat) (s : State) : State :=
  let s := setReg s (rPc n) (BitVec.ofNat 32 (getF s (R.SCR_EXEC (n / 4) (n % 4)) F.SCR_EXEC_ENTRY))
  let s := emptyIsr n (emptyLatch n s)
  let s := setOsc n 32 (setOsr n 0 s)
  if engState s n = 2 then setEngState n 1 0 s else s

/-- An engine that is not in FAULT is enabled: RUN (R68). -/
def enableEngine (n : Nat) (s : State) : State :=
  if engEnabled s n then s
  else
    let s := resumeDelay n (onEng n (fun e => { e with stepping := false }) (setB s (rScrCtl n) F.SCR_CTL_EN true))
    reviewEngineTracks n (setEngState n 1 0 s)

/-- EN is cleared: IDLE at once, with the latch kept (R68). -/
def disableEngine (n : Nat) (s : State) : State :=
  let s := setB s (rScrCtl n) F.SCR_CTL_EN false
  if running s n ∧ ¬(getEng s n).stepping then reviewEngineTracks n (setEngState n 0 0 (holdDelay n s)) else s

/-- CLRF (R68, R90): the engine leaves FAULT, unless a store parity error is still flagged. -/
def clearFault (n : Nat) (s : State) : State :=
  if engState s n ≠ 3 then s
  else if getB s (R.SCR_CSTAT (n / 4)) F.SCR_CSTAT_PARITY then setB s (rEstat n) F.SCR_ESTAT_CFGREF true
  else
    let s := setF (emptyLatch n s) (rEstat n) F.SCR_ESTAT_FCAUSE 0
    reviewEngineTracks n (setEngState n 0 0 s)

/-- A write of SCR_CTL: CLRF and RESTART, then EN and STEP (R68, R69). -/
def writeScrCtl (n : Nat) (v : Word) (s : State) : State :=
  let s := countPart (rScrCtl n) v s
  if engState s n = 3 then
    let s := if F.SCR_CTL_CLRF.get v = 1 then clearFault n s else s
    if F.SCR_CTL_EN.get v = 1 then setB s (rEstat n) F.SCR_ESTAT_CFGREF true else s
  else
    let s := if F.SCR_CTL_RESTART.get v = 1 then restartEngine n s else s
    let was := engEnabled s n
    if F.SCR_CTL_EN.get v = 1 then enableEngine n s
    else
      let s := if was then disableEngine n s else s
      if F.SCR_CTL_STEP.get v = 1 ∧ ¬was ∧ engState s n = 0 then
        reviewEngineTracks n (setEngState n 1 0 (resumeDelay n (onEng n (fun e => { e with stepping := true }) s)))
      else s

/-- ENGINE_ENABLE (R68): a write of SCR_CTL with EN 1. -/
def execEngineEnable (m : Master) (e : Fin 64) (v : Word) (s : State) : Host.Outcome State Fault Refusal :=
  .next (guardWrite m (rScrCtl e) (fun s => (writeScrCtl e (F.SCR_CTL_EN.put v 1) s, none)) s)

/-- ENGINE_DISABLE (R68): a write of SCR_CTL with EN 0. -/
def execEngineDisable (m : Master) (e : Fin 64) (v : Word) (s : State) : Host.Outcome State Fault Refusal :=
  .next (guardWrite m (rScrCtl e) (fun s => (writeScrCtl e (F.SCR_CTL_EN.put v 0) s, none)) s)

/-- ENGINE_STEP (R68): a write of SCR_CTL with STEP 1 and EN as it stands; it is ignored while EN is 1. -/
def execEngineStep (m : Master) (e : Fin 64) (v : Word) (s : State) : Host.Outcome State Fault Refusal :=
  .next (guardWrite m (rScrCtl e) (fun s =>
    (writeScrCtl e (F.SCR_CTL_EN.put (F.SCR_CTL_STEP.put v 1) (bit1 (engEnabled s e))) s, none)) s)

/-- RESTART (R69): a write of SCR_CTL with RESTART 1. -/
def execRestart (m : Master) (e : Fin 64) (v : Word) (s : State) : Host.Outcome State Fault Refusal :=
  .next (guardWrite m (rScrCtl e) (fun s => (writeScrCtl e (F.SCR_CTL_RESTART.put v 1) s, none)) s)

/-- CLRF (R68, R90): a write of SCR_CTL with CLRF 1. -/
def execClrf (m : Master) (e : Fin 64) (v : Word) (s : State) : Host.Outcome State Fault Refusal :=
  .next (guardWrite m (rScrCtl e) (fun s => (writeScrCtl e (F.SCR_CTL_CLRF.put v 1) s, none)) s)

/-- A write of SCR_CSYNC: listed engines start with one phase origin, or stop together; one in both lists is unchanged (R65). -/
def writeCsync (k : Nat) (v : Word) (s : State) : State :=
  let s := countPart (R.SCR_CSYNC k) v s
  (List.range 4).foldl (fun s i =>
    let n := 4 * k + i
    let start := v.getLsbD i
    let stop := v.getLsbD (4 + i)
    if start = stop then s
    else if stop then disableEngine n s
    else if engState s n = 3 then s
    else newOrigin n (clkNum s n) (clkDen s n) (enableEngine n s)) s

/-- CSYNC_START (R65): a write of SCR_CSYNC.START. -/
def execCsyncStart (m : Master) (k : Fin 16) (v : Word) (s : State) : Host.Outcome State Fault Refusal :=
  .next (guardWrite m (R.SCR_CSYNC k) (fun s => (writeCsync k (F.SCR_CSYNC_STOP.put v 0) s, none)) s)

/-- CSYNC_STOP (R65): a write of SCR_CSYNC.STOP. -/
def execCsyncStop (m : Master) (k : Fin 16) (v : Word) (s : State) : Host.Outcome State Fault Refusal :=
  .next (guardWrite m (R.SCR_CSYNC k) (fun s => (writeCsync k (F.SCR_CSYNC_START.put v 0) s, none)) s)

/-- A write of SCR_CLKDIV (R64). -/
def writeClkdiv (n : Nat) (v : Word) (s : State) : State := 
  newOrigin n (clkNum s n) (clkDen s n) (plainWrite (R.SCR_CLKDIV (n / 4) (n % 4)) v s)

/-- CLKDIV_WRITE (R64). -/
def execClkdivWrite (m : Master) (e : Fin 64) (v : Word) (s : State) : Host.Outcome State Fault Refusal :=
  .next (guardWrite m (R.SCR_CLKDIV (e.val / 4) (e.val % 4)) (fun s => (writeClkdiv e v s, none)) s)

/-- A write of SCR_INJ (R87). -/
def writeInject (n : Nat) (v : Word) (s : State) : State :=
  let s := countPart (R.SCR_INJ (n / 4) (n % 4)) v s
  if engState s n = 3 ∨ (getEng s n).inj.isSome then setB s (rEstat n) F.SCR_ESTAT_INJREF true
  else setB (onEng n (fun e => { e with inj := some (v.truncate 16) }) s) (rEstat n) F.SCR_ESTAT_INJ_PEND true

/-- INJECT (R87). -/
def execInject (m : Master) (e : Fin 64) (v : Word) (s : State) : Host.Outcome State Fault Refusal :=
  .next (guardWrite m (R.SCR_INJ (e.val / 4) (e.val % 4)) (fun s => (writeInject e v s, none)) s)

/-! The program store, FIFO registers, flags and state registers (R58, R84, R85, R96). -/

/-- One program-store word is written. -/
def setStoreWord (k i : Nat) (w : BitVec 16) (s : State) : State :=
  onScribe (fun x => { x with store := tabSet (fun _ => 0) x.store (32 * k + i % 32) w }) s

/-- A write of the program store at a byte offset: one word, or two together (R85). -/
def writeStore (k off width : Nat) (v : Word) (s : State) : State :=
  let s := setStoreWord k (off / 2) (v.truncate 16) s
  if width = 4 then setStoreWord k (off / 2 + 1) ((v >>> 16).truncate 16) s else s

/-- PROGRAM_STORE_WRITE (R85): an offset within the 64 bytes of the store. -/
def execProgramStoreWrite (m : Master) (k : Fin 16) (off width : Nat) (v : Word) (s : State) : Host.Outcome State Fault Refusal :=
  .next (guardWriteAt m (0x30400 + 0x1000 * k.val + off % 64) width (fun s => (writeStore k (off % 64) width v s, none)) s)

/-- A write of SCR_TXF (R84): a word is appended, or dropped while the FIFO is full or DMA feeds it. -/
def writeTxf (n : Nat) (v : Word) (s : State) : State :=
  let mode := getF s (rDmaTx n) F.SCR_DMA_TX_MODE
  if txCap s n ≤ (getEng s n).tx.length ∨ mode = 1 ∨ mode = 2 then
    bump (ctr 0x0003 2 n) (setB s (rFstat n) F.SCR_FSTAT_TX_DROP true)
  else onEng n (fun e => { e with tx := e.tx ++ [(v, false)] }) s

/-- SCR_TXF_WRITE (R84). -/
def execScrTxfWrite (m : Master) (e : Fin 64) (v : Word) (s : State) : Host.Outcome State Fault Refusal :=
  .next (guardWrite m (R.SCR_TXF (e.val / 4) (e.val % 4)) (fun s => (writeTxf e v s, none)) s)

/-- A read of SCR_RXF (R84): the oldest word, poisoned when its parity is bad (R89). -/
def readRxf (n : Nat) (bad : Bool) (s : State) : State × Word × Bool :=
  if getF s (rDmaRx n) F.SCR_DMA_RX_MODE = 1 then (setB s (rFstat n) F.SCR_FSTAT_DMAREF true, 0, false)
  else
    match (getEng s n).rx with
    | [] => (setB s (rFstat n) F.SCR_FSTAT_RX_EMPTY true, 0, false)
    | w :: rest =>
      let s := onEng n (fun e => { e with rx := rest }) s
      (if bad then parityRecord 9 0x0003 (n / 4) (R.SCR_RXF (n / 4) (n % 4)) s else s, w, bad)

/-- SCR_RXF_READ (R84). -/
def execScrRxfRead (m : Master) (e : Fin 64) (bad : Bool) (s : State) : Host.Outcome State Fault Refusal :=
  .next (guardReadP m (R.SCR_RXF (e.val / 4) (e.val % 4)) (fun s => readRxf e bad s) s)

/-- A write of SCR_FLAGS: lowerings, then raisings (R96). -/
def writeScrFlags (k : Nat) (v : Word) (s : State) : State :=
  changeFlags k 0 (F.SCR_FLAGS_FLAG.get v) (F.SCR_FLAGS_SET.get v) (countPart (R.SCR_FLAGS k) v s)

/-- FLAGS_CLEAR (R96): a write of SCR_FLAGS.FLAG. -/
def execFlagsClear (m : Master) (k : Fin 16) (v : Word) (s : State) : Host.Outcome State Fault Refusal :=
  .next (guardWrite m (R.SCR_FLAGS k) (fun s => (writeScrFlags k (F.SCR_FLAGS_SET.put v 0) s, none)) s)

/-- FLAGS_SET (R96): a write of SCR_FLAGS.SET. -/
def execFlagsSet (m : Master) (k : Fin 16) (v : Word) (s : State) : Host.Outcome State Fault Refusal :=
  .next (guardWrite m (R.SCR_FLAGS k) (fun s => (writeScrFlags k (F.SCR_FLAGS_FLAG.put v 0) s, none)) s)

/-- The address of an engine's state or configuration register. -/
def engineRegAddr (n : Nat) : EngineReg → Nat
  | .x => rX n
  | .y => rY n
  | .isr => rIsr n
  | .osr => rOsr n
  | .shc => rShc n
  | .shcfg => rShcfg n
  | .pins => R.SCR_PINS (n / 4) (n % 4)
  | .olaneLo => R.SCR_OLANE_LO (n / 4) (n % 4)
  | .olaneHi => R.SCR_OLANE_HI (n / 4) (n % 4)
  | .ilaneLo => R.SCR_ILANE_LO (n / 4) (n % 4)
  | .ilaneHi => R.SCR_ILANE_HI (n / 4) (n % 4)

/-- A change of FIFO_MODE empties both FIFOs, and each discarded word counts as a TX drop (R79). -/
def emptyFifos (n : Nat) (s : State) : State :=
  let e := getEng s n
  bumpN (ctr 0x0003 2 n) (e.tx.length + e.rx.length) (onEng n (fun e => { e with tx := [], rx := [] }) s)

/-- A write of an engine's state or configuration register: refused with CFGREF while EN is 1 (R58). -/
def writeEngineReg (n : Nat) (r : EngineReg) (v : Word) (s : State) : State :=
  let a := engineRegAddr n r
  if engEnabled s n then setB (countPart a v s) (rEstat n) F.SCR_ESTAT_CFGREF true
  else
    match r with
    | .x => setX n v s
    | .shc =>
      let s := countPart a v s
      setOsc n (F.SCR_SHC_OSC.get v) (setIsc n (F.SCR_SHC_ISC.get v) s)
    | .shcfg =>
      let old := getF s a F.SCR_SHCFG_FIFO_MODE
      let s := plainWrite a v s
      if F.SCR_SHCFG_FIFO_MODE.get v = old then s else emptyFifos n s
    | _ => plainWrite a v s

/-- ENGINE_STATE_WRITE (R58). -/
def execEngineStateWrite (m : Master) (e : Fin 64) (r : EngineReg) (v : Word) (s : State) : Host.Outcome State Fault Refusal :=
  .next (guardWrite m (engineRegAddr e r) (fun s => (writeEngineReg e r v s, none)) s)

/-- A write of SCR_PC (R58): ignored with CFGREF while EN is 1; on an IDLE engine it empties the instruction latch. -/
def writePc (n : Nat) (v : Word) (s : State) : State :=
  if engEnabled s n then setB (countPart (rPc n) v s) (rEstat n) F.SCR_ESTAT_CFGREF true
  else
    let s := plainWrite (rPc n) v s
    if engState s n = 0 then emptyLatch n s else s

/-- PC_WRITE (R58). -/
def execPcWrite (m : Master) (e : Fin 64) (v : Word) (s : State) : Host.Outcome State Fault Refusal :=
  .next (guardWrite m (rPc e) (fun s => (writePc e v s, none)) s)

/-! Cluster DMA (R92 to R95, R497). -/

/-- A write of a channel register; a record past the image half is refused with CFGREF (R92). -/
def writeDma (n : Nat) (rx : Bool) (v : Word) (s : State) : State :=
  let a := if rx then rDmaRx n else rDmaTx n
  if 0x8000 < 4 * F.SCR_DMA_TX_WOFF.get v + 4 * (F.SCR_DMA_TX_CNT.get v + 1) then
    setB (countPart a v s) (rEstat n) F.SCR_ESTAT_CFGREF true
  else plainWrite a v s

/-- DMA_CHANNEL_WRITE (R92). -/
def execDmaChannelWrite (m : Master) (e : Fin 64) (rx : Bool) (v : Word) (s : State) : Host.Outcome State Fault Refusal :=
  .next (guardWrite m (if rx then rDmaRx e else rDmaTx e) (fun s => (writeDma e rx v s, none)) s)

/-- A TX record is skipped and counted. -/
def txSkip (n : Nat) (s : State) : State := bump (ctr 0x0003 3 n) s

/-- A TX channel starts the read of its record (R93). -/
def startTx (n : Nat) (s : State) : State :=
  let r := (getF s (rDmaTx n) F.SCR_DMA_TX_WOFF, getF s (rDmaTx n) F.SCR_DMA_TX_CNT + 1)
  settleDma (n / 4) (onEng n (fun e => { e with txOut := some r }) s)

/-- At each boundary a CYCLE channel starts its record's read, or skips it while the last one has not returned (R93, R94) or its
cluster is under test (R406). -/
def cycleTx (s : State) : State :=
  (List.range 64).foldl (fun s n =>
    if getF s (rDmaTx n) F.SCR_DMA_TX_MODE = 1 ∧ ¬inUnitReset s 0x0003 (n / 4) then
      (if underTest s (0x40 + n / 4) then txSkip n (bump (ctr 0x0016 6 (n / 4)) s)
       else if (getEng s n).txOut.isSome then txSkip n s else startTx n s)
    else s) s

/-- DMA_TX_REFILL (R93): a REFILL channel starts a read when the TX FIFO has room for the whole record. -/
def execDmaTxRefill (e : Fin 64) (s : State) : Host.Outcome State Fault Refusal :=
  let n := e.val
  if getF s (rDmaTx n) F.SCR_DMA_TX_MODE = 2 ∧ ¬underTest s (0x40 + n / 4) ∧ (getEng s n).txOut.isNone ∧
      getF s (rDmaTx n) F.SCR_DMA_TX_CNT + 1 + (getEng s n).tx.length ≤ txCap s n then .next (startTx n s)
  else .next s

/-- The naturally aligned accesses that carry a record of `cnt` words at word offset `woff`, as word offsets and lengths in words: a
leading word at an odd offset, the beats of a burst of doublewords, and a trailing word (R497). -/
def recordAccesses (woff cnt : Nat) : List (Nat × Nat) :=
  let lead := if cnt = 0 then 0 else woff % 2
  let beats := (cnt - lead) / 2
  (if lead = 1 then [(woff, 1)] else []) ++
  (List.range beats).map (fun i => (woff + lead + 2 * i, 2)) ++
  (if (cnt - lead) % 2 = 1 then [(woff + cnt - 1, 1)] else [])

/-- An access of a channel to an image, by the cluster's requester with master index 3 (R56). -/
def dmaAccess (base : Nat) (p : Nat × Nat) (write : Bool) : Access :=
  { m := .loc 3, a := base + 4 * p.1, width := 4 * p.2, write := write, lock := false }

/-- The first access of a record that the image's table refuses: the record is then refused as a whole (R93, R497). -/
def recordRefused (s : State) (base woff cnt : Nat) (write : Bool) : Option Access :=
  ((recordAccesses woff cnt).map (fun p => dmaAccess base p write)).find? (fun x => !tableAllows s x)

/-- The record of engine n is the next of its cluster: records are served in ascending engine order (R94). -/
def recordNext (s : State) (n : Nat) : Bool :=
  (List.range (n % 4)).all (fun i => (getEng s (n / 4 * 4 + i)).txOut.isNone && (getEng s (n / 4 * 4 + i)).rxOut.isNone)

/-- A record's words as they enter the TX FIFO, with their poison (R91). -/
def recordWords (s : State) (woff cnt : Nat) : List (Word × Bool) :=
  (List.range cnt).map (fun i => let a := outImage + 4 * (woff + i); (getMem32 s a, poisoned s a))

/-- DMA_TX_RETURN (R91, R93, R94, R497): the record comes back and enters the TX FIFO whole, or is skipped: refused, failed, or without
room. It comes back only when the arbiter has granted the cluster's requester (R145), which holds the interconnect for the whole series. -/
def execDmaTxReturn (e : Fin 64) (ok : Bool) (s : State) : Host.Outcome State Fault Refusal :=
  let n := e.val
  match (getEng s n).txOut with
  | none => .next s
  | some (woff, cnt) =>
    if ¬recordNext s n then .next s else
    let s := acquire (4 + n / 4) s
    if ¬holds s (4 + n / 4) then .next s else
    let s := settleDma (n / 4) (endRequest (4 + n / 4) (onEng n (fun x => { x with txOut := none }) s))
    match recordRefused s outImage woff cnt false with
    | some x => .next (txSkip n (recordDenial x s))
    | none =>
      if ¬ok ∨ txCap s n < (getEng s n).tx.length + cnt then .next (txSkip n s)
      else .next (onEng n (fun x => { x with tx := x.tx ++ recordWords s woff cnt }) s)

/-- DMA_RX_BLOCK (R95): an RX channel takes a whole record from the RX FIFO and starts to write it; bit i of `bad` marks a FIFO
parity error in its word i (R91). -/
def execDmaRxBlock (e : Fin 64) (bad : BitVec 16) (s : State) : Host.Outcome State Fault Refusal :=
  let n := e.val
  let cnt := getF s (rDmaRx n) F.SCR_DMA_RX_CNT + 1
  if getF s (rDmaRx n) F.SCR_DMA_RX_MODE = 1 ∧ ¬underTest s (0x40 + n / 4) ∧ (getEng s n).rxOut.isNone ∧ cnt ≤ (getEng s n).rx.length then
    let words := ((getEng s n).rx.take cnt).zipIdx.map (fun w => (w.1, bad.getLsbD w.2))
    let s := onEng n (fun x => { x with rx := x.rx.drop cnt, rxOut := some (getF s (rDmaRx n) F.SCR_DMA_RX_WOFF, words) }) s
    let s := if bad = 0 then s else parityRecord 9 0x0003 (n / 4) (R.SCR_RXF (n / 4) (n % 4)) s
    .next (settleDma (n / 4) s)
  else .next s

/-- The bytes of an access of a write record, and whether one of its words is poisoned. -/
def accessBytes (words : List (Word × Bool)) (i len : Nat) : List Byte × Bool :=
  let ws := (words.drop i).take len
  (ws.flatMap (fun w => leBytes 4 w.1.toNat), ws.any (fun w => w.2))

/-- The record's words are committed to the input image together, access by access, so that whole doublewords replace what stood there
(R95, R395, R497). -/
def commitRecord (woff : Nat) (words : List (Word × Bool)) (s : State) : State :=
  (recordAccesses woff words.length).foldl (fun s p =>
    let d := accessBytes words (p.1 - woff) p.2
    masterWrite (inImage + 4 * p.1) d.1 d.2 s) s

/-- DMA_RECORD_COMMIT (R94, R95, R497): the last access of a write record completes and the record is committed. -/
def execDmaRecordCommit (e : Fin 64) (s : State) : Host.Outcome State Fault Refusal :=
  let n := e.val
  match (getEng s n).rxOut with
  | none => .next s
  | some (woff, words) =>
    if ¬recordNext s n then .next s else
    let s := acquire (4 + n / 4) s
    if ¬holds s (4 + n / 4) then .next s else
    let s := settleDma (n / 4) (endRequest (4 + n / 4) (onEng n (fun x => { x with rxOut := none }) s))
    match recordRefused s inImage woff words.length true with
    | some x => .next (recordDenial x s)
    | none => .next (bump (ctr 0x0003 4 n) (commitRecord woff words s))

/-- The interconnect ends an access of cluster k on its timeout (R143): the record that is served ends with an error, a read as a TX skip
(R93), and a write commits nothing. -/
def timeoutRecord (k : Nat) (write : Bool) (s : State) : State :=
  match (List.range 4).find? (fun i =>
      if write then (getEng s (4 * k + i)).rxOut.isSome else (getEng s (4 * k + i)).txOut.isSome) with
  | none => s
  | some i =>
    let n := 4 * k + i
    if write then settleDma k (onEng n (fun x => { x with rxOut := none }) s)
    else txSkip n (settleDma k (onEng n (fun x => { x with txOut := none }) s))

/-! Views and reset. -/

/-- SCR_FSTAT as it reads: levels and the low bits of the counters. -/
def fstatView (s : State) (n : Nat) : Word :=
  let w := getReg s (rFstat n)
  let e := getEng s n
  let w := F.SCR_FSTAT_RX_LVL.put (F.SCR_FSTAT_TX_LVL.put w e.tx.length) e.rx.length
  F.SCR_FSTAT_OVERRUN.put (F.SCR_FSTAT_STALE.put w (getCtr s (ctr 0x0003 0 n))) (getCtr s (ctr 0x0003 1 n))

/-- SCR_DMA_STAT as it reads. -/
def dmaStatView (s : State) (n : Nat) : Word :=
  BitVec.ofNat 32 (getCtr s (ctr 0x0003 3 n) % 65536 + getCtr s (ctr 0x0003 4 n) % 65536 * 65536)

/-- Engine n fetches from its store in the present clock: it is at a boundary with no injection waiting (R66). -/
def fetchDue (s : State) (n : Nat) : Bool :=
  clockDue s n && running s n && (getEng s n).inj.isNone &&
  (match (getEng s n).latched with
    | some l => l.delay = some 0
    | none => true)

/-- A program-store parity error at an address read by engine n (R90): all four engines fault, and the address of the first
error is recorded. -/
def storeParity (n : Nat) (s : State) : State :=
  let k := n / 4
  let pc := getF s (rPc n) F.SCR_PC_VAL
  let s := if getB s (R.SCR_CSTAT k) F.SCR_CSTAT_PARITY then s else setF s (R.SCR_CSTAT k) F.SCR_CSTAT_PAR_ADDR pc
  let s := setB s (R.SCR_CSTAT k) F.SCR_CSTAT_PARITY true
  let s := fetchInto n (storeWord s k pc) false s
  (List.range 4).foldl (fun s i => if engState s (4 * k + i) = 3 then s else enterFault (4 * k + i) 3 s) s

end Sys2Proof.Machine
end

