-- ==== Sys2Proof/Machine/Buses.lean ====
section
/-! DEFINITION. Message-bus controllers and the bus gateway (chapter 04). Counters of CAP 0x0004: 0 rate drops per object and 1
short frames per map entry (in the array), 2 frames received, 3 sent, 4 errors by kind (8 * controller + kind), 5 unmatched, 6
lost arbitrations, 7 bus-off entries, 8 protocol exceptions, 9 capped sample points, 10 and 11 S1 and S2 events, 12 refused
requests, 13 forwarding losses, 14 rejected delay measurements, 15 masters that became backup, 16 arbitrating windows withdrawn. -/

namespace Sys2Proof.Machine

/-- Controller m. -/
def getMb (s : State) (m : Nat) : Mb := tabGet (fun _ => Mb.reset) s.buses.mbs m

/-- The buses after a change. -/
def onBuses (f : BusState → BusState) (s : State) : State := { s with buses := f s.buses }

/-- The state after controller m is changed. -/
def onMb (m : Nat) (f : Mb → Mb) (s : State) : State :=
  onBuses (fun b => { b with mbs := tabSet (fun _ => Mb.reset) b.mbs m (f (tabGet (fun _ => Mb.reset) b.mbs m)) }) s

/-- Object n of controller m, in message RAM. -/
def objAddr (m n : Nat) : Nat := 0x100000 + 0x4000 * m + 0x80 * n
/-- A word of an object. -/
def objWord (s : State) (m n off : Nat) : Nat := (getMem32 s (objAddr m n + off)).toNat
/-- The controller writes a word of an object through its own port. -/
def putObjWord (m n off v : Nat) (s : State) : State := masterWrite (objAddr m n + off) (leBytes 4 v) false s

/-- OBJ_CFG. -/
def objCfg (s : State) (m n : Nat) : Nat := objWord s m n 0
/-- The object is enabled. -/
def objOn (s : State) (m n : Nat) : Bool := bitOf (objCfg s m n) 0
/-- The object is a transmit object. -/
def objTx (s : State) (m n : Nat) : Bool := bitOf (objCfg s m n) 1
/-- The object is sent by triggers only. -/
def objTt (s : State) (m n : Nat) : Bool := bitOf (objCfg s m n) 6

/-- MB_CTL.INIT. -/
def mbInit (s : State) (m : Nat) : Bool := getB s (R.MB_CTL m) F.MB_CTL_INIT
/-- MB_CTL.MODE. -/
def mbMode (s : State) (m : Nat) : Nat := getF s (R.MB_CTL m) F.MB_CTL_MODE
/-- MB_STAT.STATE: 0 OFF, 1 ERROR_ACTIVE, 2 ERROR_PASSIVE, 3 BUS_OFF. -/
def mbState (s : State) (m : Nat) : Nat := getF s (R.MB_STAT m) F.MB_STAT_STATE
/-- The controller takes part in the bus. -/
def mbOnBus (s : State) (m : Nat) : Bool := (mbState s m = 1 || mbState s m = 2) && !mbInit s m && !(getMb s m).away

/-- The controller's notices, which have no codes in the spec (log entry 12). -/
def mbNotice (m : Nat) (s : State) : State := postOpen (getF s (R.MB_CTL m) F.MB_CTL_NTC_Q) 0x0004 m s
/-- The gateway's notices: instance 8 stands after the eight controllers. -/
def gwNotice (s : State) : State := postOpen (getF s R.GW_CTL F.GW_CTL_NTC_Q) 0x0004 8 s

/-- A flag of MB_ESTAT is set. -/
def mbFlag (m : Nat) (f : Fld) (s : State) : State := setB s (R.MB_ESTAT m) f true

/-! Requests (R110). -/

/-- Object n has a request that has not been copied. -/
def txPending (s : State) (m n : Nat) : Bool := (getReg s (R.MB_TXREQ m (n / 32))).getLsbD (n % 32)

/-- An object's request is set or cleared. -/
def setPending (m n : Nat) (b : Bool) (s : State) : State :=
  let a := R.MB_TXREQ m (n / 32)
  let bit : Word := BitVec.ofNat 32 (2 ^ (n % 32))
  setReg s a (if b then getReg s a ||| bit else getReg s a &&& ~~~bit)

/-- A request that has come anew: its retransmissions count from 0. -/
def raiseRequest (m n : Nat) (s : State) : State :=
  if txPending s m n then s
  else
    let busy := ((getMb s m).tx.map (fun t => t.obj)) = some n
    setPending m n true (if busy then s else onMb m (fun b => { b with retries := tabSet (fun _ => 0) b.retries n 0 }) s)

/-- A request is refused (R110): a receive, disabled or, but for triggers, TT object; INIT; bus-off. -/
def requestRefused (s : State) (m n : Nat) (byTrigger : Bool) : Bool :=
  !objOn s m n || !objTx s m n || (objTt s m n && !byTrigger) || mbInit s m || mbState s m = 3

/-- A request for an object (R110): refused with REQREF, or pending. One that reaches a controller in unit reset finds INIT at 1 and is
refused like any other, so that REQREF stands after the release; the spec is silent there (DESIGN CHOICE, log entry 133). -/
def requestObj (m n : Nat) (byTrigger : Bool) (s : State) : State :=
  if requestRefused s m n byTrigger then bump (ctr 0x0004 12 m) (mbFlag m F.MB_ESTAT_REQREF s) else raiseRequest m n s

/-- The objects whose bit is set in word j of a bit map. -/
def objsOf (j : Nat) (v : Word) : List Nat := ((List.range 32).filter (fun i => v.getLsbD i)).map (fun i => 32 * j + i)

/-- MB_TXREQ (R110). -/
def execMbTxreq (m : Master) (c : Fin 8) (j : Fin 4) (v : Word) (s : State) : Host.Outcome State Fault Refusal :=
  .next (guardWrite m (R.MB_TXREQ c j) (fun s => ((objsOf j v).foldl (fun s n => requestObj c n false s) s, none)) s)

/-- A cancel (R111): a request not yet copied is cleared, and a frame already copied is not sent again. -/
def cancelObj (m n : Nat) (s : State) : State :=
  let s := if txPending s m n then setPending m n false s else s
  onMb m (fun b => { b with tx := b.tx.map (fun t => if t.obj = n then { t with single := true } else t) }) s

/-- MB_TXCAN (R111). -/
def execMbTxcan (m : Master) (c : Fin 8) (j : Fin 4) (v : Word) (s : State) : Host.Outcome State Fault Refusal :=
  .next (guardWrite m (R.MB_TXCAN c j) (fun s => ((objsOf j v).foldl (fun s n => cancelObj c n s) s, none)) s)

/-- NEW of the objects in v is cleared together with LOST (R106). -/
def clearNew (m j : Nat) (v : Word) (s : State) : State :=
  let s := setReg s (R.MB_NEW m j) (getReg s (R.MB_NEW m j) &&& ~~~v)
  onMb m (fun b => { b with lost := (objsOf j v).foldl (fun l n => tabSet (fun _ => false) l n false) b.lost }) s

/-- MB_NEW_CLEAR (R106). -/
def execMbNewClear (m : Master) (c : Fin 8) (j : Fin 4) (v : Word) (s : State) : Host.Outcome State Fault Refusal :=
  .next (guardWrite m (R.MB_NEW c j) (fun s => (clearNew c j v s, none)) s)

/-- What a read of MB_TXREQ shows: the requests, with that of the frame being sent (R111). -/
def txreqView (s : State) (m j : Nat) : Word :=
  match (getMb s m).tx with
  | some t => if t.obj / 32 = j then getReg s (R.MB_TXREQ m j) ||| BitVec.ofNat 32 (2 ^ (t.obj % 32)) else getReg s (R.MB_TXREQ m j)
  | none => getReg s (R.MB_TXREQ m j)

/-- What a read of an OBJ_STAT word shows: the controller's NEW and LOST in bits 16 and 17 (R106). -/
def objStatView (s : State) (m n : Nat) : Nat :=
  let w := objWord s m n 0x0C
  let new := (getReg s (R.MB_NEW m (n / 32))).getLsbD (n % 32)
  w % 2 ^ 16 + w / 2 ^ 18 * 2 ^ 18 + bit1 new * 2 ^ 16 + bit1 (tabGet (fun _ => false) (getMb s m).lost n) * 2 ^ 17

/-! Error states (R112). -/

/-- The tracks that follow a field of controller m are judged afresh (R316). -/
def reviewBus (m : Nat) (s : State) : State :=
  (List.range 16).foldl (fun s n =>
    if trackSrc s n = 6 ∧ getF s (R.GW_MAP_A (trackSel s n)) F.GW_MAP_A_CTRL = m then reviewTrack n s else s) s

/-- A change of STATE posts a notice (R112), and reaches the tracks that follow the controller's fields. -/
def setMbState (m st : Nat) (s : State) : State :=
  if mbState s m = st then s else reviewBus m (mbNotice m (setF s (R.MB_STAT m) F.MB_STAT_STATE st))

/-- MB_STAT shows the error counters, saturating at 255. -/
def showCounts (m : Nat) (s : State) : State :=
  let b := getMb s m
  setF (setF s (R.MB_STAT m) F.MB_STAT_TEC (min 255 b.tecFull)) (R.MB_STAT m) F.MB_STAT_REC (min 255 b.recFull)

/-- Bus-off (R112): all pending requests are cleared, and with BO_AUTO 0 INIT is set. -/
def enterBusOff (m : Nat) (s : State) : State :=
  let s := bump (ctr 0x0004 7 m) (mbFlag m F.MB_ESTAT_BUSOFF s)
  let s := (List.range 4).foldl (fun s j => setReg s (R.MB_TXREQ m j) 0) s
  let s := onMb m (fun b => { b with tx := none, arb := none }) s
  let s := setMbState m 3 s
  if getB s (R.MB_CTL m) F.MB_CTL_BO_AUTO then s else setB s (R.MB_CTL m) F.MB_CTL_INIT true

/-- The state follows the counters (R112). -/
def reviewMb (m : Nat) (s : State) : State :=
  let s := showCounts m s
  let b := getMb s m
  let st := mbState s m
  if st = 1 ∨ st = 2 then
    if 255 < b.tecFull then enterBusOff m s
    else if 127 < b.tecFull ∨ 127 < b.recFull then
      if st = 1 then setMbState m 2 (mbFlag m F.MB_ESTAT_PASSIVE s) else s
    else setMbState m 1 s
  else s

/-- INIT takes effect: the controller is off the bus (R101). Requests that are pending then stay so: the spec does not say that they are
cleared (DESIGN CHOICE, log entry 134). -/
def takeInit (m : Nat) (s : State) : State :=
  let s := onMb m (fun b => { b with initAtEnd := false, away := false, tx := none }) (setB s (R.MB_CTL m) F.MB_CTL_INIT true)
  setMbState m 0 s

/-- A frame, or the error frame that replaced it, has ended: an INIT written during it takes effect (R101). -/
def frameEnd (m : Nat) (s : State) : State := if (getMb s m).initAtEnd then takeInit m s else s

/-! Configuration (R100, R101, R103). -/

/-- The bank whose pins 8 and 9 hold MBUS for controller m, if there is one (R100). -/
def mbBank (s : State) (m : Nat) : Option Nat :=
  [2 * m, 2 * m + 1].find? (fun b => pinFunc s (16 * b + 8) = 9 && pinFunc s (16 * b + 9) = 9)

/-- A bit's timing is within range (R103): BRP has no upper bound below its field's. -/
def timingOk (t1 t2 sjw t1min t2min tqmin tqmax : Nat) : Bool :=
  t1min ≤ t1 && t2min ≤ t2 && sjw ≤ t2 && tqmin ≤ 1 + t1 + t2 && 1 + t1 + t2 ≤ tqmax

/-- The timing registers allow INIT to be cleared (R100, R103). -/
def mbTimingOk (s : State) (m : Nat) : Bool :=
  let f := fun a x => getF s a x + 1
  let n := R.MB_NBT m
  let d := R.MB_DBT m
  let sspp := getF s (R.MB_TDC m) F.MB_TDC_SSPP
  timingOk (f n F.MB_NBT_TSEG1) (f n F.MB_NBT_TSEG2) (f n F.MB_NBT_SJW) 2 2 8 385 &&
  timingOk (f d F.MB_DBT_TSEG1) (f d F.MB_DBT_TSEG2) (f d F.MB_DBT_SJW) 1 1 5 49 &&
  50 ≤ sspp && sspp ≤ 95 && getF s (R.MB_TDC m) F.MB_TDC_DMIN ≤ getF s (R.MB_TDC m) F.MB_TDC_DMAX

/-- INIT is cleared: integration starts on the bank in use (R100). After bus-off the state stays BUS_OFF (R112). -/
def clearInit (m bank : Nat) (v : Word) (s : State) : State :=
  let s := [8, 9].foldl (fun s i => refreshPin (16 * bank + i) (onPin (16 * bank + i) (fun c => { c with quiet := false }) s)) s
  setB (plainWrite (R.MB_CTL m) v s) (R.MB_STAT m) F.MB_STAT_ALT (decide (bank % 2 = 1))

/-- A write of MB_CTL (R100, R101). `receiving` says whether a frame of another node is on the bus. -/
def writeMbCtl (m : Nat) (receiving : Bool) (v : Word) (s : State) : State :=
  let ref := mbFlag m F.MB_ESTAT_CFGREF (declineWrite (R.MB_CTL m) v s)
  let old := mbInit s m
  let new := decide (F.MB_CTL_INIT.get v = 1)
  if old then
    if new then plainWrite (R.MB_CTL m) v s
    else
      match mbBank s m with
      | none => ref
      | some b => if mbTimingOk s m ∧ F.MB_CTL_MODE.get v < 5 then clearInit m b v s else ref
  else if F.MB_CTL_MODE.get v ≠ mbMode s m then ref
  else if ¬new then plainWrite (R.MB_CTL m) v s
  else
    let s := plainWrite (R.MB_CTL m) (F.MB_CTL_INIT.put v 0) s
    if receiving ∨ (getMb s m).tx.isSome then onMb m (fun b => { b with initAtEnd := true }) s else takeInit m s

/-- A write of MB_CTL whose command does not say whether a frame is being received: an INIT that it sets then takes effect at once or at
the end of such a frame, which is an open value (R101; DESIGN CHOICE, log entry 132). -/
def writeMbCtlOpen (m : Nat) (v : Word) (s : State) : State :=
  if mbOnBus s m ∧ (getMb s m).tx.isNone ∧ F.MB_CTL_INIT.get v = 1 then
    let (b, s) := fresh 1 s
    writeMbCtl m (b.getLsbD 0) v s
  else writeMbCtl m false v s

/-- MB_INIT_CLEAR (R100): a write of MB_CTL with INIT 0. -/
def execMbInitClear (m : Master) (c : Fin 8) (v : Word) (s : State) : Host.Outcome State Fault Refusal :=
  .next (guardWrite m (R.MB_CTL c) (fun s => (writeMbCtl c false (F.MB_CTL_INIT.put v 0) s, none)) s)

/-- MB_INIT_SET (R101): a write of MB_CTL with INIT 1. -/
def execMbInitSet (m : Master) (c : Fin 8) (v : Word) (inFrame : Bool) (s : State) : Host.Outcome State Fault Refusal :=
  .next (guardWrite m (R.MB_CTL c) (fun s => (writeMbCtl c inFrame (F.MB_CTL_INIT.put v 1) s, none)) s)

/-- A write of MB_NBT, MB_DBT or MB_TDC is performed while INIT is 1 (R101). -/
def writeMbTiming (m a : Nat) (v : Word) (s : State) : State :=
  if mbInit s m then plainWrite a v s else mbFlag m F.MB_ESTAT_CFGREF (declineWrite a v s)

/-- BUS_INTEGRATED (R100, R112): 11 recessive bits after INIT was cleared. -/
def execBusIntegrated (c : Fin 8) (s : State) : Host.Outcome State Fault Refusal :=
  .next (if ¬mbInit s c ∧ mbState s c = 0 ∧ ¬inUnitReset s 0x0004 c then reviewMb c (setMbState c 1 s) else s)

/-- BUS_OFF_RECOVERY (R112): 128 occurrences of 11 recessive bits with INIT 0. -/
def execBusOffRecovery (c : Fin 8) (s : State) : Host.Outcome State Fault Refusal :=
  .next (if ¬mbInit s c ∧ mbState s c = 3 then
    setMbState c 1 (showCounts c (onMb c (fun b => { b with tecFull := 0, recFull := 0 }) s))
  else s)

/-! Time-triggered operation (R114 to R116). -/

/-- MB_TT_CFG.TTEN. -/
def ttOn (s : State) (m : Nat) : Bool := getB s (R.MB_TT_CFG m) F.MB_TT_CFG_TTEN
/-- ROLE, with 3 treated as 0. -/
def ttRole (s : State) (m : Nat) : Nat := let r := getF s (R.MB_TT_CFG m) F.MB_TT_CFG_ROLE; if r = 3 then 0 else r
/-- The reference object. -/
def refObj (s : State) (m : Nat) : Nat := getF s (R.MB_TT_CFG m) F.MB_TT_CFG_REF_OBJ
/-- The controller is the current time master. -/
def ttMaster (s : State) (m : Nat) : Bool := getB s (R.MB_TT_STAT m) F.MB_TT_STAT_MASTER
/-- The time-triggered error level. -/
def ttLevel (s : State) (m : Nat) : Nat := getF s (R.MB_TT_STAT m) F.MB_TT_STAT_ELEVEL

/-- CYCMAX as used: the next lower number of the form 2^k - 1. -/
def cycMax (s : State) (m : Nat) : Nat :=
  let c := getF s (R.MB_TT_CFG m) F.MB_TT_CFG_CYCMAX
  if c = 63 then 63 else if 31 ≤ c then 31 else if 15 ≤ c then 15 else if 7 ≤ c then 7 else if 3 ≤ c then 3 else if 1 ≤ c then 1 else 0

/-- The level changes; each rise posts a notice (R116). -/
def setLevel (m l : Nat) (s : State) : State :=
  let old := ttLevel s m
  let s := setF s (R.MB_TT_STAT m) F.MB_TT_STAT_ELEVEL l
  if old < l then mbNotice m s else s

/-- An S1 event (R116). -/
def s1Event (m : Nat) (s : State) : State :=
  let s := onMb m (fun b => { b with s1 := true }) (bump (ctr 0x0004 10 m) s)
  setLevel m (max 1 (ttLevel s m)) s

/-- An S2 event (R116). -/
def s2Event (m : Nat) (s : State) : State :=
  let s := bump (ctr 0x0004 11 m) s
  setLevel m (max 2 (ttLevel s m)) s

/-- Trigger n of controller m is enabled. -/
def trigOn (s : State) (m n : Nat) : Bool := getB s (R.MB_TRIG_B m n) F.MB_TRIG_B_EN
/-- A trigger's object. -/
def trigObj (s : State) (m n : Nat) : Nat := getF s (R.MB_TRIG_A m n) F.MB_TRIG_A_OBJ
/-- A trigger's type. -/
def trigType (s : State) (m n : Nat) : Nat := getF s (R.MB_TRIG_A m n) F.MB_TRIG_A_TYPE
/-- A trigger's REP, with 7 treated as 6. -/
def trigRep (s : State) (m n : Nat) : Nat := min 6 (getF s (R.MB_TRIG_B m n) F.MB_TRIG_B_REP)
/-- A trigger's CYC_OFF. -/
def trigOff (s : State) (m n : Nat) : Nat := getF s (R.MB_TRIG_B m n) F.MB_TRIG_B_CYC_OFF

/-- One enabled trigger breaks a rule of R116. -/
def trigBad (s : State) (m n : Nat) : Bool :=
  let o := trigObj s m n
  let t := trigType s m n
  !objOn s m o || ((t = 0 || t = 1) && !(objTx s m o && objTt s m o)) || (t = 2 && objTx s m o) || 4 ≤ t ||
  2 ^ trigRep s m n ≤ trigOff s m n

/-- A list of numbers rises strictly. -/
def strictlyRises : List Nat → Bool
  | a :: b :: l => decide (a < b) && strictlyRises (b :: l)
  | _ => true

/-- The trigger list or the reference object breaks a rule of R116: S3. -/
def ttInvalid (s : State) (m : Nat) : Bool :=
  let ts := (List.range 64).filter (fun n => trigOn s m n)
  !strictlyRises (ts.map (fun n => getF s (R.MB_TRIG_A m n) F.MB_TRIG_A_TIME_MARK)) || ts.any (fun n => trigBad s m n) ||
  (objTx s m (refObj s m) ≠ (ttRole s m ≠ 0))

/-- TTEN is set (R114, R116): a master is the current time master, nobody is in schedule, and the level is judged. -/
def startTt (m : Nat) (s : State) : State :=
  let s := setReg s (R.MB_TT_STAT m) (F.MB_TT_STAT_ELEVEL.put 0 (ttLevel s m))
  let s := setB s (R.MB_TT_STAT m) F.MB_TT_STAT_MASTER (decide (ttRole s m = 1))
  let s := onMb m (fun b => { b with mark := none, s1 := false, seen := [], arb := none, starts := 0, walked := 0 }) s
  setLevel m (if ttInvalid s m then 3 else 0) s

/-- TTEN is cleared: the schedule ends; the level stays until TTEN is set again (R116). -/
def stopTt (m : Nat) (s : State) : State :=
  onMb m (fun b => { b with mark := none, arb := none }) (setReg s (R.MB_TT_STAT m) (F.MB_TT_STAT_ELEVEL.put 0 (ttLevel s m)))

/-- A write of MB_TT_CFG: performed while TTEN is 0, or when it clears TTEN; any other is refused with CFGREF. -/
def writeTtCfg (m : Nat) (v : Word) (s : State) : State :=
  let new := decide (F.MB_TT_CFG_TTEN.get v = 1)
  if ttOn s m ∧ new then mbFlag m F.MB_ESTAT_CFGREF (declineWrite (R.MB_TT_CFG m) v s)
  else
    let was := ttOn s m
    let s := plainWrite (R.MB_TT_CFG m) v s
    if new then startTt m s else if was then stopTt m s else s

/-- TT_ENABLE (R114, R116): a write of MB_TT_CFG with TTEN 1. -/
def execTtEnable (m : Master) (c : Fin 8) (v : Word) (s : State) : Host.Outcome State Fault Refusal :=
  .next (guardWrite m (R.MB_TT_CFG c) (fun s => (writeTtCfg c (F.MB_TT_CFG_TTEN.put v 1) s, none)) s)

/-- A write of a trigger word is refused while TTEN is 1. -/
def writeTrig (m a : Nat) (v : Word) (s : State) : State :=
  if ttOn s m then mbFlag m F.MB_ESTAT_CFGREF (declineWrite a v s) else plainWrite a v s

/-- Bus clocks of 12.5 ns in local time: 32 of them in 125 ticks. -/
def busClocks (ticks : Nat) : Nat := ticks * 32 / 125

/-- The cycle time in NTU (R114): 0 before the first reference mark. -/
def cycleTime (s : State) (m : Nat) : Nat :=
  match (getMb s m).mark with
  | none => 0
  | some k => (busClocks s.time.ltick - k) / max 1 (getF s (R.MB_TT_CFG m) F.MB_TT_CFG_NTU) % 2 ^ 16

/-- A reference mark (R114, R116): the basic cycle that ends judges S1, a valid reference ends S2, and the cycle time restarts
at the sample point of the start of frame, `age` ns ago, with cycle count c. -/
def referenceMark (m c age : Nat) (s : State) : State :=
  let b := getMb s m
  let nbt := R.MB_NBT m
  let sample := (getF s nbt F.MB_NBT_TSEG1 + 2) * (getF s nbt F.MB_NBT_BRP + 1)
  let clocks := busClocks s.time.ltick - age * 2 / 25 + sample
  let s := if ttLevel s m = 3 then s else setLevel m (if b.s1 then 1 else 0) s
  let s := setF s (R.MB_TT_STAT m) F.MB_TT_STAT_CCNT (c % (cycMax s m + 1))
  let s := setB s (R.MB_TT_STAT m) F.MB_TT_STAT_SYNC true
  onMb m (fun b => { b with mark := some clocks, s1 := false, walked := 0 }) s

/-- The data byte 0 that a reference message carries: the cycle count in [5:0], bit 7 at 0 (R114). -/
def referenceByte (c : Nat) (b : Byte) : Byte := (b &&& 0x40) ||| BitVec.ofNat 8 (c % 64)

/-- The cycle count of the next reference message. -/
def nextCount (s : State) (m : Nat) : Nat := (getF s (R.MB_TT_STAT m) F.MB_TT_STAT_CCNT + 1) % (cycMax s m + 1)

/-- The current time master sends: the schedule runs and the hub is not a standby (R114, R116, R365). -/
def mastersTime (s : State) (m : Nat) : Bool := ttOn s m && ttMaster s m && ttLevel s m ≠ 3 && !(dpxOn s && dpxState s ≠ 2)

/-- TT_REFERENCE_REQUEST (R114): the time base reaches T0 + k * PERIOD, and the master requests its reference message. -/
def execTtReferenceRequest (c : Fin 8) (s : State) : Host.Outcome State Fault Refusal :=
  let m := c.val
  let k := (getMb s m).starts + 1
  let t0 := regs64 s (R.MB_TT_T0_LO m) (R.MB_TT_T0_HI m)
  let due := decide (t0 + k * (getReg s (R.MB_TT_PERIOD m)).toNat ≤ itbNs s (getF s (R.MB_TT_CFG m) F.MB_TT_CFG_ITB))
  if mastersTime s m ∧ due then .next (requestObj m (refObj s m) true (onMb m (fun b => { b with starts := k }) s)) else .next s

/-! Transmission (R109 to R111). -/

/-- Data bytes that a length code gives. -/
def dlcBytes (fdf : Bool) (dlc : Nat) : Nat :=
  if dlc ≤ 8 then dlc else if ¬fdf then 8
  else if dlc = 9 then 12 else if dlc = 10 then 16 else if dlc = 11 then 20 else if dlc = 12 then 24 else if dlc = 13 then 32
  else if dlc = 14 then 48 else 64

/-- Data bytes that a frame carries: none in a remote frame. -/
def frameBytes (fdf rtr : Bool) (dlc : Nat) : Nat := if rtr && !fdf then 0 else dlcBytes fdf dlc

/-- The frame that object n would send now: remote frames are classical, and BRS needs FDF (R99, R105). -/
def objFrame (s : State) (m n : Nat) : BusFrame :=
  let c := objCfg s m n
  let fdf := bitOf c 4
  let rtr := bitOf c 3 && !fdf
  let data := getBytes s (objAddr m n + 0x20) (frameBytes fdf rtr (bitsOf c 8 4))
  let isRef := ttOn s m && ttMaster s m && n = refObj s m
  { id := BitVec.ofNat 29 (objWord s m n 4), ide := bitOf c 2, rtr := rtr, fdf := fdf, brs := bitOf c 5 && fdf,
    esi := fdf && mbState s m = 2, dlc := BitVec.ofNat 4 (bitsOf c 8 4),
    data := match data with
      | b :: bs => (if isRef then referenceByte (nextCount s m) b else b) :: bs
      | [] => [] }

/-- The order of arbitration (R109): the frame with the lower key wins. Base ID first; a base frame beats an extended one with
the same base ID, its RTR bit standing where the extended frame has a recessive bit. -/
def arbKey (f : BusFrame) : Nat :=
  f.id.toNat / 2 ^ 18 * 2 ^ 21 + (if f.ide then 3 * 2 ^ 19 + f.id.toNat % 2 ^ 18 * 2 + bit1 f.rtr else bit1 f.rtr * 2 ^ 20)

/-- The pending objects that can be sent. -/
def sendable (s : State) (m : Nat) : List Nat := (List.range 128).filter (fun n => txPending s m n && objOn s m n && objTx s m n)

/-- The pending object whose frame would win arbitration; ties go to the lowest number (R109). -/
def arbWinnerObj (s : State) (m : Nat) : Option Nat :=
  (sendable s m).foldl (fun w n =>
    match w with
    | none => some n
    | some k => if arbKey (objFrame s m n) < arbKey (objFrame s m k) then some n else some k) none

/-- A word that the copy reads is poisoned. -/
def copyPoisoned (s : State) (m n : Nat) : Bool :=
  let a := objAddr m n
  poisoned s a || (List.range (ceilDiv (objFrame s m n).data.length 8)).any (fun i => poisoned s (a + 0x20 + 8 * i))

/-- The position of the secondary sample point, in mtq (R104). A half is rounded up: the spec does not say how a tie is rounded (DESIGN
CHOICE, log entry 135). -/
def sspPosition (s : State) (m : Nat) : Nat :=
  let d := R.MB_DBT m
  let bit := (getF s d F.MB_DBT_BRP + 1) * (3 + getF s d F.MB_DBT_TSEG1 + getF s d F.MB_DBT_TSEG2)
  getF s (R.MB_TDC m) F.MB_TDC_DLY + (getF s (R.MB_TDC m) F.MB_TDC_SSPP * bit + 50) / 100

/-- Transmitter delay compensation of a frame with BRS (R104): the measurement, if an edge came back, and the cap. -/
def measureDelay (m : Nat) (loop : Option Nat) (s : State) : State :=
  let t := R.MB_TDC m
  let s := match loop with
    | none => s
    | some n =>
      if getF s t F.MB_TDC_DMIN ≤ n ∧ n ≤ getF s t F.MB_TDC_DMAX then setF s t F.MB_TDC_DLY n
      else bump (ctr 0x0004 14 m) (mbFlag m F.MB_ESTAT_TDCERR s)
  if 127 < sspPosition s m then bump (ctr 0x0004 9 m) (mbFlag m F.MB_ESTAT_TDCERR s) else s

/-- POISON in OBJ_STAT (bit 19) or TXFAIL (bit 18). -/
def markObj (m n bit : Nat) (s : State) : State :=
  let w := objWord s m n 0x0C
  putObjWord m n 0x0C (if bitOf w bit then w else w + 2 ^ bit) s

/-- An object is copied into the transmit buffer and its frame starts (R109); a copy that meets poison sends nothing. -/
def copyObj (m n : Nat) (single : Bool) (loop : Option Nat) (s : State) : State :=
  if copyPoisoned s m n then
    let s := markObj m n 19 (mbFlag m F.MB_ESTAT_POISON (setPending m n false s))
    mbNotice m (consumePoison 4 s)
  else
    let f := objFrame s m n
    let s := onMb m (fun b => { b with tx := some { obj := n, frame := f, single := single } }) (setPending m n false s)
    if f.brs ∧ getB s (R.MB_TDC m) F.MB_TDC_EN then measureDelay m loop s else s

/-- The delay measurement of a frame that an exclusive window sends: the row does not give it, so whether an edge came back, and after how
many bus clocks, are open values (R104, log entry 135). -/
def openDelay (s : State) (m n : Nat) : Option Nat × State :=
  if (objFrame s m n).brs ∧ getB s (R.MB_TDC m) F.MB_TDC_EN then
    let (d, s) := fresh 9 s
    (if d.getLsbD 8 then some (d.toNat % 256) else none, s)
  else (none, s)

/-- The controller sends frames: on the bus, in a mode that sends, not a standby, and nothing being sent (R99, R102). -/
def canSend (s : State) (m : Nat) : Bool :=
  mbOnBus s m && (mbMode s m = 0 || mbMode s m = 3 || mbMode s m = 4) && !(dpxOn s && dpxState s ≠ 2) && (getMb s m).tx.isNone

/-- TX_COPY (R104, R109): the bus reaches a point where a transmission can start; `uncorr` is a fresh uncorrectable error in a
word that the copy reads. -/
def execTxCopy (c : Fin 8) (loop : Option Nat) (uncorr : Bool) (s : State) : Host.Outcome State Fault Refusal :=
  if ¬canSend s c then .next s
  else
    match arbWinnerObj s c with
    | none => .next s
    | some n =>
      let s := if uncorr then freshError 3 (objAddr c n) (objAddr c n) s else s
      .next (copyObj c n false loop s)

/-- The retransmissions of object n's next frame count from 0: a request that came after the copy is for a new frame (R109, R111). -/
def noRetries (m n : Nat) (s : State) : State := onMb m (fun b => { b with retries := tabSet (fun _ => 0) b.retries n 0 }) s

/-- The frame being sent ends without success and is to be sent again, or not (R111). `counts` says whether the attempt counts
against RETRY. -/
def endAttempt (m : Nat) (counts : Bool) (s : State) : State :=
  match (getMb s m).tx with
  | none => s
  | some t =>
    let n := t.obj
    let used := tabGet (fun _ => 0) (getMb s m).retries n
    let limit := getF s (R.MB_CTL m) F.MB_CTL_RETRY
    let s := onMb m (fun b => { b with tx := none }) s
    if ¬counts then (if t.single then noRetries m n s else setPending m n true s)
    else if limit ≠ 15 ∧ limit ≤ used then
      noRetries m n (mbNotice m (markObj m n 18 (mbFlag m F.MB_ESTAT_TXFAIL s)))
    else if t.single then noRetries m n s
    else setPending m n true (onMb m (fun b => { b with retries := tabSet (fun _ => 0) b.retries n (used + 1) }) s)

/-- The code of MB_STAT.LEC. -/
def faultCode : BusFault → Nat
  | .stuff => 1 | .form => 2 | .ack => 3 | .bit1 => 4 | .bit0 => 5 | .crc => 6

/-- The kind under which an error is counted: bit, stuff, form, acknowledgement, CRC. -/
def faultKind : BusFault → Nat
  | .bit1 | .bit0 => 0 | .stuff => 1 | .form => 2 | .ack => 3 | .crc => 4

/-- A detected error (R111, R112): the counters rise by what the standard's rules give, and a frame of this controller fails. -/
def busFault (m : Nat) (kind : BusFault) (tecUp recUp : Nat) (s : State) : State :=
  let s := bump (ctr 0x0004 4 (8 * m + faultKind kind)) (setF s (R.MB_STAT m) F.MB_STAT_LEC (faultCode kind))
  let s := onMb m (fun b => { b with tecFull := b.tecFull + tecUp, recFull := b.recFull + recUp }) s
  frameEnd m (reviewMb m (endAttempt m true s))

/-- In both loopback modes a missing acknowledgement of the controller's own frame is success, and no error (R99). -/
def ackWaived (s : State) (m : Nat) (kind : BusFault) : Bool :=
  (mbMode s m = 3 || mbMode s m = 4) && (getMb s m).tx.isSome && kind = .ack

/-- BUS_ERROR (R99, R111, R112). -/
def execBusError (c : Fin 8) (kind : BusFault) (tecUp recUp : Nat) (s : State) : Host.Outcome State Fault Refusal :=
  .next (if mbOnBus s c ∧ ¬ackWaived s c kind then busFault c kind tecUp recUp s else s)

/-- ARBITRATION_LOST (R111): the attempt ends without counting against RETRY. -/
def execArbitrationLost (c : Fin 8) (s : State) : Host.Outcome State Fault Refusal :=
  .next (if (getMb s c).tx.isSome then bump (ctr 0x0004 6 c) (endAttempt c false s) else s)

/-- PROTOCOL_EXCEPTION (R99): a recessive res bit takes the controller out of the frame, or is a form error with RESERR. -/
def execProtocolException (c : Fin 8) (recUp : Nat) (s : State) : Host.Outcome State Fault Refusal :=
  if ¬mbOnBus s c then .next s
  else
    let s := bump (ctr 0x0004 8 c) (mbFlag c F.MB_ESTAT_RESEX s)
    .next (if getB s (R.MB_CTL c) F.MB_CTL_RESERR then busFault c .form 0 recUp s else onMb c (fun b => { b with away := true }) s)

/-- PROTOCOL_EXCEPTION_REJOIN (R99): 11 recessive bits after the exception. -/
def execProtocolExceptionRejoin (c : Fin 8) (s : State) : Host.Outcome State Fault Refusal :=
  .next (if (getMb s c).away then frameEnd c (onMb c (fun b => { b with away := false }) s) else s)

/-! Reception (R107, R108, R113, R121). -/

/-- The postmark of a start of frame `age` ns ago: in MB_CTL.VD, or in MB_TT_CFG.ITB at the current time master (R113). -/
def framePm (s : State) (m age : Nat) : DWord :=
  if ttOn s m ∧ ttMaster s m then itbBack s (getF s (R.MB_TT_CFG m) F.MB_TT_CFG_ITB) age
  else vdBack s (getF s (R.MB_CTL m) F.MB_CTL_VD) age

/-- Word 0 of a BUS_FRAME or FRAME payload (R121, R365). -/
def frameWord (m n : Nat) (f : BusFrame) (sent : Bool) : DWord :=
  BitVec.ofNat 64 (f.id.toNat + bit1 f.ide * 2 ^ 29 + bit1 f.rtr * 2 ^ 30 + bit1 f.fdf * 2 ^ 31 + bit1 f.brs * 2 ^ 32 +
    bit1 f.esi * 2 ^ 33 + f.dlc.toNat * 2 ^ 34 + m * 2 ^ 38 + n * 2 ^ 41 + bit1 sent * 2 ^ 48)

/-- Bytes as 64-bit words, zero-padded. -/
def wordsFrom (n : Nat) (bs : List Byte) : List DWord :=
  (List.range n).map (fun i => BitVec.ofNat 64 (leNat ((bs.drop (8 * i)).take 8)))

/-- The payload of a BUS_FRAME (R121). -/
def framePayload (m n : Nat) (f : BusFrame) (pm : DWord) (sent : Bool) : List DWord :=
  frameWord m n f sent :: pm :: wordsFrom (ceilDiv f.data.length 8) f.data

/-- A stored frame is forwarded in a BUS_FRAME with a posted tag of master 4, or lost and counted (R121, R189). -/
def forwardFrame (m n : Nat) (f : BusFrame) (pm : DWord) (s : State) : State :=
  let fwd := R.MB_FWD m
  let e := build s (if getB s fwd F.MB_FWD_URG then 1 else 2) kBusFrame (getB s fwd F.MB_FWD_MC) (getF s fwd F.MB_FWD_DST)
    (getF s R.BR_HOPS F.BR_HOPS_HOPS) (framePayload m n f pm false)
  let (i, g, t) := takePosted 4 s
  let e := withCrcs { e with tag := tagOf i g, addr := BitVec.ofNat 48 (getReg s (R.MB_FWD_ADDR m)).toNat }
  match originate 7 e t with
  | (t, .accepted) => keepStamp i g e.stamp t
  | (_, _) => bump (ctr 0x0004 13 m) s

/-- FRAME of a pair's active hub to its partner, out of TIE (R359, R365). -/
def partnerFrame (m n : Nat) (f : BusFrame) (pm : DWord) (sent : Bool) (s : State) : State :=
  if dpxOn s ∧ dpxState s = 2 then sendPartner 1 3 (framePayload m n f pm sent) s else s

/-- A frame is stored into an object (R107): SEQ by 2, data, frame fields, postmark, ID and count; NEW, or LOST while NEW is 1;
a notice, a burst of the gateway, a forward, and the triggers that check the object. -/
def storeFrame (m n : Nat) (f : BusFrame) (pm : DWord) (instant : Nat) (s : State) : State :=
  let old := objWord s m n 0x0C
  let stat := (old + 2) % 2 ^ 16 + bitsOf old 18 2 * 2 ^ 18 + f.dlc.toNat * 2 ^ 20 + bit1 f.fdf * 2 ^ 24 + bit1 f.brs * 2 ^ 25 +
    bit1 f.esi * 2 ^ 26 + bit1 f.ide * 2 ^ 27 + bit1 f.rtr * 2 ^ 28
  let cnt := objWord s m n 0x1C
  let s := masterWrite (objAddr m n + 0x20) f.data false s
  let s := putObjWord m n 0x0C stat s
  let s := putObjWord m n 0x14 (hi32 pm).toNat (putObjWord m n 0x10 (lo32 pm).toNat s)
  let s := putObjWord m n 0x1C (cnt / 2 ^ 16 * 2 ^ 16 + (cnt + 1) % 2 ^ 16) (putObjWord m n 0x18 f.id.toNat s)
  let a := R.MB_NEW m (n / 32)
  let new := (getReg s a).getLsbD (n % 32)
  let s := if new then onMb m (fun b => { b with lost := tabSet (fun _ => false) b.lost n true }) s else s
  let s := setReg s a (getReg s a ||| BitVec.ofNat 32 (2 ^ (n % 32)))
  let hits := (List.range 64).filter (fun k => trigOn s m k && trigObj s m k = n)
  let s := onMb m (fun b => { b with seen := hits.foldl (fun t k => tabSet (fun _ => false) t k true) b.seen }) s
  let s := if bitOf (objCfg s m n) 14 then mbNotice m s else s
  let s := if getB s R.GW_CTL F.GW_CTL_EN ∧ ttRunning s then
      request 20 (onBuses (fun b => { b with bursts := b.bursts ++ [(m, n, instant)] }) s)
    else s
  if bitOf (objCfg s m n) 7 then forwardFrame m n f pm s else s

/-- The lowest enabled receive object that a frame matches (R108). -/
def matchObj (s : State) (m : Nat) (f : BusFrame) : Option Nat :=
  let part := if f.ide then 0x1FFFFFFF else 0x1FFC0000
  (List.range 128).find? (fun n =>
    objOn s m n && !objTx s m n && bitOf (objCfg s m n) 2 = f.ide &&
    ((BitVec.ofNat 29 (objWord s m n 4)) &&& (BitVec.ofNat 29 (objWord s m n 8)) &&& part) =
      (f.id &&& (BitVec.ofNat 29 (objWord s m n 8)) &&& part))

/-- A reference message is received (R114, R116): the cycle restarts, and a time master that hears a lower ID becomes backup. -/
def hearReference (m : Nat) (f : BusFrame) (age : Nat) (s : State) : State :=
  if ¬ttOn s m then s
  else
    let own := objWord s m (refObj s m) 4 % 2 ^ 29
    let s := if ttMaster s m ∧ f.id.toNat < own then bump (ctr 0x0004 15 m) (setB s (R.MB_TT_STAT m) F.MB_TT_STAT_MASTER false) else s
    referenceMark m (((f.data.head?).getD 0).toNat % 64) age s

/-- A frame is judged at the end of its EOF (R108, R365). -/
def acceptFrame (m : Nat) (f : BusFrame) (age : Nat) (reference : Bool) (s : State) : State :=
  let pm := framePm s m age
  let instant := (itbBack s 0 age).toNat
  let isRef := if ttRole s m = 0 then matchObj s m f = some (refObj s m) else reference
  let s := if isRef then hearReference m f age s else s
  match matchObj s m f with
  | none => bump (ctr 0x0004 5 m) s
  | some n => partnerFrame m n f pm false (storeFrame m n f pm instant s)

/-- A success lowers an error counter (R112): the standard's rules; a receive counter above 127 falls to a value between 119 and
127 that the spec does not fix. -/
def lowerRec (m : Nat) (s : State) : State :=
  let r := (getMb s m).recFull
  if r ≤ 127 then reviewMb m (onMb m (fun b => { b with recFull := r - 1 }) s)
  else
    let (x, s) := fresh 8 s
    reviewMb m (onMb m (fun b => { b with recFull := 119 + x.toNat % 9 }) s)

/-- A received frame with the flags and the length that a frame of its format has: only a classical frame is remote, BRS and ESI need FDF, a
base ID has 11 bits, and a data byte that the operand does not carry is open (R99; DESIGN CHOICE, log entry 126). -/
def asFrame (f : BusFrame) : BusFrame :=
  let rtr := f.rtr && !f.fdf
  { f with
    rtr := rtr, brs := f.brs && f.fdf, esi := f.esi && f.fdf,
    id := if f.ide then f.id else BitVec.ofNat 29 (f.id.toNat / 2 ^ 18 * 2 ^ 18),
    data := (List.range (frameBytes f.fdf rtr f.dlc.toNat)).map (fun i => (f.data[i]?).getD ((Config.missingWord f.id.toNat i).truncate 8)) }

/-- FRAME_RECEIVED (R107, R108, R113, R121): a frame that another node sent ends without error; its start of frame came `age` ns
ago. -/
def execFrameReceived (c : Fin 8) (f : BusFrame) (age : Nat) (reference : Bool) (s : State) : Host.Outcome State Fault Refusal :=
  let f := asFrame f
  if ¬mbOnBus s c ∨ (getMb s c).tx.isSome ∨ mbMode s c = 3 then .next s
  else
    let s := lowerRec c (bump (ctr 0x0004 2 c) s)
    .next (frameEnd c (if dpxOn s ∧ dpxState s = 1 then s else acceptFrame c f age reference s))

/-- A frame of object n completes (R111): the postmark, ID and count of the object, its notice, and the reference mark of a
master. -/
def completeObj (m n : Nat) (f : BusFrame) (pm : DWord) (age : Nat) (s : State) : State :=
  let cnt := objWord s m n 0x1C
  let s := putObjWord m n 0x14 (hi32 pm).toNat (putObjWord m n 0x10 (lo32 pm).toNat s)
  let s := putObjWord m n 0x1C (cnt / 2 ^ 16 * 2 ^ 16 + (cnt + 1) % 2 ^ 16) (putObjWord m n 0x18 f.id.toNat s)
  let s := bump (ctr 0x0004 3 m) s
  let s := if bitOf (objCfg s m n) 14 then mbNotice m s else s
  if ttOn s m ∧ ttMaster s m ∧ n = refObj s m then referenceMark m (((f.data.head?).getD 0).toNat % 64) age s else s

/-- TX_COMPLETE (R111, R113): the frame being sent completes at the end of its EOF; in loopback it is received as well (R99). -/
def execTxComplete (c : Fin 8) (age : Nat) (s : State) : Host.Outcome State Fault Refusal :=
  match (getMb s c).tx with
  | none => .next s
  | some t =>
    let pm := framePm s c age
    let s := noRetries c t.obj (onMb c (fun b => { b with tx := none, tecFull := b.tecFull - 1 }) s)
    let s := completeObj c t.obj t.frame pm age (reviewMb c s)
    let s := partnerFrame c t.obj t.frame pm true s
    let s := if mbMode s c = 3 ∨ mbMode s c = 4 then acceptFrame c t.frame age false (bump (ctr 0x0004 2 c) s) else s
    .next (frameEnd c s)

/-! Triggers (R115). -/

/-- The standing arbitrating window ends: a frame not copied is withdrawn and counted, and one being sent is not sent again. -/
def endWindow (m : Nat) (s : State) : State :=
  match (getMb s m).arb with
  | none => s
  | some n =>
    let s := onMb m (fun b => { b with arb := none, tx := b.tx.map (fun t => if t.obj = n then { t with single := true } else t) }) s
    if txPending s m n then bump (ctr 0x0004 16 m) (setPending m n false s) else s

/-- A WATCH trigger at a backup (R114): it sends its own reference message and becomes the current time master; the later ones
follow at T0 + k * PERIOD from now on. -/
def takeOverTime (m : Nat) (s : State) : State :=
  let t0 := regs64 s (R.MB_TT_T0_LO m) (R.MB_TT_T0_HI m)
  let now := itbNs s (getF s (R.MB_TT_CFG m) F.MB_TT_CFG_ITB)
  let s := onMb m (fun b => { b with starts := (now - t0) / max 1 (getReg s (R.MB_TT_PERIOD m)).toNat }) s
  requestObj m (refObj s m) true (setB s (R.MB_TT_STAT m) F.MB_TT_STAT_MASTER true)

/-- What a trigger does at its mark. -/
def fireTrigger (m n : Nat) (busIdle : Bool) (s : State) : State :=
  let o := trigObj s m n
  let t := trigType s m n
  if badWord s (R.MB_TRIG_A m n) || badWord s (R.MB_TRIG_B m n) then s1Event m s
  else if t = 0 then
    if 2 ≤ ttLevel s m then s
    else if busIdle ∧ canSend s m ∧ ¬requestRefused s m o true then
      let s := onMb m (fun b => { b with retries := tabSet (fun _ => 0) b.retries o 0 }) s
      let (d, s) := openDelay s m o
      copyObj m o true d s
    else s1Event m s
  else if t = 1 then
    if 2 ≤ ttLevel s m then s else onMb m (fun b => { b with arb := some o }) (requestObj m o true s)
  else if t = 2 then
    let seen := tabGet (fun _ => false) (getMb s m).seen n
    let s := onMb m (fun b => { b with seen := tabSet (fun _ => false) b.seen n false }) s
    if seen then s else s1Event m s
  else if t = 3 then
    let s := s2Event m s
    if ttRole s m ≠ 0 ∧ ¬ttMaster s m ∧ ¬(dpxOn s ∧ dpxState s ≠ 2) then takeOverTime m s else s
  else s

/-- The walk of the present basic cycle has come to trigger n, and the cycle time is its TIME_MARK (R115). -/
def atMark (s : State) (m n : Nat) : Bool :=
  (getMb s m).walked ≤ n && cycleTime s m = getF s (R.MB_TRIG_A m n) F.MB_TRIG_A_TIME_MARK

/-- TT_TRIGGER (R115): the cycle time reaches an enabled trigger's mark. -/
def execTtTrigger (c : Fin 8) (n : Fin 64) (busIdle : Bool) (s : State) : Host.Outcome State Fault Refusal :=
  if ¬ttOn s c ∨ ¬getB s (R.MB_TT_STAT c) F.MB_TT_STAT_SYNC ∨ ttLevel s c = 3 ∨ ¬trigOn s c n ∨ ¬atMark s c n then .next s
  else
    let s := endWindow c (onMb c (fun b => { b with walked := n.val + 1 }) s)
    .next (if getF s (R.MB_TT_STAT c) F.MB_TT_STAT_CCNT % 2 ^ trigRep s c n = trigOff s c n then fireTrigger c n busIdle s else s)

/-! The gateway (R117 to R120). -/

/-- A width code in bytes. -/
def widthBytes (code : Nat) : Nat := 2 ^ code

/-- A map word pair would be refused by EN (R117). -/
def mapInvalid (a b : Word) : Bool :=
  let src := F.GW_MAP_B_SRC.get b
  64 < F.GW_MAP_B_BOFF.get b + widthBytes (F.GW_MAP_B_BW.get b) ||
  F.GW_MAP_A_IOFF.get a % widthBytes (F.GW_MAP_B_IW.get b) ≠ 0 ||
  (src ≠ 0 && F.GW_MAP_A_DIR.get a = 1) || src = 3 || (src = 1 && F.GW_MAP_B_IW.get b ≠ 3)

/-- A write of GW_CTL reaches the tracks that follow a bus field (R316). -/
def writeGwCtl (v : Word) (s : State) : State :=
  let s := plainWrite R.GW_CTL v s
  (List.range 16).foldl (fun s n => if trackSrc s n = 6 then reviewTrack n s else s) s

/-- A write of a map word (R117): EN that would be refused stays 0, and B is not written while EN is 1. -/
def writeMap (n : Nat) (isB : Bool) (v : Word) (s : State) : State :=
  let a := R.GW_MAP_A n
  let b := R.GW_MAP_B n
  let ref := fun s => setB s R.GW_STAT F.GW_STAT_CFGREF true
  if isB then (if getB s a F.GW_MAP_A_EN then ref (declineWrite b v s) else plainWrite b v s)
  else reviewSource 6 n
    (if F.GW_MAP_A_EN.get v = 1 ∧ mapInvalid v (getReg s b) then ref (setB (declineWrite a v s) a F.GW_MAP_A_EN false)
     else plainWrite a v s)

/-- GW_MAP_WRITE (R117): a write of GW_MAPn_A, or of GW_MAPn_B where b is true. -/
def execGwMapWrite (m : Master) (n : Fin 512) (b : Bool) (v : Word) (s : State) : Host.Outcome State Fault Refusal :=
  .next (guardWrite m (if b then R.GW_MAP_B n else R.GW_MAP_A n) (fun s => (writeMap n b v s, none)) s)

/-- The map entries in force of a direction that name an object; one that reads poisoned is not applied (R398). -/
def mapEntries (s : State) (dir m n : Nat) : List Nat :=
  (List.range 512).filter (fun i =>
    let a := R.GW_MAP_A i
    getB s a F.GW_MAP_A_EN && getF s a F.GW_MAP_A_DIR = dir && getF s a F.GW_MAP_A_CTRL = m && getF s a F.GW_MAP_A_OBJ = n &&
    !badWord s a && !badWord s (R.GW_MAP_B i))

/-- A number from bw bytes, converted to iw bytes (R118): extended, cut, or clamped. -/
def convertField (sgn sat : Bool) (bw iw x : Nat) : Nat :=
  let v : Int := if sgn then signed (8 * bw) x else (x : Int)
  if bw ≤ iw ∨ ¬sat then wrap (8 * iw) v
  else if sgn then saturate (8 * iw) v
  else min x (2 ^ (8 * iw) - 1)

/-- Bytes in bus order as a number, and back. -/
def fromBus (big : Bool) (bs : List Byte) : Nat := leNat (if big then bs.reverse else bs)
/-- The bus bytes of a number. -/
def toBus (big : Bool) (n x : Nat) : List Byte := if big then (leBytes n x).reverse else leBytes n x

/-- The length of the frame last stored in an object. -/
def storedBytes (s : State) (m n : Nat) : Nat :=
  let w := objWord s m n 0x0C
  frameBytes (bitOf w 24) (bitOf w 28) (bitsOf w 20 4)

/-- The gateway's access to an image (R117): requester 20, master index 4. -/
def gwAccess (off width : Nat) (write : Bool) : Access :=
  { m := .loc 4, a := (if write then inImage else outImage) + off, width := width, write := write, lock := false }

/-- One DIR 0 entry of a burst (R118, R119): its value goes to the input half, and to the tracks that follow it (R123). -/
def applyEntry (i m n instant : Nat) (s : State) : State :=
  let b := R.GW_MAP_B i
  let a := objAddr m n
  let off := getF s (R.GW_MAP_A i) F.GW_MAP_A_IOFF
  let src := getF s b F.GW_MAP_B_SRC
  let bw := if src = 1 then 8 else if src = 2 then 2 else widthBytes (getF s b F.GW_MAP_B_BW)
  let iw := widthBytes (getF s b F.GW_MAP_B_IW)
  let boff := getF s b F.GW_MAP_B_BOFF
  if src = 0 ∧ storedBytes s m n < boff + bw then bump (ctr 0x0004 1 i) s
  else
    let from_ := if src = 1 then a + 0x10 else if src = 2 then a + 0x1C else a + 0x20 + boff
    let bytes := getBytes s from_ bw
    let pois := (List.range bw).any (fun k => poisoned s (from_ + k))
    let x := fromBus (src = 0 && getB s b F.GW_MAP_B_BORD) bytes
    let y := convertField (getB s b F.GW_MAP_B_SIGN) (getB s b F.GW_MAP_B_SAT) bw iw x
    let acc := gwAccess off iw true
    if ¬tableAllows s acc then recordDenial acc s
    else reviewSource 6 i (feedField i iw y instant (masterWrite (inImage + off) (leBytes iw y) pois s))

/-- An object's rate-drop counter rises, with the copy in OBJ_CNT (R105, R119, R120). -/
def rateDrop (m n : Nat) (s : State) : State :=
  let s := bump (ctr 0x0004 0 (128 * m + n)) s
  let d := getCtr s (ctr 0x0004 0 (128 * m + n)) % 2 ^ 16
  putObjWord m n 0x1C (objWord s m n 0x1C % 2 ^ 16 + d * 2 ^ 16) s

/-- The gateway's access ends, and its request stands again while bursts or an update wait. -/
def gwEnd (s : State) : State :=
  let s := endRequest 20 s
  if s.buses.bursts ≠ [] ∨ s.buses.toBus then request 20 s else s

/-- GW_BUS_TO_IMAGE (R119): the oldest waiting burst is written whole; a second frame of one object in one half is a rate
drop. -/
def execGwBusToImage (s : State) : Host.Outcome State Fault Refusal :=
  match s.buses.bursts with
  | [] => .next s
  | (m, n, instant) :: rest =>
    let s := acquire 20 s
    if ¬holds s 20 then .next s else
    let s := gwEnd (onBuses (fun b => { b with bursts := rest }) s)
    if ¬getB s R.GW_CTL F.GW_CTL_EN ∨ ¬ttRunning s then .next s
    else
      let es := mapEntries s 0 m n
      if es = [] then .next s
      else
        let s := if 128 * m + n ∈ s.buses.landed then rateDrop m n s
          else onBuses (fun b => { b with landed := (128 * m + n) :: b.landed }) s
        .next (es.foldl (fun s i => applyEntry i m n instant s) s)

/-- The bytes that a DIR 1 entry puts into its object: offset and bytes (R118). -/
def entryBytes (s : State) (i : Nat) : Nat × List Byte :=
  let b := R.GW_MAP_B i
  let bw := widthBytes (getF s b F.GW_MAP_B_BW)
  let iw := widthBytes (getF s b F.GW_MAP_B_IW)
  let x := leNat (masterRead s (outImage + getF s (R.GW_MAP_A i) F.GW_MAP_A_IOFF) iw)
  let y := convertField (getB s b F.GW_MAP_B_SIGN) (getB s b F.GW_MAP_B_SAT) iw bw x
  (getF s b F.GW_MAP_B_BOFF, toBus (getB s b F.GW_MAP_B_BORD) bw y)

/-- An image word that an entry reads is poisoned. -/
def entryPoisoned (s : State) (i : Nat) : Bool :=
  let off := getF s (R.GW_MAP_A i) F.GW_MAP_A_IOFF
  readPoisoned s (outImage + off)

/-- One object at a boundary (R120): updated from its entries and requested by GWTX, or withheld where a word is poisoned. -/
def updateObj (m n : Nat) (s : State) : State :=
  let es := (mapEntries s 1 m n)
  let denied := es.find? (fun i =>
    !tableAllows s (gwAccess (getF s (R.GW_MAP_A i) F.GW_MAP_A_IOFF) (widthBytes (getF s (R.GW_MAP_B i) F.GW_MAP_B_IW)) false))
  match denied with
  | some i => recordDenial (gwAccess (getF s (R.GW_MAP_A i) F.GW_MAP_A_IOFF) (widthBytes (getF s (R.GW_MAP_B i) F.GW_MAP_B_IW)) false) s
  | none =>
    if es.any (fun i => entryPoisoned s i) then
      gwNotice (setB (markObj m n 19 (consumePoison 4 s)) R.GW_STAT F.GW_STAT_POISON true)
    else
      let before := getBytes s (objAddr m n + 0x20) 64
      let s := es.foldl (fun s i => let (o, bs) := entryBytes s i; masterWrite (objAddr m n + 0x20 + o) bs false s) s
      let changed := getBytes s (objAddr m n + 0x20) 64 ≠ before
      let gwtx := if objTx s m n then bitsOf (objCfg s m n) 12 2 else 0
      let s := if txPending s m n then rateDrop m n s else s
      if ¬objTt s m n ∧ (gwtx = 1 ∨ (gwtx = 2 ∧ changed)) then requestObj m n false s else s

/-- The objects with DIR 1 entries, in the order of their first entry. -/
def outObjects (s : State) : List (Nat × Nat) :=
  ((List.range 512).filterMap (fun i =>
    let a := R.GW_MAP_A i
    if getB s a F.GW_MAP_A_EN && getF s a F.GW_MAP_A_DIR = 1 then some (getF s a F.GW_MAP_A_CTRL, getF s a F.GW_MAP_A_OBJ) else none)).eraseDups

/-- GW_IMAGE_TO_BUS (R120): after a cycle boundary every object with DIR 1 entries is updated and requested. -/
def execGwImageToBus (s : State) : Host.Outcome State Fault Refusal :=
  if ¬s.buses.toBus then .next s
  else
    let s := acquire 20 s
    if ¬holds s 20 then .next s else
    let s := gwEnd (onBuses (fun b => { b with toBus := false }) s)
    if ¬getB s R.GW_CTL F.GW_CTL_EN ∨ ¬ttRunning s then .next s
    else .next ((outObjects s).foldl (fun s o => updateObj o.1 o.2 s) s)

/-- A cycle boundary at the gateway: the new half has no frames yet, and the transmit objects wait for their update (R119, R120). -/
def gwBoundary (s : State) : State :=
  onBuses (fun b => { b with landed := [], toBus := getB s R.GW_CTL F.GW_CTL_EN }) s

/-! Frames from the ring (R122). -/

/-- The object whose base an address is. -/
def objAt (a : Nat) : Option (Nat × Nat) :=
  if 0x100000 ≤ a ∧ a < 0x120000 ∧ a % 0x80 = 0 then some ((a - 0x100000) / 0x4000, a % 0x4000 / 0x80) else none

/-- The controller in whose message RAM an address lies. -/
def ctrlAt (a : Nat) : Option Nat := if 0x100000 ≤ a ∧ a < 0x120000 then some ((a - 0x100000) / 0x4000) else none

/-- Data word i of a BUS_FRAME goes to its object, with its own poison, whose writing is counted (R122, R202). -/
def putFrameWord (m n : Nat) (len : Nat) (e : Envelope) (s : State) (i : Nat) : State :=
  let pois := (poisonBits e).getLsbD (i + 2)
  let s := if pois then consumePoison 0 s else s
  masterWrite (objAddr m n + 0x20 + 8 * i) ((leBytes 8 (payloadWord e (i + 2)).toNat).take (len - 8 * i)) pois s

/-- A BUS_FRAME's DLC and data replace the object's, and the object is requested; its ID and flags are ignored, so that the length is
that of the object's own format (R122). -/
def takeBusFrame (m n : Nat) (e : Envelope) (s : State) : State :=
  let dlc := bitsOf (payloadWord e 0).toNat 34 4
  let c := objCfg s m n
  let len := min (dlcBytes (bitOf c 4) dlc) (8 * (e.lenw.toNat - 2))
  let s := putObjWord m n 0 (c / 2 ^ 12 * 2 ^ 12 + dlc * 2 ^ 8 + c % 2 ^ 8) s
  requestObj m n false ((List.range (ceilDiv len 8)).foldl (fun s i => putFrameWord m n len e s i) s)

/-- BUS_FRAME (R122, R201): accepted for an enabled transmit object that triggers do not send, from a sender with W permission on the
controller's block; otherwise refused with ACCESS_DENIED where permission is lacking, and with BUS_REFUSED in every other case. -/
def execBusFrame (e : Envelope) (s : State) : Host.Outcome State Fault Refusal :=
  let e := asKind kBusFrame e
  let s := takeDelivered e s
  let s := if poisonMismatch e then bump (ctr 0x000B 7 0) s else s
  let refuseWith := fun (r : Reason) => sendNdn r.code 0 0 (ndnData e).1 (ndnData e).2 e s
  match ctrlAt e.addr.toNat with
  | none => .next (refuseWith .busRefused)
  | some c =>
    if ¬holdsWrite s (taggedMaster e) (R.MB_CTL c) then .next (refuseWith .accessDenied)
    else
      match objAt e.addr.toNat with
      | none => .next (refuseWith .busRefused)
      | some (m, n) =>
        if e.lenw.toNat < 2 ∨ 10 < e.lenw.toNat ∨ ¬objOn s m n ∨ ¬objTx s m n ∨ objTt s m n ∨ inUnitReset s 0x0004 m then
          .next (refuseWith .busRefused)
        else .next (takeBusFrame m n e s)

/-! Unit reset (R102). -/

/-- The registers of a controller, at their reset values. -/
def resetRange (a n : Nat) (s : State) : State := { s with regs := s.regs.filter (fun r => r.1 < a || a + n ≤ r.1) }

/-- Unit reset of a controller: off the bus at once, every register and flag at reset, message RAM as it is. A STATE other than OFF
changes to OFF, which posts a notice to the queue that MB_CTL names until then (R112). -/
def resetMb (m : Nat) (s : State) : State :=
  let s := setMbState m 0 s
  let s := onBuses (fun b => { b with bursts := b.bursts.filter (fun x => x.1 ≠ m) }) s
  resetRange (R.MB_CTL m) 0x1000 (onMb m (fun _ => Mb.reset) s)

end Sys2Proof.Machine
end

