-- ==== Sys2Proof/Machine/Serial.lean ====
section
/-! DEFINITION. UARTs, encoder counters and mains-phase inputs (chapter 05). Counters of CAP 0x0005: 0 overruns, 1 TX drops, 2 echo
mismatches, 3 frame drops; of CAP 0x0006: 0 glitches, 1 illegal samples; of CAP 0x0007: 0 ignored edges, 1 clamped corrections. -/

namespace Sys2Proof.Machine

/-- UART u. -/
def getUart (s : State) (u : Nat) : Uart := tabGet (fun _ => Uart.reset) s.field.uarts u

/-- The state after UART u is changed. -/
def onUart (u : Nat) (f : Uart → Uart) (s : State) : State :=
  onField (fun x => { x with uarts := tabSet (fun _ => Uart.reset) x.uarts u (f (tabGet (fun _ => Uart.reset) x.uarts u)) }) s

/-- UA_CTL.EN. -/
def uartOn (s : State) (u : Nat) : Bool := getB s (R.UA_CTL u) F.UA_CTL_EN
/-- MODE, with 3 treated as 0. -/
def uartMode (s : State) (u : Nat) : Nat := let m := getF s (R.UA_CTL u) F.UA_CTL_MODE; if m = 3 then 0 else m
/-- UA_CTL.ECHO. -/
def uartEcho (s : State) (u : Nat) : Bool := getB s (R.UA_CTL u) F.UA_CTL_ECHO
/-- UA_IMG.EN: the hub drains the RX FIFO itself (R131). -/
def uartImage (s : State) (u : Nat) : Bool := getB s (R.UA_IMG u) F.UA_IMG_EN
/-- UA_IMG.LEN, with larger values treated as 32. -/
def uartLen (s : State) (u : Nat) : Nat := min 32 (getF s (R.UA_IMG u) F.UA_IMG_LEN)
/-- A flag of UA_STAT is set. -/
def uartFlag (u : Nat) (f : Fld) (s : State) : State := setB s (R.UA_STAT u) f true
/-- The UART's notices, which have no codes in the spec (log entry 12). -/
def uartNotice (u : Nat) (s : State) : State := postOpen (getF s (R.UA_CTL u) F.UA_CTL_NTC_Q) 0x0005 u s
/-- The UART's pins follow its drivers. -/
def refreshUart (u : Nat) (s : State) : State := [0, 2, 3].foldl (fun s i => refreshPin (16 * u + i) s) s

/-- UA_STAT as it reads: FIFO levels and TX_BUSY. -/
def uartStat (s : State) (u : Nat) : Word :=
  let x := getUart s u
  let w := F.UA_STAT_TX_LVL.put (getReg s (R.UA_STAT u)) x.tx.length
  F.UA_STAT_TX_BUSY.put (F.UA_STAT_RX_LVL.put w x.rx.length) (bit1 x.sending.isSome)

/-! Configuration (R124, R125). -/

/-- A field keeps its value in force in a word that is to be written. -/
def keepField (s : State) (a : Nat) (f : Fld) (v : Word) : Word := f.put v (getF s a f)

/-- A write changes one of the fields. -/
def changesAny (s : State) (a : Nat) (fs : List Fld) (v : Word) : Bool := fs.any (fun f => f.get v ≠ getF s a f)

/-- The fields that are locked while EN is 1. -/
def uartLocked : List Fld := [F.UA_CTL_MODE, F.UA_CTL_DATA, F.UA_CTL_PAR, F.UA_CTL_STOP2, F.UA_CTL_ECHO]

/-- A write of UA_CTL: a refused DATA or PAR refuses it whole, and the locked fields stay while EN is 1. -/
def writeUaCtl (u : Nat) (v : Word) (s : State) : State :=
  let a := R.UA_CTL u
  let d := F.UA_CTL_DATA.get v
  if d < 5 ∨ 9 < d ∨ 5 ≤ F.UA_CTL_PAR.get v then uartFlag u F.UA_STAT_CFGREF (declineWrite a v s)
  else
    let was := uartOn s u
    let s := if was ∧ changesAny s a uartLocked v then uartFlag u F.UA_STAT_CFGREF s else s
    let kept := if was then uartLocked.foldl (fun v f => keepField s a f v) v else v
    let s := writeInPart a kept v s
    let now := uartOn s u
    let s := if ¬was ∧ now then
        (List.range 4).foldl (fun s i => onPin (16 * u + i) (fun c => { c with quiet := false }) s) (onUart u (fun x => { x with afterGap := true }) s)
      else if was ∧ ¬now then onUart u (fun x => { x with sending := none, inChar := false, echo := [] }) s
      else s
    refreshUart u s

/-- A write of UA_BAUD (R125) or UA_DIR. -/
def writeUaTiming (u a : Nat) (v : Word) (s : State) : State :=
  if (uartOn s u ∧ fieldBits a v ≠ getReg s a) ∨ (a = R.UA_BAUD u ∧ F.UA_BAUD_DIV.get v < 200) then
    uartFlag u F.UA_STAT_CFGREF (declineWrite a v s)
  else plainWrite a v s

/-- A write of an _IMG register is refused: the offset is not aligned, or the record passes offset 0x7FFF (R124). -/
def imgRefused (v : Word) (align bytes : Nat) : Bool :=
  let off := v.toNat % 0x8000
  off % align ≠ 0 || 0x8000 < off + bytes

/-- Bytes of UART u's record for a word of UA_IMG: 4 + LEN, in whole words. -/
def uartRecBytes (v : Word) : Nat := 4 * ceilDiv (4 + min 32 (F.UA_IMG_LEN.get v)) 4

/-- A received character is gathered into the frame (R131). -/
def gatherChar (len : Nat) (c : UartChar) (f : UartFrame) : UartFrame :=
  { bytes := if f.bytes.length < len then f.bytes ++ [c.data % 256] else f.bytes,
    trunc := f.trunc || decide (len ≤ f.bytes.length), err := f.err || c.perr || c.ferr || c.brk }

/-- The frame closes at END (R131). -/
def closeFrame (u : Nat) (s : State) : State :=
  onUart u (fun x => { x with frame := x.gather, gather := { bytes := [], trunc := false, err := false },
                              closed := x.closed + 1, seq := (x.seq + 1) % 256 }) s

/-- The hub drains the RX FIFO in image mode (R131). -/
def drainUart (u : Nat) (s : State) : State :=
  let len := uartLen s u
  let cs := (getUart s u).rx
  cs.foldl (fun s c =>
    let s := onUart u (fun x => { x with gather := gatherChar len c x.gather }) s
    if c.gap then closeFrame u s else s) (onUart u (fun x => { x with rx := [] }) s)

/-- A write of UA_IMG (R124, R131). -/
def writeUaImg (u : Nat) (v : Word) (s : State) : State :=
  if imgRefused v 4 (uartRecBytes v) ∨ (F.UA_IMG_EN.get v = 1 ∧ getF s (R.UA_GAP u) F.UA_GAP_IDLE = 0) then
    uartFlag u F.UA_STAT_CFGREF (declineWrite (R.UA_IMG u) v s)
  else
    let s := plainWrite (R.UA_IMG u) v s
    if uartImage s u then drainUart u s else s

/-! Transmission (R129, R130). -/

/-- UA_TXD_WRITE (R127): a character is appended, or dropped and counted. -/
def writeTxd (u : Nat) (v : Word) (s : State) : State :=
  let s := countPart (R.UA_TXD u) v s
  if 64 ≤ (getUart s u).tx.length then bump (ctr 0x0005 1 u) (uartFlag u F.UA_STAT_TXDROP s)
  else onUart u (fun x => { x with tx := x.tx ++ [F.UA_TXD_DATA.get v] }) s

/-- UA_TXD_WRITE (R127). -/
def execUaTxdWrite (m : Master) (u : Fin 16) (v : Word) (s : State) : Host.Outcome State Fault Refusal :=
  .next (guardWrite m (R.UA_TXD u) (fun s => (writeTxd u v s, none)) s)

/-- UART_TX_START (R129, R130): the next queued character starts. The first of a transmission raises DE, and in MODE 1 waits
until no received character is in progress. -/
def execUartTxStart (u : Fin 16) (s : State) : Host.Outcome State Fault Refusal :=
  let x := getUart s u
  match x.tx with
  | [] => .next s
  | c :: rest =>
    if ¬uartOn s u ∨ inUnitReset s 0x0005 u ∨ (x.sending.isNone ∧ uartMode s u = 1 ∧ x.inChar) then .next s
    else
      let echo := if uartMode s u = 1 ∧ uartEcho s u then x.echo ++ [c] else []
      .next (refreshUart u (onUart u (fun x => { x with tx := rest, sending := some c, echo := echo }) s))

/-- UART_TX_END (R130): LAG cycles after the last stop bit, with nothing left to send, DE and RE_L fall. -/
def execUartTxEnd (u : Fin 16) (s : State) : Host.Outcome State Fault Refusal :=
  let x := getUart s u
  if x.sending.isSome ∧ x.tx = [] then .next (refreshUart u (onUart u (fun x => { x with sending := none, echo := [] }) s)) else .next s

/-! Reception (R126 to R128, R131). -/

/-- The receiver listens: enabled, out of reset, and RE_L low (R130). -/
def uartListens (s : State) (u : Nat) : Bool :=
  uartOn s u && !inUnitReset s 0x0005 u && !(uartMode s u = 1 && (getUart s u).sending.isSome && !uartEcho s u)

/-- The receiver is still held off by a break: the low level came less than a bit time, of DIV quarters of a ns, after the line can have
risen (R126). -/
def afterBreak (s : State) (u age : Nat) : Bool :=
  match (getUart s u).broke with
  | none => false
  | some k => decide (3200 * s.time.ltick < k + 250 * getF s (R.UA_BAUD u) F.UA_BAUD_DIV + 1000 * age)

/-- UART_START_BIT (R126, R128): a low level after idle, `age` ns ago, confirmed half a bit later or abandoned. The first after a
gap or after enable is postmarked. -/
def execUartStartBit (u : Fin 16) (confirmed : Bool) (age : Nat) (s : State) : Host.Outcome State Fault Refusal :=
  if ¬uartListens s u ∨ (getUart s u).inChar ∨ ¬confirmed ∨ afterBreak s u age then .next s
  else
    let first := (getUart s u).afterGap
    let s := onUart u (fun x => { x with inChar := true, afterGap := false, broke := none }) s
    if first then
      let pm := vdBack s (getF s (R.UA_CTL u) F.UA_CTL_VD) age
      .next (setReg (setReg s (R.UA_RXPM_LO u) (lo32 pm)) (R.UA_RXPM_HI u) (hi32 pm))
    else .next s

/-- The parity bit that PAR asks for: none, even, odd, mark, space. -/
def parityOf (par d : Nat) : Option Bool :=
  let odd := decide (((List.range 9).map (fun i => d / 2 ^ i % 2)).sum % 2 = 1)
  if par = 1 then some odd else if par = 2 then some (!odd) else if par = 3 then some true else if par = 4 then some false else none

/-- A character with the flags of R126, from the sampled data, parity bit and first stop bit. -/
def judgeChar (s : State) (u d : Nat) (par stop : Bool) : UartChar :=
  let d := d % 2 ^ getF s (R.UA_CTL u) F.UA_CTL_DATA
  match parityOf (getF s (R.UA_CTL u) F.UA_CTL_PAR) d with
  | none => { data := d, perr := false, ferr := !stop, brk := d = 0 && !stop, gap := false }
  | some p => { data := d, perr := p != par, ferr := !stop, brk := d = 0 && !par && !stop, gap := false }

/-- The flags of a received character stay in UA_STAT. -/
def charFlags (u : Nat) (c : UartChar) (s : State) : State :=
  let s := if c.perr then uartFlag u F.UA_STAT_PERR s else s
  let s := if c.ferr then uartFlag u F.UA_STAT_FERR s else s
  if c.brk then uartFlag u F.UA_STAT_BRK s else s

/-- A character during an own transmission with ECHO: compared with the DATA bits that were sent, and discarded (R130). -/
def compareEcho (u : Nat) (c : UartChar) (s : State) : State :=
  let want := (getUart s u).echo.head?.map (fun d => d % 2 ^ getF s (R.UA_CTL u) F.UA_CTL_DATA)
  let s := onUart u (fun x => { x with echo := x.echo.drop 1 }) s
  if want = some c.data then s else uartNotice u (bump (ctr 0x0005 2 u) (uartFlag u F.UA_STAT_COLL s))

/-- A character for the FIFO: gathered in image mode, appended, or discarded as an overrun (R127, R131). -/
def takeChar (u : Nat) (c : UartChar) (s : State) : State :=
  if uartImage s u then onUart u (fun x => { x with gather := gatherChar (uartLen s u) c x.gather, overrun := false }) s
  else if 64 ≤ (getUart s u).rx.length then
    let first := !(getUart s u).overrun
    let s := bump (ctr 0x0005 0 u) (uartFlag u F.UA_STAT_OVR (onUart u (fun x => { x with overrun := true }) s))
    if first then uartNotice u s else s
  else onUart u (fun x => { x with rx := x.rx ++ [c], overrun := false }) s

/-- UART_CHAR_RECEIVED (R126, R127, R130): the middle of the first stop bit, with the data, parity and stop bits as sampled. -/
def execUartCharReceived (u : Fin 16) (d : BitVec 9) (par stop : Bool) (s : State) : Host.Outcome State Fault Refusal :=
  if ¬uartListens s u ∨ ¬(getUart s u).inChar then .next s
  else
    let c := judgeChar s u d.toNat par stop
    let broke := if c.brk then some (3200 * s.time.ltick) else none
    let s := charFlags u c (onUart u (fun x => { x with inChar := false, count := (x.count + 1) % 16, broke := broke }) s)
    if uartMode s u = 1 ∧ (getUart s u).sending.isSome then .next (compareEcho u c s) else .next (takeChar u c s)

/-- The youngest entry is marked END (R128). -/
def markEnd : List UartChar → List UartChar
  | [] => []
  | [c] => [{ c with gap := true }]
  | c :: cs => c :: markEnd cs

/-- Characters have been gathered into a frame that has not closed. -/
def gathered (s : State) (u : Nat) : Bool := (getUart s u).gather ≠ { bytes := [], trunc := false, err := false }

/-- UART_GAP (R128, R131): the line has been idle for IDLE bit times after a character. -/
def execUartGap (u : Fin 16) (s : State) : Host.Outcome State Fault Refusal :=
  let x := getUart s u
  if ¬uartOn s u ∨ x.afterGap ∨ x.inChar ∨ getF s (R.UA_GAP u) F.UA_GAP_IDLE = 0 then .next s
  else
    let s := onUart u (fun x => { x with afterGap := true, rx := markEnd x.rx }) s
    .next (uartNotice u (if uartImage s u ∧ gathered s u then closeFrame u s else s))

/-- A character as UA_RXD shows it. -/
def rxdWord (c : UartChar) : Word :=
  BitVec.ofNat 32 (c.data + bit1 c.perr * 2 ^ 9 + bit1 c.ferr * 2 ^ 10 + bit1 c.brk * 2 ^ 11 + bit1 c.gap * 2 ^ 12 + 2 ^ 31)

/-- A read of UA_RXD removes the oldest character; in image mode it returns 0 and sets RXREF (R131). -/
def readRxd (u : Nat) (s : State) : State × Word :=
  if uartImage s u then (uartFlag u F.UA_STAT_RXREF s, 0)
  else
    match (getUart s u).rx with
    | [] => (s, 0)
    | c :: rest => (onUart u (fun x => { x with rx := rest }) s, rxdWord c)

/-- UA_RXD_READ (R131). -/
def execUaRxdRead (m : Master) (u : Fin 16) (s : State) : Host.Outcome State Fault Refusal :=
  .next (guardRead m (R.UA_RXD u) (fun s => readRxd u s) s)

/-- UART u's record at a boundary (R131): header, data bytes, zero padding. -/
def uartRecord (s : State) (u : Nat) : List Byte :=
  let x := getUart s u
  let n := uartLen s u
  let data := x.frame.bytes.take n
  let head := data.length + min 255 x.closed * 2 ^ 8 + bit1 x.frame.trunc * 2 ^ 16 + bit1 x.frame.err * 2 ^ 17 + x.seq * 2 ^ 24
  let bs := leBytes 4 head ++ data.map (fun d => BitVec.ofNat 8 d)
  bs ++ List.replicate (4 * ceilDiv (4 + n) 4 - bs.length) 0

/-- UART u at a boundary: its record, and the frames that were not carried are counted. -/
def uartBoundary (u : Nat) (s : State) : State :=
  if uartImage s u ∧ ¬inUnitReset s 0x0005 u then
    let s := boundaryWrite (4 * getF s (R.UA_IMG u) F.UA_IMG_IOFF) (uartRecord s u) s
    let k := (getUart s u).closed
    onUart u (fun x => { x with closed := 0 }) (if 1 < k then bumpN (ctr 0x0005 3 u) (k - 1) s else s)
  else s

/-! Encoders (R132 to R136). -/

/-- Encoder n. -/
def getEnc (s : State) (n : Nat) : Enc := tabGet (fun _ => Enc.reset) s.field.encs n

/-- The state after encoder n is changed. -/
def onEnc (n : Nat) (f : Enc → Enc) (s : State) : State :=
  onField (fun x => { x with encs := tabSet (fun _ => Enc.reset) x.encs n (f (tabGet (fun _ => Enc.reset) x.encs n)) }) s

/-- EN_CTL.EN. -/
def encOn (s : State) (n : Nat) : Bool := getB s (R.EN_CTL n) F.EN_CTL_EN

/-- The fields that are locked while EN is 1. -/
def encLocked : List Fld := [F.EN_CTL_MODE, F.EN_CTL_FILT, F.EN_CTL_ZGATE, F.EN_CTL_ZQ]

/-- A write of EN_CTL (R133). -/
def writeEnCtl (n : Nat) (v : Word) (s : State) : State :=
  let a := R.EN_CTL n
  let ref := fun s => setB s (R.EN_STAT n) F.EN_STAT_CFGREF true
  if 5 ≤ F.EN_CTL_MODE.get v then ref (declineWrite a v s)
  else
    let was := encOn s n
    let s := if was ∧ changesAny s a encLocked v then ref s else s
    let kept := if was then encLocked.foldl (fun v f => keepField s a f v) v else v
    reviewSource 1 n (writeInPart a kept v s)

/-- A write of EN_MOD. -/
def writeEnMod (n : Nat) (v : Word) (s : State) : State :=
  if encOn s n ∧ v ≠ getReg s (R.EN_MOD n) then setB (declineWrite (R.EN_MOD n) v s) (R.EN_STAT n) F.EN_STAT_CFGREF true
  else plainWrite (R.EN_MOD n) v s

/-- A write of EN_IMG or MP_IMG: two words (R124). -/
def writeImg2 (a stat : Nat) (f : Fld) (v : Word) (s : State) : State :=
  if imgRefused v 8 8 then setB (declineWrite a v s) stat f true else plainWrite a v s

/-- The count after a step (R134). -/
def stepCount (mod c : Nat) (d : Int) : Nat :=
  if mod = 0 then wrap 32 (c + d)
  else if d = 1 then (if mod ≤ c then 0 else c + 1)
  else if d = -1 then (if c = 0 ∨ mod < c then mod else c - 1)
  else c

/-- What a sample of accepted levels counts by MODE, before DIRINV; none when it is illegal (R133). -/
def countOf (mode : Nat) (a0 b0 a b : Bool) : Option Int :=
  let rise := !a0 && a
  let fall := a0 && !a
  if mode ≤ 2 ∧ a0 ≠ a ∧ b0 ≠ b then none
  else if mode = 0 then
    if a0 ≠ a then some (if a ≠ b then 1 else -1)
    else if b0 ≠ b then some (if a = b then 1 else -1)
    else some 0
  else if mode = 1 then some (if a0 ≠ a then (if a ≠ b then 1 else -1) else 0)
  else if mode = 2 then some (if b then 0 else if rise then 1 else if fall then -1 else 0)
  else if mode = 3 then some (if rise then (if b then -1 else 1) else 0)
  else
    let up := rise
    let down := !b0 && b
    some (if up && down then 0 else if up then 1 else if down then -1 else 0)

/-- A count of encoder n (R134, R136). In a standby it goes to the encoder's own sampling only (R362). -/
def encCount (n : Nat) (d : Int) (age : Nat) (s : State) : State :=
  if d = 0 then s
  else
    let mod := (getReg s (R.EN_MOD n)).toNat
    let s := setB s (R.EN_STAT n) F.EN_STAT_DIR (decide (d < 0))
    let at0 := itbBack s 0 age
    if followsPartner s then onEnc n (fun e => { e with own := stepCount mod e.own d, last := whenNs at0 }) s
    else
      let c := stepCount mod (getReg s (R.EN_COUNT n)).toNat d
      let s := onEnc n (fun e => { e with own := c, last := whenNs at0 }) (setReg s (R.EN_COUNT n) (BitVec.ofNat 32 c))
      feedTracks 1 n d at0.toNat s

/-- An illegal sample (R133, R499). -/
def encIllegal (n old new : Nat) (s : State) : State :=
  let first := !getB s (R.EN_STAT n) F.EN_STAT_ILLEGAL
  let s := bump (ctr 0x0006 1 n) (setB s (R.EN_STAT n) F.EN_STAT_ILLEGAL true)
  if first then post (getF s (R.EN_CTL n) F.EN_CTL_NTC_Q) 0x0006 n 0x81 (old + 4 * new) s else s

/-- A sample in which A or B is accepted at a new level (R132, R133). -/
def encSample (n : Nat) (a b : Bool) (age : Nat) (s : State) : State :=
  let old := getF s (R.EN_STAT n) F.EN_STAT_AB
  let new := bit1 a + 2 * bit1 b
  let s := setF s (R.EN_STAT n) F.EN_STAT_AB new
  if ¬encOn s n ∨ old = new then s
  else
    match countOf (getF s (R.EN_CTL n) F.EN_CTL_MODE) (bitOf old 0) (bitOf old 1) a b with
    | none => encIllegal n old new s
    | some d => encCount n (if getB s (R.EN_CTL n) F.EN_CTL_DIRINV then -d else d) age s

/-- ENCODER_EDGE (R132, R133): A and B as accepted now; the edge's first transition came `age` ns ago. -/
def execEncoderEdge (n : Fin 16) (a b : Bool) (age : Nat) (s : State) : Host.Outcome State Fault Refusal :=
  .next (if inUnitReset s 0x0006 n then s else encSample n a b age s)

/-- An index (R135): the count is latched and postmarked, reset where ZRST says so, and reported. -/
def encIndex (n : Nat) (age : Nat) (s : State) : State :=
  let ctl := R.EN_CTL n
  let c := getReg s (R.EN_COUNT n)
  let pm := vdBack s (getF s ctl F.EN_CTL_VD) age
  let s := setReg s (R.EN_ZCNT n) c
  let s := setReg (setReg s (R.EN_ZPM_LO n) (lo32 pm)) (R.EN_ZPM_HI n) (hi32 pm)
  let zrst := getF s ctl F.EN_CTL_ZRST
  let armed := zrst = 2 ∧ getB s ctl F.EN_CTL_ZARM
  let s := if zrst = 1 ∨ armed then onEnc n (fun e => { e with own := 0 }) (setReg s (R.EN_COUNT n) 0) else s
  let s := if armed then setB s ctl F.EN_CTL_ZARM false else s
  let s := setB s (R.EN_STAT n) F.EN_STAT_ZSEEN true
  if getB s ctl F.EN_CTL_ZNTC then
    let q := getF s ctl F.EN_CTL_NTC_Q
    postPm q 0x0006 n 0x01 (c.toNat % 2 ^ 16) (vdBack s (queueVd s q) age) s
  else s

/-- ENCODER_INDEX (R135): Z is accepted at a level, with A and B as accepted in the same sample; a rising Z at the gated levels is
an index. -/
def execEncoderIndex (n : Fin 16) (z a b : Bool) (age : Nat) (s : State) : Host.Outcome State Fault Refusal :=
  if inUnitReset s 0x0006 n then .next s
  else
    let was := getB s (R.EN_STAT n) F.EN_STAT_Z
    let s := setB (encSample n a b age s) (R.EN_STAT n) F.EN_STAT_Z z
    let gate := !getB s (R.EN_CTL n) F.EN_CTL_ZGATE || getF s (R.EN_CTL n) F.EN_CTL_ZQ = bit1 a + 2 * bit1 b
    .next (if encOn s n ∧ z ∧ ¬was ∧ gate then encIndex n age s else s)

/-- A write of EN_COUNT (R134): tracks do not see it (R136). -/
def writeEnCount (n : Nat) (v : Word) (s : State) : State :=
  onEnc n (fun e => { e with own := v.toNat }) (plainWrite (R.EN_COUNT n) v s)

/-- EN_COUNT_WRITE (R134). -/
def execEnCountWrite (m : Master) (n : Fin 16) (v : Word) (s : State) : Host.Outcome State Fault Refusal :=
  .next (guardWrite m (R.EN_COUNT n) (fun s => (writeEnCount n v s, none)) s)

/-- ZARM (R135): a write of EN_CTL with ZARM 1. -/
def execZarm (m : Master) (n : Fin 16) (v : Word) (s : State) : Host.Outcome State Fault Refusal :=
  .next (guardWrite m (R.EN_CTL n) (fun s => (writeEnCtl n (F.EN_CTL_ZARM.put v 1) s, none)) s)

/-- Encoder n at a boundary (R136): the count, then EN_ZCNT. -/
def encBoundary (n : Nat) (s : State) : State :=
  if getB s (R.EN_IMG n) F.EN_IMG_EN ∧ ¬inUnitReset s 0x0006 n then
    boundaryWrite (8 * getF s (R.EN_IMG n) F.EN_IMG_IOFF)
      (leBytes 4 (getReg s (R.EN_COUNT n)).toNat ++ leBytes 4 (getReg s (R.EN_ZCNT n)).toNat) s
  else s

/-! Mains-phase inputs (R137 to R140). -/

/-- Input i. -/
def getMains (s : State) (i : Nat) : Mains := tabGet (fun _ => Mains.reset) s.field.mains i

/-- The state after input i is changed. -/
def onMains (i : Nat) (f : Mains → Mains) (s : State) : State :=
  onField (fun x => { x with mains := tabSet (fun _ => Mains.reset) x.mains i (f (tabGet (fun _ => Mains.reset) x.mains i)) }) s

/-- The accumulator is brought to now, so that a new frequency counts from here. -/
def rebase (i : Nat) (s : State) : State :=
  let (ph, cyc) := mainsNow s i
  onMains i (fun x => { x with phase := ph, cyc := cyc, at0 := s.time.ltick }) s

/-- A change of state posts a notice, without codes in the spec (log entry 12), and reaches the input's tracks (R139). -/
def setMainsState (i st : Nat) (s : State) : State :=
  if getF s (R.MP_FREQ i) F.MP_FREQ_STATE = st then s
  else
    let s := setF (rebase i s) (R.MP_FREQ i) F.MP_FREQ_STATE st
    let s := onMains i (fun x => { x with good := 0, bad := 0, first := x.first || decide (st = 1) }) s
    let s := if st = 3 then setB s (R.MP_STAT i) F.MP_STAT_HOLD true else s
    reviewSource 2 i (postOpen (getF s (R.MP_CTL i) F.MP_CTL_NTC_Q) 0x0007 i s)

/-- The fields that are locked while EN is 1. -/
def mainsLocked : List Fld := [F.MP_CTL_EDGE, F.MP_CTL_BW, F.MP_CTL_NOM60, F.MP_CTL_HOLDOFF]

/-- A write of MP_CTL (R139): EN starts the input in ACQUIRE at 50 or 60 Hz, or stops it. -/
def writeMpCtl (i : Nat) (v : Word) (s : State) : State :=
  let a := R.MP_CTL i
  let was := getB s a F.MP_CTL_EN
  let s := if was ∧ changesAny s a mainsLocked v then setB s (R.MP_STAT i) F.MP_STAT_CFGREF true else s
  let kept := if was then mainsLocked.foldl (fun v f => keepField s a f v) v else v
  let s := writeInPart a kept v s
  let now := getB s a F.MP_CTL_EN
  if ¬was ∧ now then
    let f := (if getB s a F.MP_CTL_NOM60 then 60 else 50) * 65536
    let s := setF (rebase i s) (R.MP_FREQ i) F.MP_FREQ_FREQ f
    setMainsState i 1 (onMains i (fun x => { x with lastEdge := none, integ := ((f * 2 ^ 32 : Nat) : Int) }) s)
  else if was ∧ ¬now then setMainsState i 0 s
  else s

/-- MAINS_ENABLE (R139): a write of MP_CTL with EN 1. -/
def execMainsEnable (m : Master) (i : Fin 2) (v : Word) (s : State) : Host.Outcome State Fault Refusal :=
  .next (guardWrite m (R.MP_CTL i) (fun s => (writeMpCtl i (F.MP_CTL_EN.put v 1) s, none)) s)

/-- 45 Hz and 65 Hz in 2^-16 Hz. -/
def freqMin : Nat := 45 * 65536
/-- The upper limit of the frequency. -/
def freqMax : Nat := 65 * 65536

/-- BW, with 3 taken as 2. -/
def mainsBw (s : State) (i : Nat) : Nat := min 2 (getF s (R.MP_CTL i) F.MP_CTL_BW)

/-- A value within two limits. -/
def clampInt (lo hi x : Int) : Int := max lo (min hi x)

/-- The corrected frequency (R137, R138): a proportional-integral filter of the error, in 2^-32 cycle, with the gains of BW, which the spec
leaves open. One beyond a limit is clamped, sets RANGE and is counted; the integrator stays within the limits as well (DESIGN CHOICE,
log entry 137). -/
def correctFreq (i : Nat) (err : Int) (s : State) : State :=
  let bw := mainsBw s i
  let lim : Nat → Int := fun f => ((f * 2 ^ 32 : Nat) : Int)
  let integ := clampInt (lim freqMin) (lim freqMax) ((getMains s i).integ + (Config.mainsKi bw : Int) * err)
  let f := (integ + (Config.mainsKp bw : Int) * err) / ((2 ^ 32 : Nat) : Int)
  let c := (clampInt (freqMin : Int) (freqMax : Int) f).toNat
  let s := setF (onMains i (fun x => { x with integ := integ }) (rebase i s)) (R.MP_FREQ i) F.MP_FREQ_FREQ c
  if (c : Int) = f then s else bump (ctr 0x0007 1 i) (setB s (R.MP_STAT i) F.MP_STAT_RANGE true)

/-- What an edge's error does to the state (R139): bounds of 2^-8 and 2^-6 cycle. -/
def judgeError (i : Nat) (err : Int) (s : State) : State :=
  let small := decide (err.natAbs < 2 ^ 24)
  let large := decide (2 ^ 26 < err.natAbs)
  let st := getF s (R.MP_FREQ i) F.MP_FREQ_STATE
  let s := onMains i (fun x => { x with good := if small then x.good + 1 else 0, bad := if large then x.bad + 1 else 0 }) s
  let x := getMains s i
  if st = 1 then (if 8 ≤ x.good then setMainsState i 2 s else s)
  else if st = 2 then (if 4 ≤ x.bad then setMainsState i 1 s else s)
  else if st = 3 then setMainsState i (if small then 2 else 1) s
  else s

/-- An accepted edge `age` ns ago (R137, R138): the first after entering ACQUIRE sets the phase to MP_OFFSET, any other corrects
the frequency by its error. -/
def mainsEdge (i age : Nat) (s : State) : State :=
  let s := rebase i s
  let x := getMains s i
  let off := (getReg s (R.MP_OFFSET i)).toNat
  let run := getF s (R.MP_FREQ i) F.MP_FREQ_FREQ * 2 ^ 32 * age / 1000000000
  if x.first then
    let s := onMains i (fun x => { x with phase := (off * 2 ^ 16 + run) % 2 ^ 48, first := false }) s
    judgeError i 0 (setReg s (R.MP_ERR i) 0)
  else
    let at_ := (x.phase + 2 ^ 48 - run % 2 ^ 48) % 2 ^ 48 / 2 ^ 16
    let err := signed 32 (off + 2 ^ 32 - at_)
    judgeError i err (correctFreq i err (setReg s (R.MP_ERR i) (BitVec.ofNat 32 (wrap 32 err))))

/-- MAINS_EDGE (R137 to R139): an edge of the zero-crossing input `age` ns ago; one of the other direction is no accepted edge, and
one within HOLDOFF of the last accepted edge is ignored and counted. -/
def execMainsEdge (i : Fin 2) (rising : Bool) (age : Nat) (s : State) : Host.Outcome State Fault Refusal :=
  if getF s (R.MP_FREQ i) F.MP_FREQ_STATE = 0 ∨ rising = getB s (R.MP_CTL i) F.MP_CTL_EDGE then .next s
  else
    let at_ := s.time.ltick * 16 - 5 * age
    let hold := getF s (R.MP_CTL i) F.MP_CTL_HOLDOFF * 50000
    match (getMains s i).lastEdge with
    | some l =>
      if at_ < l + hold then .next (bump (ctr 0x0007 0 i) s)
      else .next (mainsEdge i age (onMains i (fun x => { x with lastEdge := some at_ }) s))
    | none => .next (mainsEdge i age (onMains i (fun x => { x with lastEdge := some at_ }) s))

/-- MAINS_EDGE_MISSING (R139): no accepted edge for 1.5 periods. -/
def execMainsEdgeMissing (i : Fin 2) (s : State) : Host.Outcome State Fault Refusal :=
  let st := getF s (R.MP_FREQ i) F.MP_FREQ_STATE
  .next (if st = 1 ∨ st = 2 then setMainsState i 3 s else s)

/-- MAINS_HOLD_MAX (R139): HOLD_MAX periods in HOLDOVER without an edge. -/
def execMainsHoldMax (i : Fin 2) (s : State) : Host.Outcome State Fault Refusal :=
  .next (if getF s (R.MP_FREQ i) F.MP_FREQ_STATE = 3 then setMainsState i 1 s else s)

/-- Input i at a boundary (R140): the phase, then MP_FREQ. -/
def mainsBoundary (i : Nat) (s : State) : State :=
  if getB s (R.MP_IMG i) F.MP_IMG_EN ∧ ¬inUnitReset s 0x0007 i then
    boundaryWrite (8 * getF s (R.MP_IMG i) F.MP_IMG_IOFF)
      (leBytes 4 ((mainsNow s i).1 / 2 ^ 16) ++ leBytes 4 (getReg s (R.MP_FREQ i)).toNat) s
  else s

/-- The records of a boundary (R124): UARTs, encoders, then mains inputs, each kind in ascending order. -/
def unitRecords (s : State) : State :=
  let s := (List.range 16).foldl (fun s u => uartBoundary u s) s
  let s := (List.range 16).foldl (fun s n => encBoundary n s) s
  (List.range 2).foldl (fun s i => mainsBoundary i s) s

/-- Unit reset of a UART, an encoder or a mains input: registers and FIFOs at reset. -/
def resetUart (u : Nat) (s : State) : State := resetRange (R.UA_CTL u) 0x100 (onUart u (fun _ => Uart.reset) s)
/-- Unit reset of an encoder. -/
def resetEnc (n : Nat) (s : State) : State := reviewSource 1 n (resetRange (R.EN_CTL n) 0x100 (onEnc n (fun _ => Enc.reset) s))
/-- Unit reset of a mains input: a change to OFF posts its notice first (R139). -/
def resetMains (i : Nat) (s : State) : State :=
  reviewSource 2 i (resetRange (R.MP_CTL i) 0x100 (onMains i (fun _ => Mains.reset) (setMainsState i 0 s)))

end Sys2Proof.Machine
end

