-- ==== Sys2Proof/Machine/Waymarks.lean ====
section
/-! DEFINITION. The track commands (R316 to R327), the take-up and crossing of waymark entries (R333 to R336), and the action
engine (R337 to R350). Counters as in TrackCore. -/

namespace Sys2Proof.Machine

/-! Track registers (R318 to R322, R330). -/

/-- A write of TK_CFG or TK_RSRC (R319, R322): while HOLD is 0 one that changes the source or the window is refused whole; a new
source restarts the velocity window, and a new publisher's samples stand for themselves. -/
def writeTkCfg (n : Nat) (rsrc : Bool) (v : Word) (s : State) : State :=
  let a := if rsrc then R.TK_RSRC n else R.TK_CFG n
  let fs := if rsrc then [F.TK_RSRC_NODE, F.TK_RSRC_TRACK, F.TK_RSRC_EN] else [F.TK_CFG_SRC, F.TK_CFG_SEL, F.TK_CFG_VWIN]
  if ¬getB s (R.TK_CTL n) F.TK_CTL_HOLD ∧ changesAny s a fs v then setB (declineWrite a v s) (R.TK_STAT n) F.TK_STAT_CFGREF true
  else
    let source := if rsrc then fs else [F.TK_CFG_SRC, F.TK_CFG_SEL]
    let other := changesAny s a source v
    let s := plainWrite a v s
    let s := if other ∧ (¬rsrc ∨ isRemote s n) then onTrack n (fun t => { t with window := [], vel := 0, raw := none }) s else s
    let s := if other ∧ rsrc then onTrack n (fun t => { t with sample := none, seqIn := none, badSample := false }) s else s
    reviewTrack n s

/-- TK_CFG_WRITE (R322). -/
def execTkCfgWrite (m : Master) (n : Fin 16) (rsrc : Bool) (v : Word) (s : State) : Host.Outcome State Fault Refusal :=
  .next (guardWrite m (if rsrc then R.TK_RSRC n else R.TK_CFG n) (fun s => (writeTkCfg n rsrc v s, none)) s)

/-- A write of TK_CTL: HOLD freezes the track, and its clearing releases it (R321, R322). -/
def writeTkCtl (n : Nat) (v : Word) (s : State) : State := reviewTrack n (plainWrite (R.TK_CTL n) v s)

/-- TRACK_HOLD (R321): a write of TK_CTL with HOLD 1. -/
def execTrackHold (m : Master) (n : Fin 16) (v : Word) (s : State) : Host.Outcome State Fault Refusal :=
  .next (guardWrite m (R.TK_CTL n) (fun s => (writeTkCtl n (F.TK_CTL_HOLD.put v 1) s, none)) s)

/-- TRACK_RELEASE (R322): a write of TK_CTL with HOLD 0. -/
def execTrackRelease (m : Master) (n : Fin 16) (v : Word) (s : State) : Host.Outcome State Fault Refusal :=
  .next (guardWrite m (R.TK_CTL n) (fun s => (writeTkCtl n (F.TK_CTL_HOLD.put v 0) s, none)) s)

/-- A silent jump (R320): the position and every position of the velocity window move together, and armed entries take their
sides afresh. -/
def silentJump (n new : Nat) (s : State) : State :=
  let d := new + 2 ^ 64 - (getTrack s n).pos % 2 ^ 64
  evalTrack .silent n (onTrack n (fun t => { t with
    pos := new, jumped := true, window := t.window.map (fun x => ((x.1 + d) % 2 ^ 64, x.2)) }) s)

/-- A commit of TK_POS by a write of its _LO (R11, R318, R320). -/
def writeTkPos (id : MasterId) (n : Nat) (v : Word) (s : State) : State :=
  let lo := R.TK_POS_LO n
  let hi := (stagedUpper s id lo (BitVec.ofNat 32 (trackPos s n / 2 ^ 32)) 0).1
  let s := setStage s lo none
  if isIncremental s n then silentJump n (v.toNat + 2 ^ 32 * hi.toNat) s
  else setB s (R.TK_STAT n) F.TK_STAT_CFGREF true

/-- TK_POS_WRITE (R318, R320). -/
def execTkPosWrite (m : Master) (n : Fin 16) (v : Word) (s : State) : Host.Outcome State Fault Refusal :=
  .next (guardWrite m (R.TK_POS_LO n) (fun s => (writeTkPos (masterId s m) n v s, none)) s)

/-- A write of TK_CARM (R330): refused while EN is 1, except the one that clears it, and for a ring that passes entry 4,095. -/
def writeTkCarm (n : Nat) (v : Word) (s : State) : State :=
  let on := F.TK_CARM_EN.get v = 1
  if on ∧ (getB s (R.TK_CARM n) F.TK_CARM_EN ∨ 4095 < F.TK_CARM_BASE.get v + F.TK_CARM_CNTM1.get v) then
    setB (declineWrite (R.TK_CARM n) v s) (R.TK_STAT n) F.TK_STAT_CFGREF true
  else
    let s := plainWrite (R.TK_CARM n) v s
    setF s (R.TK_CARM_NEXT n) F.TK_CARM_NEXT_NEXT (getF s (R.TK_CARM n) F.TK_CARM_BASE)

/-- A write of TK_RCFG: the state is judged under the new limits. -/
def writeTkRcfg (n : Nat) (v : Word) (s : State) : State := reviewTrack n (plainWrite (R.TK_RCFG n) v s)

/-- TRACK_SOURCE_INVALID (R321): a local source became invalid or valid again. -/
def execTrackSourceInvalid (n : Fin 16) (s : State) : Host.Outcome State Fault Refusal :=
  .next (if isRemote s n then s else reviewTrack n s)

/-- TRACK_FRESH_EXPIRY (R321): FRESH has passed since the last sample of a remote track arrived. -/
def execTrackFreshExpiry (n : Fin 16) (s : State) : Host.Outcome State Fault Refusal :=
  .next (if isRemote s n then reviewTrack n s else s)

/-- TRACK_COAST_EXPIRY (R321): ITB0 has passed the coast limit of a remote track. -/
def execTrackCoastExpiry (n : Fin 16) (s : State) : Host.Outcome State Fault Refusal :=
  .next (if isRemote s n ∧ pastCoast s n then reviewTrack n s else s)

/-! Publication (R323 to R325). -/

/-- Word 0 of a TRACK_SAMPLE (R324). -/
def sampleWord (s : State) (n : Nat) : DWord :=
  let t := getTrack s n
  BitVec.ofNat 64 (n % 16 + trackState s n * 2 ^ 4 + bit1 t.jumped * 2 ^ 6 + bit1 (!getB s R.TM_CTL F.TM_CTL_SYNCED) * 2 ^ 7 +
    t.seqOut % 65536 * 2 ^ 16)

/-- The instant that a sample carries (R323): an incremental track's last step, and the sample edge otherwise. -/
def sampleInstant (s : State) (n : Nat) : Nat :=
  let t := getTrack s n
  if isIncremental s n ∧ t.window ≠ [] then t.t % 2 ^ 64 else now64 s

/-- The TRACK_SAMPLE of a track at the present edge (R324, R325). -/
def sampleEnv (s : State) (n : Nat) : Envelope :=
  build s (getF s (R.TK_PUB_A n) F.TK_PUB_A_CLASS) kTrackSample (getB s (R.TK_PUB_B n) F.TK_PUB_B_MC)
    (getF s (R.TK_PUB_B n) F.TK_PUB_B_DST) (getF s R.TT_HOPS F.TT_HOPS_HOPS)
    [sampleWord s n, BitVec.ofNat 64 (trackPos s n), BitVec.ofInt 64 (trackVel s n), BitVec.ofNat 64 (sampleInstant s n)]

/-- A sample is offered to the sorting office (R325): sent and numbered, refused for want of a direction, or still without room. A
remote track's SEQ shows the last one accepted. -/
def offerSample (n : Nat) (e : Envelope) (s : State) : State × Sent :=
  match originate 5 e s with
  | (t, .accepted) =>
    let t := if isRemote s n then t else setF t (R.TK_STAT n) F.TK_STAT_SEQ (getTrack s n).seqOut
    (bump (ctr 0x0011 2 n) (onTrack n (fun x => { x with seqOut := (x.seqOut + 1) % 65536, jumped := false }) t), .accepted)
  | (t, .noRoute) => (bump (ctr 0x0011 6 n) (setB t (R.TK_STAT n) F.TK_STAT_PUBREF true), .noRoute)
  | r => r

/-- The sample edge of a track (R325): its sample leaves, is refused, or waits for room. -/
def sampleEdge (n : Nat) (s : State) : State :=
  match offerSample n (sampleEnv s n) s with
  | (t, .noRoom) => onTracks (fun x => { x with samples := x.samples ++ [(n, sampleEnv s n, s.time.ltick)] }) t
  | (t, _) => t

/-- TRACK_PUBLISH (R323, R325): once in each cycle, from E + OFFSET on; an OFFSET beyond the cycle is an omission. -/
def execTrackPublish (n : Fin 16) (s : State) : Host.Outcome State Fault Refusal :=
  let off := getF s (R.TK_PUB_A n) F.TK_PUB_A_OFFSET
  let t := onTt (fun t => { t with published := n.val :: t.published }) s
  if ¬getB s (R.TK_PUB_A n) F.TK_PUB_A_EN ∨ quarantined s ∨ ¬s.tt.cycling ∨ n.val ∈ s.tt.published then .next s
  else if getF s R.TT_CYCLE F.TT_CYCLE_NS ≤ off then .next (bump (ctr 0x0011 6 n) t)
  else if nowNs s < s.tt.edge + off then .next s
  else .next (sampleEdge n t)

/-- A sample that waits is offered again; it is not sent when it has found no room within 1 µs of its sample edge (R325). -/
def retrySample (s : State) (x : Nat × Envelope × Nat) : State :=
  let gone := fun (s : State) => onTracks (fun t => { t with samples := t.samples.erase x }) s
  match offerSample x.1 x.2.1 s with
  | (t, .noRoom) =>
    if 2 * ticksSince s x.2.2 ≤ 625 then s
    else bump (ctr 0x0011 6 x.1) (setB (gone t) (R.TK_STAT x.1) F.TK_STAT_PUBREF true)
  | (t, _) => gone t

/-- The samples that wait are offered again. -/
def retrySamples (s : State) : State := s.tracks.samples.foldl retrySample s

/-! Remote tracks (R326, R327). -/

/-- A remote track follows this publisher's track. -/
def subscribes (s : State) (n src track : Nat) : Bool :=
  isRemote s n && getB s (R.TK_RSRC n) F.TK_RSRC_EN && getF s (R.TK_RSRC n) F.TK_RSRC_NODE = src &&
  getF s (R.TK_RSRC n) F.TK_RSRC_TRACK = track

/-- The sample is discarded by a track (R326): SEQ not ahead, a poisoned word, or a reserved bit. -/
def sampleDiscarded (s : State) (n : Nat) (e : Envelope) : Bool :=
  let w := (payloadWord e 0).toNat
  poisonBits e ≠ 0 || bitsOf w 8 8 ≠ 0 || bitsOf w 32 32 ≠ 0 ||
  (match (getTrack s n).seqIn with
    | some q => decide (signed 16 (bitsOf w 16 16 + 65536 - q) ≤ 0)
    | none => false)

/-- A sample that moves a track (R326, R327): it becomes the applied one, and the change of position is ordinary movement or a
judged jump. -/
def applySample (n : Nat) (e : Envelope) (tick : Nat) (s : State) : State :=
  let was := moving s n
  let old := trackPos s n
  let first := (getTrack s n).firstAfter
  let x := ((payloadWord e 1).toNat, (payloadWord e 2).toNat, (payloadWord e 3).toNat)
  let s := onTrack n (fun t => { t with sample := some x, badSample := false, rxTick := tick }) s
  let s := reviewTrack n s
  if ¬moving s n then s
  else
    let s := onTrack n (fun t => { t with firstAfter := false }) s
    if ¬was then s
    else
      let d := signed 64 (trackPos s n + 2 ^ 64 - old)
      if first ∨ (payloadWord e 0).getLsbD 6 ∨ (getReg s (R.TK_JUMP n)).toNat * 65536 < d.natAbs then judgedJump false n s
      else evalTrack .cross n s

/-- A sample at one track that subscribes to it (R326); `tick` is the LTICK of its receive ring postmark (R321). -/
def takeSample (n : Nat) (e : Envelope) (tick : Nat) (s : State) : State :=
  if sampleDiscarded s n e then bump (ctr 0x0011 4 n) (setB s (R.TK_STAT n) F.TK_STAT_SAMPREF true)
  else
    let w := (payloadWord e 0).toNat
    let seq := bitsOf w 16 16
    let s := bump (ctr 0x0011 3 n) (setF s (R.TK_STAT n) F.TK_STAT_SEQ seq)
    let s := onTrack n (fun t => { t with seqIn := some seq }) s
    if 2 ≤ bitsOf w 4 2 ∨ bitOf w 7 then reviewTrack n (onTrack n (fun t => { t with badSample := true }) s)
    else applySample n e tick s

/-- TRACK_SAMPLE (R326): a sample delivered to P5 is offered to every track that subscribes to it. -/
def execTrackSample (e : Envelope) (s : State) : Host.Outcome State Fault Refusal :=
  let e := asKind kTrackSample e
  let tick := ((deliveredMark s e).map (fun m => m.tick)).getD s.time.ltick
  let s := takeDelivered e s
  let ns := (List.range 16).filter (fun n => subscribes s n e.src.toNat (bitsOf (payloadWord e 0).toNat 0 4))
  if ns = [] ∨ e.lenw ≠ 4 then .next (bump (ctr 0x0011 5 0) s)
  else
    let s := if poisonBits e ≠ 0 then consumePoison 8 s else s
    .next (ns.foldl (fun s n => takeSample n e tick s) s)

/-! Take-up and crossings (R333 to R336). -/

/-- Entry i as the waymark RAM holds it. -/
def ramEntry (s : State) (i : Nat) : WmEntry :=
  { pos := (getMem64 s (wmAddr i 0)).toNat, ctl := wmWord s i 2, period := wmWord s i 3, side := 0, fresh := true, queued := false }

/-- The scheduler takes up entry i (R333, R335, R341): disarmed, changed, armed behind, or discarded on a STALE track. -/
def takeUp (i : Nat) (s : State) : State :=
  let r := ramEntry s i
  if r.ctl % 2 = 0 then
    onTracks (fun x => { x with queue := x.queue.filter (fun f => f.entry ≠ i) }) (setEntry i none s)
  else
    let old := getEntry s i
    let queued := old.any (fun e => e.queued)
    if old.any (fun e => e.pos = r.pos && e.ctl = r.ctl && e.period = r.period) then s
    else
      let e := { r with queued := queued }
      let n := wmTrack r.ctl
      let s := setEntry i (some e) s
      if trackState s n = 2 ∧ wmStp r.ctl = 2 then wmDiscard i n s
      else if moving s n ∧ firingOn s ∧ ¬queued then evalEntry .cross (i, e) s
      else s

/-- WAYMARK_TAKEUP (R333). -/
def execWaymarkTakeup (i : Fin 4096) (s : State) : Host.Outcome State Fault Refusal := .next (takeUp i s)

/-- WAYMARK_CROSSING (R334, R336): an edge at which a track's marks are compared with its position. -/
def execWaymarkCrossing (n : Fin 16) (s : State) : Host.Outcome State Fault Refusal := .next (evalTrack .cross n s)

/-! The action step (R336 to R338, R343). -/

/-- The first crossing of each track in the queue. -/
def headFirings : List Firing → List Nat → List Firing
  | [], _ => []
  | f :: fs, seen => if f.track ∈ seen then headFirings fs seen else f :: headFirings fs (f.track :: seen)

/-- The tracks whose crossings are selected already in the present UCLK cycle (R336). -/
def chosenNow (s : State) : List Nat :=
  if s.tracks.chosen.1 = uclkEdges s.time.ltick then s.tracks.chosen.2 else []

/-- Order of selection: oldest crossing edge first, and the lower track in a tie (R336). -/
def firesBefore (a b : Firing) : Bool :=
  uclkEdges a.tick < uclkEdges b.tick || (uclkEdges a.tick = uclkEdges b.tick && a.track ≤ b.track)

/-- The crossings whose actions reach their targets in the present UCLK cycle (R336, R337): five cycles after the crossing edge at the
earliest, at most one of a track and four in all. -/
def selectable (s : State) : List Firing :=
  let ready := (headFirings s.tracks.queue []).filter (fun f =>
    f.track ∉ chosenNow s && uclkEdges f.tick + 5 ≤ uclkEdges s.time.ltick)
  (sortBy firesBefore ready).take (4 - (chosenNow s).length)

/-- The first selectable crossing with an entry of a kind. -/
def nextFiring (s : State) (kind : Nat) : Option Firing :=
  (selectable s).find? (fun f => (getEntry s f.entry).any (fun e => wmKind e.ctl = kind))

/-- A selected crossing leaves the queue, and its track and its place in the cycle are taken. -/
def takeFiring (f : Firing) (s : State) : State :=
  onTracks (fun x => { x with queue := x.queue.erase f, chosen := (uclkEdges s.time.ltick, f.track :: chosenNow s) }) s

/-- The reserved bits and limits of an action's arguments (R343, R344). -/
def argsBad (kind a b : Nat) : Bool :=
  if kind = 0 then bitsOf a 21 11 ≠ 0 || bitsOf b 16 16 ≠ 0
  else if kind = 1 then bitsOf a 21 11 ≠ 0 || bitsOf b 24 8 ≠ 0 || b % 2 ^ 24 = 0
  else if kind = 2 then bitsOf a 12 20 ≠ 0 || b ≠ 0
  else if kind = 3 then bitsOf a 6 26 ≠ 0
  else if kind = 4 then bitsOf a 10 22 ≠ 0 || b ≠ 0
  else if kind = 5 then bitsOf a 5 11 ≠ 0 || bitsOf a 31 1 ≠ 0 || bitsOf a 16 4 ≠ 0 || b ≠ 0
  else if kind = 6 then bitsOf a 5 3 ≠ 0 || bitsOf a 16 16 ≠ 0 || a % 32 = 0 || bitsOf b 16 16 ≠ 0
  else bitsOf a 14 18 ≠ 0

/-- Words 0 to 5 of an entry read poisoned (R343). -/
def entryWordsBad (s : State) (i : Nat) : Bool := [0, 2, 4].any (fun w => poisoned s (wmAddr i w))

/-- The entry is bad at its action step (R338, R343). -/
def entryBad (s : State) (i : Nat) (e : WmEntry) : Bool :=
  entryWordsBad s i || wmDir e.ctl = 3 || wmStp e.ctl = 3 || (wmPeriodic e.ctl && e.period = 0) ||
  argsBad (wmKind e.ctl) (wmWord s i 4) (wmWord s i 5)

/-- UCLK cycles that a crossing has waited beyond the five of R337. -/
def addedSkew (s : State) (f : Firing) : Nat := uclkEdges s.time.ltick - uclkEdges f.tick - 5

/-- What a firing writes in words 6 and 7 (R331). -/
def firedWord (old : Nat) (late skew : Bool) : Nat :=
  (old + 1) % 65536 + 2 ^ 16 + bit1 late * 2 ^ 17 + bit1 skew * 2 ^ 21

/-- Counters, status words and notices of a firing (R331, R336, R351). -/
def recordFiring (f : Firing) (e : WmEntry) (s : State) : State :=
  let i := f.entry
  let skewed := decide (4 < addedSkew s f)
  let s := wmPut i 7 (whenNs f.pm) (wmPut i 6 (firedWord (wmWord s i 6) f.late skewed) s)
  let s := bump (ctr 0x0012 1 0) s
  let s := if f.late then bump (ctr 0x0012 2 0) s else s
  let s := if skewed then
      wmNotice f.track 0x83 i (bump (ctr 0x0012 6 0) (setB s R.WM_STAT F.WM_STAT_SKEW true))
    else s
  if bitOf e.ctl 17 then wmNotice f.track (if f.late then 0x02 else 0x01) i s else s

/-- A bad entry at its action step, with what poison in it does besides (R343, R367). -/
def badFiring (f : Firing) (s : State) : State :=
  let pois := entryWordsBad s f.entry
  let s := wmBad f.entry f.track (whenNs f.pm) s
  if pois then
    latchFault 4 (miNotice 2 0xC1 (bitsOf (wmAddr f.entry 0) 3 16) s)
  else s

/-- A selected crossing of a kind: it is dropped while firing is suspended, found bad, or fired; then a one-shot entry is
disarmed, a periodic one moves its mark, and the action reaches its target (R337, R338, R342, R343). -/
def fire (kind : Nat) (act : Firing → WmEntry → State → State) (s : State) : State :=
  match nextFiring s kind with
  | none => s
  | some f =>
    match getEntry s f.entry with
    | none => s
    | some e =>
      let s := takeFiring f s
      if ¬firingOn s then dropFiring s f
      else if entryBad s f.entry e then badFiring f s
      else
        let s := recordFiring f e s
        let s := if wmPeriodic e.ctl then wmMove f.entry f.forward s else wmDisarm f.entry s
        act f e s

/-- Argument word A of a firing's entry. -/
def argA (s : State) (f : Firing) : Nat := wmWord s f.entry 4
/-- Argument word B. -/
def argB (s : State) (f : Firing) : Nat := wmWord s f.entry 5

/-! Pins (R345). -/

/-- The pins of a mask over a bank. -/
def maskPins (bank mask : Nat) : List Nat := ((List.range 16).filter (fun i => bitOf mask i)).map (fun i => 16 * bank + i)

/-- The actions of the present UCLK cycle that have reached a pin. -/
def actsNow (s : State) (p : Nat) : PinActs :=
  let now := uclkEdges s.time.ltick
  match (getPin s p).acted with
  | some a => if a.cycle = now then a else { cycle := now, base := currentValue s p, acts := [] }
  | none => { cycle := now, base := currentValue s p, acts := [] }

/-- An action takes its place in ascending entry index. -/
def insertAct (entry : Nat) (act : Option Bool) : List (Nat × Option Bool) → List (Nat × Option Bool)
  | [] => [(entry, act)]
  | x :: xs => if entry < x.1 then (entry, act) :: x :: xs else x :: insertAct entry act xs

/-- The value that a cycle's actions give a pin, one after the other: a level, or the inversion of the value before. -/
def actsValue (a : PinActs) : Bool := a.acts.foldl (fun v x => x.2.getD (!v)) a.base

/-- An action reaches a pin (R48): the actions of one UCLK cycle are applied in ascending entry index, and COLL shows that there were
several. `act` is the level that it gives, or none for an inversion. -/
def reachPin (p entry : Nat) (act : Option Bool) (s : State) : State :=
  let a := actsNow s p
  let b := { a with acts := insertAct entry act a.acts }
  let s := if a.acts = [] then s else setB s (R.PIN_STAT p) F.PIN_STAT_COLL true
  driveWout p (actsValue b) (onPin p (fun x => { x with acted := some b }) s)

/-- The end of a pulse is cancelled for the pins of a mask, and a timer without pins is freed (R345). -/
def cancelPulses (bank mask : Nat) (s : State) : State :=
  (List.range 64).foldl (fun s k =>
    match tabGet (fun _ => none) s.tracks.pulses k with
    | some p =>
      if p.bank ≠ bank then s
      else
        let left := p.mask &&& (65535 - mask % 65536)
        let q : Option Pulse := if left = 0 then none else some { p with mask := left }
        onTracks (fun x => { x with pulses := tabSet (fun _ => none) x.pulses k q }) s
    | none => s) s

/-- The WOUT pins of a mask as a mask. -/
def woutMask (s : State) (bank mask : Nat) : Nat :=
  (((List.range 16).filter (fun i => bitOf mask i && pinFunc s (16 * bank + i) = 3)).map (fun i => 2 ^ i)).sum

/-- The masked pins take levels; those whose FUNC is not WOUT are skipped and counted (R345). -/
def actPins (entry bank mask : Nat) (act : Nat → Option Bool) (s : State) : State :=
  let ok := woutMask s bank mask
  let skipped := (maskPins bank mask).length - (maskPins bank ok).length
  let s := if skipped = 0 then s else bumpN (ctr 0x0012 8 0) skipped (setB s R.WM_STAT F.WM_STAT_PINREF true)
  let s := cancelPulses bank ok s
  (maskPins bank ok).foldl (fun s p => reachPin p entry (act p) s) s

/-- PIN (R345). -/
def execActPin (s : State) : Host.Outcome State Fault Refusal :=
  .next (fire 0 (fun f _ s =>
    let a := argA s f
    let val := argB s f
    actPins f.entry (bitsOf a 16 4) (a % 65536)
      (fun p => if bitOf a 20 then none else some (bitOf val (p % 16))) s) s)

/-- A loss that R351 reports with code 0x84: 0 pulse, 1 emit, 2 capture. -/
def wmLost (track what kind : Nat) (f : Fld) (s : State) : State :=
  wmNotice track 0x84 what (bump (ctr 0x0012 kind 0) (setB s R.WM_STAT f true))

/-- The lowest free pulse timer. -/
def freePulse (s : State) : Option Nat := (List.range 64).find? (fun k => (tabGet (fun _ => none) s.tracks.pulses k).isNone)

/-- A PULSE action: the pins go to LEVEL and a timer holds their end, or nothing is performed (R345). -/
def actPulse (f : Firing) (s : State) : State :=
  let a := argA s f
  match freePulse s with
  | none => wmLost f.track 0 9 F.WM_STAT_PULSEREF s
  | some k =>
    let bank := bitsOf a 16 4
    let got := woutMask s bank (a % 65536)
    let s := actPins f.entry bank (a % 65536) (fun _ => some (bitOf a 20)) s
    if got = 0 then s
    else
      let q : Pulse := { bank := bank, mask := got, level := !bitOf a 20,
                         due := uclkEdges s.time.ltick + argB s f % 2 ^ 24 }
      onTracks (fun x => { x with pulses := tabSet (fun _ => none) x.pulses k (some q) }) s

/-- PULSE (R345). -/
def execActPulse (s : State) : Host.Outcome State Fault Refusal := .next (fire 1 (fun f _ s => actPulse f s) s)

/-- PULSE_END (R345): the timer's WIDTH has elapsed, and its remaining pins go to the opposite level. -/
def execPulseEnd (k : Fin 64) (s : State) : Host.Outcome State Fault Refusal :=
  match tabGet (fun _ => none) s.tracks.pulses k with
  | none => .next s
  | some p =>
    if uclkEdges s.time.ltick < p.due then .next s else
    let s := onTracks (fun x => { x with pulses := tabSet (fun _ => none) x.pulses k none }) s
    .next ((maskPins p.bank (woutMask s p.bank p.mask)).foldl (fun s q => driveWout q p.level s) s)

/-! The other actions (R346 to R350). -/

/-- FLAG (R346): a cluster in unit reset takes no flags. -/
def execActFlag (s : State) : Host.Outcome State Fault Refusal :=
  .next (fire 2 (fun f _ s =>
    let a := argA s f
    if inUnitReset s 0x0003 (bitsOf a 0 4) then s else raiseFlags (bitsOf a 0 4) (bitsOf a 4 8) s) s)

/-- EMIT (R347): the emit is queued, or dropped for a full queue or a template that is not valid. -/
def execActEmit (s : State) : Host.Outcome State Fault Refusal :=
  .next (fire 3 (fun f _ s =>
    let t := bitsOf (argA s f) 0 6
    if 16 ≤ s.tracks.emits.length ∨ ¬getB s (R.WM_TPL_A t) F.WM_TPL_A_VALID then wmLost f.track 1 10 F.WM_STAT_EMITDROP s
    else
      let m : Emit := { template := t, data := argB s f, entry := f.entry, track := f.track, pm := f.pm }
      onTracks (fun x => { x with emits := x.emits ++ [m] }) s) s)

/-- The data of an emit (R347): FORM 0 has 4 bytes, FORM 1 16. -/
def emitData (form : Bool) (m : Emit) : List Word :=
  if form then [BitVec.ofNat 32 m.data, BitVec.ofNat 32 (m.entry % 4096 + m.track % 16 * 2 ^ 12), lo32 m.pm, hi32 m.pm]
  else [BitVec.ofNat 32 m.data]

/-- Channel 3 is loaded with an emit's request (R347). -/
def loadEmit (m : Emit) (s : State) : State :=
  let a := R.WM_TPL_A m.template
  let form := getB s a F.WM_TPL_A_FORM
  let cmd := kWriteP.toNat + classOrUrgent (getF s a F.WM_TPL_A_CLASS) * 2 ^ 5 + (if form then 16 else 4) * 2 ^ 10
  let s := setReg s (R.BR_OC_CMD 3) (BitVec.ofNat 32 cmd)
  let s := setReg s (R.BR_OC_DST 3) (BitVec.ofNat 32 (getF s a F.WM_TPL_A_DST + 2 ^ 16 * getF s a F.WM_TPL_A_MC))
  let s := setReg s (R.BR_OC_ADDR 3) (getReg s (R.WM_TPL_B m.template))
  onChan 3 (fun t => { t with poison := t.poison &&& ~~~(BitVec.ofNat 64 (2 ^ (emitData form m).length - 1)) }) (setWords (R.BR_OC_DATA 3 0) (emitData form m) s)

/-- EMIT_DISPATCH (R347): the oldest emit is issued once channel 3 is free and belongs to master 2; one whose request breaks R162
is dropped. -/
def execEmitDispatch (s : State) : Host.Outcome State Fault Refusal :=
  match s.tracks.emits with
  | [] => .next s
  | m :: rest =>
    if chanState s 3 = 1 ∨ ownerOf s 3 ≠ 2 then .next s
    else
      let s := loadEmit m (onTracks (fun x => { x with emits := rest }) s)
      if goRefused s 3 (getReg s (R.BR_OC_CMD 3)) then .next (wmLost m.track 1 10 F.WM_STAT_EMITDROP s)
      else .next (issue 3 false s)

/-- BUS (R348). -/
def execActBus (s : State) : Host.Outcome State Fault Refusal :=
  .next (fire 4 (fun f _ s => requestObj (bitsOf (argA s f) 0 3) (bitsOf (argA s f) 3 7) false s) s)

/-- The accepted levels of a bank: BANK_IN. -/
def bankIn (s : State) (b : Nat) : Nat :=
  ((List.range 16).map (fun i => bit1 (getB s (R.PIN_STAT (16 * b + i)) F.PIN_STAT_LEVEL) * 2 ^ i)).sum

/-- The record of a CAPTURE action at the present edge (R349). -/
def wmRecord (s : State) (f : Firing) (bank : Nat) (lost : Bool) : DWord × DWord :=
  (BitVec.ofNat 64 (bankIn s bank + f.entry % 4096 * 2 ^ 16 + bank % 16 * 2 ^ 28 + f.pos / 2 ^ 16 % 2 ^ 32 * 2 ^ 32),
    BitVec.ofNat 64 (1 + bit1 lost * 2 + now64 s / 2 ^ 16 * 2 ^ 16))

/-- The image copies that wait, and the scheduler's notices that wait for them (R157, R349). -/
def settleCopies (cs : List (Nat × DWord × DWord)) (s : State) : State :=
  let mine := (List.range 16).map (fun n => (0x0012, n))
  let rest := s.notices.uncommitted.filter (fun k => k ∉ mine)
  onNotices (fun x => { x with uncommitted := if cs = [] then rest else mine ++ rest })
    (onTracks (fun x => { x with copies := cs }) s)

/-- An access of the action engine to the input image (R349). -/
def wmAccess (off : Nat) : Access := { m := .loc 2, a := inImage + off, width := 8, write := true, lock := false }

/-- The oldest image copy that waits (R349): requester 3 asks for the interconnect and writes it once it holds it, under R55 and R305.
Notices of the scheduler enter their queues after the copies (R157). -/
def copyOut (s : State) : State :=
  match s.tracks.copies with
  | [] => s
  | (off, r) :: rest =>
    let s := acquire 3 s
    if ¬holds s 3 then s
    else
      let s := endRequest 3 (settleCopies rest s)
      let x := wmAccess off
      if (refusal s x).isSome then refuse x s
      else masterWrite (inImage + off) (leBytes 8 r.1.toNat ++ leBytes 8 r.2.toNat) false s

/-- The image copies that wait are written while the interconnect is granted for them. -/
def copiesOut (s : State) : State := s.tracks.copies.foldl (fun s _ => copyOut s) s

/-- A CAPTURE action: the record enters the FIFO or is lost, and its image copy is written whatever the FIFO holds (R349). -/
def actCapture (f : Firing) (s : State) : State :=
  let a := argA s f
  let r := wmRecord s f (bitsOf a 0 4) s.tracks.capLost
  let s :=
    if 32 ≤ s.tracks.caps.length then
      onTracks (fun x => { x with capLost := true }) (wmLost f.track 2 12 F.WM_STAT_CAPOVF s)
    else bump (ctr 0x0012 11 0) (onTracks (fun x => { x with caps := x.caps ++ [r], capLost := false }) s)
  if ¬bitOf a 4 then s
  else
    copyOut (settleCopies (s.tracks.copies ++ [(bitsOf a 16 15, r)]) s)

/-- CAPTURE (R349). -/
def execActCapture (s : State) : Host.Outcome State Fault Refusal := .next (fire 5 (fun f _ s => actCapture f s) s)

/-- NOTICE (R350): the postmark is that of the crossing edge. -/
def execActNotice (s : State) : Host.Outcome State Fault Refusal :=
  .next (fire 6 (fun f _ s =>
    let a := argA s f
    let q := bitsOf a 0 5
    postPm q 0x0012 f.track (bitsOf a 8 8) (argB s f) ((f.pms[queueVd s q]?).getD 0) s) s)

/-- A CHAIN action on a target, which the scheduler then takes up (R350): pos is the mark that fired. -/
def actChain (f : Firing) (pos : Nat) (s : State) : State :=
  let a := argA s f
  let t := bitsOf a 0 12
  let arm := bitOf a 12
  let s := if arm ∧ bitOf a 13 then wmPutPos t (wrap 64 (signed 64 pos + signed 32 (argB s f) * 65536)) s else s
  wmPut t 2 (wmWord s t 2 / 2 * 2 + bit1 arm) s

/-- CHAIN (R350). -/
def execActChain (s : State) : Host.Outcome State Fault Refusal := .next (fire 7 (fun f e s => actChain f e.pos s) s)

/-! Scheduler registers (R342, R349). -/

/-- A write of WM_CTL (R342). -/
def writeWmCtl (v : Word) (s : State) : State := reviewFiring (plainWrite R.WM_CTL v s)

/-- WM_CTL_WRITE (R342). -/
def execWmCtlWrite (m : Master) (v : Word) (s : State) : Host.Outcome State Fault Refusal :=
  .next (guardWrite m R.WM_CTL (fun s => (writeWmCtl v s, none)) s)

/-- A read of WM_CAP_LO removes the oldest record and latches its other parts (R349); an empty FIFO reads 0. -/
def readWmCap (id : MasterId) (s : State) : State × Word :=
  match s.tracks.caps with
  | [] => (latchUpper id R.WM_CAP_LO 0 0 0 s, 0)
  | r :: rest =>
    (latchUpper id R.WM_CAP_LO (hi32 r.1) (lo32 r.2) (hi32 r.2) (onTracks (fun x => { x with caps := rest }) s), lo32 r.1)

/-- WM_CAP_READ (R349). -/
def execWmCapRead (m : Master) (s : State) : Host.Outcome State Fault Refusal :=
  .next (guardRead m R.WM_CAP_LO (fun s => readWmCap (masterId s m) s) s)

/-- Unit reset of a track (R33, R322): its registers are as after reset, and it is HELD, which a notice says when it was not
(R321). -/
def resetTrack (n : Nat) (s : State) : State :=
  let s := if trackState s n = 3 then s else tkNotice n 0x01 3 s
  let s := onTracks (fun x => { x with samples := x.samples.filter (fun y => y.1 ≠ n) }) s
  onTrack n (fun _ => Track.reset) (resetRange (R.TK_CFG n) 0x100 s)

end Sys2Proof.Machine
end

