-- ==== Sys2Proof/Machine/Timetable.lean ====
section
/-! DEFINITION. The cycle and the timetable (R301 to R313), and a service mode that takes effect (R26, R28). Counters of CAP 0x000F:
0 boundaries, 1 skipped boundaries, 2 swaps, 3 entries sent, 4 abandoned, 5 waiting for pool room, 6 pending refusals, 7 CYCLIC
received, 8 late, 9 refused, 10 dropped by mode, 11 overwritten windows, 12 routing refusals. -/

namespace Sys2Proof.Machine

/-- The timetable's notices (R314). -/
def ttNotice (code arg : Nat) (s : State) : State := postOnce (getF s R.TT_CTL F.TT_CTL_NTC_Q) 0x000F 0 code arg s

/-- The requested service mode (R28). -/
def requestedMode (s : State) : Nat := getF s R.NODE_CTL F.NODE_CTL_SERVICE

/-- The requested service mode comes into force, with what follows for outputs, firing and the duplex claim (R26, R28, R52, R342,
R355); NORMAL clears BOOTFAIL (R421). -/
def applyService (s : State) : State :=
  if requestedMode s = serviceMode s then s
  else
    let s := if requestedMode s = 1 then setF s R.UPD_BOOT F.UPD_BOOT_BOOTFAIL 0 else s
    reviewClaim (reviewFiring (safePins (setF s R.NODE_STAT F.NODE_STAT_SERVICE_EFF (requestedMode s))))

/-- SERVICE_MODE_TAKES_EFFECT (R28): without a running timetable, within 1 µs of the write. -/
def execServiceModeTakesEffect (s : State) : Host.Outcome State Fault Refusal :=
  .next (if ttRunning s then s else applyService s)

/-! Timetable registers (R303, R305, R307). -/

/-- TT_T0. -/
def ttT0 (s : State) : Nat := regs64 s R.TT_T0_LO R.TT_T0_HI
/-- TT_CYCLE. -/
def ttCycle (s : State) : Nat := (getReg s R.TT_CYCLE).toNat
/-- The active bank. -/
def activeBank (s : State) : Nat := getF s R.TT_STAT F.TT_STAT_ACTIVE
/-- TT_CNUM. -/
def cycleNumber (s : State) : Nat := (getReg s R.TT_CNUM).toNat

/-- After a write of TT_T0 or TT_CYCLE the next boundary is the first one whose instant still lies ahead (R301). -/
def rebaseTt (s : State) : State :=
  let now := nowNs s
  let next := if ttCycle s = 0 ∨ now < ttT0 s then 0 else (now - ttT0 s) / ttCycle s + 1
  onTt (fun t => { t with next := next, cycling := false }) s

/-- A write that R303 refuses. -/
def ttRefuse (s : State) : State := setB s R.TT_STAT F.TT_STAT_CFGREF true

/-- A write of TT_CYCLE (R303). -/
def writeTtCycle (v : Word) (s : State) : State :=
  if getB s R.TT_CTL F.TT_CTL_RUN ∨ v.toNat < 20000 ∨ 100000000 < v.toNat then ttRefuse (declineWrite R.TT_CYCLE v s)
  else rebaseTt (plainWrite R.TT_CYCLE v s)

/-- A commit of TT_T0 by a write of its _LO (R11, R303). The spec speaks of commits when it empties the stage: a write that is refused
while RUN is 1 commits nothing and leaves the stage as it is (DESIGN CHOICE, log entry 120). -/
def writeTtT0 (id : MasterId) (v : Word) (s : State) : State :=
  if getB s R.TT_CTL F.TT_CTL_RUN then ttRefuse s else rebaseTt (commitWide id R.TT_T0_LO 2 v s)

/-- A write of TT_T0_HI (R10, R303). -/
def stageTtT0 (id : MasterId) (v : Word) (s : State) : State :=
  if getB s R.TT_CTL F.TT_CTL_RUN then ttRefuse s else stagePart id R.TT_T0_LO 1 v s

/-- Steps 1 to 3 of R304 at the input image: a half is sealed, and the records of R124 and then the pin bits enter it (R53, R55). -/
def sealInput (s : State) : State := pinsToImage (sealOf inImage) (unitRecords (startSeal (endSeal s)))

/-- A requested bank swap happens at a swap of the images (R304, R307): at once, or from TT_SWAPC on. -/
def bankSwap (s : State) : State :=
  if ¬getB s R.TT_CTL F.TT_CTL_SWAP_REQ then s
  else if getB s R.TT_CTL F.TT_CTL_SWAP_AT ∧
      signed 32 (cycleNumber s + 2 ^ 32 - (getReg s R.TT_SWAPC).toNat) < 0 then s
  else
    let s := setB s R.TT_STAT F.TT_STAT_ACTIVE (!getB s R.TT_STAT F.TT_STAT_ACTIVE)
    let s := bump (ctr 0x000F 2 0) (setB s R.TT_CTL F.TT_CTL_SWAP_REQ false)
    ttNotice 0x01 (cycleNumber s % 65536) s

/-- Steps 2 and 3 of R304 at the images: the output fill half becomes stable, the mapped outputs, the CYCLE channels and the gateway take it, and
the input half is sealed (R53 to R55, R94, R120). -/
def swapImages (isBoundary : Bool) (s : State) : State := sealInput (cycleTx (gwBoundary (mappedOutputs isBoundary (swapOutput s))))

/-- Steps 2 to 4 of R304 without a boundary (R305). -/
def swapNow (s : State) : State := bump (ctr 0x000F 2 0) (endSeal (swapImages false (bankSwap (applyService s))))

/-- A write of TT_CTL (R303, R305, R307): RUN is refused while TT_CYCLE is 0, and a swap request for a cycle that is not ahead. -/
def writeTtCtl (v : Word) (s : State) : State :=
  let noRun := F.TT_CTL_RUN.get v = 1 ∧ ttCycle s = 0
  let noSwap := F.TT_CTL_SWAP_REQ.get v = 1 ∧ ¬getB s R.TT_CTL F.TT_CTL_SWAP_REQ ∧ F.TT_CTL_SWAP_AT.get v = 1 ∧
    signed 32 ((getReg s R.TT_SWAPC).toNat + 2 ^ 32 - cycleNumber s) ≤ 0
  let w := if noRun then F.TT_CTL_RUN.put v 0 else v
  let w := if noSwap then F.TT_CTL_SWAP_REQ.put w 0 else w
  let s := if noRun ∨ noSwap then ttRefuse s else s
  let s := writeInPart R.TT_CTL w v s
  if F.TT_CTL_SWAPNOW.get v = 1 ∧ ¬ttRunning s then swapNow s else s

/-- TT_RUN_WRITE (R303). -/
def execTtRunWrite (m : Master) (v : Word) (s : State) : Host.Outcome State Fault Refusal :=
  .next (guardWrite m R.TT_CTL (fun s => (writeTtCtl v s, none)) s)

/-- SWAP_REQ (R307): a write of TT_CTL with SWAP_REQ 1. -/
def execSwapReq (m : Master) (v : Word) (s : State) : Host.Outcome State Fault Refusal :=
  .next (guardWrite m R.TT_CTL (fun s => (writeTtCtl (F.TT_CTL_SWAP_REQ.put v 1) s, none)) s)

/-- SWAPNOW (R305): a write of TT_CTL with SWAPNOW 1. -/
def execSwapnow (m : Master) (v : Word) (s : State) : Host.Outcome State Fault Refusal :=
  .next (guardWrite m R.TT_CTL (fun s => (writeTtCtl (F.TT_CTL_SWAPNOW.put v 1) s, none)) s)

/-! Entries (R308, R309, R312). -/

/-- A word of entry n of a bank. -/
def ttWord (s : State) (bank n k : Nat) : Word :=
  getReg s (if k = 0 then R.TT_ENT_W0 bank n else if k = 1 then R.TT_ENT_W1 bank n else if k = 2 then R.TT_ENT_W2 bank n
    else R.TT_ENT_W3 bank n)

/-- The bank's stage as a master that writes an entry finds it (R309). -/
def ttStage (s : State) (bank n : Nat) (id : MasterId) : TtStage :=
  match tabGet (fun _ => none) s.tt.stages bank with
  | some g => if g.tag = id ∧ g.entry = n then g else { tag := id, entry := n, w1 := none, w2 := none, w3 := none }
  | none => { tag := id, entry := n, w1 := none, w2 := none, w3 := none }

/-- The state after a bank's stage is replaced. -/
def setTtStage (bank : Nat) (g : Option TtStage) (s : State) : State :=
  onTt (fun t => { t with stages := tabSet (fun _ => none) t.stages bank g }) s

/-- A write of word k + 1 of an entry goes to the bank's stage (R309). -/
def stageTtEntry (id : MasterId) (bank n k : Nat) (v : Word) (s : State) : State :=
  let g := ttStage s bank n id
  let a := if k = 0 then R.TT_ENT_W1 bank n else if k = 1 then R.TT_ENT_W2 bank n else R.TT_ENT_W3 bank n
  let w := some (fieldBits a v)
  countPart a v (setTtStage bank (some (if k = 0 then { g with w1 := w } else if k = 1 then { g with w2 := w } else { g with w3 := w })) s)

/-- TT_ENTRY_STAGE (R309). -/
def execTtEntryStage (m : Master) (bank : Fin 2) (n : Fin 256) (k : Fin 3) (v : Word) (s : State) :
    Host.Outcome State Fault Refusal :=
  .next (guardWrite m (if k.val = 0 then R.TT_ENT_W1 bank n else if k.val = 1 then R.TT_ENT_W2 bank n else R.TT_ENT_W3 bank n)
    (fun s => (stageTtEntry (masterId s m) bank n k v s, none)) s)

/-- An entry is sent in a cycle (R308, R310). -/
def ttMatches (w0 w1 : Word) (k : Nat) : Bool :=
  F.TT_ENT_W0_EN.get w0 = 1 && k % 2 ^ F.TT_ENT_W0_REP.get w0 = F.TT_ENT_W1_PHASE.get w1

/-- An entry of a bank is due in a cycle and not skipped. -/
def ttDue (s : State) (bank n k : Nat) : Bool := ttMatches (ttWord s bank n 0) (ttWord s bank n 1) k && n ∉ s.tt.skip

/-- The walk's next entries from an index on. -/
def ttFrom (s : State) (bank k first : Nat) : List Nat :=
  ((List.range (256 - first)).map (fun i => first + i)).filter (fun n => ttDue s bank n k)

/-- An entry's words come into force; one of the active bank whose start has passed is not sent in this cycle (R312). -/
def enterTt (l : TtLatch) (s : State) : State :=
  let w := fun (a : Nat) (v : Word) (s : State) => rewritten a (setReg s a v)
  let s := w (R.TT_ENT_W0 l.bank l.entry) l.w0 (w (R.TT_ENT_W1 l.bank l.entry) l.w1 (w (R.TT_ENT_W2 l.bank l.entry) l.w2
    (w (R.TT_ENT_W3 l.bank l.entry) l.w3 s)))
  let s := onTt (fun t => { t with skip := t.skip.filter (fun n => ¬(n = l.entry ∧ l.bank = activeBank s)) }) s
  if l.bank = activeBank s ∧ s.tt.walk ≤ l.entry ∧ s.tt.sending.isNone ∧
      (ttFrom s l.bank (cycleNumber s) s.tt.walk).all (fun n => l.entry ≤ n) ∧
      s.tt.edge + F.TT_ENT_W0_OFFSET.get l.w0 < nowNs s then
    onTt (fun t => { t with skip := l.entry :: t.skip }) s
  else s

/-- An entry that R309 refuses. -/
def ttEntryBad (l : TtLatch) : Bool :=
  let n := F.TT_ENT_W1_LENW.get l.w1
  n = 0 || 32 < n || 2 ^ F.TT_ENT_W0_REP.get l.w0 ≤ F.TT_ENT_W1_PHASE.get l.w1 ||
  0x8000 < 8 * F.TT_ENT_W2_SOFF.get l.w2 + 8 * n || 0x8000 < 8 * F.TT_ENT_W3_DOFF.get l.w3 + 8 * n

/-- The entry that a commit by a master would put in force (R309). -/
def ttCommitOf (s : State) (id : MasterId) (bank n : Nat) (v : Word) : TtLatch :=
  let g := ttStage s bank n id
  { bank := bank, entry := n, w0 := fieldBits (R.TT_ENT_W0 bank n) v, w1 := g.w1.getD (ttWord s bank n 1),
    w2 := g.w2.getD (ttWord s bank n 2), w3 := g.w3.getD (ttWord s bank n 3) }

/-- A write of word 0 commits an entry (R309, R312). -/
def commitTtEntry (id : MasterId) (bank n : Nat) (v : Word) (s : State) : State :=
  let l := ttCommitOf s id bank n v
  let s := countPart (R.TT_ENT_W0 bank n) v (setTtStage bank none s)
  if ttEntryBad l then ttRefuse s
  else if s.tt.sending = some (bank, n) ∧ bank = activeBank s then
    if s.tt.latch.isSome then
      ttNotice 0x82 n (bump (ctr 0x000F 6 0) (setB s R.TT_STAT F.TT_STAT_PENDREF true))
    else setB (onTt (fun t => { t with latch := some l }) s) R.TT_STAT F.TT_STAT_PENDING true
  else enterTt l s

/-- TT_ENTRY_COMMIT (R309). -/
def execTtEntryCommit (m : Master) (bank : Fin 2) (n : Fin 256) (v : Word) (s : State) : Host.Outcome State Fault Refusal :=
  .next (guardWrite m (R.TT_ENT_W0 bank n) (fun s => (commitTtEntry (masterId s m) bank n v s, none)) s)

/-! The boundary (R301 to R305, R310). -/

/-- Entries of the ending cycle that were not started are abandoned (R310). -/
def abandonEntries (s : State) : State :=
  let bank := activeBank s
  match ttFrom s bank (cycleNumber s) s.tt.walk with
  | [] => s
  | n :: rest =>
    ttNotice 0x81 (bank * 256 + n) (bumpN (ctr 0x000F 4 0) (rest.length + 1) (setB s R.TT_STAT F.TT_STAT_OVERRUN true))

/-- Boundaries that a forward step passed (R302). -/
def skipBoundaries (n : Nat) (s : State) : State :=
  if n = 0 then s
  else ttNotice 0x84 (min n 65535) (bumpN (ctr 0x000F 1 0) n (setB s R.TT_STAT F.TT_STAT_SKIP true))

/-- The boundary number that ITB0 has reached, if it is one that has not occurred (R301, R302). -/
def dueBoundary (s : State) : Option Nat :=
  if ttCycle s = 0 ∨ nowNs s < ttT0 s then none
  else
    let k := (nowNs s - ttT0 s) / ttCycle s
    if k < s.tt.next then none else some k

/-- Boundary k (R301 to R305): the cycle number, the end of the last walk, a pending mode, whether the timetable runs, a bank swap,
and the images. -/
def boundary (k : Nat) (s : State) : State :=
  let s := skipBoundaries (k - s.tt.next) (if ttRunning s then abandonEntries s else s)
  let s := bump (ctr 0x000F 0 0) (setReg s R.TT_CNUM (BitVec.ofNat 32 k))
  let s := onTt (fun t => { t with next := k + 1, edge := nowNs s, walk := 256, skip := [], waited := false, written := [] }) s
  let s := onTt (fun t => { t with cycling := true, published := [] }) s
  let s := applyService s
  let runs := getB s R.TT_CTL F.TT_CTL_RUN && serviceMode s ≠ 0
  let s := bankSwap (setB s R.TT_STAT F.TT_STAT_RUNNING runs)
  if runs then onTt (fun t => { t with walk := 0 }) (swapImages true s) else mappedOutputs true s

/-- CYCLE_BOUNDARY (R304): ITB0 has reached a boundary's instant. -/
def execCycleBoundary (s : State) : Host.Outcome State Fault Refusal :=
  match dueBoundary s with
  | some k => .next (boundary k s)
  | none => .next s

/-- INPUT_SEAL (R304, step 4). -/
def execInputSeal (s : State) : Host.Outcome State Fault Refusal := .next (endSeal s)

/-! Sending (R310 to R312). -/

/-- The CYCLIC envelope of an entry (R311). -/
def cyclicEnv (s : State) (bank n : Nat) : Envelope :=
  let w1 := ttWord s bank n 1
  let src := inImage + 8 * F.TT_ENT_W2_SOFF.get (ttWord s bank n 2)
  let lenw := F.TT_ENT_W1_LENW.get w1
  let ws := (List.range lenw).map (fun j => getMem64 s (src + 8 * j))
  let pois := ((List.range lenw).map (fun j => bit1 (poisoned s (src + 8 * j)) * 2 ^ j)).sum
  let e := build s 0 kCyclic (F.TT_ENT_W1_MC.get w1 = 1) (F.TT_ENT_W1_DST.get w1) (getF s R.TT_HOPS F.TT_HOPS_HOPS) ws
  withCrcs { e with tag := BitVec.ofNat 12 (cycleNumber s), poison := BitVec.ofNat 32 pois, poisonAny := pois ≠ 0,
                    addr := BitVec.ofNat 48 (outImage + 8 * F.TT_ENT_W3_DOFF.get (ttWord s bank n 3)) }

/-- An entry word reads poisoned (R398). -/
def ttEntryParity (s : State) (bank n : Nat) : Bool :=
  badWord s (R.TT_ENT_W0 bank n) || badWord s (R.TT_ENT_W1 bank n) || badWord s (R.TT_ENT_W2 bank n) || badWord s (R.TT_ENT_W3 bank n)

/-- The walk at an entry whose start has come: sent, waiting for pool room, refused by routing, or abandoned for a parity error
(R310, R311, R367, R398). -/
def startEntry (bank n : Nat) (s : State) : State :=
  let past := onTt (fun t => { t with walk := n + 1, waited := false }) s
  if ttEntryParity s bank n then latchFault 4 (bump (ctr 0x000F 4 0) past)
  else
    match originate 4 (cyclicEnv s bank n) s with
    | (t, .accepted) => onTt (fun x => { x with walk := n + 1, waited := false, sending := some (bank, n) }) t
    | (t, .noRoute) => bump (ctr 0x000F 12 0) (onTt (fun x => { x with walk := n + 1, waited := false }) t)
    | (_, .noRoom) => if s.tt.waited then s else bump (ctr 0x000F 5 0) (onTt (fun x => { x with waited := true }) s)

/-- TT_ENTRY_START (R310): after the seal and the previous handover, from E + OFFSET on. -/
def execTtEntryStart (s : State) : Host.Outcome State Fault Refusal :=
  let bank := activeBank s
  if s.time.sealing ∨ s.tt.sending.isSome then .next s
  else
    match ttFrom s bank (cycleNumber s) s.tt.walk with
    | [] => .next s
    | n :: _ => .next (if nowNs s < s.tt.edge + F.TT_ENT_W0_OFFSET.get (ttWord s bank n 0) then s else startEntry bank n s)

/-- TT_ENTRY_HANDOVER (R312): the last cell is handed over, and a latched commit lands. -/
def execTtEntryHandover (s : State) : Host.Outcome State Fault Refusal :=
  match s.tt.sending with
  | none => .next s
  | some _ =>
    let s := bump (ctr 0x000F 3 0) (onTt (fun t => { t with sending := none }) s)
    match s.tt.latch with
    | none => .next s
    | some l => .next (enterTt l (setB (onTt (fun t => { t with latch := none }) s) R.TT_STAT F.TT_STAT_PENDING false))

/-! Receiving (R313). -/

/-- The first enabled window that covers an envelope's bytes. -/
def rxWindow (s : State) (src off len : Nat) : Option Nat :=
  (List.range 32).find? (fun n =>
    getB s (R.TT_RX_A n) F.TT_RX_A_EN && getF s (R.TT_RX_A n) F.TT_RX_A_SRC = src &&
    8 * getF s (R.TT_RX_B n) F.TT_RX_B_BASE ≤ off && off + len ≤ 8 * getF s (R.TT_RX_B n) F.TT_RX_B_LIMIT + 8)

/-- The window of a received CYCLIC. -/
def cyclicWindow (s : State) (e : Envelope) : Option Nat :=
  if e.addr.toNat < outImage then none else rxWindow s e.src.toNat (e.addr.toNat - outImage) (8 * e.lenw.toNat)

/-- The payload enters the output fill half, poisoned words stored poisoned (R313). -/
def storeCyclic (e : Envelope) (s : State) : State :=
  let bad := poisonBits e
  let s := if bad ≠ 0 then consumePoison 0 s else s
  (List.range e.lenw.toNat).foldl (fun s j =>
    masterWrite (e.addr.toNat + 8 * j) (leBytes 8 (payloadWord e j).toNat) (bad.getLsbD j) s) s

/-- A received CYCLIC is judged (R313). -/
def takeCyclic (e : Envelope) (s : State) : State :=
  let s := bump (ctr 0x000F 7 0) s
  if 2 ≤ serviceMode s then bump (ctr 0x000F 10 0) s
  else if e.tag.toNat ≠ cycleNumber s % 4096 then
    ttNotice 0x83 e.src.toNat (bump (ctr 0x000F 8 0) (setB s R.TT_STAT F.TT_STAT_LATE true))
  else
    match cyclicWindow s e with
    | none => ttNotice 0x83 e.src.toNat (bump (ctr 0x000F 9 0) (setB s R.TT_STAT F.TT_STAT_RXREF true))
    | some n =>
      let s := if n ∈ s.tt.written then bump (ctr 0x000F 11 0) s else onTt (fun t => { t with written := n :: t.written }) s
      storeCyclic e s

/-- CYCLIC (R313). -/
def execCyclic (e : Envelope) (s : State) : Host.Outcome State Fault Refusal :=
  let e := asKind kCyclic e
  .next (takeCyclic e (takeDelivered e s))

end Sys2Proof.Machine
end

