-- ==== Sys2Proof/Machine/Duplex.lean ====
section
/-! DEFINITION. Duplex pairs (R352 to R372): the interlock, the step and its vectors, divergence, corrections, and the messages of
the pair. Counters as in Interlock. -/

namespace Sys2Proof.Machine

/-! Own sampling and the partner's values (R361, R362). -/

/-- The mains inputs' tracks are judged after their source changed. -/
def reviewMains (s : State) : State := reviewSource 2 1 (reviewSource 2 0 s)

/-- Pin p takes its own sampler's level, and every edge that waited commits. -/
def ownPin (p : Nat) (s : State) : State :=
  if ¬isInput s p then s
  else
    let c := getPin s p
    let s := onPin p (fun c => { c with held := [] }) (setB s (R.PIN_STAT p) F.PIN_STAT_LEVEL c.own)
    c.held.foldl (fun s h => commitEdge p h.1 h.2.1 s) s

/-- The difference of two counts of encoder n, in its modulus, signed. -/
def encDiff (s : State) (n new old : Nat) : Int :=
  let mod := (getReg s (R.EN_MOD n)).toNat
  if mod = 0 then signed 32 (new + 2 ^ 32 - old % 2 ^ 32)
  else
    let m := mod + 1
    let d := (new + m - old % m) % m
    if 2 * d < m then (d : Int) else (d : Int) - (m : Int)

/-- Counts of encoder n that the partner's values do not yet hold reach the count and its tracks as one step. -/
def ownEnc (n : Nat) (s : State) : State :=
  let e := getEnc s n
  let d := encDiff s n e.own e.base
  let c := stepCount (getReg s (R.EN_MOD n)).toNat (getReg s (R.EN_COUNT n)).toNat d
  let s := onEnc n (fun e => { e with own := c, applied := none }) (setReg s (R.EN_COUNT n) (BitVec.ofNat 32 c))
  if d = 0 then s else feedTracks 1 n d (now64 s) s

/-- The hub takes its slow domains from its own sampling (R362). -/
def ownSampling (s : State) : State :=
  let s := (List.range 256).foldl (fun s p => ownPin p s) s
  let s := (List.range 16).foldl (fun s n => ownEnc n s) s
  reviewMains (onDpx (fun d => { d with mp := [] }) s)

/-- A hub becomes standby: its own counts go on from the counts in force. -/
def startFollowing (s : State) : State :=
  let s := (List.range 16).foldl (fun s n =>
    let c := (getReg s (R.EN_COUNT n)).toNat
    onEnc n (fun e => { e with own := c, edge := c, base := c, applied := none }) s) s
  onDpx (fun d => { d with missing := 0, diverged := [], loads := [], captures := [] }) s

/-- A transition that may end following: the own sampling takes over where the partner's values no longer stand. -/
def whileFollowing (f : State → State) (s : State) : State :=
  let t := f s
  if followsPartner s ∧ ¬followsPartner t then ownSampling t
  else if ¬followsPartner s ∧ followsPartner t then startFollowing t
  else t

/-! DPX_CTL (R353, R357, R367). -/

/-- EN may be set (R353). -/
def enableOk (s : State) : Bool :=
  getB s R.RT_CFG F.RT_CFG_PAIR && getF s R.RT_CFG F.RT_CFG_SIDEB = dpxRole s && portUp s 2 &&
  getF s (R.PT_STAT 2) F.PT_STAT_NROLE = 2

/-- CFGREF of the unit. -/
def dpxRefuse (s : State) : State := setB s R.DPX_STAT F.DPX_STAT_CFGREF true

/-- A write of DPX_CTL: the fields, then EN, YIELD, CLRF and FAULT. -/
def writeDpxCtl (v : Word) (s : State) : State :=
  let was := dpxOn s
  let on := F.DPX_CTL_EN.get v = 1
  let refused := on ∧ ¬was ∧ ¬enableOk s
  let s := writeInPart R.DPX_CTL (if refused then F.DPX_CTL_EN.put v 0 else v) v s
  let s := if refused then dpxRefuse s
    else if on ∧ ¬was then setDpxState 1 2 s
    else if ¬on ∧ was then refreshPins (setDpxState 0 2 (dropClaim s))
    else s
  let s := if F.DPX_CTL_YIELD.get v = 0 then s
    else if dpxState s = 2 ∧ getB s R.DPX_STAT F.DPX_STAT_PREADY then
      setDpxState 1 2 (bump (ctr 0x0013 11 0) (dropClaim s))
    else dpxRefuse s
  let s := if F.DPX_CTL_CLRF.get v = 0 ∨ dpxState s ≠ 3 then s
    else if selectedFaults s = 0 then setDpxState 1 2 s
    else dpxRefuse s
  let s := if F.DPX_CTL_FAULT.get v = 1 then latchFault 5 s else s
  selfTestKick s

/-- A write of DPX_CTL by a master, with a field forced. -/
def dpxCtlWrite (m : Master) (f : Fld) (b : Nat) (v : Word) (s : State) : State :=
  guardWrite m R.DPX_CTL (fun s => (whileFollowing (writeDpxCtl (f.put v b)) s, none)) s

/-- DPX_ENABLE (R353, R357). -/
def execDpxEnable (m : Master) (v : Word) (s : State) : Host.Outcome State Fault Refusal :=
  .next (dpxCtlWrite m F.DPX_CTL_EN 1 v s)
/-- DPX_DISABLE (R357). -/
def execDpxDisable (m : Master) (v : Word) (s : State) : Host.Outcome State Fault Refusal :=
  .next (dpxCtlWrite m F.DPX_CTL_EN 0 v s)
/-- YIELD (R357). -/
def execDpxYield (m : Master) (v : Word) (s : State) : Host.Outcome State Fault Refusal :=
  .next (dpxCtlWrite m F.DPX_CTL_YIELD 1 v s)
/-- DPX_CLRF (R357). -/
def execDpxClrf (m : Master) (v : Word) (s : State) : Host.Outcome State Fault Refusal :=
  .next (dpxCtlWrite m F.DPX_CTL_CLRF 1 v s)
/-- DPX_SOFT_FAULT (R367). -/
def execDpxSoftFault (m : Master) (v : Word) (s : State) : Host.Outcome State Fault Refusal :=
  .next (dpxCtlWrite m F.DPX_CTL_FAULT 1 v s)

/-! The interlock (R355 to R357). -/

/-- Field drive is set, and the pins follow. -/
def setDrive (on : Bool) (s : State) : State := refreshPins (setB s R.DPX_STAT F.DPX_STAT_DRIVE on)

/-- The synchronised PEER changes (R355): high turns drive off, and side B withdraws its claim; low lets a claiming hub drive. -/
def peerTo (level : Bool) (s : State) : State :=
  let s := setB s R.DPX_STAT F.DPX_STAT_PEER level
  let claims := getB s R.DPX_STAT F.DPX_STAT_CLAIM
  if ¬dpxOn s then s
  else if level then
    let s := onDpx (fun d => { d with gapStart := none }) s
    if ¬claims then s
    else if dpxRole s = 1 then setDpxState 1 2 (dropClaim s)
    else setDrive false s
  else
    let s := onDpx (fun d => { d with gapStart := some (itbNs s 3) }) s
    if claims then setDrive true s else s

/-- PEER_CHANGE (R355). -/
def execPeerChange (level : Bool) (s : State) : Host.Outcome State Fault Refusal :=
  .next (if getB s R.DPX_STAT F.DPX_STAT_PEER = level then s else whileFollowing (peerTo level) s)

/-- A READY hub without a claim may claim while PEER is low; a FAULTED one never does (R355, R357). -/
def mayClaim (s : State) : Bool :=
  dpxReady s && (dpxState s = 1 || dpxState s = 2) && !getB s R.DPX_STAT F.DPX_STAT_CLAIM && !getB s R.DPX_STAT F.DPX_STAT_PEER

/-- The hub claims, becomes ACTIVE and drives (R355, R357). -/
def raiseClaim (s : State) : State :=
  let s := bump (ctr 0x0013 9 0) (setB s R.DPX_STAT F.DPX_STAT_CLAIM true)
  setDpxState 2 2 (setDrive true (onDpx (fun d => { d with tookOver := d.gapStart.isSome, speaking := false }) s))

/-- CLAIM_RAISE (R355): PEER has read low for 1 µs. -/
def execClaimRaise (s : State) : Host.Outcome State Fault Refusal :=
  .next (if mayClaim s then whileFollowing raiseClaim s else s)

/-! The state of a cluster (R364). -/

/-- The three words of an engine in a STATE. -/
def engineWords (s : State) (n : Nat) : List DWord :=
  let e := getEng s n
  let full := match e.latched with
    | some l => l.delay.isNone
    | none => false
  let held := full && engState s n = 2
  let low := if held then (e.latched.map (fun l => l.word.toNat)).getD 0 else (getReg s (rLatch n)).toNat
  [getReg s (rY n) ++ getReg s (rX n), getReg s (rOsr n) ++ getReg s (rIsr n),
    BitVec.ofNat 64 (low + getF s (rPc n) F.SCR_PC_VAL * 2 ^ 32 + engState s n * 2 ^ 37 + getIsc s n * 2 ^ 40 + getOsc s n * 2 ^ 48 +
      bit1 full * 2 ^ 55)]

/-- The 12 words of a cluster's state. -/
def clusterWords (s : State) (k : Nat) : List DWord := (List.range 4).flatMap (fun e => engineWords s (4 * k + e))

/-- The digest of a cluster (R360). -/
def clusterDigest (s : State) (k : Nat) : Nat := (crc16 ((clusterWords s k).flatMap (fun w => leBytes 8 w.toNat))).toNat

/-- An engine takes the state that a STATE carries (R364): its FIFOs are kept, and an engine in FAULT is not loaded. -/
def loadEngine (n : Nat) (w1 w2 w3 : DWord) (s : State) : State :=
  let x := w3.toNat
  let st := bitsOf x 37 2
  if engState s n = 3 ∨ st = 3 then s
  else
    let held := bitOf x 55 ∧ st = 2
    let s := setY n (hi32 w1) (setX n (lo32 w1) s)
    let s := setReg (setReg s (rIsr n) (lo32 w2)) (rOsr n) (hi32 w2)
    let s := if held then s else setReg s (rLatch n) (lo32 w3)
    let s := setOsc n (bitsOf x 48 6) (setIsc n (bitsOf x 40 6) (setReg s (rPc n) (BitVec.ofNat 32 (bitsOf x 32 5))))
    let s := onEng n (fun e => { e with latched := none }) s
    let s := if held then fetchInto n (BitVec.ofNat 16 x) false s else s
    reviewEngineTracks n (setEngState n st 0 s)

/-- A kept STATE is loaded, and counted as a correction (R364). -/
def loadState (ws : List DWord) (s : State) : State :=
  let w := fun i => (ws[i]?).getD 0
  let k := bitsOf (w 0).toNat 8 4
  let s := (List.range 4).foldl (fun s e => loadEngine (4 * k + e) (w (1 + 3 * e)) (w (2 + 3 * e)) (w (3 + 3 * e)) s) s
  bump (ctr 0x0013 7 k) s

/-! The STEP (R358 to R360, R363). -/

/-- The value that a pin's owner commands: a Scribe pin's value bit stands whatever its direction. -/
def commandValue (s : State) (p : Nat) : Bool :=
  if pinFunc s p = 5 ∨ pinFunc s p = 6 then
    let (k, w) := windowOf s p
    (getReg s (R.SCR_POUT k)).getLsbD w
  else ownerValue s p = some true

/-- The driver enable that a pin's owner commands; an open-drain pin drives low only. -/
def commandEnable (s : State) (p : Nat) : Bool :=
  match ownerValue s p with
  | none => false
  | some b => !(b && getB s (R.PIN_CFG p) F.PIN_CFG_OD)

/-- 256 bits as bytes, FP000 first. -/
def pinBytes (f : Nat → Bool) : List Byte :=
  (List.range 32).map (fun j => BitVec.ofNat 8 (((List.range 8).map (fun i => bit1 (f (8 * j + i)) * 2 ^ i)).sum))

/-- PINCRC, NFIRE and NENV at the present edge (R360, R363). -/
def intentWord (s : State) : DWord :=
  let crc := (crc32 (pinBytes (commandValue s) ++ pinBytes (commandEnable s))).toNat
  let fire := (getCtr s (ctr 0x0012 1 0) + s.duplex.fireOfs) % 65536
  let env := (s.duplex.envelopes + s.duplex.envOfs) % 65536
  BitVec.ofNat 64 (crc + fire * 2 ^ 32 + env * 2 ^ 48)

/-- Bit p of LEVELS in word j. -/
def levelWord (s : State) (j : Nat) : DWord :=
  BitVec.ofNat 64 (((List.range 64).map (fun i => bit1 (getB s (R.PIN_STAT (64 * j + i)) F.PIN_STAT_LEVEL) * 2 ^ i)).sum)

/-- The payload of the STEP of step n (R360). -/
def stepWords (s : State) (n : Nat) : List DWord :=
  let head : DWord := BitVec.ofNat 64 (1 + dpxRole s * 2 ^ 4 + bit1 (dpxState s = 2) * 2 ^ 5 + bit1 (dpxReady s) * 2 ^ 6 +
    getF s R.DPX_STAT F.DPX_STAT_SOLO * 2 ^ 7 + n % 2 ^ 32 * 2 ^ 32)
  let encs := (List.range 8).map (fun j =>
    pair32 (getReg s (R.EN_COUNT (2 * j))).toNat (getReg s (R.EN_COUNT (2 * j + 1))).toNat)
  let enct := (List.range 8).map (fun j => pair32 (getEnc s (2 * j)).last (getEnc s (2 * j + 1)).last)
  let mp := (List.range 2).map (fun i => (BitVec.ofNat 64 (mainsValue s i % 2 ^ 48 + mainsState s i % 4 * 2 ^ 48) : DWord))
  let dig := (List.range 4).map (fun j =>
    (BitVec.ofNat 64 (((List.range 4).map (fun i => clusterDigest s (4 * j + i) * 2 ^ (16 * i))).sum) : DWord))
  let ua : DWord := BitVec.ofNat 64 (((List.range 16).map (fun u => (getUart s u).count % 16 * 2 ^ (4 * u))).sum)
  [head, BitVec.ofNat 64 (s.duplex.txStep.getD 0)] ++ (List.range 4).map (levelWord s) ++ encs ++ enct ++ mp ++ dig ++ [ua, intentWord s]

/-- Bit p of a STEP's LEVELS. -/
def stepLevel (ws : List DWord) (p : Nat) : Bool := ((ws[2 + p / 64]?).getD 0).getLsbD (p % 64)

/-- A pin takes the partner's level at edge m; own edges accepted before the edge of that level are committed by a change in their
direction, and discarded otherwise (R362). -/
def applyLevel (ws : List DWord) (m p : Nat) (s : State) : State :=
  if ¬isInput s p then s
  else
    let b := stepLevel ws p
    let changed := getB s (R.PIN_STAT p) F.PIN_STAT_LEVEL ≠ b
    let due := (getPin s p).held.filter (fun h => h.2.2 ≠ (m + 2 ^ 32 - 1) % 2 ^ 32)
    let s := setB (onPin p (fun c => { c with held := c.held.filter (fun h => h.2.2 = (m + 2 ^ 32 - 1) % 2 ^ 32) }) s)
      (R.PIN_STAT p) F.PIN_STAT_LEVEL b
    match due.find? (fun h => changed && h.1 = b) with
    | some h => commitEdge p b h.2.1 (bumpN (ctr 0x0013 8 0) (due.length - 1) s)
    | none => if due = [] then s else bumpN (ctr 0x0013 8 0) due.length s

/-- Half j of a list of 32-bit values packed from word w on. -/
def halfOf (ws : List DWord) (w j : Nat) : Nat :=
  let x := (ws[w + j / 2]?).getD 0
  if j % 2 = 0 then (lo32 x).toNat else (hi32 x).toNat

/-- Encoder n takes the partner's count; a difference from the count applied before is one step of its tracks (R362). -/
def applyEnc (ws : List DWord) (n : Nat) (s : State) : State :=
  let c := halfOf ws 6 n
  let e := getEnc s n
  let d : Int := match e.applied with
    | some a => encDiff s n c a
    | none => 0
  let s := onEnc n (fun e => { e with applied := some c, base := e.edge }) (setReg s (R.EN_COUNT n) (BitVec.ofNat 32 c))
  let now := nowNs s
  let ns := wrap 64 ((now : Int) + signed 32 (halfOf ws 14 n + 2 ^ 32 - now % 2 ^ 32))
  if d = 0 then s else feedTracks 1 n d (ns * 2 ^ 16) s

/-- The partner's STEP of step m - 1 is applied at edge m (R362). -/
def applyVectors (ws : List DWord) (m : Nat) (s : State) : State :=
  let s := (List.range 256).foldl (fun s p => applyLevel ws m p s) s
  let s := (List.range 16).foldl (fun s n => applyEnc ws n s) s
  let mp := fun i => ((ws[22 + i]?).getD 0).toNat
  let one := fun (i : Nat) (t : Table (Option (Nat × Nat))) =>
    tabSet (fun _ => none) t i (some (bitsOf (mp i) 0 48, bitsOf (mp i) 48 2))
  reviewMains (onDpx (fun d => { d with mp := one 1 (one 0 d.mp), missing := 0 }) s)

/-- K: 0 is treated as 1. -/
def dpxK (s : State) : Nat := max 1 (getF s R.DPX_CTL F.DPX_CTL_K)

/-- No STEP of the last step has arrived (R362). -/
def missStep (s : State) : State :=
  let n := s.duplex.missing + 1
  let s := bump (ctr 0x0013 5 0) (onDpx (fun d => { d with missing := n }) s)
  if n = dpxK s ∧ ¬getB s R.DPX_STAT F.DPX_STAT_SOLO then
    dpxNotice 0x82 n (ownSampling (setB s R.DPX_STAT F.DPX_STAT_SOLO true))
  else s

/-- A comparison of a domain (R363): K consecutive divergences are reported once. -/
def compareDomain (dom : Nat) (differs : Bool) (report : State → State) (s : State) : State :=
  let n := tabGet (fun _ => 0) s.duplex.diverged dom
  let put := fun v s => onDpx (fun d => { d with diverged := tabSet (fun _ => 0) d.diverged dom v }) s
  if ¬differs then put 0 s
  else
    let s := put (min 16 (n + 1)) s
    if n + 1 = dpxK s then dpxNotice 0x81 dom (bump (ctr 0x0013 6 dom) (report s)) else s

/-- An intent divergence: INTENT is set, and the standby's counts follow the partner's from here on (R363). -/
def reportIntent (theirs : DWord) (s : State) : State :=
  let mine := (intentWord s).toNat
  let d := fun lo => (bitsOf theirs.toNat lo 16 + 65536 - bitsOf mine lo 16) % 65536
  let s := setB s R.DPX_STAT F.DPX_STAT_INTENT true
  onDpx (fun x => { x with fireOfs := (x.fireOfs + d 32) % 65536, envOfs := (x.envOfs + d 48) % 65536 }) s

/-- The standby's comparisons with the partner's STEP of step n (R363). -/
def compareStep (n : Nat) (ws : List DWord) (s : State) : State :=
  let theirs := (ws[29]?).getD 0
  let s := compareDomain 0 (decide (theirs ≠ intentWord s)) (reportIntent theirs) s
  match s.duplex.own.find? (fun o => o.1 = n) with
  | none => s
  | some (_, mine) =>
    let w := fun (l : List DWord) (i : Nat) => ((l[i]?).getD 0).toNat
    let s := (List.range 16).foldl (fun s k =>
      compareDomain (0x10 + k) (decide (bitsOf (w ws (24 + k / 4)) (16 * (k % 4)) 16 ≠ bitsOf (w mine (24 + k / 4)) (16 * (k % 4)) 16))
        (fun s => setReg s R.DPX_DIVC (getReg s R.DPX_DIVC ||| BitVec.ofNat 32 (2 ^ k))) s) s
    (List.range 16).foldl (fun s u =>
      compareDomain (0x20 + u) (decide (bitsOf (w ws 28) (4 * u) 4 ≠ bitsOf (w mine 28) (4 * u) 4))
        (fun s => setReg s R.DPX_DIVC (getReg s R.DPX_DIVC ||| BitVec.ofNat 32 (2 ^ (16 + u)))) s) s

/-- The active hub's comparison of cluster digests for step n: captures at edge n + 2 (R364). -/
def planCaptures (n : Nat) (ws : List DWord) (s : State) : State :=
  match s.duplex.own.find? (fun o => o.1 = n) with
  | none => s
  | some (_, mine) =>
    let w := fun (l : List DWord) (i : Nat) => ((l[i]?).getD 0).toNat
    let ks := (List.range 16).filter (fun k =>
      bitsOf (w ws (24 + k / 4)) (16 * (k % 4)) 16 ≠ bitsOf (w mine (24 + k / 4)) (16 * (k % 4)) 16)
    onDpx (fun d => { d with captures := d.captures ++ ks.map (fun k => (k, (n + 2) % 2 ^ 32)) }) s

/-- The captures due at edge m leave as STATE messages (R364). -/
def sendCaptures (m : Nat) (s : State) : State :=
  let due := s.duplex.captures.filter (fun c => c.2 = m)
  let s := onDpx (fun d => { d with captures := d.captures.filter (fun c => c.2 ≠ m) }) s
  due.foldl (fun s c => sendPartner 0 2 (BitVec.ofNat 64 (2 + c.1 % 16 * 2 ^ 8 + m % 2 ^ 32 * 2 ^ 32) :: clusterWords s c.1) s) s

/-- The STATE messages captured at edge m - 2 are loaded (R364). -/
def takeLoads (m : Nat) (s : State) : State :=
  let due := s.duplex.loads.filter (fun l => (l.1 + 2) % 2 ^ 32 = m)
  let s := onDpx (fun d => { d with loads := d.loads.filter (fun l => (l.1 + 2) % 2 ^ 32 ≠ m) }) s
  due.foldl (fun s l => loadState l.2 s) s

/-- The first step edge after a claim (R369): the hub speaks, and a take-over from a faulted partner is reported with its gap. -/
def startSpeaking (s : State) : State :=
  if dpxState s ≠ 2 ∨ s.duplex.speaking then s
  else
    let took := s.duplex.tookOver ∧ ¬getB s R.DPX_STAT F.DPX_STAT_PREADY
    let gap := ceilDiv (itbNs s 3 - s.duplex.gapStart.getD (itbNs s 3)) 1000
    let s := onDpx (fun d => { d with speaking := true, tookOver := false, gapStart := none }) s
    if took then dpxNotice 0x84 (min gap 65535) s else s

/-- What the standby does with its partner's STEP at edge m. -/
def followEdge (m : Nat) (s : State) : State :=
  let last := (m + 2 ^ 32 - 1) % 2 ^ 32
  let s := takeLoads m s
  match s.duplex.partner with
  | some (n, ws) =>
    if n = last then
      let s := if followsPartner s then applyVectors ws m s else s
      if getB s R.DPX_STAT F.DPX_STAT_ALIGNED then compareStep n ws s else s
    else missStep s
  | none => missStep s

/-- What the active hub does with its partner's STEP at edge m. -/
def leadEdge (m : Nat) (s : State) : State :=
  let last := (m + 2 ^ 32 - 1) % 2 ^ 32
  let s := sendCaptures m s
  match s.duplex.partner with
  | some (n, ws) => if n = last then planCaptures n ws s else s
  | none => s

/-- The step edge m of a hub of a pair (R358, R362 to R364, R369): a standby that became FAULTED goes back to its own sampling. -/
def pairEdge (m : Nat) (s : State) : State :=
  let s := if dpxState s = 1 then followEdge m s else if dpxState s = 2 then leadEdge m s
    else if s.duplex.mp ≠ [] then ownSampling s else s
  let s := (List.range 16).foldl (fun s n => onEnc n (fun e => { e with edge := e.own }) s) s
  let s := startSpeaking s
  let ws := stepWords s m
  let s := sendPartner 0 1 ws s
  onDpx (fun d => { d with own := ((m, ws) :: d.own).take 4 }) s

/-- STEP_EDGE (R358): ITB3 has reached the next step. -/
def execStepEdge (s : State) : Host.Outcome State Fault Refusal :=
  let m := itbNs s 3 / 1000 % 2 ^ 32
  if m = (getReg s R.DPX_STEP).toNat then .next s
  else
    let s := setReg s R.DPX_STEP (BitVec.ofNat 32 m)
    .next (if dpxOn s then pairEdge m s else s)

/-! Partner messages received (R353, R358 to R365). -/

/-- A partner message, taken as one of the row's TYPE (log entry 126). -/
def partnerForm (type : Nat) (e : Envelope) : Envelope :=
  let e := asKind kHealth e
  { e with payload := setField 0 4 type e.payload }

/-- A partner message is consumed on TIE, and discarded and counted on another port (R359). -/
def partnerRow (e : Envelope) (type words : Nat) (tie : Bool) (f : Envelope → State → State) (s : State) : Host.Outcome State Fault Refusal :=
  let e := partnerForm type e
  let s := takeDelivered e s
  .next (if e.payload.length < words then s
    else if ¬tie then bump (ctr 0x0013 15 0) s
    else f e (bump (ctr 0x0013 3 type) s))

/-- DPX_OFS in ps from a STEP that carries PTX: R - (PTX + MPD), R being the receive reading of the STEP before, in 2^-16 ns (R358). -/
def stepOffset (s : State) (r ptx : Nat) : Int :=
  signed 80 (r + 2 ^ 80 - ptx * 2 ^ 16 % 2 ^ 80) * 1000 / 65536 - signed 32 (getReg s (R.TM_P_MPD 2)).toNat

/-- A STEP, received with a ring postmark, is kept for the next edge (R353, R358, R360, R362). -/
def takeStep (e : Envelope) (mark : RingMark) (s : State) : State :=
  let w0 := (payloadWord e 0).toNat
  let n := bitsOf w0 32 32
  let same := decide (bitsOf w0 4 1 = dpxRole s)
  let first := same && !getB s R.DPX_STAT F.DPX_STAT_ROLEERR
  let s := if same then setB s R.DPX_STAT F.DPX_STAT_ROLEERR true else s
  let s := if first then reviewClaim (dpxNotice 0x83 0 s) else s
  let s := setB s R.DPX_STAT F.DPX_STAT_PREADY (bitOf w0 6)
  let s := match s.duplex.rxStep with
    | some (k, r) =>
      if (k + 1) % 2 ^ 32 = n then
        let o := stepOffset s r (payloadWord e 1).toNat
        let s := setReg s R.DPX_OFS (BitVec.ofNat 32 (saturate 32 o))
        setB s R.DPX_STAT F.DPX_STAT_ALIGNED (decide (o.natAbs ≤ 20000))
      else s
    | none => s
  let s := onDpx (fun d => { d with partner := some (n, e.payload), rxStep := some (n, rxReadingIn s 3 2 mark) }) s
  if dpxState s = 1 ∧ getB s R.DPX_STAT F.DPX_STAT_SOLO then
    setB (onDpx (fun d => { d with missing := 0 }) s) R.DPX_STAT F.DPX_STAT_SOLO false
  else s

/-- STEP (R360), with its ring postmark of reception: the one handed over with it, or the operands' (R255). -/
def execDpxStep (e : Envelope) (tie : Bool) (age : Nat) (ph : Fin 32) (s : State) : Host.Outcome State Fault Refusal :=
  let mark := (deliveredMark s (partnerForm 1 e)).getD (markAt s age ph)
  partnerRow e 1 30 tie (fun e s => if dpxOn s then whileFollowing (takeStep e mark) s else s) s

/-- STATE (R364): kept for the edge two steps after its capture. -/
def execDpxState (e : Envelope) (tie : Bool) (s : State) : Host.Outcome State Fault Refusal :=
  partnerRow e 2 13 tie (fun e s =>
    if dpxOn s ∧ dpxState s = 1 then
      onDpx (fun d => { d with loads := d.loads ++ [(bitsOf (payloadWord e 0).toNat 32 32, e.payload)] }) s
    else s) s

/-- The frame that a FRAME carries (R121). -/
def frameOf (e : Envelope) : BusFrame :=
  let w := (payloadWord e 0).toNat
  let fdf := bitOf w 31
  let rtr := bitOf w 30
  let dlc := bitsOf w 34 4
  { id := BitVec.ofNat 29 w, ide := bitOf w 29, rtr := rtr, fdf := fdf, brs := bitOf w 32, esi := bitOf w 33, dlc := BitVec.ofNat 4 dlc,
    data := ((e.payload.drop 2).flatMap (fun x => leBytes 8 x.toNat)).take (frameBytes fdf rtr dlc) }

/-- A FRAME at the standby (R365): a reception is stored, a transmission completes the pending request. -/
def takeFrame (e : Envelope) (s : State) : State :=
  let w := (payloadWord e 0).toNat
  let m := bitsOf w 38 3
  let n := bitsOf w 41 7
  let f := frameOf e
  let pm := payloadWord e 1
  if bitOf w 48 then
    if txPending s m n then completeObj m n f pm 0 (setPending m n false s) else s
  else storeFrame m n f pm pm.toNat s

/-- FRAME (R365). -/
def execDpxFrame (e : Envelope) (tie : Bool) (s : State) : Host.Outcome State Fault Refusal :=
  partnerRow e 3 2 tie (fun e s => if dpxOn s ∧ dpxState s = 1 then takeFrame e s else s) s

/-- HEALTH_REPORT (R370): PERIOD ms have passed. -/
def execHealthReport (s : State) : Host.Outcome State Fault Refusal :=
  .next (if getF s R.DPX_HCFG F.DPX_HCFG_PERIOD = 0 then s else healthReport 0 s)

end Sys2Proof.Machine
end

