-- ==== Sys2Proof/Machine/Power.lean ====
section
/-! DEFINITION. The power die (chapter 15): supervisor, feed selector, field rail and zone switches, metering, and its window.
Channel 0 is the field rail and channel 1 + n zone n. Counters of CAP 0x0014: 0 brown-outs, 1 all-clears, 2 over-voltage
warnings, 3 feed changes to A and B, 4 gate faults by feed, 5 field trips by cause, 6 field episodes at limit, 7 field retries, 8
field latch-offs, 9 zone trips (8 * zone + cause), 10 thermal events, 11 rail tolerance events by rail, 12 writes refused under
LOCK. -/

namespace Sys2Proof.Machine

/-- The power die after a change. -/
def onPower (f : PowerState → PowerState) (s : State) : State := { s with power := f s.power }

/-- A PD_EVT bit is set. -/
def pdEvent (f : Fld) (s : State) : State := setB s R.PD_EVT f true

/-- A power-die notice, at most one of a code in a millisecond, and none while the digital die is in reset (R392, R393). -/
def pdNotice (code arg : Nat) (s : State) : State :=
  if clocked s then postOnce (getF s R.PD_CTL F.PD_CTL_NTC_Q) 0x0014 0 code arg s else s

/-- A quotient whose rounding the spec leaves open: exact, or the floor plus a free bit. -/
def roundFree (x d : Nat) (s : State) : Nat × State :=
  if d = 0 then (x, s)
  else if x % d = 0 then (x / d, s)
  else let (b, s) := fresh 1 s; (x / d + b.toNat, s)

/-- A reading in a field of w bits: one that does not fit is a free value. -/
def fitFree (w x : Nat) (s : State) : Nat × State :=
  if x < 2 ^ w then (x, s) else let (b, s) := fresh w s; (b.toNat, s)

/-! Channels of R383 and R387. -/

/-- A channel's state: 0 OFF, 1 RAMP, 2 ON, 3 LIMIT, 4 COOL, 5 LATCHED. -/
def chanSt (s : State) (c : Nat) : Nat :=
  if c = 0 then getF s R.PD_STAT F.PD_STAT_FLD else getF s (R.ZN_STAT (c - 1)) F.ZN_STAT_STATE

/-- The channel's gate is driven: RAMP, ON or LIMIT. -/
def driven (s : State) (c : Nat) : Bool := 1 ≤ chanSt s c && chanSt s c ≤ 3

/-- The channel moves to a state; PD_STAT.ZON follows a zone's switch. -/
def putChan (c st : Nat) (s : State) : State :=
  if c = 0 then setF s R.PD_STAT F.PD_STAT_FLD st
  else
    let bit : Fld := ⟨F.PD_STAT_ZON.lo + (c - 1), 1⟩
    setB (setF s (R.ZN_STAT (c - 1)) F.ZN_STAT_STATE st) R.PD_STAT bit (1 ≤ st && st ≤ 3)

/-- EN of a channel. -/
def chanEn (s : State) (c : Nat) : Bool :=
  if c = 0 then getB s R.FLD_CTL F.FLD_CTL_EN else getB s (R.ZN_CTL (c - 1)) F.ZN_CTL_EN

/-- The retries left of a channel; 31 means unlimited (R384). -/
def retriesLeft (s : State) (c : Nat) : Nat :=
  if c = 0 then getF s R.FLD_STAT2 F.FLD_STAT2_RLEFT else getF s (R.ZN_STAT (c - 1)) F.ZN_STAT_RLEFT

/-- The retries left of a channel are set. -/
def putRetries (c n : Nat) (s : State) : State :=
  if c = 0 then setF s R.FLD_STAT2 F.FLD_STAT2_RLEFT n else setF s (R.ZN_STAT (c - 1)) F.ZN_STAT_RLEFT n

/-- The retries that RETRY gives: 0 to 15, and an unlimited number from 16 on (R384). -/
def retryCount (s : State) (c : Nat) : Nat :=
  let r := if c = 0 then getF s R.FLD_TIM F.FLD_TIM_RETRY else getF s (R.ZN_CFG (c - 1)) F.ZN_CFG_RETRY
  if r < 16 then r else 31

/-- The retries of a channel are restored to RETRY (R384). -/
def restoreRetries (c : Nat) (s : State) : State :=
  onPower (fun p => { p with retried := tabSet (fun _ => false) p.retried c false }) (putRetries c (retryCount s c) s)

/-- FLD_PG is withdrawn (R385). -/
def dropPg (c : Nat) (s : State) : State := if c = 0 then setB s R.PD_STAT F.PD_STAT_PG false else s

/-- The channel goes to OFF without a trip. -/
def chanOff (c : Nat) (s : State) : State := putChan c 0 s

/-- PD_STAT.FEED: 0 NONE, 1 ON_A, 2 ON_B, 3 TO_A, 4 TO_B. -/
def feedState (s : State) : Nat := getF s R.PD_STAT F.PD_STAT_FEED

/-- A driven channel goes to OFF when the feed state is NONE, and the field rail's power-good with it (R383, R385). -/
def feedlessChan (c : Nat) (s : State) : State :=
  if driven s c ∧ feedState s = 0 then dropPg c (chanOff c s) else s

/-- Every channel after a change of the feed state, in the same tick (R373). -/
def feedlessAll (s : State) : State := (List.range 9).foldl (fun s c => feedlessChan c s) s

/-- A channel trips with a cause (1 FAST, 2 START, 3 FAULT, 4 THERM) after an on-time in microseconds (R383, R387). -/
def trip (c cause onTime : Nat) (s : State) : State :=
  let s := dropPg c (putChan c 4 s)
  let s := onPower (fun p => { p with therm := tabSet (fun _ => 0) p.therm c 0 }) s
  if c = 0 then
    let (t, s) := fitFree 24 onTime s
    let s := pdEvent F.PD_EVT_FLDTRIP (setF s R.FLD_STAT2 F.FLD_STAT2_ONTIME t)
    bump (ctr 0x0014 5 cause) (pdNotice 0xC1 cause s)
  else
    let s := pdEvent F.PD_EVT_ZNTRIP (setB s (R.ZN_STAT (c - 1)) F.ZN_STAT_TRIP true)
    let s := if cause = 4 then setB s (R.ZN_STAT (c - 1)) F.ZN_STAT_THERM true else s
    bump (ctr 0x0014 9 (8 * (c - 1) + cause)) (pdNotice 0xC3 ((c - 1) * 256 + cause) s)

/-- A thermal trip by the die's sensor (1) or the zone's own (2). -/
def tripHot (c sensor onTime : Nat) (s : State) : State :=
  if driven s c then
    onPower (fun p => { p with therm := tabSet (fun _ => 0) p.therm c sensor }) (trip c 4 onTime s)
  else s

/-- FLD_ENABLE (R383): at a tick with EN 1, a feed selected and BROWN 0, the channel enters RAMP. Retries that were never used
count from RETRY. -/
def execFldEnable (c : Fin 9) (s : State) : Host.Outcome State Fault Refusal :=
  if chanSt s c = 0 ∧ chanEn s c ∧ feedState s ≠ 0 ∧ ¬getB s R.PD_STAT F.PD_STAT_BROWN then
    let s := if tabGet (fun _ => false) s.power.retried c then s else putRetries c (retryCount s c) s
    .next (putChan c 1 s)
  else .next s

/-- FLD_DISABLE (R383): at a tick with EN 0 the channel goes to OFF; with the feed state NONE a driven one does, and its
power-good is withdrawn. -/
def execFldDisable (c : Fin 9) (s : State) : Host.Outcome State Fault Refusal :=
  .next (feedlessChan c (if chanEn s c then s else chanOff c s))

/-- FLD_START_TIMEOUT (R383, R387): the start timer of RAMP expires: a trip after that time. -/
def execFldStartTimeout (c : Fin 9) (s : State) : Host.Outcome State Fault Refusal :=
  if chanSt s c = 1 then .next (trip c 2 (1000 * max 1 (getF s R.FLD_TIM F.FLD_TIM_START)) s) else .next s

/-- FLD_FULLY_ON (R383): RAMP ends in ON, or in LIMIT when the channel is at limit in the same tick. -/
def execFldFullyOn (c : Fin 9) (atLimit : Bool) (s : State) : Host.Outcome State Fault Refusal :=
  if chanSt s c = 1 then .next (putChan c (if atLimit then 3 else 2) s) else .next s

/-- FLD_LIMIT_ENTER (R383): a channel in ON is at limit. -/
def execFldLimitEnter (c : Fin 9) (s : State) : Host.Outcome State Fault Refusal :=
  if chanSt s c = 2 then .next (putChan c 3 s) else .next s

/-- FLD_LIMIT_EXIT (R383, R393): the channel is below its limit again; the field rail's episode is counted and reported with its
length in microseconds. -/
def execFldLimitExit (c : Fin 9) (length : Nat) (s : State) : Host.Outcome State Fault Refusal :=
  if chanSt s c = 3 then
    let s := putChan c 2 s
    if c.val = 0 then
      let s := bump (ctr 0x0014 6 0) (pdEvent F.PD_EVT_FLDLIM s)
      .next (if clocked s then post (getF s R.PD_CTL F.PD_CTL_NTC_Q) 0x0014 0 0x82 (min 65535 length) s else s)
    else .next s
  else .next s

/-- FLD_FAULT_TIMEOUT (R383): the fault timer of LIMIT expires. -/
def execFldFaultTimeout (c : Fin 9) (onTime : Nat) (s : State) : Host.Outcome State Fault Refusal :=
  if chanSt s c = 3 then .next (trip c 3 onTime s) else .next s

/-- FAST_TRIP (R382, R387): the current exceeds 2 × ILIM in a state in which the gate is driven. -/
def execFastTrip (c : Fin 9) (onTime : Nat) (s : State) : Host.Outcome State Fault Refusal :=
  if driven s c then .next (trip c 1 onTime s) else .next s

/-- The channel may not leave COOL yet: it tripped on heat and its sensor has not fallen far enough (R379, R387). -/
def stillHot (s : State) (c : Nat) : Bool :=
  let k := tabGet (fun _ => 0) s.power.therm c
  (k = 1 && tabGet (fun _ => false) s.power.hot 0) || (k = 2 && tabGet (fun _ => false) s.power.hot c)

/-- COOL_DOWN_END (R383, R384): the cool-down is over, and the channel retries in RAMP, goes to OFF when EN is 0, or latches off
when no retries are left. -/
def execCoolDownEnd (c : Fin 9) (s : State) : Host.Outcome State Fault Refusal :=
  if chanSt s c ≠ 4 ∨ stillHot s c then .next s
  else if ¬chanEn s c then .next (chanOff c s)
  else
    let n := retriesLeft s c
    if n = 0 then
      let s := putChan c 5 s
      if c.val = 0 then .next (bump (ctr 0x0014 8 0) (pdNotice 0xC2 0 (pdEvent F.PD_EVT_FLDLATCH s)))
      else .next (pdNotice 0xC4 (c.val - 1) s)
    else
      let s := putRetries c (if n = 31 then 31 else n - 1) (putChan c 1 s)
      let s := onPower (fun p => { p with retried := tabSet (fun _ => false) p.retried c true }) s
      .next (feedlessChan c (if c.val = 0 then bump (ctr 0x0014 7 0) s else s))

/-- A CLR of a channel: a LATCHED one goes to OFF, and the retries are restored in any state (R383). -/
def clearChan (c : Nat) (s : State) : State :=
  restoreRetries c (if chanSt s c = 5 then chanOff c s else s)

/-- A write of FLD_CTL or ZNn_CTL: EN and NRST_OFF are taken, and CLR acts. -/
def writeChanCtl (c : Nat) (v : Word) (s : State) : State :=
  let s := plainWrite (if c = 0 then R.FLD_CTL else R.ZN_CTL (c - 1)) v s
  if F.FLD_CTL_CLR.get v = 1 then clearChan c s else s

/-- FLD_CLR (R383, R384): a write of FLD_CTL or ZNn_CTL with CLR 1. -/
def execFldClr (m : Master) (c : Fin 9) (v : Word) (s : State) : Host.Outcome State Fault Refusal :=
  .next (guardWrite m (if c.val = 0 then R.FLD_CTL else R.ZN_CTL (c.val - 1))
    (fun s => (writeChanCtl c (F.FLD_CTL_CLR.put v 1) s, none)) s)

/-- FLD_PG_ASSERT (R385): in ON with V(FLD_OUT), in 0.1 V, at RISE or above, FLD_PG is asserted with notice 0x03. -/
def execFldPgAssert (vout : Nat) (s : State) : Host.Outcome State Fault Refusal :=
  if chanSt s 0 = 2 ∧ getF s R.FLD_PGV F.FLD_PGV_RISE ≤ vout ∧ ¬getB s R.PD_STAT F.PD_STAT_PG then
    .next (pdNotice 0x03 0 (setB s R.PD_STAT F.PD_STAT_PG true))
  else .next s

/-- FLD_PG_FALL (R385): V(FLD_OUT) falls below FALL. -/
def execFldPgFall (vout : Nat) (s : State) : Host.Outcome State Fault Refusal :=
  if vout < getF s R.FLD_PGV F.FLD_PGV_FALL then .next (setB s R.PD_STAT F.PD_STAT_PG false) else .next s

/-- RETRY_RESTORE (R384): FLD_PG has been asserted for 1 s. -/
def execRetryRestore (s : State) : Host.Outcome State Fault Refusal :=
  if getB s R.PD_STAT F.PD_STAT_PG then .next (restoreRetries 0 s) else .next s

/-! The feed selector (R380, R381). Feed A is false and feed B true. -/

/-- The preferred feed. -/
def preferB (s : State) : Bool := getF s R.FEED_CFG F.FEED_CFG_MODE % 2 = 1

/-- The other feed may be raised. -/
def otherAllowed (s : State) : Bool := getF s R.FEED_CFG F.FEED_CFG_MODE < 2

/-- A feed's GFAULT bit. -/
def gfault (s : State) (b : Bool) : Bool :=
  if b then getB s R.PD_STAT F.PD_STAT_GFAULT_B else getB s R.PD_STAT F.PD_STAT_GFAULT_A

/-- The feed counts as qualified: with its gate faulted it does not (R381). -/
def feedOk (s : State) (b : Bool) : Bool :=
  (if b then getB s R.PD_STAT F.PD_STAT_B_OK else getB s R.PD_STAT F.PD_STAT_A_OK) && !gfault s b

/-- The selector goes to a state. -/
def putFeed (n : Nat) (s : State) : State := setF s R.PD_STAT F.PD_STAT_FEED n

/-- The selector goes to ON_x: the gate is raised, and the change is reported and counted by direction (R381). -/
def feedOn (b : Bool) (s : State) : State :=
  let n := if b then 2 else 1
  bump (ctr 0x0014 3 (bit1 b)) (pdNotice 0x02 n (pdEvent F.PD_EVT_FEEDSW (putFeed n s)))

/-- The selector's transition at a tick (R380, R381): the move to P after the hold time and the ends of a transfer are events of
their own. While a feed's GFAULT is latched the gate of the other is not raised. -/
def feedTick (s : State) : State :=
  let st := feedState s
  let p := preferB s
  if st = 0 then
    if s.power.gatesLow ∨ gfault s false ∨ gfault s true then s
    else if feedOk s p then feedOn p s
    else if otherAllowed s ∧ feedOk s (!p) then feedOn (!p) s
    else s
  else if st ≤ 2 then
    let x : Bool := st = 2
    if feedOk s x ∧ (x = p ∨ otherAllowed s) then s
    else if feedOk s (!x) ∧ (!x = p ∨ otherAllowed s) then putFeed (if x then 3 else 4) s
    else putFeed 0 s
  else
    if feedOk s (st = 4) then s else putFeed 0 s

/-- The selector over the ticks that follow an event, until it rests, with the channels in each (R373). -/
def feedSettle (s : State) : State := feedlessAll (feedTick (feedlessAll (feedTick s)))

/-- FEED_QUALIFIED (R380): a feed has stayed within its limits for QUAL. -/
def execFeedQualified (b : Bool) (s : State) : Host.Outcome State Fault Refusal :=
  .next (feedSettle (setB s R.PD_STAT (if b then F.PD_STAT_B_OK else F.PD_STAT_A_OK) true))

/-- FEED_DISQUALIFIED (R380): a feed has left its limits. -/
def execFeedDisqualified (b : Bool) (s : State) : Host.Outcome State Fault Refusal :=
  .next (feedSettle (setB s R.PD_STAT (if b then F.PD_STAT_B_OK else F.PD_STAT_A_OK) false))

/-- FEED_HOLD_EXPIRY (R380): in ON_Q, P has been qualified for HOLD, and the selector goes to TO_P. -/
def execFeedHoldExpiry (s : State) : Host.Outcome State Fault Refusal :=
  let p := preferB s
  if feedState s = (if p then 1 else 2) ∧ feedOk s p then .next (putFeed (if p then 4 else 3) s) else .next s

/-- FEED_TRANSFER_DONE (R380): the old gate is off and DEAD has passed. -/
def execFeedTransferDone (s : State) : Host.Outcome State Fault Refusal :=
  let st := feedState s
  if st = 3 ∨ st = 4 then .next (feedSettle (feedOn (st = 4) s)) else .next s

/-- GATE_FAULT (R380): the old gate is not off within 100 microseconds. -/
def execGateFault (s : State) : Host.Outcome State Fault Refusal :=
  let st := feedState s
  if st = 3 ∨ st = 4 then
    let oldB : Bool := st = 3
    let s := setB (putFeed 0 s) R.PD_STAT (if oldB then F.PD_STAT_GFAULT_B else F.PD_STAT_GFAULT_A) true
    let s := bump (ctr 0x0014 4 (bit1 oldB)) (pdNotice 0xC5 (bit1 oldB) (pdEvent F.PD_EVT_GFAULT s))
    .next (feedlessAll s)
  else .next s

/-! The window (R382, R385, R389 to R391). -/

/-- A write that the power die refuses: PD_EVT.CFGREF. -/
def pdRefuse (a : Nat) (v : Word) (s : State) : State := countPart a v (pdEvent F.PD_EVT_CFGREF s)

/-- The sense voltage at the limit, in nV, lies in 10 to 60 mV (R382). -/
def senseOk (ilim uohm : Nat) : Bool := 10000000 ≤ ilim * uohm && ilim * uohm ≤ 60000000

/-- A write breaks a rule of its register (R374, R382, R385). -/
def pdBreaks (s : State) (a : Nat) (v : Word) : Bool :=
  if a = R.SUP_CFG then F.SUP_CFG_WARN.get v < 60 || 400 < F.SUP_CFG_WARN.get v
  else if a = R.FLD_LIM then
    !senseOk (F.FLD_LIM_ILIM.get v) (getF s R.FLD_RSNS F.FLD_RSNS_UOHM) || 25000 < F.FLD_LIM_ILIM.get v || F.FLD_LIM_PMAX.get v = 0
  else if a = R.FLD_RSNS then !senseOk (getF s R.FLD_LIM F.FLD_LIM_ILIM) (F.FLD_RSNS_UOHM.get v)
  else if a = R.FLD_PGV then F.FLD_PGV_RISE.get v ≤ F.FLD_PGV_FALL.get v
  else false

/-- The register is frozen by LOCK; FEED_CFG but for its MODE (R391). -/
def pdFrozen (a : Nat) : Bool :=
  a = R.SUP_CFG || a = R.FEED_CFG || a = R.FEED_TIM || a = R.FLD_LIM || a = R.FLD_RSNS || a = R.FLD_TIM || a = R.FLD_PGV ||
  (List.range 8).any (fun n => a = R.ZN_CFG n)

/-- A write of FEED_CFG (R381, R391): with LOCK only MODE is taken, and a change of another field is refused. -/
def writeFeedCfg (v : Word) (s : State) : State :=
  let old := getReg s R.FEED_CFG
  let kept := F.FEED_CFG_MODE.put old (F.FEED_CFG_MODE.get v)
  if getB s R.PD_CTL F.PD_CTL_LOCK then
    let s := if fieldBits R.FEED_CFG v = kept then s else bump (ctr 0x0014 12 0) (pdRefuse R.FEED_CFG v s)
    feedSettle (setReg s R.FEED_CFG kept)
  else feedSettle (plainWrite R.FEED_CFG v s)

/-- A write of PD_CTL: NTC_Q, LOCK, and GFCLR, which clears both GFAULT bits (R381, R391). -/
def writePdCtl (v : Word) (s : State) : State :=
  let s := plainWrite R.PD_CTL v s
  if F.PD_CTL_GFCLR.get v = 1 then
    feedSettle (setB (setB s R.PD_STAT F.PD_STAT_GFAULT_A false) R.PD_STAT F.PD_STAT_GFAULT_B false)
  else s

/-- A write of one of the power die's configuration registers other than FEED_CFG. -/
def writePdCfg (a : Nat) (v : Word) (s : State) : State :=
  if getB s R.PD_CTL F.PD_CTL_LOCK ∧ pdFrozen a then bump (ctr 0x0014 12 0) (pdRefuse a v s)
  else if pdBreaks s a v then pdRefuse a v s
  else plainWrite a v s

/-- FEED_MODE_WRITE (R381): a write of FEED_CFG. -/
def execFeedModeWrite (m : Master) (v : Word) (s : State) : Host.Outcome State Fault Refusal :=
  .next (guardWrite m R.FEED_CFG (fun s => (writeFeedCfg v s, none)) s)

/-- GFCLR (R381): a write of PD_CTL with GFCLR 1. -/
def execGfclr (m : Master) (v : Word) (s : State) : Host.Outcome State Fault Refusal :=
  .next (guardWrite m R.PD_CTL (fun s => (writePdCtl (F.PD_CTL_GFCLR.put v 1) s, none)) s)

/-- PD_LOCK (R391): a write of PD_CTL with LOCK 1. -/
def execPdLock (m : Master) (v : Word) (s : State) : Host.Outcome State Fault Refusal :=
  .next (guardWrite m R.PD_CTL (fun s => (writePdCtl (F.PD_CTL_LOCK.put v 1) s, none)) s)

/-- The _LO address of a channel's energy accumulator. -/
def energyLo (c : Nat) : Nat := if c = 0 then R.PM_FLD_E_LO else R.PM_ZN_E_LO (c - 1)

/-- A commit of an energy accumulator (R389): performed only in STARTUP. -/
def commitEnergy (id : MasterId) (c : Nat) (v : Word) (s : State) : State :=
  if serviceMode s = 0 then commitWide id (energyLo c) 2 v s
  else setStage (pdEvent F.PD_EVT_CFGREF s) (energyLo c) none

/-- ENERGY_WRITE (R389): a write of an accumulator's _LO. -/
def execEnergyWrite (m : Master) (c : Fin 9) (v : Word) (s : State) : Host.Outcome State Fault Refusal :=
  .next (guardWrite m (energyLo c) (fun s => (commitEnergy (masterId s m) c v s, none)) s)

/-! Metering (R388). -/

/-- The sums of a meter channel: 0 the field pair (V(FLD_OUT) and field current), 1 + n zone n's (VZ and current), 9 the feeds
(VIN_A and VIN_B, with the node bus). -/
def meterSums (s : State) (c : Nat) : MeterSum := tabGet (fun _ => MeterSum.zero) s.power.sums c

/-- The state after a meter channel's sums are replaced. -/
def putSums (c : Nat) (m : MeterSum) (s : State) : State :=
  onPower (fun p => { p with sums := tabSet (fun _ => MeterSum.zero) p.sums c m }) s

/-- An accumulator after n units of 2^-16 J are added; 64 bits. -/
def addEnergy (c n : Nat) (s : State) : State :=
  let e := regs64 s (energyLo c) (energyLo c + 4) + n
  setReg (setReg s (energyLo c) (BitVec.ofNat 32 e)) (energyLo c + 4) (BitVec.ofNat 32 (e / 2 ^ 32))

/-- METER_SAMPLE (R388): the ADC takes a sample of a channel, in mV and mA; while the channel's gate is driven its energy grows by
V × I × Δt, in 2^-16 J, with 8,000 samples a second for the field rail and 1,000 for a zone. -/
def execMeterSample (c : Fin 10) (x y z : Nat) (s : State) : Host.Outcome State Fault Refusal :=
  let m := meterSums s c
  let s := putSums c { n := m.n + 1, x := m.x + x, y := m.y + y, xy := m.xy + x * y, z := m.z + z } s
  if c.val < 9 ∧ driven s c then
    let (e, s) := roundFree (x * y * 65536) (1000000 * (if c.val = 0 then 8000 else 1000)) s
    .next (addEnergy c e s)
  else .next s

/-- A field takes the average of n samples that add up to x, in units of d. -/
def publish (a : Nat) (f : Fld) (x n d : Nat) (s : State) : State :=
  if n = 0 then s
  else
    let (v, s) := roundFree x (n * d) s
    let (v, s) := fitFree f.width v s
    setF s a f v

/-- METER_PUBLISH (R388): the averages of the last complete millisecond. -/
def execMeterPublish (s : State) : Host.Outcome State Fault Refusal :=
  let f := meterSums s 0
  let s := publish R.PM_FLD_V F.PM_FLD_V_MV f.x f.n 1 s
  let s := publish R.PM_FLD_I F.PM_FLD_I_MA f.y f.n 1 s
  let s := publish R.PM_FLD_P F.PM_FLD_P_MW f.xy f.n 1000 s
  let s := publish R.FLD_STAT F.FLD_STAT_I f.y f.n 1 s
  let s := publish R.FLD_STAT F.FLD_STAT_VOUT f.x f.n 10 s
  let s := (List.range 8).foldl (fun s n =>
    let m := meterSums s (n + 1)
    let s := publish R.PM_VZ F.PM_VZ_MV m.x m.n 1 s
    let s := publish (R.PM_ZN_I n) F.PM_ZN_I_MA m.y m.n 1 s
    let s := publish (R.ZN_STAT n) F.ZN_STAT_I m.y m.n 1 s
    publish (R.PM_ZN_P n) F.PM_ZN_P_MW m.xy m.n 1000 s) s
  let g := meterSums s 9
  let s := publish R.FEED_V F.FEED_V_VA g.x g.n 1 s
  let s := publish R.FEED_V F.FEED_V_VB g.y g.n 1 s
  let s := publish R.SUP_VIN F.SUP_VIN_VIN g.z g.n 1 s
  .next (onPower (fun p => { p with sums := [] }) s)

/-! The supervisor and the junction temperature (R374 to R379). -/

/-- SUPPLY is latched in DPX_FAULT, by a digital die that runs (R367, R375, R378). -/
def latchSupply (s : State) : State := if clocked s then latchFault 2 s else s

/-- BROWN_OUT (R375): VIN, in 0.1 V, is below the warning level, and not below the reset level, which wins. Flash programs and erases are held while BROWN is 1. -/
def execBrownOut (vin : Nat) (s : State) : Host.Outcome State Fault Refusal :=
  if ¬getB s R.PD_STAT F.PD_STAT_BROWN ∧ 56 ≤ vin ∧ vin < getF s R.SUP_CFG F.SUP_CFG_WARN then
    let s := pdEvent F.PD_EVT_BROWN (setB s R.PD_STAT F.PD_STAT_BROWN true)
    let s := latchSupply (pdNotice 0x81 vin (bump (ctr 0x0014 0 0) s))
    .next (if clocked s then healthReport 3 s else s)
  else .next s

/-- ALL_CLEAR (R375): VIN, in 0.1 V, is at the warning level plus the hysteresis or above. What waited for the flash is
programmed (R430). -/
def execAllClear (vin : Nat) (s : State) : Host.Outcome State Fault Refusal :=
  if getB s R.PD_STAT F.PD_STAT_BROWN ∧ getF s R.SUP_CFG F.SUP_CFG_WARN + max 1 (getF s R.SUP_CFG F.SUP_CFG_HYST) ≤ vin then
    let s := pdEvent F.PD_EVT_ALLCLR (setB s R.PD_STAT F.PD_STAT_BROWN false)
    .next (releaseFlash (pdNotice 0x01 vin (bump (ctr 0x0014 1 0) s)))
  else .next s

/-- OVWARN (R374): VIN, in 0.1 V, is seen against the over-voltage levels: above 42.0 V it is reported once, until it has fallen below
41.5 V. -/
def execOvwarn (vin : Nat) (s : State) : Host.Outcome State Fault Refusal :=
  if vin < 415 then .next (onPower (fun p => { p with overVin := false }) s)
  else if vin ≤ 420 ∨ s.power.overVin then .next s
  else
    let s := onPower (fun p => { p with overVin := true }) s
    .next (pdNotice 0x83 0xFFFF (bump (ctr 0x0014 2 0) (pdEvent F.PD_EVT_OVWARN s)))

/-- A rail leaves its window (R378). -/
def railLeft (r : Nat) (s : State) : State :=
  let s := setReg s R.RAIL_STAT (getReg s R.RAIL_STAT ||| BitVec.ofNat 32 (2 ^ r))
  let s := bump (ctr 0x0014 11 r) (pdEvent F.PD_EVT_RAIL s)
  pdNotice 0x84 r (latchSupply s)

/-- RAIL_OUT_OF_TOLERANCE (R378): the set of rails outside their windows becomes `out`; each rail that was within its window until
now sets its bit, latches SUPPLY and is reported. -/
def execRailOutOfTolerance (out : BitVec 4) (s : State) : Host.Outcome State Fault Refusal :=
  let left := (List.range 4).filter (fun r => out.getLsbD r ∧ ¬s.power.outside.getLsbD r)
  let s := setB (onPower (fun p => { p with outside := out }) s) R.PD_STAT F.PD_STAT_RAILS_OK (out = 0 ∧ 4 ≤ s.power.ready)
  .next (left.foldl (fun s r => railLeft r s) s)

/-- A sensor's hysteresis: set at or above `hi`, cleared below `lo`, in 0.1 degrees. -/
def heat (k : Nat) (t lo hi : Int) (s : State) : State :=
  let was := tabGet (fun _ => false) s.power.hot k
  let now : Bool := if t ≥ hi then true else if t < lo then false else was
  onPower (fun p => { p with hot := tabSet (fun _ => false) p.hot k now }) s

/-- TEMP_MEASURE (R379, R387): the junction temperature, or a zone's own sensor, reads t, signed in 0.1 degrees. Reaching TWARN is
reported; at 135 degrees the field rail and every zone that is on trip, and at 160 a zone's own sensor trips it. -/
def execTempMeasure (zone : Option (Fin 8)) (t : BitVec 16) (onTime : Nat) (s : State) : Host.Outcome State Fault Refusal :=
  match zone with
  | some z =>
    let s := heat (z.val + 1) t.toInt 1400 1600 s
    if t.toInt ≥ 1600 ∧ driven s (z.val + 1) then
      .next (tripHot (z.val + 1) 2 onTime (bump (ctr 0x0014 10 0) (pdEvent F.PD_EVT_THERM s)))
    else .next s
  | none =>
    let before := signed 16 (getF s R.SUP_VIN F.SUP_VIN_TJ)
    let warn : Int := 10 * (getF s R.SUP_CFG F.SUP_CFG_TWARN : Nat)
    let s := heat 0 t.toInt 1200 1350 (setF s R.SUP_VIN F.SUP_VIN_TJ t.toNat)
    let s := if before < warn ∧ t.toInt ≥ warn then
        let (deg, s) := roundFree t.toNat 10 s
        pdNotice 0x83 deg (bump (ctr 0x0014 10 0) (pdEvent F.PD_EVT_THERM s))
      else s
    if t.toInt ≥ 1350 then
      let s := if (List.range 9).any (fun c => driven s c) then bump (ctr 0x0014 10 0) (pdEvent F.PD_EVT_THERM s) else s
      .next ((List.range 9).foldl (fun s c => tripHot c 1 onTime s) s)
    else .next s

/-! Resets as the power die sees them. -/

/-- The field rail and the zones are switched off without a trip (R377). -/
def channelsOff (s : State) : State := (List.range 9).foldl (fun s c => chanOff c s) s

/-- The power die at node reset (R386): a channel with NRST_OFF has its EN cleared and goes to OFF; everything else goes on. -/
def powerNodeReset (s : State) : State :=
  (List.range 9).foldl (fun s c =>
    let a := if c = 0 then R.FLD_CTL else R.ZN_CTL (c - 1)
    if getB s a F.FLD_CTL_NRST_OFF then chanOff c (setB s a F.FLD_CTL_EN false) else s) s

end Sys2Proof.Machine
end

