-- ==== Sys2Proof/Machine/Locks.lean ====
section
/-! DEFINITION. The locks of the bridge (R179 to R183): semaphores, the locked grant, and what breaks them. -/

namespace Sys2Proof.Machine

/-- The lock that a master ID holds. -/
def lockOf (s : State) (id : MasterId) : Option Lock := s.bridge.locks.find? (fun l => l.holder = id)

/-- The locked grant that stands (R150, R180). -/
def lockedGrant (s : State) : Option Lock := s.bridge.locks.find? (fun l => l.sem.isNone)

/-- A locked grant stands on the interconnect: its LOCK_READ's first piece has been granted (R150, R180). -/
def grantStands (s : State) : Bool := s.bridge.locks.any (fun l => l.sem.isNone && l.begun)

/-- ARB_STAT.LOCKED and the grant of requester 0 follow the locked grant: while it stands requester 0 holds the interconnect, and in the
cycle after it ends the interconnect is decided afresh (R150). -/
def showLock (s : State) : State :=
  let was := getB s R.ARB_STAT F.ARB_STAT_LOCKED
  let now := grantStands s
  let s := setB s R.ARB_STAT F.ARB_STAT_LOCKED now
  if now then showHolder (onArb (fun x => { x with holder := some 0 }) s)
  else if was then arbDecide (showHolder (onArb (fun x => { x with holder := none }) s))
  else s

/-- The lowest semaphore that is not bound. -/
def freeSemaphore (s : State) : Option Nat :=
  (List.range 64).find? (fun n => !s.bridge.locks.any (fun l => l.sem = some n))

/-- The first address a request covers. -/
def addrOf (e : Envelope) : Nat := e.addr.toNat

/-- The 4 KiB page of an address. -/
def pageOf (a : Nat) : Nat := a / 4096

/-- A lock on a page can be taken: no locked grant is taken, the page is not bound, and in NORMAL a semaphore is free (R180, R181). -/
def canLock (s : State) (page : Nat) : Bool :=
  (lockedGrant s).isNone && !s.bridge.locks.any (fun l => l.page = page) && (serviceMode s ≠ 1 || (freeSemaphore s).isSome)

/-- The lock of a LOCK_READ. Its method is that of the mode in force when the lock is taken, which for one that waited is the instant at
which its lock came free and not its arrival (R29, R180; DESIGN CHOICE, log entry 139). -/
def lockFor (r : Request) (s : State) : Lock :=
  { holder := r.id, page := pageOf (addrOf r.env), sem := if serviceMode s = 1 then freeSemaphore s else none, env := r.env, begun := false }

/-- A lock is taken. -/
def takeLock (l : Lock) (s : State) : State :=
  showLock (onBridge (fun b => { b with locks := b.locks ++ [l] }) s)

/-- The lock of a master ID's LOCK_READ begins with the grant of its first piece. -/
def beginLock (id : MasterId) (s : State) : State :=
  showLock (onBridge (fun b => { b with locks := b.locks.map (fun l => if l.holder = id then { l with begun := true } else l) }) s)

/-- The waiter that takes a lock released on a page: the oldest for that page, else the oldest whose page is free (R181). -/
def nextLocker (s : State) (page : Option Nat) : Option Request :=
  let can := s.bridge.waiters.filter (fun r => canLock s (pageOf (addrOf r.env)))
  (can.find? (fun r => page = some (pageOf (addrOf r.env)))).orElse (fun _ => can.head?)

/-- A lock released on a page passes to the waiter that takes it (R181). -/
def passLock (page : Option Nat) (s : State) : State :=
  match nextLocker s page with
  | none => s
  | some r =>
    takeLock (lockFor r s) (onBridge (fun b => { b with waiters := b.waiters.erase r, ready := b.ready ++ [r] }) s)

/-- A master ID's lock is released, and passes on at once to the waiter that takes it (R181). -/
def releaseLock (id : MasterId) (s : State) : State :=
  match lockOf s id with
  | none => s
  | some l =>
    passLock (l.sem.map (fun _ => l.page))
      (showLock (onBridge (fun b => { b with locks := b.locks.filter (fun l => l.holder ≠ id) }) s))

/-- A lock is broken: it is released, the break is counted, and the holder is sent an NDN LOCK_TIMEOUT with the LOCK_READ's tag and
address (R183). -/
def breakLock (l : Lock) (s : State) : State :=
  sendNdn Reason.lockTimeout.code 0 0 0 false l.env (bump (ctr 0x000A 7 0) (releaseLock l.holder s))

/-- The holder's UNLOCK_WRITE has had its first piece granted: it completes and releases normally (R183). -/
def unlocking (s : State) (id : MasterId) : Bool :=
  match s.bridge.current with
  | some c => c.id = id && c.env.kind = kUnlockWrite && 0 < c.done
  | none => false

/-- LOCK_TIMEOUT (R183): the lock that a master ID holds has not been released within BR_LOCKT of its LOCK_READ's first piece. -/
def execLockTimeout (holder : MasterId) (s : State) : Host.Outcome State Fault Refusal :=
  match lockOf s holder with
  | none => .next s
  | some l => if ¬l.begun ∨ unlocking s holder then .next s else .next (breakLock l s)

end Sys2Proof.Machine
end

