-- ==== Sys2Proof/Machine/Session.lean ====
section
/-! DEFINITION. What the monitor prints and answers (R463, R466, R467): text, MONITOR envelopes, and the end of a command at the
terminal or in a served session. The spec gives the format of no printed line, so a tunnelled OUTPUT line is a free value. -/

namespace Sys2Proof.Machine

/-! Text. -/

/-- ASCII codes of characters. -/
def asc (cs : List Char) : List Byte := cs.map (fun c => BitVec.ofNat 8 c.toNat)

/-- The name of a reason code (R192). -/
def reasonText : Reason → List Char
  | .unmapped => ['U', 'N', 'M', 'A', 'P', 'P', 'E', 'D']
  | .unaligned => ['U', 'N', 'A', 'L', 'I', 'G', 'N', 'E', 'D']
  | .readOnly => ['R', 'E', 'A', 'D', '_', 'O', 'N', 'L', 'Y']
  | .accessDenied => ['A', 'C', 'C', 'E', 'S', 'S', '_', 'D', 'E', 'N', 'I', 'E', 'D']
  | .notPresent => ['N', 'O', 'T', '_', 'P', 'R', 'E', 'S', 'E', 'N', 'T']
  | .claimRefused => ['C', 'L', 'A', 'I', 'M', '_', 'R', 'E', 'F', 'U', 'S', 'E', 'D']
  | .liTimeout => ['L', 'I', '_', 'T', 'I', 'M', 'E', 'O', 'U', 'T']
  | .poisoned => ['P', 'O', 'I', 'S', 'O', 'N', 'E', 'D']
  | .badRequest => ['B', 'A', 'D', '_', 'R', 'E', 'Q', 'U', 'E', 'S', 'T']
  | .splitPartial => ['S', 'P', 'L', 'I', 'T', '_', 'P', 'A', 'R', 'T', 'I', 'A', 'L']
  | .lockOrder => ['L', 'O', 'C', 'K', '_', 'O', 'R', 'D', 'E', 'R']
  | .lockTimeout => ['L', 'O', 'C', 'K', '_', 'T', 'I', 'M', 'E', 'O', 'U', 'T']
  | .busy => ['B', 'U', 'S', 'Y']
  | .noPrefetch => ['N', 'O', '_', 'P', 'R', 'E', 'F', 'E', 'T', 'C', 'H']
  | .busRefused => ['B', 'U', 'S', '_', 'R', 'E', 'F', 'U', 'S', 'E', 'D']
  | .noRoute => ['N', 'O', '_', 'R', 'O', 'U', 'T', 'E']
  | .timeout => ['T', 'I', 'M', 'E', 'O', 'U', 'T']

/-- The name that follows `err` (R463). -/
def errText : MonErr → List Byte
  | .reason r => asc (reasonText r)
  | .locked => asc ['L', 'O', 'C', 'K', 'E', 'D']
  | .badLine => asc ['S', 'Y', 'N', 'T', 'A', 'X']
  | .busy => asc ['B', 'U', 'S', 'Y']
  | .timeout => asc ['T', 'I', 'M', 'E', 'O', 'U', 'T']
  | .unstated v => [v]

/-- The 64-bit words of a text, zero-padded (R466). -/
def textWords (bs : List Byte) : List DWord :=
  (List.range (ceilDiv bs.length 8)).map (fun w => BitVec.ofNat 64 (leNat ((bs.drop (8 * w)).take 8)))

/-- The final line of a command, as words. -/
def resultText : MonResult → List Byte
  | .ok => asc ['o', 'k']
  | .err e => asc ['e', 'r', 'r', ' '] ++ errText e
  | .remote _ => []

/-! MONITOR envelopes (R466). -/

/-- A MONITOR envelope: TYPE is 0 OPEN, 1 LINE, 2 OUTPUT, 3 DONE or 4 CLOSE. -/
def monitorEnv (s : State) (dst session : BitVec 16) (seq typ : Nat) (text : List Byte) : Envelope :=
  let w0 : DWord := BitVec.ofNat 64 (session.toNat + seq % 65536 * 2 ^ 16 + typ * 2 ^ 32 + text.length % 256 * 2 ^ 36)
  build s 3 kMonitor false dst.toNat (getF s R.BR_HOPS F.BR_HOPS_HOPS) (w0 :: textWords text)

/-- SESSION of a MONITOR envelope. -/
def monSession (e : Envelope) : BitVec 16 := BitVec.ofNat 16 (payloadWord e 0).toNat

/-- TYPE of a MONITOR envelope. -/
def monType (e : Envelope) : Nat := bitsOf (payloadWord e 0).toNat 32 4

/-- The text of a MONITOR envelope: LEN bytes. -/
def monText (e : Envelope) : List Byte :=
  ((e.payload.drop 1).flatMap (fun w => leBytes 8 w.toNat)).take (bitsOf (payloadWord e 0).toNat 36 8)

/-- The SEQ of the next envelope in a list's session, and the list after it is sent. -/
def nextSeqOf (session node : BitVec 16) (l : List Session) : Nat × List Session :=
  (((l.find? (fun x => x.session = session && x.node = node)).map (fun x => x.seq)).getD 0,
    l.map (fun x => if x.session = session ∧ x.node = node then { x with seq := (x.seq + 1) % 65536 } else x))

/-- The hub answers in a session that it serves; in a pair only the active partner does, and a quarantined hub does not (R467). -/
def answerSession (session node : BitVec 16) (typ : Nat) (text : List Byte) (s : State) : State :=
  if quarantined s then s
  else if standbyHub s then bump (ctr 0x0013 0 kMonitor.toNat) s
  else
    let (seq, l) := nextSeqOf session node s.mon.served
    sendOrWait 6 none (monitorEnv s node session seq typ text) (onMon (fun m => { m with served := l }) s)

/-- n open bytes. -/
def freshBytes : Nat → State → List Byte × State
  | 0, s => ([], s)
  | n + 1, s =>
    let (b, s) := fresh 8 s
    let (bs, s) := freshBytes n s
    (b :: bs, s)

/-- n OUTPUT lines of open text, 0 to 248 characters each. -/
def answerLines (session node : BitVec 16) : Nat → State → State
  | 0, s => s
  | n + 1, s =>
    let (len, s) := fresh 8 s
    let (text, s) := freshBytes (len.toNat % 249) s
    answerLines session node n (answerSession session node 2 text s)

/-! Commands. -/

/-- A command of a terminal or a session starts. -/
def startCommand (who : MonAsker) (s : State) : State :=
  let s := bump (ctr 0x0019 2 0) s
  match who with
  | .terminal => onMon (fun m => { m with active := some who, printed := [], result := none }) s
  | .served _ _ => onMon (fun m => { m with active := some who }) s

/-- A session's LINE is answered: it is no longer outstanding. -/
def lineDone (session node : BitVec 16) (l : List Session) : List Session :=
  l.map (fun x => if x.session = session ∧ x.node = node then { x with busy := false } else x)

/-- The command under way ends: the values are printed, in `lines` lines or in an open number of them, and the final line follows. A
command that has reset the node ends nothing. -/
def endCommand (lines : Option Nat) (vals : List DWord) (r : MonResult) (s : State) : State :=
  match s.mon.active with
  | none => s
  | some .terminal => onMon (fun m => { m with active := none, printed := vals, result := some r }) s
  | some (.served session node) =>
    let (n, s) := match lines with
      | some n => (n, s)
      | none => if vals = [] then (0, s) else (let (v, s) := fresh 8 s; (v.toNat, s))
    let s := answerSession session node 3 (resultText r) (answerLines session node n s)
    onMon (fun m => { m with active := none, served := lineDone session node m.served }) s

/-- A test has ended: the monitor's `bist` command that waits for it prints the outcome (R465). -/
def monBistDone (s : State) : State := endCommand none [(getReg s R.BIST_STAT).zeroExtend 64] .ok s

end Sys2Proof.Machine
end

