-- ==== Sys2Proof/Machine/Bist.lean ====
section
/-! DEFINITION. Parity errors, buckets, the scrubber and self-test (chapter 16). Counters of CAP 0x0016: 0 tests per target kind
(0 bank, 1 spare, 2 cluster, 3 image, 4 message RAM, 5 waymark RAM, 6 pigeonhole pool, 7 bridge, 8 scheduler, 9 scratch), 1
passes, 2 failures, 3 refusals, 4 banks retired, 5 banks drained, 6 DMA records missed by cluster, 7 bridge requests discarded. -/

namespace Sys2Proof.Machine

/-- The integrity units after a change. -/
def onInteg (f : IntegrityState → IntegrityState) (s : State) : State := { s with integrity := f s.integrity }

/-! Parity errors (R394, R398). -/

/-- The small table that a register address belongs to: the CAP_ID and instance of its block (R394). -/
def smallTable (a : Nat) : Option (Nat × Nat) :=
  match findReg a with
  | none => none
  | some (r, i, _) =>
    if r.base = R.TT_ENT_W0 0 0 ∨ r.base = R.TT_ENT_W1 0 0 ∨ r.base = R.TT_ENT_W2 0 0 ∨ r.base = R.TT_ENT_W3 0 0 then some (0x000F, 0)
    else if r.base = R.GW_MAP_A 0 ∨ r.base = R.GW_MAP_B 0 then some (0x0004, 8)
    else if r.base = R.AT_W0 0 0 ∨ r.base = R.AT_W1 0 0 ∨ r.base = R.AT_W2 0 0 then some (0x001A, 0)
    else if r.base = R.MB_TRIG_A 0 0 ∨ r.base = R.MB_TRIG_B 0 0 then some (0x0004, i)
    else if r.base = R.RT_BND 0 then some (0x000E, 0)
    else none

/-- The register that holds a register-file word of engine n. -/
def regFileAddr (n r : Nat) : Nat := if r = 0 then rX n else if r = 1 then rY n else if r = 2 then rIsr n else rOsr n

/-- A register word's stored parity is wrong until it is rewritten. -/
def markBad (a : Nat) (s : State) : State :=
  if badWord s a then s else onInteg (fun i => { i with badWords := a :: i.badWords }) s

/-- A store error at an address (R401): the third one between node resets makes Henmos leave the cluster in FAULT, with notice 0x83. -/
def noteStoreError (k a : Nat) (s : State) : State :=
  let n := (s.integrity.storeErrors.filter (fun x => x = a)).length
  let s := onInteg (fun i => { i with storeErrors := if n < 3 then a :: i.storeErrors else i.storeErrors }) s
  if n = 2 then miNotice 0 0x83 k s else s

/-- PARITY_ERROR (R89, R90, R394, R398). A store faults its cluster when an engine fetches the word, a TX FIFO word the engine whose
instruction takes it, which leaves it in the FIFO (DESIGN CHOICE, log entry 131); a register word is latent until an instruction or
software reads it. A small-table word reads poisoned to its consumers until it is rewritten; a semaphore's lock is broken. -/
def execParityError (p : ParityPlace) (s : State) : Host.Outcome State Fault Refusal :=
  match p with
  | .store e =>
    let k := e.val / 4
    let a := 0x30400 + 0x1000 * k + 2 * getF s (rPc e) F.SCR_PC_VAL
    if fetchDue s e then .next (noteStoreError k a (parityRecord 8 0x0003 k a (storeParity e s)))
    else .next s
  | .fifo e =>
    let k := e.val / 4
    match (if clockDue s e then nextInstr s e else none) with
    | some (l, t) =>
      if readsTx s e l.word then .next (parityRecord 9 0x0003 k (R.SCR_TXF k (e.val % 4)) (enterFault e 5 (useClock e t))) else .next s
    | none => .next s
  | .regFile e r => .next (markBad (regFileAddr e r) s)
  | .table a =>
    match smallTable a.toNat with
    | none => .next s
    | some (cap, inst) =>
      .next (parityRecord 11 cap inst a.toNat (markBad a.toNat s))
  | .semaphore n =>
    match s.bridge.locks.find? (fun l => l.sem = some n.val) with
    | none => .next s
    | some l => .next (parityRecord 11 0x000A 0 (R.BR_SEM_A n) (breakLock l s))

/-! Buckets (R399). -/

/-- BUCKET_LEAK (R399): LEAK milliseconds have passed for a class. -/
def execBucketLeak (c : Fin 7) (s : State) : Host.Outcome State Fault Refusal :=
  let lvl := getF s (R.MI_LB_STAT c) F.MI_LB_STAT_LEVEL - 1
  let s := setF s (R.MI_LB_STAT c) F.MI_LB_STAT_LEVEL lvl
  if lvl ≤ getF s (R.MI_LB_CFG c) F.MI_LB_CFG_THRESH / 2 then
    .next (onInteg (fun i => { i with reported := tabSet (fun _ => false) i.reported c false }) s)
  else .next s

/-! The scrubber (R400, R401). -/

/-- The words of a class: the spare bank is walked with the oasis buffer while it is unused (R394, R400). -/
def classWords (s : State) (c : Nat) : Nat :=
  if c = 0 then 65536 else if c = 1 then 8192 else if c = 2 ∨ c = 3 ∨ c = 5 then 16384
  else if c = 4 then (if s.integrity.spareFor.isNone then 270336 else 262144) else 2048

/-- The address of word n of a class: the local address, or the scratch offset. The management SRAM, the pigeonhole pool and the
spare bank have no local address that the spec states: a free value. -/
def classAddr (c n : Nat) (s : State) : Nat × State :=
  if c = 1 then (0x200000 + 8 * n, s)
  else if c = 2 then (0x300000 + 8 * n, s)
  else if c = 3 then (0x100000 + 8 * n, s)
  else if c = 4 ∧ n < 262144 then (0x1000000 + 8 * n, s)
  else if c = 6 then (8 * n, s)
  else let (a, s) := fresh 32 s; (a.toNat, s)

/-- Where the model keeps the poison mark of word n of a class: the local address, or a place of its own for a memory that has
none. -/
def markPlace (c n : Nat) : Nat :=
  if c = 1 then 0x200000 + 8 * n
  else if c = 2 then 0x300000 + 8 * n
  else if c = 3 then 0x100000 + 8 * n
  else if c = 4 ∧ n < 262144 then 0x1000000 + 8 * n
  else 2 ^ 36 + 2 ^ 24 * c + 8 * n

/-- The range of a class that a redirected segment covers: first word and one past the last (R403). -/
def segmentWords (t : Nat) : Nat × Nat × Nat :=
  if 0x50 ≤ t ∧ t < 0x54 then (1, 2048 * (t - 0x50), 2048 * (t - 0x50) + 2048)
  else if 0x58 ≤ t ∧ t < 0x60 then (3, 2048 * (t - 0x58), 2048 * (t - 0x58) + 2048)
  else if 0x60 ≤ t ∧ t < 0x68 then (2, 2048 * (t - 0x60), 2048 * (t - 0x60) + 2048)
  else (5, 2048 * (t - 0x68), 2048 * (t - 0x68) + 2048)

/-- BIST holds the word: it lies in a segment that the scratch serves, in an offline bank, or in the scratch while that serves a
segment (R400, R407, R408). -/
def bistHolds (s : State) (c n : Nat) : Bool :=
  (match s.integrity.segment with
    | some t => let (k, lo, hi) := segmentWords t; (k = c && lo ≤ n && n < hi) || c = 6
    | none => false) ||
  (c = 6 && underTest s 0x72) ||
  (c = 4 && match s.integrity.test with
    | some t =>
      (t < 32 && n / 8192 = t && s.integrity.offline) || (t = 0x20 && n / 8192 = 32)
    | none => false)

/-- A lap's time in microseconds is shown, and the longest one kept (R400). -/
def showLap (c us : Nat) (s : State) : State :=
  let s := setReg s (R.MI_LAP c) (BitVec.ofNat 32 us)
  if getF s (R.MI_LAP_MAX c) F.MI_LAP_MAX_MAX < us then setReg s (R.MI_LAP_MAX c) (BitVec.ofNat 32 us) else s

/-- FCLK cycles since a class's lap started. -/
def lapTicks (c : Nat) (s : State) : Nat := (s.time.ltick + 2 ^ 64 - tabGet (fun _ => 0) s.integrity.lapFrom c) % 2 ^ 64

/-- The microseconds of a lap, rounded and fitted to the register with open values (log entry 44). -/
def lapTime (c : Nat) (s : State) : Nat × State :=
  let r := roundFree (lapTicks c s * 16) 5000 s
  fitFree 32 r.1 r.2

/-- A lap of a class ends: LAST, and MAX where LAST exceeds it (R401). -/
def endLap (c : Nat) (s : State) : State :=
  let r := lapTime c s
  let s := showLap c r.1 r.2
  bump (ctr 0x0015 3 c) (onInteg (fun i => { i with lapFrom := tabSet (fun _ => 0) i.lapFrom c s.time.ltick }) s)

/-- SCRUB_WORD (R400, R401): the scrubber reads the next word of a class. -/
def execScrubWord (c : Fin 7) (found : Found) (s : State) : Host.Outcome State Fault Refusal :=
  if ¬bitOf (getF s R.MI_CTL F.MI_CTL_SCRUB) c then .next s
  else
    let n := tabGet (fun _ => 0) s.integrity.scrubAt c
    let s :=
      if bistHolds s c n ∨ poisoned s (markPlace c n) then s
      else match found with
        | .clean => s
        | .correctable =>
          let (a, s) := classAddr c n s
          onInteg (fun i => { i with writeBack := tabSet (fun _ => none) i.writeBack c (some n) }) (correctedWord c a s)
        | .uncorrectable =>
          let (a, s) := classAddr c n s
          freshError c a (markPlace c n) s
    let last := classWords s c ≤ n + 1
    let s := onInteg (fun i => { i with scrubAt := tabSet (fun _ => 0) i.scrubAt c (if last then 0 else n + 1) }) s
    .next (if last then endLap c s else s)

/-- SCRUB_WRITEBACK (R400): the corrected word is written back, or the write-back is abandoned when another write to the word came
first. -/
def execScrubWriteback (c : Fin 7) (otherWrite : Bool) (s : State) : Host.Outcome State Fault Refusal :=
  if (tabGet (fun _ => none) s.integrity.writeBack c).isNone then .next s
  else
    let s := onInteg (fun i => { i with writeBack := tabSet (fun _ => none) i.writeBack c none }) s
    .next (if otherWrite then bump (ctr 0x0015 4 c) s else s)

/-! Self-test (R402 to R410). -/

/-- The unit's notices, to queue 0 (R411). -/
def bistNotice (code arg : Nat) (s : State) : State := postOnce 0 0x0016 0 code arg s

/-- The kind of a target as the counters name it; none for a reserved code (R403). -/
def targetKind (t : Nat) : Option Nat :=
  if t < 0x20 then some 0 else if t = 0x20 then some 1 else if 0x40 ≤ t ∧ t < 0x50 then some 2
  else if 0x50 ≤ t ∧ t < 0x54 then some 3 else if 0x58 ≤ t ∧ t < 0x60 then some 4 else if 0x60 ≤ t ∧ t < 0x68 then some 5
  else if 0x68 ≤ t ∧ t < 0x70 then some 6 else if t = 0x70 then some 7 else if t = 0x71 then some 8
  else if t = 0x72 then some 9 else none

/-- An engine is RUNNING or STALLED. R404 admits a cluster test with every engine IDLE or in FAULT, where the text under R98 asks for IDLE:
the rule is followed (DESIGN CHOICE, log entry 138). -/
def engineBusy (s : State) (n : Nat) : Bool := engState s n = 1 || engState s n = 2

/-- The target is tested by redirection to the scratch (R407). -/
def redirected (t : Nat) : Bool := 0x50 ≤ t && t < 0x70

/-- A failed segment is served from the scratch (R407). -/
def segmentHeld (s : State) : Bool := getB s R.BIST_STAT F.BIST_STAT_HELD

/-- The test of a target is refused (R404, R407), leaving aside whether another test runs. -/
def targetRefused (s : State) (t : Nat) : Bool :=
  (targetKind t).isNone ||
  (((0x40 ≤ t && t < 0x50) || t = 0x70 || t = 0x71) && serviceMode s ≠ 3) ||
  (0x40 ≤ t && t < 0x50 && (List.range 4).any (fun i => engineBusy s (4 * (t - 0x40) + i))) ||
  (t < 0x20 && t ∈ s.integrity.retired) || (t = 0x20 && s.integrity.spareFor.isSome) ||
  (t = 0x70 && s.bridge.locks ≠ []) || (redirected t && segmentHeld s)

/-- The pins of cluster k follow its drivers: its window covers two banks (R41, R406). -/
def refreshCluster (k : Nat) (s : State) : State := refreshBank ((k + 1) % 16) (refreshBank k s)

/-- BIST_STAT's PHASE. -/
def setPhase (n : Nat) (s : State) : State := setF s R.BIST_STAT F.BIST_STAT_PHASE n

/-- The test of a target starts: banks and segments with the copy of phase 1 (a bank without a spare drains first), the others at
once (R405 to R407). -/
def startTest (t : Nat) (self : Bool) (s : State) : State :=
  let s := bump (ctr 0x0016 0 ((targetKind t).getD 0)) s
  let s := setF s R.BIST_STAT F.BIST_STAT_STATE 1
  let s := if segmentHeld s then s else setF s R.BIST_STAT F.BIST_STAT_LTARGET t
  let drains := t < 0x20 ∧ s.integrity.spareFor.isSome
  let s := setPhase (if (t < 0x20 ∧ ¬drains) ∨ redirected t then 1 else 0) s
  let s := onInteg (fun i => { i with test := some t, selfTest := self, draining := drains }) s
  if 0x40 ≤ t ∧ t < 0x50 then refreshCluster (t - 0x40) s else s

/-- A command starts the test of TARGET, waits for the self-test's present target, or is refused (R404), as every one is during a
handover (R438). -/
def bistCommand (t : Nat) (s : State) : State :=
  if targetRefused s t ∨ (s.integrity.test.isSome ∧ ¬s.integrity.selfTest) ∨ s.integrity.queued.isSome ∨ s.upd.handover.isSome then
    bump (ctr 0x0016 3 0) (setB s R.BIST_STAT F.BIST_STAT_CFGREF true)
  else if s.integrity.test.isSome then onInteg (fun i => { i with queued := some t }) s
  else startTest t false s

/-- A write of BIST_CMD. -/
def writeBistCmd (v : Word) (s : State) : State :=
  let s := plainWrite R.BIST_CMD v s
  if F.BIST_CMD_GO.get v = 1 then bistCommand (F.BIST_CMD_TARGET.get v) s else s

/-- BIST_GO (R404): a write of BIST_CMD with GO 1. -/
def execBistGo (m : Master) (v : Word) (s : State) : Host.Outcome State Fault Refusal :=
  .next (guardWrite m R.BIST_CMD (fun s => (writeBistCmd (F.BIST_CMD_GO.put v 1) s, none)) s)

/-- BIST_COPY_DONE (R405, R407): the copy ends and the target is switched out of service: the spare serves the bank, or the scratch
the segment. -/
def execBistCopyDone (s : State) : Host.Outcome State Fault Refusal :=
  match s.integrity.test with
  | none => .next s
  | some t =>
    if getF s R.BIST_STAT F.BIST_STAT_PHASE ≠ 1 then .next s
    else if t < 0x20 then
      .next (setPhase 3 (onInteg (fun i => { i with spareFor := some t, offline := true }) s))
    else .next (setPhase 3 (onInteg (fun i => { i with segment := some t }) s))

/-- The capacity falls by a bank without a spare: the internal pool gives the cells down to 1,024, and the Bulk reservations of the
three ports give the rest in equal shares, rounded up (R214). -/
def loseBank (s : State) : State :=
  let cells := getF s R.SO_CAP F.SO_CAP_CELLS - 1024
  let rest := reserved s + schedPool s + 1024 - cells
  let share := ceilDiv rest 3
  let t := setF s R.SO_CAP F.SO_CAP_CELLS cells
  let t := (List.range 3).foldl (fun t p => setF t (R.SO_RES_B p) F.SO_RES_B_BULK (getF t (R.SO_RES_B p) F.SO_RES_B_BULK - share)) t
  onInteg (fun i => { i with bulkCut := i.bulkCut + share }) (moveCredit s t)

/-- The capacity that a drained bank withheld returns (R405). -/
def regainBank (s : State) : State :=
  let share := s.integrity.bulkCut
  let t := setF s R.SO_CAP F.SO_CAP_CELLS (getF s R.SO_CAP F.SO_CAP_CELLS + 1024)
  let t := (List.range 3).foldl (fun t p => setF t (R.SO_RES_B p) F.SO_RES_B_BULK (getF t (R.SO_RES_B p) F.SO_RES_B_BULK + share)) t
  onInteg (fun i => { i with bulkCut := 0 }) (moveCredit s t)

/-- BIST_BANK_DRAINED (R405): with no spare left, every cell of the bank is free: the bank goes offline and its capacity is
withheld. -/
def execBistBankDrained (s : State) : Host.Outcome State Fault Refusal :=
  if s.integrity.draining ∧ ¬s.integrity.offline ∧ ¬(usedCells s).any (fun c => some (c / 1024) = s.integrity.test) then
    .next (setPhase 3 (bump (ctr 0x0016 5 0) (loseBank (onInteg (fun i => { i with offline := true }) s))))
  else .next s

/-- BIST latches BIST in DPX_FAULT while duplex is enabled (R410). -/
def latchBist (s : State) : State := if dpxOn s then latchFault 3 s else s

/-- A singleton's flag is raised (R410). -/
def raiseSingleton (f : Fld) (s : State) : State :=
  latchBist (bistNotice 0xC3 f.lo (setB s R.BIST_FLAGS f true))

/-- A bank fails and is retired (R214, R405, R410). -/
def retireBank (b : Nat) (s : State) : State :=
  let s := setF s R.SO_CAP F.SO_CAP_RETIRED (getF s R.SO_CAP F.SO_CAP_RETIRED + 1)
  let s := bump (ctr 0x0016 4 0) (onInteg (fun i => { i with retired := b :: i.retired }) s)
  let s := bistNotice 0xC2 b s
  if s.integrity.draining then
    let s := onInteg (fun i => { i with bulkCut := 0 }) s
    latchBist (soNotice 0x84 (getF s R.SO_CAP F.SO_CAP_CELLS / 16) (setB s R.SO_EVT F.SO_EVT_POOLCUT true))
  else setB s R.SO_CAP F.SO_CAP_SPARE false

/-- A register takes a free value in a field: what a failed cluster test leaves in the cluster's state is not stated (R406). -/
def scrambleField (a : Nat) (f : Fld) (s : State) : State := let (v, s) := fresh f.width s; setF s a f v.toNat

/-- A register takes a free value. -/
def scrambleReg (a : Nat) (s : State) : State := let (v, s) := fresh 32 s; setReg s a v

/-- A list of FIFO words takes free values. -/
def scrambleWords : Nat → State → List Word × State
  | 0, s => ([], s)
  | n + 1, s =>
    let (v, s) := fresh 32 s
    let (vs, s) := scrambleWords n s
    (v :: vs, s)

/-- An engine's state after a failed test: X, Y, ISR, OSR, PC and the FIFO words are free values. -/
def scrambleEngine (n : Nat) (s : State) : State :=
  let s := scrambleReg (rOsr n) (scrambleReg (rIsr n) (scrambleReg (rY n) (scrambleReg (rX n) s)))
  let s := scrambleField (rPc n) F.SCR_PC_VAL s
  let (tx, s) := scrambleWords (getEng s n).tx.length s
  let (rx, s) := scrambleWords (getEng s n).rx.length s
  onEng n (fun e => { e with tx := tx.map (fun w => (w, false)), rx := rx }) s

/-- A cluster's state after a failed test: its engines, pin words, flags and store are free values. -/
def scrambleCluster (k : Nat) (s : State) : State :=
  let s := (List.range 4).foldl (fun s i => scrambleEngine (4 * k + i) s) s
  let s := scrambleField (R.SCR_FLAGS k) F.SCR_FLAGS_FLAG (scrambleReg (R.SCR_PDIR k) (scrambleReg (R.SCR_POUT k) s))
  (List.range 32).foldl (fun s i =>
    let (w, s) := fresh 16 s
    onScribe (fun x => { x with store := tabSet (fun _ => 0) x.store (32 * k + i) w }) s) s

/-- The end of a target: no test runs, and a waiting command or the standby's next target starts (R371, R404). -/
def endTest (s : State) : State :=
  let next := (getF s R.BIST_AUTO F.BIST_AUTO_NEXT + 1) % 33
  let s := if s.integrity.selfTest then setF s R.BIST_AUTO F.BIST_AUTO_NEXT next else s
  let q := s.integrity.queued
  let s := setPhase 0 (onInteg (fun i => { i with test := none, selfTest := false, queued := none, draining := false, offline := false }) s)
  match q with
  | some t => bistCommand t s
  | none => selfTestKick s

/-- The verdict: STATE, the notice and the counters; the self-test counts its own too (R371, R404). -/
def verdict (t : Nat) (pass : Bool) (s : State) : State :=
  let s := setF s R.BIST_STAT F.BIST_STAT_STATE (if pass then 2 else 3)
  let s := bump (ctr 0x0016 (if pass then 1 else 2) 0) (bistNotice (if pass then 0x01 else 0xC1) t s)
  if s.integrity.selfTest then bump (ctr 0x0013 (if pass then 13 else 14) 0) s else monBistDone s

/-- What a failed test does to its target (R405 to R407, R410). -/
def failTarget (t : Nat) (s : State) : State :=
  if t < 0x20 then retireBank t s
  else if 0x40 ≤ t ∧ t < 0x50 then
    let k := t - 0x40
    latchBist (setB (scrambleCluster k s) (R.SCR_CSTAT k) F.SCR_CSTAT_UNUSABLE true)
  else if redirected t then setF (setB s R.BIST_STAT F.BIST_STAT_HELD true) R.BIST_STAT F.BIST_STAT_LTARGET t
  else if t = 0x70 then raiseSingleton F.BIST_FLAGS_BR s
  else if t = 0x71 then raiseSingleton F.BIST_FLAGS_WM s
  else s

/-- BIST_TEST_DONE (R402, R404): the test of the target ends in PASS or FAIL. A logic test leaves its MISR, a failed one its first
failing word. A bank or segment that passed goes on to its return. -/
def execBistTestDone (pass : Bool) (faddr misr : Word) (s : State) : Host.Outcome State Fault Refusal :=
  match s.integrity.test with
  | none => .next s
  | some t =>
    let ready := if t < 0x20 ∨ redirected t then getF s R.BIST_STAT F.BIST_STAT_PHASE = 3 else True
    if ¬ready then .next s
    else
      let logic := (0x40 ≤ t ∧ t < 0x50) ∨ t = 0x70 ∨ t = 0x71
      let s := if logic then setReg s R.BIST_MISR misr else s
      let s := if pass ∨ t = 0x70 ∨ t = 0x71 then s else setReg s R.BIST_FADDR faddr
      let s := verdict t pass s
      if pass then
        if (t < 0x20 ∧ ¬s.integrity.draining) ∨ redirected t then .next (setPhase 4 s)
        else if t < 0x20 then .next (endTest (regainBank s))
        else if 0x40 ≤ t ∧ t < 0x50 then
          let k := t - 0x40
          .next (refreshCluster k (endTest (setB s (R.SCR_CSTAT k) F.SCR_CSTAT_UNUSABLE false)))
        else .next (endTest s)
      else
        let s := endTest (failTarget t s)
        .next (if 0x40 ≤ t ∧ t < 0x50 then refreshCluster (t - 0x40) s else s)

/-- BIST_RETURN_DONE (R405, R407): the copy back completes, and the target serves again. -/
def execBistReturnDone (s : State) : Host.Outcome State Fault Refusal :=
  match s.integrity.test with
  | none => .next s
  | some t =>
    if getF s R.BIST_STAT F.BIST_STAT_PHASE ≠ 4 then .next s
    else if t < 0x20 then .next (endTest (onInteg (fun i => { i with spareFor := none }) s))
    else .next (endTest (onInteg (fun i => { i with segment := none }) s))

end Sys2Proof.Machine
end

