-- ==== Sys2Proof/Machine/Reset.lean ====
section
/-! DEFINITION. Node reset and cold start (R30 to R34, R376 to R378, R495): what each of them resets and what it keeps. -/

namespace Sys2Proof.Machine

/-! What node reset keeps (R30, R495). -/

/-- The bits of a register that fields with access code RWS cover (R5). -/
def rwsBits (a : Nat) : Word :=
  match findReg a with
  | some (r, _, _) => namedBits (r.fields.filter (fun f => f.acc = .rws))
  | none => 0

/-- Fields that say what was found out since cold start: retired banks, straps, supply classes and cluster verdicts. A supply fault is
judged against the class that BANK_CFG expects, which node reset clears, so VFAULT is not among them (R37). -/
def foundBits (a : Nat) : Word :=
  if a = R.SO_CAP then 0xFFFFFFFF
  else if a = R.CN_STAT then F.CN_STAT_ELIG.mask
  else if a = R.DPX_STAT then F.DPX_STAT_ROLE.mask
  else if a = R.UPD_BOOT then F.UPD_BOOT_MODE.mask
  else if a = R.MON_STAT then F.MON_STAT_STRAP.mask
  else if 0x30000 ≤ a ∧ a < 0x40000 ∧ a % 0x1000 = 8 then F.SCR_CSTAT_UNUSABLE.mask
  else if 0x20000 ≤ a ∧ a < 0x21000 ∧ a % 0x10 = 8 then F.PIN_STAT_EVER_DRV.mask
  else if 0x21000 ≤ a ∧ a < 0x21400 ∧ a % 0x40 = 4 then
    F.BANK_STAT_VLEVEL.mask ||| F.BANK_STAT_PULL_STRAP.mask
  else 0

/-- The bits of a register that node reset keeps: the power die's and the fuses' registers whole, but for the hub's own NTC_Q of PD_CTL, RWS
fields, and what was found out since cold start (R30, R391). -/
def keptBits (a : Nat) : Word :=
  if a = R.PD_CTL then F.PD_CTL_LOCK.mask
  else if a < 0x1000 ∨ (0xD0000 ≤ a ∧ a < 0xE0000) then 0xFFFFFFFF else rwsBits a ||| foundBits a

/-- A register's word after node reset. -/
def keptWord (a : Nat) (w : Word) : Word := (w &&& keptBits a) ||| (resetWord a &&& ~~~(keptBits a))

/-- The register file after node reset. -/
def keptRegs (t : Table Word) : Table Word :=
  (t.map (fun e => (e.1, keptWord e.1 e.2))).filter (fun e => e.2 ≠ resetWord e.1)

/-- A byte of the waymark RAM that holds EN, bit 0 of word 2 of an entry (R332). -/
def isWmEn (a : Nat) : Bool := 0x300000 ≤ a && a < 0x320000 && a % 32 = 8

/-- The memories after node reset: EN is cleared in every waymark entry, and everything else is kept (R495). -/
def keptMem (t : List Host.Cell) : List Host.Cell :=
  (t.map (fun e => (e.1, if isWmEn e.1 then e.2 &&& 0xFE else e.2))).filter (fun e => e.2 ≠ memDefault e.1)

/-- The nets of the field pins: the keepers hold them (R31). -/
def keptField (f : FieldState) : FieldState :=
  { FieldState.reset with
    pins := (f.pins.map (fun e => (e.1, { Pin.reset with net := e.2.net }))).filter (fun e => e.2 ≠ Pin.reset),
    banks := (f.banks.map (fun e => (e.1, { Bank.reset with strapped := e.2.strapped, valid := e.2.valid }))).filter (fun e => e.2 ≠ Bank.reset) }

/-- The digital die after node reset (R30): registers, FIFOs and slices return to their reset values but for what is kept. -/
def resetDigital (s : State) : State :=
  { State.reset with
    pending := s.pending,
    regs := keptRegs s.regs,
    mem := keptMem s.mem,
    poison := s.poison,
    office := { OfficeState.reset with words := s.office.words },
    node := { NodeState.reset with
      resetL := s.node.resetL, clkHold := s.node.clkHold, freeCount := s.node.freeCount, jtag := s.node.jtag },
    mon := { MonState.reset with counters := s.mon.counters.filter (fun c => c.1.cap = 0x0014) },
    tables := { TableState.reset with fuse := s.tables.fuse },
    upd := { UpdState.reset with
      session := s.upd.session, lastNum := s.upd.lastNum, persist := s.upd.persist, persistSeq := s.upd.persistSeq },
    field := keptField s.field,
    integrity := { IntegrityState.reset with
      retired := s.integrity.retired, segment := s.integrity.segment,
      spareFor := match s.integrity.spareFor with
        | some b => if b ∈ s.integrity.retired then some b else none
        | none => none },
    power := s.power }

/-- A cause bit of NODE_RST_CAUSE is set (R34). -/
def noteCause (f : Fld) (s : State) : State := setB s R.NODE_RST_CAUSE f true

/-- The PLLs are locked, or not, as NODE_CLK_STAT shows. -/
def putLock (sys sds : Bool) (s : State) : State :=
  setB (setB s R.NODE_CLK_STAT F.NODE_CLK_STAT_SYS_LOCK sys) R.NODE_CLK_STAT F.NODE_CLK_STAT_SDS_LOCK sds

/-- Node reset with a cause (R30): the power die follows it where it is set to, and the PLLs keep the lock they have. -/
def nodeReset (cause : Fld) (s : State) : State :=
  let sys := getB s R.NODE_CLK_STAT F.NODE_CLK_STAT_SYS_LOCK
  let sds := getB s R.NODE_CLK_STAT F.NODE_CLK_STAT_SDS_LOCK
  noteCause cause (putLock sys sds (powerNodeReset (resetDigital s)))

/-! Cold start (R376 to R378). -/

/-- Flash contents, which no reset touches. -/
def flashMem (t : List Host.Cell) : List Host.Cell := t.filter (fun e => flashBase ≤ e.1 && e.1 < flashBase + 0x10000000)

/-- The node while the power die holds the digital die after a cold start: both dies at their reset values (R30); what the fuses
and the flash hold stays, and the keepers hold the nets. RESET_L low at the same time adds its cause (R34). -/
def coldStart (straps : Straps) (monEn : Bool) (s : State) : State :=
  let t : State := { State.reset with
    pending := s.pending,
    regs := s.regs.filter (fun e => e.1 < 0x1000 && e.1 ≠ R.ID_FUSE_CMD && e.1 ≠ R.ID_FUSE_STAT && !(0x500 ≤ e.1 && e.1 < 0x540)),
    mem := flashMem s.mem,
    node := { NodeState.reset with resetL := s.node.resetL, freeCount := s.node.freeCount },
    upd := { UpdState.reset with
      session := s.upd.session, lastNum := s.upd.lastNum, persist := s.upd.persist, persistSeq := s.upd.persistSeq },
    field := { FieldState.reset with
      pins := (s.field.pins.map (fun e => (e.1, { Pin.reset with net := e.2.net }))).filter (fun e => e.2 ≠ Pin.reset) },
    power := { PowerState.reset with hold := true, ready := 0, straps := straps } }
  let t := setB t R.MON_STAT F.MON_STAT_STRAP monEn
  if s.node.resetL then noteCause F.NODE_RST_CAUSE_PIN t else t

/-- COLD_START (R376): VIN rises through the reset level. The straps have the levels given, and the regulators start in order. -/
def execColdStart (straps : Straps) (monEn : Bool) (s : State) : Host.Outcome State Fault Refusal :=
  .next (coldStart straps monEn s)

/-- The digital die is released from cold start: the straps of R474 are sampled, and its PLLs have locked. -/
def releaseDie (s : State) : State :=
  let p := s.power.straps
  let s := onPower (fun q => { q with hold := false }) s
  let s := setF s R.UPD_BOOT F.UPD_BOOT_MODE p.bootMode.toNat
  let s := setB s R.CN_STAT F.CN_STAT_ELIG p.rootElig
  putLock true true (setB s R.DPX_STAT F.DPX_STAT_ROLE p.role)

/-- REGULATOR_READY (R376): the regulator that starts has reached 95 % of its output and the next one starts; one millisecond after
the fourth the digital die is released. The field rail's EN follows its strap once the 3.3 V rail is up (R474). -/
def execRegulatorReady (s : State) : Host.Outcome State Fault Refusal :=
  let n := s.power.ready
  if 5 ≤ n then .next s
  else
    let s := onPower (fun p => { p with ready := n + 1 }) s
    if n = 0 then .next (if s.power.straps.fldAuto then setB s R.FLD_CTL F.FLD_CTL_EN true else s)
    else if n = 3 then .next (setB s R.PD_STAT F.PD_STAT_RAILS_OK (s.power.outside = 0))
    else if n = 4 then .next (releaseDie s)
    else .next s

/-- Power-down in one tick (R377): the digital die is held in reset, and the field rail, the zones and the regulators go off. -/
def powerDown (s : State) : State :=
  let s := channelsOff (onPower (fun p => { p with hold := true, ready := 0 }) (resetDigital s))
  setB (setB s R.PD_STAT F.PD_STAT_PG false) R.PD_STAT F.PD_STAT_RAILS_OK false

/-- POWER_DOWN (R377): VIN falls through the reset level; the feed gates go on being driven. -/
def execPowerDown (s : State) : Host.Outcome State Fault Refusal := .next (powerDown s)

/-- RAIL_COLLAPSE (R378): a rail has stayed below 80 % of nominal: power-down, with both feed gates pulled low. -/
def execRailCollapse (rail : Fin 4) (s : State) : Host.Outcome State Fault Refusal :=
  if rail.val < s.power.ready then .next (putFeed 0 (onPower (fun p => { p with gatesLow := true }) (powerDown s))) else .next s

/-- COLLAPSE_HOLD_END (R378): the gates have been low for 1 s, and the selector chooses a feed again. -/
def execCollapseHoldEnd (s : State) : Host.Outcome State Fault Refusal :=
  if s.power.gatesLow then .next (feedSettle (onPower (fun p => { p with gatesLow := false }) s)) else .next s

end Sys2Proof.Machine
end

