-- ==== Sys2Proof/Machine/NodeControl.lean ====
section
/-! DEFINITION. Node control (chapter 01): service mode requests, the seal, resets, the watchdog, the clock monitor, unit reset, and
the measured supply classes and the TAP. Counters of CAP 0x0001: 0 writes to reserved bits, 1 writes refused by the seal, 2 refused
mode transitions. -/

namespace Sys2Proof.Machine

/-! Service modes and resets (R7, R27, R28, R30). -/

/-- A write comes from a host, a master outside the node; one by a local master, the monitor's among them, counts as the firmware's
(DESIGN CHOICE, log entry 121). -/
def fromHost : Master → Bool
  | .ring _ => true
  | .loc _ => false

/-- A service mode may follow the one in force on a write by master m (R27), with the seal as it stood before the write: STARTUP to
NORMAL is the firmware's, and RECOVERY to NORMAL a host's. -/
def transitionOk (m : Master) (s : State) (new : Nat) : Bool :=
  let old := serviceMode s
  (old = 0 && new = 1 && sealed s && !fromHost m) || (old = 0 && new = 2) || (old = 1 && new = 2) ||
  (old = 2 && new = 1 && sealed s && fromHost m) || ((old = 0 || old = 2) && new = 3) || (old = 3 && new = 2)

/-- A refused mode transition is counted (R27, R33). -/
def refusedTransition (s : State) : State := bump (ctr 0x0001 2 0) s

/-- A write of NODE_CTL but for RESET: the mode is requested, judged against the one in force, or left and counted (R27, R28). The
mode in force itself withdraws a request. -/
def writeNodeCtl (m : Master) (v : Word) (s : State) : State :=
  let new := F.NODE_CTL_SERVICE.get v
  if new = serviceMode s ∨ transitionOk m s new then plainWrite R.NODE_CTL v s
  else refusedTransition (writeInPart R.NODE_CTL (F.NODE_CTL_SERVICE.put v (getF s R.NODE_CTL F.NODE_CTL_SERVICE)) v s)

/-- RESET with its key (R30). -/
def resetKeyed (v : Word) : Bool := F.NODE_CTL_RESET.get v = 1 && F.NODE_CTL_KEY.get v = 0x5A

/-- A write access to NODE_CTL; a keyed RESET that is performed ends in node reset, and nothing answers (R30). -/
def nodeCtlAccess (m : Master) (v : Word) (s : State) : State :=
  let t := guardWrite m R.NODE_CTL (fun s => (writeNodeCtl m v s, none)) s
  if t.resp = .ok ∧ resetKeyed v then nodeReset F.NODE_RST_CAUSE_SOFT t else t

/-- SERVICE_WRITE (R27): a write of NODE_CTL. -/
def execServiceWrite (m : Master) (v : Word) (s : State) : Host.Outcome State Fault Refusal := .next (nodeCtlAccess m v s)

/-- SEAL (R7): a write of NODE_CTL with SEAL 1. -/
def execSeal (m : Master) (v : Word) (s : State) : Host.Outcome State Fault Refusal :=
  .next (nodeCtlAccess m (F.NODE_CTL_SEAL.put v 1) s)

/-- SOFT_RESET (R30): a write of NODE_CTL with RESET 1. -/
def execSoftReset (m : Master) (v : Word) (s : State) : Host.Outcome State Fault Refusal :=
  .next (nodeCtlAccess m (F.NODE_CTL_RESET.put v 1) s)

/-- RESET_L_LOW (R32): node reset, for as long as RESET_L stays low. -/
def execResetLLow (s : State) : Host.Outcome State Fault Refusal :=
  .next (nodeReset F.NODE_RST_CAUSE_PIN (onNode (fun x => { x with resetL := true }) s))

/-- RESET_L_RELEASE (R32): RESET_L rises, and the ROM may boot again. -/
def execResetLRelease (s : State) : Host.Outcome State Fault Refusal :=
  .next (onNode (fun x => { x with resetL := false }) s)

/-- CLOCK_LOSS (R18): node reset, and the digital die is held. -/
def execClockLoss (s : State) : Host.Outcome State Fault Refusal :=
  .next (putLock false false (nodeReset F.NODE_RST_CAUSE_CLK (onNode (fun x => { x with clkHold := true }) s)))

/-- PLL_LOCK_HELD (R18): the PLL has held lock for 1 ms, and the digital die is released. -/
def execPllLockHeld (s : State) : Host.Outcome State Fault Refusal :=
  .next (if s.node.clkHold then putLock true true (onNode (fun x => { x with clkHold := false }) s) else s)

/-! The watchdog (R35). -/

/-- The watchdog's timeout starts afresh. -/
def restartWdog (s : State) : State := (onNode (fun x => { x with wdogFrom := s.time.ltick }) s)

/-- A write of NODE_WDOG: TIMEOUT and EN, then KICK; the timeout also starts when the watchdog is enabled. -/
def writeNodeWdog (v : Word) (s : State) : State :=
  let was := getB s R.NODE_WDOG F.NODE_WDOG_EN
  let s := plainWrite R.NODE_WDOG v s
  if F.NODE_WDOG_KICK.get v = 0x4B ∨ (¬was ∧ getB s R.NODE_WDOG F.NODE_WDOG_EN) then restartWdog s else s

/-- KICK (R35): a write of NODE_WDOG with KICK 0x4B. -/
def execKick (m : Master) (v : Word) (s : State) : Host.Outcome State Fault Refusal :=
  .next (guardWrite m R.NODE_WDOG (fun s => (writeNodeWdog (F.NODE_WDOG_KICK.put v 0x4B) s, none)) s)

/-- FCLK cycles of the watchdog's timeout: units of 16 µs, and 0 is treated as 1. -/
def wdogTicks (s : State) : Nat := 5000 * max 1 (getF s R.NODE_WDOG F.NODE_WDOG_TIMEOUT)

/-- WATCHDOG_EXPIRY (R35): node reset once the timeout has passed since the last kick, by LTICK; not while the digital die is in
reset. -/
def execWatchdogExpiry (s : State) : Host.Outcome State Fault Refusal :=
  .next (if clocked s ∧ getB s R.NODE_WDOG F.NODE_WDOG_EN ∧ wdogTicks s ≤ (s.time.ltick + 2 ^ 64 - s.node.wdogFrom) % 2 ^ 64 then
    nodeReset F.NODE_RST_CAUSE_WDOG s else s)

/-! The clock monitor (R17). -/

/-- Nominal frequencies in kHz: FCLK, UCLK, the core clock and the bus clock (R16). -/
def nominalKHz (i : Nat) : Nat := if i = 0 then 312500 else if i = 1 then 250000 else if i = 2 then 400000 else 80000

/-- A measured frequency lies more than p per cent off its nominal value. -/
def offBy (p i f : Nat) : Bool := p * nominalKHz i < 100 * ((f : Int) - (nominalKHz i : Int)).natAbs

/-- The bad bit of clock i. -/
def clockBad (i : Nat) : Fld := ⟨2 + i, 1⟩

/-- One clock is judged at the end of a window: its bit is set with a fault and a notice, or cleared after the fourth window within
4 %. -/
def judgeClock (i f : Nat) (s : State) : State :=
  let good := if offBy 4 i f then 0 else min 4 (tabGet (fun _ => 0) s.node.good i + 1)
  let s := (onNode (fun x => { x with good := tabSet (fun _ => 0) x.good i good }) s)
  if offBy 5 i f then latchFault 1 (postOpen 0 0x0001 0 (setB s R.NODE_CLK_STAT (clockBad i) true))
  else if 4 ≤ good then setB s R.NODE_CLK_STAT (clockBad i) false
  else s

/-- CLOCK_MONITOR_WINDOW (R17): a 64 µs window ends with the measured frequencies in kHz. -/
def execClockMonitorWindow (fclk uclk core bus : Nat) (s : State) : Host.Outcome State Fault Refusal :=
  .next (if clocked s then judgeClock 3 bus (judgeClock 2 core (judgeClock 1 uclk (judgeClock 0 fclk s))) else s)

/-! Unit reset (R33, R41, R149). -/

/-- The pins that a unit's drivers reach, by bank. -/
def unitBanks (cap inst : Nat) : List Nat :=
  if cap = 0x0003 then [inst, (inst + 1) % 16]
  else if cap = 0x0004 then [2 * inst, 2 * inst + 1]
  else if cap = 0x0005 ∨ cap = 0x0006 then [inst]
  else if cap = 0x0007 then [8 * inst]
  else []

/-- After unit reset a pin follows its owner only from the owner's first driving action (R41). -/
def quietUnit (cap inst : Nat) (s : State) : State :=
  (unitBanks cap inst).foldl (fun s b => (List.range 16).foldl (fun s i =>
    if pinOwner s (16 * b + i) = some (cap, inst) ∧ cap ≠ 0x0003 then onPin (16 * b + i) (fun c => { c with quiet := true }) s
    else s) s) s

/-- Unit reset of a Scribe cluster: its engines, its store and its registers, but for BIST's verdict. -/
def resetCluster (k : Nat) (s : State) : State :=
  let bad := getB s (R.SCR_CSTAT k) F.SCR_CSTAT_UNUSABLE
  let s := { s with
    scribe := { engines := s.scribe.engines.filter (fun e => e.1 / 4 ≠ k), store := s.scribe.store.filter (fun e => e.1 / 32 ≠ k),
                flags := s.scribe.flags.filter (fun e => e.1 ≠ k) } }
  let s := settleDma k s
  setB (resetRange (0x30000 + 0x1000 * k) 0x1000 s) (R.SCR_CSTAT k) F.SCR_CSTAT_UNUSABLE bad

/-- Write stages and read latches of a range of registers are emptied. -/
def dropStages (a n : Nat) (s : State) : State :=
  { s with
    latches := s.latches.filter (fun e => e.1 < a || a + n ≤ e.1),
    stages := s.stages.filter (fun e => e.1 < a || a + n ≤ e.1) }

/-- The register block of a resettable unit: base and length. -/
def unitBlock (cap inst : Nat) : Nat × Nat :=
  if cap = 0x0003 then (0x30000 + 0x1000 * inst, 0x1000)
  else if cap = 0x0004 then (0x40000 + 0x1000 * inst, 0x1000)
  else if cap = 0x0005 then (0x50000 + 0x100 * inst, 0x100)
  else if cap = 0x0006 then (0x51000 + 0x100 * inst, 0x100)
  else if cap = 0x0007 then (0x52000 + 0x100 * inst, 0x100)
  else (0xB0000 + 0x100 * inst, 0x100)

/-- What unit reset returns to its reset values. -/
def resetUnit (cap inst : Nat) (s : State) : State :=
  let (a, n) := unitBlock cap inst
  let s := dropStages a n s
  if cap = 0x0003 then resetCluster inst s
  else if cap = 0x0004 then resetMb inst s
  else if cap = 0x0005 then resetUart inst s
  else if cap = 0x0006 then resetEnc inst s
  else if cap = 0x0007 then resetMains inst s
  else resetTrack inst s

/-- A unit is put in unit reset: it is reset, its pins go to the keepers, and a cluster's side-band PRESENT falls with its pending
request and its grant (R33, R149). -/
def holdUnit (cap inst : Nat) (s : State) : State :=
  let s := quietUnit cap inst (resetUnit cap inst s)
  let s := (onNode (fun x => { x with unitReset := (cap, inst) :: x.unitReset }) s)
  let s := if cap = 0x0003 then arbDecide (endRequest (4 + inst) s) else s
  reviewTracks ((unitBanks cap inst).foldl (fun s b => refreshBank b s) s)

/-- A unit is released: it starts from its reset values. -/
def releaseUnit (cap inst : Nat) (s : State) : State :=
  let s := (onNode (fun x => { x with unitReset := x.unitReset.filter (fun u => u ≠ (cap, inst)) }) s)
  reviewTracks ((unitBanks cap inst).foldl (fun s b => refreshBank b s) s)

/-- A write of NODE_URST: CAP and INST select, and HOLD holds or releases; a request for a block without unit reset is ignored and
counted (R33). The spec does not say more of an ignored request: CAP and INST are stored all the same, and an INST that the block does
not have is ignored and counted like a block without unit reset (DESIGN CHOICE, log entry 122). -/
def writeNodeUrst (v : Word) (s : State) : State :=
  let cap := F.NODE_URST_CAP.get v
  let inst := F.NODE_URST_INST.get v
  let hold := F.NODE_URST_HOLD.get v = 1
  let s := setB (plainWrite R.NODE_URST v s) R.NODE_URST F.NODE_URST_HOLD false
  if resettable cap ≤ inst then refusedTransition s
  else if hold ∧ ¬inUnitReset s cap inst then holdUnit cap inst s
  else if ¬hold ∧ inUnitReset s cap inst then releaseUnit cap inst s
  else s

/-- UNIT_RESET_HOLD (R33): a write of NODE_URST with HOLD 1. -/
def execUnitResetHold (m : Master) (v : Word) (s : State) : Host.Outcome State Fault Refusal :=
  .next (guardWrite m R.NODE_URST (fun s => (writeNodeUrst (F.NODE_URST_HOLD.put v 1) s, none)) s)

/-- UNIT_RESET_RELEASE (R33): a write of NODE_URST with HOLD 0. -/
def execUnitResetRelease (m : Master) (v : Word) (s : State) : Host.Outcome State Fault Refusal :=
  .next (guardWrite m R.NODE_URST (fun s => (writeNodeUrst (F.NODE_URST_HOLD.put v 0) s, none)) s)

/-! Supplies and the TAP (R37, R476, R478). -/

/-- VDDIO_CLASS_CHANGE (R37): the measured class of a bank is now 0 absent, 1 1.8 V, 2 2.5 V or 3 3.3 V; one that differs from the
expected class puts the bank in supply fault. -/
def execVddioClassChange (b : Fin 16) (cls : Fin 4) (s : State) : Host.Outcome State Fault Refusal :=
  let s := onBank b (fun k => { k with valid := k.valid || cls.val ≠ 0 }) (setF s (R.BANK_STAT b) F.BANK_STAT_VLEVEL cls)
  .next (if supplyMismatch s b then startSupplyFault b s else s)

/-- JTAG_INSTRUCTION (R476): a new instruction is current in the TAP, which takes over or releases the balls. -/
def execJtagInstruction (code : Byte) (s : State) : Host.Outcome State Fault Refusal :=
  .next (refreshPins (onNode (fun x => { x with jtag := BitVec.ofNat 6 code.toNat }) s))

end Sys2Proof.Machine
end

