-- ==== Sys2Proof/Machine/Update.lean ====
section
/-! DEFINITION. Boot, folios, activation, trial and ROM recovery (R415 to R422, R432 to R441). Counters of CAP 0x0018 are listed in
Flash.lean. -/

namespace Sys2Proof.Machine

/-! The image header (R416, R417). -/

/-- n bytes of a header from an offset, as a little-endian number. -/
def hdrNum (h : List Byte) (off n : Nat) : Nat := leNat ((h.drop off).take n)

/-- n bytes of a header from an offset. -/
def hdrBytes (h : List Byte) (off n : Nat) : List Byte := (h.drop off).take n

/-- IMAGE_ID. -/
def hdrImage (h : List Byte) : Nat := hdrNum h 0x08 8
/-- FW_LEN. -/
def hdrFwLen (h : List Byte) : Nat := hdrNum h 0x18 4
/-- MAN_OFF. -/
def hdrManOff (h : List Byte) : Nat := hdrNum h 0x1C 4
/-- MAN_LEN. -/
def hdrManLen (h : List Byte) : Nat := hdrNum h 0x20 4
/-- The body folios N of an image. -/
def hdrFolios (h : List Byte) : Nat := ceilDiv (hdrNum h 0x14 4) 1024

/-- Byte i of the public key in slot k, read from its registers (R450). -/
def keyByte (s : State) (k i : Nat) : Byte := BitVec.ofNat 8 ((getReg s (0x400 + 0x40 * k + i / 4 * 4)).toNat / 2 ^ (8 * (i % 4)))

/-- A signature, r before s, verifies for a digest under key slot k. -/
def keyVerifies (s : State) (k : Nat) (digest sig : List Byte) : Bool :=
  let key := (List.range 64).map (keyByte s k)
  Crypto.verifies (Crypto.beNat (key.take 32)) (Crypto.beNat (key.drop 32)) digest (Crypto.beNat (sig.take 32))
    (Crypto.beNat (sig.drop 32))

/-- A key slot is programmed and not revoked. -/
def keyUsable (s : State) (k : Nat) : Bool := slotProgrammed s k && !slotRevoked s k

/-- Every field of R416 is within its limit. -/
def hdrInLimits (h : List Byte) : Bool :=
  1 ≤ hdrNum h 0x06 1 && hdrNum h 0x06 1 ≤ 3 && hdrImage h ≠ 0 && 1 ≤ hdrFwLen h && hdrFwLen h ≤ 458752 &&
  hdrManOff h % 256 = 0 && hdrFwLen h ≤ hdrManOff h && 8 ≤ hdrManLen h && hdrManLen h ≤ 2097152 &&
  hdrNum h 0x14 4 = hdrManOff h + hdrManLen h

/-- An image header is acceptable (R417). -/
def acceptable (s : State) (h : List Byte) : Bool :=
  let rev := getF s R.ID_PART F.ID_PART_REV
  hdrNum h 0 4 = 0x31464C44 && hdrNum h 4 2 = 1 && (hdrBytes h 0x28 24).all (fun b => b = 0) && hdrNum h 0x10 2 = 0x7440 &&
  hdrNum h 0x12 1 ≤ rev && rev ≤ hdrNum h 0x13 1 && hdrInLimits h && keyUsable s 0 && keyUsable s (hdrNum h 0x06 1) &&
  keyVerifies s (hdrNum h 0x06 1) (Crypto.sha256 (h.take 0xC0)) (hdrBytes h 0xC0 64) &&
  keyVerifies s 0 (hdrBytes h 0x60 32) (hdrBytes h 0x80 64)

/-- The image header in a slot. -/
def slotHeader (s : State) (slot : Nat) : List Byte := getBytes s (slotBase slot) 256

/-- Body bytes of a slot. -/
def slotBody (s : State) (slot off n : Nat) : List Byte := getBytes s (slotBase slot + 1024 + off) n

/-- The firmware in a slot is the one that a header names. -/
def firmwareMatches (s : State) (slot : Nat) (h : List Byte) : Bool :=
  Crypto.sha256 (slotBody s slot 0 (hdrFwLen h)) = hdrBytes h 0x60 32

/-- The manifest in a slot is the one that a header names. -/
def manifestMatches (s : State) (slot : Nat) (h : List Byte) : Bool :=
  Crypto.sha256 (slotBody s slot (hdrManOff h) (hdrManLen h)) = hdrBytes h 0x40 32

/-- A slot verifies (R420). -/
def slotVerifies (s : State) (slot : Nat) : Bool := acceptable s (slotHeader s slot) && firmwareMatches s slot (slotHeader s slot)

/-! The choice of a slot (R418, R419). -/

/-- A fallback to a slot: FALLBACK, the count, and notice 0x82 with the slot now active (R419, R439, R441). -/
def noteFallback (slot : Nat) (s : State) : State :=
  updNotice 0x82 slot (bump (ctr 0x0018 8 0) (setB s R.UPD_BOOT F.UPD_BOOT_FALLBACK true))

/-- A header that makes a slot active and confirmed. -/
def confirmedOn (slot : Nat) (h : BootHeader) : BootHeader := { h with active := slot, state := 0 }

/-- The slot that R419 boots under the governing header, and whether it runs on trial; none when no row yields one. -/
def chooseSlot (s : State) : Option (Nat × Bool) × State :=
  match governing s with
  | none =>
    match [0, 1].find? (slotVerifies s) with
    | some x => (some (x, false), writeHeader (putImage x (hdrImage (slotHeader s x)) (putSlot x 1 (confirmedOn x BootHeader.empty))) s)
    | none => (none, s)
  | some (_, h) =>
    let x := if h.active = 0 then 0 else 1
    let y := 1 - x
    if h.state = 0 then
      if slotVerifies s x then (some (x, false), s)
      else if slotState h y = 1 ∧ slotVerifies s y then (some (y, false), noteFallback y (writeHeader (confirmedOn y h) s))
      else (none, s)
    else if 0 < h.tries ∧ slotVerifies s x then (some (x, true), writeHeader { h with tries := h.tries - 1 } s)
    else if slotVerifies s y then (some (y, false), noteFallback y (writeHeader (putSlot x 2 (confirmedOn y h)) s))
    else (none, s)

/-- The slot of a boot by BOOT_MODE: 0 normal, 1 slot A only, 2 slot B only, 3 recovery (R418). -/
def chooseByMode (mode : Nat) (s : State) : Option (Nat × Bool) × State :=
  if mode = 0 then chooseSlot s
  else if mode = 3 then (none, s)
  else (if slotVerifies s (mode - 1) then some (mode - 1, false) else none, s)

/-- UPD_STAT, UPD_DONE and UPD_IMG show the session that the journal holds (R437). -/
def showSession (s : State) : State :=
  match s.upd.session with
  | none => s
  | some x =>
    let s := setF (setF s R.UPD_STAT F.UPD_STAT_SESSION_ST x.st) R.UPD_STAT F.UPD_STAT_SESSION x.num
    let s := setF (setF s R.UPD_DONE F.UPD_DONE_DONE x.done.length) R.UPD_DONE F.UPD_DONE_TOTAL (hdrFolios x.header)
    let id := hdrImage x.header
    setReg (setReg s R.UPD_IMG_LO (BitVec.ofNat 32 id)) R.UPD_IMG_HI (BitVec.ofNat 32 (id / 2 ^ 32))

/-- A slot's firmware starts: what runs, and the trial. -/
def startSlot (slot : Nat) (trial : Bool) (s : State) : State :=
  let h := slotHeader s slot
  let id := hdrImage h
  let s := setB (setF s R.UPD_STAT F.UPD_STAT_RUNSLOT slot) R.UPD_STAT F.UPD_STAT_TRIAL trial
  let s := setReg (setReg s R.UPD_RUN_LO (BitVec.ofNat 32 id)) R.UPD_RUN_HI (BitVec.ofNat 32 (id / 2 ^ 32))
  let s := setF s R.UPD_BOOT F.UPD_BOOT_TRIES (presentHeader s).tries
  showSession (onUpd (fun u => { u with keySlot := hdrNum h 0x06 1, trialFrom := s.time.ltick, recovery := false, line := .none }) s)

/-- A service mode is requested by the node itself, where R27 allows the transition. -/
def requestMode (mode : Nat) (s : State) : State :=
  if transitionOk (.loc 0) s mode then setF s R.NODE_CTL F.NODE_CTL_SERVICE mode else s

/-- The ROM enters recovery: service mode RECOVERY, and all three ports up (R440). -/
def enterRecovery (s : State) : State :=
  let s := showSession (onUpd (fun u => { u with recovery := true }) (requestMode 2 s))
  (List.range 3).foldl (fun s p => writePtCtl p (F.PT_CTL_EN.put (getReg s (R.PT_CTL p)) 1) s) s

/-- The apply of the manifest fails at a record: RECOVERY, and notice 0xC1 with the record's index (R423). -/
def failApply (s : State) : State :=
  let i := s.upd.apply.index
  updNotice 0xC1 i (requestMode 2 (onUpd (fun u => { u with apply := { u.apply with ended := true } }) s))

/-- The firmware starts to apply the manifest: it is checked against MAN_HASH first (R423). -/
def startApply (slot : Nat) (s : State) : State :=
  let s := onUpd (fun u => { u with apply := { index := 0, persists := 0, configs := 0, ended := false } }) s
  if manifestMatches s slot (slotHeader s slot) then s else failApply s

/-- What the ROM finds in SFDP: log2 of the density in bytes and erase suspend. -/
def showFlash (sfdp : Option (Nat × Bool)) (s : State) : State :=
  match sfdp with
  | none => s
  | some (d, es) => setB (setF s R.UPD_FLASH F.UPD_FLASH_DENSITY d) R.UPD_FLASH F.UPD_FLASH_SUSPEND es

/-- The flash is refused: no SFDP, or less than 32 MiB (R412). -/
def flashRefused (sfdp : Option (Nat × Bool)) : Bool :=
  match sfdp with
  | none => true
  | some (d, _) => d < 25

/-- The boot past the tests and the flash: BOOTFAIL, the choice, and the start of the firmware or recovery (R418 to R421). -/
def bootImage (soFailed : Bool) (s : State) : State :=
  let mode := getF s R.UPD_BOOT F.UPD_BOOT_MODE
  let fails := min 15 (getF s R.UPD_BOOT F.UPD_BOOT_BOOTFAIL + 1)
  let s := bump (ctr 0x0018 11 mode) (setF s R.UPD_BOOT F.UPD_BOOT_BOOTFAIL fails)
  match (if 4 ≤ fails then (none, s) else chooseByMode mode s) with
  | (none, s) => enterRecovery s
  | (some (slot, trial), s) =>
    let s := startSlot slot trial s
    startApply slot (if soFailed then bistNotice 0xC3 0 s else s)

/-- ROM_BOOT (R408, R409, R418 to R422): the ROM runs once after each reset. The March test of the management SRAM and the logic test
of the sorting office end as the operands say, and SFDP gives the density and erase suspend. -/
def execRomBoot (sfdp : Option (Nat × Bool)) (sram office : Bool) (s : State) : Host.Outcome State Fault Refusal :=
  if s.upd.booted ∨ ¬clocked s then .next s
  else
    let s := restartWdog (onUpd (fun u => { u with booted := true }) s)
    let s := onInteg (fun i => { i with segment := none }) s
    if ¬sram then .next (setB s R.BIST_FLAGS F.BIST_FLAGS_MSRAM true)
    else
      let soFailed := getB s R.BIST_BOOT F.BIST_BOOT_SO && !office
      let s := if soFailed then setB s R.BIST_FLAGS F.BIST_FLAGS_SO true else s
      let s := showFlash sfdp s
      if flashRefused sfdp then .next (onUpd (fun u => { u with line := .flash }) (setB s R.UPD_STAT F.UPD_STAT_FLASHERR true))
      else .next (bootImage soFailed s)

/-! Answers to folios (R433, R434). -/

/-- The slot that a session writes: the inactive one, and slot A in recovery. -/
def updateSlot (s : State) : Nat := if s.upd.recovery then 0 else 1 - getF s R.UPD_STAT F.UPD_STAT_RUNSLOT

/-- A folio of the session is written; folio 0 is while a session is open. -/
def folioWritten (s : State) (f : Nat) : Bool :=
  match s.upd.session with
  | some x => f = 0 || f ∈ x.done
  | none => false

/-- 64 bits of the bitmap, from a folio on. -/
def bitmapWord (s : State) (from_ : Nat) : DWord :=
  BitVec.ofNat 64 (((List.range 64).map (fun i => if folioWritten s (from_ + i) then 2 ^ i else 0)).sum)

/-- The six words of a FOLIO_ACK (R433). -/
def ackWords (s : State) (status reason f : Nat) : List DWord :=
  let (num, done, total) := match s.upd.session with
    | some x => (x.num, x.done.length, hdrFolios x.header)
    | none => (0, 0, 0)
  let base := f / 256 * 256
  [BitVec.ofNat 64 (num % 65536 + status % 16 * 2 ^ 16 + reason % 256 * 2 ^ 20 + f % 8192 * 2 ^ 32),
    BitVec.ofNat 64 (done % 16384 + total % 16384 * 2 ^ 16 + base % 8192 * 2 ^ 32),
    bitmapWord s base, bitmapWord s (base + 64), bitmapWord s (base + 128), bitmapWord s (base + 192)]

/-- A FOLIO_ACK goes to the folio's sender: by the ring as a Bulk envelope, out of the arrival port in recovery, or as a line over the
monitor UART. A quarantined node outside recovery sends none (R433, R440). -/
def sendAck (q : Asker) (status reason f : Nat) (s : State) : State :=
  let ws := ackWords s status reason f
  match q.port with
  | none => onUpd (fun u => { u with line := .ack ws }) s
  | some p =>
    let hops := if s.upd.recovery then 1 else getF s R.BR_HOPS F.BR_HOPS_HOPS
    let e := build s 2 kFolioAck false q.src.toNat hops ws
    let e := withCrcs { e with tag := q.tag, addr := q.addr }
    if s.upd.recovery then sendOrWait 6 (some p) e s
    else if quarantined s then s
    else sendOrWait 6 none e s

/-- A folio is refused with a reason; folio 0 is also reported (R434, R441). -/
def refuseFolio (q : Asker) (reason f : Nat) (s : State) : State :=
  let s := bump (ctr 0x0018 3 reason) (setF s R.UPD_STAT F.UPD_STAT_REASON reason)
  let s := if f = 0 then updNotice 0x81 reason s else s
  sendAck q 3 reason f s

/-! Folios (R432, R435, R436). -/

/-- A FOLIO as the agent judges it: its sender, the sender's master ID, its folio, part and session, its payload words and whether
one of them is poisoned. -/
structure FolioReq where
  asker : Asker
  id : MasterId
  folio : Nat
  part : Nat
  odd : Bool
  session : Nat
  words : List DWord
  poison : Bool
deriving DecidableEq, Repr

/-- A FOLIO envelope that arrived on port p. -/
def folioOf (p : Nat) (e : Envelope) : FolioReq :=
  let a := e.addr.toNat
  { asker := { port := some p, src := e.src, tag := e.tag, addr := e.addr },
    id := taggedMaster e, folio := a % 2 ^ 24 / 1024, part := a % 1024 / 256,
    odd := a % 256 ≠ 0, session := bitsOf a 24 16, words := e.payload, poison := poisonBits e ≠ 0 }

/-- RANGE as far as the envelope alone shows it (R434). -/
def folioMisfit (r : FolioReq) : Bool :=
  r.odd || 8192 ≤ r.folio || (r.folio = 0 && r.part ≠ 0) || (r.words.length ≠ 0 && r.words.length ≠ 32)

/-- The folio names the open session; in recovery, where folios come through a relay, SESSION 0xFFFF does too. -/
def sameSession (s : State) (r : FolioReq) (x : UpdSession) : Bool :=
  r.session = x.num || (s.upd.recovery && r.session = 0xFFFF)

/-- The bytes of payload words (R163). -/
def wordsBytes (ws : List DWord) : List Byte := ws.flatMap (fun w => leBytes 8 w.toNat)

/-- The journal's session is replaced and shown. -/
def putSession (x : UpdSession) (s : State) : State := showSession (onUpd (fun u => { u with session := some x }) s)

/-- An acceptable header opens a session (R435). -/
def openSession (r : FolioReq) (h : List Byte) (s : State) : State :=
  let slot := updateSlot s
  let num := (s.upd.lastNum + 1) % 65536
  let s := bump (ctr 0x0018 6 0) (onUpd (fun u => { u with lastNum := num, bufs := [] }) s)
  let s := writeHeader (putImage slot (hdrImage h) (putSlot slot 0 (presentHeader s))) s
  let s := bump (ctr 0x0018 5 0) (eraseFlash (slotBase slot) 65536 s)
  let s := setBytes s (slotBase slot) h
  let s := putSession { num := num, header := h, erased := [0], done := [], st := 1 } s
  sendAck r.asker 0 0 0 (updNotice 0x01 num s)

/-- Folio 0 with its payload (R435), or none while a flash hold keeps the session from opening (R430). -/
def judgeHeader (r : FolioReq) (s : State) : Option State :=
  let h := wordsBytes r.words
  match s.upd.session with
  | some x =>
    if (x.st = 1 ∨ x.st = 3) ∧ x.header = h then some (sendAck r.asker 0 0 0 s) else some (refuseFolio r.asker 3 0 s)
  | none =>
    if getB s R.UPD_STAT F.UPD_STAT_TRIAL then some (refuseFolio r.asker 3 0 s)
    else if ¬acceptable s h then some (refuseFolio r.asker 1 0 s)
    else if hdrImage h = regs64 s R.UPD_RUN_LO R.UPD_RUN_HI then some (refuseFolio r.asker 2 0 s)
    else if flashHeld s then none
    else some (openSession r h s)

/-- A part enters its assembly buffer, or is dropped when all eight are taken (R436). -/
def gatherPart (r : FolioReq) (s : State) : State :=
  match s.upd.bufs.find? (fun b => b.folio = r.folio) with
  | some b =>
    let b' : Assembly := { b with parts := (r.part, r.words) :: b.parts.filter (fun x => x.1 ≠ r.part), asker := r.asker }
    onUpd (fun u => { u with bufs := u.bufs.map (fun x => if x.folio = r.folio then b' else x) }) s
  | none =>
    if 8 ≤ s.upd.bufs.length then sendAck r.asker 4 0 r.folio (bump (ctr 0x0018 2 0) s)
    else onUpd (fun u => { u with bufs := u.bufs ++ [{ folio := r.folio, parts := [(r.part, r.words)], asker := r.asker }] }) s

/-- A body part (R436). -/
def judgePart (r : FolioReq) (s : State) : State :=
  match s.upd.session with
  | none => refuseFolio r.asker 4 r.folio s
  | some x =>
    if ¬sameSession s r x then refuseFolio r.asker 4 r.folio s
    else if x.st = 2 ∨ x.st = 4 then refuseFolio r.asker 3 r.folio s
    else if hdrFolios x.header < r.folio then refuseFolio r.asker 5 r.folio s
    else if r.folio ∈ x.done then sendAck r.asker 1 0 r.folio (bump (ctr 0x0018 1 0) s)
    else gatherPart r s

/-- A query is answered with the window that holds its folio (R436). -/
def judgeQuery (r : FolioReq) (s : State) : State :=
  match s.upd.session with
  | none => refuseFolio r.asker 4 r.folio s
  | some x =>
    if r.folio ≠ 0 ∧ ¬sameSession s r x then refuseFolio r.asker 4 r.folio s
    else if hdrFolios x.header < r.folio then refuseFolio r.asker 5 r.folio s
    else sendAck r.asker 5 0 r.folio s

/-- A part whose payload is poisoned is dropped: a bus error of the management core (R202, R367; log entry 110). -/
def dropPoisoned (s : State) : State :=
  let s := bump (ctr 0x000B 6 5) s
  if dpxOn s then latchFault 4 s else s

/-- The agent judges a folio (R433 to R436): its sender's W, its form, and then the header, part or query that it is. A poisoned
payload is a bus error of the management core, which drops the part (R202). None while the flash is held for an opening session. -/
def judgeFolio (r : FolioReq) (s : State) : Option State :=
  let s := if r.words = [] then s else bump (ctr 0x0018 0 0) s
  if ¬holdsWrite s r.id R.UPD_CTL ∧ r.asker.port.isSome then some (refuseFolio r.asker 6 r.folio (denyEnvelope r.id R.UPD_CTL s))
  else if folioMisfit r then some (refuseFolio r.asker 5 r.folio s)
  else if r.poison then
    some (dropPoisoned s)
  else if r.words = [] then some (judgeQuery r s)
  else if r.folio = 0 then judgeHeader r s
  else some (judgePart r s)

/-- The port that UPD_RELAY names; 3 is treated as 0. -/
def relayPort (s : State) : Nat := getF s R.UPD_RELAY F.UPD_RELAY_PORT % 3

/-- A FOLIO that was delivered to the agent: relayed to a recovering neighbour (R440), or judged, where POISON and POISON_ANY that disagree are
counted (R201). While the flash is held, one that would open a session stays with the sorting office until the all-clear. -/
def takeFolio (p : Nat) (e : Envelope) (s : State) : State :=
  let r := folioOf p e
  if getB s R.UPD_RELAY_CTL F.UPD_RELAY_CTL_EN ∧ r.session = 0xFFFF ∧ ¬s.upd.recovery then
    sendOrWait 6 (some (relayPort s)) { e with dst := 0xFFFF, hops := 1 } (takeDelivered e s)
  else
    match judgeFolio r (takeDelivered e s) with
    | some t => if poisonMismatch e then bump (ctr 0x000B 7 0) t else t
    | none => s

/-- The folio that an envelope's ADDR names. -/
def folioNumber (e : Envelope) : Nat := e.addr.toNat % 2 ^ 24 / 1024

/-- FOLIO_HEADER (R435): a FOLIO for folio 0. Its ADDR and payload say what it is. -/
def execFolioHeader (p : Fin 3) (e : Envelope) (s : State) : Host.Outcome State Fault Refusal := .next (takeFolio p (asKind kFolio e) s)

/-- FOLIO_PART (R436): a FOLIO for a body folio. Its ADDR and payload say what it is. -/
def execFolioPart (p : Fin 3) (e : Envelope) (s : State) : Host.Outcome State Fault Refusal := .next (takeFolio p (asKind kFolio e) s)

/-- FOLIO_QUERY (R436): a FOLIO with LENW 0. -/
def execFolioQuery (p : Fin 3) (e : Envelope) (s : State) : Host.Outcome State Fault Refusal :=
  .next (takeFolio p (asKind kFolio { e with lenw := 0 }) s)

/-- FOLIO_ACK (R440): one that arrives on UPD_RELAY.PORT of a relaying neighbour goes on to UPD_RELAY.HOST. -/
def execFolioAck (p : Fin 3) (e : Envelope) (s : State) : Host.Outcome State Fault Refusal :=
  let e := asKind kFolioAck e
  if getB s R.UPD_RELAY_CTL F.UPD_RELAY_CTL_EN ∧ p.val = relayPort s then
    let e' := withCrcs { e with
      dst := BitVec.ofNat 16 (getF s R.UPD_RELAY F.UPD_RELAY_HOST), hops := BitVec.ofNat 12 (getF s R.BR_HOPS F.BR_HOPS_HOPS) }
    .next (sendOrWait 6 none e' (takeDelivered e s))
  else .next (takeDelivered e s)

/-! Writing and verifying (R436). -/

/-- The bytes of a complete assembly buffer, part 0 first. -/
def bufferBytes (b : Assembly) : List Byte :=
  (List.range 4).flatMap (fun k => match b.parts.find? (fun x => x.1 = k) with
    | some x => wordsBytes x.2
    | none => [])

/-- A session ends in FAILED with a reason (R436, R441). -/
def failSession (x : UpdSession) (q : Asker) (reason f : Nat) (s : State) : State :=
  let s := onUpd (fun u => { u with bufs := [] }) (putSession { x with st := 4 } s)
  let s := bump (ctr 0x0018 3 reason) (setF s R.UPD_STAT F.UPD_STAT_REASON reason)
  sendAck q 3 reason f (updNotice 0xC2 reason s)

/-- A folio is written to its slot: its block is erased first if the journal does not show it, and the read-back decides. The part
that completes the image is answered after the verification. -/
def writeFolio (x : UpdSession) (b : Assembly) (good : Bool) (s : State) : State :=
  let slot := updateSlot s
  let block := b.folio / 64
  let s := onUpd (fun u => { u with bufs := u.bufs.filter (fun y => y.folio ≠ b.folio) }) s
  let (x, s) := if block ∈ x.erased then (x, s)
    else ({ x with erased := block :: x.erased }, bump (ctr 0x0018 5 0) (eraseFlash (slotBase slot + 65536 * block) 65536 s))
  let s := setBytes s (slotBase slot + 1024 * b.folio) (bufferBytes b)
  if ¬good then failSession x b.asker 8 b.folio s
  else
    let x := { x with done := b.folio :: x.done }
    let all := decide (x.done.length = hdrFolios x.header)
    let s := bump (ctr 0x0018 4 0) (putSession { x with st := if all then 2 else 1 } s)
    if all then onUpd (fun u => { u with last := some b.asker }) s else sendAck b.asker 1 0 b.folio s

/-- FOLIO_WRITE (R436): a folio whose four parts are present is programmed and read back, well or not. In BROWN nothing starts
(R430). -/
def execFolioWrite (f : Nat) (good : Bool) (s : State) : Host.Outcome State Fault Refusal :=
  match s.upd.session, s.upd.bufs.find? (fun b => b.folio = f) with
  | some x, some b =>
    if x.st = 1 ∧ b.parts.length = 4 ∧ ¬flashHeld s then .next (writeFolio x b good s) else .next s
  | _, _ => .next s

/-- The journal is empty: no session is open. -/
def clearSession (s : State) : State :=
  let s := onUpd (fun u => { u with session := none, bufs := [], abortWait := false }) s
  let s := setF (setF s R.UPD_STAT F.UPD_STAT_SESSION_ST 0) R.UPD_STAT F.UPD_STAT_SESSION 0
  setReg (setReg (setReg s R.UPD_DONE 0) R.UPD_IMG_LO 0) R.UPD_IMG_HI 0

/-- The header that puts an image on trial in a slot (R438). -/
def trialHeader (s : State) (slot id : Nat) : BootHeader :=
  putImage slot id (putSlot slot 1 { presentHeader s with active := slot, state := 1, tries := 2 })

/-- In recovery a complete image in slot A goes on trial, and the hub resets itself (R440). -/
def finishRecovery (x : UpdSession) (s : State) : State :=
  let s := clearSession (writeHeader (trialHeader s 0 (hdrImage x.header)) s)
  nodeReset F.NODE_RST_CAUSE_SOFT (setF s R.UPD_BOOT F.UPD_BOOT_BOOTFAIL 0)

/-- VERIFY_DONE (R436): the firmware and the manifest of the written slot have been hashed. -/
def execVerifyDone (s : State) : Host.Outcome State Fault Refusal :=
  match s.upd.session with
  | none => .next s
  | some x =>
    if x.st ≠ 2 ∨ (s.upd.recovery ∧ flashHeld s) then .next s
    else
      let slot := updateSlot s
      let q := s.upd.last.getD { port := none, src := 0, tag := 0, addr := 0 }
      let f := (q.addr.toNat % 2 ^ 24) / 1024
      if firmwareMatches s slot x.header ∧ manifestMatches s slot x.header then
        let s := putSession { x with st := 3 } s
        let s := sendAck q 2 0 f (updNotice 0x02 x.num s)
        .next (if s.upd.recovery then finishRecovery x s else s)
      else .next (failSession x q 7 f s)

/-! UPD_CTL (R437 to R439). -/

/-- A write that the agent refuses. -/
def updRefuse (s : State) : State := setB s R.UPD_STAT F.UPD_STAT_CFGREF true

/-- ABORT closes a session that is not VERIFYING, after a flash hold (R437). -/
def abortSession (s : State) : State :=
  match s.upd.session with
  | none => s
  | some x =>
    if x.st = 2 then updRefuse s
    else if flashHeld s then onUpd (fun u => { u with abortWait := true }) s
    else closeSession s

/-- A handover passes its first three steps once no BIST test runs and the flash is free: the boot header is written, and the
management core is held in reset with its PRESENT low (R149, R438). -/
def advanceHandover (s : State) : State :=
  match s.upd.handover with
  | none => s
  | some h =>
    if h.started ∨ s.integrity.test.isSome ∨ flashHeld s then s
    else
      let s := programHeader h.header (onUpd (fun u => { u with handover := some { h with started := true } }) s)
      arbDecide (endRequest 1 (setReg s R.ARB_PRESENT (getReg s R.ARB_PRESENT &&& ~~~2)))

/-- ACTIVATE (R438): refused unless the session is COMPLETE and no segment is held. -/
def activate (s : State) : State :=
  match s.upd.session with
  | some x =>
    if x.st = 3 ∧ ¬segmentHeld s ∧ s.upd.handover.isNone then
      let h := trialHeader s (updateSlot s) (hdrImage x.header)
      advanceHandover (onUpd (fun u => { u with handover := some { header := h, started := false } }) (clearSession s))
    else updRefuse s
  | none => updRefuse s

/-- CONFIRM (R439): by the management core of this node, and on trial. -/
def confirmTrial (id : MasterId) (s : State) : State :=
  if id ≠ masterId s (.loc 0) ∨ ¬getB s R.UPD_STAT F.UPD_STAT_TRIAL then updRefuse s
  else
    let s := writeHeader { presentHeader s with state := 0 } s
    updNotice 0x04 0 (setB s R.UPD_STAT F.UPD_STAT_TRIAL false)

/-- A write of UPD_CTL: its fields, then ACTIVATE, CONFIRM and ABORT. -/
def writeUpdCtl (id : MasterId) (v : Word) (s : State) : State :=
  let s := plainWrite R.UPD_CTL v s
  let s := if F.UPD_CTL_ACTIVATE.get v = 1 then activate s else s
  let s := if F.UPD_CTL_CONFIRM.get v = 1 then confirmTrial id s else s
  if F.UPD_CTL_ABORT.get v = 1 then abortSession s else s

/-- ABORT (R437): a write of UPD_CTL with ABORT 1. -/
def execUpdAbort (m : Master) (v : Word) (s : State) : Host.Outcome State Fault Refusal :=
  .next (guardWrite m R.UPD_CTL (fun s => (writeUpdCtl (masterId s m) (F.UPD_CTL_ABORT.put v 1) s, none)) s)

/-- ACTIVATE (R438): a write of UPD_CTL with ACTIVATE 1. -/
def execUpdActivate (m : Master) (v : Word) (s : State) : Host.Outcome State Fault Refusal :=
  .next (guardWrite m R.UPD_CTL (fun s => (writeUpdCtl (masterId s m) (F.UPD_CTL_ACTIVATE.put v 1) s, none)) s)

/-- CONFIRM (R439): a write of UPD_CTL with CONFIRM 1. -/
def execUpdConfirm (m : Master) (v : Word) (s : State) : Host.Outcome State Fault Refusal :=
  .next (guardWrite m R.UPD_CTL (fun s => (writeUpdCtl (masterId s m) (F.UPD_CTL_CONFIRM.put v 1) s, none)) s)

/-- Without a record the firmware starts as after node reset, without reconfiguring units (R438): what only it holds is lost. -/
def loseRecord (s : State) : State :=
  { s with
    time := { s.time with servo := TimeState.reset.servo },
    mon := { s.mon with terminal := [], served := [], current := none, marks := [] },
    census := { s.census with parts := [], holders := [] } }

/-- HANDOVER_DONE (R438): the ROM has chosen and verified a slot, and the new firmware has resumed with the record, or found none. -/
def execHandoverDone (withRecord : Bool) (s : State) : Host.Outcome State Fault Refusal :=
  let s' := advanceHandover s
  match s'.upd.handover with
  | none => .next s
  | some h =>
    if ¬h.started then .next s
    else
      let s := onUpd (fun u => { u with handover := none }) s'
      let s := setReg s R.ARB_PRESENT (getReg s R.ARB_PRESENT ||| 2)
      match chooseSlot s with
      | (none, s) => .next (enterRecovery s)
      | (some (slot, trial), s) =>
        let s := setB (startSlot slot trial s) R.UPD_BOOT F.UPD_BOOT_HANDOVER true
        let s := if withRecord then s else loseRecord (setB s R.UPD_BOOT F.UPD_BOOT_NOREC true)
        .next (selfTestKick (updNotice 0x03 (bit1 withRecord) (bump (ctr 0x0018 7 0) s)))

/-- Seconds of a trial: UPD_CTL.TRIAL, with 0 treated as 1. -/
def trialSeconds (s : State) : Nat := max 1 (getF s R.UPD_CTL F.UPD_CTL_TRIAL)

/-- Whole seconds since the trial started, by LTICK. -/
def trialElapsed (s : State) : Nat := (s.time.ltick + 2 ^ 64 - s.upd.trialFrom) % 2 ^ 64 / 312500000

/-- TRIAL_EXPIRY (R439): the trial time has run out unconfirmed, and the agent hands over to the previous slot. -/
def execTrialExpiry (s : State) : Host.Outcome State Fault Refusal :=
  if getB s R.UPD_STAT F.UPD_STAT_TRIAL ∧ trialSeconds s ≤ trialElapsed s ∧ s.upd.handover.isNone then
    let x := getF s R.UPD_STAT F.UPD_STAT_RUNSLOT
    let h := putSlot x 2 (confirmedOn (1 - x) (presentHeader s))
    .next (advanceHandover (onUpd (fun u => { u with handover := some { header := h, started := false } })
      (noteFallback (1 - x) (setB s R.UPD_STAT F.UPD_STAT_TRIAL false))))
  else .next s

/-! Recovery over the monitor UART (R440). -/

/-- Bytes with the escaping removed; none when a 0x7E stands among them or an escape ends the list. -/
def unescape : List Byte → Option (List Byte)
  | [] => some []
  | [b] => if b = 0x7E ∨ b = 0x7D then none else some [b]
  | b :: c :: rest =>
    if b = 0x7E then none
    else if b = 0x7D then (if c = 0x7E then none else (unescape rest).map (fun r => (c ^^^ 0x20) :: r))
    else (unescape (c :: rest)).map (fun r => b :: r)

/-- Eight-byte words of a list of bytes: n of them. -/
def bytesWords : Nat → List Byte → List DWord
  | 0, _ => []
  | n + 1, bs => BitVec.ofNat 64 (leNat (bs.take 8)) :: bytesWords n (bs.drop 8)

/-- A frame's FOLIO, when its CRC, LEN and length are right. -/
def frameFolio (s : State) (bs : List Byte) : Option FolioReq :=
  let len := leNat (bs.take 2)
  let a := leNat ((bs.drop 2).take 8)
  let body := bs.take (10 + len)
  if (len = 0 ∨ len = 256) ∧ bs.length = 14 + len ∧ leNat (bs.drop (10 + len)) = (crc32 body).toNat then
    let q : Asker := { port := none, src := BitVec.ofNat 16 (nodeAddr s), tag := 0, addr := BitVec.ofNat 48 a }
    let r : FolioReq := {
      asker := q, id := masterId s (.loc 1), folio := a % 2 ^ 24 / 1024, part := a % 1024 / 256, odd := a % 256 ≠ 0,
      session := bitsOf a 24 16, words := bytesWords (len / 8) (body.drop 10), poison := false }
    some r
  else none

/-- RECOVERY_FRAME (R440): the bytes that follow an opening 0x7E on the monitor UART, to the end of the frame or to the 0x7E that
breaks it off. -/
def execRecoveryFrame (bs : List Byte) (s : State) : Host.Outcome State Fault Refusal :=
  if ¬s.upd.recovery then .next s
  else
    let nak := onUpd (fun u => { u with line := .nak }) s
    match unescape bs with
    | none => .next nak
    | some raw =>
      match frameFolio s raw with
      | none => .next nak
      | some r =>
        match judgeFolio r s with
        | some t => .next t
        | none => .next s

end Sys2Proof.Machine
end

