-- ==== Sys2Proof/Machine/Views.lean ====
section
/-! DEFINITION. What each register reads as. Most read as they are stored; the registers here show state that is kept elsewhere:
levels, counts, clocks, positions, and the like. Each function takes the base of the register's row, its instance and the
stored word. -/

namespace Sys2Proof.Machine

/-- A hardware fault holds NODE_FAULT_L (R18, R409, R422): a clock that is off, a refused flash, a failed management SRAM. -/
def faultIn (s : State) : Bool :=
  bitsOf (getReg s R.NODE_CLK_STAT).toNat 2 4 ≠ 0 || getB s R.UPD_STAT F.UPD_STAT_FLASHERR || getB s R.BIST_FLAGS F.BIST_FLAGS_MSRAM

/-- The level that asserts NODE_FAULT_L: NODE_CTL.FAULT or a hardware fault; released while the digital die is in reset (R34). -/
def nodeFaultOut (s : State) : Bool := clocked s && (getB s R.NODE_CTL F.NODE_CTL_FAULT || faultIn s)

/-- The level that asserts NODE_ATTN_L (R34). -/
def nodeAttnOut (s : State) : Bool := clocked s && getB s R.NODE_CTL F.NODE_CTL_ATTN

/-- The monitor is unlocked: by the strap or by a token (R464, R474). -/
def monUnlocked (s : State) : Bool := getB s R.MON_STAT F.MON_STAT_STRAP || s.mon.tokenUnlocked

/-- Node control, update agent and monitor. -/
def viewNode (s : State) (base i : Nat) (w : Word) : Word :=
  if base = R.NODE_STAT then
    let w := F.NODE_STAT_FAULT_IN.put (F.NODE_STAT_SEALED.put w (bit1 (sealed s))) (bit1 (faultIn s))
    F.NODE_STAT_SEAL_WR.put (F.NODE_STAT_RSVD_WR.put w (getCtr s rsvdWr)) (getCtr s sealWr)
  else if base = R.NODE_URST then
    F.NODE_URST_HOLD.put w (bit1 (inUnitReset s (F.NODE_URST_CAP.get w) (F.NODE_URST_INST.get w)))
  else if base = R.UPD_TRIALT then
    F.UPD_TRIALT_S.put 0 (if getB s R.UPD_STAT F.UPD_STAT_TRIAL then trialSeconds s - trialElapsed s else 0)
  else if base = R.UPD_BMAP 0 then
    BitVec.ofNat 32 (((List.range 32).map (fun k => if folioWritten s (32 * i + k) then 2 ^ k else 0)).sum)
  else if base = R.MON_STAT then
    let w := F.MON_STAT_LOCKED.put w (bit1 (!monUnlocked s))
    let w := F.MON_STAT_TERM.put (F.MON_STAT_SERVED.put w s.mon.served.length) s.mon.terminal.length
    F.MON_STAT_FAILS.put w s.mon.failsInRow
  else w

/-- Pins, banks and Scribe clusters. -/
def viewField (s : State) (base i j : Nat) (w : Word) : Word :=
  if base = R.BANK_IN 0 then
    BitVec.ofNat 32 (((List.range 16).map (fun k => getF s (R.PIN_STAT (16 * i + k)) F.PIN_STAT_LEVEL * 2 ^ k)).sum)
  else if base = R.SCR_PIN 0 then windowWord s i
  else if base = R.SCR_FSTAT 0 0 then fstatView s (4 * i + j)
  else if base = R.SCR_DMA_STAT 0 0 then dmaStatView s (4 * i + j)
  else w

/-- Message buses, UARTs, encoders and mains inputs. -/
def viewSerial (s : State) (base i j : Nat) (w : Word) : Word :=
  if base = R.MB_TXREQ 0 0 then txreqView s i j
  else if base = R.MB_TT_STAT 0 then F.MB_TT_STAT_CTIME.put w (cycleTime s i)
  else if base = R.UA_STAT 0 then uartStat s i
  else if base = R.MP_PHASE 0 then BitVec.ofNat 32 ((mainsNow s i).1 / 2 ^ 16)
  else if base = R.MP_CYC 0 then BitVec.ofNat 32 (mainsNow s i).2
  else w

/-- Non-posted slots in a use. -/
def slotsIn (s : State) (p : SlotUse → Bool) : Nat := (s.bridge.np.filter (fun e => p e.2.use)).length

/-- A slot is outstanding. -/
def SlotUse.isOut : SlotUse → Bool
  | .out .. => true
  | _ => false

/-- The lock that binds semaphore n. -/
def semaphore (s : State) (n : Nat) : Option Lock := s.bridge.locks.find? (fun l => l.sem = some n)

/-- Lock waiters for a page (R181). -/
def waitersFor (s : State) (page : Nat) : Nat := (s.bridge.waiters.filter (fun q => q.env.addr.toNat / 4096 = page)).length

/-- Interconnect, pigeonholes, bridge and dead-letter office; `a` is the register's address. The prefetch log shows only where the
access-table block does not lie over it (log entry 10). -/
def viewLocal (s : State) (base i a : Nat) (w : Word) : Word :=
  if base = R.ARB_PRESENT then
    BitVec.ofNat 32 (((List.range 24).map (fun n => if present s n then 2 ^ n else 0)).sum)
  else if base = R.PH_STAT 0 then F.PH_STAT_LEVEL.put w (getPh s i).items.length
  else if base = R.BR_STAT then
    let w := F.BR_STAT_LOCKED.put w (bit1 (grantStands s))
    let w := F.BR_STAT_SEM_USED.put w (s.bridge.locks.filter (fun l => l.sem.isSome)).length
    F.BR_STAT_WAITERS.put w s.bridge.waiters.length
  else if base = R.BR_TAGSTAT then
    F.BR_TAGSTAT_NP_QUAR.put (F.BR_TAGSTAT_NP_OUT.put 0 (slotsIn s SlotUse.isOut)) (slotsIn s (fun u => u = .quarantine))
  else if base = R.BR_SEM_A 0 then
    match semaphore s i with
    | some l => F.BR_SEM_A_PAGE.put (F.BR_SEM_A_VALID.put 0 1) l.page
    | none => 0
  else if base = R.BR_SEM_B 0 then
    match semaphore s i with
    | some l => F.BR_SEM_B_WAIT.put (F.BR_SEM_B_HOLDER.put 0 l.holder.toNat) (waitersFor s l.page)
    | none => 0
  else if base = R.DL_STAT then
    let w := F.DL_STAT_UP_LEVEL.put (F.DL_STAT_LEVEL.put w (dlLevel s)) (upLevel s)
    F.DL_STAT_FWD_BUSY.put w (bit1 (decide (chanState s 2 = 1 ∧ ownerOf s 2 = 5)))
  else if 0x72040 ≤ a ∧ a < 0x72400 then
    ((tabGet (fun _ => []) s.dead.upLog i)[(a - R.UP_ENT_ADDR i) / 4]?).getD 0
  else w

/-- Cells queued for an output, all classes (SO_QLENo): pointers that wait anywhere between input and output. -/
def queuedCells (s : State) (o : Nat) : Nat :=
  let live := fun (p : Ptr) => p.out = o && !p.dead
  let n := fun (t : Table (List Ptr)) => (t.flatMap (fun e => e.2.filter live)).length
  n s.office.waiting + n s.office.middle + n s.office.released + (s.office.held.filter (fun h => live h.1)).length

/-- SO_QLENo.WAIT of a ring output: the classes whose head lacks credit. -/
def waitBits (s : State) (o : Nat) : Nat := ((List.range 4).map (fun c => if lacksCredit s o c then 2 ^ c else 0)).sum

/-- Sorting office. -/
def viewOffice (s : State) (base i j : Nat) (w : Word) : Word :=
  if base = R.SO_FREE then F.SO_FREE_FREE.put w (freeCells s)
  else if base = R.SO_IPOOL then F.SO_IPOOL_USED.put (F.SO_IPOOL_CELLS.put 0 (internalPool s)) (internalUsed s)
  else if base = R.SO_PC 0 0 then F.SO_PC_TXCR.put (F.SO_PC_HELD.put 0 (heldCells s i j)) (txCredit s i j)
  else if base = R.SO_QLEN 0 then 
    let w := F.SO_QLEN_CELLS.put w (queuedCells s i)
    if i < 3 then F.SO_QLEN_WAIT.put w (waitBits s i) else w
  else w

/-- A part of a value: 32 bits from part k on. -/
def partOf32 (x k : Nat) : Word := BitVec.ofNat 32 (x / 2 ^ (32 * k))

/-- A part of an 80-bit reading: 32, 32 and 16 bits. -/
def part80 (x k : Nat) : Word := BitVec.ofNat 32 (x % 2 ^ 80 / 2 ^ (32 * k))

/-- Time bases and domains. -/
def viewTime (s : State) (base i : Nat) (w : Word) : Word :=
  if base = R.LTICK_LO then partOf32 s.time.ltick 0
  else if base = R.LTICK_HI then partOf32 s.time.ltick 1
  else if base = R.ITB_NOW_LO 0 then part80 (itbRead s i) 0
  else if base = R.ITB_NOW_HI 0 then part80 (itbRead s i) 1
  else if base = R.ITB_NOW_TOP 0 then part80 (itbRead s i) 2
  else if base = R.VD_NOW_LO 0 then part80 (vdRead s i) 0
  else if base = R.VD_NOW_HI 0 then part80 (vdRead s i) 1
  else if base = R.VD_NOW_TOP 0 then part80 (vdRead s i) 2
  else w

/-- TK_T: the instant of the last step or of the applied sample; an absolute track takes its value at every edge. -/
def trackInstant (s : State) (n : Nat) : Nat :=
  let t := getTrack s n
  if isRemote s n then (t.sample.map (fun x => x.2.2)).getD 0
  else if isAbsolute s n then now64 s
  else t.t % 2 ^ 64

/-- Tracks and waymarks. -/
def viewTracks (s : State) (base i : Nat) (w : Word) : Word :=
  if base = R.TK_STAT 0 then F.TK_STAT_ABS.put w (bit1 (isAbsolute s i))
  else if base = R.TK_POS_LO 0 then partOf32 (trackPos s i) 0
  else if base = R.TK_POS_HI 0 then partOf32 (trackPos s i) 1
  else if base = R.TK_VEL_LO 0 then partOf32 (wrap 64 (trackVel s i)) 0
  else if base = R.TK_VEL_HI 0 then partOf32 (wrap 64 (trackVel s i)) 1
  else if base = R.TK_T_LO 0 then partOf32 (trackInstant s i) 0
  else if base = R.TK_T_HI 0 then partOf32 (trackInstant s i) 1
  else if base = R.WM_STAT then
    let w := F.WM_STAT_ARMED.put w (s.tracks.entries.filter (fun e => e.2.isSome)).length
    F.WM_STAT_CAP_CNT.put w s.tracks.caps.length
  else w

/-- Duplex unit and BIST; while a handover keeps the core in reset BIST shows the test of target 0x72 (R438). -/
def viewPair (s : State) (base : Nat) (w : Word) : Word :=
  if base = R.DPX_STAT then F.DPX_STAT_READY.put (F.DPX_STAT_DRIVE.put w (bit1 (fieldDrive s))) (bit1 (dpxReady s))
  else if base = R.DPX_PNID then getReg s (R.PT_NID 2)
  else if base = R.BIST_STAT then
    match s.upd.handover with
    | some h => if h.started then F.BIST_STAT_LTARGET.put (F.BIST_STAT_STATE.put w 1) 0x72 else w
    | none => w
  else w

/-- Counters, live and in their shadows (R455 to R461). -/
def viewCounters (s : State) (base i : Nat) (w : Word) : Word :=
  if base = R.CNT_STAT then F.CNT_STAT_PEND.put w s.mon.marks.length
  else if base = R.CNT_DIR_A 0 then Config.directoryWord i 0
  else if base = R.CNT_DIR_B 0 then Config.directoryWord i 1
  else if base = R.CNT_REG_LO 0 then partOf32 (registerValue s.mon.counters i) 0
  else if base = R.CNT_REG_HI 0 then partOf32 (registerValue s.mon.counters i) 1
  else if base = R.CNT_SB0_LO 0 then partOf32 (registerValue s.mon.shadow0 i) 0
  else if base = R.CNT_SB0_HI 0 then partOf32 (registerValue s.mon.shadow0 i) 1
  else if base = R.CNT_SB1_LO 0 then partOf32 (registerValue s.mon.shadow1 i) 0
  else if base = R.CNT_SB1_HI 0 then partOf32 (registerValue s.mon.shadow1 i) 1
  else if base = R.CNT_ARRAY_LO 0 then partOf32 (arrayValue s.mon.counters i) 0
  else if base = R.CNT_ARRAY_HI 0 then partOf32 (arrayValue s.mon.counters i) 1
  else if base = R.CNT_ASH_LO 0 then partOf32 (arrayValue s.mon.arrays i) 0
  else if base = R.CNT_ASH_HI 0 then partOf32 (arrayValue s.mon.arrays i) 1
  else w

/-- What a register reads as. -/
def regView (s : State) (a : Nat) : Word :=
  match findReg a with
  | none => 0
  | some (r, i, j) =>
    let w := getReg s a
    if a < 0x10000 then w
    else if a < 0x20000 then viewNode s r.base i w
    else if a < 0x40000 then viewField s r.base i j w
    else if a < 0x60000 then viewSerial s r.base i j w
    else if a < 0x80000 then viewLocal s r.base i a w
    else if a < 0x90000 then viewOffice s r.base i j w
    else if a < 0xA0000 then w
    else if a < 0xB0000 then viewTime s r.base i w
    else if a < 0xC0000 then viewTracks s r.base i w
    else if a < 0xD0000 then viewPair s r.base w
    else if a < 0xE0000 then w
    else if a < 0xF0000 then viewPair s r.base w
    else viewCounters s r.base i w

end Sys2Proof.Machine
end

