-- ==== Sys2Proof/Machine/Bus.lean ====
section
/-! DEFINITION. The local interconnect's accesses to any address: the registers, each with the rule its chapter gives a read or a
write of it, the wide registers (R9 to R11), the program stores and the memories (R19, R174 to R176). -/

namespace Sys2Proof.Machine

/-! Registers with a rule that spans blocks. -/

/-- A write of RT_CFG: PAIR cannot be set while a junction is enabled (R283); PAIR and SIDEB stay while DPX_CTL.EN is 1, and a
change of them is refused (R353). Field drive follows PAIR (R356). -/
def writeRtCfg (v : Word) (s : State) : State :=
  let old := getReg s R.RT_CFG
  if F.RT_CFG_PAIR.get v = 1 ∧ F.RT_CFG_PAIR.get old = 0 ∧ getB s R.JN_CTL F.JN_CTL_EN then
    setB (declineWrite R.RT_CFG v s) R.JN_STAT F.JN_STAT_CFGREF true
  else if dpxOn s ∧ (F.RT_CFG_PAIR.get v ≠ F.RT_CFG_PAIR.get old ∨ F.RT_CFG_SIDEB.get v ≠ F.RT_CFG_SIDEB.get old) then
    let kept := F.RT_CFG_SIDEB.put (F.RT_CFG_PAIR.put v (F.RT_CFG_PAIR.get old)) (F.RT_CFG_SIDEB.get old)
    setB (writeInPart R.RT_CFG kept v s) R.RT_STAT F.RT_STAT_CFGREF true
  else
    let s := reviewJunction none (plainWrite R.RT_CFG v s)
    if getF s R.RT_CFG F.RT_CFG_PAIR = F.RT_CFG_PAIR.get old then s else refreshPins s

/-- A write of DPX_FMASK: a latched fault that it selects takes the hub to FAULTED (R357). -/
def writeFmask (v : Word) (s : State) : State :=
  let s := plainWrite R.DPX_FMASK v s
  if selectedFaults s ≠ 0 then giveUp s else s

/-- The registers of SO_RES_WRITE. -/
def isSoRes (a : Nat) : Bool := a = R.SO_POOL || (R.SO_RES_A 0 ≤ a && a ≤ R.SO_RES_B 2 && a % 4 = 0)

/-! Writes of registers, block by block. Each answers none where the register has no rule of its own there. -/

/-- Node control, update agent and fuses. -/
def writeNode (m : Master) (base i : Nat) (v : Word) (s : State) : Option State :=
  if base = R.NODE_CTL then some (let t := writeNodeCtl m v s; if resetKeyed v then nodeReset F.NODE_RST_CAUSE_SOFT t else t)
  else if base = R.NODE_WDOG then some (writeNodeWdog v s)
  else if base = R.NODE_URST then some (writeNodeUrst v s)
  else if base = R.NODE_RST_CAUSE then some (plainWrite R.NODE_RST_CAUSE (v &&& (getReg s R.NODE_RST_CAUSE ||| ~~~0x1F)) s)
  else if base = R.UPD_CTL then some (writeUpdCtl (masterId s m) v s)
  else if base = R.ID_FUSE_CMD then some (writeFuseCmd m v s)
  else if base = R.ID_KEYSTAGE 0 then some (writeKeyStage i v s)
  else none

/-- Field pins and banks; PIN_CFG can refuse for the unit's own reason (R40). -/
def writePins (base i : Nat) (v : Word) (s : State) : Option (State × Option Reason) :=
  if base = R.PIN_CFG 0 then some (writePinCfg i v s)
  else if base = R.PIN_OUT 0 then some (writePinOut i v s, none)
  else if base = R.PIN_MAP 0 then some (writePinMap i v s, none)
  else if base = R.BANK_CFG 0 then some (writeBankCfg i v s, none)
  else if base = R.BANK_OUT_SET 0 then some (writeBankOut i true v s, none)
  else if base = R.BANK_OUT_CLR 0 then some (writeBankOut i false v s, none)
  else none

/-- Which of an engine's state and configuration registers lies at a row (R58). -/
def engineRegOf (base : Nat) : Option EngineReg :=
  if base = R.SCR_X 0 0 then some .x
  else if base = R.SCR_Y 0 0 then some .y
  else if base = R.SCR_ISR 0 0 then some .isr
  else if base = R.SCR_OSR 0 0 then some .osr
  else if base = R.SCR_SHC 0 0 then some .shc
  else if base = R.SCR_SHCFG 0 0 then some .shcfg
  else if base = R.SCR_PINS 0 0 then some .pins
  else if base = R.SCR_OLANE_LO 0 0 then some .olaneLo
  else if base = R.SCR_OLANE_HI 0 0 then some .olaneHi
  else if base = R.SCR_ILANE_LO 0 0 then some .ilaneLo
  else if base = R.SCR_ILANE_HI 0 0 then some .ilaneHi
  else none

/-- Scribe clusters. -/
def writeScribe (base i j : Nat) (v : Word) (s : State) : Option State :=
  let n := 4 * i + j
  match engineRegOf base with
  | some r => some (writeEngineReg n r v s)
  | none =>
    if base = R.SCR_CTL 0 0 then some (writeScrCtl n v s)
    else if base = R.SCR_CSYNC 0 then some (writeCsync i v s)
    else if base = R.SCR_FLAGS 0 then some (writeScrFlags i v s)
    else if base = R.SCR_CLKDIV 0 0 then some (writeClkdiv n v s)
    else if base = R.SCR_INJ 0 0 then some (writeInject n v s)
    else if base = R.SCR_PC 0 0 then some (writePc n v s)
    else if base = R.SCR_TXF 0 0 then some (writeTxf n v s)
    else if base = R.SCR_DMA_TX 0 0 then some (writeDma n false v s)
    else if base = R.SCR_DMA_RX 0 0 then some (writeDma n true v s)
    else none

/-- Message buses and gateway. -/
def writeBuses (base i j a : Nat) (v : Word) (s : State) : Option State :=
  if base = R.MB_CTL 0 then some (writeMbCtlOpen i v s)
  else if base = R.MB_NBT 0 ∨ base = R.MB_DBT 0 ∨ base = R.MB_TDC 0 then some (writeMbTiming i a v s)
  else if base = R.MB_TXREQ 0 0 then some ((objsOf j v).foldl (fun s n => requestObj i n false s) s)
  else if base = R.MB_TXCAN 0 0 then some ((objsOf j v).foldl (fun s n => cancelObj i n s) s)
  else if base = R.MB_NEW 0 0 then some (clearNew i j v s)
  else if base = R.MB_TT_CFG 0 then some (writeTtCfg i v s)
  else if base = R.MB_TRIG_A 0 0 ∨ base = R.MB_TRIG_B 0 0 then some (writeTrig i a v s)
  else if base = R.GW_CTL then some (writeGwCtl v s)
  else if base = R.GW_MAP_A 0 then some (writeMap i false v s)
  else if base = R.GW_MAP_B 0 then some (writeMap i true v s)
  else none

/-- UARTs, encoders and mains inputs. -/
def writeUnits (base i a : Nat) (v : Word) (s : State) : Option State :=
  if base = R.UA_CTL 0 then some (writeUaCtl i v s)
  else if base = R.UA_BAUD 0 ∨ base = R.UA_DIR 0 then some (writeUaTiming i a v s)
  else if base = R.UA_TXD 0 then some (writeTxd i v s)
  else if base = R.UA_IMG 0 then some (writeUaImg i v s)
  else if base = R.EN_CTL 0 then some (writeEnCtl i v s)
  else if base = R.EN_MOD 0 then some (writeEnMod i v s)
  else if base = R.EN_COUNT 0 then some (writeEnCount i v s)
  else if base = R.EN_IMG 0 then some (writeImg2 a (R.EN_STAT i) F.EN_STAT_CFGREF v s)
  else if base = R.MP_CTL 0 then some (writeMpCtl i v s)
  else if base = R.MP_IMG 0 then some (writeImg2 a (R.MP_STAT i) F.MP_STAT_CFGREF v s)
  else none

/-- Arbiter, pigeonholes, bridge, dead-letter office and access tables. -/
def writeLocal (id : MasterId) (base i j : Nat) (v : Word) (s : State) : Option State :=
  if base = R.ARB_PRI 0 then some (writeArbPri i v s)
  else if base = R.PH_CFG 0 then some (writePhCfg i v s)
  else if base = R.PH_CTL 0 then some (writePhCtl i v s)
  else if base = R.BR_PFA_A 0 then some (writePfa i 0 v s)
  else if base = R.BR_PFA_B 0 then some (writePfa i 1 v s)
  else if base = R.BR_OC_CMD 0 then some (writeOcCmd i v s)
  else if base = R.BR_OC_DATA 0 0 then some (writeOcData i j v s)
  else if base = R.DL_TAIL then some (writeDlTail v s)
  else if base = R.UP_TAIL then some (writeUpTail v s)
  else if base = R.DL_FADDR then some (writeDlFaddr v s)
  else if base = R.AT_W0 0 0 then some (commitEntry id i j v s)
  else if base = R.AT_W1 0 0 then some (stageEntry id i j 0 v s)
  else if base = R.AT_W2 0 0 then some (stageEntry id i j 1 v s)
  else none

/-- Sorting office, ports, census, routing and junction. -/
def writeRing (base i a : Nat) (v : Word) (s : State) : Option State :=
  if isSoRes a then some (writeSoRes a v s)
  else if base = R.PT_CTL 0 then some (writePtCtl i v s)
  else if base = R.PT_SDS_RX 0 then some (writePtSdsRx i v s)
  else if base = R.PT_I2C_CMD 0 then some (writeI2cCmd i v s)
  else if base = R.CN_CMD then some (writeCnCmd v s)
  else if base = R.RT_CFG then some (writeRtCfg v s)
  else if base = R.RT_GRP 0 then some (writeRtGrp i v s)
  else if base = R.JN_CTL then some (writeJnCtl v s)
  else none

/-- Timetable, time bases and network time. -/
def writeTimes (id : MasterId) (base i j a : Nat) (v : Word) (s : State) : Option State :=
  if base = R.TT_CTL then some (writeTtCtl v s)
  else if base = R.TT_CYCLE then some (writeTtCycle v s)
  else if base = R.TT_T0_LO then some (writeTtT0 id v s)
  else if base = R.TT_T0_HI then some (stageTtT0 id v s)
  else if base = R.TT_ENT_W0 0 0 then some (commitTtEntry id i j v s)
  else if base = R.TT_ENT_W1 0 0 then some (stageTtEntry id i j 0 v s)
  else if base = R.TT_ENT_W2 0 0 then some (stageTtEntry id i j 1 v s)
  else if base = R.TT_ENT_W3 0 0 then some (stageTtEntry id i j 2 v s)
  else if base = R.ITB_INC_LO 0 then some (commitInc id i v s)
  else if base = R.ITB_STEP_LO 0 then some (commitStep id i v s)
  else if base = R.VD_BASE_LO 0 then some (commitVd id i 0 v s)
  else if base = R.VD_ANCHOR_LO 0 then some (commitVd id i 1 v s)
  else if base = R.VD_RATE_LO 0 then some (commitVd id i 2 v s)
  else if base = R.VD_CTL 0 then some (writeVdCtl i v s)
  else if base = R.TM_CTL ∨ base = R.TM_CFG then some (writeTm a v s)
  else none

/-- Tracks, waymarks and duplex unit. -/
def writeMotion (id : MasterId) (base i : Nat) (v : Word) (s : State) : Option State :=
  if base = R.TK_CFG 0 then some (writeTkCfg i false v s)
  else if base = R.TK_RSRC 0 then some (writeTkCfg i true v s)
  else if base = R.TK_CTL 0 then some (writeTkCtl i v s)
  else if base = R.TK_POS_LO 0 then some (writeTkPos id i v s)
  else if base = R.TK_RCFG 0 then some (writeTkRcfg i v s)
  else if base = R.TK_CARM 0 then some (writeTkCarm i v s)
  else if base = R.WM_CTL then some (writeWmCtl v s)
  else if base = R.DPX_CTL then some (whileFollowing (writeDpxCtl v) s)
  else if base = R.DPX_FMASK then some (whileFollowing (writeFmask v) s)
  else none

/-- Power die, BIST and snapshots. -/
def writePower (id : MasterId) (base i a : Nat) (v : Word) (s : State) : Option State :=
  if base = R.PD_CTL then some (writePdCtl v s)
  else if base = R.FEED_CFG then some (writeFeedCfg v s)
  else if base = R.FLD_CTL then some (writeChanCtl 0 v s)
  else if base = R.ZN_CTL 0 then some (writeChanCtl (i + 1) v s)
  else if base = R.SUP_CFG ∨ base = R.FEED_TIM ∨ base = R.FLD_LIM ∨ base = R.FLD_RSNS ∨ base = R.FLD_TIM ∨ base = R.FLD_PGV ∨
      base = R.ZN_CFG 0 then some (writePdCfg a v s)
  else if base = R.PM_FLD_E_LO then some (commitEnergy id 0 v s)
  else if base = R.PM_ZN_E_LO 0 then some (commitEnergy id (i + 1) v s)
  else if base = R.BIST_CMD then some (writeBistCmd v s)
  else if base = R.CNT_SNAP then some (writeCntSnap v s)
  else none

/-- A counter, live or in a shadow: a write is refused with READ_ONLY (R456). -/
def isCounterWord (a : Nat) : Bool := 0xF1000 ≤ a && a < 0x100000

/-- A write of a register that no row of a block's table names: its access codes, or for a part of a wide register its stage and
its commit (R5 to R11). -/
def writePlain (id : MasterId) (a : Nat) (v : Word) (s : State) : State :=
  match findWide a with
  | some (w, part, lo) =>
    match w.kind with
    | .rw | .wo =>
      if part = 0 then commitWide id lo w.parts v (countPart a v s) else countPart a v (stagePart id lo part v s)
    | .ro | .fifo => plainWrite a v s
  | none => plainWrite a v s

/-- A write of a register after its guards: the rule of its block, or the access codes. -/
def regWrite (m : Master) (a : Nat) (v : Word) (s : State) : State × Option Reason :=
  let id := masterId s m
  match findReg a with
  | none => (s, some .unmapped)
  | some (r, i, j) =>
    let own : Option State :=
      if a < 0x20000 then writeNode m r.base i v s
      else if a < 0x30000 then none
      else if a < 0x40000 then writeScribe r.base i j v s
      else if a < 0x50000 then writeBuses r.base i j a v s
      else if a < 0x60000 then writeUnits r.base i a v s
      else if a < 0x80000 then writeLocal id r.base i j v s
      else if a < 0xA0000 then writeRing r.base i a v s
      else if a < 0xB0000 then writeTimes id r.base i j a v s
      else if a < 0xD0000 then writeMotion id r.base i v s
      else writePower id r.base i a v s
    if isCounterWord a then (s, some .readOnly)
    else if 0x20000 ≤ a ∧ a < 0x30000 then (writePins r.base i v s).getD (writePlain id a v s, none)
    else (own.getD (writePlain id a v s), none)

/-! Reads of registers. -/

/-- What a read answers: a word, or a refusal of the unit's own. -/
def wordResp (w : Word) (pois : Bool) : Resp := .data (w.zeroExtend 64) pois

/-- A read of TK_CAP_POS_LO latches the other parts of the capture for its master, TK_CAP_PM and TK_CAP_STAT among them (R329). -/
def readCapture (id : MasterId) (n : Nat) (s : State) : State × Word :=
  let pmHi := getReg s (R.TK_CAP_PM_HI n)
  let s := latchUpper id (R.TK_CAP_POS_LO n) (getReg s (R.TK_CAP_POS_HI n)) (getReg s (R.TK_CAP_PM_LO n)) (getReg s (R.TK_CAP_STAT n)) s
  (latchUpper id (R.TK_CAP_PM_LO n) pmHi 0 0 s, getReg s (R.TK_CAP_POS_LO n))

/-- A read of a part of a wide register: _LO latches the upper parts as they stand, and an upper part comes from the latch (R9).
Write-only parts read 0. -/
def readWide (id : MasterId) (w : WideRow) (part lo a : Nat) (s : State) : State × Word :=
  if w.kind = .wo then (s, 0)
  else if part = 0 then
    (latchUpper id lo (regView s (lo + 4)) (if 3 ≤ w.parts then regView s (lo + 8) else 0)
      (if 4 ≤ w.parts then regView s (lo + 12) else 0) s, regView s lo)
  else (s, upperRead s id lo part (if w.kind = .fifo then 0 else regView s a))

/-- The answer to a read whose word may be poisoned. -/
def markedAnswer (p : State × Word × Bool) : State × Resp := (p.1, wordResp p.2.1 p.2.2)

/-- The answer to a read whose word is clean. -/
def cleanAnswer (p : State × Word) : State × Resp := (p.1, wordResp p.2 false)

/-- A read of a register after its guards. `bad` marks the two words of a popped item as uncorrectable (R154). -/
def regRead (m : Master) (a : Nat) (bad : BitVec 2) (s : State) : State × Resp :=
  let id := masterId s m
  match findReg a with
  | none => (s, .err .unmapped)
  | some (r, i, j) =>
    if r.base = R.PH_POP 0 then markedAnswer (popQueue id i bad s)
    else if r.base = R.PH_ITEM 0 0 then markedAnswer (readItem id i j s)
    else if r.base = R.SCR_RXF 0 0 then markedAnswer (readRxf (4 * i + j) (bad.getLsbD 0) s)
    else if r.base = R.UA_RXD 0 then cleanAnswer (readRxd i s)
    else if r.base = R.BANK_CAP_LO 0 then cleanAnswer (readBankCap id i s)
    else if r.base = R.WM_CAP_LO then cleanAnswer (readWmCap id s)
    else if r.base = R.TK_CAP_POS_LO 0 then cleanAnswer (readCapture id i s)
    else if r.base = R.TK_CAP_PM_LO 0 then (s, wordResp (upperRead s id (R.TK_CAP_POS_LO i) 2 (getReg s a)) false)
    else if r.base = R.TK_CAP_STAT 0 then (s, wordResp (upperRead s id (R.TK_CAP_POS_LO i) 3 (getReg s a)) false)
    else if r.base = R.BR_OC_DATA 0 0 ∧ ocDataPoisoned s i j then (s, .err .poisoned)
    else
      match findWide a with
      | some (w, part, lo) => cleanAnswer (readWide id w part lo a s)
      | none => (s, wordResp (regView s a) (badWord s a))

/-! Memories. -/

/-- A byte offset in the message RAM lies in an object's words that only the controller writes (R106). -/
def objReadOnly (a : Nat) : Bool := 0x0C ≤ a % 0x80 && a % 0x80 < 0x20

/-- A byte of the message RAM as a master reads it: OBJ_STAT shows the controller's NEW and LOST (R106). -/
def messageByte (s : State) (a : Nat) : Byte :=
  if 0x0C ≤ a % 0x80 ∧ a % 0x80 < 0x10 then
    BitVec.ofNat 8 (objStatView s ((a - 0x100000) / 0x4000) (a % 0x4000 / 0x80) / 2 ^ (8 * (a % 0x80 - 0x0C)))
  else getByte s a

/-- The flash holds the update journal and the persistent node data at an address; their formats are not in the spec, so that a
read of the window there returns open values (R413; log entry 11). -/
def flashOpen (a : Nat) : Bool := 0x11100000 ≤ a && a < 0x11240000

/-- A read of n bytes of a memory or of a program store by a master (R19, R85, R176). -/
def memRead (a n : Nat) (s : State) : State × Resp :=
  match regionOf a with
  | .store =>
    let k := (a - 0x30000) / 0x1000
    let i := a % 0x40 / 2
    let w0 := tabGet (fun _ => 0) s.scribe.store (32 * k + i)
    let w1 : BitVec 16 := if n = 4 then tabGet (fun _ => 0) s.scribe.store (32 * k + i + 1) else 0
    (s, .data (BitVec.ofNat 64 (w0.toNat + 65536 * w1.toNat)) false)
  | .oasis =>
    (s, .data (tabGet (fun _ => 0) s.office.words ((a - 0x1000000) / 8)) (readPoisoned s a))
  | .flash =>
    if flashOpen a then
      let (v, s) := fresh 64 s
      (s, .data (BitVec.ofNat 64 (v.toNat % 2 ^ (8 * n))) false)
    else (s, .data (BitVec.ofNat 64 (leNat (masterRead s a n))) false)
  | .messageRam =>
    (s, .data (BitVec.ofNat 64 (leNat ((List.range n).map (fun i => messageByte s (a + i))))) (readPoisoned s a))
  | _ => (s, .data (BitVec.ofNat 64 (leNat (masterRead s a n))) (readPoisoned s a))

/-- An access reads (R448): it is refused, or the register or memory answers. -/
def busRead (m : Master) (lock : Bool) (a n : Nat) (bad : BitVec 2) (s : State) : State × Resp :=
  let x : Access := { m := m, a := a, width := n, write := false, lock := lock }
  match refusal s x with
  | some r => (refuse x s, .err r)
  | none => if regionOf a = .register then regRead m a bad s else memRead a n s

/-- A write of bytes to a memory or program store after its guards: a poisoned write of a store is refused (R176), and so is one of
the words that only a controller writes (R106). -/
def memWrite (a : Nat) (bs : List Byte) (pois : Bool) (s : State) : State × Option Reason :=
  match regionOf a with
  | .store =>
    if pois then (s, some .poisoned)
    else (writeStore ((a - 0x30000) / 0x1000) (a % 0x40) bs.length (BitVec.ofNat 32 (leNat bs)) s, none)
  | .messageRam =>
    if (List.range bs.length).any (fun i => objReadOnly (a + i)) then (s, some .readOnly) else (masterWrite a bs pois s, none)
  | _ => (masterWrite a bs pois (noteStored a bs.length s), none)

/-- An access writes (R448): it is refused, or the register or memory takes it; a poisoned write of a register is refused with
POISONED (R176). -/
def busWrite (m : Master) (lock : Bool) (a : Nat) (bs : List Byte) (pois : Bool) (s : State) : State × Option Reason :=
  let x : Access := { m := m, a := a, width := bs.length, write := true, lock := lock }
  match refusal s x with
  | some r => (refuse x s, some r)
  | none =>
    if regionOf a = .register then
      if pois then (s, some .poisoned) else regWrite m a (BitVec.ofNat 32 (leNat bs)) (dropOverlap a bs.length s)
    else memWrite a bs pois s

/-! The commands. -/

/-- The answer of a write. -/
def answerWrite (p : State × Option Reason) : State :=
  match p with
  | (s, none) => answer .ok s
  | (s, some r) => answer (.err r) s

/-- A write access by a master to any address: nothing answers while the digital die is in reset, or while a locked grant keeps the
master waiting (R150). -/
def writeAccess (m : Master) (a : Nat) (bs : List Byte) (s : State) : State :=
  if clocked s ∧ ¬lockedOut s m a then answerWrite (busWrite m false a bs false s) else answer .none s

/-- A read access of a register by a master. -/
def readAccess (m : Master) (a : Nat) (s : State) : State :=
  if clocked s ∧ ¬lockedOut s m a then (let (t, r) := busRead m false a 4 0 s; answer r (coreMeets m r t)) else answer .none s

/-- A 32-bit write access of any address. -/
def wordWrite (m : Master) (a : Nat) (v : Word) (s : State) : State :=
  if a = R.NODE_CTL then nodeCtlAccess m v s else writeAccess m a (leBytes 4 v.toNat) s

/-- REGISTER_WRITE (R4 to R7): a write access of `width` bytes to any address by a master; a width that the address does not take is
answered UNALIGNED (R4, R21). -/
def execRegisterWrite (m : Master) (a : Word) (width : Nat) (v : DWord) (s : State) : Host.Outcome State Fault Refusal :=
  .next (if width = 4 ∧ a.toNat = R.NODE_CTL then nodeCtlAccess m (v.truncate 32) s
    else writeAccess m a.toNat (leBytes width v.toNat) s)

/-- An address is part p of a wide register, or a later part where p is 1. -/
def isWidePart (a p : Nat) : Bool :=
  match findWide a with
  | some (_, part, _) => if p = 0 then part = 0 else 1 ≤ part
  | none => false

/-- WIDE_LO_READ (R9): a read of a _LO register; at any other address it is the read access it is. -/
def execWideLoRead (m : Master) (a : Word) (s : State) : Host.Outcome State Fault Refusal := .next (readAccess m a.toNat s)

/-- WIDE_HI_WRITE (R10): a write of a _HI or _TOP register; at any other address it is the write access it is. -/
def execWideHiWrite (m : Master) (a : Word) (v : Word) (s : State) : Host.Outcome State Fault Refusal :=
  .next (wordWrite m a.toNat v s)

/-- WIDE_LO_WRITE (R11): a write of a _LO register; at any other address it is the write access it is. -/
def execWideLoWrite (m : Master) (a : Word) (v : Word) (s : State) : Host.Outcome State Fault Refusal :=
  .next (wordWrite m a.toNat v s)

/-- SO_RES_WRITE (R214): a write of SO_RESp or SO_POOL; at any other address it is the write access it is. -/
def execSoResWrite (m : Master) (a : Word) (v : Word) (s : State) : Host.Outcome State Fault Refusal :=
  .next (wordWrite m a.toNat v s)

end Sys2Proof.Machine
end

