-- ==== Sys2Proof/Machine/Departure.lean ====
section
/-! DEFINITION. Departure from the sorting office (chapter 09): the start and the end of an envelope at a ring output, delivery at an internal
one, and words of the buffer that turn out uncorrectable (R229). -/

namespace Sys2Proof.Machine

/-! Uncorrectable words (R229, R396). Word w of an envelope: 0 to 2 the header, then the payload, and the trailer. -/

/-- The local address of word w of a stored envelope. -/
def wordPlace (e : Stored) (w : Nat) : Nat :=
  let pos := if w < 3 + e.env.lenw.toNat then w else 8 * e.cells - 1
  match e.held[pos / 8]? with
  | some c => cellAddr c.addr (pos % 8)
  | none => 0

/-- The words of a stored envelope that an output reads as uncorrectable: those it finds now, and those marked before (R396). -/
def badWords (s : State) (e : Stored) (found : BitVec 36) : List Nat :=
  (List.range (4 + e.env.lenw.toNat)).filter (fun w => found.getLsbD w || readPoisoned s (wordPlace e w))

/-- An output meets an uncorrectable word: it counts as an uncorrectable cell; one that is not yet marked is a fresh error (R229, R396). -/
def noteUncorr (e : Stored) (w : Nat) (s : State) : State :=
  let s := bump (ctr 0x000C 12 0) (setB s R.SO_EVT F.SO_EVT_UNCORR true)
  let a := wordPlace e w
  if readPoisoned s a then s else freshError 4 a a s

/-- Every uncorrectable word met in one reading. -/
def noteAll (e : Stored) (ws : List Nat) (s : State) : State := ws.foldl (fun s w => noteUncorr e w s) s

/-- A word that keeps the envelope from starting: of its header, or its trailer (R229). -/
def spoils (e : Stored) (w : Nat) : Bool := w < 3 || w = 3 + e.env.lenw.toNat

/-- An uncorrectable word met when the header has left: a payload word is marked in the trailer, a trailer word makes the trailer a stomped one
(R229). -/
def markLate (w : Nat) (e : Envelope) : Envelope :=
  if w < 3 then e
  else if w - 3 < e.lenw.toNat then { e with poison := e.poison ||| BitVec.ofNat 32 (2 ^ (w - 3)) }
  else stomp e

/-! Ring outputs. -/

/-- An envelope's ring postmark of transmission is kept at the port, and handed to the time and track unit where the kind is one of P5's
(R254, R255). -/
def markStart (o : Nat) (e : Envelope) (m : RingMark) (s : State) : State :=
  let s := onPort o (fun t => { t with txMark := some m }) s
  if portOfKind e.kind = 5 then onNet o (fun n => { n with txMark := some m }) s else s

/-- The ITB3 reading at which a STEP left on TIE goes into the next one (R358). -/
def stepStarted (o : Nat) (e : Envelope) (m : RingMark) (s : State) : State :=
  if o = 2 ∧ e.kind = kHealth ∧ bitsOf (payloadWord e 0).toNat 0 4 = 1 then
    onDpx (fun d => { d with txStep := some (txReadingIn s 3 2 m / 2 ^ 16 % 2 ^ 64) }) s
  else s

/-- A ring output starts an envelope: credit is charged, and the cells are counted for the AUDIT (R202, R204, R221, R226, R240, R254). -/
def startAt (o c : Nat) (e : Stored) (env : Envelope) (ph : Nat) (s : State) : State :=
  let add := fun (t : Table Nat) n => tabSet (fun _ => 0) t c (tabGet (fun _ => 0) t c + n)
  let s := onPort o (fun t => { t with
    sent := if c = 0 then t.sent else tabSet (fun _ => 0) t.sent c ((tabGet (fun _ => 0) t.sent c + e.cells) % 65536),
    inTransit := add t.inTransit 1 }) s
  let s := if poisonBits env ≠ 0 then consumePoison 6 s else s
  let m := markAt s 0 ph
  let s := markStart o env m s
  let s := if e.inp < 3 then s else stepStarted o env m (timeStarted o env m s)
  setSending o (some (e.id, env)) (notePassed o c s)

/-- ENVELOPE_START (R216, R221, R226, R229, R254): an idle output of a port that is UP starts the next envelope, ph steps after the FCLK edge;
one of whose header words, or whose trailer, is uncorrectable is discarded before it starts. -/
def execEnvelopeStart (o : Fin 3) (uncorr : BitVec 36) (ph : Fin 32) (s : State) : Host.Outcome State Fault Refusal :=
  if ¬portUp s o ∨ (sendingAt s o).isSome then .next s
  else
    match (nextClass s o).bind (fun c => (headOf s o c).map (fun e => (c, e))) with
    | none => .next s
    | some (c, e) =>
      let ws := badWords s e uncorr
      let s := noteAll e ws s
      if ws.any (spoils e) then .next (dropTarget e.id o s)
      else .next (startAt o c e (ws.foldl (fun e w => markWord w e) (outgoing e)) ph s)

/-- The counts of an envelope that leaves at an output (R228, R231). -/
def countOut (o : Nat) (e : Stored) (s : State) : State :=
  let c := e.env.cls.toNat
  let s := bump (ctr 0x000C 3 (8 * c + o)) (bumpN (ctr 0x000C 2 (8 * c + o)) e.cells s)
  let s := bump (ctr 0x000C (if e.cutThrough then 13 else 14) o) s
  if e.env.mc then bump (ctr 0x000C 11 o) s else s

/-- ENVELOPE_SENT (R211, R219, R229, R239, R259): the trailer leaves. A bad envelope that had started leaves stomped; uncorrectable words met
after its header are marked in the trailer; the cells' reference counts fall, and freed cells return to their pools and release counts. A stamp
that was due follows. -/
def execEnvelopeSent (o : Fin 3) (uncorr : BitVec 36) (s : State) : Host.Outcome State Fault Refusal :=
  match sendingAt s o with
  | none => .next s
  | some (id, env) =>
    match findStored s id with
    | none => .next (setSending o none s)
    | some e =>
      if ¬e.whole ∨ arrivedCells s o e < e.cells then .next s
      else
        let ws := (badWords s e uncorr).filter (fun w => 3 ≤ w && !(w - 3 < env.lenw.toNat && env.poison.getLsbD (w - 3)))
        let s := noteAll e ws s
        let env := ws.foldl (fun e w => markLate w e) env
        let s := if payloadCheck env = .stomped then bump (ctr 0x000C 4 o) s else s
        let s := bumpN (ptCtr 0 (8 * o.val)) (4 + env.lenw.toNat) (countOut o e s)
        let s := onOffice (fun f => { f with gone := tabSet (fun _ => none) f.gone o (some env) }) s
        let s := dropTarget id o (setSending o none (sendBlock o false (trailerWord env) s))
        .next (if (getPort s o).stampDue then sendStamp o s else s)

/-! Internal outputs. -/

/-- Bit c of SO_QLENo.WAIT: the head of the class lacks acceptance. -/
def setWait (out c : Nat) (b : Bool) (s : State) : State := setB s (R.SO_QLEN out) ⟨16 + c, 1⟩ b

/-- INTERNAL_DELIVERY (R225, R229): internal output 3 + o offers the next released envelope whole to its unit, which takes it, or holds the
head of its class. An uncorrectable payload word is delivered poisoned; with one in the header or the trailer the envelope is discarded. -/
def execInternalDelivery (o : Fin 5) (accept : Bool) (uncorr : BitVec 36) (s : State) : Host.Outcome State Fault Refusal :=
  let out := o.val + 3
  match (nextClass s out).bind (fun c => (headOf s out c).map (fun e => (c, e))) with
  | none => .next s
  | some (c, e) =>
    if ¬e.whole ∨ arrivedCells s out e < e.cells then .next s
    else if ¬accept then .next (setWait out c true s)
    else
      let ws := badWords s e uncorr
      let s := noteAll e ws (setWait out c false (notePassed out c s))
      if ws.any (spoils e) then .next (dropTarget e.id out s)
      else
        let env := ws.foldl (fun e w => markWord w e) e.env
        let s := dropTarget e.id out (countOut out e s)
        .next (onOffice (fun f => { f with delivered := f.delivered ++ [{ port := out, env := env, mark := e.mark }] }) s)

end Sys2Proof.Machine
end

