-- ==== Sys2Proof/Machine/Inbound.lean ====
section
/-! DEFINITION. The inbound half of the post office bridge (chapter 07): the requests it holds, the checks and locks at their
start, their pieces as interconnect accesses, the answers, and the read-ahead. -/

namespace Sys2Proof.Machine

/-! A request's parts (R161 to R164, R167). -/

/-- The master ID that the request's accesses carry: SRC, and MI in TAG[10:7] (R167). -/
def requestId (e : Envelope) : MasterId := e.src ++ e.tag.extractLsb' 7 4

/-- BYTES of the access word (R162). -/
def bytesOf (e : Envelope) : Nat := (payloadWord e 0).toNat % 512

/-- LENW that R162 gives a request. -/
def lenwDue (e : Envelope) : Nat := if carriesData e.kind then 1 + ceilDiv (bytesOf e) 8 else 1

/-- The request is refused as malformed (R164): BAD_REQUEST, or UNALIGNED where only the alignment is wrong. -/
def malformed (e : Envelope) : Option Reason :=
  let post := e.kind = kWriteP
  let index := e.tag.toNat / 4
  if (payloadWord e 0).toNat / 512 ≠ 0 ∨ ¬bytesAllowed e.kind (bytesOf e) ∨ e.lenw.toNat ≠ lenwDue e ∨
      (¬post ∧ 512 ≤ index) ∨ (post ∧ index < 512) ∨ (post ∧ e.lock) ∨ (e.mc ∧ ¬post) then some .badRequest
  else if ¬bytesAligned (bytesOf e) (addrOf e) then some .unaligned
  else none

/-- Data byte i of a write (R163). -/
def dataByte (e : Envelope) (i : Nat) : Byte := BitVec.ofNat 8 ((payloadWord e (1 + i / 8)).toNat / 2 ^ (8 * (i % 8)))

/-- n data bytes of a write from byte i on. -/
def dataBytes (e : Envelope) (i n : Nat) : List Byte := (List.range n).map (fun k => dataByte e (i + k))

/-- The request's kind or its LOCK bit makes it part of a locked sequence. -/
def lockFlagged (e : Envelope) : Bool := e.lock || e.kind = kLockRead || e.kind = kUnlockWrite

/-- Every byte of the request lies in one 4 KiB page. -/
def withinPage (e : Envelope) (page : Nat) : Bool := pageOf (addrOf e) = page && pageOf (addrOf e + bytesOf e - 1) = page

/-! Pieces (R173). -/

/-- The length of the piece at an address with n bytes left of a request of `bytes` bytes: one register, or a burst of up to 8
beats that does not cross a 64-byte boundary. -/
def pieceLen (bytes a n : Nat) : Nat :=
  match regionOf a with
  | .register | .store | .unmapped => min n 4
  | _ => if bytes ≤ 4 then n else min n (64 - a % 64)

/-- The pieces of n bytes from an address, in ascending order; at most `fuel` of them. -/
def piecesFrom (bytes : Nat) : Nat → Nat → Nat → List (Nat × Nat)
  | 0, _, _ => []
  | fuel + 1, a, n =>
    if n = 0 then []
    else (a, pieceLen bytes a n) :: piecesFrom bytes fuel (a + pieceLen bytes a n) (n - pieceLen bytes a n)

/-- The beats of a piece: one of up to 4 bytes, or beats of 8 bytes. -/
def beatsOf (a n : Nat) : List (Nat × Nat) := if n ≤ 4 then [(a, n)] else (List.range (n / 8)).map (fun k => (a + 8 * k, 8))

/-- A data word of a write is poisoned (R176, R201). -/
def wordIsPoisoned (e : Envelope) (i : Nat) : Bool := (poisonBits e).getLsbD (1 + i / 8)

/-- One beat of a write. -/
def writeBeat (c : Current) (b : Nat × Nat) (s : State) : State × Option Reason :=
  let i := b.1 - addrOf c.env
  let pois := wordIsPoisoned c.env i
  let s := if pois then consumePoison (if regionOf b.1 = .register then 1 else 0) s else s
  busWrite (.ring c.id) c.locked b.1 (dataBytes c.env i b.2) pois s

/-- A write piece: its beats are committed together, or none of them (R142, R174). -/
def writePiece (c : Current) (p : Nat × Nat) (s : State) : State × Option Reason :=
  match (beatsOf p.1 p.2).findSome? (fun b => (writeBeat c b s).2.map (fun r => ((writeBeat c b s).1, r))) with
  | some (t, r) => (t, some r)
  | none => ((beatsOf p.1 p.2).foldl (fun s b => (writeBeat c b s).1) s, none)

/-- What a read answers, as n bytes with their poison, or as a reason. -/
def respBytes (n : Nat) : Resp → Except Reason (List Byte × Bool)
  | .data v p => .ok (leBytes n v.toNat, p)
  | .err r => .error r
  | _ => .ok (leBytes n 0, false)

/-- A read of a memory word finds it uncorrectable, or corrects it (R396, R399). -/
def foundWord (f : Found) (a : Nat) (s : State) : State :=
  match memClass a, f with
  | some c, .uncorrectable => if readPoisoned s a then s else freshError c a (readPlace s a) s
  | some c, .correctable => correctedWord c a s
  | _, _ => s

/-- The beats of a read, with what the k-th of them finds in its word, up to the first that is refused. -/
def readBeats (id : MasterId) (lock : Bool) (bad : BitVec 2) (f : Found) :
    Nat → List (Nat × Nat) → State → State × Except Reason (List (List Byte × Bool))
  | _, [], s => (s, .ok [])
  | k, b :: bs, s =>
    let x : Access := { m := .ring id, a := b.1, width := b.2, write := false, lock := lock }
    let s := if k = 0 ∧ (refusal s x).isNone then foundWord f b.1 s else s
    let (s, r) := busRead (.ring id) lock b.1 b.2 bad s
    match respBytes b.2 r with
    | .error e => (s, .error e)
    | .ok d =>
      match readBeats id lock bad (if k = 0 then .clean else f) (k - 1) bs s with
      | (s, .ok ds) => (s, .ok (d :: ds))
      | (s, .error e) => (s, .error e)

/-! Answers (R165, R174, R190, R191). -/

/-- An answer of a kind to a request (R165). -/
def answerOf (s : State) (k : BitVec 5) (payload : List DWord) (pois : BitVec 32) (e : Envelope) : Envelope :=
  let n := build s (answerClass e) k false e.src.toNat (getF s R.BR_HOPS F.BR_HOPS_HOPS) payload
  { n with tag := e.tag, addr := e.addr, poison := pois, poisonAny := pois ≠ 0 }

/-- The 64-bit words of a list of bytes, zero-padded (R161, R163). -/
def packWords (bs : List Byte) : List DWord :=
  (List.range (ceilDiv bs.length 8)).map (fun w => BitVec.ofNat 64 (leNat ((bs.drop (8 * w)).take 8)))

/-- A refused or failed request: the refusal is counted, a multicast one at this member, and any other is answered by an NDN or
error response (R165, R174). -/
def refuseRequest (reason cause pieces : Nat) (data : DWord) (pois : Bool) (e : Envelope) (s : State) : State :=
  let s := bump (ctr 0x000A 3 0) s
  if e.mc then bump (ctr 0x000A 13 0) s
  else if quarantined s then s
  else sendNdn reason cause pieces data pois e (bump (ctr 0x000A 1 0) s)

/-- A request of which no piece is performed is refused. -/
def refuseWhole (r : Reason) (e : Envelope) (s : State) : State :=
  refuseRequest r.code 0 0 (ndnData e).1 (ndnData e).2 e s

/-- A request that was performed is answered: nothing for WRITE_P, WRITE_ACK for the other writes, READ_DATA for the reads (R161). -/
def answerDone (e : Envelope) (bytes : List Byte) (pois : BitVec 32) (s : State) : State :=
  if e.kind = kWriteP ∨ quarantined s then s
  else
    let s := bump (ctr 0x000A 1 0) s
    if carriesData e.kind then sendOrWait 3 none (answerOf s kWriteAck [] 0 e) s
    else sendOrWait 3 none (answerOf s kReadData (packWords bytes) pois e) s

/-! Read-ahead (R185, R186). -/

/-- Every one of n bytes is prefetchable (R185). -/
def allPrefetchable (s : State) (a n : Nat) : Bool := (List.range n).all (fun i => prefetchable s (a + i))

/-- The range lies wholly in the buffer, and no byte of it has been consumed. -/
def heldIn (b : ReadAhead) (a n : Nat) : Bool :=
  b.addr ≤ a && a + n ≤ b.addr + 64 && (List.range n).all (fun i => !b.claimed.getLsbD (a - b.addr + i))

/-- The buffer from which a READ of master ID M is answered (R186). -/
def hitBuffer (s : State) (id : MasterId) (a n : Nat) : Option (Nat × ReadAhead) :=
  [0, 1, 2, 3].findSome? (fun k =>
    match getBuf s k with
    | some b => if b.master = id ∧ heldIn b a n then some (k, b) else none
    | none => none)

/-- A READ of M that lies wholly in no buffer of M discards them (R186). -/
def dropReader (id : MasterId) (a n : Nat) (s : State) : State :=
  [0, 1, 2, 3].foldl (fun s k =>
    match getBuf s k with
    | some b => if b.master = id ∧ ¬heldIn b a n then dropBuf 3 k s else s
    | none => s) s

/-- The beat width of a read-ahead from E: the widest that E is aligned to, and 4 in a register block. -/
def fillWidth (e : Nat) : Nat :=
  if regionOf e = .register ∨ (e % 4 = 0 ∧ e % 8 ≠ 0) then 4 else if e % 8 = 0 then 8 else if e % 2 = 0 then 2 else 1

/-- The beats of a read-ahead from E. -/
def fillBeats (e : Nat) : List (Nat × Nat) := (List.range (64 / fillWidth e)).map (fun k => (e + k * fillWidth e, fillWidth e))

/-- Where buffer data goes: a free buffer, or the least recently used one (R186). -/
def pickBuffer (s : State) : Nat :=
  match [0, 1, 2, 3].find? (fun k => (getBuf s k).isNone) with
  | some k => k
  | none =>
    let age := fun k => match getBuf s k with
      | some b => b.used
      | none => 0
    ([0, 1, 2, 3].find? (fun k => [0, 1, 2, 3].all (fun j => age k ≤ age j))).getD 0

/-- The words of a buffer that hold poison. -/
def bufferPoison (e : Nat) (ds : List (List Byte × Bool)) : BitVec 8 :=
  BitVec.ofNat 8 (((List.range 8).map (fun w =>
    if (ds.zip (fillBeats e)).any (fun d => d.1.2 && (d.2.1 - e) / 8 = w) then 2 ^ w else 0)).sum)

/-- PREFETCH_FILL (R186): the bridge reads the 64 bytes from E for M, where all are prefetchable, lie in E's page and are M's to
read. -/
def fillBuffer (id : MasterId) (e : Nat) (s : State) : State :=
  if ¬getB s R.BR_CTL F.BR_CTL_PF_EN ∨ ¬allPrefetchable s e 64 ∨ pageOf e ≠ pageOf (e + 63) ∨
      ¬(fillBeats e).all (fun b => (refusal s { m := .ring id, a := b.1, width := b.2, write := false, lock := false }).isNone) then s
  else
    match readBeats id false 0 .clean 0 (fillBeats e) s with
    | (s, .ok ds) =>
      let k := pickBuffer s
      let s := dropBuf 1 k s
      let n := s.bridge.useCount + 1
      let b : ReadAhead :=
        { master := id, addr := e, data := ds.flatMap (fun d => d.1), poison := bufferPoison e ds, claimed := 0,
          pm := pmVd s (getF s R.DL_CTL F.DL_CTL_VD), used := n }
      setBuf k (some b) (sideGrant 0 (onBridge (fun t => { t with useCount := n }) s))
    | (s, .error _) => s

/-- The address at which M's previous READ ended. -/
def lastEnd (s : State) (id : MasterId) : Option Nat := (s.bridge.lastRead.find? (fun x => x.1 = id)).map (fun x => x.2)

/-- A successful READ of M is noted; one that began where the previous one ended makes the bridge read ahead (R186). -/
def noteRead (id : MasterId) (a n : Nat) (s : State) : State :=
  let seq := lastEnd s id = some a
  let s := onBridge (fun t => { t with lastRead := (id, a + n) :: t.lastRead.filter (fun x => x.1 ≠ id) }) s
  if seq then fillBuffer id (a + n) s else s

/-- The poison of n bytes at offset i of a buffer, by 8-byte word of the READ_DATA. -/
def slicePoison (b : ReadAhead) (i n : Nat) : BitVec 32 :=
  BitVec.ofNat 32 (((List.range (ceilDiv n 8)).map (fun w =>
    if (List.range (min 8 (n - 8 * w))).any (fun k => b.poison.getLsbD ((i + 8 * w + k) / 8)) then 2 ^ w else 0)).sum)

/-- A READ is answered from buffer k, and consumes those bytes; at the buffer's end the bridge reads ahead again (R186). -/
def answerBuffer (id : MasterId) (k : Nat) (b : ReadAhead) (e : Envelope) (s : State) : State :=
  let i := addrOf e - b.addr
  let n := bytesOf e
  let u := s.bridge.useCount + 1
  let s := onBridge (fun t => { t with useCount := u }) (bump (ctr 0x000A 9 0) s)
  let s := setBuf k (if i + n = 64 then none else some { b with claimed := b.claimed ||| BitVec.ofNat 64 ((2 ^ n - 1) * 2 ^ i), used := u }) s
  let s := answerDone e ((b.data.drop i).take n) (slicePoison b i n) s
  let s := onBridge (fun t => { t with lastRead := (id, addrOf e + n) :: t.lastRead.filter (fun x => x.1 ≠ id) }) s
  if i + n = 64 then fillBuffer id (addrOf e + n) s else s

/-! Locks at the start of a request (R179 to R182). -/

/-- A piece needs the interconnect: all do but those on the control path (R144), and there too the LOCK_READ's first piece that begins a
locked grant (R150; DESIGN CHOICE, log entry 140). -/
def needsGrant (s : State) (c : Current) (a : Nat) : Bool :=
  !(0x60000 ≤ a && a < 0x60100) || (c.env.kind = kLockRead && c.done = 0 && s.bridge.locks.any (fun l => l.holder = c.id && l.sem.isNone))

/-- The bridge asks for the interconnect for a request's next piece (R145). -/
def askPiece (c : Current) (s : State) : State :=
  match c.pieces with
  | [] => s
  | p :: _ => if needsGrant s c p.1 then request 0 s else s

/-- The bridge starts to perform a request. -/
def perform (r : Request) (s : State) : State :=
  let a := addrOf r.env
  let n := bytesOf r.env
  let c : Current :=
    { env := r.env, id := r.id, pieces := piecesFrom n n a n, done := 0, bytes := [], poison := 0, locked := lockFlagged r.env }
  askPiece c (onBridge (fun b => { b with current := some c }) (bump (ctr 0x000A 0 0) s))

/-- A LOCK_READ takes its lock and starts (R179, R180). -/
def lockAndPerform (r : Request) (s : State) : State := perform r (takeLock (lockFor r s) s)

/-- A LOCK_READ starts, waits in the list of 16, or is refused with BUSY or LOCK_ORDER (R179, R181, R182). -/
def startLockRead (r : Request) (s : State) : State :=
  let page := pageOf (addrOf r.env)
  if (lockOf s r.id).isSome ∨ s.bridge.waiters.any (fun w => w.id = r.id) ∨ ¬withinPage r.env page then
    refuseWhole .lockOrder r.env s
  else if canLock s page then lockAndPerform r s
  else if s.bridge.waiters.length < 16 then
    bump (ctr 0x000A 6 0) (onBridge (fun b => { b with waiters := b.waiters ++ [r] }) s)
  else refuseWhole .busy r.env s

/-- A LOCK-flagged request or UNLOCK_WRITE is in order: its master ID holds a lock, and its pieces stay in the locked page (R179). -/
def inSequence (s : State) (r : Request) : Bool :=
  match lockOf s r.id with
  | some l => withinPage r.env l.page
  | none => false

/-- A request starts: it is checked under R164, R179 and R185, answered from a read-ahead buffer, or split into its pieces (R172,
R173, R186). -/
def startRequest (r : Request) (s : State) : State :=
  let e := r.env
  match malformed e with
  | some why =>
    let s := setB s R.BR_STAT F.BR_STAT_BADREQ true
    if e.mc ∧ e.kind ≠ kWriteP then bump (ctr 0x000A 12 0) s else refuseWhole why e s
  | none =>
    let s := if e.kind = kRead then dropReader r.id (addrOf e) (bytesOf e) s else s
    if e.kind = kLockRead then startLockRead r s
    else if lockFlagged e ∧ ¬inSequence s r then refuseWhole .lockOrder e s
    else if e.kind = kRead ∧ e.prefetch ∧ ¬allPrefetchable s (addrOf e) (bytesOf e) then refuseWhole .noPrefetch e s
    else if e.kind = kRead ∧ ¬e.lock then
      match hitBuffer s r.id (addrOf e) (bytesOf e) with
      | some (k, b) => answerBuffer r.id k b e (bump (ctr 0x000A 0 0) s)
      | none => perform r s
    else perform r s

/-! The queue of requests (R172, R181, R182). -/

/-- The class by which a request is chosen: one that arrived in the Scheduled class counts as Urgent. -/
def startClass (r : Request) : Nat := classOrUrgent r.env.cls.toNat

/-- Two requests keep their order: one SRC and one class (R172). -/
def sameStream (r q : Request) : Bool := r.env.src = q.env.src && r.env.cls = q.env.cls

/-- A request's master waits with a LOCK_READ: its requests are held (R181). -/
def masterWaits (s : State) (r : Request) : Bool := (s.bridge.waiters ++ s.bridge.ready).any (fun w => w.id = r.id)

/-- A request can start, given those ahead of it (R172, R181, R182). -/
def canBegin (s : State) (ahead : List Request) (r : Request) : Bool :=
  let free := !ahead.any (fun q => sameStream r q && !masterWaits s q)
  match lockedGrant s with
  | none => !masterWaits s r && free
  | some l =>
    if r.id = l.holder then lockFlagged r.env && !ahead.any (fun q => sameStream r q && q.id = l.holder && lockFlagged q.env)
    else r.env.kind = kLockRead && !masterWaits s r && free

/-- The requests that can start, oldest first. -/
def startable (s : State) : List Request → List Request → List Request
  | _, [] => []
  | ahead, r :: rest => if canBegin s ahead r then r :: startable s (ahead ++ [r]) rest else startable s (ahead ++ [r]) rest

/-- The next request to start: Urgent, Management, Bulk, with the 8th start given to Bulk requests that 7 passed over (R172). -/
def nextRequest (s : State) : Option Request :=
  let rs := startable s [] s.bridge.inbound
  let pick := fun c => rs.find? (fun r => startClass r = c)
  let inOrder := (pick 1).orElse (fun _ => (pick 3).orElse (fun _ => pick 2))
  if 7 ≤ s.bridge.passed then (pick 2).orElse (fun _ => inOrder) else inOrder

/-- A request leaves the queue and starts; the starts that passed Bulk over are counted (R172). -/
def beginRequest (r : Request) (s : State) : State :=
  let bulk := (startable s [] s.bridge.inbound).any (fun q => startClass q = 2)
  startRequest r (onBridge (fun b => { b with
    inbound := b.inbound.erase r,
    passed := if startClass r = 2 then 0 else if bulk then min 7 (b.passed + 1) else 0 }) s)

/-- A LOCK_READ that waited starts: one that has been given its lock, else the oldest whose lock can be taken (R181). -/
def startWaiter (s : State) : State :=
  match s.bridge.ready with
  | r :: rest => perform r (onBridge (fun b => { b with ready := rest }) s)
  | [] =>
    match nextLocker s none with
    | some r => lockAndPerform r (onBridge (fun b => { b with waiters := b.waiters.erase r }) s)
    | none => s

/-- A LOCK_READ that waited can start. -/
def waiterDue (s : State) : Bool := s.bridge.ready ≠ [] || (nextLocker s none).isSome

/-- The bridge is between requests, and no logic test holds its queue (R173, R403). -/
def bridgeIdle (s : State) : Bool := s.bridge.current.isNone && !underTest s 0x70

/-- The bridge starts its next request: a waiter whose lock is free, else the next of the queue. -/
def startNext (s : State) : State :=
  if ¬bridgeIdle s then s
  else if waiterDue s then startWaiter s
  else
    match nextRequest s with
    | some r => beginRequest r s
    | none => s

/-- A request arrives: a quarantined node discards and counts it (R165), and so does a bridge whose queue a logic test holds once 32
are kept (R409); otherwise it is queued, and an idle bridge with no other request starts it at once. A full queue leaves it with the
sorting office (R172). -/
def arrive (e : Envelope) (s : State) : State :=
  let r : Request := { env := e, id := requestId e }
  if quarantined s then bump (ctr 0x000A 12 0) (takeDelivered e s)
  else if 32 ≤ s.bridge.inbound.length + bit1 s.bridge.current.isSome then
    if underTest s 0x70 then bump (ctr 0x0016 7 0) (takeDelivered e s) else s
  else
    let s := if poisonMismatch e then bump (ctr 0x000B 7 0) s else s
    let s := takeDelivered e s
    if e.kind = kLockRead ∧ masterWaits s r then refuseWhole .lockOrder e s
    else
      let alone := s.bridge.inbound = []
      let s := onBridge (fun b => { b with inbound := b.inbound ++ [r] }) s
      if alone ∧ ¬waiterDue s then startNext s else s

/-- A request of a kind arrives. -/
def requestRow (k : BitVec 5) (e : Envelope) (s : State) : Host.Outcome State Fault Refusal := .next (arrive (asKind k e) s)

/-- WRITE_P (R161). -/
def execWriteP (e : Envelope) (s : State) : Host.Outcome State Fault Refusal := requestRow kWriteP e s

/-- WRITE_A (R161). -/
def execWriteA (e : Envelope) (s : State) : Host.Outcome State Fault Refusal := requestRow kWriteA e s

/-- READ (R161, R185, R186). -/
def execRead (e : Envelope) (s : State) : Host.Outcome State Fault Refusal := requestRow kRead e s

/-- LOCK_READ (R179 to R181). -/
def execLockRead (e : Envelope) (s : State) : Host.Outcome State Fault Refusal := requestRow kLockRead e s

/-- UNLOCK_WRITE (R179). -/
def execUnlockWrite (e : Envelope) (s : State) : Host.Outcome State Fault Refusal := requestRow kUnlockWrite e s

/-- INBOUND_START (R172). -/
def execInboundStart (s : State) : Host.Outcome State Fault Refusal := .next (startNext s)

/-- LOCK_WAITER_GRANT (R181): a release has made a waiter's lock free, and it starts. -/
def execLockWaiterGrant (s : State) : Host.Outcome State Fault Refusal :=
  .next (if bridgeIdle s then startWaiter s else s)

/-! Performing the pieces (R173 to R176). -/

/-- A locked sequence ends with its UNLOCK_WRITE, or with a LOCK_READ that fails (R179). -/
def endsLock (c : Current) (failed : Bool) : Bool := c.env.kind = kUnlockWrite || (failed && c.env.kind = kLockRead)

/-- The request under way ends. -/
def closeRequest (c : Current) (failed : Bool) (s : State) : State :=
  let s := endRequest 0 (onBridge (fun b => { b with current := none }) s)
  if endsLock c failed then releaseLock c.id s else s

/-- A piece fails: the request ends with the piece's reason, or with SPLIT_PARTIAL after applied pieces; the NDN carries the first 8
data bytes (R174, R191). -/
def failPiece (c : Current) (r : Reason) (s : State) : State :=
  let s := closeRequest c true s
  if c.done = 0 then refuseWhole r c.env s
  else
    let (d, p) := if carriesData c.env.kind then ndnData c.env
      else ((packWords (c.bytes.take 8)).headD 0, c.poison.getLsbD 0)
    refuseRequest Reason.splitPartial.code r.code c.done d p c.env s

/-- The last piece is performed: the answer leaves, and a READ is noted for the read-ahead. -/
def finishRequest (c : Current) (s : State) : State :=
  let s := answerDone c.env c.bytes c.poison (closeRequest c false s)
  if c.env.kind = kRead then noteRead c.id (addrOf c.env) (bytesOf c.env) s else s

/-- The request after a piece was performed: it goes on, or it ends. A piece that reset the node leaves no request. -/
def nextPiece (c : Current) (s : State) : State :=
  if s.bridge.current.isNone then s
  else
    let s := bump (ctr 0x000A 2 0) s
    if c.pieces = [] then finishRequest c s else askPiece c (onBridge (fun b => { b with current := some c }) s)

/-- A piece must wait: for a half of the input image that is being sealed (R304), or for a logic test (R403). -/
def pieceHeld (s : State) (c : Current) (a : Nat) : Bool :=
  (s.time.sealing && inInput a && !carriesData c.env.kind) || underTest s 0x70

/-- A request of a locked sequence whose lock was broken before its first piece was granted (R183). -/
def lostLock (s : State) (c : Current) : Bool :=
  c.locked && c.env.kind ≠ kLockRead && c.done = 0 && (lockOf s c.id).isNone

/-- The poison of the beats of a piece, by 8-byte word of the READ_DATA. -/
def beatPoison (start : Nat) (bs : List (Nat × Nat)) (ds : List (List Byte × Bool)) : BitVec 32 :=
  (bs.zip ds).foldl (fun p x => if x.2.2 then p ||| BitVec.ofNat 32 (2 ^ ((x.1.1 - start) / 8)) else p) 0

/-- The beat of a read of n beats that finds an error: any of them (R176; log entry 141). -/
def openBeat (f : Found) (n : Nat) (s : State) : Nat × State :=
  if f = .clean ∨ n ≤ 1 then (0, s) else let (v, s) := fresh 3 s; (v.toNat % n, s)

/-- One piece is performed as an interconnect access (R173, R174, R176). -/
def performPiece (bad : BitVec 2) (f : Found) (c : Current) (p : Nat × Nat) (s : State) : State :=
  let s := if c.env.kind = kLockRead ∧ c.done = 0 then beginLock c.id s else s
  if carriesData c.env.kind then
    match writePiece c p s with
    | (s, some r) => failPiece c r s
    | (s, none) => nextPiece { c with pieces := c.pieces.drop 1, done := c.done + 1 } (endRequest 0 s)
  else
    let (k, s) := openBeat f (beatsOf p.1 p.2).length s
    match readBeats c.id c.locked bad f k (beatsOf p.1 p.2) s with
    | (s, .error r) => failPiece c r s
    | (s, .ok ds) =>
      nextPiece { c with
        pieces := c.pieces.drop 1, done := c.done + 1, bytes := c.bytes ++ ds.flatMap (fun d => d.1),
        poison := c.poison ||| beatPoison (addrOf c.env) (beatsOf p.1 p.2) ds } (endRequest 0 s)

/-- A piece that needs the interconnect asks for it, and is performed once the bridge holds it (R144, R145). -/
def tryPiece (bad : BitVec 2) (f : Found) (c : Current) (p : Nat × Nat) (s : State) : State :=
  if needsGrant s c p.1 then
    let s := acquire 0 s
    if holds s 0 then performPiece bad f c p s else s
  else performPiece bad f c p s

/-- INBOUND_PIECE (R173, R174). `bad` marks the two words of an item that the piece pops from a pigeonhole queue as uncorrectable
(R154); `found` is what one of the piece's beats finds in a memory's check bits (R396, R399). -/
def execInboundPiece (bad : BitVec 2) (found : Found) (s : State) : Host.Outcome State Fault Refusal :=
  match s.bridge.current with
  | none => .next s
  | some c =>
    match c.pieces with
    | [] => .next s
    | p :: _ =>
      if lostLock s c then .next (failPiece c .lockOrder s)
      else if pieceHeld s c p.1 then .next s
      else .next (tryPiece bad found c p s)

/-- LI_TIMEOUT (R143): the interconnect ends an access that its target has not completed. A piece of an inbound request fails, a
manifest record's write fails the apply, the action engine's image copy and the gateway's burst commit nothing, and every other master gets
the error response. -/
def execLiTimeout (requester : Fin 24) (a : Word) (write : Bool) (s : State) : Host.Outcome State Fault Refusal :=
  let s := noteTimeout requester.val a.toNat s
  if requester.val = 0 then
    match s.bridge.current with
    | some c => .next (failPiece c .liTimeout s)
    | none => .next s
  else if requester.val = 1 ∧ write ∧ ¬s.upd.apply.ended then .next (failApply s)
  else if requester.val = 3 ∧ write then .next (settleCopies (s.tracks.copies.drop 1) s)
  else if requester.val = 20 ∧ write then .next (onBuses (fun b => { b with bursts := b.bursts.drop 1 }) s)
  else if 4 ≤ requester.val ∧ requester.val ≤ 19 then .next (timeoutRecord (requester.val - 4) write s)
  else .next s

end Sys2Proof.Machine
end

