-- ==== Sys2Proof/Machine/Manifest.lean ====
section
/-! DEFINITION. The records of the manifest as the firmware performs them, as local master 0 (R423 to R427). A record acts while an
apply is under way; the record's index rises when it has been performed. -/

namespace Sys2Proof.Machine

/-- The firmware is applying a manifest (R423). -/
def applying (s : State) : Bool := clocked s && s.upd.booted && !s.upd.apply.ended

/-- A record was performed: the next one is due. -/
def recordDone (s : State) : State := onUpd (fun u => { u with apply := { u.apply with index := u.apply.index + 1 } }) s

/-- A record of the manifest: while an apply is under way it is performed, or with `ok` false it fails the apply (R423). -/
def manifestRecord (ok : Bool) (act : State → State) (s : State) : State :=
  if ¬applying s then s else if ok then act s else failApply s

/-- An address lies in the node control block or the update agent, which no record may address (R423). -/
def ownBlock (a : Nat) : Bool := (0x10000 ≤ a && a < 0x10C00) || (tableOf a).any (fun t => t.1 = 0 || t.1 = 139)

/-- Writes of w bytes each from an address on, by the firmware, up to the first that is answered by an error. -/
def firmwareWrites (w : Nat) : Nat → List Nat → State → State × Bool
  | _, [], s => (s, true)
  | a, v :: vs, s =>
    match busWrite (.loc 0) false a (leBytes w v) false s with
    | (s, none) => firmwareWrites w (a + w) vs s
    | (s, some _) => (s, false)

/-- A WRITE32 or WRITE16 record (R423): none of its addresses may lie in the blocks that no record addresses, and a write answered by
an error response fails the apply. -/
def writeRecord (w a : Nat) (vs : List Nat) (s : State) : State :=
  manifestRecord (!(List.range vs.length).any (fun i => ownBlock (a + w * i)) && !ownBlock a) (fun s =>
    match firmwareWrites w a vs s with
    | (s, true) => recordDone s
    | (s, false) => failApply s) s

/-- WRITE32 (R423). -/
def execMfWrite32 (a : Word) (ws : List Word) (s : State) : Host.Outcome State Fault Refusal :=
  .next (writeRecord 4 a.toNat (ws.map (fun w => w.toNat)) s)

/-- WRITE16 (R423). -/
def execMfWrite16 (a : Word) (hs : List (BitVec 16)) (s : State) : Host.Outcome State Fault Refusal :=
  .next (writeRecord 2 a.toNat (hs.map (fun h => h.toNat)) s)

/-- DELAY (R423): at most 100,000 µs. -/
def execMfDelay (us : Nat) (s : State) : Host.Outcome State Fault Refusal :=
  .next (manifestRecord (us ≤ 100000) recordDone s)

/-- POLL (R423): one read; the record is performed when the masked value is VALUE, and fails the apply when 10 ms have passed
(`late`). -/
def execMfPoll (a mask value : Word) (late : Bool) (s : State) : Host.Outcome State Fault Refusal :=
  .next (manifestRecord (!ownBlock a.toNat) (fun s =>
    match busRead (.loc 0) false a.toNat 4 0 s with
    | (s, .data v _) => if (lo32 v &&& mask) = value then recordDone s else if late then failApply s else s
    | (s, _) => if late then failApply s else s) s)

/-- The words of the latest valid record of a kind, none without one (R427). -/
def storedRecord (s : State) (kind : Nat) : Option PersistRec := tabGet (fun _ => none) s.upd.persist kind

/-- Registers take values in order. -/
def setRegs : List Nat → List Word → State → State
  | a :: as, w :: ws, s => setRegs as ws (setReg s a w)
  | _, _, s => s

/-- PERSIST restores the census binding, the energies while in STARTUP, and the counter bases (R427). -/
def restorePersistent (s : State) : State :=
  let s := match storedRecord s 0 with
    | some r => setRegs [R.CN_BIND] r.words s
    | none => s
  let s := match storedRecord s 1 with
    | some r => if serviceMode s = 0 then setRegs energyRegs r.words s else s
    | none => s
  match storedRecord s 2 with
  | some r => onUpd (fun u => { u with bases := r.ctrs }) s
  | none => s

/-- PERSIST (R423, R427): a second one fails the apply. -/
def execMfPersist (s : State) : Host.Outcome State Fault Refusal :=
  .next (manifestRecord (s.upd.apply.persists = 0) (fun s =>
    recordDone (onUpd (fun u => { u with apply := { u.apply with persists := 1 } }) (restorePersistent s))) s)

/-- NODECFG (R425): word 0 holds NODE_WDOG's bits 16 to 0, word 1 UPD_CTL's bits 23 to 8; ADDR and every other bit must be 0, and a
second record fails the apply. -/
def execMfNodecfg (a w0 w1 : Word) (s : State) : Host.Outcome State Fault Refusal :=
  .next (manifestRecord (a = 0 && (w0 &&& ~~~0x1FFFF) = 0 && (w1 &&& ~~~0xFFFF00) = 0 && s.upd.apply.configs = 0) (fun s =>
    let s := writeNodeWdog w0 s
    let s := plainWrite R.UPD_CTL ((getReg s R.UPD_CTL &&& ~~~0xFFFF00) ||| w1) s
    recordDone (onUpd (fun u => { u with apply := { u.apply with configs := 1 } }) s)) s)

/-- END (R423, R424): the seal is set, and then SERVICE NORMAL is written; a manifest without exactly one PERSIST, without END, or
with a record of a reserved TYPE fails. -/
def execMfEnd (how : ManifestEnd) (s : State) : Host.Outcome State Fault Refusal :=
  .next (manifestRecord (how = .endRecord && s.upd.apply.persists = 1) (fun s =>
    let s := onUpd (fun u => { u with apply := { u.apply with ended := true } }) s
    let s := writeNodeCtl (.loc 0) (F.NODE_CTL_SEAL.put (getReg s R.NODE_CTL) 1) s
    writeNodeCtl (.loc 0) (F.NODE_CTL_SERVICE.put (getReg s R.NODE_CTL) 1) s) s)

end Sys2Proof.Machine
end

