-- ==== Sys2Proof/Machine/Monitor.lean ====
section
/-! DEFINITION. The Ferfy monitor (R463 to R468): its command lines, the commands, the lock, and tunnelled sessions. A command typed
here is given with its fields; the line that goes out to a session is written in one spelling (log entry 13). Counters of CAP
0x0019: 0 unlocks, 1 invalid tokens, 2 commands, 3 sessions opened, 4 refused, 5 timed out. -/

namespace Sys2Proof.Machine

/-! Command lines (R463, R465). -/

/-- The commands that are carried out through accesses at the own node or at a session's target (R465). -/
inductive MonCmd where
  | id
  | peek (a n : Nat)
  | poke (a v : Nat)
  | dump (a bytes : Nat)
  | census
  | snap (id : Nat)
  | snapAt (id ns : Nat)
  | dl
  | dlFree
  | load (k a : Nat) (words : List Nat)
  | inject (e v : Nat)
  | step (e : Nat)
  | track (n : Nat)
  | waymark (i : Nat) (arm : Option Bool)
  | power
  | bist (target : Nat)
  | updateStatus
  | baud (rate : Nat)
deriving DecidableEq, Repr

/-- The fields of a line: what its spaces separate. -/
def fieldsOf : List Byte → List Byte → List (List Byte)
  | cur, [] => if cur = [] then [] else [cur.reverse]
  | cur, b :: bs => if b = 0x20 then (if cur = [] then fieldsOf [] bs else cur.reverse :: fieldsOf [] bs) else fieldsOf (b :: cur) bs

/-- The value of a digit in a base of 10 or 16. -/
def digitOf (base : Nat) (b : Byte) : Option Nat :=
  let n := b.toNat
  let d := if 0x30 ≤ n ∧ n ≤ 0x39 then some (n - 0x30) else if 0x61 ≤ n ∧ n ≤ 0x66 then some (n - 0x57)
    else if 0x41 ≤ n ∧ n ≤ 0x46 then some (n - 0x37) else none
  d.bind (fun v => if v < base then some v else none)

/-- Digits in a base after a value read so far; underscores are ignored. -/
def digitsOf (base : Nat) : Nat → List Byte → Option Nat
  | acc, [] => some acc
  | acc, b :: bs => if b = 0x5F then digitsOf base acc bs else (digitOf base b).bind (fun d => digitsOf base (acc * base + d) bs)

/-- A number below a bound: decimal, or hexadecimal with 0x. -/
def numOf (bound : Nat) (bs : List Byte) : Option Nat :=
  let v := match bs with
    | 0x30 :: 0x78 :: rest => if rest = [] then none else digitsOf 16 0 rest
    | _ => if bs = [] then none else digitsOf 10 0 bs
  v.bind (fun n => if n < bound then some n else none)

/-- Numbers below a bound. -/
def numsOf (bound : Nat) : List (List Byte) → Option (List Nat)
  | [] => some []
  | f :: fs => (numOf bound f).bind (fun n => (numsOf bound fs).map (fun ns => n :: ns))

/-- The words of the commands. -/
def wordOf : MonCmd → List Byte
  | .id => asc ['i', 'd']
  | .peek _ _ => asc ['p', 'e', 'e', 'k']
  | .poke _ _ => asc ['p', 'o', 'k', 'e']
  | .dump _ _ => asc ['d', 'u', 'm', 'p']
  | .census => asc ['c', 'e', 'n', 's', 'u', 's']
  | .snap _ | .snapAt _ _ => asc ['s', 'n', 'a', 'p']
  | .dl | .dlFree => asc ['d', 'l']
  | .load _ _ _ | .inject _ _ | .step _ => asc ['s', 'c', 'r', 'i', 'b', 'e']
  | .track _ => asc ['t', 'r', 'a', 'c', 'k']
  | .waymark _ _ => asc ['w', 'a', 'y', 'm', 'a', 'r', 'k']
  | .power => asc ['p', 'o', 'w', 'e', 'r']
  | .bist _ => asc ['b', 'i', 's', 't']
  | .updateStatus => asc ['u', 'p', 'd', 'a', 't', 'e']
  | .baud _ => asc ['b', 'a', 'u', 'd']

/-- The second words. -/
def wAt : List Byte := asc ['a', 't']
/-- `free`. -/
def wFree : List Byte := asc ['f', 'r', 'e', 'e']
/-- `load`. -/
def wLoad : List Byte := asc ['l', 'o', 'a', 'd']
/-- `inject`. -/
def wInject : List Byte := asc ['i', 'n', 'j', 'e', 'c', 't']
/-- `step`. -/
def wStep : List Byte := asc ['s', 't', 'e', 'p']
/-- `arm`. -/
def wArm : List Byte := asc ['a', 'r', 'm']
/-- `disarm`. -/
def wDisarm : List Byte := asc ['d', 'i', 's', 'a', 'r', 'm']
/-- `status`. -/
def wStatus : List Byte := asc ['s', 't', 'a', 't', 'u', 's']

/-- A command from its first word and the fields after it; none for a line that is no command (R465). -/
def parseFields (w : List Byte) (fs : List (List Byte)) : Option MonCmd :=
  let addr := numOf (2 ^ 32)
  if w = wordOf .id ∧ fs = [] then some .id
  else if w = wordOf (.peek 0 0) then
    match fs with
    | [a] => (addr a).map (fun a => .peek a 1)
    | [a, n] => (addr a).bind (fun a => (numOf (2 ^ 32) n).map (fun n => .peek a n))
    | _ => none
  else if w = wordOf (.poke 0 0) then
    match fs with
    | [a, v] => (addr a).bind (fun a => (numOf (2 ^ 32) v).map (fun v => .poke a v))
    | _ => none
  else if w = wordOf (.dump 0 0) then
    match fs with
    | [a, n] => (addr a).bind (fun a => (numOf (2 ^ 32) n).map (fun n => .dump a n))
    | _ => none
  else if w = wordOf .census ∧ fs = [] then some .census
  else if w = wordOf (.snap 0) then
    match fs with
    | [i] => (numOf (2 ^ 16) i).map .snap
    | [i, t, ns] => if t = wAt then (numOf (2 ^ 16) i).bind (fun i => (numOf (2 ^ 64) ns).map (fun ns => .snapAt i ns)) else none
    | _ => none
  else if w = wordOf .dl then
    match fs with
    | [] => some .dl
    | [f] => if f = wFree then some .dlFree else none
    | _ => none
  else if w = wordOf (.step 0) then
    match fs with
    | [t, e] => if t = wStep then (numOf 64 e).map .step else none
    | [t, e, v] =>
      if t = wInject then (numOf 64 e).bind (fun e => (numOf (2 ^ 16) v).map (fun v => .inject e v))
      else if t = wLoad then (numOf 16 e).bind (fun k => (numOf 32 v).map (fun a => .load k a []))
      else none
    | t :: k :: a :: ws =>
      if t = wLoad then
        (numOf 16 k).bind (fun k => (numOf 32 a).bind (fun a => (numsOf (2 ^ 16) ws).map (fun ws => .load k a ws)))
      else none
    | _ => none
  else if w = wordOf (.track 0) then
    match fs with
    | [n] => (numOf 16 n).map .track
    | _ => none
  else if w = wordOf (.waymark 0 none) then
    match fs with
    | [i] => (numOf 4096 i).map (fun i => .waymark i none)
    | [i, x] =>
      if x = wArm then (numOf 4096 i).map (fun i => .waymark i (some true))
      else if x = wDisarm then (numOf 4096 i).map (fun i => .waymark i (some false)) else none
    | _ => none
  else if w = wordOf .power ∧ fs = [] then some .power
  else if w = wordOf (.bist 0) then
    match fs with
    | [t] => (numOf 256 t).map .bist
    | _ => none
  else if w = wordOf .updateStatus ∧ fs = [wStatus] then some .updateStatus
  else if w = wordOf (.baud 0) then
    match fs with
    | [r] => (numOf (2 ^ 32) r).map .baud
    | _ => none
  else none

/-- The command that a line spells; none answers `err SYNTAX`. -/
def parseLine (line : List Byte) : Option MonCmd :=
  match fieldsOf [] line with
  | w :: fs => if line.length ≤ 200 then parseFields w fs else none
  | [] => none

/-- n hexadecimal digits of a number, most significant first. -/
def hexDigits : Nat → Nat → List Byte
  | 0, _ => []
  | n + 1, x =>
    let d := x / 16 ^ n % 16
    BitVec.ofNat 8 (if d < 10 then 0x30 + d else 0x37 + d) :: hexDigits n x

/-- A number as a field of a line: 0x and n hexadecimal digits. -/
def hexField (n x : Nat) : List Byte := 0x20 :: 0x30 :: 0x78 :: hexDigits n x

/-- A word as a later field of a line. -/
def wordField (w : List Byte) : List Byte := 0x20 :: w

/-- The line that goes to a session for a command, numbers in hexadecimal (log entry 13). -/
def spell (c : MonCmd) : List Byte :=
  wordOf c ++
  match c with
  | .id | .census | .dl | .power => []
  | .peek a n => hexField 8 a ++ hexField 8 n
  | .poke a v => hexField 8 a ++ hexField 8 v
  | .dump a n => hexField 8 a ++ hexField 8 n
  | .snap i => hexField 4 i
  | .snapAt i ns => hexField 4 i ++ wordField wAt ++ hexField 16 ns
  | .dlFree => wordField wFree
  | .load k a ws => wordField wLoad ++ hexField 2 k ++ hexField 2 a ++ ws.flatMap (hexField 4)
  | .inject e v => wordField wInject ++ hexField 2 e ++ hexField 4 v
  | .step e => wordField wStep ++ hexField 2 e
  | .track n => hexField 2 n
  | .waymark i arm => hexField 3 i ++ (match arm with
    | none => []
    | some true => wordField wArm
    | some false => wordField wDisarm)
  | .bist t => hexField 2 t
  | .updateStatus => wordField wStatus
  | .baud r => hexField 8 r

/-! The accesses of a command (R465): it ends with the reason of the first that is refused. -/

/-- What a command's accesses give: the state, the values printed, and the final line. -/
abbrev Ran := State × List DWord × MonResult

/-- More accesses follow unless one was refused. -/
def Ran.andThen (p : Ran) (f : State → Ran) : Ran :=
  match p with
  | (s, vs, .ok) => let (s, ws, r) := f s; (s, vs ++ ws, r)
  | (s, vs, r) => (s, vs, r)

/-- A read of n bytes, printed. -/
def readOne (m : Master) (a n : Nat) (s : State) : Ran :=
  match busRead m false a n 0 s with
  | (s, .data v _) => (s, [v], .ok)
  | (s, .err r) => (s, [], .err (.reason r))
  | (s, _) => (s, [], .ok)

/-- Reads of places in order: address and bytes. -/
def readAll (m : Master) : List (Nat × Nat) → State → Ran
  | [], s => (s, [], .ok)
  | p :: ps, s => (readOne m p.1 p.2 s).andThen (readAll m ps)

/-- Reads of registers in order. -/
def readRegs (m : Master) (as : List Nat) (s : State) : Ran := readAll m (as.map (fun a => (a, 4))) s

/-- A write of n bytes. -/
def writeOne (m : Master) (a n v : Nat) (s : State) : Ran :=
  match busWrite m false a (leBytes n v) false s with
  | (s, none) => (s, [], .ok)
  | (s, some r) => (s, [], .err (.reason r))

/-- Writes of n bytes each from an address on. -/
def writeRow (m : Master) (n : Nat) : Nat → List Nat → State → Ran
  | _, [], s => (s, [], .ok)
  | a, v :: vs, s => (writeOne m a n v s).andThen (writeRow m n (a + n) vs)

/-- A register is read, and its value goes to the rest of the command unprinted. -/
def withReg (m : Master) (a : Nat) (f : Nat → State → Ran) (s : State) : Ran :=
  match busRead m false a 4 0 s with
  | (s, .data v _) => f v.toNat s
  | (s, .err r) => (s, [], .err (.reason r))
  | (s, _) => (s, [], .ok)

/-- The next read of a dump: 64-bit where the region and the alignment allow it, else the widest that they allow (R19, R465). -/
def dumpWidth (a n : Nat) : Nat :=
  ([8, 4, 2, 1].find? (fun w => aligned a w && decide (w ≤ n))).getD ((widthsOf (regionOf a)).headD 4)

/-- The reads of a dump of n bytes; at most `fuel` of them. -/
def dumpReads : Nat → Nat → Nat → List (Nat × Nat)
  | 0, _, _ => []
  | fuel + 1, a, n => if n = 0 then [] else (a, dumpWidth a n) :: dumpReads fuel (a + dumpWidth a n) (n - dumpWidth a n)

/-- The registers that `id` prints: part and revision, serial, node address, service mode. -/
def idRegs : List Nat := [R.ID_PART, R.ID_SERIAL_LO, R.ID_SERIAL_HI, R.CN_ADDR, R.NODE_STAT]

/-- The registers that `census` prints: state and root, own address, position and epoch, boundaries, and the presence bits, whose
number is the admitted count. -/
def censusRegs : List Nat :=
  [R.CN_STAT, R.CN_ADDR, R.CN_POS] ++ (List.range 16).map (fun i => R.RT_BND i) ++ (List.range 128).map (fun i => R.RT_PRES i)

/-- The registers that `power` prints: feeds, VIN, field rail, zones and energies. -/
def powerRegs : List Nat :=
  [R.PD_STAT, R.FEED_V, R.SUP_VIN, R.FLD_STAT, R.FLD_STAT2, R.PM_FLD_V, R.PM_FLD_I, R.PM_FLD_P, R.PM_FLD_E_LO, R.PM_FLD_E_HI] ++
  (List.range 8).flatMap (fun n => [R.ZN_STAT n, R.PM_ZN_I n, R.PM_ZN_P n, R.PM_ZN_E_LO n, R.PM_ZN_E_HI n])

/-- The registers that `track` prints: state, position, velocity and T. -/
def trackRegs (n : Nat) : List Nat :=
  [R.TK_STAT n, R.TK_POS_LO n, R.TK_POS_HI n, R.TK_VEL_LO n, R.TK_VEL_HI n, R.TK_T_LO n, R.TK_T_HI n]

/-- The registers of the dead-letter entries from TAIL to HEAD - 1 (R195, R196). -/
def dlRegs (tail head : Nat) : List Nat :=
  (List.range ((head + 128 - tail) % 128)).flatMap (fun k => (List.range 8).map (fun j => R.DL_ENT ((tail + k) % 64) j))

/-- The code of a bit rate in MON_CTL.BAUD (R463). -/
def baudCode (rate : Nat) : Option Nat :=
  if rate = 115200 then some 0 else if rate = 230400 then some 1 else if rate = 460800 then some 2
  else if rate = 921600 then some 3 else if rate = 1500000 then some 4 else if rate = 3000000 then some 5 else none

/-- `snap <id> at <ns>`: a SNAPSHOT_MARK to group 0xFFF of the own ring (R458, R465). The spec gives it no class, so its class, one
of the three that are not Scheduled, is a free value. Its tag carries MI 1 (log entry 154). -/
def sendMark (id ns : Nat) (s : State) : Ran :=
  let (c, s) := fresh 2 s
  let e := build s (1 + c.toNat % 3) kSnapshotMark true (nodeAddr s / 4096 * 4096 + 0xFFF) (getF s R.BR_HOPS F.BR_HOPS_HOPS)
    [BitVec.ofNat 64 id, BitVec.ofNat 64 ns]
  let e := withCrcs { e with tag := 0x080 }
  if quarantined s ∨ originTargets s e = [] then (s, [], .err (.reason .noRoute))
  else (sendOrWait (portOfKind kSnapshotMark) none e s, [], .ok)

/-- A test command was taken: a test runs, or waits behind the standby's self-test (R404). -/
def bistTaken (s t : State) : Bool :=
  (s.integrity.test.isNone && t.integrity.test.isSome) || (s.integrity.queued.isNone && t.integrity.queued.isSome)

/-- The accesses of a command by a master; none for `bist` while its test runs. -/
def carryOut (m : Master) (c : MonCmd) (s : State) : State × Option (List DWord × MonResult) :=
  let full := fun (p : Ran) => (p.1, some p.2)
  match c with
  | .id => full (readRegs m idRegs s)
  | .peek a n => full (readAll m ((List.range n).map (fun k => (a + 4 * k, 4))) s)
  | .poke a v => full (writeOne m a 4 v s)
  | .dump a n => full (readAll m (dumpReads n a n) s)
  | .census => full (readRegs m censusRegs s)
  | .snap i => full (writeOne m R.CNT_SNAP 4 (F.CNT_SNAP_GO.put (BitVec.ofNat 32 i) 1).toNat s)
  | .snapAt i ns => full (sendMark i ns s)
  | .dl => full (withReg m R.DL_TAIL (fun t => withReg m R.DL_HEAD (fun h => readRegs m (dlRegs t h))) s)
  | .dlFree => full (withReg m R.DL_HEAD (fun h => writeOne m R.DL_TAIL 4 h) s)
  | .load k a ws => full (writeRow m 2 (0x30400 + 0x1000 * k + 2 * a) ws s)
  | .inject e v => full (writeOne m (R.SCR_INJ (e / 4) (e % 4)) 4 v s)
  | .step e =>
    full (withReg m (R.SCR_CTL (e / 4) (e % 4)) (fun v s =>
      (writeOne m (R.SCR_CTL (e / 4) (e % 4)) 4 (F.SCR_CTL_STEP.put (BitVec.ofNat 32 v) 1).toNat s).andThen
        (readRegs m [R.SCR_ESTAT (e / 4) (e % 4)])) s)
  | .track n => full (readRegs m (trackRegs n) s)
  | .waymark i none => full (readRegs m ((List.range 8).map (wmAddr i)) s)
  | .waymark i (some b) =>
    full (withReg m (wmAddr i 2) (fun v => writeOne m (wmAddr i 2) 4 (v / 2 * 2 + bit1 b)) s)
  | .power => full (readRegs m powerRegs s)
  | .bist t =>
    match writeOne m R.BIST_CMD 4 (F.BIST_CMD_GO.put (BitVec.ofNat 32 t) 1).toNat s with
    | (t, _, .ok) => if bistTaken s t then (t, none) else full (readRegs m [R.BIST_STAT] t)
    | p => full p
  | .updateStatus => full (readRegs m [R.UPD_STAT, R.UPD_DONE, R.UPD_BOOT] s)
  | .baud rate =>
    match baudCode rate with
    | some b => full (withReg m R.MON_CTL (fun v => writeOne m R.MON_CTL 4 (F.MON_CTL_BAUD.put (BitVec.ofNat 32 v) b).toNat) s)
    | none => (s, some ([], .err .badLine))

/-- The lines that a command prints: a dump's 16 bytes each, and of the others an open number. -/
def linesOf : MonCmd → Option Nat
  | .dump _ n => some (ceilDiv n 16)
  | _ => none

/-- A command is carried out for a terminal or a session, and ends (R465). -/
def runCommand (who : MonAsker) (m : Master) (c : MonCmd) (s : State) : State :=
  match carryOut m c (startCommand who s) with
  | (s, some (vals, r)) => endCommand (linesOf c) vals r s
  | (s, none) => s

/-! The terminal (R464 to R467). -/

/-- The session that the terminal's commands go to. -/
def currentSession (s : State) : Option Session :=
  s.mon.current.bind (fun n => s.mon.terminal.find? (fun x => x.session = n))

/-- The monitor takes a line: the digital die runs, the ROM is not at the line, no handover is under way, no command is, and the
terminal's session has no LINE outstanding (R422, R438, R440, R467). -/
def takesLine (s : State) : Bool :=
  clocked s && !s.upd.recovery && !getB s R.UPD_STAT F.UPD_STAT_FLASHERR && s.upd.handover.isNone && s.mon.active.isNone &&
  !(currentSession s).any (fun x => x.busy)

/-- A line ends at once, with what it prints. -/
def endLine (vals : List DWord) (r : MonResult) (s : State) : State := endCommand none vals r (startCommand .terminal s)

/-- A line on the monitor's input. The ROM of a node with a refused flash answers FLASH? (R422). While the monitor is locked only `id`
and `unlock` are performed (R464). -/
def terminalLine (open_ : Bool) (act : State → State) (s : State) : State :=
  if clocked s ∧ getB s R.UPD_STAT F.UPD_STAT_FLASHERR then onUpd (fun u => { u with line := .flash }) s
  else if ¬takesLine s then s
  else if ¬monUnlocked s ∧ ¬open_ then endLine [] (.err .locked) s
  else act s

/-- A command is sent to the target of the terminal's session as a LINE (R466, R467). -/
def sendLine (x : Session) (c : MonCmd) (s : State) : State :=
  let s := startCommand .terminal s
  let l := s.mon.terminal.map (fun y => if y.session = x.session then { y with busy := true } else y)
  let (seq, l) := nextSeqOf x.session x.node l
  let s := onMon (fun m => { m with active := none, terminal := l }) s
  sendOrWait 6 none (monitorEnv s x.node x.session seq 1 (spell c)) s

/-- A line ends with a reason that the spec leaves open (DESIGN CHOICE, log entry 149). -/
def endOpen (s : State) : State :=
  let (v, s) := fresh 8 s
  endLine [] (.err (.unstated v)) s

/-- A command of R465 is typed: it is carried out here by local master 1, or at the target of the session (R463,
R465, R467). A line of more than 200 characters is not read; the reason of its answer is open. -/
def typed (c : MonCmd) (s : State) : Host.Outcome State Fault Refusal :=
  .next (terminalLine (c = .id) (fun s =>
    if 200 < (spell c).length then endOpen s
    else
      match currentSession s with
      | some x => sendLine x c s
      | none => runCommand .terminal (.loc 1) c s) s)

/-- MON_ID (R465). -/
def execMonId (s : State) : Host.Outcome State Fault Refusal := typed .id s

/-- MON_PEEK (R465). -/
def execMonPeek (a : Word) (n : Nat) (s : State) : Host.Outcome State Fault Refusal := typed (.peek a.toNat n) s

/-- MON_POKE (R465). -/
def execMonPoke (a v : Word) (s : State) : Host.Outcome State Fault Refusal := typed (.poke a.toNat v.toNat) s

/-- MON_DUMP (R465). -/
def execMonDump (a : Word) (bytes : Nat) (s : State) : Host.Outcome State Fault Refusal := typed (.dump a.toNat bytes) s

/-- MON_CENSUS (R465). -/
def execMonCensus (s : State) : Host.Outcome State Fault Refusal := typed .census s

/-- MON_SNAP (R462, R465). -/
def execMonSnap (id : BitVec 16) (s : State) : Host.Outcome State Fault Refusal := typed (.snap id.toNat) s

/-- MON_SNAP_AT (R458, R465). -/
def execMonSnapAt (id : BitVec 16) (ns : DWord) (s : State) : Host.Outcome State Fault Refusal := typed (.snapAt id.toNat ns.toNat) s

/-- MON_DL (R465). -/
def execMonDl (s : State) : Host.Outcome State Fault Refusal := typed .dl s

/-- MON_DL_FREE (R196, R465). -/
def execMonDlFree (s : State) : Host.Outcome State Fault Refusal := typed .dlFree s

/-- MON_SCRIBE_LOAD (R465): program-store words of a cluster, from a word address; one outside the 32 words of
a store is not in the line's syntax. -/
def execMonScribeLoad (k : Fin 16) (a : Nat) (words : List (BitVec 16)) (s : State) : Host.Outcome State Fault Refusal :=
  if 32 ≤ a then .next (terminalLine false (endLine [] (.err .badLine)) s)
  else typed (.load k.val a (words.map (fun w => w.toNat))) s

/-- MON_SCRIBE_INJECT (R87, R465). -/
def execMonScribeInject (e : Fin 64) (v : BitVec 16) (s : State) : Host.Outcome State Fault Refusal := typed (.inject e.val v.toNat) s

/-- MON_SCRIBE_STEP (R68, R465). -/
def execMonScribeStep (e : Fin 64) (s : State) : Host.Outcome State Fault Refusal := typed (.step e.val) s

/-- MON_TRACK (R465). -/
def execMonTrack (n : Fin 16) (s : State) : Host.Outcome State Fault Refusal := typed (.track n.val) s

/-- MON_WAYMARK (R465). -/
def execMonWaymark (i : Fin 4096) (arm : Option Bool) (s : State) : Host.Outcome State Fault Refusal := typed (.waymark i.val arm) s

/-- MON_POWER (R465). -/
def execMonPower (s : State) : Host.Outcome State Fault Refusal := typed .power s

/-- MON_BIST (R404, R465): the outcome is printed when the test ends. -/
def execMonBist (target : Byte) (s : State) : Host.Outcome State Fault Refusal := typed (.bist target.toNat) s

/-- MON_UPDATE_STATUS (R465). -/
def execMonUpdateStatus (s : State) : Host.Outcome State Fault Refusal := typed .updateStatus s

/-- MON_BAUD (R463, R465). -/
def execMonBaud (rate : Nat) (s : State) : Host.Outcome State Fault Refusal := typed (.baud rate) s

/-- The monitor's notices (R468). -/
def monNotice (code arg : Nat) (s : State) : State := postOnce (getF s R.MON_CTL F.MON_CTL_NTC_Q) 0x0019 0 code arg s

/-- The 60 s in which every `unlock` is refused; the spec does not name the reason that it answers (R464). -/
def refuseUnlock (s : State) : State :=
  endOpen s

/-- MON_UNLOCK_NONCE (R464): `unlock` prints a fresh nonce, which the spec leaves open. -/
def execMonUnlockNonce (s : State) : Host.Outcome State Fault Refusal :=
  .next (terminalLine true (fun s =>
    if s.mon.lockedOut then refuseUnlock s
    else
      let (n, s) := fresh 64 s
      endLine [n] .ok (onMon (fun m => { m with nonce := some n }) s)) s)

/-- The n big-endian bytes of a number. -/
def beBytes (n x : Nat) : List Byte := (leBytes n x).reverse

/-- The 16 bytes that a token signs: NID, nonce, and FRFY (R464). -/
def tokenBytes (s : State) (nonce : DWord) : List Byte :=
  leBytes 4 (getReg s R.ID_SERIAL_LO).toNat ++ leBytes 8 nonce.toNat ++ asc ['F', 'R', 'F', 'Y']

/-- A token is valid: it signs the outstanding nonce under a usable customer key slot (R464). -/
def tokenValid (s : State) (k : Nat) (r sg : Nat) : Bool :=
  match s.mon.nonce with
  | none => false
  | some n => k ≠ 0 && keyUsable s k && keyVerifies s k (Crypto.sha256 (tokenBytes s n)) (beBytes 32 r ++ beBytes 32 sg)

/-- MON_UNLOCK_TOKEN (R464): a valid token unlocks; the third invalid one in a row refuses every `unlock` for 60 s. The nonce is
used up either way. -/
def execMonUnlockToken (k : Fin 4) (r sg : BitVec 256) (s : State) : Host.Outcome State Fault Refusal :=
  .next (terminalLine true (fun s =>
    if s.mon.lockedOut then refuseUnlock s
    else if tokenValid s k.val r.toNat sg.toNat then
      let s := onMon (fun m => { m with nonce := none, tokenUnlocked := true, failsInRow := 0 }) s
      endLine [] .ok (monNotice 0x01 k.val (bump (ctr 0x0019 0 0) s))
    else
      let n := min 3 (s.mon.failsInRow + 1)
      let s := onMon (fun m => { m with nonce := none, failsInRow := n, lockedOut := decide (3 ≤ n) }) s
      let s := monNotice 0x81 n (bump (ctr 0x0019 1 0) s)
      endOpen s) s)

/-- UNLOCK_LOCKOUT_END (R464): 60 s have passed, and `unlock` is taken again, with a new run of tokens. -/
def execUnlockLockoutEnd (s : State) : Host.Outcome State Fault Refusal :=
  .next (if s.mon.lockedOut then onMon (fun m => { m with lockedOut := false, failsInRow := 0 }) s else s)

/-- MON_LOCK (R464, R465): the monitor is locked, but for the MON_EN strap. -/
def execMonLock (s : State) : Host.Outcome State Fault Refusal :=
  .next (terminalLine false (fun s => endLine [] .ok (onMon (fun m => { m with tokenUnlocked := false }) s)) s)

/-- A session number that no open session of the terminal has. -/
def freeSession (s : State) : BitVec 16 :=
  let used := s.mon.terminal.map (fun x => x.session.toNat)
  BitVec.ofNat 16 ((((List.range 5).map (fun k => s.mon.nextSession + k)).find? (fun n => !(n % 65536 ∈ used))).getD 0)

/-- A terminal session closes; the terminal returns to its own node when it was the current one (R467). -/
def dropSession (n : BitVec 16) (s : State) : State :=
  onMon (fun m => { m with
    terminal := m.terminal.filter (fun x => x.session ≠ n),
    current := if m.current = some n then none else m.current }) s

/-- `node <addr>`: a session is opened with an OPEN, unless 4 are open (R465 to R467). -/
def openTerminal (node : BitVec 16) (s : State) : State :=
  if 4 ≤ s.mon.terminal.length then endLine [] (.err .busy) (bump (ctr 0x0019 4 0) s)
  else
    let n := freeSession s
    let x : Session := { session := n, node := node, busy := false, seq := 1 }
    let s := onMon (fun m => { m with terminal := m.terminal ++ [x], current := some n, nextSession := n.toNat + 1 }) s
    let s := sendOrWait 6 none (monitorEnv s node n 0 0 []) (bump (ctr 0x0019 3 0) s)
    endLine [] .ok s

/-- `node .`: the current session closes, and its target is told (R465, R467). -/
def leaveSession (s : State) : State :=
  match currentSession s with
  | none => endLine [] .ok s
  | some x =>
    let s := sendOrWait 6 none (monitorEnv s x.node x.session x.seq 4 []) (dropSession x.session s)
    endLine [] .ok s

/-- MON_NODE (R465, R466): a node address, or the own node. -/
def execMonNode (node : Option (BitVec 16)) (s : State) : Host.Outcome State Fault Refusal :=
  .next (terminalLine false (fun s =>
    match node with
    | some a => openTerminal a s
    | none => leaveSession s) s)

/-- MON_EN_CHANGE (R464, R474): the strap's filtered level. -/
def execMonEnChange (level : Bool) (s : State) : Host.Outcome State Fault Refusal :=
  .next (setB s R.MON_STAT F.MON_STAT_STRAP level)

/-! Received MONITOR envelopes (R466, R467). -/

/-- A MONITOR envelope, taken as one of the row's TYPE (log entry 126), arrives and is acted on; a quarantined node discards it (R278), and so
is one with no payload (R466). -/
def monitorRow (typ : Nat) (e : Envelope) (act : Envelope → State → State) (s : State) : Host.Outcome State Fault Refusal :=
  let e := asKind kMonitor e
  let e := { e with payload := setField 32 4 typ e.payload }
  .next (if quarantined s ∨ e.payload = [] then takeDelivered e s else act e s)

/-- The session of the terminal that an envelope of its target belongs to. -/
def terminalOf (s : State) (e : Envelope) : Option Session :=
  s.mon.terminal.find? (fun x => x.session = monSession e && x.node = e.src)

/-- The session that this hub serves for an envelope's sender. -/
def servedOf (s : State) (e : Envelope) : Option Session :=
  s.mon.served.find? (fun x => x.session = monSession e && x.node = e.src)

/-- MONITOR_OPEN (R467): a session is served, or answered with a DONE `err BUSY` beyond 4. -/
def execMonitorOpen (e : Envelope) (s : State) : Host.Outcome State Fault Refusal :=
  monitorRow 0 e (fun e s =>
    let s := takeDelivered e s
    if (servedOf s e).isSome then s
    else if 4 ≤ s.mon.served.length then
      let s := bump (ctr 0x0019 4 0) s
      if standbyHub s then bump (ctr 0x0013 0 kMonitor.toNat) s
      else sendOrWait 6 none (monitorEnv s e.src (monSession e) 0 3 (resultText (.err .busy))) s
    else
      let x : Session := { session := monSession e, node := e.src, busy := false, seq := 0 }
      bump (ctr 0x0019 3 0) (onMon (fun m => { m with served := m.served ++ [x] }) s)) s

/-- MONITOR_LINE (R465, R467): the line is carried out with the master ID of the terminal's node and index 1, as ring accesses, and
answered. While another command is under way it stays with the sorting office. -/
def execMonitorLine (e : Envelope) (s : State) : Host.Outcome State Fault Refusal :=
  monitorRow 1 e (fun e s =>
    match servedOf s e with
    | none => takeDelivered e s
    | some x =>
      if s.mon.active.isSome ∨ x.busy then s
      else
        let s := takeDelivered e s
        let s := onMon (fun m => { m with
          served := m.served.map (fun y => if y.session = x.session ∧ y.node = x.node then { y with busy := true } else y) }) s
        let who := MonAsker.served x.session x.node
        match parseLine (monText e) with
        | some c => runCommand who (.ring (e.src ++ (1 : BitVec 4))) c s
        | none => endCommand none [] (.err .badLine) (startCommand who s)) s

/-- MONITOR_OUTPUT (R467): a line of the outstanding LINE is printed; a later one is discarded. -/
def execMonitorOutput (e : Envelope) (s : State) : Host.Outcome State Fault Refusal :=
  monitorRow 2 e (fun e s =>
    let s := takeDelivered e s
    match terminalOf s e with
    | some x => if x.busy then onMon (fun m => { m with printed := m.printed ++ textWords (monText e) }) s else s
    | none => s) s

/-- MONITOR_DONE (R467): the outstanding LINE ends with the target's final line; a DONE `err BUSY` without a LINE says that the OPEN was
refused. -/
def execMonitorDone (e : Envelope) (s : State) : Host.Outcome State Fault Refusal :=
  monitorRow 3 e (fun e s =>
    let s := takeDelivered e s
    match terminalOf s e with
    | none => s
    | some x =>
      if x.busy then
        onMon (fun m => { m with terminal := lineDone x.session x.node m.terminal, result := some (.remote (textWords (monText e))) }) s
      else if monText e = resultText (.err .busy) then
        onMon (fun m => { m with result := some (.err .busy) }) (dropSession x.session s)
      else s) s

/-- MONITOR_CLOSE (R467): the session that the envelope names closes. -/
def execMonitorClose (e : Envelope) (s : State) : Host.Outcome State Fault Refusal :=
  monitorRow 4 e (fun e s =>
    let s := takeDelivered e s
    let s := onMon (fun m => { m with served := m.served.filter (fun x => ¬(x.session = monSession e ∧ x.node = e.src)) }) s
    match terminalOf s e with
    | some x => dropSession x.session s
    | none => s) s

/-- MONITOR_LINE_TIMEOUT (R467): 2 s have passed without a DONE in terminal session k. -/
def execMonitorLineTimeout (k : Fin 4) (s : State) : Host.Outcome State Fault Refusal :=
  match s.mon.terminal[k.val]? with
  | none => .next s
  | some x =>
    if x.busy then
      .next (bump (ctr 0x0019 5 0) (onMon (fun m => { m with
        terminal := lineDone x.session x.node m.terminal, result := some (.err .timeout) }) s))
    else .next s

/-- MONITOR_SESSION_IDLE (R467): session k of the terminal, or of those served, has had no LINE for 10 min. -/
def execMonitorSessionIdle (k : Fin 4) (served : Bool) (s : State) : Host.Outcome State Fault Refusal :=
  if served then .next (onMon (fun m => { m with served := m.served.eraseIdx k.val }) s)
  else
    match s.mon.terminal[k.val]? with
    | none => .next s
    | some x => .next (dropSession x.session s)

end Sys2Proof.Machine
end

