-- ==== Sys2Proof/Machine/Dispatch.lean ====
section
/-! DEFINITION. The dispatcher: one arm for each command, each one direct call of the command's meaning. -/

namespace Sys2Proof.Machine

/-- The effect of command i on the node (everything but the queue of waiting commands). -/
def exec (i : Instr) (s : State) : Host.Outcome State Fault Refusal :=
  match i with
  | .registerWrite m a width v => Sys2Proof.Machine.execRegisterWrite m a width v s
  | .wideLoRead m a => Sys2Proof.Machine.execWideLoRead m a s
  | .wideHiWrite m a v => Sys2Proof.Machine.execWideHiWrite m a v s
  | .wideLoWrite m a v => Sys2Proof.Machine.execWideLoWrite m a v s
  | .serviceWrite m v => Sys2Proof.Machine.execServiceWrite m v s
  | .serviceModeTakesEffect => Sys2Proof.Machine.execServiceModeTakesEffect s
  | .seal m v => Sys2Proof.Machine.execSeal m v s
  | .softReset m v => Sys2Proof.Machine.execSoftReset m v s
  | .resetLLow => Sys2Proof.Machine.execResetLLow s
  | .resetLRelease => Sys2Proof.Machine.execResetLRelease s
  | .kick m v => Sys2Proof.Machine.execKick m v s
  | .watchdogExpiry => Sys2Proof.Machine.execWatchdogExpiry s
  | .clockLoss => Sys2Proof.Machine.execClockLoss s
  | .pllLockHeld => Sys2Proof.Machine.execPllLockHeld s
  | .clockMonitorWindow fclk uclk core bus => Sys2Proof.Machine.execClockMonitorWindow fclk uclk core bus s
  | .unitResetHold m v => Sys2Proof.Machine.execUnitResetHold m v s
  | .unitResetRelease m v => Sys2Proof.Machine.execUnitResetRelease m v s
  | .supplyFaultStart b => Sys2Proof.Machine.execSupplyFaultStart b s
  | .supplyFaultEnd b => Sys2Proof.Machine.execSupplyFaultEnd b s
  | .bankCfgWrite m b v => Sys2Proof.Machine.execBankCfgWrite m b v s
  | .strapSample b level => Sys2Proof.Machine.execStrapSample b level s
  | .pinCfgWrite m p v => Sys2Proof.Machine.execPinCfgWrite m p v s
  | .pinTransition p level age => Sys2Proof.Machine.execPinTransition p level age s
  | .edgeAccepted p => Sys2Proof.Machine.execEdgeAccepted p s
  | .edgeRejected p => Sys2Proof.Machine.execEdgeRejected p s
  | .bankCapRead m b => Sys2Proof.Machine.execBankCapRead m b s
  | .pinOutWrite m p v => Sys2Proof.Machine.execPinOutWrite m p v s
  | .pinOutToggle m p v => Sys2Proof.Machine.execPinOutToggle m p v s
  | .bankOutSet m b v => Sys2Proof.Machine.execBankOutSet m b v s
  | .bankOutClr m b v => Sys2Proof.Machine.execBankOutClr m b v s
  | .waitLevel e => Sys2Proof.Machine.execWaitLevel e s
  | .waitEdge e => Sys2Proof.Machine.execWaitEdge e s
  | .waitFlag e => Sys2Proof.Machine.execWaitFlag e s
  | .waitCount e => Sys2Proof.Machine.execWaitCount e s
  | .shin e => Sys2Proof.Machine.execShin e s
  | .shout e => Sys2Proof.Machine.execShout e s
  | .pull e => Sys2Proof.Machine.execPull e s
  | .push e => Sys2Proof.Machine.execPush e s
  | .scribeMove e => Sys2Proof.Machine.execScribeMove e s
  | .scribeSet e => Sys2Proof.Machine.execScribeSet e s
  | .jump e => Sys2Proof.Machine.execJump e s
  | .mark e => Sys2Proof.Machine.execMark e s
  | .flagRaise e => Sys2Proof.Machine.execFlagRaise e s
  | .flagLower e => Sys2Proof.Machine.execFlagLower e s
  | .flagToggle e => Sys2Proof.Machine.execFlagToggle e s
  | .flagNotice e => Sys2Proof.Machine.execFlagNotice e s
  | .illegal e => Sys2Proof.Machine.execIllegal e s
  | .stallComplete e => Sys2Proof.Machine.execStallComplete e s
  | .delayExpiry e => Sys2Proof.Machine.execDelayExpiry e s
  | .engineEnable m e v => Sys2Proof.Machine.execEngineEnable m e v s
  | .engineDisable m e v => Sys2Proof.Machine.execEngineDisable m e v s
  | .engineStep m e v => Sys2Proof.Machine.execEngineStep m e v s
  | .restart m e v => Sys2Proof.Machine.execRestart m e v s
  | .clrf m e v => Sys2Proof.Machine.execClrf m e v s
  | .csyncStart m k v => Sys2Proof.Machine.execCsyncStart m k v s
  | .csyncStop m k v => Sys2Proof.Machine.execCsyncStop m k v s
  | .clkdivWrite m e v => Sys2Proof.Machine.execClkdivWrite m e v s
  | .inject m e v => Sys2Proof.Machine.execInject m e v s
  | .programStoreWrite m k off width v => Sys2Proof.Machine.execProgramStoreWrite m k off width v s
  | .scrTxfWrite m e v => Sys2Proof.Machine.execScrTxfWrite m e v s
  | .scrRxfRead m e bad => Sys2Proof.Machine.execScrRxfRead m e bad s
  | .flagsClear m k v => Sys2Proof.Machine.execFlagsClear m k v s
  | .flagsSet m k v => Sys2Proof.Machine.execFlagsSet m k v s
  | .engineStateWrite m e r v => Sys2Proof.Machine.execEngineStateWrite m e r v s
  | .pcWrite m e v => Sys2Proof.Machine.execPcWrite m e v s
  | .dmaChannelWrite m e rx v => Sys2Proof.Machine.execDmaChannelWrite m e rx v s
  | .dmaTxRefill e => Sys2Proof.Machine.execDmaTxRefill e s
  | .dmaTxReturn e ok => Sys2Proof.Machine.execDmaTxReturn e ok s
  | .dmaRxBlock e bad => Sys2Proof.Machine.execDmaRxBlock e bad s
  | .dmaRecordCommit e => Sys2Proof.Machine.execDmaRecordCommit e s
  | .mbInitClear m c v => Sys2Proof.Machine.execMbInitClear m c v s
  | .mbInitSet m c v inFrame => Sys2Proof.Machine.execMbInitSet m c v inFrame s
  | .busIntegrated c => Sys2Proof.Machine.execBusIntegrated c s
  | .frameReceived c f age reference => Sys2Proof.Machine.execFrameReceived c f age reference s
  | .protocolException c recUp => Sys2Proof.Machine.execProtocolException c recUp s
  | .busError c kind tecUp recUp => Sys2Proof.Machine.execBusError c kind tecUp recUp s
  | .busOffRecovery c => Sys2Proof.Machine.execBusOffRecovery c s
  | .txCopy c loop uncorr => Sys2Proof.Machine.execTxCopy c loop uncorr s
  | .txComplete c age => Sys2Proof.Machine.execTxComplete c age s
  | .mbTxreq m c j v => Sys2Proof.Machine.execMbTxreq m c j v s
  | .mbTxcan m c j v => Sys2Proof.Machine.execMbTxcan m c j v s
  | .mbNewClear m c j v => Sys2Proof.Machine.execMbNewClear m c j v s
  | .ttEnable m c v => Sys2Proof.Machine.execTtEnable m c v s
  | .ttReferenceRequest c => Sys2Proof.Machine.execTtReferenceRequest c s
  | .ttTrigger c n busIdle => Sys2Proof.Machine.execTtTrigger c n busIdle s
  | .gwMapWrite m n b v => Sys2Proof.Machine.execGwMapWrite m n b v s
  | .gwBusToImage => Sys2Proof.Machine.execGwBusToImage s
  | .gwImageToBus => Sys2Proof.Machine.execGwImageToBus s
  | .busFrame e => Sys2Proof.Machine.execBusFrame e s
  | .uaTxdWrite m u v => Sys2Proof.Machine.execUaTxdWrite m u v s
  | .uartTxStart u => Sys2Proof.Machine.execUartTxStart u s
  | .uartTxEnd u => Sys2Proof.Machine.execUartTxEnd u s
  | .uartCharReceived u d par stop => Sys2Proof.Machine.execUartCharReceived u d par stop s
  | .uartStartBit u confirmed age => Sys2Proof.Machine.execUartStartBit u confirmed age s
  | .uartGap u => Sys2Proof.Machine.execUartGap u s
  | .uaRxdRead m u => Sys2Proof.Machine.execUaRxdRead m u s
  | .encoderEdge n a b age => Sys2Proof.Machine.execEncoderEdge n a b age s
  | .encoderIndex n z a b age => Sys2Proof.Machine.execEncoderIndex n z a b age s
  | .enCountWrite m n v => Sys2Proof.Machine.execEnCountWrite m n v s
  | .zarm m n v => Sys2Proof.Machine.execZarm m n v s
  | .mainsEnable m n v => Sys2Proof.Machine.execMainsEnable m n v s
  | .mainsEdge n rising age => Sys2Proof.Machine.execMainsEdge n rising age s
  | .mainsEdgeMissing n => Sys2Proof.Machine.execMainsEdgeMissing n s
  | .mainsHoldMax n => Sys2Proof.Machine.execMainsHoldMax n s
  | .liTimeout requester a write => Sys2Proof.Machine.execLiTimeout requester a write s
  | .arbPriWrite m n v => Sys2Proof.Machine.execArbPriWrite m n v s
  | .arbQuotaWrite m v => Sys2Proof.Machine.execArbQuotaWrite m v s
  | .quotaWindowEnd => Sys2Proof.Machine.execQuotaWindowEnd s
  | .noticeEntry cap inst => Sys2Proof.Machine.execNoticeEntry cap inst s
  | .phPop m q bad => Sys2Proof.Machine.execPhPop m q bad s
  | .phItemRead m q k => Sys2Proof.Machine.execPhItemRead m q k s
  | .flush m q v => Sys2Proof.Machine.execFlush m q v s
  | .phCfgWrite m q v => Sys2Proof.Machine.execPhCfgWrite m q v s
  | .noticeEnvelopeBuild q bad => Sys2Proof.Machine.execNoticeEnvelopeBuild q bad s
  | .noticeEnvelopeRelease q => Sys2Proof.Machine.execNoticeEnvelopeRelease q s
  | .writeP e => Sys2Proof.Machine.execWriteP e s
  | .writeA e => Sys2Proof.Machine.execWriteA e s
  | .read e => Sys2Proof.Machine.execRead e s
  | .lockRead e => Sys2Proof.Machine.execLockRead e s
  | .unlockWrite e => Sys2Proof.Machine.execUnlockWrite e s
  | .inboundStart => Sys2Proof.Machine.execInboundStart s
  | .inboundPiece bad found => Sys2Proof.Machine.execInboundPiece bad found s
  | .lockWaiterGrant => Sys2Proof.Machine.execLockWaiterGrant s
  | .lockTimeout holder => Sys2Proof.Machine.execLockTimeout holder s
  | .prefetchHoldExpiry k => Sys2Proof.Machine.execPrefetchHoldExpiry k s
  | .channelGo m c v => Sys2Proof.Machine.execChannelGo m c v s
  | .channelAccepted c => Sys2Proof.Machine.execChannelAccepted c s
  | .writeAck e => Sys2Proof.Machine.execWriteAck e s
  | .readData e => Sys2Proof.Machine.execReadData e s
  | .ndn e => Sys2Proof.Machine.execNdn e s
  | .responseTimeout index => Sys2Proof.Machine.execResponseTimeout index s
  | .quarantineEnd index => Sys2Proof.Machine.execQuarantineEnd index s
  | .dlTailWrite m v => Sys2Proof.Machine.execDlTailWrite m v s
  | .upTailWrite m v => Sys2Proof.Machine.execUpTailWrite m v s
  | .dlForward => Sys2Proof.Machine.execDlForward s
  | .envelopeStart o uncorr ph => Sys2Proof.Machine.execEnvelopeStart o uncorr ph s
  | .outputStall o => Sys2Proof.Machine.execOutputStall o s
  | .reseqTimeout o n c => Sys2Proof.Machine.execReseqTimeout o n c s
  | .internalDelivery o accept uncorr => Sys2Proof.Machine.execInternalDelivery o accept uncorr s
  | .soResWrite m a v => Sys2Proof.Machine.execSoResWrite m a v s
  | .envelopeReceived p e age ph fills => Sys2Proof.Machine.execEnvelopeReceived p e age ph fills s
  | .badBlock p => Sys2Proof.Machine.execBadBlock p s
  | .stampSend p => Sys2Proof.Machine.execStampSend p s
  | .stamp p w => Sys2Proof.Machine.execStamp p w s
  | .audit p w => Sys2Proof.Machine.execAudit p w s
  | .train p w => Sys2Proof.Machine.execTrain p w s
  | .portEnable m p v => Sys2Proof.Machine.execPortEnable m p v s
  | .portDisable m p v => Sys2Proof.Machine.execPortDisable m p v s
  | .retrain m p v => Sys2Proof.Machine.execRetrain m p v s
  | .moduleChange p absent => Sys2Proof.Machine.execModuleChange p absent s
  | .moduleQualify p id diag => Sys2Proof.Machine.execModuleQualify p id diag s
  | .blockLock p => Sys2Proof.Machine.execBlockLock p s
  | .lockloss p => Sys2Proof.Machine.execLockloss p s
  | .los p high => Sys2Proof.Machine.execLos p high s
  | .hiber p => Sys2Proof.Machine.execHiber p s
  | .stampto p => Sys2Proof.Machine.execStampto p s
  | .readyTimeout p => Sys2Proof.Machine.execReadyTimeout p s
  | .rateAlternate p => Sys2Proof.Machine.execRateAlternate p s
  | .ddmPoll p temp vcc bias txpwr rxpwr => Sys2Proof.Machine.execDdmPoll p temp vcc bias txpwr rxpwr s
  | .i2cGo m p v => Sys2Proof.Machine.execI2cGo m p v s
  | .i2cComplete p ack data => Sys2Proof.Machine.execI2cComplete p ack data s
  | .linkEvent p e => Sys2Proof.Machine.execLinkEvent p e s
  | .electionStart => Sys2Proof.Machine.execElectionStart s
  | .cnClaim m v => Sys2Proof.Machine.execCnClaim m v s
  | .claim p e => Sys2Proof.Machine.execClaim p e s
  | .number p e renumber => Sys2Proof.Machine.execNumber p e renumber s
  | .renumber m v => Sys2Proof.Machine.execRenumber m v s
  | .censusReply p e => Sys2Proof.Machine.execCensusReply p e s
  | .replyResend => Sys2Proof.Machine.execReplyResend s
  | .commitSend => Sys2Proof.Machine.execCommitSend s
  | .commit p e => Sys2Proof.Machine.execCommit p e s
  | .neighbour p e => Sys2Proof.Machine.execNeighbour p e s
  | .join => Sys2Proof.Machine.execJoin s
  | .itbIncCommit m n v => Sys2Proof.Machine.execItbIncCommit m n v s
  | .itbStep m n v => Sys2Proof.Machine.execItbStep m n v s
  | .vdLoad m d v => Sys2Proof.Machine.execVdLoad m d v s
  | .beaconSend p => Sys2Proof.Machine.execBeaconSend p s
  | .delayProbeSend p => Sys2Proof.Machine.execDelayProbeSend p s
  | .delayProbe p e age ph => Sys2Proof.Machine.execDelayProbe p e age ph s
  | .delayReply p e age ph => Sys2Proof.Machine.execDelayReply p e age ph s
  | .beacon p e age ph => Sys2Proof.Machine.execBeacon p e age ph s
  | .parentLost => Sys2Proof.Machine.execParentLost s
  | .cycleBoundary => Sys2Proof.Machine.execCycleBoundary s
  | .inputSeal => Sys2Proof.Machine.execInputSeal s
  | .swapnow m v => Sys2Proof.Machine.execSwapnow m v s
  | .ttRunWrite m v => Sys2Proof.Machine.execTtRunWrite m v s
  | .swapReq m v => Sys2Proof.Machine.execSwapReq m v s
  | .ttEntryStage m bank n k v => Sys2Proof.Machine.execTtEntryStage m bank n k v s
  | .ttEntryCommit m bank n v => Sys2Proof.Machine.execTtEntryCommit m bank n v s
  | .ttEntryStart => Sys2Proof.Machine.execTtEntryStart s
  | .ttEntryHandover => Sys2Proof.Machine.execTtEntryHandover s
  | .cyclic e => Sys2Proof.Machine.execCyclic e s
  | .tkCfgWrite m n rsrc v => Sys2Proof.Machine.execTkCfgWrite m n rsrc v s
  | .trackHold m n v => Sys2Proof.Machine.execTrackHold m n v s
  | .trackRelease m n v => Sys2Proof.Machine.execTrackRelease m n v s
  | .tkPosWrite m n v => Sys2Proof.Machine.execTkPosWrite m n v s
  | .trackSourceInvalid n => Sys2Proof.Machine.execTrackSourceInvalid n s
  | .trackFreshExpiry n => Sys2Proof.Machine.execTrackFreshExpiry n s
  | .trackCoastExpiry n => Sys2Proof.Machine.execTrackCoastExpiry n s
  | .trackPublish n => Sys2Proof.Machine.execTrackPublish n s
  | .trackSample e => Sys2Proof.Machine.execTrackSample e s
  | .waymarkTakeup n => Sys2Proof.Machine.execWaymarkTakeup n s
  | .waymarkCrossing n => Sys2Proof.Machine.execWaymarkCrossing n s
  | .actPin => Sys2Proof.Machine.execActPin s
  | .actPulse => Sys2Proof.Machine.execActPulse s
  | .actFlag => Sys2Proof.Machine.execActFlag s
  | .actEmit => Sys2Proof.Machine.execActEmit s
  | .actBus => Sys2Proof.Machine.execActBus s
  | .actCapture => Sys2Proof.Machine.execActCapture s
  | .actNotice => Sys2Proof.Machine.execActNotice s
  | .actChain => Sys2Proof.Machine.execActChain s
  | .pulseEnd k => Sys2Proof.Machine.execPulseEnd k s
  | .emitDispatch => Sys2Proof.Machine.execEmitDispatch s
  | .wmCtlWrite m v => Sys2Proof.Machine.execWmCtlWrite m v s
  | .wmCapRead m => Sys2Proof.Machine.execWmCapRead m s
  | .dpxEnable m v => Sys2Proof.Machine.execDpxEnable m v s
  | .dpxDisable m v => Sys2Proof.Machine.execDpxDisable m v s
  | .dpxYield m v => Sys2Proof.Machine.execDpxYield m v s
  | .dpxClrf m v => Sys2Proof.Machine.execDpxClrf m v s
  | .dpxSoftFault m v => Sys2Proof.Machine.execDpxSoftFault m v s
  | .peerChange level => Sys2Proof.Machine.execPeerChange level s
  | .claimRaise => Sys2Proof.Machine.execClaimRaise s
  | .stepEdge => Sys2Proof.Machine.execStepEdge s
  | .dpxStep e tie age ph => Sys2Proof.Machine.execDpxStep e tie age ph s
  | .dpxState e tie => Sys2Proof.Machine.execDpxState e tie s
  | .dpxFrame e tie => Sys2Proof.Machine.execDpxFrame e tie s
  | .healthReport => Sys2Proof.Machine.execHealthReport s
  | .coldStart straps monEn => Sys2Proof.Machine.execColdStart straps monEn s
  | .regulatorReady => Sys2Proof.Machine.execRegulatorReady s
  | .brownOut vin => Sys2Proof.Machine.execBrownOut vin s
  | .allClear vin => Sys2Proof.Machine.execAllClear vin s
  | .ovwarn vin => Sys2Proof.Machine.execOvwarn vin s
  | .powerDown => Sys2Proof.Machine.execPowerDown s
  | .railOutOfTolerance out => Sys2Proof.Machine.execRailOutOfTolerance out s
  | .railCollapse rail => Sys2Proof.Machine.execRailCollapse rail s
  | .collapseHoldEnd => Sys2Proof.Machine.execCollapseHoldEnd s
  | .tempMeasure zone t onTime => Sys2Proof.Machine.execTempMeasure zone t onTime s
  | .feedQualified b => Sys2Proof.Machine.execFeedQualified b s
  | .feedDisqualified b => Sys2Proof.Machine.execFeedDisqualified b s
  | .feedHoldExpiry => Sys2Proof.Machine.execFeedHoldExpiry s
  | .feedTransferDone => Sys2Proof.Machine.execFeedTransferDone s
  | .gateFault => Sys2Proof.Machine.execGateFault s
  | .feedModeWrite m v => Sys2Proof.Machine.execFeedModeWrite m v s
  | .gfclr m v => Sys2Proof.Machine.execGfclr m v s
  | .fldEnable c => Sys2Proof.Machine.execFldEnable c s
  | .fldDisable c => Sys2Proof.Machine.execFldDisable c s
  | .fldStartTimeout c => Sys2Proof.Machine.execFldStartTimeout c s
  | .fldFullyOn c atLimit => Sys2Proof.Machine.execFldFullyOn c atLimit s
  | .fldLimitEnter c => Sys2Proof.Machine.execFldLimitEnter c s
  | .fldLimitExit c length => Sys2Proof.Machine.execFldLimitExit c length s
  | .fldFaultTimeout c onTime => Sys2Proof.Machine.execFldFaultTimeout c onTime s
  | .fastTrip c onTime => Sys2Proof.Machine.execFastTrip c onTime s
  | .coolDownEnd c => Sys2Proof.Machine.execCoolDownEnd c s
  | .fldClr m c v => Sys2Proof.Machine.execFldClr m c v s
  | .fldPgAssert vout => Sys2Proof.Machine.execFldPgAssert vout s
  | .fldPgFall vout => Sys2Proof.Machine.execFldPgFall vout s
  | .retryRestore => Sys2Proof.Machine.execRetryRestore s
  | .meterSample c x y z => Sys2Proof.Machine.execMeterSample c x y z s
  | .meterPublish => Sys2Proof.Machine.execMeterPublish s
  | .energyWrite m c v => Sys2Proof.Machine.execEnergyWrite m c v s
  | .pdLock m v => Sys2Proof.Machine.execPdLock m v s
  | .parityError p => Sys2Proof.Machine.execParityError p s
  | .bucketLeak c => Sys2Proof.Machine.execBucketLeak c s
  | .scrubWord c found => Sys2Proof.Machine.execScrubWord c found s
  | .scrubWriteback c otherWrite => Sys2Proof.Machine.execScrubWriteback c otherWrite s
  | .bistGo m v => Sys2Proof.Machine.execBistGo m v s
  | .bistCopyDone => Sys2Proof.Machine.execBistCopyDone s
  | .bistBankDrained => Sys2Proof.Machine.execBistBankDrained s
  | .bistTestDone pass faddr misr => Sys2Proof.Machine.execBistTestDone pass faddr misr s
  | .bistReturnDone => Sys2Proof.Machine.execBistReturnDone s
  | .romBoot sfdp sram office => Sys2Proof.Machine.execRomBoot sfdp sram office s
  | .mfWrite32 a ws => Sys2Proof.Machine.execMfWrite32 a ws s
  | .mfWrite16 a hs => Sys2Proof.Machine.execMfWrite16 a hs s
  | .mfDelay us => Sys2Proof.Machine.execMfDelay us s
  | .mfPoll a mask value late => Sys2Proof.Machine.execMfPoll a mask value late s
  | .mfPersist => Sys2Proof.Machine.execMfPersist s
  | .mfNodecfg a w0 w1 => Sys2Proof.Machine.execMfNodecfg a w0 w1 s
  | .mfEnd how => Sys2Proof.Machine.execMfEnd how s
  | .persistWrite kind => Sys2Proof.Machine.execPersistWrite kind s
  | .tokenGain => Sys2Proof.Machine.execTokenGain s
  | .energyCheckpoint => Sys2Proof.Machine.execEnergyCheckpoint s
  | .folioHeader p e => Sys2Proof.Machine.execFolioHeader p e s
  | .folioPart p e => Sys2Proof.Machine.execFolioPart p e s
  | .folioQuery p e => Sys2Proof.Machine.execFolioQuery p e s
  | .folioWrite f good => Sys2Proof.Machine.execFolioWrite f good s
  | .verifyDone => Sys2Proof.Machine.execVerifyDone s
  | .updAbort m v => Sys2Proof.Machine.execUpdAbort m v s
  | .updActivate m v => Sys2Proof.Machine.execUpdActivate m v s
  | .handoverDone withRecord => Sys2Proof.Machine.execHandoverDone withRecord s
  | .updConfirm m v => Sys2Proof.Machine.execUpdConfirm m v s
  | .trialExpiry => Sys2Proof.Machine.execTrialExpiry s
  | .recoveryFrame bs => Sys2Proof.Machine.execRecoveryFrame bs s
  | .atEntryStage m t e k v => Sys2Proof.Machine.execAtEntryStage m t e k v s
  | .atEntryCommit m t e v => Sys2Proof.Machine.execAtEntryCommit m t e v s
  | .fuseProgram m v => Sys2Proof.Machine.execFuseProgram m v s
  | .fuseRevoke m v => Sys2Proof.Machine.execFuseRevoke m v s
  | .fuseDone matched => Sys2Proof.Machine.execFuseDone matched s
  | .snapshotMark e => Sys2Proof.Machine.execSnapshotMark e s
  | .snapshotTake => Sys2Proof.Machine.execSnapshotTake s
  | .arrayCopyDone => Sys2Proof.Machine.execArrayCopyDone s
  | .cntSnap m v => Sys2Proof.Machine.execCntSnap m v s
  | .monId => Sys2Proof.Machine.execMonId s
  | .monUnlockNonce => Sys2Proof.Machine.execMonUnlockNonce s
  | .monUnlockToken k r sg => Sys2Proof.Machine.execMonUnlockToken k r sg s
  | .unlockLockoutEnd => Sys2Proof.Machine.execUnlockLockoutEnd s
  | .monLock => Sys2Proof.Machine.execMonLock s
  | .monNode node => Sys2Proof.Machine.execMonNode node s
  | .monPeek a n => Sys2Proof.Machine.execMonPeek a n s
  | .monPoke a v => Sys2Proof.Machine.execMonPoke a v s
  | .monDump a bytes => Sys2Proof.Machine.execMonDump a bytes s
  | .monCensus => Sys2Proof.Machine.execMonCensus s
  | .monSnap id => Sys2Proof.Machine.execMonSnap id s
  | .monSnapAt id ns => Sys2Proof.Machine.execMonSnapAt id ns s
  | .monDl => Sys2Proof.Machine.execMonDl s
  | .monDlFree => Sys2Proof.Machine.execMonDlFree s
  | .monScribeLoad k a words => Sys2Proof.Machine.execMonScribeLoad k a words s
  | .monScribeInject e v => Sys2Proof.Machine.execMonScribeInject e v s
  | .monScribeStep e => Sys2Proof.Machine.execMonScribeStep e s
  | .monTrack n => Sys2Proof.Machine.execMonTrack n s
  | .monWaymark n arm => Sys2Proof.Machine.execMonWaymark n arm s
  | .monPower => Sys2Proof.Machine.execMonPower s
  | .monBist target => Sys2Proof.Machine.execMonBist target s
  | .monUpdateStatus => Sys2Proof.Machine.execMonUpdateStatus s
  | .monBaud rate => Sys2Proof.Machine.execMonBaud rate s
  | .monitorOpen e => Sys2Proof.Machine.execMonitorOpen e s
  | .monitorLine e => Sys2Proof.Machine.execMonitorLine e s
  | .monitorOutput e => Sys2Proof.Machine.execMonitorOutput e s
  | .monitorDone e => Sys2Proof.Machine.execMonitorDone e s
  | .monitorClose e => Sys2Proof.Machine.execMonitorClose e s
  | .monitorLineTimeout k => Sys2Proof.Machine.execMonitorLineTimeout k s
  | .monitorSessionIdle k served => Sys2Proof.Machine.execMonitorSessionIdle k served s
  | .vddioClassChange b cls => Sys2Proof.Machine.execVddioClassChange b cls s
  | .monEnChange level => Sys2Proof.Machine.execMonEnChange level s
  | .jtagInstruction code => Sys2Proof.Machine.execJtagInstruction code s
  | .arbitrationLost c => Sys2Proof.Machine.execArbitrationLost c s
  | .protocolExceptionRejoin c => Sys2Proof.Machine.execProtocolExceptionRejoin c s
  | .headerReceived p e age ph => Sys2Proof.Machine.execHeaderReceived p e age ph s
  | .huntEnd p => Sys2Proof.Machine.execHuntEnd p s
  | .envelopeSent o uncorr => Sys2Proof.Machine.execEnvelopeSent o uncorr s
  | .folioAck p e => Sys2Proof.Machine.execFolioAck p e s

end Sys2Proof.Machine
end

