-- ==== Sys2Proof/Machine/Step.lean ====
section
/-! DEFINITION. The step: the command at the front of the queue is performed; with an empty queue one FCLK cycle passes (log entry 1). -/

namespace Sys2Proof.Machine

/-- One FCLK cycle of the digital die with no command: the clocks advance (R285 to R291), every 4 cycles the switch moves one slot
(R206), ports hand over cells that are complete (R216), and envelopes that wait for room are offered again (R213), in 4 of 5 cycles a UCLK edge lets the arbiter decide (R145), image copies, samples and partner messages that wait go on (R325, R349, R359), and every
312,500 cycles the notices limited to one a millisecond may be posted again. -/
def tick (s : State) : State :=
  if ¬clocked s then s
  else
    let s := fclkEdge s
    let s := if s.time.ltick % 4 = 0 then flushOutbox ([0, 1, 2].foldl (fun s p => paceCells p s) (switchSlot s)) else s
    let s := if s.time.ltick % 5 ≠ 4 then retryPartners (retrySamples (copiesOut (arbDecide s))) else s
    if s.time.ltick % 312500 = 0 then (onNotices (fun x => { x with posted := [] }) s) else s

/-- One step of the block. -/
def step (s : State) : Host.Outcome State Fault Refusal :=
  match s.pending with
  | [] => .next (tick s)
  | c :: rest => exec c { s with pending := rest }

/-- The opcode table gives no row any bits, so no word spells a command, and the queue stays as it is. -/
def State.withFetchWord (s : State) (nbits w : Nat) : State :=
  match decodeTableWord nbits w with
  | some c => { s with pending := c :: s.pending }
  | none => s

end Sys2Proof.Machine
end

