-- ==== Sys2Proof/Safety.lean ====
section
/-! DEFINITION. What the statements speak of: the canonical form of the memory, an access that its target takes, and the registers that
a change leaves alone. -/

namespace Sys2Proof.Machine

/-- The memory has its canonical form: addresses strictly rising, no entry equal to what an unlisted address reads as. -/
abbrev Memory.wf (s : State) : Prop := tabWf memDefault s.mem = true

/-- The command is performed from s: it answers a next state. -/
def Performs (i : Instr) (s : State) : Prop := ∃ t, exec i s = .next t

/-- Master m's write of the register at a is taken: the die runs, no locked grant holds m off, and no check of R448 refuses the access. -/
abbrev Takes (s : State) (m : Master) (a : Nat) : Prop :=
  clocked s = true ∧ lockedOut s m a = false ∧ refusal s { m := m, a := a, width := 4, write := true, lock := false } = none

/-- Master m's read of the register at a is taken. -/
abbrev Reads (s : State) (m : Master) (a : Nat) : Prop :=
  clocked s = true ∧ lockedOut s m a = false ∧ refusal s { m := m, a := a, width := 4, write := false, lock := false } = none

/-- A clock of engine n falls due in s, and on it the engine executes l, in t, with no parity error in a register that l reads. -/
def ClockRuns (n : Nat) (s t : State) (l : Latched) : Prop :=
  clockDue s n = true ∧ (∃ u, nextInstr s n = some (l, u) ∧ t = useClock n u ∧ (regsRead s n l.word).find? (fun a => badWord s a) = none)

/-- Every register but those listed reads in t as in s. -/
def RegsBut (l : List Nat) (s t : State) : Prop := ∀ a, a ∉ l → getReg t a = getReg s a

/-- The registers that the discard of a read-ahead buffer can change: the prefetch log's and a queue's status. -/
abbrev discardRegs : List Nat := [R.DL_STAT, R.UP_HEAD] ++ (List.range 32).map (fun q => R.PH_STAT q)

/-- From u to t only the listed registers change, beside counters, the marks of unreadable register words, and the interconnect's answer. -/
def OnlyRegs (l : List Nat) (u t : State) : Prop :=
  RegsBut l u t ∧
  t = { u with
    regs := t.regs, mon := { u.mon with counters := t.mon.counters },
    integrity := { u.integrity with badWords := t.integrity.badWords }, resp := t.resp }

/-- The registers whose read has a rule of its own: the FIFOs and the registers latched with them. -/
def ownReads : List Nat :=
  [R.PH_POP 0, R.PH_ITEM 0 0, R.SCR_RXF 0 0, R.UA_RXD 0, R.BANK_CAP_LO 0, R.WM_CAP_LO, R.TK_CAP_POS_LO 0, R.TK_CAP_PM_LO 0, R.TK_CAP_STAT 0,
   R.BR_OC_DATA 0 0]

end Sys2Proof.Machine
end

