-- ==== Sys2Proof/WellFormed.lean ====
section
/-! DEFINITION. The commands whose operands are values of the spec's: an envelope of the row's kind whose payload is LENW words, an access
of a width that some access has, a monitor line of at most 200 characters. Every other command is performed too, as log entry 126 says. -/

namespace Sys2Proof

open Sys2Proof.Machine

/-- An envelope of a kind whose payload is LENW words (R241). -/
def envOf (k : BitVec 5) (e : Envelope) : Bool := e.kind = k && isFormed e

/-- A partner message of a TYPE (R358 to R365). -/
def partnerOf (type : Nat) (e : Envelope) : Bool := envOf kHealth e && bitsOf (payloadWord e 0).toNat 0 4 = type

/-- A MONITOR envelope of a TYPE (R466). -/
def monitorOf (type : Nat) (e : Envelope) : Bool := envOf kMonitor e && e.payload ≠ [] && monType e = type

/-- A FOLIO that carries folio 0 (R432). -/
def folioHeaderFits (e : Envelope) : Bool := folioNumber e = 0 && e.payload ≠ []

/-- A FOLIO that carries a part of a later folio (R432). -/
def folioPartFits (e : Envelope) : Bool := folioNumber e ≠ 0 && e.payload ≠ []

/-- A command is well formed. -/
def wellFormed : Instr → Bool
  | .registerWrite _ _ width _ => width = 1 || width = 2 || width = 4 || width = 8
  | .wideLoRead _ a => isWidePart a.toNat 0
  | .wideHiWrite _ a _ => isWidePart a.toNat 1
  | .wideLoWrite _ a _ => isWidePart a.toNat 0
  | .programStoreWrite _ _ off _ _ => decide (off < 0x40)
  | .frameReceived _ f _ _ => asFrame f = f
  | .busFrame e => envOf kBusFrame e
  | .writeP e => envOf kWriteP e
  | .writeA e => envOf kWriteA e
  | .read e => envOf kRead e
  | .lockRead e => envOf kLockRead e
  | .unlockWrite e => envOf kUnlockWrite e
  | .writeAck e => envOf kWriteAck e
  | .readData e => envOf kReadData e
  | .ndn e => envOf kNdn e
  | .soResWrite _ a _ => isSoRes a.toNat
  | .envelopeReceived _ e _ _ _ => isFormed e
  | .stamp _ w => bitsOf w.toNat 0 8 = 0x55
  | .audit _ w => bitsOf w.toNat 0 8 = 0x99
  | .train _ w => bitsOf w.toNat 0 8 = 0x66
  | .linkEvent _ e => e.kind = kLinkEvent
  | .claim _ e => e.kind = kCensus
  | .number _ e _ => e.kind = kCensus
  | .censusReply _ e => e.kind = kCensusReply
  | .commit _ e => e.kind = kCensus
  | .neighbour _ e => e.kind = kCensus
  | .delayProbe _ e _ _ => envOf kDelayProbe e
  | .delayReply _ e _ _ => envOf kDelayReply e
  | .beacon _ e _ _ => envOf kBeacon e
  | .cyclic e => envOf kCyclic e
  | .trackSample e => envOf kTrackSample e
  | .dpxStep e _ _ _ => partnerOf 1 e
  | .dpxState e _ => partnerOf 2 e
  | .dpxFrame e _ => partnerOf 3 e
  | .folioHeader _ e => envOf kFolio e && folioHeaderFits e
  | .folioPart _ e => envOf kFolio e && folioPartFits e
  | .folioQuery _ e => envOf kFolio e && e.payload = []
  | .snapshotMark e => envOf kSnapshotMark e
  | .monScribeLoad k a words => decide (a < 32) && decide ((spell (.load k.val a (words.map (fun w => w.toNat)))).length ≤ 200)
  | .monitorOpen e => monitorOf 0 e
  | .monitorLine e => monitorOf 1 e
  | .monitorOutput e => monitorOf 2 e
  | .monitorDone e => monitorOf 3 e
  | .monitorClose e => monitorOf 4 e
  | .folioAck _ e => envOf kFolioAck e
  | .serviceWrite .. | .serviceModeTakesEffect | .seal .. | .softReset .. | .resetLLow | .resetLRelease | .kick ..
  | .watchdogExpiry | .clockLoss | .pllLockHeld | .clockMonitorWindow .. | .unitResetHold .. | .unitResetRelease ..
  | .supplyFaultStart .. | .supplyFaultEnd .. | .bankCfgWrite .. | .strapSample .. | .pinCfgWrite .. | .pinTransition ..
  | .edgeAccepted .. | .edgeRejected .. | .bankCapRead .. | .pinOutWrite .. | .pinOutToggle .. | .bankOutSet ..
  | .bankOutClr .. | .waitLevel .. | .waitEdge .. | .waitFlag .. | .waitCount .. | .shin .. | .shout .. | .pull .. | .push ..
  | .scribeMove .. | .scribeSet .. | .jump .. | .mark .. | .flagRaise .. | .flagLower .. | .flagToggle .. | .flagNotice ..
  | .illegal .. | .stallComplete .. | .delayExpiry .. | .engineEnable .. | .engineDisable .. | .engineStep .. | .restart ..
  | .clrf .. | .csyncStart .. | .csyncStop .. | .clkdivWrite .. | .inject .. | .scrTxfWrite .. | .scrRxfRead ..
  | .flagsClear .. | .flagsSet .. | .engineStateWrite .. | .pcWrite .. | .dmaChannelWrite .. | .dmaTxRefill ..
  | .dmaTxReturn .. | .dmaRxBlock .. | .dmaRecordCommit .. | .mbInitClear .. | .mbInitSet .. | .busIntegrated ..
  | .protocolException .. | .busError .. | .busOffRecovery .. | .txCopy .. | .txComplete .. | .mbTxreq .. | .mbTxcan ..
  | .mbNewClear .. | .ttEnable .. | .ttReferenceRequest .. | .ttTrigger .. | .gwMapWrite .. | .gwBusToImage | .gwImageToBus
  | .uaTxdWrite .. | .uartTxStart .. | .uartTxEnd .. | .uartCharReceived .. | .uartStartBit .. | .uartGap .. | .uaRxdRead ..
  | .encoderEdge .. | .encoderIndex .. | .enCountWrite .. | .zarm .. | .mainsEnable .. | .mainsEdge .. | .mainsEdgeMissing ..
  | .mainsHoldMax .. | .liTimeout .. | .arbPriWrite .. | .arbQuotaWrite .. | .quotaWindowEnd | .noticeEntry .. | .phPop ..
  | .phItemRead .. | .flush .. | .phCfgWrite .. | .noticeEnvelopeBuild .. | .noticeEnvelopeRelease .. | .inboundStart
  | .inboundPiece .. | .lockWaiterGrant | .lockTimeout .. | .prefetchHoldExpiry .. | .channelGo .. | .channelAccepted ..
  | .responseTimeout .. | .quarantineEnd .. | .dlTailWrite .. | .upTailWrite .. | .dlForward | .envelopeStart ..
  | .outputStall .. | .reseqTimeout .. | .internalDelivery .. | .badBlock .. | .stampSend .. | .portEnable ..
  | .portDisable .. | .retrain .. | .moduleChange .. | .moduleQualify .. | .blockLock .. | .lockloss .. | .los .. | .hiber ..
  | .stampto .. | .readyTimeout .. | .rateAlternate .. | .ddmPoll .. | .i2cGo .. | .i2cComplete .. | .electionStart
  | .cnClaim .. | .renumber .. | .replyResend | .commitSend | .join | .itbIncCommit .. | .itbStep .. | .vdLoad ..
  | .beaconSend .. | .delayProbeSend .. | .parentLost | .cycleBoundary | .inputSeal | .swapnow .. | .ttRunWrite ..
  | .swapReq .. | .ttEntryStage .. | .ttEntryCommit .. | .ttEntryStart | .ttEntryHandover | .tkCfgWrite .. | .trackHold ..
  | .trackRelease .. | .tkPosWrite .. | .trackSourceInvalid .. | .trackFreshExpiry .. | .trackCoastExpiry ..
  | .trackPublish .. | .waymarkTakeup .. | .waymarkCrossing .. | .actPin | .actPulse | .actFlag | .actEmit | .actBus
  | .actCapture | .actNotice | .actChain | .pulseEnd .. | .emitDispatch | .wmCtlWrite .. | .wmCapRead .. | .dpxEnable ..
  | .dpxDisable .. | .dpxYield .. | .dpxClrf .. | .dpxSoftFault .. | .peerChange .. | .claimRaise | .stepEdge | .healthReport
  | .coldStart .. | .regulatorReady | .brownOut .. | .allClear .. | .ovwarn .. | .powerDown | .railOutOfTolerance ..
  | .railCollapse .. | .collapseHoldEnd | .tempMeasure .. | .feedQualified .. | .feedDisqualified .. | .feedHoldExpiry
  | .feedTransferDone | .gateFault | .feedModeWrite .. | .gfclr .. | .fldEnable .. | .fldDisable .. | .fldStartTimeout ..
  | .fldFullyOn .. | .fldLimitEnter .. | .fldLimitExit .. | .fldFaultTimeout .. | .fastTrip .. | .coolDownEnd .. | .fldClr ..
  | .fldPgAssert .. | .fldPgFall .. | .retryRestore | .meterSample .. | .meterPublish | .energyWrite .. | .pdLock ..
  | .parityError .. | .bucketLeak .. | .scrubWord .. | .scrubWriteback .. | .bistGo .. | .bistCopyDone | .bistBankDrained
  | .bistTestDone .. | .bistReturnDone | .romBoot .. | .mfWrite32 .. | .mfWrite16 .. | .mfDelay .. | .mfPoll .. | .mfPersist
  | .mfNodecfg .. | .mfEnd .. | .persistWrite .. | .tokenGain | .energyCheckpoint | .folioWrite .. | .verifyDone
  | .updAbort .. | .updActivate .. | .handoverDone .. | .updConfirm .. | .trialExpiry | .recoveryFrame .. | .atEntryStage ..
  | .atEntryCommit .. | .fuseProgram .. | .fuseRevoke .. | .fuseDone .. | .snapshotTake | .arrayCopyDone | .cntSnap ..
  | .monId | .monUnlockNonce | .monUnlockToken .. | .unlockLockoutEnd | .monLock | .monNode .. | .monPeek .. | .monPoke ..
  | .monDump .. | .monCensus | .monSnap .. | .monSnapAt .. | .monDl | .monDlFree | .monScribeInject .. | .monScribeStep ..
  | .monTrack .. | .monWaymark .. | .monPower | .monBist .. | .monUpdateStatus | .monBaud .. | .monitorLineTimeout ..
  | .monitorSessionIdle .. | .vddioClassChange .. | .monEnChange .. | .jtagInstruction .. | .arbitrationLost ..
  | .protocolExceptionRejoin .. | .headerReceived .. | .huntEnd .. | .envelopeSent .. => true

end Sys2Proof
end

