-- ==== Sys2Proof/Certificates/Slice0/Obligations.lean ====
section
/-! DEFINITION. The statements for the provers: what each family of commands does, when it completes, and what it leaves unchanged. -/

open Sys2Proof Sys2Proof.Machine

/-- After reset the node is quarantined in STARTUP, unsealed and locked, and every unit is idle. In the state after reset nothing is pending,
the memory lists no byte, the node is quarantined with service mode STARTUP and no seal, the monitor is locked, every engine is IDLE and
disabled, every message-bus controller is in INIT, every port is down, every pigeonhole queue is empty, every UART is disabled and no
counter has counted. That every register the spec gives no reset value reads zero is the model's choice and is not stated here. (spec:
01_five_levels.md, 03_scribe_engines.md, 10_caravan_links.md, 19_counters_and_monitor.md) -/
def Obligations.ResetHoldsItsStartingValues : Prop :=
  (State.reset.pending = [] ∧ State.reset.mem = [] ∧ (∀ a, getByte State.reset a = memDefault a) ∧ (∀ c, getCtr State.reset c = 0) ∧ (∀ a, getReg State.reset a = resetWord a)) ∧
  (quarantined State.reset = true ∧ serviceMode State.reset = 0 ∧ sealed State.reset = false ∧ monUnlocked State.reset = false ∧ clocked State.reset = true ∧
      (∀ e : Fin 64, engState State.reset e = 0 ∧ engEnabled State.reset e = false) ∧ (∀ c : Fin 8, getB State.reset (R.MB_CTL c) F.MB_CTL_INIT = true) ∧
      (∀ p : Fin 3, getF State.reset (R.PT_STAT p) F.PT_STAT_STATE = 0) ∧ (∀ q : Fin 32, (getPh State.reset q).items = []) ∧
      (∀ u : Fin 16, getB State.reset (R.UA_CTL u) F.UA_CTL_EN = false))

/-- The reset values of the requesters' ranks. In the state after reset ARB_PRIn.RANK reads 3 for requesters 3 to 20, 2 for requesters 0 and 21,
1 for requesters 1 and 2, and 0 for requesters 22 and 23. (spec: R146) -/
def Obligations.ArbiterRanksAtReset : Prop :=
  (∀ n : Nat, n < 24 → getF State.reset (R.ARB_PRI n) F.ARB_PRI_RANK =
      if 3 ≤ n ∧ n ≤ 20 then 3 else if n = 0 ∨ n = 21 then 2 else if n = 1 ∨ n = 2 then 1 else 0)

/-- A flush empties the queue, keeps SEQ, and hides what is left of a popped item. A taken write of 1 to PH_CTL.FLUSH of queue q leaves q
without items and its SEQ as it was. When a master holds the latch of a popped item of which a PH_ITEM register has not been read,
PH_STAT.FLUSHED is set, and that master's next read of each such register gives 0. (spec: R155) -/
def Obligations.FlushEmptiesTheQueue : Prop :=
  (∀ (m : Master) (q : Fin 32) (v : Word) (s : State), Takes s m (R.PH_CTL q) →
      let u := dropOverlap (R.PH_CTL q) 4 s
      ∃ t, exec (.flush m q v) s = .next t ∧ (getPh t q).items = [] ∧ (getPh t q).seq = (getPh u q).seq ∧
        ∀ l, (getPh u q).latch = some l → l.isItem = true → ∀ k : Fin 3, (if k.val = 0 then l.read1 else if k.val = 1 then l.read2 else l.read3) = false →
          getB t (R.PH_STAT q) F.PH_STAT_FLUSHED = true ∧
          ∀ h, masterId t h = l.tag → Reads t h (R.PH_ITEM q k) → ∃ r, exec (.phItemRead h q k) t = .next r ∧ r.resp = .data 0 false)

/-- Each boot counts a failure, NORMAL clears the count, and the fourth enters recovery. A boot of the ROM that gets as far as its image raises
UPD_BOOT.BOOTFAIL by 1, up to 15, before it chooses a slot; at 4 or more it enters recovery instead. A service mode that becomes NORMAL
clears the field before anything else that the change brings. (spec: R421) -/
def Obligations.BootFailuresAreCounted : Prop :=
  (∀ (sfdp : Option (Nat × Bool)) (office : Bool) (s : State), s.upd.booted = false → clocked s = true → flashRefused sfdp = false →
      ∃ y z, getF z R.UPD_BOOT F.UPD_BOOT_BOOTFAIL = min 15 (getF s R.UPD_BOOT F.UPD_BOOT_BOOTFAIL + 1) ∧ RegsBut [R.UPD_BOOT] y z ∧ y.upd = { s.upd with booted := true } ∧
        (4 ≤ getF z R.UPD_BOOT F.UPD_BOOT_BOOTFAIL → exec (.romBoot sfdp true office) s = .next (enterRecovery z)) ∧
        (∀ (w : State), getF z R.UPD_BOOT F.UPD_BOOT_BOOTFAIL < 4 → chooseByMode (getF s R.UPD_BOOT F.UPD_BOOT_MODE) z = (none, w) → exec (.romBoot sfdp true office) s = .next (enterRecovery w)) ∧
        (∀ (slot : Nat) (trial : Bool) (w : State), getF z R.UPD_BOOT F.UPD_BOOT_BOOTFAIL < 4 → chooseByMode (getF s R.UPD_BOOT F.UPD_BOOT_MODE) z = (some (slot, trial), w) →
          ∃ x, (x = startSlot slot trial w ∨ x = bistNotice 0xC3 0 (startSlot slot trial w)) ∧ exec (.romBoot sfdp true office) s = .next (startApply slot x))) ∧
  (∀ (s : State), ttRunning s = false → requestedMode s = 1 → serviceMode s ≠ 1 →
      ∃ x, serviceMode x = 1 ∧ getF x R.UPD_BOOT F.UPD_BOOT_BOOTFAIL = 0 ∧ RegsBut [R.NODE_STAT, R.UPD_BOOT] s x ∧ x = { s with regs := x.regs } ∧
        exec .serviceModeTakesEffect s = .next (reviewClaim (reviewFiring (safePins x))))

/-- The memory of the state after reset has its canonical form. State.reset's memory lists addresses strictly rising and no byte equal to what
an unlisted address reads as. What an unlisted address reads as is the model's choice (log entry 3). (spec: 16_memory_integrity.md) -/
def Obligations.MemoryFormHoldsAtReset : Prop :=
  (Memory.wf State.reset)

/-- Every step of every command keeps the memory's canonical form. From every state whose memory has its canonical form (addresses strictly
rising, no byte equal to what an unlisted address reads as), a step that answers a next state gives a state whose memory has it, whatever
command is at the front of the queue and with an empty queue as well. So equal memories are equal data in every state a run reaches. (spec:
16_memory_integrity.md) -/
def Obligations.EveryStepKeepsTheMemoryForm : Prop :=
  (∀ (s t : State), Memory.wf s → step s = .next t → Memory.wf t)

/-- No command touches the queue: a step takes exactly the front command away. For every command and state, a next state of exec has the queue
that the command found. A step with a command at the front therefore leaves exactly the rest of the queue, and a step with an empty queue
leaves it empty. No command enqueues, drops or reorders another. (spec: 95_what_each_step_holds.md) -/
def Obligations.CommandsLeaveTheQueueBehindThem : Prop :=
  (∀ (i : Instr) (s t : State), exec i s = .next t → t.pending = s.pending) ∧
  (∀ (s t : State), step s = .next t → t.pending = s.pending.tail)

/-- Every command is performed in every state, whatever its operands. In every state and with every operand, a command answers a next state:
what the spec forbids is denied, refused or answered inside the machine, and an operand that is no value of the spec's is taken as log entry
126 says. So a step answers a next state in every state: no command ends a run in a fault or a refusal. (spec: 95_what_each_step_holds.md,
07_post_office_bridge.md, 19_counters_and_monitor.md) -/
def Obligations.EveryCommandCompletes : Prop :=
  (∀ (i : Instr) (s : State), ∃ t, exec i s = .next t) ∧
  (∀ (s : State), ∃ t, step s = .next t)

/-- A step performs the command at the front of the queue on the state with the queue's rest. For every command c, queue rest and state s whose
queue is c followed by rest, step s is exec of c on s with the queue's rest. With an empty queue one FCLK cycle passes while the die runs,
and nothing happens while it is held in reset (the model's choice, log entry 1). (spec: 95_what_each_step_holds.md) -/
def Obligations.StepTakesTheFrontOfTheQueue : Prop :=
  (∀ (c : Instr) (rest : List Instr) (s : State), s.pending = c :: rest → step s = exec c { s with pending := rest }) ∧
  (∀ s : State, s.pending = [] → step s = .next (tick s)) ∧
  (∀ s : State, s.pending = [] → clocked s = false → step s = .next s)

/-- A 32-bit register write gives each field the value its access code says and touches no other register. A master's 32-bit write of a register
without a rule of its own that the target takes completes with an OK answer; each field f of the register then reads what f's access code
gives: RW and RWS take the written value, RWL takes it only while the seal is open, W1C clears and W1S sets the written ones, RO, RC and WO
keep; a NTC_Q field keeps its value when 0 is written. No other register, no memory byte and no part of the state but counters, parity marks
and the answer changes, beside the read-ahead the write overlaps (dropOverlap). (spec: 00_scope.md) -/
def Obligations.RegisterWriteFollowsAccessCodes : Prop :=
  (∀ (m : Master) (a : Word) (v : DWord) (s : State) (r : RegRow) (i j : Nat) (f : FieldRow),
      Takes s m a.toNat → regionOf a.toNat = .register → a.toNat ≠ R.NODE_CTL → findReg a.toNat = some (r, i, j) → f ∈ r.fields →
      (∀ u, regWrite m a.toNat (v.truncate 32) u = (plainWrite a.toNat (v.truncate 32) u, none)) →
      ∃ t, exec (.registerWrite m a 4 v) s = .next t ∧ t.resp = .ok ∧
        getF t a.toNat f.fld =
          (let old := getReg (dropOverlap a.toNat 4 s) a.toNat
           if f.keep0 = true ∧ f.fld.get (v.truncate 32) = 0 then f.fld.get old else
           match f.acc with
           | .rw | .rws => f.fld.get (v.truncate 32)
           | .rwl => if sealed (dropOverlap a.toNat 4 s) = true then f.fld.get old else f.fld.get (v.truncate 32)
           | .w1c => f.fld.get (old &&& ~~~(v.truncate 32))
           | .w1s => f.fld.get (old ||| (v.truncate 32))
           | .ro | .rc | .wo => f.fld.get old) ∧
        OnlyRegs [a.toNat] (dropOverlap a.toNat 4 s) t) ∧
  (∀ (m : Master) (a : Word) (v : DWord) (s : State), Takes s m a.toNat → regionOf a.toNat = .register → a.toNat ≠ R.NODE_CTL →
      exec (.registerWrite m a 4 v) s = .next (answerWrite (regWrite m a.toNat (v.truncate 32) (dropOverlap a.toNat 4 s))))

/-- A wide register's read latches its upper parts, its upper writes are staged and its _LO write commits them together. For a master's access
that the target takes and a register without a rule of its own: a read of _LO answers the live low part and latches the live upper parts
under the master's ID; a write of _HI (part 1) or _TOP (part 2) goes into the write stage under the writer's ID, and replaces a stage that
another master tagged; a write of _LO commits the low part with the staged upper parts when the stage holds the writer's ID and with the
current ones otherwise, and empties the stage. Nothing else changes but the reserved-bit counter, the answer and the read-ahead a write
overlaps. (spec: 00_scope.md) -/
def Obligations.WideRegistersLatchAndStage : Prop :=
  (∀ (m : Master) (a : Word) (s : State) (r : RegRow) (i j : Nat) (w : WideRow),
      Reads s m a.toNat → regionOf a.toNat = .register → findReg a.toNat = some (r, i, j) → r.base ∉ ownReads →
      findWide a.toNat = some (w, 0, a.toNat) → w.kind ≠ .wo →
      ∃ t, exec (.wideLoRead m a) s = .next t ∧ t.resp = .data ((regView s a.toNat).zeroExtend 64) false ∧
        getLatch t a.toNat = some { tag := masterId s m, hi := regView s (a.toNat + 4), top := if 3 ≤ w.parts then regView s (a.toNat + 8) else 0, ext := if 4 ≤ w.parts then regView s (a.toNat + 12) else 0 } ∧
        t = { s with latches := t.latches, resp := t.resp }) ∧
  (∀ (m : Master) (a v : Word) (s : State) (w : WideRow) (part lo : Nat),
      Takes s m a.toNat → regionOf a.toNat = .register → findWide a.toNat = some (w, part, lo) → 1 ≤ part →
      (w.kind = .rw ∨ w.kind = .wo) → (∀ u, regWrite m a.toNat v u = (writePlain (masterId u m) a.toNat v u, none)) →
      let u := dropOverlap a.toNat 4 s
      let old : Stage := match getStage u lo with
        | some g => if g.tag = masterId u m then g else { tag := masterId u m, hi := none, top := none }
        | none => { tag := masterId u m, hi := none, top := none }
      ∃ t, exec (.wideHiWrite m a v) s = .next t ∧ t.resp = .ok ∧
        getStage t lo = some (if part = 1 then { old with hi := some v } else { old with top := some v }) ∧
        t.regs = u.regs ∧ t = { u with stages := t.stages, mon := t.mon, resp := t.resp }) ∧
  (∀ (m : Master) (a v : Word) (s : State) (w : WideRow),
      Takes s m a.toNat → regionOf a.toNat = .register → findWide a.toNat = some (w, 0, a.toNat) → w.kind = .rw →
      (∀ u, regWrite m a.toNat v u = (writePlain (masterId u m) a.toNat v u, none)) →
      let u := dropOverlap a.toNat 4 s
      let up : Word × Word := match getStage u a.toNat with
        | some g => if g.tag = masterId u m then (g.hi.getD (getReg u (a.toNat + 4)), g.top.getD (getReg u (a.toNat + 8)))
          else (getReg u (a.toNat + 4), getReg u (a.toNat + 8))
        | none => (getReg u (a.toNat + 4), getReg u (a.toNat + 8))
      ∃ t, exec (.wideLoWrite m a v) s = .next t ∧ t.resp = .ok ∧ getStage t a.toNat = none ∧
        getReg t a.toNat = fieldBits a.toNat v ∧ getReg t (a.toNat + 4) = fieldBits (a.toNat + 4) up.1 ∧
        (3 ≤ w.parts → getReg t (a.toNat + 8) = fieldBits (a.toNat + 8) up.2) ∧
        RegsBut [a.toNat, a.toNat + 4, a.toNat + 8] u t ∧ t = { u with regs := t.regs, stages := t.stages, mon := t.mon, resp := t.resp })

/-- A write of NODE_CTL requests a permitted service mode, refuses and counts any other, sets the seal, and resets the node when keyed. For a
master's write of NODE_CTL that is taken and carries no keyed reset: SERVICE_WRITE sets NODE_CTL.SERVICE to the requested mode when it is
the mode in force or a transition of R27 that this master may ask for, and otherwise leaves SERVICE as it was and counts a refused mode
transition; the mode in force does not change. SEAL sets NODE_CTL.SEAL. SOFT_RESET with the key 0x5A resets the node with cause SOFT after
the write. Only NODE_CTL, counters and the answer change when no reset happens. (spec: 01_five_levels.md, 00_scope.md) -/
def Obligations.NodeControlWritesRequestModeAndSeal : Prop :=
  (∀ (m : Master) (v : Word) (s : State), Takes s m R.NODE_CTL → resetKeyed v = false →
      (F.NODE_CTL_SERVICE.get v = serviceMode (dropOverlap R.NODE_CTL 4 s) ∨ transitionOk m (dropOverlap R.NODE_CTL 4 s) (F.NODE_CTL_SERVICE.get v) = true) →
      ∃ t, exec (.serviceWrite m v) s = .next t ∧ t.resp = .ok ∧ requestedMode t = F.NODE_CTL_SERVICE.get v ∧
        OnlyRegs [R.NODE_CTL] (dropOverlap R.NODE_CTL 4 s) t) ∧
  (∀ (m : Master) (v : Word) (s : State), Takes s m R.NODE_CTL → resetKeyed v = false →
      F.NODE_CTL_SERVICE.get v ≠ serviceMode (dropOverlap R.NODE_CTL 4 s) → transitionOk m (dropOverlap R.NODE_CTL 4 s) (F.NODE_CTL_SERVICE.get v) = false →
      ∃ t, exec (.serviceWrite m v) s = .next t ∧ t.resp = .ok ∧ requestedMode t = requestedMode (dropOverlap R.NODE_CTL 4 s) ∧
        getCtr t (ctr 0x0001 2 0) = (getCtr (dropOverlap R.NODE_CTL 4 s) (ctr 0x0001 2 0) + 1) % 2 ^ 48 ∧
        OnlyRegs [R.NODE_CTL] (dropOverlap R.NODE_CTL 4 s) t) ∧
  (∀ (m : Master) (v : Word) (s : State), Takes s m R.NODE_CTL → resetKeyed (F.NODE_CTL_SEAL.put v 1) = false →
      ∃ t, exec (.seal m v) s = .next t ∧ t.resp = .ok ∧ sealed t = true ∧ OnlyRegs [R.NODE_CTL] (dropOverlap R.NODE_CTL 4 s) t) ∧
  (∀ (m : Master) (v : Word) (s : State), Takes s m R.NODE_CTL → F.NODE_CTL_KEY.get v = 0x5A →
      exec (.softReset m v) s = .next (nodeReset F.NODE_RST_CAUSE_SOFT (answer .ok (writeNodeCtl m (F.NODE_CTL_RESET.put v 1) (dropOverlap R.NODE_CTL 4 s))))) ∧
  (∀ (s : State), ttRunning s = false → requestedMode s ≠ serviceMode s →
      ∃ x, serviceMode x = requestedMode s ∧ (requestedMode s = 1 → getF x R.UPD_BOOT F.UPD_BOOT_BOOTFAIL = 0) ∧ RegsBut [R.NODE_STAT, R.UPD_BOOT] s x ∧ x = { s with regs := x.regs } ∧
        exec .serviceModeTakesEffect s = .next (reviewClaim (reviewFiring (safePins x)))) ∧
  (∀ (s : State), (ttRunning s = true ∨ requestedMode s = serviceMode s) → exec .serviceModeTakesEffect s = .next s)

/-- Node reset sets its cause, returns every digital register to its reset value and keeps memory but for the waymark EN bits. After a node
reset with a cause: the cause's bit of NODE_RST_CAUSE is set; every register no bit of which is kept through node reset, NODE_CLK_STAT
apart, holds its reset value, so the mode is STARTUP and the seal is open; from a memory in canonical form every byte reads as before but
for the EN bits of waymark entries, which are cleared; poison marks and the queue stay; notices, engines, buses, tracks and timetable are as
after cold start. (spec: 01_five_levels.md, 16_memory_integrity.md, 15_power_die.md) -/
def Obligations.NodeResetRestoresTheDigitalDie : Prop :=
  (∀ (f : Fld) (s : State), f ∈ [F.NODE_RST_CAUSE_PIN, F.NODE_RST_CAUSE_SOFT, F.NODE_RST_CAUSE_WDOG, F.NODE_RST_CAUSE_CLK] →
      getB (nodeReset f s) R.NODE_RST_CAUSE f = true ∧ serviceMode (nodeReset f s) = 0 ∧ sealed (nodeReset f s) = false ∧
      (∀ a, keptBits a = 0 → a ≠ R.NODE_CLK_STAT → getReg (nodeReset f s) a = resetWord a) ∧
      (nodeReset f s).poison = s.poison ∧ (nodeReset f s).pending = s.pending ∧
      (nodeReset f s).notices = NoticeState.reset ∧ (nodeReset f s).scribe = ScribeState.reset ∧ (nodeReset f s).buses = BusState.reset ∧
      (nodeReset f s).tracks = TrackState.reset ∧ (nodeReset f s).tt = TtState.reset) ∧
  (∀ (f : Fld) (s : State) (a : Nat), Memory.wf s → getByte (nodeReset f s) a = if isWmEn a = true then getByte s a &&& 0xFE else getByte s a)

/-- RESET_L, the watchdog, a clock loss and the clock monitor do what the chapter says of them. RESET_L low and a clock loss cause node reset
with their cause and hold the die (it is no longer clocked); RESET_L released and the PLL lock held let it go; the watchdog resets the node
when it is enabled and its timeout has passed without a kick, and does nothing before; a kick restarts it; a window in which all four clocks
are within their limits, the fourth in a row, clears their BAD bits, and a clock more than 5 % off sets its bit, posts a notice and latches
fault 1. A clock loss leaves both PLL lock bits 0 and the PLL lock sets both. (spec: 01_five_levels.md) -/
def Obligations.ResetCausesAndClocks : Prop :=
  (∀ s : State, exec .resetLLow s = .next (nodeReset F.NODE_RST_CAUSE_PIN (onNode (fun x => { x with resetL := true }) s)) ∧
      (nodeReset F.NODE_RST_CAUSE_PIN (onNode (fun x => { x with resetL := true }) s)).node.resetL = true) ∧
  (∀ s : State, ∃ t, exec .resetLRelease s = .next t ∧ t.node.resetL = false ∧ t = { s with node := { s.node with resetL := false } }) ∧
  (∀ (m : Master) (v : Word) (s : State), Takes s m R.NODE_WDOG →
      ∃ t, exec (.kick m v) s = .next t ∧ t.resp = .ok ∧ t.node.wdogFrom = (dropOverlap R.NODE_WDOG 4 s).time.ltick ∧
        OnlyRegs [R.NODE_WDOG] (dropOverlap R.NODE_WDOG 4 s) { t with node := (dropOverlap R.NODE_WDOG 4 s).node } ∧
        t.node = { (dropOverlap R.NODE_WDOG 4 s).node with wdogFrom := t.node.wdogFrom }) ∧
  (∀ s : State, clocked s = true → getB s R.NODE_WDOG F.NODE_WDOG_EN = true → wdogTicks s ≤ (s.time.ltick + 2 ^ 64 - s.node.wdogFrom) % 2 ^ 64 →
      exec .watchdogExpiry s = .next (nodeReset F.NODE_RST_CAUSE_WDOG s)) ∧
  (∀ s : State, (s.time.ltick + 2 ^ 64 - s.node.wdogFrom) % 2 ^ 64 < wdogTicks s → exec .watchdogExpiry s = .next s) ∧
  (∀ s : State, ∃ t, exec .clockLoss s = .next t ∧ clocked t = false ∧ getB t R.NODE_RST_CAUSE F.NODE_RST_CAUSE_CLK = true ∧
        getB t R.NODE_CLK_STAT F.NODE_CLK_STAT_SYS_LOCK = false ∧ getB t R.NODE_CLK_STAT F.NODE_CLK_STAT_SDS_LOCK = false) ∧
  (∀ s : State, s.node.clkHold = true →
      ∃ t, exec .pllLockHeld s = .next t ∧ t.node.clkHold = false ∧ getB t R.NODE_CLK_STAT F.NODE_CLK_STAT_SYS_LOCK = true ∧
        getB t R.NODE_CLK_STAT F.NODE_CLK_STAT_SDS_LOCK = true ∧ RegsBut [R.NODE_CLK_STAT] s t ∧
        t = { s with node := { s.node with clkHold := false }, regs := t.regs }) ∧
  (∀ (f0 f1 f2 f3 : Nat) (s : State), clocked s = true → offBy 4 0 f0 = false → offBy 4 1 f1 = false → offBy 4 2 f2 = false → offBy 4 3 f3 = false →
      (∀ i, i < 4 → 3 ≤ tabGet (fun _ => 0) s.node.good i) →
      ∃ t, exec (.clockMonitorWindow f0 f1 f2 f3) s = .next t ∧ (∀ i, i < 4 → getB t R.NODE_CLK_STAT (clockBad i) = false) ∧
        RegsBut [R.NODE_CLK_STAT] s t ∧ t = { s with regs := t.regs, node := { s.node with good := t.node.good } }) ∧
  (∀ (f0 f1 f2 f3 : Nat) (s : State), clocked s = true → exec (.clockMonitorWindow f0 f1 f2 f3) s = .next (judgeClock 3 f3 (judgeClock 2 f2 (judgeClock 1 f1 (judgeClock 0 f0 s))))) ∧
  (∀ (i f : Nat) (s : State), i < 4 → offBy 5 i f = true →
      ∃ u, judgeClock i f s = latchFault 1 (postOpen 0 0x0001 0 u) ∧ getB u R.NODE_CLK_STAT (clockBad i) = true ∧ RegsBut [R.NODE_CLK_STAT] s u ∧
        u = { s with regs := u.regs, node := { s.node with good := u.node.good } })

/-- Unit reset takes and releases a unit, and a bank's supply fault is flagged on the bank and its 16 pins. A taken write of NODE_URST with HOLD
1 that names a unit of a resettable kind not yet in unit reset puts it in unit reset, and with HOLD 0 one that is in unit reset leaves it;
naming any other block only counts a refused mode transition. The start of a bank's supply mismatch sets BANK_STAT.VFAULT and
PIN_STAT.BANKFLT of its 16 pins and posts notice 0x81, and its end clears them and posts 0x01; with VDDIO 0 or no change nothing happens. A
BANK_CFG write whose VDDIO agrees with the measured level, on a bank in no fault, only writes the register. (spec: 01_five_levels.md,
02_field_pins.md) -/
def Obligations.UnitResetAndSupplyFaults : Prop :=
  (∀ (m : Master) (v : Word) (s : State), Takes s m R.NODE_URST →
      let u := dropOverlap R.NODE_URST 4 s
      let w := setB (plainWrite R.NODE_URST (F.NODE_URST_HOLD.put v 1) u) R.NODE_URST F.NODE_URST_HOLD false
      F.NODE_URST_INST.get v < resettable (F.NODE_URST_CAP.get v) → inUnitReset w (F.NODE_URST_CAP.get v) (F.NODE_URST_INST.get v) = false →
      exec (.unitResetHold m v) s = .next (answer .ok (holdUnit (F.NODE_URST_CAP.get v) (F.NODE_URST_INST.get v) w))) ∧
  (∀ (cap inst : Nat) (s : State), ∃ y, (cap, inst) ∈ y.node.unitReset ∧ (∀ u ∈ s.node.unitReset, u ∈ y.node.unitReset) ∧
      holdUnit cap inst s = reviewTracks ((unitBanks cap inst).foldl (fun x b => refreshBank b x) y)) ∧
  (∀ (m : Master) (v : Word) (s : State), Takes s m R.NODE_URST →
      let u := dropOverlap R.NODE_URST 4 s
      let w := setB (plainWrite R.NODE_URST (F.NODE_URST_HOLD.put v 0) u) R.NODE_URST F.NODE_URST_HOLD false
      F.NODE_URST_INST.get v < resettable (F.NODE_URST_CAP.get v) → inUnitReset w (F.NODE_URST_CAP.get v) (F.NODE_URST_INST.get v) = true →
      ∃ y, (F.NODE_URST_CAP.get v, F.NODE_URST_INST.get v) ∉ y.node.unitReset ∧ y = { w with node := { w.node with unitReset := y.node.unitReset } } ∧
        exec (.unitResetRelease m v) s = .next (answer .ok (reviewTracks ((unitBanks (F.NODE_URST_CAP.get v) (F.NODE_URST_INST.get v)).foldl (fun x b => refreshBank b x) y)))) ∧
  (∀ (m : Master) (v : Word) (s : State), Takes s m R.NODE_URST → resettable (F.NODE_URST_CAP.get v) ≤ F.NODE_URST_INST.get v →
      ∃ t, exec (.unitResetHold m v) s = .next t ∧ t.resp = .ok ∧
        getCtr t (ctr 0x0001 2 0) = (getCtr (dropOverlap R.NODE_URST 4 s) (ctr 0x0001 2 0) + 1) % 2 ^ 48 ∧
        OnlyRegs [R.NODE_URST] (dropOverlap R.NODE_URST 4 s) t) ∧
  (∀ (b : Fin 16) (s : State), supplyFault s b = false → getF s (R.BANK_CFG b) F.BANK_CFG_VDDIO ≠ 0 →
      exec (.supplyFaultStart b) s = .next (bankNotice b 0x81 (setSupplyFault b true s))) ∧
  (∀ (b : Fin 16) (s : State), supplyFault s b = true ∨ getF s (R.BANK_CFG b) F.BANK_CFG_VDDIO = 0 → exec (.supplyFaultStart b) s = .next s) ∧
  (∀ (b : Fin 16) (s : State), supplyMismatch s b = false → supplyFault s b = true →
      exec (.supplyFaultEnd b) s = .next (bankNotice b 0x01 (setSupplyFault b false s))) ∧
  (∀ (m : Master) (b : Fin 16) (v : Word) (s : State), Takes s m (R.BANK_CFG b) →
      F.BANK_CFG_VDDIO.get v ≠ 0 → F.BANK_CFG_VDDIO.get v = getF (dropOverlap (R.BANK_CFG b) 4 s) (R.BANK_STAT b) F.BANK_STAT_VLEVEL →
      ∃ t, exec (.bankCfgWrite m b v) s = .next t ∧ t.resp = .ok ∧ getF t (R.BANK_CFG b) F.BANK_CFG_VDDIO = F.BANK_CFG_VDDIO.get v ∧
        getF t (R.BANK_CFG b) F.BANK_CFG_VD = F.BANK_CFG_VD.get v ∧ OnlyRegs [R.BANK_CFG b] (dropOverlap (R.BANK_CFG b) 4 s) t) ∧
  (∀ (b : Fin 16) (cls : Fin 4) (s : State),
      ∃ y, getF y (R.BANK_STAT b) F.BANK_STAT_VLEVEL = cls ∧ (getBank y b).valid = ((getBank s b).valid || decide (cls.val ≠ 0)) ∧ (getBank y b).strapped = (getBank s b).strapped ∧ (getBank y b).caps = (getBank s b).caps ∧
        RegsBut [R.BANK_STAT b] s y ∧ y = { s with regs := y.regs, field := { s.field with banks := y.field.banks } } ∧
        ((getF s (R.BANK_CFG b) F.BANK_CFG_VDDIO = 0 ∨ getF s (R.BANK_CFG b) F.BANK_CFG_VDDIO = cls) → exec (.vddioClassChange b cls) s = .next y) ∧
        (getF s (R.BANK_CFG b) F.BANK_CFG_VDDIO ≠ 0 → getF s (R.BANK_CFG b) F.BANK_CFG_VDDIO ≠ cls → exec (.vddioClassChange b cls) s = .next (startSupplyFault b y))) ∧
  (∀ (b : Fin 16) (on : Bool) (s : State),
      ∃ y, setSupplyFault b on s = reviewTracks (refreshBank b y) ∧ supplyFault y b = on ∧
        (∀ i, i < 16 → getB y (R.PIN_STAT (16 * b + i)) F.PIN_STAT_BANKFLT = on) ∧
        RegsBut (R.BANK_STAT b :: (List.range 16).map (fun i => R.PIN_STAT (16 * b + i))) s y ∧ y = { s with regs := y.regs })

/-- Pin configuration, output, transitions and capture reads change exactly what the chapter gives them. A PIN_CFG write that asks for a claim
of a taken or unsuitable pin is refused with CLAIM_REFUSED, sets CONFLICT and counts; any other is written and the pin's mapping and levels
follow. PIN_OUT writes VAL, TOGGLE inverts it after VAL is applied, BANK_OUT_SET and _CLR set and clear VAL of the marked pins. A net's
transition is noted as its level, ends at once on an input without debounce, and starts an episode on a debounced one; an accepted episode
shows the new level, a rejected one is counted as a glitch. A read of BANK_CAP_LO returns the oldest record and latches its rest for the
reader, or 0 from an empty FIFO. (spec: 02_field_pins.md) -/
def Obligations.PinsAndCaptureRecords : Prop :=
  (∀ (b : Fin 16) (level : Bool) (s : State),
      ((getBank s b).strapped = true ∨ (getBank s b).valid = false → exec (.strapSample b level) s = .next s) ∧
      ((getBank s b).strapped = false → (getBank s b).valid = true →
        ∃ t, exec (.strapSample b level) s = .next t ∧ getB t (R.BANK_STAT b) F.BANK_STAT_PULL_STRAP = level ∧
          getBank t b = { getBank s b with strapped := true } ∧
          RegsBut [R.BANK_STAT b] s t ∧ t = { s with regs := t.regs, field := { s.field with banks := t.field.banks } })) ∧
  (∀ (m : Master) (p : Fin 256) (v : Word) (s : State), Takes s m (R.PIN_CFG p) →
      let u := dropOverlap (R.PIN_CFG p) 4 s
      F.PIN_CFG_FUNC.get v ≠ pinFunc u p → claimRefused u p (F.PIN_CFG_FUNC.get v) = true →
      ∃ t, exec (.pinCfgWrite m p v) s = .next t ∧ t.resp = .err .claimRefused ∧ getB t (R.PIN_STAT p) F.PIN_STAT_CONFLICT = true ∧
        getCtr t (ctr 0x0002 1 (p / 16)) = (getCtr u (ctr 0x0002 1 (p / 16)) + 1) % 2 ^ 48 ∧ OnlyRegs [R.PIN_STAT p] u t) ∧
  (∀ (m : Master) (p : Fin 256) (v : Word) (s : State), Takes s m (R.PIN_CFG p) →
      let u := dropOverlap (R.PIN_CFG p) 4 s
      (F.PIN_CFG_FUNC.get v = pinFunc u p ∨ claimRefused u p (F.PIN_CFG_FUNC.get v) = false) →
      ∃ y, exec (.pinCfgWrite m p v) s = .next (answer .ok (refreshPin p (showRaw p (holdSafe p (if F.PIN_CFG_FUNC.get v = pinFunc u p then y else newFunc p y))))) ∧
        pinFunc y p = F.PIN_CFG_FUNC.get v ∧ OnlyRegs [R.PIN_CFG p] u y) ∧
  (∀ (p : Fin 256) (level : Bool) (age : Nat) (s : State),
      let y := lineRose p level age (showRaw p (onPin p (fun c => { c with net := level }) s))
      ((getPin s p).net = level → exec (.pinTransition p level age) s = .next s) ∧
      ((getPin s p).net ≠ level → isInput y p = false → exec (.pinTransition p level age) s = .next (encoderGlitch p y)) ∧
      ((getPin s p).net ≠ level → isInput y p = true → getF y (R.PIN_CFG p) F.PIN_CFG_DEB = 0 →
        exec (.pinTransition p level age) s = .next (acceptEdge p (firstTransition y p age) y)) ∧
      ((getPin s p).net ≠ level → isInput y p = true → getF y (R.PIN_CFG p) F.PIN_CFG_DEB ≠ 0 →
        ((getPin y p).episode ≠ none ∨ filteredLevel y p = (getPin y p).own → exec (.pinTransition p level age) s = .next y) ∧
        ((getPin y p).episode = none → filteredLevel y p ≠ (getPin y p).own →
          exec (.pinTransition p level age) s = .next (onPin p (fun c => { c with episode := some (firstTransition y p age) }) y)))) ∧
  (∀ (p : Fin 256) (ep : Episode) (s : State), (getPin s p).episode = some ep → isInput s p = true → filteredLevel s p ≠ (getPin s p).own → followsPartner s = false →
      ∃ y, exec (.edgeAccepted p) s = .next (commitEdge p (filteredLevel s p) ep y) ∧ (getPin y p).episode = none ∧ (getPin y p).own = filteredLevel s p ∧
        getB y (R.PIN_STAT p) F.PIN_STAT_LEVEL = filteredLevel s p ∧ RegsBut [R.PIN_STAT p] s y ∧ y = { s with regs := y.regs, field := y.field }) ∧
  (∀ (p : Fin 256) (ep : Episode) (s : State), (getPin s p).episode = some ep → filteredLevel s p = (getPin s p).own →
      ∃ t, exec (.edgeRejected p) s = .next t ∧ (getPin t p).episode = none ∧ getCtr t (ctr 0x0002 0 p) = (getCtr s (ctr 0x0002 0 p) + 1) % 2 ^ 48 ∧
        getF t (R.PIN_STAT p) F.PIN_STAT_GLITCH = getCtr t (ctr 0x0002 0 p) % 2 ^ F.PIN_STAT_GLITCH.width ∧
        RegsBut [R.PIN_STAT p] s t ∧ t = { s with regs := t.regs, field := t.field, mon := t.mon }) ∧
  (∀ (m : Master) (b : Fin 16) (r : CapRec) (rest : List CapRec) (s : State), Reads s m (R.BANK_CAP_LO b) → (getBank s b).caps = r :: rest →
      ∃ t, exec (.bankCapRead m b) s = .next t ∧ t.resp = .data ((lo32 r.pm).zeroExtend 64) false ∧ (getBank t b).caps = rest ∧
        getLatch t (R.BANK_CAP_LO b) = some { tag := masterId s m, hi := hi32 r.pm, top := (capWords r).2.2, ext := 0 } ∧
        RegsBut [R.BANK_STAT b] s t ∧ t = { s with regs := t.regs, field := t.field, latches := t.latches, resp := t.resp }) ∧
  (∀ (m : Master) (b : Fin 16) (s : State), Reads s m (R.BANK_CAP_LO b) → (getBank s b).caps = [] →
      ∃ t, exec (.bankCapRead m b) s = .next t ∧ t.resp = .data 0 false ∧
        getLatch t (R.BANK_CAP_LO b) = some { tag := masterId s m, hi := 0, top := 0, ext := 0 } ∧ t = { s with latches := t.latches, resp := t.resp }) ∧
  (∀ (m : Master) (p : Fin 256) (v : Word) (s : State), Takes s m (R.PIN_OUT p) → F.PIN_OUT_TOGGLE.get v = 0 →
      ∃ t, exec (.pinOutWrite m p v) s = .next t ∧ t.resp = .ok ∧ getF t (R.PIN_OUT p) F.PIN_OUT_VAL = F.PIN_OUT_VAL.get v ∧
        OnlyRegs [R.PIN_OUT p, R.PIN_STAT p] (dropOverlap (R.PIN_OUT p) 4 s) t) ∧
  (∀ (m : Master) (p : Fin 256) (v : Word) (s : State), Takes s m (R.PIN_OUT p) →
      ∃ t, exec (.pinOutToggle m p v) s = .next t ∧ t.resp = .ok ∧ getF t (R.PIN_OUT p) F.PIN_OUT_VAL = 1 - F.PIN_OUT_VAL.get v ∧
        OnlyRegs [R.PIN_OUT p, R.PIN_STAT p] (dropOverlap (R.PIN_OUT p) 4 s) t) ∧
  (∀ (m : Master) (b : Fin 16) (v : Word) (s : State), Takes s m (R.BANK_OUT_SET b) →
      ∃ t, exec (.bankOutSet m b v) s = .next t ∧ t.resp = .ok ∧
        (∀ i, i < 16 → getB t (R.PIN_OUT (16 * b + i)) F.PIN_OUT_VAL = (v.getLsbD i || getB (dropOverlap (R.BANK_OUT_SET b) 4 s) (R.PIN_OUT (16 * b + i)) F.PIN_OUT_VAL)) ∧
        OnlyRegs ((List.range 16).map (fun i => R.PIN_OUT (16 * b + i)) ++ (List.range 16).map (fun i => R.PIN_STAT (16 * b + i))) (dropOverlap (R.BANK_OUT_SET b) 4 s) t) ∧
  (∀ (m : Master) (b : Fin 16) (v : Word) (s : State), Takes s m (R.BANK_OUT_CLR b) →
      ∃ t, exec (.bankOutClr m b v) s = .next t ∧ t.resp = .ok ∧
        (∀ i, i < 16 → getB t (R.PIN_OUT (16 * b + i)) F.PIN_OUT_VAL = (!v.getLsbD i && getB (dropOverlap (R.BANK_OUT_CLR b) 4 s) (R.PIN_OUT (16 * b + i)) F.PIN_OUT_VAL)) ∧
        OnlyRegs ((List.range 16).map (fun i => R.PIN_OUT (16 * b + i)) ++ (List.range 16).map (fun i => R.PIN_STAT (16 * b + i))) (dropOverlap (R.BANK_OUT_CLR b) 4 s) t) ∧
  (∀ (code : Byte) (s : State),
      ∃ t, exec (.jtagInstruction code) s = .next t ∧ t.node = { s.node with jtag := BitVec.ofNat 6 code.toNat } ∧
        ((code.toNat % 64 = 0 ∨ code.toNat % 64 = 4 ∨ code.toNat % 64 = 5) → ∀ p, padDrive t p = none) ∧
        (∀ p, getB s (R.PIN_STAT p) F.PIN_STAT_EVER_DRV = true → getB t (R.PIN_STAT p) F.PIN_STAT_EVER_DRV = true) ∧
        RegsBut ((List.range 256).map (fun p => R.PIN_STAT p)) s t ∧ t = { s with regs := t.regs, node := { s.node with jtag := t.node.jtag } })

/-- Each Scribe instruction, when its engine executes it, does what its section says. When an engine clock of engine e falls due and the
instruction to execute is l (ClockRuns): the waits complete when their condition holds and stall otherwise, WAIT_FLAG lowers the flag it is
told to clear, WAIT_COUNT counts down; SHIN and SHOUT shift N bits, PULL takes the oldest TX word and PUSH appends to RX, a poisoned word
and a reserved form fault; MOVE, SET, JUMP, MARK and the flag instructions write their destination; a reserved opcode faults with cause 1. A
flag is read as it stood at the start of the UCLK cycle, and the changes of one cycle apply toggles first, then lowerings, then raisings.
finishClock then moves the PC, starts the delay, or shows the stall or the fault. (spec: 03_scribe_engines.md) -/
def Obligations.ScribeInstructionsTakeEffect : Prop :=
  (∀ (e : Fin 64) (s t : State) (l : Latched) (b : Bool), ClockRuns e s t l → isKind 0 0 l.word = true → waitLevelOf t e l.word = some b →
      exec (.waitLevel e) s = .next (finishClock e l (if b = decide (opBits l.word 6 1 = 1) then .done none t else .stall 1 t))) ∧
  (∀ (e : Fin 64) (s t : State) (l : Latched) (b : Bool), ClockRuns e s t l → isKind 0 1 l.word = true → waitLevelOf t e l.word = some b →
      exec (.waitEdge e) s = .next (finishClock e l (if l.edge = some (!decide (opBits l.word 6 1 = 1)) ∧ b = decide (opBits l.word 6 1 = 1) then .done none t
        else .stall 1 (onEng e (fun x => { x with latched := x.latched.map (fun y => { y with edge := some b }) }) t)))) ∧
  (∀ (e : Fin 64) (s t : State) (l : Latched), ClockRuns e s t l → isKind 0 2 l.word = true → opBits l.word 3 2 = 0 →
      (opBits l.word 5 1 = 1 → opBits l.word 6 1 = 1) →
      let f := opBits l.word 0 3
      (scrFlag t (e / 4) f ≠ decide (opBits l.word 6 1 = 1) → exec (.waitFlag e) s = .next (finishClock e l (.stall 1 t))) ∧
      (scrFlag t (e / 4) f = decide (opBits l.word 6 1 = 1) →
        exec (.waitFlag e) s = .next (finishClock e l (.done none (if opBits l.word 5 1 = 1 then changeFlags (e / 4) 0 (2 ^ f) 0 t else t))))) ∧
  (∀ (e : Fin 64) (s t : State) (l : Latched), ClockRuns e s t l → isKind 0 3 l.word = true → opBits l.word 1 4 = 0 → opBits l.word 5 2 = 0 →
      (opBits l.word 0 1 = 0 → exec (.waitCount e) s = .next (finishClock e l (if getReg t (rX e) = 0 then .done none t else .stall 4 (setX e (getReg t (rX e) - 1) t)))) ∧
      (opBits l.word 0 1 = 1 → exec (.waitCount e) s = .next (finishClock e l (if getReg t (rY e) = 0 then .done none t else .stall 4 (setY e (getReg t (rY e) - 1) t))))) ∧
  (∀ (e : Fin 64) (s t : State) (l : Latched), ClockRuns e s t l → opcodeOf l.word = 1 → opBits l.word 6 3 < 6 →
      (opBits l.word 5 1 = 1 → getIsc t e + or32 (opBits l.word 0 5) < or32 (getF t (rShcfg e) F.SCR_SHCFG_IN_LEN)) →
      exec (.shin e) s = .next (finishClock e l (.done none (shiftIn e (or32 (opBits l.word 0 5)) (shinBits t e (opBits l.word 6 3)) t)))) ∧
  (∀ (n N bits : Nat) (s : State), getB s (rShcfg n) F.SCR_SHCFG_IN_FIRST = false →
      getReg (shiftIn n N bits s) (rIsr n) = BitVec.ofNat 32 ((getReg s (rIsr n)).toNat * 2 ^ N + bits % 2 ^ N) ∧
      getIsc (shiftIn n N bits s) n = min (getIsc s n + N) 32 ∧ OnlyRegs [rIsr n, rShc n] s (shiftIn n N bits s)) ∧
  (∀ (e : Fin 64) (s t : State) (l : Latched), ClockRuns e s t l → opcodeOf l.word = 2 → opBits l.word 6 3 ≠ 7 →
      (opBits l.word 5 1 = 1 → getOsc t e < or32 (getF t (rShcfg e) F.SCR_SHCFG_OUT_LEN)) →
      exec (.shout e) s = .next (finishClock e l (shoutTo e (or32 (opBits l.word 0 5)) (opBits l.word 6 3) t))) ∧
  (∀ (e : Fin 64) (s t : State) (l : Latched) (w : Word) (rest : List (Word × Bool)), ClockRuns e s t l → opcodeOf l.word = 3 → opBits l.word 6 2 ≠ 3 → opBits l.word 0 6 = 0 →
      (getEng t e).tx = (w, false) :: rest →
      ∃ y, exec (.pull e) s = .next (finishClock e l (.done none (pullInto e (opBits l.word 6 2) w y))) ∧ (getEng y e).tx = rest ∧ getReg y (rLatch e) = w ∧
        RegsBut [rLatch e] t y ∧ y = { t with regs := y.regs, scribe := y.scribe }) ∧
  (∀ (e : Fin 64) (s t : State) (l : Latched) (w : Word) (rest : List (Word × Bool)), ClockRuns e s t l → opcodeOf l.word = 3 → opBits l.word 6 2 ≠ 3 → opBits l.word 0 6 = 0 →
      (getEng t e).tx = (w, true) :: rest →
      exec (.pull e) s = .next (enterFault e 4 (consumePoison 3 (onEng e (fun x => { x with tx := rest }) t)))) ∧
  (∀ (e : Fin 64) (s t : State) (l : Latched), ClockRuns e s t l → opcodeOf l.word = 4 → opBits l.word 0 6 = 0 → rxRoom t e ≠ 0 →
      (opBits l.word 6 2 = 1 → ∃ y, exec (.push e) s = .next (finishClock e l (.done none y)) ∧ (getEng y e).rx = (getEng t e).rx ++ [getReg t (rX e)] ∧ y = { t with scribe := y.scribe }) ∧
      (opBits l.word 6 2 = 2 → ∃ y, exec (.push e) s = .next (finishClock e l (.done none y)) ∧ (getEng y e).rx = (getEng t e).rx ++ [getReg t (rY e)] ∧ y = { t with scribe := y.scribe }) ∧
      (opBits l.word 6 2 = 0 → ∃ y, exec (.push e) s = .next (finishClock e l (.done none y)) ∧ (getEng y e).rx = (getEng t e).rx ++ [getReg t (rIsr e)] ∧
        getReg y (rIsr e) = 0 ∧ getIsc y e = 0 ∧ RegsBut [rIsr e, rShc e] t y ∧ y = { t with regs := y.regs, scribe := y.scribe, integrity := y.integrity })) ∧
  (∀ (e : Fin 64) (s t : State) (l : Latched), ClockRuns e s t l → opcodeOf l.word = 5 →
      let v := moveOp (opBits l.word 3 3) (moveSrc t e (opBits l.word 0 3))
      (opBits l.word 6 3 = 0 → exec (.scribeMove e) s = .next (finishClock e l (.done none (setX e v t)))) ∧
      (opBits l.word 6 3 = 1 → exec (.scribeMove e) s = .next (finishClock e l (.done none (setY e v t)))) ∧
      (opBits l.word 6 3 = 2 → exec (.scribeMove e) s = .next (finishClock e l (.done none (setIsc e 0 (setIsr e v t))))) ∧
      (opBits l.word 6 3 = 3 → exec (.scribeMove e) s = .next (finishClock e l (.done none (setOsc e 0 (setOsr e v t))))) ∧
      (opBits l.word 6 3 = 4 → exec (.scribeMove e) s = .next (finishClock e l (.done none (writeLanes e false (shMask t e) 32 v.toNat t)))) ∧
      (opBits l.word 6 3 = 5 → exec (.scribeMove e) s = .next (finishClock e l (.done none (writeLanes e true (shMask t e) 32 v.toNat t)))) ∧
      (opBits l.word 6 3 = 6 → exec (.scribeMove e) s = .next (finishClock e l (.done (some (v.toNat % 32)) t))) ∧
      (opBits l.word 6 3 = 7 → exec (.scribeMove e) s = .next (enterFault e 2 t))) ∧
  (∀ (e : Fin 64) (s t : State) (l : Latched), ClockRuns e s t l → opcodeOf l.word = 6 →
      let d := opBits l.word 0 6
      (opBits l.word 6 3 = 0 → exec (.scribeSet e) s = .next (finishClock e l (.done none (setX e (BitVec.ofNat 32 d) t)))) ∧
      (opBits l.word 6 3 = 1 → exec (.scribeSet e) s = .next (finishClock e l (.done none (setY e (BitVec.ofNat 32 d) t)))) ∧
      (opBits l.word 6 3 = 2 → exec (.scribeSet e) s = .next (finishClock e l (.done none (writeLanes e false (setMask t e) 6 d t)))) ∧
      (opBits l.word 6 3 = 3 → exec (.scribeSet e) s = .next (finishClock e l (.done none (writeLanes e true (setMask t e) 6 d t)))) ∧
      (opBits l.word 6 3 = 4 → exec (.scribeSet e) s = .next (finishClock e l (.done none (setIsc e d t)))) ∧
      (opBits l.word 6 3 = 5 → exec (.scribeSet e) s = .next (finishClock e l (.done none (setOsc e d t)))) ∧
      (6 ≤ opBits l.word 6 3 → exec (.scribeSet e) s = .next (enterFault e 2 t))) ∧
  (∀ (e : Fin 64) (s t : State) (l : Latched), ClockRuns e s t l → opcodeOf l.word = 7 → opBits l.word 5 1 = 0 →
      let go := fun (b : Bool) (x : State) => finishClock e l (.done (if b then some (opBits l.word 0 5) else none) x)
      (opBits l.word 6 3 = 0 → exec (.jump e) s = .next (go true t)) ∧
      (opBits l.word 6 3 = 1 → exec (.jump e) s = .next (go (decide (getReg t (rX e) - 1 ≠ 0)) (setX e (getReg t (rX e) - 1) t))) ∧
      (opBits l.word 6 3 = 2 → exec (.jump e) s = .next (go (decide (getReg t (rY e) - 1 ≠ 0)) (setY e (getReg t (rY e) - 1) t))) ∧
      (opBits l.word 6 3 = 3 → exec (.jump e) s = .next (go (decide (getReg t (rX e) = getReg t (rY e))) t)) ∧
      (opBits l.word 6 3 = 4 → exec (.jump e) s = .next (go (inLane t e (getF t (R.SCR_PINS (e / 4) (e % 4)) F.SCR_PINS_JLANE)) t)) ∧
      (opBits l.word 6 3 = 5 → exec (.jump e) s = .next (go (!inLane t e (getF t (R.SCR_PINS (e / 4) (e % 4)) F.SCR_PINS_JLANE)) t)) ∧
      (opBits l.word 6 3 = 6 → exec (.jump e) s = .next (go (decide ((getEng t e).tx = [])) t)) ∧
      (opBits l.word 6 3 = 7 → exec (.jump e) s = .next (go (decide (or32 (getF t (rShcfg e) F.SCR_SHCFG_OUT_LEN) ≤ getOsc t e)) t))) ∧
  (∀ (e : Fin 64) (s t : State) (l : Latched), ClockRuns e s t l → opcodeOf l.word = 8 → opBits l.word 0 6 = 0 → opBits l.word 7 2 = 0 →
      ∃ y, exec (.mark e) s = .next (finishClock e l (.done none y)) ∧ getReg y (R.SCR_MARK_LO (e / 4) (e % 4)) = lo32 (markPm t e) ∧
        getReg y (R.SCR_MARK_HI (e / 4) (e % 4)) = hi32 (markPm t e) ∧
        RegsBut [R.SCR_MARK_LO (e / 4) (e % 4), R.SCR_MARK_HI (e / 4) (e % 4)] t y ∧ y = { t with regs := y.regs }) ∧
  (∀ (e : Fin 64) (s t : State) (l : Latched), ClockRuns e s t l → opBits l.word 3 4 = 0 →
      let f := opBits l.word 0 3
      (isKind 9 0 l.word = true → exec (.flagRaise e) s = .next (finishClock e l (.done none (changeFlags (e / 4) 0 0 (2 ^ f) t)))) ∧
      (isKind 9 1 l.word = true → exec (.flagLower e) s = .next (finishClock e l (.done none (changeFlags (e / 4) 0 (2 ^ f) 0 t)))) ∧
      (isKind 9 2 l.word = true → exec (.flagToggle e) s = .next (finishClock e l (.done none (changeFlags (e / 4) (2 ^ f) 0 0 t)))) ∧
      (isKind 9 3 l.word = true → exec (.flagNotice e) s = .next (finishClock e l (.done none (post (getF t (R.SCR_CCTL (e / 4)) F.SCR_CCTL_NTC_Q) 0x0003 e 0x41 f t))))) ∧
  (∀ (e : Fin 64) (s t : State) (l : Latched), ClockRuns e s t l → 10 ≤ opcodeOf l.word → exec (.illegal e) s = .next (enterFault e 1 t)) ∧
  (∀ (k tog low up : Nat) (s : State), let t := changeFlags k tog low up s; let g := flagCycle s k
      flagsSeen t k = flagsSeen s k ∧
      (∀ f, f < 8 → (getReg t (R.SCR_FLAGS k)).getLsbD f =
        (((bitOf g.start f ^^ (bitOf g.toggled f ^^ bitOf tog f)) && !(bitOf g.lowered f || bitOf low f)) || (bitOf g.raised f || bitOf up f))) ∧
      RegsBut [R.SCR_FLAGS k] s t ∧ t = { s with regs := t.regs, scribe := { s.scribe with flags := t.scribe.flags } }) ∧
  (∀ (n : Nat) (v : Word) (s : State),
      (∃ y, getReg y (rX n) = v ∧ OnlyRegs [rX n] s y ∧
        setX n v s = if getReg s (rX n) = v then y else feedTracks 5 n (v - getReg s (rX n)).toInt (now64 s) y) ∧
      (getReg (setY n v s) (rY n) = v ∧ OnlyRegs [rY n] s (setY n v s)) ∧
      (getReg (setIsr n v s) (rIsr n) = v ∧ OnlyRegs [rIsr n] s (setIsr n v s)) ∧
      (getReg (setOsr n v s) (rOsr n) = v ∧ OnlyRegs [rOsr n] s (setOsr n v s)))

/-- A completed Scribe instruction moves the PC and starts its delay; a stalled one is tried again; a fault stops the engine. Completing
instruction l writes the next PC, shows RUN without a stall and starts the DELAY the word asks for, at whose end (at once for DELAY 0) the
engine is at a boundary; a stall shows STALL and what it waits for; a fault shows FAULT with its cause and clears EN, the pending injection
and both DMA modes. A stalled instruction without an injected word is tried again as it is; the end of a delay brings the boundary. (spec:
03_scribe_engines.md) -/
def Obligations.ScribeEnginesAdvance : Prop :=
  (∀ (n : Nat) (l : Latched) (pc : Option Nat) (s : State), ∃ y,
      finishClock n l (.done pc s) = (if opBits l.word 9 3 = 0 then atBoundary n (reviewEngineTracks n y) else reviewEngineTracks n y) ∧
      getReg y (rPc n) = BitVec.ofNat 32 (nextPc l pc) ∧ engState y n = 1 ∧ getF y (rEstat n) F.SCR_ESTAT_STALL_ON = 0 ∧
      (getEng y n).latched = (getEng s n).latched.map (fun x => { x with delay := some (opBits l.word 9 3) }) ∧
      RegsBut [rPc n, rEstat n] s y ∧ y = { s with regs := y.regs, scribe := { s.scribe with engines := y.scribe.engines } }) ∧
  (∀ (n on : Nat) (l : Latched) (s : State), on < 8 → ∃ y, finishClock n l (.stall on s) = reviewEngineTracks n y ∧ engState y n = 2 ∧
      getF y (rEstat n) F.SCR_ESTAT_STALL_ON = on ∧ RegsBut [rEstat n] s y ∧ y = { s with regs := y.regs }) ∧
  (∀ (n cause : Nat) (s : State), cause < 8 → ∃ y, enterFault n cause s = reviewEngineTracks n (scrNotice n 0xC1 cause (releaseOwned n (settleDma (n / 4) y))) ∧
      engState y n = 3 ∧ getF y (rEstat n) F.SCR_ESTAT_FCAUSE = cause ∧ getB y (rEstat n) F.SCR_ESTAT_INJ_PEND = false ∧ getB y (rScrCtl n) F.SCR_CTL_EN = false ∧
      getF y (rDmaTx n) F.SCR_DMA_TX_MODE = 0 ∧ getF y (rDmaRx n) F.SCR_DMA_RX_MODE = 0 ∧
      getEng y n = { getEng s n with inj := none, stepping := false, txOut := none, rxOut := none } ∧
      RegsBut [rEstat n, rScrCtl n, rDmaTx n, rDmaRx n] s y ∧ y = { s with regs := y.regs, scribe := { s.scribe with engines := y.scribe.engines } }) ∧
  (∀ (e : Fin 64) (s t : State) (l : Latched), (getEng s e).latched = some l → l.delay = none → (getEng s e).inj = none → ClockRuns e s t l →
      exec (.stallComplete e) s = .next (finishClock e l (clockAny e l t))) ∧
  (∀ (e : Fin 64) (s : State) (l : Latched) (d : Nat), (getEng s e).latched = some l → l.delay = some d →
      (running s e = true → 0 < d → (getEng s e).lastMark + d ≤ marksNow s e →
        exec (.delayExpiry e) s = .next (atBoundary e (onEng e (fun x => { x with latched := some { l with delay := some 0 }, lastMark := x.lastMark + d }) s))) ∧
      ((running s e = false ∨ d = 0 ∨ marksNow s e < (getEng s e).lastMark + d) → exec (.delayExpiry e) s = .next s))

/-- Enabling, disabling, stepping, restarting and clearing an engine change its control and state as R84 to R90 say. For taken writes on an
engine that is not in FAULT: enabling a disabled engine sets EN and shows RUN; disabling a running one clears EN and shows IDLE; STEP on an
idle disabled one shows RUN until the boundary; RESTART puts the PC at the entry and empties the latch and the shift registers. CLRF on a
faulted engine whose store has no parity mark clears the cause and shows IDLE. Each then reviews the tracks the engine feeds. (spec:
03_scribe_engines.md) -/
def Obligations.ScribeEngineControl : Prop :=
  (∀ (m : Master) (e : Fin 64) (v : Word) (s : State), Takes s m (rScrCtl e) →
      let u := countPart (rScrCtl e) (F.SCR_CTL_EN.put v 1) (dropOverlap (rScrCtl e) 4 s)
      engState u e ≠ 3 → F.SCR_CTL_RESTART.get v = 0 → engEnabled u e = false →
      ∃ y, exec (.engineEnable m e v) s = .next (answer .ok (reviewEngineTracks e y)) ∧ engEnabled y e = true ∧ engState y e = 1 ∧
        (getEng y e).stepping = false ∧ (getEng y e).latched = (getEng u e).latched ∧ RegsBut [rScrCtl e, rEstat e] u y ∧ y = { u with regs := y.regs, scribe := { u.scribe with engines := y.scribe.engines } }) ∧
  (∀ (m : Master) (e : Fin 64) (v : Word) (s : State), Takes s m (rScrCtl e) →
      let u := countPart (rScrCtl e) (F.SCR_CTL_EN.put v 0) (dropOverlap (rScrCtl e) 4 s)
      running u e = true → (getEng u e).stepping = false → F.SCR_CTL_RESTART.get v = 0 → F.SCR_CTL_STEP.get v = 0 → engEnabled u e = true →
      ∃ y, exec (.engineDisable m e v) s = .next (answer .ok (reviewEngineTracks e y)) ∧ engEnabled y e = false ∧ engState y e = 0 ∧
        (getEng y e).latched = (getEng u e).latched.map (fun l => { l with delay := l.delay.map (fun d => d - (marksNow u e - (getEng u e).lastMark)) }) ∧
        RegsBut [rScrCtl e, rEstat e] u y ∧ y = { u with regs := y.regs, scribe := { u.scribe with engines := y.scribe.engines } }) ∧
  (∀ (m : Master) (e : Fin 64) (v : Word) (s : State), Takes s m (rScrCtl e) →
      let u := countPart (rScrCtl e) (F.SCR_CTL_EN.put (F.SCR_CTL_STEP.put v 1) 0) (dropOverlap (rScrCtl e) 4 s)
      engState u e = 0 → engEnabled u e = false → F.SCR_CTL_RESTART.get v = 0 →
      ∃ y, exec (.engineStep m e v) s = .next (answer .ok (reviewEngineTracks e y)) ∧ engState y e = 1 ∧ (getEng y e).stepping = true ∧ engEnabled y e = false ∧
        RegsBut [rEstat e] u y ∧ y = { u with regs := y.regs, scribe := { u.scribe with engines := y.scribe.engines } }) ∧
  (∀ (m : Master) (e : Fin 64) (v : Word) (s : State), Takes s m (rScrCtl e) →
      let u := countPart (rScrCtl e) (F.SCR_CTL_RESTART.put v 1) (dropOverlap (rScrCtl e) 4 s)
      engState u e = 0 → engEnabled u e = false → F.SCR_CTL_EN.get v = 0 → F.SCR_CTL_STEP.get v = 0 →
      ∃ t, exec (.restart m e v) s = .next t ∧ t.resp = .ok ∧ getReg t (rPc e) = BitVec.ofNat 32 (getF u (R.SCR_EXEC (e / 4) (e % 4)) F.SCR_EXEC_ENTRY) ∧
        getReg t (rIsr e) = 0 ∧ getIsc t e = 0 ∧ getReg t (rOsr e) = 0 ∧ getOsc t e = 32 ∧ (getEng t e).latched = none ∧
        RegsBut [rPc e, rIsr e, rOsr e, rShc e, rEstat e] u t ∧ t = { u with regs := t.regs, scribe := { u.scribe with engines := t.scribe.engines }, integrity := { u.integrity with badWords := t.integrity.badWords }, resp := t.resp }) ∧
  (∀ (m : Master) (e : Fin 64) (v : Word) (s : State), Takes s m (rScrCtl e) →
      let u := countPart (rScrCtl e) (F.SCR_CTL_CLRF.put v 1) (dropOverlap (rScrCtl e) 4 s)
      engState u e = 3 → getB u (R.SCR_CSTAT (e / 4)) F.SCR_CSTAT_PARITY = false → F.SCR_CTL_EN.get v = 0 →
      ∃ y, exec (.clrf m e v) s = .next (answer .ok (reviewEngineTracks e y)) ∧ engState y e = 0 ∧ getF y (rEstat e) F.SCR_ESTAT_FCAUSE = 0 ∧
        (getEng y e).latched = none ∧ RegsBut [rEstat e] u y ∧ y = { u with regs := y.regs, scribe := { u.scribe with engines := y.scribe.engines } }) ∧
  (∀ (m : Master) (k : Fin 16) (v : Word) (s : State), Takes s m (R.SCR_CSYNC k) →
      let u := countPart (R.SCR_CSYNC k) (F.SCR_CSYNC_STOP.put v 0) (dropOverlap (R.SCR_CSYNC k) 4 s)
      exec (.csyncStart m k v) s = .next (answer .ok ((List.range 4).foldl (fun x i =>
        if v.getLsbD i = true ∧ engState x (4 * k + i) ≠ 3 then
          newOrigin (4 * k + i) (clkNum x (4 * k + i)) (clkDen x (4 * k + i)) (enableEngine (4 * k + i) x) else x) u))) ∧
  (∀ (m : Master) (k : Fin 16) (v : Word) (s : State), Takes s m (R.SCR_CSYNC k) →
      let u := countPart (R.SCR_CSYNC k) (F.SCR_CSYNC_START.put v 0) (dropOverlap (R.SCR_CSYNC k) 4 s)
      exec (.csyncStop m k v) s = .next (answer .ok ((List.range 4).foldl (fun x i =>
        if v.getLsbD (4 + i) = true then disableEngine (4 * k + i) x else x) u))) ∧
  (∀ (m : Master) (e : Fin 64) (v : Word) (s : State), Takes s m (R.SCR_CLKDIV (e / 4) (e % 4)) →
      let u := dropOverlap (R.SCR_CLKDIV (e / 4) (e % 4)) 4 s
      ∃ t before, exec (.clkdivWrite m e v) s = .next t ∧ t.resp = .ok ∧
        getF t (R.SCR_CLKDIV (e / 4) (e % 4)) F.SCR_CLKDIV_NUM = F.SCR_CLKDIV_NUM.get v ∧ getF t (R.SCR_CLKDIV (e / 4) (e % 4)) F.SCR_CLKDIV_DEN = F.SCR_CLKDIV_DEN.get v ∧
        (getEng t e).clocks.head? = some (divSetting (uclkEdges u.time.ltick + 2) (F.SCR_CLKDIV_NUM.get v) (F.SCR_CLKDIV_DEN.get v) before) ∧
        OnlyRegs [R.SCR_CLKDIV (e / 4) (e % 4)] u { t with scribe := u.scribe })

/-- The Scribe's injection, store, FIFO, flag, state and DMA accesses do what their registers say. INJECT puts a word where the engine takes it
next, or sets INJREF; a store write replaces the 16-bit word or words it covers; TXF appends while there is room and DMA does not own the
FIFO, and is dropped and counted otherwise; RXF gives the oldest word or sets RX_EMPTY; FLAGS clears and sets flags; a state register write
is taken while EN is 0 and sets CFGREF while it is 1; a DMA channel that would pass the image's end sets CFGREF. A refill starts a read of
the words it has room for and asks for the interconnect; when the cluster's requester holds the interconnect and the record is the cluster's
next, its return appends them, skips them without room, or is refused as a whole by the image's table; a block leaves RX for a record; and
the commit writes the record into the input image, and no byte outside it, or is refused as a whole. (spec: 03_scribe_engines.md) -/
def Obligations.ScribeRegistersAndDma : Prop :=
  (∀ (m : Master) (e : Fin 64) (v : Word) (s : State), Takes s m (R.SCR_INJ (e / 4) (e % 4)) →
      let u := countPart (R.SCR_INJ (e / 4) (e % 4)) v (dropOverlap (R.SCR_INJ (e / 4) (e % 4)) 4 s)
      (engState u e ≠ 3 → (getEng u e).inj = none →
        ∃ t, exec (.inject m e v) s = .next t ∧ t.resp = .ok ∧ (getEng t e).inj = some (v.truncate 16) ∧ getB t (rEstat e) F.SCR_ESTAT_INJ_PEND = true ∧
          RegsBut [rEstat e] u t ∧ t = { u with regs := t.regs, scribe := t.scribe, resp := t.resp }) ∧
      (engState u e = 3 ∨ (getEng u e).inj.isSome = true →
        ∃ t, exec (.inject m e v) s = .next t ∧ t.resp = .ok ∧ getB t (rEstat e) F.SCR_ESTAT_INJREF = true ∧
          RegsBut [rEstat e] u t ∧ t = { u with regs := t.regs, resp := t.resp })) ∧
  (∀ (m : Master) (k : Fin 16) (off width : Nat) (v : Word) (s : State), let a := 0x30400 + 0x1000 * k.val + off % 64
      clocked s = true → lockedOut s m a = false → (width = 2 ∨ width = 4) →
      refusal s { m := m, a := a, width := width, write := true, lock := false } = none →
      ∃ t, exec (.programStoreWrite m k off width v) s = .next t ∧ t.resp = .ok ∧ storeWord t k (off % 64 / 2) = v.truncate 16 ∧
        (width = 4 → off % 4 = 0 → storeWord t k (off % 64 / 2 + 1) = (v >>> 16).truncate 16) ∧
        (∀ k' i, k' < 16 → i < 32 → (k' ≠ k ∨ (i ≠ off % 64 / 2 ∧ (width = 4 → i ≠ (off % 64 / 2 + 1) % 32))) → storeWord t k' i = storeWord (dropOverlap a width s) k' i) ∧
        t = { dropOverlap a width s with scribe := { (dropOverlap a width s).scribe with store := t.scribe.store }, resp := t.resp }) ∧
  (∀ (m : Master) (e : Fin 64) (v : Word) (s : State), Takes s m (R.SCR_TXF (e / 4) (e % 4)) →
      let u := dropOverlap (R.SCR_TXF (e / 4) (e % 4)) 4 s
      let own := getF u (rDmaTx e) F.SCR_DMA_TX_MODE
      ((getEng u e).tx.length < txCap u e → own ≠ 1 → own ≠ 2 →
        ∃ t, exec (.scrTxfWrite m e v) s = .next t ∧ t.resp = .ok ∧ (getEng t e).tx = (getEng u e).tx ++ [(v, false)] ∧ t = { u with scribe := t.scribe, resp := t.resp }) ∧
      (txCap u e ≤ (getEng u e).tx.length ∨ own = 1 ∨ own = 2 →
        ∃ t, exec (.scrTxfWrite m e v) s = .next t ∧ t.resp = .ok ∧ getB t (rFstat e) F.SCR_FSTAT_TX_DROP = true ∧
          getCtr t (ctr 0x0003 2 e) = (getCtr u (ctr 0x0003 2 e) + 1) % 2 ^ 48 ∧ OnlyRegs [rFstat e] u t)) ∧
  (∀ (m : Master) (e : Fin 64) (bad : Bool) (w : Word) (rest : List Word) (s : State), Reads s m (R.SCR_RXF (e / 4) (e % 4)) → getF s (rDmaRx e) F.SCR_DMA_RX_MODE ≠ 1 →
      ((getEng s e).rx = w :: rest → bad = false →
        ∃ t, exec (.scrRxfRead m e bad) s = .next t ∧ t.resp = .data (w.zeroExtend 64) false ∧ (getEng t e).rx = rest ∧ t = { s with scribe := t.scribe, resp := t.resp }) ∧
      ((getEng s e).rx = [] →
        ∃ t, exec (.scrRxfRead m e bad) s = .next t ∧ t.resp = .data 0 false ∧ getB t (rFstat e) F.SCR_FSTAT_RX_EMPTY = true ∧ OnlyRegs [rFstat e] s t)) ∧
  (∀ (m : Master) (k : Fin 16) (v : Word) (s : State), Takes s m (R.SCR_FLAGS k) →
      exec (.flagsClear m k v) s = .next (answer .ok (changeFlags k 0 (F.SCR_FLAGS_FLAG.get v) 0 (countPart (R.SCR_FLAGS k) (F.SCR_FLAGS_SET.put v 0) (dropOverlap (R.SCR_FLAGS k) 4 s))))) ∧
  (∀ (m : Master) (k : Fin 16) (v : Word) (s : State), Takes s m (R.SCR_FLAGS k) →
      exec (.flagsSet m k v) s = .next (answer .ok (changeFlags k 0 0 (F.SCR_FLAGS_SET.get v) (countPart (R.SCR_FLAGS k) (F.SCR_FLAGS_FLAG.put v 0) (dropOverlap (R.SCR_FLAGS k) 4 s))))) ∧
  (∀ (m : Master) (e : Fin 64) (r : EngineReg) (v : Word) (s : State), Takes s m (engineRegAddr e r) →
      let u := dropOverlap (engineRegAddr e r) 4 s
      (engEnabled u e = true → ∃ t, exec (.engineStateWrite m e r v) s = .next t ∧ t.resp = .ok ∧ getB t (rEstat e) F.SCR_ESTAT_CFGREF = true ∧ OnlyRegs [rEstat e] u t) ∧
      (engEnabled u e = false → r ∈ [EngineReg.y, .isr, .osr, .pins, .olaneLo, .olaneHi, .ilaneLo, .ilaneHi] →
        ∃ t, exec (.engineStateWrite m e r v) s = .next t ∧ t.resp = .ok ∧ getReg t (engineRegAddr e r) = getReg (plainWrite (engineRegAddr e r) v u) (engineRegAddr e r) ∧ OnlyRegs [engineRegAddr e r] u t) ∧
      (engEnabled u e = false → r = .x → exec (.engineStateWrite m e r v) s = .next (answer .ok (setX e v u))) ∧
      (engEnabled u e = false → r = .shcfg → exec (.engineStateWrite m e r v) s = .next (answer .ok
        (if F.SCR_SHCFG_FIFO_MODE.get v = getF u (rShcfg e) F.SCR_SHCFG_FIFO_MODE then plainWrite (rShcfg e) v u else emptyFifos e (plainWrite (rShcfg e) v u)))) ∧
      (engEnabled u e = false → r = .shc → ∃ t, exec (.engineStateWrite m e r v) s = .next t ∧ getIsc t e = min (F.SCR_SHC_ISC.get v) 32 ∧ getOsc t e = min (F.SCR_SHC_OSC.get v) 32 ∧ OnlyRegs [rShc e] u t)) ∧
  (∀ (m : Master) (e : Fin 64) (v : Word) (s : State), Takes s m (rPc e) → engEnabled (dropOverlap (rPc e) 4 s) e = false → engState (dropOverlap (rPc e) 4 s) e = 0 →
      ∃ t, exec (.pcWrite m e v) s = .next t ∧ t.resp = .ok ∧ getF t (rPc e) F.SCR_PC_VAL = F.SCR_PC_VAL.get v ∧ (getEng t e).latched = none ∧
        OnlyRegs [rPc e, rEstat e] (dropOverlap (rPc e) 4 s) { t with scribe := (dropOverlap (rPc e) 4 s).scribe }) ∧
  (∀ (m : Master) (e : Fin 64) (rx : Bool) (v : Word) (s : State), Takes s m (if rx then rDmaRx e else rDmaTx e) →
      let a := if rx then rDmaRx e else rDmaTx e
      let len := 4 * F.SCR_DMA_TX_WOFF.get v + 4 * (F.SCR_DMA_TX_CNT.get v + 1)
      (len ≤ 0x8000 → ∃ t, exec (.dmaChannelWrite m e rx v) s = .next t ∧ t.resp = .ok ∧ getF t a F.SCR_DMA_TX_WOFF = F.SCR_DMA_TX_WOFF.get v ∧
        getF t a F.SCR_DMA_TX_CNT = F.SCR_DMA_TX_CNT.get v ∧ OnlyRegs [a] (dropOverlap a 4 s) t) ∧
      (0x8000 < len → ∃ t, exec (.dmaChannelWrite m e rx v) s = .next t ∧ t.resp = .ok ∧ getB t (rEstat e) F.SCR_ESTAT_CFGREF = true ∧ OnlyRegs [rEstat e] (dropOverlap a 4 s) t)) ∧
  (∀ (e : Fin 64) (s : State), getF s (rDmaTx e) F.SCR_DMA_TX_MODE = 2 → underTest s (0x40 + e / 4) = false → (getEng s e).txOut = none →
      getF s (rDmaTx e) F.SCR_DMA_TX_CNT + 1 + (getEng s e).tx.length ≤ txCap s e →
      ∃ t, exec (.dmaTxRefill e) s = .next t ∧ (getEng t e).txOut = some (getF s (rDmaTx e) F.SCR_DMA_TX_WOFF, getF s (rDmaTx e) F.SCR_DMA_TX_CNT + 1) ∧
        (4 + e.val / 4 ∈ t.arb.pendingReq ∨ t.arb.holder = some (4 + e.val / 4)) ∧ t = { s with regs := t.regs, scribe := { s.scribe with engines := t.scribe.engines }, arb := { s.arb with pendingReq := t.arb.pendingReq }, notices := { s.notices with uncommitted := t.notices.uncommitted } }) ∧
  (∀ (e : Fin 64) (ok : Bool) (woff cnt : Nat) (s : State), (getEng s e).txOut = some (woff, cnt) → recordNext s e = true → holds (acquire (4 + e / 4) s) (4 + e / 4) = true →
      let u := settleDma (e / 4) (endRequest (4 + e / 4) (onEng e (fun x => { x with txOut := none }) (acquire (4 + e / 4) s)))
      (∀ x, recordRefused u outImage woff cnt false = some x → exec (.dmaTxReturn e ok) s = .next (txSkip e (recordDenial x u))) ∧
      (recordRefused u outImage woff cnt false = none → (ok = false ∨ txCap u e < (getEng u e).tx.length + cnt) → exec (.dmaTxReturn e ok) s = .next (txSkip e u)) ∧
      (recordRefused u outImage woff cnt false = none → ok = true → (getEng u e).tx.length + cnt ≤ txCap u e →
        ∃ t, exec (.dmaTxReturn e ok) s = .next t ∧
          (getEng t e).tx = (getEng u e).tx ++ (List.range cnt).map (fun i => (getMem32 u (outImage + 4 * (woff + i)), poisoned u (outImage + 4 * (woff + i)))) ∧
          t = { u with regs := t.regs, scribe := { u.scribe with engines := t.scribe.engines } })) ∧
  (∀ (e : Fin 64) (s : State), let cnt := getF s (rDmaRx e) F.SCR_DMA_RX_CNT + 1
      getF s (rDmaRx e) F.SCR_DMA_RX_MODE = 1 → underTest s (0x40 + e / 4) = false → (getEng s e).rxOut = none → cnt ≤ (getEng s e).rx.length →
      ∃ t, exec (.dmaRxBlock e 0) s = .next t ∧ (getEng t e).rx = (getEng s e).rx.drop cnt ∧
        (getEng t e).rxOut = some (getF s (rDmaRx e) F.SCR_DMA_RX_WOFF, ((getEng s e).rx.take cnt).map (fun w => (w, false))) ∧
        (∀ k ∈ clusterSources e, k ∈ t.notices.uncommitted) ∧ (4 + e.val / 4 ∈ t.arb.pendingReq ∨ t.arb.holder = some (4 + e.val / 4)) ∧
        t = { s with regs := t.regs, scribe := { s.scribe with engines := t.scribe.engines }, arb := { s.arb with pendingReq := t.arb.pendingReq }, notices := { s.notices with uncommitted := t.notices.uncommitted } }) ∧
  (∀ (e : Fin 64) (woff : Nat) (words : List (Word × Bool)) (s : State), (getEng s e).rxOut = some (woff, words) → recordNext s e = true → holds (acquire (4 + e / 4) s) (4 + e / 4) = true →
      let u := settleDma (e / 4) (endRequest (4 + e / 4) (onEng e (fun x => { x with rxOut := none }) (acquire (4 + e / 4) s)))
      (∀ x, recordRefused u inImage woff words.length true = some x → exec (.dmaRecordCommit e) s = .next (recordDenial x u)) ∧
      (recordRefused u inImage woff words.length true = none → exec (.dmaRecordCommit e) s = .next (bump (ctr 0x0003 4 e) (commitRecord woff words u)))) ∧
  (∀ (woff : Nat) (words : List (Word × Bool)) (a : Nat) (s : State), woff + words.length ≤ 0x2000 →
      (∀ i, i < 4 * words.length → a ≠ writePlace (inImage + 4 * woff + i)) →
      getByte (commitRecord woff words s) a = getByte s a)

/-- INIT, integration, errors and bus-off of a message-bus controller. A taken MB_CTL write that clears INIT, with the pins, the timing and MODE
in order, writes MB_CTL, shows the pins' half in ALT and lets pins 8 and 9 of the bank speak again; otherwise it only sets CFGREF. A write
that sets INIT outside a frame takes the controller off the bus at once, and during a frame at its end. BUS_INTEGRATED makes it error
active, BUS_OFF_RECOVERY clears the error counters and makes it error active, a bus error shows LEC, counts and raises the error counters, a
lost arbitration makes the frame pending again, and a protocol exception takes the controller out of the frame until it rejoins. A change of
STATE writes MB_STAT, posts a notice and reviews the tracks of the controller. (spec: 04_message_buses.md) -/
def Obligations.MessageBusControllersStartAndStop : Prop :=
  (∀ (m : Master) (c : Fin 8) (v : Word) (b : Nat) (s : State), Takes s m (R.MB_CTL c) →
      let u := dropOverlap (R.MB_CTL c) 4 s
      mbInit u c = true → mbBank u c = some b → mbTimingOk u c = true → F.MB_CTL_MODE.get v < 5 →
      ∃ t, exec (.mbInitClear m c v) s = .next t ∧ t.resp = .ok ∧ mbInit t c = false ∧ mbMode t c = F.MB_CTL_MODE.get v ∧
        getB t (R.MB_STAT c) F.MB_STAT_ALT = decide (b % 2 = 1) ∧
        (∀ p, getPin t p = if p = 16 * b + 8 ∨ p = 16 * b + 9 then { getPin u p with quiet := false } else getPin u p) ∧
        RegsBut [R.MB_CTL c, R.MB_STAT c, R.PIN_STAT (16 * b + 8), R.PIN_STAT (16 * b + 9)] u t ∧ t = { u with regs := t.regs, mon := { u.mon with counters := t.mon.counters }, integrity := { u.integrity with badWords := t.integrity.badWords }, field := { u.field with pins := t.field.pins }, resp := t.resp }) ∧
  (∀ (m : Master) (c : Fin 8) (v : Word) (s : State), Takes s m (R.MB_CTL c) →
      let u := dropOverlap (R.MB_CTL c) 4 s
      mbInit u c = true → mbBank u c = none ∨ mbTimingOk u c = false ∨ 5 ≤ F.MB_CTL_MODE.get v →
      ∃ t, exec (.mbInitClear m c v) s = .next t ∧ t.resp = .ok ∧ getB t (R.MB_ESTAT c) F.MB_ESTAT_CFGREF = true ∧ OnlyRegs [R.MB_ESTAT c] u t) ∧
  (∀ (m : Master) (c : Fin 8) (v : Word) (s : State), Takes s m (R.MB_CTL c) →
      let u := dropOverlap (R.MB_CTL c) 4 s
      mbInit u c = false → F.MB_CTL_MODE.get v = mbMode u c → (getMb u c).tx = none →
      ∃ y, exec (.mbInitSet m c v false) s = .next (answer .ok (setMbState c 0 y)) ∧ mbInit y c = true ∧
        getMb y c = { getMb u c with initAtEnd := false, away := false, tx := none } ∧ (∀ k, k ≠ c.val → getMb y k = getMb u k) ∧
        RegsBut [R.MB_CTL c] u y ∧ y = { u with regs := y.regs, mon := { u.mon with counters := y.mon.counters }, integrity := { u.integrity with badWords := y.integrity.badWords }, buses := { u.buses with mbs := y.buses.mbs } }) ∧
  (∀ (m : Master) (c : Fin 8) (v : Word) (s : State), Takes s m (R.MB_CTL c) →
      let u := dropOverlap (R.MB_CTL c) 4 s
      mbInit u c = false → F.MB_CTL_MODE.get v = mbMode u c →
      ∃ t, exec (.mbInitSet m c v true) s = .next t ∧ t.resp = .ok ∧ mbInit t c = false ∧
        getMb t c = { getMb u c with initAtEnd := true } ∧ (∀ k, k ≠ c.val → getMb t k = getMb u k) ∧ RegsBut [R.MB_CTL c] u t ∧ t = { u with regs := t.regs, mon := { u.mon with counters := t.mon.counters }, integrity := { u.integrity with badWords := t.integrity.badWords }, buses := { u.buses with mbs := t.buses.mbs }, resp := t.resp }) ∧
  (∀ (c st : Nat) (s : State), st < 4 → mbState s c ≠ st →
      ∃ y, setMbState c st s = reviewBus c (mbNotice c y) ∧ mbState y c = st ∧ RegsBut [R.MB_STAT c] s y ∧ y = { s with regs := y.regs, mon := { s.mon with counters := y.mon.counters }, integrity := { s.integrity with badWords := y.integrity.badWords } }) ∧
  (∀ (c : Fin 8) (s : State), mbInit s c = false → mbState s c = 0 → inUnitReset s 0x0004 c = false →
      exec (.busIntegrated c) s = .next (reviewMb c (setMbState c 1 s))) ∧
  (∀ (c : Fin 8) (s : State), mbInit s c = false → mbState s c = 3 →
      ∃ y, exec (.busOffRecovery c) s = .next (reviewBus c (mbNotice c y)) ∧ mbState y c = 1 ∧
        getF y (R.MB_STAT c) F.MB_STAT_TEC = 0 ∧ getF y (R.MB_STAT c) F.MB_STAT_REC = 0 ∧
        getMb y c = { getMb s c with tecFull := 0, recFull := 0 } ∧ (∀ k, k ≠ c.val → getMb y k = getMb s k) ∧ RegsBut [R.MB_STAT c] s y ∧ y = { s with regs := y.regs, mon := { s.mon with counters := y.mon.counters }, integrity := { s.integrity with badWords := y.integrity.badWords }, buses := { s.buses with mbs := y.buses.mbs } }) ∧
  (∀ (c : Fin 8) (kind : BusFault) (tecUp recUp : Nat) (s : State), mbOnBus s c = true →
      (ackWaived s c kind = true → exec (.busError c kind tecUp recUp) s = .next s) ∧
      (ackWaived s c kind = false →
      ∃ y, exec (.busError c kind tecUp recUp) s = .next (frameEnd c (reviewMb c (endAttempt c true y))) ∧
        getF y (R.MB_STAT c) F.MB_STAT_LEC = faultCode kind ∧
        getCtr y (ctr 0x0004 4 (8 * c + faultKind kind)) = (getCtr s (ctr 0x0004 4 (8 * c + faultKind kind)) + 1) % 2 ^ 48 ∧
        getMb y c = { getMb s c with tecFull := (getMb s c).tecFull + tecUp, recFull := (getMb s c).recFull + recUp } ∧
        (∀ k, k ≠ c.val → getMb y k = getMb s k) ∧ RegsBut [R.MB_STAT c] s y ∧ y = { s with regs := y.regs, mon := { s.mon with counters := y.mon.counters }, integrity := { s.integrity with badWords := y.integrity.badWords }, buses := { s.buses with mbs := y.buses.mbs } })) ∧
  (∀ (c : Fin 8) (s : State) (f : TxFrame), (getMb s c).tx = some f →
      ∃ t, exec (.arbitrationLost c) s = .next t ∧
        txPending t c f.obj = (if f.single then txPending s c f.obj else true) ∧
        getCtr t (ctr 0x0004 6 c) = (getCtr s (ctr 0x0004 6 c) + 1) % 2 ^ 48 ∧
        getMb t c = (if f.single then { getMb s c with tx := none, retries := tabSet (fun _ => 0) (getMb s c).retries f.obj 0 } else { getMb s c with tx := none }) ∧
        (∀ k, k ≠ c.val → getMb t k = getMb s k) ∧ RegsBut [R.MB_TXREQ c (f.obj / 32)] s t ∧ t = { s with regs := t.regs, mon := { s.mon with counters := t.mon.counters }, integrity := { s.integrity with badWords := t.integrity.badWords }, buses := { s.buses with mbs := t.buses.mbs } }) ∧
  (∀ (c : Fin 8) (recUp : Nat) (s : State), mbOnBus s c = true → 
      ∃ y, exec (.protocolException c recUp) s = .next (if getB s (R.MB_CTL c) F.MB_CTL_RESERR then busFault c .form 0 recUp y else onMb c (fun b => { b with away := true }) y) ∧
        getB y (R.MB_ESTAT c) F.MB_ESTAT_RESEX = true ∧
        getCtr y (ctr 0x0004 8 c) = (getCtr s (ctr 0x0004 8 c) + 1) % 2 ^ 48 ∧ RegsBut [R.MB_ESTAT c] s y ∧ y = { s with regs := y.regs, mon := { s.mon with counters := y.mon.counters }, integrity := { s.integrity with badWords := y.integrity.badWords } }) ∧
  (∀ (c : Fin 8) (s : State), (getMb s c).away = true →
      ∃ y, exec (.protocolExceptionRejoin c) s = .next (frameEnd c y) ∧ getMb y c = { getMb s c with away := false } ∧
        (∀ k, k ≠ c.val → getMb y k = getMb s k) ∧ y = { s with buses := { s.buses with mbs := y.buses.mbs } })

/-- Requests, cancels, transmission and reception of message objects. A taken MB_TXREQ write makes every listed object that is not refused
pending and refuses the others with REQREF; MB_TXCAN withdraws the listed requests and forbids a repeat of the frame being sent; MB_NEW
clears NEW and LOST of the listed objects. TX_COPY copies the pending object that wins arbitration into the transmit buffer, or on poison
drops its request, marks it and posts a notice. TX_COMPLETE frees the buffer, lowers the transmit error counter and completes the object. A
received frame lowers the receive error counter and is judged; a frame that matches no object is counted, and a stored frame's data, DLC
word, postmark and ID stand in the object with its NEW bit set. (spec: 04_message_buses.md) -/
def Obligations.MessageBusRequestsAndFrames : Prop :=
  (∀ (m : Master) (c : Fin 8) (j : Fin 4) (v : Word) (s : State), Takes s m (R.MB_TXREQ c j) →
      let u := dropOverlap (R.MB_TXREQ c j) 4 s
      ∃ t, exec (.mbTxreq m c j v) s = .next t ∧ t.resp = .ok ∧
        (∀ i, i < 32 → txPending t c (32 * j + i) = (txPending u c (32 * j + i) || (v.getLsbD i && !requestRefused u c (32 * j + i) false))) ∧
        ((∃ i, i < 32 ∧ v.getLsbD i = true ∧ requestRefused u c (32 * j + i) false = true) → getB t (R.MB_ESTAT c) F.MB_ESTAT_REQREF = true) ∧
        (∀ k, k ≠ c.val → getMb t k = getMb u k) ∧ RegsBut [R.MB_TXREQ c j, R.MB_ESTAT c] u t ∧ t = { u with regs := t.regs, mon := { u.mon with counters := t.mon.counters }, integrity := { u.integrity with badWords := t.integrity.badWords }, buses := { u.buses with mbs := t.buses.mbs }, resp := t.resp }) ∧
  (∀ (m : Master) (c : Fin 8) (j : Fin 4) (v : Word) (s : State), Takes s m (R.MB_TXCAN c j) →
      let u := dropOverlap (R.MB_TXCAN c j) 4 s
      ∃ t, exec (.mbTxcan m c j v) s = .next t ∧ t.resp = .ok ∧
        (∀ i, i < 32 → txPending t c (32 * j + i) = (txPending u c (32 * j + i) && !v.getLsbD i)) ∧
        getMb t c = { getMb u c with tx := (getMb u c).tx.map (fun f => if f.obj / 32 = j.val ∧ v.getLsbD (f.obj % 32) = true then { f with single := true } else f) } ∧
        (∀ k, k ≠ c.val → getMb t k = getMb u k) ∧ RegsBut [R.MB_TXREQ c j] u t ∧ t = { u with regs := t.regs, mon := { u.mon with counters := t.mon.counters }, integrity := { u.integrity with badWords := t.integrity.badWords }, buses := { u.buses with mbs := t.buses.mbs }, resp := t.resp }) ∧
  (∀ (m : Master) (c : Fin 8) (j : Fin 4) (v : Word) (s : State), Takes s m (R.MB_NEW c j) →
      let u := dropOverlap (R.MB_NEW c j) 4 s
      ∃ t, exec (.mbNewClear m c j v) s = .next t ∧ t.resp = .ok ∧ getReg t (R.MB_NEW c j) = getReg u (R.MB_NEW c j) &&& ~~~v ∧
        (∀ n, tabGet (fun _ => false) (getMb t c).lost n = (tabGet (fun _ => false) (getMb u c).lost n && !(decide (n / 32 = j.val) && v.getLsbD (n % 32)))) ∧
        getMb t c = { getMb u c with lost := (getMb t c).lost } ∧
        (∀ k, k ≠ c.val → getMb t k = getMb u k) ∧ RegsBut [R.MB_NEW c j] u t ∧ t = { u with regs := t.regs, mon := { u.mon with counters := t.mon.counters }, integrity := { u.integrity with badWords := t.integrity.badWords }, buses := { u.buses with mbs := t.buses.mbs }, resp := t.resp }) ∧
  (∀ (c : Fin 8) (loop : Option Nat) (n : Nat) (s : State), canSend s c = true → arbWinnerObj s c = some n → copyPoisoned s c n = false →
      ∃ y, exec (.txCopy c loop false) s = .next (if (objFrame s c n).brs ∧ getB y (R.MB_TDC c) F.MB_TDC_EN = true then measureDelay c loop y else y) ∧
        getMb y c = { getMb s c with tx := some { obj := n, frame := objFrame s c n, single := false } } ∧ txPending y c n = false ∧
        (∀ k, k ≠ c.val → getMb y k = getMb s k) ∧ RegsBut [R.MB_TXREQ c (n / 32)] s y ∧ y = { s with regs := y.regs, mon := { s.mon with counters := y.mon.counters }, integrity := { s.integrity with badWords := y.integrity.badWords }, buses := { s.buses with mbs := y.buses.mbs } }) ∧
  (∀ (c : Fin 8) (loop : Option Nat) (n : Nat) (s : State), canSend s c = true → arbWinnerObj s c = some n → copyPoisoned s c n = true →
      ∃ y, exec (.txCopy c loop false) s = .next (mbNotice c (consumePoison 4 (markObj c n 19 y))) ∧ txPending y c n = false ∧
        getB y (R.MB_ESTAT c) F.MB_ESTAT_POISON = true ∧ RegsBut [R.MB_TXREQ c (n / 32), R.MB_ESTAT c] s y ∧ y = { s with regs := y.regs }) ∧
  (∀ (c : Fin 8) (age : Nat) (s : State) (f : TxFrame), (getMb s c).tx = some f →
      ∃ y, getMb y c = { getMb s c with tx := none, tecFull := (getMb s c).tecFull - 1, retries := tabSet (fun _ => 0) (getMb s c).retries f.obj 0 } ∧
        (∀ k, k ≠ c.val → getMb y k = getMb s k) ∧ y = { s with buses := { s.buses with mbs := y.buses.mbs } } ∧
        let z := partnerFrame c f.obj f.frame (framePm s c age) true (completeObj c f.obj f.frame (framePm s c age) age (reviewMb c y))
        exec (.txComplete c age) s = .next (frameEnd c (if mbMode z c = 3 ∨ mbMode z c = 4 then acceptFrame c f.frame age false (bump (ctr 0x0004 2 c) z) else z))) ∧
  (∀ (c : Nat) (n : Nat) (f : BusFrame) (pm : DWord) (age : Nat) (s : State), c < 8 → n < 128 → bitOf (objCfg s c n) 14 = false → ttOn s c = false →
      let t := completeObj c n f pm age s
      objWord t c n 0x10 = (lo32 pm).toNat ∧ objWord t c n 0x14 = (hi32 pm).toNat ∧ objWord t c n 0x18 = f.id.toNat ∧
      objWord t c n 0x1C % 2 ^ 16 = (objWord s c n 0x1C + 1) % 2 ^ 16 ∧ getCtr t (ctr 0x0004 3 c) = (getCtr s (ctr 0x0004 3 c) + 1) % 2 ^ 48 ∧
      (∀ a, a < objAddr c n + 0x10 ∨ objAddr c n + 0x20 ≤ a → getByte t a = getByte s a)) ∧
  (∀ (c : Fin 8) (f : BusFrame) (age : Nat) (reference : Bool) (s : State),
      (mbOnBus s c = true → (getMb s c).tx = none → mbMode s c ≠ 3 →
        let y := lowerRec c (bump (ctr 0x0004 2 c) s)
        exec (.frameReceived c f age reference) s = .next (frameEnd c (if dpxOn y = true ∧ dpxState y = 1 then y else acceptFrame c (asFrame f) age reference y))) ∧
      (mbOnBus s c = false ∨ (getMb s c).tx.isSome = true ∨ mbMode s c = 3 → exec (.frameReceived c f age reference) s = .next s)) ∧
  (∀ (c : Nat) (f : BusFrame) (age : Nat) (s : State), ttOn s c = false → matchObj s c f = none →
      acceptFrame c f age false s = bump (ctr 0x0004 5 c) s) ∧
  (∀ (c n : Nat) (f : BusFrame) (pm : DWord) (instant : Nat) (s : State), c < 8 → n < 128 → f.data.length ≤ 64 → bitOf (objCfg s c n) 7 = false → bitOf (objCfg s c n) 14 = false →
      getB s R.GW_CTL F.GW_CTL_EN = false →
      let t := storeFrame c n f pm instant s
      getBytes t (objAddr c n + 0x20) f.data.length = f.data ∧ objWord t c n 0x10 = (lo32 pm).toNat ∧ objWord t c n 0x14 = (hi32 pm).toNat ∧
      objWord t c n 0x18 = f.id.toNat ∧ objWord t c n 0x0C % 2 ^ 16 = (objWord s c n 0x0C + 2) % 2 ^ 16 ∧ bitsOf (objWord t c n 0x0C) 20 4 = f.dlc.toNat ∧
      (getReg t (R.MB_NEW c (n / 32))).getLsbD (n % 32) = true ∧
      ((getReg s (R.MB_NEW c (n / 32))).getLsbD (n % 32) = true → tabGet (fun _ => false) (getMb t c).lost n = true) ∧
      (∀ a, a < objAddr c n + 0x0C ∨ objAddr c n + 0x20 + f.data.length ≤ a → getByte t a = getByte s a) ∧ RegsBut (R.MB_NEW c (n / 32) :: discardRegs) s t)

/-- Starting time-triggered operation, requesting the reference message and firing triggers. A taken MB_TT_CFG write with TTEN 1 while TTEN is 0
starts the schedule: MASTER says whether the role is that of a potential master that starts as master, CCNT and SYNC are cleared, no
reference mark, window or S1 event stands, and the level becomes 3 when the trigger list is not valid and 0 otherwise; with TTEN already 1
it only sets CFGREF. A due reference message of the current time master is requested and counted. A trigger whose TIME_MARK is reached ends
the standing window and, when its cycle matches, does what its type says: types 0 to 3 send at once, open a window, check a reception, or
count and take over an absent master; a trigger whose time has not come, or of an idle schedule, does nothing. (spec: 04_message_buses.md) -/
def Obligations.TimeTriggeredBusFollowsItsSchedule : Prop :=
  (∀ (m : Master) (c : Fin 8) (v : Word) (s : State), Takes s m (R.MB_TT_CFG c) →
      let u := dropOverlap (R.MB_TT_CFG c) 4 s
      ttOn u c = false →
      ∃ y, exec (.ttEnable m c v) s = .next (answer .ok (setLevel c (if ttInvalid y c then 3 else 0) y)) ∧ ttOn y c = true ∧
        getB y (R.MB_TT_STAT c) F.MB_TT_STAT_MASTER = decide (F.MB_TT_CFG_ROLE.get v = 1) ∧ getB y (R.MB_TT_STAT c) F.MB_TT_STAT_SYNC = false ∧
        getF y (R.MB_TT_STAT c) F.MB_TT_STAT_CCNT = 0 ∧ refObj y c = F.MB_TT_CFG_REF_OBJ.get v ∧
        getMb y c = { getMb u c with mark := none, s1 := false, seen := [], arb := none, starts := 0, walked := 0 } ∧ (∀ k, k ≠ c.val → getMb y k = getMb u k) ∧
        RegsBut [R.MB_TT_CFG c, R.MB_TT_STAT c] u y ∧ y = { u with regs := y.regs, mon := { u.mon with counters := y.mon.counters }, integrity := { u.integrity with badWords := y.integrity.badWords }, buses := { u.buses with mbs := y.buses.mbs } }) ∧
  (∀ (m : Master) (c : Fin 8) (v : Word) (s : State), Takes s m (R.MB_TT_CFG c) →
      let u := dropOverlap (R.MB_TT_CFG c) 4 s
      ttOn u c = true → ∃ t, exec (.ttEnable m c v) s = .next t ∧ t.resp = .ok ∧ getB t (R.MB_ESTAT c) F.MB_ESTAT_CFGREF = true ∧ OnlyRegs [R.MB_ESTAT c] u t) ∧
  (∀ (c : Fin 8) (s : State), mastersTime s c = true →
      regs64 s (R.MB_TT_T0_LO c) (R.MB_TT_T0_HI c) + ((getMb s c).starts + 1) * (getReg s (R.MB_TT_PERIOD c)).toNat ≤ itbNs s (getF s (R.MB_TT_CFG c) F.MB_TT_CFG_ITB) →
      ∃ y, exec (.ttReferenceRequest c) s = .next (requestObj c (refObj s c) true y) ∧ getMb y c = { getMb s c with starts := (getMb s c).starts + 1 } ∧
        (∀ k, k ≠ c.val → getMb y k = getMb s k) ∧ y = { s with buses := { s.buses with mbs := y.buses.mbs } }) ∧
  (∀ (c : Fin 8) (n : Nat) (tr : Bool) (s : State), requestRefused s c n tr = false → n < 128 →
      ∃ t, requestObj c n tr s = t ∧ txPending t c n = true ∧
        (txPending s c n = false → (getMb s c).tx = none → tabGet (fun _ => 0) (getMb t c).retries n = 0) ∧
        (∀ k, k ≠ c.val → getMb t k = getMb s k) ∧ RegsBut [R.MB_TXREQ c (n / 32)] s t ∧ t = { s with regs := t.regs, buses := { s.buses with mbs := t.buses.mbs } }) ∧
  (∀ (c : Fin 8) (n : Fin 64) (busIdle : Bool) (s : State),
      (ttOn s c = true → getB s (R.MB_TT_STAT c) F.MB_TT_STAT_SYNC = true → ttLevel s c ≠ 3 → trigOn s c n = true → atMark s c n = true →
        let w := endWindow c (onMb c (fun b => { b with walked := n.val + 1 }) s)
        (getF w (R.MB_TT_STAT c) F.MB_TT_STAT_CCNT % 2 ^ trigRep w c n = trigOff w c n → exec (.ttTrigger c n busIdle) s = .next (fireTrigger c n busIdle w)) ∧
        (getF w (R.MB_TT_STAT c) F.MB_TT_STAT_CCNT % 2 ^ trigRep w c n ≠ trigOff w c n → exec (.ttTrigger c n busIdle) s = .next w)) ∧
      (ttOn s c = false ∨ getB s (R.MB_TT_STAT c) F.MB_TT_STAT_SYNC = false ∨ ttLevel s c = 3 ∨ trigOn s c n = false ∨ atMark s c n = false →
        exec (.ttTrigger c n busIdle) s = .next s)) ∧
  (∀ (c n : Nat) (busIdle : Bool) (s : State), badWord s (R.MB_TRIG_A c n) = false → badWord s (R.MB_TRIG_B c n) = false →
      (trigType s c n = 1 → ttLevel s c < 2 → fireTrigger c n busIdle s = onMb c (fun b => { b with arb := some (trigObj s c n) }) (requestObj c (trigObj s c n) true s)) ∧
      (trigType s c n = 2 → tabGet (fun _ => false) (getMb s c).seen n = true → ∃ y, fireTrigger c n busIdle s = y ∧ tabGet (fun _ => false) (getMb y c).seen n = false ∧ y = { s with buses := { s.buses with mbs := y.buses.mbs } }) ∧
      (trigType s c n = 2 → tabGet (fun _ => false) (getMb s c).seen n = false → ∃ y, fireTrigger c n busIdle s = s1Event c y ∧ tabGet (fun _ => false) (getMb y c).seen n = false ∧ y = { s with buses := { s.buses with mbs := y.buses.mbs } }) ∧
      (trigType s c n = 0 → 2 ≤ ttLevel s c → fireTrigger c n busIdle s = s) ∧
      (trigType s c n = 0 → ttLevel s c < 2 → busIdle = false → fireTrigger c n busIdle s = s1Event c s) ∧
      (trigType s c n = 3 → let w := s2Event c s
        fireTrigger c n busIdle s = if ttRole w c ≠ 0 ∧ ttMaster w c = false ∧ (dpxOn w = false ∨ dpxState w = 2) then takeOverTime c w else w)) ∧
  (∀ (c : Nat) (s : State), ∃ y, s1Event c s = setLevel c (max 1 (ttLevel s c)) y ∧ (getMb y c).s1 = true ∧
      getCtr y (ctr 0x0004 10 c) = (getCtr s (ctr 0x0004 10 c) + 1) % 2 ^ 48 ∧ y = { s with mon := { s.mon with counters := y.mon.counters }, integrity := { s.integrity with badWords := y.integrity.badWords }, buses := { s.buses with mbs := y.buses.mbs } })

/-- Gateway map writes, bursts to the input image, updates from the output image and frames from the ring. A taken write of a valid map word
writes it (word A then reviews the tracks of the entry); one that EN would refuse leaves EN 0 and sets CFGREF, and word B is not written
while EN is 1. GW_BUS_TO_IMAGE, once requester 20 holds the interconnect, takes the oldest burst: every entry in force is applied, and a
second frame of one object in one half is a rate drop. GW_IMAGE_TO_BUS updates every object with DIR 1 entries once after a boundary. A
BUS_FRAME for a fitting transmit object from a sender with W permission replaces the object's DLC and data and requests it; any other is
refused with the reason's NDN. (spec: 04_message_buses.md) -/
def Obligations.GatewayMovesFieldsBetweenBusAndImage : Prop :=
  (∀ (m : Master) (n : Fin 512) (v : Word) (s : State), Takes s m (R.GW_MAP_B n) →
      let u := dropOverlap (R.GW_MAP_B n) 4 s
      (getB u (R.GW_MAP_A n) F.GW_MAP_A_EN = false → exec (.gwMapWrite m n true v) s = .next (answer .ok (plainWrite (R.GW_MAP_B n) v u))) ∧
      (getB u (R.GW_MAP_A n) F.GW_MAP_A_EN = true → ∃ t, exec (.gwMapWrite m n true v) s = .next t ∧ t.resp = .ok ∧ getB t R.GW_STAT F.GW_STAT_CFGREF = true ∧ OnlyRegs [R.GW_STAT] u t)) ∧
  (∀ (m : Master) (n : Fin 512) (v : Word) (s : State), Takes s m (R.GW_MAP_A n) →
      let u := dropOverlap (R.GW_MAP_A n) 4 s
      (F.GW_MAP_A_EN.get v = 0 ∨ mapInvalid v (getReg u (R.GW_MAP_B n)) = false → ∃ y, exec (.gwMapWrite m n false v) s = .next (answer .ok (reviewSource 6 n y)) ∧
        getF y (R.GW_MAP_A n) F.GW_MAP_A_EN = F.GW_MAP_A_EN.get v ∧ getF y (R.GW_MAP_A n) F.GW_MAP_A_OBJ = F.GW_MAP_A_OBJ.get v ∧
        getF y (R.GW_MAP_A n) F.GW_MAP_A_CTRL = F.GW_MAP_A_CTRL.get v ∧ getF y (R.GW_MAP_A n) F.GW_MAP_A_IOFF = F.GW_MAP_A_IOFF.get v ∧
        getF y (R.GW_MAP_A n) F.GW_MAP_A_DIR = F.GW_MAP_A_DIR.get v ∧ OnlyRegs [R.GW_MAP_A n] u y) ∧
      (F.GW_MAP_A_EN.get v = 1 → mapInvalid v (getReg u (R.GW_MAP_B n)) = true → ∃ y, exec (.gwMapWrite m n false v) s = .next (answer .ok (reviewSource 6 n y)) ∧
        getB y (R.GW_MAP_A n) F.GW_MAP_A_EN = false ∧ getB y R.GW_STAT F.GW_STAT_CFGREF = true ∧ OnlyRegs [R.GW_MAP_A n, R.GW_STAT] u y)) ∧
  (∀ (c n instant : Nat) (rest : List (Nat × Nat × Nat)) (s : State), s.buses.bursts = (c, n, instant) :: rest → holds (acquire 20 s) 20 = true →
      let w := gwEnd (onBuses (fun b => { b with bursts := rest }) (acquire 20 s))
      (getB w R.GW_CTL F.GW_CTL_EN = true → ttRunning w = true → mapEntries w 0 c n ≠ [] →
        exec .gwBusToImage s = .next ((mapEntries w 0 c n).foldl (fun x i => applyEntry i c n instant x)
          (if 128 * c + n ∈ w.buses.landed then rateDrop c n w else onBuses (fun b => { b with landed := (128 * c + n) :: b.landed }) w))) ∧
      (getB w R.GW_CTL F.GW_CTL_EN = false ∨ ttRunning w = false ∨ mapEntries w 0 c n = [] → exec .gwBusToImage s = .next w)) ∧
  (∀ (i c n instant : Nat) (s : State), getF s (R.GW_MAP_B i) F.GW_MAP_B_SRC = 0 → getF s (R.GW_MAP_A i) F.GW_MAP_A_IOFF + widthBytes (getF s (R.GW_MAP_B i) F.GW_MAP_B_IW) ≤ 0x8000 →
      let bw := widthBytes (getF s (R.GW_MAP_B i) F.GW_MAP_B_BW)
      let iw := widthBytes (getF s (R.GW_MAP_B i) F.GW_MAP_B_IW)
      let off := getF s (R.GW_MAP_A i) F.GW_MAP_A_IOFF
      let boff := getF s (R.GW_MAP_B i) F.GW_MAP_B_BOFF
      let x := convertField (getB s (R.GW_MAP_B i) F.GW_MAP_B_SIGN) (getB s (R.GW_MAP_B i) F.GW_MAP_B_SAT) bw iw (fromBus (getB s (R.GW_MAP_B i) F.GW_MAP_B_BORD) (getBytes s (objAddr c n + 0x20 + boff) bw))
      (storedBytes s c n < boff + bw → applyEntry i c n instant s = bump (ctr 0x0004 1 i) s) ∧
      (boff + bw ≤ storedBytes s c n → tableAllows s (gwAccess off iw true) = true →
        ∃ y, applyEntry i c n instant s = reviewSource 6 i (feedField i iw x instant y) ∧ getBytes y (writePlace (inImage + off)) iw = leBytes iw x ∧
          (∀ a, a < writePlace (inImage + off) ∨ writePlace (inImage + off) + iw ≤ a → getByte y a = getByte s a) ∧ RegsBut discardRegs s y) ∧
      (boff + bw ≤ storedBytes s c n → tableAllows s (gwAccess off iw true) = false → applyEntry i c n instant s = recordDenial (gwAccess off iw true) s)) ∧
  (∀ (s : State), s.buses.toBus = true → holds (acquire 20 s) 20 = true →
      let w := gwEnd (onBuses (fun b => { b with toBus := false }) (acquire 20 s))
      w.buses.toBus = false ∧
      (getB w R.GW_CTL F.GW_CTL_EN = true → ttRunning w = true → exec .gwImageToBus s = .next ((outObjects w).foldl (fun x o => updateObj o.1 o.2 x) w)) ∧
      (getB w R.GW_CTL F.GW_CTL_EN = false ∨ ttRunning w = false → exec .gwImageToBus s = .next w)) ∧
  (∀ (m n : Nat) (s : State), (mapEntries s 1 m n).any (fun i => entryPoisoned s i) = true →
      (∀ i ∈ mapEntries s 1 m n, tableAllows s (gwAccess (getF s (R.GW_MAP_A i) F.GW_MAP_A_IOFF) (widthBytes (getF s (R.GW_MAP_B i) F.GW_MAP_B_IW)) false) = true) →
      updateObj m n s = gwNotice (setB (markObj m n 19 (consumePoison 4 s)) R.GW_STAT F.GW_STAT_POISON true)) ∧
  (∀ (e : Envelope) (c n : Nat) (s : State), let f := asKind kBusFrame e
      objAt f.addr.toNat = some (c, n) →
      let w := if poisonMismatch f then bump (ctr 0x000B 7 0) (takeDelivered f s) else takeDelivered f s
      holdsWrite w (taggedMaster f) (R.MB_CTL c) = true → 2 ≤ f.lenw.toNat → f.lenw.toNat ≤ 10 → objOn w c n = true → objTx w c n = true → objTt w c n = false →
      inUnitReset w 0x0004 c = false →
      let dlc := bitsOf (payloadWord f 0).toNat 34 4
      let len := min (dlcBytes (bitOf (objCfg w c n) 4) dlc) (8 * (f.lenw.toNat - 2))
      ∃ y, exec (.busFrame e) s = .next (requestObj c n false y) ∧ bitsOf (objCfg y c n) 8 4 = dlc ∧
        getBytes y (objAddr c n + 0x20) len = ((f.payload.drop 2).flatMap (fun w => leBytes 8 w.toNat)).take len ∧
        (∀ a, a < objAddr c n ∨ (objAddr c n + 4 ≤ a ∧ a < objAddr c n + 0x20) ∨ objAddr c n + 0x20 + len ≤ a → getByte y a = getByte w a) ∧ RegsBut discardRegs w y) ∧
  (∀ (e : Envelope) (s : State), let f := asKind kBusFrame e
      let w := if poisonMismatch f then bump (ctr 0x000B 7 0) (takeDelivered f s) else takeDelivered f s
      (ctrlAt f.addr.toNat = none → exec (.busFrame e) s = .next (sendNdn Reason.busRefused.code 0 0 (ndnData f).1 (ndnData f).2 f w)) ∧
      (∀ c, ctrlAt f.addr.toNat = some c → holdsWrite w (taggedMaster f) (R.MB_CTL c) = false →
        exec (.busFrame e) s = .next (sendNdn Reason.accessDenied.code 0 0 (ndnData f).1 (ndnData f).2 f w)) ∧
      (∀ c, ctrlAt f.addr.toNat = some c → holdsWrite w (taggedMaster f) (R.MB_CTL c) = true → objAt f.addr.toNat = none →
        exec (.busFrame e) s = .next (sendNdn Reason.busRefused.code 0 0 (ndnData f).1 (ndnData f).2 f w)))

/-- UART transmission, reception, gaps and the RX FIFO. A taken UA_TXD write appends its character or, with 64 waiting, drops it with TXDROP and
a count. The first queued character starts when the UART is enabled, out of unit reset and need not wait for a reception; TX_END releases
the line. A confirmed start bit opens a character and the first after a gap leaves its postmark in UA_RXPM. A received character is judged,
its flags stay in UA_STAT, and it joins the FIFO, overruns it, or is compared with the echo. A gap marks the youngest entry END and posts a
notice. UA_RXD removes the oldest character. (spec: 05_serial_encoder_mains.md) -/
def Obligations.UartsSendAndReceiveCharacters : Prop :=
  (∀ (m : Master) (n : Fin 16) (v : Word) (s : State), Takes s m (R.UA_TXD n) →
      let u := dropOverlap (R.UA_TXD n) 4 s
      ((getUart u n).tx.length < 64 → ∃ t, exec (.uaTxdWrite m n v) s = .next t ∧ t.resp = .ok ∧
        getUart t n = { getUart u n with tx := (getUart u n).tx ++ [F.UA_TXD_DATA.get v] } ∧ (∀ k, k ≠ n.val → getUart t k = getUart u k) ∧ t = { u with mon := { u.mon with counters := t.mon.counters }, integrity := { u.integrity with badWords := t.integrity.badWords }, field := { u.field with uarts := t.field.uarts }, resp := t.resp }) ∧
      (64 ≤ (getUart u n).tx.length → ∃ t, exec (.uaTxdWrite m n v) s = .next t ∧ t.resp = .ok ∧ getB t (R.UA_STAT n) F.UA_STAT_TXDROP = true ∧
        getCtr t (ctr 0x0005 1 n) = (getCtr u (ctr 0x0005 1 n) + 1) % 2 ^ 48 ∧ OnlyRegs [R.UA_STAT n] u t)) ∧
  (∀ (n : Fin 16) (ch : Nat) (rest : List Nat) (s : State), (getUart s n).tx = ch :: rest → uartOn s n = true → inUnitReset s 0x0005 n = false →
      ((getUart s n).sending.isSome = true ∨ uartMode s n ≠ 1 ∨ (getUart s n).inChar = false) →
      ∃ y, exec (.uartTxStart n) s = .next (refreshUart n y) ∧
        getUart y n = { getUart s n with tx := rest, sending := some ch, echo := if uartMode s n = 1 ∧ uartEcho s n = true then (getUart s n).echo ++ [ch] else [] } ∧
        (∀ k, k ≠ n.val → getUart y k = getUart s k) ∧ y = { s with field := { s.field with uarts := y.field.uarts } }) ∧
  (∀ (n : Fin 16) (s : State), (getUart s n).sending.isSome = true → (getUart s n).tx = [] →
      ∃ y, exec (.uartTxEnd n) s = .next (refreshUart n y) ∧ getUart y n = { getUart s n with sending := none, echo := [] } ∧
        (∀ k, k ≠ n.val → getUart y k = getUart s k) ∧ y = { s with field := { s.field with uarts := y.field.uarts } }) ∧
  (∀ (n : Fin 16) (confirmed : Bool) (age : Nat) (s : State),
      (uartListens s n = true → (getUart s n).inChar = false → confirmed = true → afterBreak s n age = false →
      ∃ t, exec (.uartStartBit n confirmed age) s = .next t ∧ getUart t n = { getUart s n with inChar := true, afterGap := false, broke := none } ∧
        (∀ k, k ≠ n.val → getUart t k = getUart s k) ∧
        ((getUart s n).afterGap = true → getReg t (R.UA_RXPM_LO n) = lo32 (vdBack s (getF s (R.UA_CTL n) F.UA_CTL_VD) age) ∧
          getReg t (R.UA_RXPM_HI n) = hi32 (vdBack s (getF s (R.UA_CTL n) F.UA_CTL_VD) age)) ∧
        ((getUart s n).afterGap = false → t.regs = s.regs) ∧ RegsBut [R.UA_RXPM_LO n, R.UA_RXPM_HI n] s t ∧ t = { s with regs := t.regs, field := { s.field with uarts := t.field.uarts } }) ∧
      (uartListens s n = false ∨ (getUart s n).inChar = true ∨ confirmed = false ∨ afterBreak s n age = true → exec (.uartStartBit n confirmed age) s = .next s)) ∧
  (∀ (n : Fin 16) (d : BitVec 9) (par stop : Bool) (s : State), uartListens s n = true → (getUart s n).inChar = true → (uartMode s n ≠ 1 ∨ (getUart s n).sending = none) → uartImage s n = false →
      let ch := judgeChar s n d.toNat par stop
      ((getUart s n).rx.length < 64 → ∃ t, exec (.uartCharReceived n d par stop) s = .next t ∧
        getUart t n = { getUart s n with inChar := false, count := ((getUart s n).count + 1) % 16, broke := (if ch.brk then some (3200 * s.time.ltick) else none), rx := (getUart s n).rx ++ [ch], overrun := false } ∧
        (∀ k, k ≠ n.val → getUart t k = getUart s k) ∧ (ch.perr = true → getB t (R.UA_STAT n) F.UA_STAT_PERR = true) ∧
        (ch.ferr = true → getB t (R.UA_STAT n) F.UA_STAT_FERR = true) ∧ (ch.brk = true → getB t (R.UA_STAT n) F.UA_STAT_BRK = true) ∧
        (ch.perr = false → ch.ferr = false → ch.brk = false → t.regs = s.regs) ∧ RegsBut [R.UA_STAT n] s t ∧ t = { s with regs := t.regs, field := { s.field with uarts := t.field.uarts } }) ∧
      (64 ≤ (getUart s n).rx.length → (getUart s n).overrun = true → ∃ t, exec (.uartCharReceived n d par stop) s = .next t ∧ (getUart t n).rx = (getUart s n).rx ∧
        getB t (R.UA_STAT n) F.UA_STAT_OVR = true ∧ getCtr t (ctr 0x0005 0 n) = (getCtr s (ctr 0x0005 0 n) + 1) % 2 ^ 48 ∧ RegsBut [R.UA_STAT n] s t ∧ t = { s with regs := t.regs, mon := { s.mon with counters := t.mon.counters }, integrity := { s.integrity with badWords := t.integrity.badWords }, field := { s.field with uarts := t.field.uarts } })) ∧
  (∀ (d u par : Nat) (p stop : Bool) (s : State), (judgeChar s u d p stop).data = d % 2 ^ getF s (R.UA_CTL u) F.UA_CTL_DATA ∧ (judgeChar s u d p stop).ferr = !stop ∧
      (getF s (R.UA_CTL u) F.UA_CTL_PAR = 0 → (judgeChar s u d p stop).perr = false) ∧
      (par = 3 ∨ par = 4 → getF s (R.UA_CTL u) F.UA_CTL_PAR = par → (judgeChar s u d p stop).perr = (p != decide (par = 3)))) ∧
  (∀ (n : Fin 16) (s : State), uartOn s n = true → (getUart s n).afterGap = false → (getUart s n).inChar = false → getF s (R.UA_GAP n) F.UA_GAP_IDLE ≠ 0 →
      ∃ y, exec (.uartGap n) s = .next (uartNotice n (if uartImage s n = true ∧ gathered y n = true then closeFrame n y else y)) ∧
        getUart y n = { getUart s n with afterGap := true, rx := markEnd (getUart s n).rx } ∧ (∀ k, k ≠ n.val → getUart y k = getUart s k) ∧ y = { s with field := { s.field with uarts := y.field.uarts } }) ∧
  (∀ (cs : List UartChar) (x : UartChar), markEnd (cs ++ [x]) = cs ++ [{ x with gap := true }]) ∧
  (∀ (m : Master) (n : Fin 16) (s : State), Reads s m (R.UA_RXD n) → uartImage s n = false →
      ((getUart s n).rx = [] → exec (.uaRxdRead m n) s = .next (answer (.data 0 false) s)) ∧
      (∀ ch rest, (getUart s n).rx = ch :: rest → ∃ t, exec (.uaRxdRead m n) s = .next t ∧ t.resp = .data ((rxdWord ch).zeroExtend 64) false ∧
        getUart t n = { getUart s n with rx := rest } ∧ (∀ k, k ≠ n.val → getUart t k = getUart s k) ∧ t = { s with field := { s.field with uarts := t.field.uarts }, resp := t.resp }))

/-- Encoder edges, indexes, count writes and the arming of the index reset. An accepted change of A and B is shown in EN_STAT.AB; while the
encoder is enabled a legal sample moves EN_COUNT by the mode's count, modulo EN_MOD where it is not 0, and feeds the tracks, and an illegal
one sets ILLEGAL, is counted and reported once. A rising Z at the gated levels latches the count in EN_ZCNT with its postmark, sets ZSEEN
and resets the count where ZRST says so. A write of EN_COUNT sets the count; a write of EN_CTL with ZARM 1 arms the next index. (spec:
05_serial_encoder_mains.md) -/
def Obligations.EncodersCountAndLatch : Prop :=
  (∀ (n : Fin 16) (a b : Bool) (age : Nat) (d : Int) (s : State), inUnitReset s 0x0006 n = false → encOn s n = true →
      let old := getF s (R.EN_STAT n) F.EN_STAT_AB
      old ≠ bit1 a + 2 * bit1 b → countOf (getF s (R.EN_CTL n) F.EN_CTL_MODE) (bitOf old 0) (bitOf old 1) a b = some d → d ≠ 0 → followsPartner s = false →
      let k := if getB s (R.EN_CTL n) F.EN_CTL_DIRINV = true then -d else d
      ∃ y, exec (.encoderEdge n a b age) s = .next (feedTracks 1 n k (itbBack s 0 age).toNat y) ∧ getF y (R.EN_STAT n) F.EN_STAT_AB = bit1 a + 2 * bit1 b ∧
        getB y (R.EN_STAT n) F.EN_STAT_DIR = decide (k < 0) ∧
        getReg y (R.EN_COUNT n) = BitVec.ofNat 32 (stepCount (getReg s (R.EN_MOD n)).toNat (getReg s (R.EN_COUNT n)).toNat k) ∧
        (∀ j, j ≠ n.val → getEnc y j = getEnc s j) ∧ RegsBut [R.EN_STAT n, R.EN_COUNT n] s y ∧ y = { s with regs := y.regs, field := { s.field with encs := y.field.encs } }) ∧
  (∀ (n : Fin 16) (a b : Bool) (age : Nat) (s : State), inUnitReset s 0x0006 n = false → encOn s n = true →
      let old := getF s (R.EN_STAT n) F.EN_STAT_AB
      old ≠ bit1 a + 2 * bit1 b → countOf (getF s (R.EN_CTL n) F.EN_CTL_MODE) (bitOf old 0) (bitOf old 1) a b = none → getB s (R.EN_STAT n) F.EN_STAT_ILLEGAL = true →
      ∃ t, exec (.encoderEdge n a b age) s = .next t ∧ getB t (R.EN_STAT n) F.EN_STAT_ILLEGAL = true ∧ getF t (R.EN_STAT n) F.EN_STAT_AB = bit1 a + 2 * bit1 b ∧
        getReg t (R.EN_COUNT n) = getReg s (R.EN_COUNT n) ∧ getCtr t (ctr 0x0006 1 n) = (getCtr s (ctr 0x0006 1 n) + 1) % 2 ^ 48 ∧ RegsBut [R.EN_STAT n] s t ∧ t = { s with regs := t.regs, mon := { s.mon with counters := t.mon.counters }, integrity := { s.integrity with badWords := t.integrity.badWords } }) ∧
  (∀ (n : Fin 16) (a b : Bool) (age : Nat) (s : State), inUnitReset s 0x0006 n = false → encOn s n = false →
      ∃ t, exec (.encoderEdge n a b age) s = .next t ∧ getF t (R.EN_STAT n) F.EN_STAT_AB = bit1 a + 2 * bit1 b ∧ RegsBut [R.EN_STAT n] s t ∧ t = { s with regs := t.regs }) ∧
  (∀ (n : Fin 16) (z a b : Bool) (age : Nat) (s : State), inUnitReset s 0x0006 n = false → 
      let w := setB (encSample n a b age s) (R.EN_STAT n) F.EN_STAT_Z z
      exec (.encoderIndex n z a b age) s = .next (if encOn w n = true ∧ z = true ∧ getB s (R.EN_STAT n) F.EN_STAT_Z = false ∧
        (getB w (R.EN_CTL n) F.EN_CTL_ZGATE = false ∨ getF w (R.EN_CTL n) F.EN_CTL_ZQ = bit1 a + 2 * bit1 b) then encIndex n age w else w)) ∧
  (∀ (n age : Nat) (s : State), getB s (R.EN_CTL n) F.EN_CTL_ZNTC = false →
      let pm := vdBack s (getF s (R.EN_CTL n) F.EN_CTL_VD) age
      let armed := getF s (R.EN_CTL n) F.EN_CTL_ZRST = 2 ∧ getB s (R.EN_CTL n) F.EN_CTL_ZARM = true
      ∃ t, encIndex n age s = t ∧ getReg t (R.EN_ZCNT n) = getReg s (R.EN_COUNT n) ∧ getReg t (R.EN_ZPM_LO n) = lo32 pm ∧ getReg t (R.EN_ZPM_HI n) = hi32 pm ∧
        getB t (R.EN_STAT n) F.EN_STAT_ZSEEN = true ∧
        getReg t (R.EN_COUNT n) = (if getF s (R.EN_CTL n) F.EN_CTL_ZRST = 1 ∨ armed then 0 else getReg s (R.EN_COUNT n)) ∧
        (armed → getB t (R.EN_CTL n) F.EN_CTL_ZARM = false) ∧
        RegsBut [R.EN_ZCNT n, R.EN_ZPM_LO n, R.EN_ZPM_HI n, R.EN_STAT n, R.EN_COUNT n, R.EN_CTL n] s t ∧ t = { s with regs := t.regs, field := { s.field with encs := t.field.encs } }) ∧
  (∀ (m : Master) (n : Fin 16) (v : Word) (s : State), Takes s m (R.EN_COUNT n) →
      let u := dropOverlap (R.EN_COUNT n) 4 s
      ∃ t, exec (.enCountWrite m n v) s = .next t ∧ t.resp = .ok ∧ getReg t (R.EN_COUNT n) = v ∧ (getEnc t n).own = v.toNat ∧
        (∀ j, j ≠ n.val → getEnc t j = getEnc u j) ∧ RegsBut [R.EN_COUNT n] u t ∧ t = { u with regs := t.regs, mon := { u.mon with counters := t.mon.counters }, integrity := { u.integrity with badWords := t.integrity.badWords }, field := { u.field with encs := t.field.encs }, resp := t.resp }) ∧
  (∀ (m : Master) (n : Fin 16) (v : Word) (s : State), Takes s m (R.EN_CTL n) →
      let u := dropOverlap (R.EN_CTL n) 4 s
      F.EN_CTL_MODE.get v < 5 → encOn u n = false →
      ∃ y, exec (.zarm m n v) s = .next (answer .ok (reviewSource 1 n y)) ∧ getB y (R.EN_CTL n) F.EN_CTL_ZARM = true ∧ getF y (R.EN_CTL n) F.EN_CTL_ZRST = F.EN_CTL_ZRST.get v ∧
        getF y (R.EN_CTL n) F.EN_CTL_MODE = F.EN_CTL_MODE.get v ∧ getB y (R.EN_CTL n) F.EN_CTL_EN = decide (F.EN_CTL_EN.get v = 1) ∧ OnlyRegs [R.EN_CTL n] u y) ∧
  (∀ (m : Master) (n : Fin 16) (v : Word) (s : State), Takes s m (R.EN_CTL n) →
      let u := dropOverlap (R.EN_CTL n) 4 s
      F.EN_CTL_MODE.get v < 5 → encOn u n = true →
      ∃ y, exec (.zarm m n v) s = .next (answer .ok (reviewSource 1 n y)) ∧ getB y (R.EN_CTL n) F.EN_CTL_ZARM = true ∧
        getF y (R.EN_CTL n) F.EN_CTL_MODE = getF u (R.EN_CTL n) F.EN_CTL_MODE ∧ OnlyRegs [R.EN_CTL n, R.EN_STAT n] u y)

/-- Mains-phase inputs: enable, edges, holdover and its end. A taken MP_CTL write with EN 1 on a stopped input writes the register, sets the
nominal frequency and enters ACQUIRE. An accepted edge within HOLDOFF of the last one is counted and ignored; the first after entering
ACQUIRE sets the phase to MP_OFFSET and the error to 0. A missing edge in ACQUIRE or LOCKED enters HOLDOVER, and HOLD_MAX periods there
enter ACQUIRE. A change of state shows in MP_FREQ, starts the counts of small and large errors anew and reviews the input's tracks. (spec:
05_serial_encoder_mains.md) -/
def Obligations.MainsInputsFollowTheLine : Prop :=
  (∀ (m : Master) (i : Fin 2) (v : Word) (s : State), Takes s m (R.MP_CTL i) →
      let u := dropOverlap (R.MP_CTL i) 4 s
      getB u (R.MP_CTL i) F.MP_CTL_EN = false →
      ∃ y, exec (.mainsEnable m i v) s = .next (answer .ok (setMainsState i 1 y)) ∧ getB y (R.MP_CTL i) F.MP_CTL_EN = true ∧
        getF y (R.MP_FREQ i) F.MP_FREQ_FREQ = (if F.MP_CTL_NOM60.get v = 1 then 60 else 50) * 65536 ∧ (getMains y i).lastEdge = none ∧
        (∀ k, k ≠ i.val → getMains y k = getMains u k) ∧ RegsBut [R.MP_CTL i, R.MP_FREQ i] u y ∧ y = { u with regs := y.regs, mon := { u.mon with counters := y.mon.counters }, integrity := { u.integrity with badWords := y.integrity.badWords }, field := { u.field with mains := y.field.mains } }) ∧
  (∀ (i st : Nat) (s : State), st < 4 → getF s (R.MP_FREQ i) F.MP_FREQ_STATE ≠ st →
      ∃ y, setMainsState i st s = reviewSource 2 i (postOpen (getF y (R.MP_CTL i) F.MP_CTL_NTC_Q) 0x0007 i y) ∧ getF y (R.MP_FREQ i) F.MP_FREQ_STATE = st ∧
        (getMains y i).good = 0 ∧ (getMains y i).bad = 0 ∧ (st = 1 → (getMains y i).first = true) ∧ (st = 3 → getB y (R.MP_STAT i) F.MP_STAT_HOLD = true) ∧
        (∀ k, k ≠ i → getMains y k = getMains s k) ∧ RegsBut [R.MP_FREQ i, R.MP_STAT i] s y ∧ y = { s with regs := y.regs, field := { s.field with mains := y.field.mains } }) ∧
  (∀ (i : Fin 2) (rising : Bool) (age l : Nat) (s : State), getF s (R.MP_FREQ i) F.MP_FREQ_STATE ≠ 0 → rising ≠ getB s (R.MP_CTL i) F.MP_CTL_EDGE →
      (getMains s i).lastEdge = some l → s.time.ltick * 16 - 5 * age < l + getF s (R.MP_CTL i) F.MP_CTL_HOLDOFF * 50000 →
      exec (.mainsEdge i rising age) s = .next (bump (ctr 0x0007 0 i) s)) ∧
  (∀ (i : Fin 2) (rising : Bool) (age : Nat) (s : State), getF s (R.MP_FREQ i) F.MP_FREQ_STATE ≠ 0 → rising ≠ getB s (R.MP_CTL i) F.MP_CTL_EDGE →
      (∀ l, (getMains s i).lastEdge = some l → l + getF s (R.MP_CTL i) F.MP_CTL_HOLDOFF * 50000 ≤ s.time.ltick * 16 - 5 * age) →
      ∃ y, exec (.mainsEdge i rising age) s = .next (mainsEdge i age y) ∧ getMains y i = { getMains s i with lastEdge := some (s.time.ltick * 16 - 5 * age) } ∧
        (∀ k, k ≠ i.val → getMains y k = getMains s k) ∧ y = { s with field := { s.field with mains := y.field.mains } }) ∧
  (∀ (i age : Nat) (s : State), (getMains s i).first = true →
      ∃ y, mainsEdge i age s = judgeError i 0 y ∧ getReg y (R.MP_ERR i) = 0 ∧ (getMains y i).first = false ∧
        (getMains y i).phase = ((getReg s (R.MP_OFFSET i)).toNat * 2 ^ 16 + getF s (R.MP_FREQ i) F.MP_FREQ_FREQ * 2 ^ 32 * age / 1000000000) % 2 ^ 48 ∧
        (∀ k, k ≠ i → getMains y k = getMains s k) ∧ RegsBut [R.MP_ERR i] s y ∧ y = { s with regs := y.regs, field := { s.field with mains := y.field.mains } }) ∧
  (∀ (i : Nat) (err : Int) (s : State), let t := correctFreq i err s
      let bw := mainsBw s i
      65536 * 45 ≤ getF t (R.MP_FREQ i) F.MP_FREQ_FREQ ∧ getF t (R.MP_FREQ i) F.MP_FREQ_FREQ ≤ 65536 * 65 ∧
      (getMains t i).integ = clampInt ((freqMin * 2 ^ 32 : Nat) : Int) ((freqMax * 2 ^ 32 : Nat) : Int) ((getMains s i).integ + (Config.mainsKi bw : Int) * err) ∧
      (∀ k, k ≠ i → getMains t k = getMains s k) ∧ RegsBut [R.MP_FREQ i, R.MP_STAT i] s t ∧ t = { s with regs := t.regs, mon := { s.mon with counters := t.mon.counters }, integrity := { s.integrity with badWords := t.integrity.badWords }, field := { s.field with mains := t.field.mains } }) ∧
  (∀ (i : Fin 2) (s : State), (getF s (R.MP_FREQ i) F.MP_FREQ_STATE = 1 ∨ getF s (R.MP_FREQ i) F.MP_FREQ_STATE = 2 → exec (.mainsEdgeMissing i) s = .next (setMainsState i 3 s)) ∧
      (getF s (R.MP_FREQ i) F.MP_FREQ_STATE = 3 → exec (.mainsHoldMax i) s = .next (setMainsState i 1 s)))

/-- Target timeouts, ranks, quota and preemption on the local interconnect. A target that does not complete an access sets LI_STAT.TOUT, keeps
its address, ends the request, is counted and answers with LI_TIMEOUT; the bridge's piece fails with it, and a write of the monitor's
manifest ends the apply. A taken ARB_PRI write sets the rank; a lowered rank preempts a holder that an eligible requester now outranks, and
its request stays pending. ARB_QUOTA takes effect at the window's end, where every charge and mask clears. (spec: 06_local_interconnect.md) -/
def Obligations.InterconnectArbitration : Prop :=
  (∀ (n : Fin 24) (a : Word) (write : Bool) (s : State), let y := noteTimeout n a.toNat s
      (exec (.liTimeout n a write) s = .next (if n.val = 0 then (match y.bridge.current with | some c => failPiece c .liTimeout y | none => y)
          else if n.val = 1 ∧ write = true ∧ y.upd.apply.ended = false then failApply y
          else if n.val = 3 ∧ write = true then settleCopies (y.tracks.copies.drop 1) y
          else if n.val = 20 ∧ write = true then onBuses (fun b => { b with bursts := b.bursts.drop 1 }) y
          else if 4 ≤ n.val ∧ n.val ≤ 19 then timeoutRecord (n.val - 4) write y
          else y)) ∧
        getB y R.LI_STAT F.LI_STAT_TOUT = true ∧ getReg y R.LI_TOUT_ADDR = a ∧ y.resp = .err .liTimeout ∧ n.val ∉ y.arb.pendingReq ∧
        (n.val ≠ 0 ∨ getB s R.ARB_STAT F.ARB_STAT_LOCKED = false → y.arb.holder ≠ some n.val) ∧
        (∀ k, k ≠ n.val → (k ∈ y.arb.pendingReq ↔ k ∈ s.arb.pendingReq)) ∧
        getCtr y (ctr 0x0008 3 n) = (getCtr s (ctr 0x0008 3 n) + 1) % 2 ^ 48 ∧ RegsBut [R.LI_STAT, R.LI_TOUT_ADDR, R.ARB_STAT] s y ∧ y = { s with regs := y.regs, mon := { s.mon with counters := y.mon.counters }, integrity := { s.integrity with badWords := y.integrity.badWords }, arb := y.arb, resp := y.resp }) ∧
  (∀ (m : Master) (n : Fin 24) (v : Word) (s : State), Takes s m (R.ARB_PRI n) →
      let u := dropOverlap (R.ARB_PRI n) 4 s
      ∃ y, rankOf y n = F.ARB_PRI_RANK.get v ∧ OnlyRegs [R.ARB_PRI n] u y ∧
        exec (.arbPriWrite m n v) s = .next (answer .ok (if F.ARB_PRI_RANK.get v < rankOf u n then preempt n y else y))) ∧
  (∀ (n : Nat) (s : State),
      (s.arb.holder = some n → getB s R.ARB_STAT F.ARB_STAT_LOCKED = false → (∃ k, k < 24 ∧ k ≠ n ∧ eligible s k = true ∧ rankOf s n < rankOf s k) →
        ∃ y, preempt n s = arbDecide y ∧ y.arb.holder = none ∧ n ∈ y.arb.pendingReq ∧ getCtr y (ctr 0x0008 1 n) = (getCtr s (ctr 0x0008 1 n) + 1) % 2 ^ 48 ∧
          RegsBut [R.ARB_STAT] s y ∧ y = { s with regs := y.regs, mon := { s.mon with counters := y.mon.counters }, integrity := { s.integrity with badWords := y.integrity.badWords }, arb := y.arb }) ∧
      (s.arb.holder ≠ some n ∨ getB s R.ARB_STAT F.ARB_STAT_LOCKED = true ∨ (∀ k, k < 24 → k ≠ n → eligible s k = true → rankOf s k ≤ rankOf s n) → preempt n s = s)) ∧
  (∀ (m : Master) (v : Word) (s : State), Takes s m R.ARB_QUOTA →
      let u := dropOverlap R.ARB_QUOTA 4 s
      ∃ t, exec (.arbQuotaWrite m v) s = .next t ∧ t.resp = .ok ∧ getF t R.ARB_QUOTA F.ARB_QUOTA_Q = F.ARB_QUOTA_Q.get v ∧ quotaQ t = quotaQ u ∧ OnlyRegs [R.ARB_QUOTA] u t) ∧
  (∀ s : State, ∃ t, exec .quotaWindowEnd s = .next t ∧ t.arb = { s.arb with charged := [], masked := [], quotaInForce := getReg s R.ARB_QUOTA } ∧ t = { s with arb := t.arb })

/-- Entry, displacement and loss of notices; popping, flushing and configuring a queue. A waiting notice whose source has no uncommitted write
enters its queue: with room it is appended with its class's priority, its sequence number and the LOST mark; into a full queue it enters in
place of an item of lower priority or is lost, with OVF and a count either way; a queue whose pointer copies disagree is emptied first.
PH_POP delivers the next item, latches its other parts for the reader and removes it; PH_ITEM gives a latched part to its holder and TORN to
any other. FLUSH empties the queue; PH_CFG is written unless the region is not valid or in use. (spec: 06_local_interconnect.md) -/
def Obligations.NoticesEnterAndLeaveTheirQueues : Prop :=
  (∀ (cap : BitVec 16) (inst : BitVec 8) (w : Waiting) (rest : List Waiting) (s : State), (cap.toNat, inst.toNat) ∉ s.notices.uncommitted →
      takeWaiting cap.toNat inst.toNat s.notices.waiting = some (w, rest) → pointersAgree (getPh s w.queue) = true → getF s (R.PH_CFG w.queue) F.PH_CFG_EN ≠ 0 →
      let p := getPh s w.queue
      let lost := decide ((cap.toNat, inst.toNat) ∈ s.notices.srcLost)
      let it := { w.item with pri := phPriority s w.queue w.item.code }
      (p.items.length < phCapacity s w.queue → ∃ t, exec (.noticeEntry cap inst) s = .next t ∧ t.notices.waiting = rest ∧
        (getPh t w.queue).items = p.items ++ [{ it with seq := p.seq, lost := lost || p.lostNext }] ∧ (getPh t w.queue).seq = (p.seq + 1) % 2048 ∧
        (getPh t w.queue).lostNext = false ∧ (∀ q, q ≠ w.queue → getPh t q = getPh s q) ∧ t = { s with notices := t.notices }) ∧
      (phCapacity s w.queue ≤ p.items.length → lowestPri p.items < it.pri → ∃ t, exec (.noticeEntry cap inst) s = .next t ∧ t.notices.waiting = rest ∧
        (getPh t w.queue).items = dropYoungest (lowestPri p.items) p.items ++ [{ it with seq := p.seq, lost := true }] ∧
        getB t (R.PH_STAT w.queue) F.PH_STAT_OVF = true ∧ getCtr t (ctr 0x0009 0 w.queue) = (getCtr s (ctr 0x0009 0 w.queue) + 1) % 2 ^ 48 ∧
        (∀ q, q ≠ w.queue → getPh t q = getPh s q) ∧ RegsBut [R.PH_STAT w.queue] s t ∧ t = { s with regs := t.regs, mon := { s.mon with counters := t.mon.counters }, integrity := { s.integrity with badWords := t.integrity.badWords }, notices := t.notices }) ∧
      (phCapacity s w.queue ≤ p.items.length → it.pri ≤ lowestPri p.items → ∃ t, exec (.noticeEntry cap inst) s = .next t ∧ t.notices.waiting = rest ∧
        (getPh t w.queue).items = p.items ∧ (getPh t w.queue).lostNext = true ∧
        getB t (R.PH_STAT w.queue) F.PH_STAT_OVF = true ∧ getCtr t (ctr 0x0009 0 w.queue) = (getCtr s (ctr 0x0009 0 w.queue) + 1) % 2 ^ 48 ∧
        (∀ q, q ≠ w.queue → getPh t q = getPh s q) ∧ RegsBut [R.PH_STAT w.queue] s t ∧ t = { s with regs := t.regs, mon := { s.mon with counters := t.mon.counters }, integrity := { s.integrity with badWords := t.integrity.badWords }, notices := t.notices })) ∧
  (∀ (q : Nat) (s : State), (pointersAgree (getPh s q) = true → pointerCheck q s = s) ∧
      (pointersAgree (getPh s q) = false → q ≠ 0 → (getPh (pointerCheck q s) q).items = [] ∧ getCtr (pointerCheck q s) (ctr 0x0009 1 q) = (getCtr s (ctr 0x0009 1 q) + 1) % 2 ^ 48)) ∧
  (∀ (m : Master) (q : Fin 32) (bad : BitVec 2) (it : Item) (s : State), Reads s m (R.PH_POP q) → getB s (R.PH_CFG q) F.PH_CFG_SUB = false → pointersAgree (getPh s q) = true →
      nextItem (getPh s q).items = some it →
      let r := Resp.data ((lo32 (itemWord0 it)).zeroExtend 64) (bad.getLsbD 0)
      ∃ y, exec (.phPop m q bad) s = .next (answer r (coreMeets m r y)) ∧ (getPh y q).items = (getPh s q).items.erase it ∧
        (getPh y q).latch = some { tag := masterId s m, w1 := hi32 (itemWord0 it), w2 := lo32 it.pm, w3 := hi32 it.pm, read1 := false, read2 := false, read3 := false, isItem := true, bad := bad } ∧
        (∀ k, k ≠ q.val → getPh y k = getPh s k) ∧ y = { s with notices := { s.notices with queues := y.notices.queues } }) ∧
  (∀ (l : List Item) (it : Item), nextItem l = some it → it ∈ l ∧ ∀ x ∈ l, x.pri ≤ it.pri) ∧
  (∀ (m : Master) (q : Fin 32) (k : Fin 3) (l : PopLatch) (s : State), Reads s m (R.PH_ITEM q k) → (getPh s q).latch = some l → l.tag = masterId s m →
      let r := if k = 0 then Resp.data (l.w1.zeroExtend 64) (l.bad.getLsbD 0) else if k = 1 then .data (l.w2.zeroExtend 64) (l.bad.getLsbD 1) else .data (l.w3.zeroExtend 64) (l.bad.getLsbD 1)
      ∃ y, exec (.phItemRead m q k) s = .next (answer r (coreMeets m r y)) ∧
        (getPh y q).items = (getPh s q).items ∧
        (getPh y q).latch = some (if k = 0 then { l with read1 := true } else if k = 1 then { l with read2 := true } else { l with read3 := true }) ∧
        (∀ j, j ≠ q.val → getPh y j = getPh s j) ∧ y = { s with notices := { s.notices with queues := y.notices.queues } }) ∧
  (∀ (m : Master) (q : Fin 32) (k : Fin 3) (s : State), Reads s m (R.PH_ITEM q k) → (∀ l, (getPh s q).latch = some l → l.tag ≠ masterId s m) →
      ∃ t, exec (.phItemRead m q k) s = .next t ∧ t.resp = .data 0 false ∧ getB t (R.PH_STAT q) F.PH_STAT_TORN = true ∧ RegsBut [R.PH_STAT q] s t ∧ t = { s with regs := t.regs, resp := t.resp }) ∧
  (∀ (m : Master) (q : Fin 32) (v : Word) (s : State), Takes s m (R.PH_CTL q) →
      let u := dropOverlap (R.PH_CTL q) 4 s
      ∃ t, exec (.flush m q v) s = .next t ∧ t.resp = .ok ∧ (getPh t q).items = [] ∧ (getPh t q).rd = (getPh u q).wr ∧ (getPh t q).rdCopy = (getPh u q).wrCopy ∧
        (∀ l, (getPh u q).latch = some l → l.isItem = true → (l.read1 && l.read2 && l.read3) = false → getB t (R.PH_STAT q) F.PH_STAT_FLUSHED = true) ∧
        (∀ j, j ≠ q.val → getPh t j = getPh u j) ∧ RegsBut [R.PH_CTL q, R.PH_STAT q] u t ∧ t = { u with regs := t.regs, mon := { u.mon with counters := t.mon.counters }, integrity := { u.integrity with badWords := t.integrity.badWords }, notices := { u.notices with queues := t.notices.queues }, resp := t.resp }) ∧
  (∀ (m : Master) (q : Fin 32) (v : Word) (s : State), Takes s m (R.PH_CFG q) →
      let u := dropOverlap (R.PH_CFG q) 4 s
      (phCfgRefused u q v = true → ∃ t, exec (.phCfgWrite m q v) s = .next t ∧ t.resp = .ok ∧ getB t (R.PH_STAT q) F.PH_STAT_CFGREF = true ∧ OnlyRegs [R.PH_STAT q] u t) ∧
      (phCfgRefused u q v = false → F.PH_CFG_EN.get v = 1 → ∃ t, exec (.phCfgWrite m q v) s = .next t ∧ t.resp = .ok ∧ getF t (R.PH_CFG q) F.PH_CFG_EN = 1 ∧
        getF t (R.PH_CFG q) F.PH_CFG_BASE = F.PH_CFG_BASE.get v ∧ getF t (R.PH_CFG q) F.PH_CFG_SIZE = F.PH_CFG_SIZE.get v ∧ OnlyRegs [R.PH_CFG q] u t) ∧
      (phCfgRefused u q v = false → F.PH_CFG_EN.get v = 0 → ∃ t, exec (.phCfgWrite m q v) s = .next t ∧ t.resp = .ok ∧ getF t (R.PH_CFG q) F.PH_CFG_EN = 0 ∧
        (getPh t q).items = [] ∧ RegsBut [R.PH_CFG q, R.PH_STAT q] u t ∧ t = { u with regs := t.regs, mon := { u.mon with counters := t.mon.counters }, integrity := { u.integrity with badWords := t.integrity.badWords }, notices := { u.notices with queues := t.notices.queues }, resp := t.resp })) ∧
  (∀ (m : Master) (w : DWord) (s : State), coreMeets m (.data w false) s = s)

/-- A subscribed queue's batch is built into a NOTICE envelope and released once its fences open. A subscribed queue with a valid destination
and items, outside quarantine and a test of its array, builds one NOTICE envelope of its batch in read order, two words an item, when the
destination has a port and the buffers have room; the items leave the queue and their pointer moves. The built envelope is originated once
every fence of it is open, and it then leaves the queue. (spec: 06_local_interconnect.md) -/
def Obligations.NoticeEnvelopesCarryBatches : Prop :=
  (∀ (q : Fin 32) (bad : BitVec 32) (s : State), pointersAgree (getPh s q) = true → getB s (R.PH_CFG q) F.PH_CFG_SUB = true → getB s (R.PH_DST q) F.PH_DST_VALID = true → (getPh s q).items ≠ [] → (getPh s q).built = none →
      quarantined s = false → underTest s 0x70 = false →
      let p := getPh s q
      let its := inReadOrder (batchOf s q) p.items
      let cls := classOrUrgent (getF s (R.PH_DST q) F.PH_DST_CLASS)
      let e0 := build s cls kNotice (getB s (R.PH_DST q) F.PH_DST_MC) (getF s (R.PH_DST q) F.PH_DST_DST) (getF s R.BR_HOPS F.BR_HOPS_HOPS) (its.flatMap (fun it => [itemWord0 it, it.pm]))
      (e0.mc = true ∨ originTargets s e0 ≠ [] ∨ standbyHub s = true) → hasRoom s 7 cls (cellsOf e0) = true →
      ∃ t e, exec (.noticeEnvelopeBuild q bad) s = .next t ∧
        getPh t q = { p with items := its.foldl (fun l it => l.erase it) p.items, built := some e, rd := (p.rd + its.length) % phCapacity s q, rdCopy := (p.rdCopy + its.length) % phCapacity s q } ∧
        e.kind = kNotice ∧ e.payload = its.flatMap (fun it => [itemWord0 it, it.pm]) ∧ e.addr = BitVec.ofNat 48 (regs64 s (R.PH_DADDR_LO q) (R.PH_DADDR_HI q)) ∧
        e.poison = bad &&& BitVec.ofNat 32 (2 ^ (2 * its.length) - 1) ∧ e.dst = e0.dst ∧ e.mc = e0.mc ∧
        (∀ k, k ≠ q.val → getPh t k = getPh s k) ∧ t = { s with notices := { s.notices with queues := t.notices.queues }, bridge := { s.bridge with fenceSlots := t.bridge.fenceSlots, fenceChans := t.bridge.fenceChans, fenceWait := t.bridge.fenceWait } }) ∧
  (∀ (q : Fin 32) (e : Envelope) (s : State), (getPh s q).built = some e → underTest s 0x70 = false →
      (∀ f ∈ s.bridge.fenceSlots, f.1 = q.val → fenceOpen s f = true) → (∀ f ∈ s.bridge.fenceChans ++ s.bridge.fenceWait, f.1 ≠ q.val) →
      let r := originate 7 (withCrcs { e with stamp := BitVec.ofNat 32 (nowNs s) }) s
      (r.2 = .accepted → ∃ t, exec (.noticeEnvelopeRelease q) s = .next t ∧ getPh t q = { getPh r.1 q with built := none } ∧ t.bridge.fenceSlots = r.1.bridge.fenceSlots.filter (fun f => f.1 ≠ q.val) ∧
        (∀ k, k ≠ q.val → getPh t k = getPh r.1 k) ∧ t = { r.1 with notices := { r.1.notices with queues := t.notices.queues }, bridge := { r.1.bridge with fenceSlots := t.bridge.fenceSlots } }) ∧
      (r.2 ≠ .accepted → exec (.noticeEnvelopeRelease q) s = .next r.1))

/-- Requests queue in the bridge, and the next one is checked and started. A request of each kind that arrives outside quarantine and finds room
is queued under the master ID of its SRC and TAG, and starts at once when nothing else waits; a LOCK_READ whose master waits for a lock is
refused with LOCK_ORDER. INBOUND_START and LOCK_WAITER_GRANT start the next request or waiter. A start refuses what is malformed (with
BADREQ), out of its locked sequence, or not prefetchable; any other request is split into pieces and becomes the current one. (spec:
07_post_office_bridge.md) -/
def Obligations.RequestsArriveAndStart : Prop :=
  (∀ (k : BitVec 5) (e : Envelope) (s : State), let f := asKind k e
      quarantined s = false → s.bridge.inbound.length + bit1 s.bridge.current.isSome < 32 → poisonMismatch f = false →
      (k = kLockRead → ∀ w ∈ s.bridge.waiters ++ s.bridge.ready, w.id ≠ f.src ++ f.tag.extractLsb' 7 4) →
      let u := takeDelivered f s
      ∃ y, y.bridge.inbound = s.bridge.inbound ++ [{ env := f, id := f.src ++ f.tag.extractLsb' 7 4 }] ∧ y = { u with bridge := { u.bridge with inbound := y.bridge.inbound } } ∧
        (let t := if s.bridge.inbound = [] ∧ waiterDue y = false then startNext y else y
         (k = kWriteP → exec (.writeP e) s = .next t) ∧ (k = kWriteA → exec (.writeA e) s = .next t) ∧ (k = kRead → exec (.read e) s = .next t) ∧
         (k = kLockRead → exec (.lockRead e) s = .next t) ∧ (k = kUnlockWrite → exec (.unlockWrite e) s = .next t))) ∧
  (∀ (e : Envelope) (s : State), let f := asKind kLockRead e
      quarantined s = false → s.bridge.inbound.length + bit1 s.bridge.current.isSome < 32 → poisonMismatch f = false →
      (∃ w ∈ s.bridge.waiters ++ s.bridge.ready, w.id = f.src ++ f.tag.extractLsb' 7 4) → exec (.lockRead e) s = .next (refuseWhole .lockOrder f (takeDelivered f s))) ∧
  (∀ (r : Request) (s : State), bridgeIdle s = true → waiterDue s = false → nextRequest s = some r →
      ∃ y, exec .inboundStart s = .next (startRequest r y) ∧ y.bridge.inbound = s.bridge.inbound.erase r ∧
        (startClass r = 2 → y.bridge.passed = 0) ∧ y = { s with bridge := { s.bridge with inbound := y.bridge.inbound, passed := y.bridge.passed } }) ∧
  (∀ (r : Request) (rest : List Request) (s : State), bridgeIdle s = true →
      (s.bridge.ready = r :: rest → ∃ y, exec .lockWaiterGrant s = .next (perform r y) ∧ exec .inboundStart s = .next (perform r y) ∧ y = { s with bridge := { s.bridge with ready := rest } }) ∧
      (s.bridge.ready = [] → nextLocker s none = some r →
        ∃ l y, l.holder = r.id ∧ l.page = pageOf (addrOf r.env) ∧ l.env = r.env ∧ l.sem = (if serviceMode s = 1 then freeSemaphore s else none) ∧ l.begun = false ∧
        exec .lockWaiterGrant s = .next (perform r (takeLock l y)) ∧ exec .inboundStart s = .next (perform r (takeLock l y)) ∧
        y.bridge.waiters = s.bridge.waiters.erase r ∧ y = { s with bridge := { s.bridge with waiters := y.bridge.waiters } })) ∧
  (∀ (l : Lock) (s : State), (takeLock l s).bridge.locks = s.bridge.locks ++ [l] ∧
      getB (takeLock l s) R.ARB_STAT F.ARB_STAT_LOCKED = grantStands (takeLock l s) ∧ RegsBut [R.ARB_STAT] s (takeLock l s) ∧ (takeLock l s) = { s with regs := (takeLock l s).regs, mon := { s.mon with counters := (takeLock l s).mon.counters }, integrity := { s.integrity with badWords := (takeLock l s).integrity.badWords }, bridge := { s.bridge with locks := (takeLock l s).bridge.locks }, arb := (takeLock l s).arb }) ∧
  (∀ (r : Request) (s : State), let ps := piecesFrom (bytesOf r.env) (bytesOf r.env) (addrOf r.env) (bytesOf r.env)
      let c : Current := { env := r.env, id := r.id, pieces := ps, done := 0, bytes := [], poison := 0, locked := lockFlagged r.env }
      (perform r s).bridge.current = some c ∧
      getCtr (perform r s) (ctr 0x000A 0 0) = (getCtr s (ctr 0x000A 0 0) + 1) % 2 ^ 48 ∧
      (∀ p rest, ps = p :: rest → needsGrant s c p.1 = true → 0 ∈ (perform r s).arb.pendingReq ∨ (perform r s).arb.holder = some 0) ∧
      (perform r s) = { s with mon := { s.mon with counters := (perform r s).mon.counters }, bridge := { s.bridge with current := (perform r s).bridge.current }, arb := { s.arb with pendingReq := (perform r s).arb.pendingReq } }) ∧
  (∀ (r : Request) (s : State), let d := dropReader r.id (addrOf r.env) (bytesOf r.env) s
      (∀ w, malformed r.env = some w → (r.env.mc = false ∨ r.env.kind = kWriteP) → startRequest r s = refuseWhole w r.env (setB s R.BR_STAT F.BR_STAT_BADREQ true)) ∧
      (∀ w, malformed r.env = some w → r.env.mc = true → r.env.kind ≠ kWriteP → startRequest r s = bump (ctr 0x000A 12 0) (setB s R.BR_STAT F.BR_STAT_BADREQ true)) ∧
      (malformed r.env = none → lockFlagged r.env = false → r.env.kind ≠ kRead → startRequest r s = perform r s) ∧
      (malformed r.env = none → lockFlagged r.env = true → r.env.kind ≠ kLockRead → r.env.kind ≠ kRead → inSequence s r = false → startRequest r s = refuseWhole .lockOrder r.env s) ∧
      (malformed r.env = none → lockFlagged r.env = true → r.env.kind ≠ kLockRead → r.env.kind ≠ kRead → inSequence s r = true → startRequest r s = perform r s) ∧
      (malformed r.env = none → r.env.kind = kLockRead → startRequest r s = startLockRead r s) ∧
      (malformed r.env = none → r.env.kind = kRead → r.env.lock = false → r.env.prefetch = true → allPrefetchable d (addrOf r.env) (bytesOf r.env) = false → startRequest r s = refuseWhole .noPrefetch r.env d) ∧
      (malformed r.env = none → r.env.kind = kRead → r.env.lock = false → (r.env.prefetch = false ∨ allPrefetchable d (addrOf r.env) (bytesOf r.env) = true) → hitBuffer d r.id (addrOf r.env) (bytesOf r.env) = none → startRequest r s = perform r d) ∧
      (∀ k b, malformed r.env = none → r.env.kind = kRead → r.env.lock = false → (r.env.prefetch = false ∨ allPrefetchable d (addrOf r.env) (bytesOf r.env) = true) → hitBuffer d r.id (addrOf r.env) (bytesOf r.env) = some (k, b) → startRequest r s = answerBuffer r.id k b r.env (bump (ctr 0x000A 0 0) d)))

/-- The pieces of the current request, its answer, lock timeouts and read-ahead expiry. INBOUND_PIECE performs the next piece of the current
request unless it must wait: a write piece's beats are applied or none is, a read piece's bytes are gathered, and the request then goes on
or finishes; a piece that is refused ends the request with the piece's reason, or with SPLIT_PARTIAL after applied pieces. A lock that times
out is released, counted and reported to its holder unless its UNLOCK_WRITE is under way. A read-ahead buffer whose hold expires is
discarded. (spec: 07_post_office_bridge.md) -/
def Obligations.PiecesArePerformedInOrder : Prop :=
  (∀ (bad : BitVec 2) (found : Found) (c : Current) (p : Nat × Nat) (ps : List (Nat × Nat)) (s : State), s.bridge.current = some c → c.pieces = p :: ps → lostLock s c = false → pieceHeld s c p.1 = false →
      carriesData c.env.kind = true → (needsGrant s c p.1 = true → holds (acquire 0 s) 0 = true) →
      let v := if needsGrant s c p.1 = true then acquire 0 s else s
      (∀ t r, writePiece c p v = (t, some r) → exec (.inboundPiece bad found) s = .next (failPiece c r t)) ∧
      (∀ t, writePiece c p v = (t, none) → (endRequest 0 t).bridge.current.isSome = true →
        let c' : Current := { c with pieces := ps, done := c.done + 1 }
        let y := bump (ctr 0x000A 2 0) (endRequest 0 t)
        exec (.inboundPiece bad found) s = .next (if ps = [] then finishRequest c' y else askPiece c' (onBridge (fun b => { b with current := some c' }) y)))) ∧
  (∀ (bad : BitVec 2) (found : Found) (c : Current) (p : Nat × Nat) (ps : List (Nat × Nat)) (s : State), s.bridge.current = some c → c.pieces = p :: ps → lostLock s c = false → pieceHeld s c p.1 = false →
      carriesData c.env.kind = false → (needsGrant s c p.1 = true → holds (acquire 0 s) 0 = true) →
      let v := if needsGrant s c p.1 = true then acquire 0 s else s
      let w := openBeat found (beatsOf p.1 p.2).length (if c.env.kind = kLockRead ∧ c.done = 0 then beginLock c.id v else v)
      (∀ t r, readBeats c.id c.locked bad found w.1 (beatsOf p.1 p.2) w.2 = (t, .error r) → exec (.inboundPiece bad found) s = .next (failPiece c r t)) ∧
      (∀ t ds, readBeats c.id c.locked bad found w.1 (beatsOf p.1 p.2) w.2 = (t, .ok ds) → (endRequest 0 t).bridge.current.isSome = true →
        let c' : Current := { c with pieces := ps, done := c.done + 1, bytes := c.bytes ++ ds.flatMap (fun d => d.1), poison := c.poison ||| beatPoison (addrOf c.env) (beatsOf p.1 p.2) ds }
        let y := bump (ctr 0x000A 2 0) (endRequest 0 t)
        exec (.inboundPiece bad found) s = .next (if ps = [] then finishRequest c' y else askPiece c' (onBridge (fun b => { b with current := some c' }) y)))) ∧
  (∀ (c : Current) (r : Reason) (s : State), endsLock c true = false →
      ∃ y, y.bridge.current = none ∧ 0 ∉ y.arb.pendingReq ∧ RegsBut [R.ARB_STAT] s y ∧ y = { s with regs := y.regs, bridge := { s.bridge with current := y.bridge.current }, arb := y.arb } ∧ (c.done = 0 → failPiece c r s = refuseWhole r c.env y) ∧
        (c.done ≠ 0 → ∃ d p, failPiece c r s = refuseRequest Reason.splitPartial.code r.code c.done d p c.env y ∧ (carriesData c.env.kind = true → d = (ndnData c.env).1))) ∧
  (∀ (holder : MasterId) (l : Lock) (s : State), lockOf s holder = some l → l.begun = true → unlocking s holder = false →
      let v := showLock (onBridge (fun b => { b with locks := b.locks.filter (fun k => k.holder ≠ holder) }) s)
      ∃ y, exec (.lockTimeout holder) s = .next (sendNdn Reason.lockTimeout.code 0 0 0 false l.env y) ∧ getCtr y (ctr 0x000A 7 0) = (getCtr s (ctr 0x000A 7 0) + 1) % 2 ^ 48 ∧
        (nextLocker v (l.sem.map (fun _ => l.page)) = none → y.bridge.locks = s.bridge.locks.filter (fun k => k.holder ≠ holder) ∧ lockOf y holder = none ∧ y.bridge.waiters = s.bridge.waiters ∧ y.bridge.ready = s.bridge.ready) ∧
        (∀ w, nextLocker v (l.sem.map (fun _ => l.page)) = some w → y.bridge.waiters = s.bridge.waiters.erase w ∧ y.bridge.ready = s.bridge.ready ++ [w] ∧
          ∃ k, y.bridge.locks = s.bridge.locks.filter (fun k => k.holder ≠ holder) ++ [k] ∧ k.holder = w.id ∧ k.page = pageOf (addrOf w.env) ∧ k.begun = false) ∧ RegsBut [R.ARB_STAT] s y ∧ y = { s with regs := y.regs, mon := { s.mon with counters := y.mon.counters }, integrity := { s.integrity with badWords := y.integrity.badWords }, bridge := { s.bridge with locks := y.bridge.locks, waiters := y.bridge.waiters, ready := y.bridge.ready }, arb := y.arb }) ∧
  (∀ (k : Fin 4) (b : ReadAhead) (s : State), getBuf s k = some b → 
      ∃ y, exec (.prefetchHoldExpiry k) s = .next (discardBuffer 0 b y) ∧ getBuf y k = none ∧ (∀ j, j ≠ k.val → getBuf y j = getBuf s j) ∧ y = { s with bridge := { s.bridge with buffers := y.bridge.buffers } }) ∧
  (∀ (holder : MasterId) (l : Lock) (s : State), lockOf s holder = some l → l.begun = false ∨ unlocking s holder = true → exec (.lockTimeout holder) s = .next s) ∧
  (∀ (bad : BitVec 2) (found : Found) (c : Current) (p : Nat × Nat) (ps : List (Nat × Nat)) (s : State), s.bridge.current = some c → c.pieces = p :: ps →
      (lostLock s c = true → exec (.inboundPiece bad found) s = .next (failPiece c .lockOrder s)) ∧
      (lostLock s c = false → pieceHeld s c p.1 = true → exec (.inboundPiece bad found) s = .next s) ∧
      (lostLock s c = false → pieceHeld s c p.1 = false → needsGrant s c p.1 = true → holds (acquire 0 s) 0 = false → exec (.inboundPiece bad found) s = .next (acquire 0 s)))

/-- Outbound channels: GO, acceptance, answers, timeouts and quarantine of tags. A taken write of BR_OC_CMD with GO whose settings are in order
writes the register and issues the request; any other only sets CFGREF. A request without a route ends its channel with NO_ROUTE; a posted
one takes the next posted tag of its master and a non-posted one, or a posted one converted because its master's notices go to the same
destination in another class, the lowest free slot with its generation raised, or waits for one. CHANNEL_ACCEPTED hands a waiting envelope
to the sorting office. An answer is judged, and counted where POISON and POISON_ANY disagree; an NDN not of two words is counted as
malformed. One that fits its slot quarantines it and ends the channel in DONE, or in ERROR with the NDN's reason, cause and pieces, and one
to a slot that is free or quarantined is a late letter. A timeout of a dispatched request quarantines the slot and ends its channel with
TIMEOUT; a slot leaves quarantine free, with its generation. (spec: 07_post_office_bridge.md) -/
def Obligations.ChannelsIssueAndCompleteRequests : Prop :=
  (∀ (m : Master) (c : Fin 4) (v : Word) (s : State), Takes s m (R.BR_OC_CMD c) →
      let u := dropOverlap (R.BR_OC_CMD c) 4 s
      let w := F.BR_OC_CMD_GO.put v 1
      (goRefused u c w = true → ∃ t, exec (.channelGo m c v) s = .next t ∧ t.resp = .ok ∧ getB t R.BR_STAT F.BR_STAT_CFGREF = true ∧ OnlyRegs [R.BR_STAT] (declineWrite (R.BR_OC_CMD c) w u) t) ∧
      (goRefused u c w = false → ∃ y, exec (.channelGo m c v) s = .next (answer .ok (issue c (F.BR_OC_CMD_NTC.get v = 1) y)) ∧
        getF y (R.BR_OC_CMD c) F.BR_OC_CMD_KIND = F.BR_OC_CMD_KIND.get v ∧ getF y (R.BR_OC_CMD c) F.BR_OC_CMD_BYTES = F.BR_OC_CMD_BYTES.get v ∧
        getF y (R.BR_OC_CMD c) F.BR_OC_CMD_CLASS = F.BR_OC_CMD_CLASS.get v ∧ OnlyRegs [R.BR_OC_CMD c] u y)) ∧
  (∀ (c : Nat) (ntc : Bool) (s : State), c < 4 →
      let e := requestOf s c
      let mi := ownerOf s c
      (e.mc = false → originTargets s e = [] → ∃ y, issue c ntc s = endChannel c 3 Reason.noRoute.code 0 0 y ∧ getB y R.RT_STAT F.RT_STAT_NOROUTE = true ∧
        getCtr y (ctr 0x000E 1 0) = (getCtr s (ctr 0x000E 1 0) + 1) % 2 ^ 48 ∧ (getChan y c).ntc = ntc ∧ RegsBut [R.RT_STAT, R.BR_OC_STAT c] s y ∧ y = { s with regs := y.regs, mon := { s.mon with counters := y.mon.counters }, integrity := { s.integrity with badWords := y.integrity.badWords }, bridge := { s.bridge with chan := y.bridge.chan } }) ∧
      (e.mc = true ∨ originTargets s e ≠ [] →
        (e.kind = kWriteP → (e.mc = true ∨ noticesElsewhere s mi e.dst.toNat e.mc e.cls.toNat = false) →
          ∃ i g, i = 512 + mi * 32 + tabGet (fun _ => 0) s.bridge.postedNext mi ∧ g = (tabGet (fun _ => 0) s.bridge.postedGen (i - 512) + 1) % 4 ∧
            (getChan (issue c ntc s) c).waiting = some { e with tag := tagOf i g } ∧ (getChan (issue c ntc s) c).poison = (getChan s c).poison ∧ chanState (issue c ntc s) c = 1 ∧
            (∀ k, k ≠ c → getChan (issue c ntc s) k = getChan s k) ∧ RegsBut [R.BR_OC_STAT c, R.BR_OC_TAG c] s (issue c ntc s) ∧ (issue c ntc s) = { s with regs := (issue c ntc s).regs, mon := { s.mon with counters := (issue c ntc s).mon.counters }, integrity := { s.integrity with badWords := (issue c ntc s).integrity.badWords }, bridge := (issue c ntc s).bridge }) ∧
        (∀ i, e.kind ≠ kWriteP → freeSlot s mi = some i → 
            getSlot (issue c ntc s) i = { gen := ((getSlot s i).gen + 1) % 4, use := .out (some c) e.dst e.cls e.kind } ∧
            (getChan (issue c ntc s) c).waiting = some { e with tag := tagOf i (((getSlot s i).gen + 1) % 4) } ∧ chanState (issue c ntc s) c = 1 ∧
            (∀ k, k ≠ i → getSlot (issue c ntc s) k = getSlot s k) ∧
            (∀ k, k ≠ c → getChan (issue c ntc s) k = getChan s k) ∧ RegsBut [R.BR_OC_STAT c, R.BR_OC_TAG c] s (issue c ntc s) ∧ (issue c ntc s) = { s with regs := (issue c ntc s).regs, mon := { s.mon with counters := (issue c ntc s).mon.counters }, integrity := { s.integrity with badWords := (issue c ntc s).integrity.badWords }, bridge := (issue c ntc s).bridge }) ∧
        (e.kind ≠ kWriteP → freeSlot s mi = none → (getChan (issue c ntc s) c).waiting = some e ∧ (getChan (issue c ntc s) c).needSlot = true ∧
            chanState (issue c ntc s) c = 1 ∧ RegsBut [R.BR_OC_STAT c] s (issue c ntc s) ∧ (issue c ntc s) = { s with regs := (issue c ntc s).regs, mon := { s.mon with counters := (issue c ntc s).mon.counters }, integrity := { s.integrity with badWords := (issue c ntc s).integrity.badWords }, bridge := { s.bridge with chan := (issue c ntc s).bridge.chan } }) ∧
        (∀ i, e.kind = kWriteP → e.mc = false → noticesElsewhere s mi e.dst.toNat e.mc e.cls.toNat = true → freeSlot s mi = some i →
            getSlot (issue c ntc s) i = { gen := ((getSlot s i).gen + 1) % 4, use := .out none e.dst e.cls kWriteA } ∧ (getChan (issue c ntc s) c).converted = true ∧
            (getChan (issue c ntc s) c).waiting = some { e with kind := kWriteA, tag := tagOf i (((getSlot s i).gen + 1) % 4) } ∧ chanState (issue c ntc s) c = 1 ∧
            getCtr (issue c ntc s) (ctr 0x000A 8 0) = (getCtr s (ctr 0x000A 8 0) + 1) % 2 ^ 48 ∧ RegsBut [R.BR_OC_STAT c, R.BR_OC_TAG c] s (issue c ntc s) ∧ (issue c ntc s) = { s with regs := (issue c ntc s).regs, mon := { s.mon with counters := (issue c ntc s).mon.counters }, integrity := { s.integrity with badWords := (issue c ntc s).integrity.badWords }, bridge := (issue c ntc s).bridge }))) ∧
  (∀ (c : Fin 4) (e : Envelope) (s : State), (getChan s c).waiting = some e → (getChan s c).needSlot = false → underTest s 0x70 = false →
      let e' := withCrcs { e with stamp := BitVec.ofNat 32 (nowNs s) }
      let r := originate 3 e' s
      (r.2 = .noRoom → exec (.channelAccepted c) s = .next r.1) ∧
      (r.2 = .noRoute → exec (.channelAccepted c) s = .next (endChannel c 3 Reason.noRoute.code 0 0 (match (getChan s c).slot with | some i => setSlot i { getSlot r.1 i with use := .quarantine } r.1 | none => r.1))) ∧
      (r.2 = .accepted → e.kind ≠ kWriteP → (getChan s c).converted = false → ∃ t, exec (.channelAccepted c) s = .next t ∧ getChan t c = { getChan r.1 c with waiting := none } ∧
        (∀ k, k ≠ c.val → getChan t k = getChan r.1 k) ∧ t = { r.1 with bridge := { r.1.bridge with chan := t.bridge.chan, fenceChans := t.bridge.fenceChans, fenceWait := t.bridge.fenceWait } }) ∧
      (r.2 = .accepted → e.kind = kWriteP → ∃ t, exec (.channelAccepted c) s = .next t ∧ getChan t c = { getChan r.1 c with waiting := none, slot := none } ∧
        chanState t c = 0 ∧ tabGet (fun _ => none) t.bridge.postedStamp (e.tag.toNat / 4 * 4 + e.tag.toNat % 4) = some e'.stamp ∧
        (∀ k, k ≠ c.val → getChan t k = getChan r.1 k) ∧ RegsBut [R.BR_OC_STAT c] r.1 t ∧ t = { r.1 with regs := t.regs, bridge := t.bridge }) ∧
      (r.2 = .accepted → e.kind ≠ kWriteP → (getChan s c).converted = true → ∃ t, exec (.channelAccepted c) s = .next t ∧ getChan t c = { getChan r.1 c with waiting := none, slot := none } ∧
        chanState t c = 0 ∧ (∀ k, k ≠ c.val → getChan t k = getChan r.1 k) ∧ RegsBut [R.BR_OC_STAT c] r.1 t ∧ t = { r.1 with regs := t.regs, bridge := t.bridge })) ∧
  (∀ (kind : BitVec 5) (e : Envelope) (c : Nat) (dst : BitVec 16) (cls : BitVec 2) (k : BitVec 5) (s : State), let f := asKind kind e
      f.tag.toNat / 4 < 512 →
      let i := f.tag.toNat / 4
      let d := takeDelivered f s
      let u := if poisonMismatch f = true then bump (ctr 0x000B 7 0) d else d
      (getSlot u i).use = .out (some c) dst cls k → (getSlot u i).gen = f.tag.toNat % 4 → f.src = dst →
      ∃ y, getSlot y i = { getSlot u i with use := .quarantine } ∧ (∀ j, j ≠ i → getSlot y j = getSlot u j) ∧ y = { u with bridge := { u.bridge with np := y.bridge.np } } ∧
        (kind = kWriteAck → exec (.writeAck e) s = .next (endChannel c 2 0 0 0 y)) ∧
        (kind = kReadData → exec (.readData e) s = .next (endChannel c 2 0 0 0 (landData c f y))) ∧
        (kind = kNdn → f.lenw = 2 → exec (.ndn e) s = .next (endChannel c 3 (bitsOf (payloadWord f 0).toNat 0 8) (bitsOf (payloadWord f 0).toNat 8 8) (bitsOf (payloadWord f 0).toNat 16 8) y))) ∧
  (∀ (e : Envelope) (s : State),
      let u := fun (f : Envelope) => if poisonMismatch f = true then bump (ctr 0x000B 7 0) (takeDelivered f s) else takeDelivered f s
      exec (.writeAck e) s = .next (judgeAnswer (asKind kWriteAck e) (u (asKind kWriteAck e))) ∧ exec (.readData e) s = .next (judgeAnswer (asKind kReadData e) (u (asKind kReadData e))) ∧
      (e.lenw = 2 → exec (.ndn e) s = .next (judgeAnswer (asKind kNdn e) (u (asKind kNdn e)))) ∧ (e.lenw ≠ 2 → exec (.ndn e) s = .next (bump (ctr 0x000B 0 0) (u (asKind kNdn e))))) ∧
  (∀ (c st reason cause pieces : Nat) (s : State), st < 4 → reason < 256 → cause < 256 → pieces < 256 →
      ∃ t, endChannel c st reason cause pieces s = (if (getChan s c).ntc = true then postOpen (getF s R.BR_CTL F.BR_CTL_NTC_Q) 0x000A 0 t else t) ∧
        chanState t c = st ∧ getF t (R.BR_OC_STAT c) F.BR_OC_STAT_REASON = reason ∧ getF t (R.BR_OC_STAT c) F.BR_OC_STAT_CAUSE = cause ∧
        getF t (R.BR_OC_STAT c) F.BR_OC_STAT_PIECES = pieces ∧ getChan t c = { getChan s c with waiting := none, slot := none, needSlot := false } ∧
        (∀ k, k ≠ c → getChan t k = getChan s k) ∧ RegsBut [R.BR_OC_STAT c] s t ∧ t = { s with regs := t.regs, bridge := { s.bridge with chan := t.bridge.chan, fenceChans := t.bridge.fenceChans, fenceWait := t.bridge.fenceWait } }) ∧
  (∀ (index : Fin 512) (chan : Option Nat) (dst : BitVec 16) (cls : BitVec 2) (k : BitVec 5) (s : State),
      (undispatched s index = true → exec (.responseTimeout index) s = .next s) ∧
      (undispatched s index = false → (getSlot s index).use = .out chan dst cls k →
      ∃ y, exec (.responseTimeout index) s = .next (match chan with | some c => endChannel c 3 Reason.timeout.code 0 0 y | none => y) ∧
        getSlot y index = { getSlot s index with use := .quarantine } ∧ (∀ j, j ≠ index.val → getSlot y j = getSlot s j) ∧ getB y R.BR_STAT F.BR_STAT_TOUT = true ∧
        getCtr y (ctr 0x000A 4 0) = (getCtr s (ctr 0x000A 4 0) + 1) % 2 ^ 48 ∧ RegsBut [R.BR_STAT] s y ∧ y = { s with regs := y.regs, mon := { s.mon with counters := y.mon.counters }, integrity := { s.integrity with badWords := y.integrity.badWords }, bridge := { s.bridge with np := y.bridge.np } })) ∧
  (∀ (index : Fin 512) (s : State), (getSlot s index).use = .quarantine →
      ∃ t, exec (.quarantineEnd index) s = .next t ∧ getSlot t index = { getSlot s index with use := .free } ∧ (∀ j, j ≠ index.val → getSlot t j = getSlot s j) ∧ t = { s with bridge := { s.bridge with np := t.bridge.np } }) ∧
  (∀ (kind : BitVec 5) (e : Envelope) (s : State), let f := asKind kind e
      f.tag.toNat / 4 < 512 →
      let i := f.tag.toNat / 4
      let d := takeDelivered f s
      let u := if poisonMismatch f = true then bump (ctr 0x000B 7 0) d else d
      ((getSlot u i).use = .free ∨ (getSlot u i).use = .quarantine) →
        (kind = kWriteAck → exec (.writeAck e) s = .next (logAnswer { late := true, stale := decide ((getSlot u i).gen ≠ f.tag.toNat % 4), ambiguous := false } f u)) ∧
        (kind = kReadData → exec (.readData e) s = .next (logAnswer { late := true, stale := decide ((getSlot u i).gen ≠ f.tag.toNat % 4), ambiguous := false } f u)) ∧
        (kind = kNdn → f.lenw = 2 → exec (.ndn e) s = .next (logAnswer { late := true, stale := decide ((getSlot u i).gen ≠ f.tag.toNat % 4), ambiguous := false } f u)))

/-- The dead-letter log, the freeing of both logs, and forwards. A record is written at HEAD in its eight words with its sequence number, or
lost with OVF and a count when 64 entries are held; the sequence number rises either way and the next record carries the loss. A taken write
of DL_TAIL or UP_TAIL frees entries up to the written TAIL, unless it would pass HEAD: then it only sets CFGREF. DL_FORWARD copies the next
entry into channel 2 and commands a 32-byte WRITE_P to DL_FADDR, at 32 times the record's number in a ring of 2 to the DEPTH. (spec:
08_dead_letters.md) -/
def Obligations.DeadLettersAreLoggedAndForwarded : Prop :=
  (∀ (v : Verdict) (e : Envelope) (s : State),
      let reason := if e.kind = kNdn then bitsOf (payloadWord e 0).toNat 0 8 else 0
      (dlLevel s = 64 → ∃ y, logRecord v e s = dlNotice 0x84 0x40 y ∧ getB y R.DL_STAT F.DL_STAT_OVF = true ∧ getCtr y (ctr 0x000B 2 0) = (getCtr s (ctr 0x000B 2 0) + 1) % 2 ^ 48 ∧
        y.dead = { s.dead with seq := (s.dead.seq + 1) % 65536, lostNext := true } ∧ RegsBut [R.DL_STAT] s y ∧ y = { s with regs := y.regs, mon := { s.mon with counters := y.mon.counters }, integrity := { s.integrity with badWords := y.integrity.badWords }, dead := y.dead }) ∧
      (dlLevel s ≠ 64 → ∃ y, logRecord v e s = dlNotice (if v.late then 0x82 else 0x81) (reason * 256 + dlHead s % 64) y ∧
        dlEntry y (dlHead s % 64) = dlWords s v s.dead.lostNext e ∧ dlHead y = (dlHead s + 1) % 128 ∧ y.dead = { s.dead with seq := (s.dead.seq + 1) % 65536, lostNext := false, total := s.dead.total + 1 } ∧
        RegsBut [R.DL_HEAD, R.DL_ENT (dlHead s % 64) 0, R.DL_ENT (dlHead s % 64) 1, R.DL_ENT (dlHead s % 64) 2, R.DL_ENT (dlHead s % 64) 3, R.DL_ENT (dlHead s % 64) 4, R.DL_ENT (dlHead s % 64) 5, R.DL_ENT (dlHead s % 64) 6, R.DL_ENT (dlHead s % 64) 7] s y ∧ y = { s with regs := y.regs, mon := { s.mon with counters := y.mon.counters }, integrity := { s.integrity with badWords := y.integrity.badWords }, dead := y.dead })) ∧
  (∀ (m : Master) (v : Word) (s : State), Takes s m R.DL_TAIL →
      let u := dropOverlap R.DL_TAIL 4 s
      ((F.DL_TAIL_TAIL.get v + 128 - dlTail u) % 128 ≤ dlLevel u → ∃ t, exec (.dlTailWrite m v) s = .next t ∧ t.resp = .ok ∧ dlTail t = F.DL_TAIL_TAIL.get v ∧ OnlyRegs [R.DL_TAIL] u t) ∧
      (dlLevel u < (F.DL_TAIL_TAIL.get v + 128 - dlTail u) % 128 → ∃ t, exec (.dlTailWrite m v) s = .next t ∧ t.resp = .ok ∧ getB t R.DL_STAT F.DL_STAT_CFGREF = true ∧ OnlyRegs [R.DL_STAT] (declineWrite R.DL_TAIL v u) t)) ∧
  (∀ (m : Master) (v : Word) (s : State), Takes s m R.UP_TAIL →
      let u := dropOverlap R.UP_TAIL 4 s
      ((F.UP_TAIL_TAIL.get v + 32 - getF u R.UP_TAIL F.UP_TAIL_TAIL) % 32 ≤ upLevel u → ∃ t, exec (.upTailWrite m v) s = .next t ∧ t.resp = .ok ∧ getF t R.UP_TAIL F.UP_TAIL_TAIL = F.UP_TAIL_TAIL.get v ∧ OnlyRegs [R.UP_TAIL] u t) ∧
      (upLevel u < (F.UP_TAIL_TAIL.get v + 32 - getF u R.UP_TAIL F.UP_TAIL_TAIL) % 32 → ∃ t, exec (.upTailWrite m v) s = .next t ∧ t.resp = .ok ∧ getB t R.DL_STAT F.DL_STAT_CFGREF = true ∧ OnlyRegs [R.DL_STAT] (declineWrite R.UP_TAIL v u) t)) ∧
  (∀ s : State, getB s R.DL_FWD F.DL_FWD_VALID = true → chanState s 2 ≠ 1 → ownerOf s 2 = 5 → nextForward s < s.dead.total →
      let n := nextForward s
      let i := (dlHead s + 128 - (s.dead.total - n)) % 64
      let ws := dlEntry s i
      (bitsOf (getReg s (R.DL_ENT i 0)).toNat 7 4 ≠ 5 →
      ∃ y, exec .dlForward s = .next (writeOcCmd 2 (BitVec.ofNat 32 (1 + classOrUrgent (getF s R.DL_FWD F.DL_FWD_CLASS) * 2 ^ 5 + 32 * 2 ^ 10 + 2 ^ 31)) y) ∧
        y.dead = { s.dead with fwd := n + 1 } ∧ (∀ j, j < 8 → some (getReg y (R.BR_OC_DATA 2 j)) = ws[j]?) ∧ getReg y (R.BR_OC_DST 2) = getReg s R.DL_FWD &&& 0x1FFFF ∧
        getReg y (R.BR_OC_ADDR 2) = BitVec.ofNat 32 ((getReg s R.DL_FADDR).toNat + 32 * ((getReg s (R.DL_ENT i 2)).toNat / 65536 % 2 ^ min 8 (getF s R.DL_FWD F.DL_FWD_DEPTH))) ∧
        getChan y 2 = { getChan s 2 with poison := (getChan s 2).poison &&& ~~~(0xFF : BitVec 64) } ∧
        getCtr y (ctr 0x000B 4 0) = (getCtr s (ctr 0x000B 4 0) + (n - s.dead.fwd)) % 2 ^ 48 ∧
        RegsBut [R.BR_OC_DST 2, R.BR_OC_ADDR 2, R.BR_OC_DATA 2 0, R.BR_OC_DATA 2 1, R.BR_OC_DATA 2 2, R.BR_OC_DATA 2 3, R.BR_OC_DATA 2 4, R.BR_OC_DATA 2 5, R.BR_OC_DATA 2 6, R.BR_OC_DATA 2 7] s y ∧ y = { s with regs := y.regs, mon := { s.mon with counters := y.mon.counters }, integrity := { s.integrity with badWords := y.integrity.badWords }, dead := y.dead, bridge := { s.bridge with chan := y.bridge.chan } }) ∧
      (bitsOf (getReg s (R.DL_ENT i 0)).toNat 7 4 = 5 →
      ∃ t, exec .dlForward s = .next t ∧ t.dead = { s.dead with fwd := n + 1 } ∧ t = { s with dead := t.dead, mon := { s.mon with counters := t.mon.counters } }))

/-- What starts, stalls and ends at the outputs of the sorting office, and its reservations. An idle ring output of a port that is UP starts the
head of the class that is next, charges its cells against the credit and counts it in transit; one whose header is uncorrectable is dropped
instead. A sent envelope frees the output, is counted by class and port with its cells and blocks, and its target is dropped: the cells that
it still held there lose one pointer each, and the last target takes the envelope out of the buffers. A transmission whose cells are not yet
released stalls and is counted. An internal output hands a whole envelope to the unit that takes it, or shows the class that waits. A
pointer held 16 slots discards the missing envelope at that output, or passes over a number that no envelope owns. A taken write of SO_RES
or SO_POOL that keeps the pools in their limits is performed and returns what it raised as credit; what a lowered reservation still owes is
withheld from the next returns. (spec: 09_sorting_office.md) -/
def Obligations.OutputsStartAndFinishEnvelopes : Prop :=
  (∀ (o : Fin 3) (uncorr : BitVec 36) (ph : Fin 32) (c : Nat) (e : Stored) (s : State), portUp s o = true → sendingAt s o = none → nextClass s o = some c → headOf s o c = some e → badWords s e uncorr = [] →
      ∃ t, exec (.envelopeStart o uncorr ph) s = .next t ∧ sendingAt t o = some (e.id, outgoing e) ∧ (∀ k, k ≠ o.val → sendingAt t k = sendingAt s k) ∧
        (∀ k, tabGet (fun _ => 0) (getPort t o).sent k = if k = c ∧ c ≠ 0 then (tabGet (fun _ => 0) (getPort s o).sent c + e.cells) % 65536 else tabGet (fun _ => 0) (getPort s o).sent k) ∧
        (∀ k, tabGet (fun _ => 0) (getPort t o).inTransit k = if k = c then tabGet (fun _ => 0) (getPort s o).inTransit c + 1 else tabGet (fun _ => 0) (getPort s o).inTransit k) ∧
        getPort t o = { getPort s o with sent := (getPort t o).sent, inTransit := (getPort t o).inTransit, txMark := some (markAt s 0 ph) } ∧ (∀ k, k ≠ o.val → getPort t k = getPort s k) ∧
        (c = 2 → tabGet (fun _ => 0) t.office.passed o = 0) ∧ (e.inp < 3 → t.duplex = s.duplex) ∧ t = { s with mon := { s.mon with counters := t.mon.counters }, integrity := { s.integrity with badWords := t.integrity.badWords }, office := { s.office with sending := t.office.sending, passed := t.office.passed }, ports := t.ports, time := { s.time with net := t.time.net }, duplex := { s.duplex with txStep := t.duplex.txStep } }) ∧
  (∀ (o : Fin 3) (uncorr : BitVec 36) (id : Nat) (env : Envelope) (e : Stored) (s : State), sendingAt s o = some (id, env) → findStored s id = some e → e.whole = true → e.cells ≤ arrivedCells s o e →
      (∀ w ∈ badWords s e uncorr, w < 3 ∨ (w - 3 < env.lenw.toNat ∧ env.poison.getLsbD (w - 3) = true)) →
      ∃ y, exec (.envelopeSent o uncorr) s = .next (let z := dropTarget id o y; if (getPort z o).stampDue = true then sendStamp o z else z) ∧
        sendingAt y o = none ∧ (∀ k, k ≠ o.val → sendingAt y k = sendingAt s k) ∧ tabGet (fun _ => none) y.office.gone o = some env ∧
        getCtr y (ctr 0x000C 3 (8 * e.env.cls.toNat + o)) = (getCtr s (ctr 0x000C 3 (8 * e.env.cls.toNat + o)) + 1) % 2 ^ 48 ∧
        getCtr y (ctr 0x000C 2 (8 * e.env.cls.toNat + o)) = (getCtr s (ctr 0x000C 2 (8 * e.env.cls.toNat + o)) + e.cells) % 2 ^ 48 ∧
        getCtr y (ctr 0x000D 0 (8 * o)) = (getCtr s (ctr 0x000D 0 (8 * o)) + (4 + env.lenw.toNat)) % 2 ^ 48 ∧
        (payloadCheck env = .stomped → getCtr y (ctr 0x000C 4 o) = (getCtr s (ctr 0x000C 4 o) + 1) % 2 ^ 48) ∧
        (e.env.mc = true → getCtr y (ctr 0x000C 11 o) = (getCtr s (ctr 0x000C 11 o) + 1) % 2 ^ 48) ∧
        (∀ k, k ≠ o.val → getPort y k = getPort s k) ∧ y = { s with mon := { s.mon with counters := y.mon.counters }, integrity := { s.integrity with badWords := y.integrity.badWords }, office := { s.office with sending := y.office.sending, gone := y.office.gone }, ports := y.ports, node := { s.node with freeCount := y.node.freeCount } }) ∧
  (∀ (o : Fin 3) (id : Nat) (env : Envelope) (e : Stored) (s : State), sendingAt s o = some (id, env) → findStored s id = some e → arrivedCells s o e < e.cells →
      ∃ t e', exec (.outputStall o) s = .next t ∧ getB t R.SO_EVT F.SO_EVT_STALL = true ∧ getCtr t (ctr 0x000C 7 o) = (getCtr s (ctr 0x000C 7 o) + 1) % 2 ^ 48 ∧
        findStored t id = some e' ∧ leftAt e' o = arrivedCells s o e ∧ sendingAt t o = some (id, env) ∧ RegsBut [R.SO_EVT] s t ∧ t = { s with regs := t.regs, mon := { s.mon with counters := t.mon.counters }, integrity := { s.integrity with badWords := t.integrity.badWords }, office := { s.office with stored := t.office.stored, released := t.office.released }, ports := t.ports }) ∧
  (∀ (o : Fin 8) (i : Fin 8) (c : Fin 4) (s : State), (∃ h ∈ s.office.held, h.1.out = o.val ∧ h.1.inp = i.val ∧ h.1.cls = c.val ∧ 16 ≤ slotsSince s h.2) →
      let k := 32 * o.val + 4 * i.val + c.val
      let want := tabGet (fun _ => 0) s.office.expected k
      ∃ x y, exec (.reseqTimeout o i c) s = .next (soNotice 0x83 (o.val * 256 + i.val) y) ∧
        (∀ e, s.office.stored.find? (fun e => ownsNumber e o i c want) = some e →
          x = releaseHeld o i c 64 (onOffice (fun f => { f with expected := tabSet (fun _ => 0) f.expected k ((tabGet (fun _ => 0) e.first o.val + e.handed) % 64) }) (dropTarget e.id o (removePtrs e.id o s)))) ∧
        (s.office.stored.find? (fun e => ownsNumber e o i c want) = none →
          x = releaseHeld o i c 64 (onOffice (fun f => { f with expected := tabSet (fun _ => 0) f.expected k (nextHeld s o i c want) }) s)) ∧
        getB y R.SO_EVT F.SO_EVT_RESEQ = true ∧ getCtr y (ctr 0x000C 10 o) = (getCtr x (ctr 0x000C 10 o) + 1) % 2 ^ 48 ∧ RegsBut [R.SO_EVT] x y ∧ y = { x with regs := y.regs, mon := { x.mon with counters := y.mon.counters }, integrity := { x.integrity with badWords := y.integrity.badWords } }) ∧
  (∀ (o : Fin 5) (uncorr : BitVec 36) (c : Nat) (e : Stored) (s : State), let out := o.val + 3
      nextClass s out = some c → headOf s out c = some e → e.whole = true → e.cells ≤ arrivedCells s out e →
      (badWords s e uncorr = [] → ∃ y, exec (.internalDelivery o true uncorr) s = .next (onOffice (fun f => { f with delivered := f.delivered ++ [{ port := out, env := e.env, mark := e.mark }] }) (dropTarget e.id out y)) ∧
        getB y (R.SO_QLEN out) ⟨16 + c, 1⟩ = false ∧ getCtr y (ctr 0x000C 3 (8 * e.env.cls.toNat + out)) = (getCtr s (ctr 0x000C 3 (8 * e.env.cls.toNat + out)) + 1) % 2 ^ 48 ∧
        getCtr y (ctr 0x000C 2 (8 * e.env.cls.toNat + out)) = (getCtr s (ctr 0x000C 2 (8 * e.env.cls.toNat + out)) + e.cells) % 2 ^ 48 ∧
        (e.env.mc = true → getCtr y (ctr 0x000C 11 out) = (getCtr s (ctr 0x000C 11 out) + 1) % 2 ^ 48) ∧ RegsBut [R.SO_QLEN out] s y ∧ y = { s with regs := y.regs, mon := { s.mon with counters := y.mon.counters }, integrity := { s.integrity with badWords := y.integrity.badWords }, office := { s.office with passed := y.office.passed } }) ∧
      (∃ t, exec (.internalDelivery o false uncorr) s = .next t ∧ getB t (R.SO_QLEN out) ⟨16 + c, 1⟩ = true ∧ RegsBut [R.SO_QLEN out] s t ∧ t = { s with regs := t.regs }) ∧
      ((badWords s e uncorr).any (spoils e) = true → exec (.internalDelivery o true uncorr) s = .next (dropTarget e.id out (noteAll e (badWords s e uncorr) (setWait out c false (notePassed out c s)))))) ∧
  (∀ (id out : Nat) (e : Stored) (s : State), findStored s id = some e →
      let v := releaseCells id (leftAt e out) (e.cells - leftAt e out) (dropPtrs id out s)
      (e.targets.filter (fun t => t ≠ out) = [] → dropTarget id out s = onOffice (fun f => { f with stored := f.stored.filter (fun x => x.id ≠ id) }) v) ∧
      (e.targets.filter (fun t => t ≠ out) ≠ [] → dropTarget id out s = updStored id (fun x => { x with targets := e.targets.filter (fun t => t ≠ out) }) v)) ∧
  (∀ (m : Master) (a v : Word) (s : State), isSoRes a.toNat = true → Takes s m a.toNat →
      let u := dropOverlap a.toNat 4 s
      (soResRefused u a.toNat v = true → ∃ t, exec (.soResWrite m a v) s = .next t ∧ t.resp = .ok ∧ getB t R.SO_EVT F.SO_EVT_CFGREF = true ∧ OnlyRegs [R.SO_EVT] (declineWrite a.toNat v u) t) ∧
      (soResRefused u a.toNat v = false → exec (.soResWrite m a v) s = .next (answer .ok (moveCredit u (plainWrite a.toNat v u))))) ∧
  (∀ (p c n : Nat) (s : State), p < 3 → c ≠ 0 → let w := tabGet (fun _ => 0) (getPort s p).withheld c
      tabGet (fun _ => 0) (getPort (returnCredit p c n s) p).release c = (tabGet (fun _ => 0) (getPort s p).release c + (n - w)) % 65536 ∧
      tabGet (fun _ => 0) (getPort (returnCredit p c n s) p).withheld c = w - n ∧
      returnCredit p c n s = { s with ports := (returnCredit p c n s).ports } ∧ (∀ k, k ≠ p → getPort (returnCredit p c n s) k = getPort s k)) ∧
  (∀ (a n i : Nat) (c : Cell) (cs : List Cell), cs[i]? = some c → (lowerRefs a n cs)[i]? = some { c with refs := if a ≤ i ∧ i < a + n then c.refs - 1 else c.refs }) ∧
  (∀ (o : Fin 3) (uncorr : BitVec 36) (ph : Fin 32) (s : State),
      (portUp s o = false ∨ (sendingAt s o).isSome = true ∨ nextClass s o = none → exec (.envelopeStart o uncorr ph) s = .next s) ∧
      (∀ c e, portUp s o = true → sendingAt s o = none → nextClass s o = some c → headOf s o c = some e → (badWords s e uncorr).any (spoils e) = true →
        exec (.envelopeStart o uncorr ph) s = .next (dropTarget e.id o (noteAll e (badWords s e uncorr) s))))

/-- Enabling, disabling and bringing up a Caravan port, its module, and the losses of a link. PT_CTL writes enable, disable and retrain a port
unless they change RATE while EN is 1. A module change is flagged and reported, and a removal puts the port in NOMOD; a qualified module
starts SEARCH. Block lock takes SEARCH to TRAIN; a fitting TRAIN with RLOCK takes it to READY and a stamp to UP; READY without a stamp falls
back to TRAIN; AUTO alternates the rate. Each loss of R251 takes a port out of UP with its flag, its count, SEARCH, the boundary, the hand-
back and a notice. (spec: 10_caravan_links.md) -/
def Obligations.PortsComeUpAndGoDown : Prop :=
  (∀ (m : Master) (p : Fin 3) (v : Word) (s : State), Takes s m (R.PT_CTL p) →
      let u := dropOverlap (R.PT_CTL p) 4 s
      let d := fun (w : Word) => declineWrite (R.PT_CTL p) w u
      (F.PT_CTL_EN.get (getReg u (R.PT_CTL p)) = 1 → F.PT_CTL_RATE.get v ≠ F.PT_CTL_RATE.get (getReg u (R.PT_CTL p)) →
        (∃ t, exec (.portEnable m p v) s = .next t ∧ t.resp = .ok ∧ getB t (R.PT_EVT p) F.PT_EVT_CFGREF = true ∧ OnlyRegs [R.PT_EVT p] (d (F.PT_CTL_EN.put v 1)) t) ∧
        (∃ t, exec (.portDisable m p v) s = .next t ∧ t.resp = .ok ∧ getB t (R.PT_EVT p) F.PT_EVT_CFGREF = true ∧ OnlyRegs [R.PT_EVT p] (d (F.PT_CTL_EN.put v 0)) t) ∧
        (∃ t, exec (.retrain m p v) s = .next t ∧ t.resp = .ok ∧ getB t (R.PT_EVT p) F.PT_EVT_CFGREF = true ∧ OnlyRegs [R.PT_EVT p] (d (F.PT_CTL_RETRAIN.put v 1)) t))) ∧
  (∀ (m : Master) (p : Fin 3) (v : Word) (s : State), Takes s m (R.PT_CTL p) →
      let u := dropOverlap (R.PT_CTL p) 4 s
      (F.PT_CTL_EN.get (getReg u (R.PT_CTL p)) = 0 ∨ F.PT_CTL_RATE.get v = F.PT_CTL_RATE.get (getReg u (R.PT_CTL p))) →
      (∃ y, getB y (R.PT_CTL p) F.PT_CTL_EN = true ∧ portRate y p = (if F.PT_CTL_RATE.get v = 3 then 0 else F.PT_CTL_RATE.get v) ∧ OnlyRegs [R.PT_CTL p] u y ∧
        (let z := if portState u p = 0 then enablePort p y else y
         exec (.portEnable m p v) s = .next (answer .ok (if F.PT_CTL_RETRAIN.get v = 1 then retrainPort p z else z)))) ∧
      (∃ y, getB y (R.PT_CTL p) F.PT_CTL_EN = false ∧ OnlyRegs [R.PT_CTL p] u y ∧
        (let z := if F.PT_CTL_EN.get (getReg u (R.PT_CTL p)) = 1 ∨ portState u p ≠ 0 then disablePort p y else y
         exec (.portDisable m p v) s = .next (answer .ok (if F.PT_CTL_RETRAIN.get v = 1 then retrainPort p z else z))))) ∧
  (∀ (m : Master) (p : Fin 3) (v : Word) (s : State), Takes s m (R.PT_CTL p) →
      let u := dropOverlap (R.PT_CTL p) 4 s
      F.PT_CTL_EN.get (getReg u (R.PT_CTL p)) = 1 → F.PT_CTL_EN.get v = 1 → F.PT_CTL_RATE.get v = F.PT_CTL_RATE.get (getReg u (R.PT_CTL p)) → portState u p ≠ 0 →
      ∃ y, getB y (R.PT_CTL p) F.PT_CTL_EN = true ∧ OnlyRegs [R.PT_CTL p] u y ∧ exec (.retrain m p v) s = .next (answer .ok (retrainPort p y))) ∧
  (∀ (p r : Nat) (s : State), p < 3 → r < 2 → 
      let t := startSearch p r s
      portState t p = 2 ∧ keptRate t p = r ∧ getB t (R.PT_STAT p) F.PT_STAT_LOCK = false ∧ getB t (R.PT_MOD p) F.PT_MOD_SOFTDIS = false ∧
      bitsOf (getPort t p).txTrain.toNat 0 8 = 0x66 ∧ bitsOf (getPort t p).txTrain.toNat 8 2 = p ∧ bitsOf (getPort t p).txTrain.toNat 10 1 = 1 ∧
      bitsOf (getPort t p).txTrain.toNat 11 1 = 0 ∧ bitsOf (getPort t p).txTrain.toNat 16 32 = ownNid s ∧ (getPort t p).txBlock.extractLsb' 0 2 = 1 ∧
      getPort t p = { getPort s p with cableEpisode := false, hunting := false, txTrain := (getPort t p).txTrain, scrambler := (getPort t p).scrambler, txBlock := (getPort t p).txBlock } ∧
      (∀ k, k ≠ p → getPort t k = getPort s k) ∧
      getCtr t (ptCtr 12 p) = (getCtr s (ptCtr 12 p) + 1) % 2 ^ 48 ∧ RegsBut [R.PT_STAT p, R.PT_MOD p] s t ∧ t = { s with regs := t.regs, mon := { s.mon with counters := t.mon.counters }, integrity := { s.integrity with badWords := t.integrity.badWords }, ports := t.ports, node := { s.node with freeCount := t.node.freeCount } }) ∧
  (∀ (p : Nat) (s : State), p < 3 → 
      ((getPort s p).moduleOk = true → seekModule p s = startSearch p (if portRate s p = 2 then 1 else 0) s) ∧
      ((getPort s p).moduleOk = false → portState (seekModule p s) p = 1 ∧ RegsBut [R.PT_STAT p, R.PT_MOD p] s (seekModule p s) ∧ (seekModule p s) = { s with regs := (seekModule p s).regs }) ∧
      enablePort p s = seekModule p (onPort p (fun t => { t with downshifted := false }) s) ∧
      (portState s p ≠ 5 → (getPort s p).receiving = none → portState (disablePort p s) p = 0 ∧ getB (disablePort p s) (R.PT_STAT p) F.PT_STAT_LOCK = false ∧ getB (disablePort p s) (R.PT_MOD p) F.PT_MOD_SOFTDIS = true ∧
        getPort (disablePort p s) p = { getPort s p with downshifted := false } ∧ (∀ k, k ≠ p → getPort (disablePort p s) k = getPort s k) ∧
        RegsBut [R.PT_STAT p, R.PT_MOD p] s (disablePort p s) ∧ (disablePort p s) = { s with regs := (disablePort p s).regs, ports := (disablePort p s).ports }) ∧
      (2 ≤ portState s p → portState s p ≠ 5 → (getPort s p).receiving = none → retrainPort p s = startSearch p (if portRate s p = 2 then 1 else 0) (onPort p (fun t => { t with downshifted := false }) s)) ∧
      (portState s p = 5 → retrainPort p s = dropLink p (startSearch p (if portRate s p = 2 then 1 else 0) (onPort p (fun t => { t with downshifted := false }) s))) ∧ (portState s p < 2 → retrainPort p s = s)) ∧
  (∀ (p : Fin 3) (absent : Bool) (s : State), getB s (R.PT_STAT p) F.PT_STAT_MODABS ≠ absent →
      ∃ y, exec (.moduleChange p absent) s = .next (if absent = true then loseModule p (ptNotice p 0x82 (getF s (R.PT_MOD p) F.PT_MOD_ID) y) else ptNotice p 0x82 (getF s (R.PT_MOD p) F.PT_MOD_ID) y) ∧
        getB y (R.PT_STAT p) F.PT_STAT_MODABS = absent ∧ getB y (R.PT_EVT p) F.PT_EVT_MODCHG = true ∧ RegsBut [R.PT_STAT p, R.PT_EVT p] s y ∧ y = { s with regs := y.regs }) ∧
  (∀ (p : Fin 3) (id diag : Byte) (s : State), getB s (R.PT_STAT p) F.PT_STAT_MODABS = false → 
      ((id = 3 ∨ getB s (R.PT_CTL p) F.PT_CTL_ANYMOD = true) → ∃ y, exec (.moduleQualify p id diag) s = .next (if portState s p = 1 ∨ (portState s p = 0 ∧ getB s (R.PT_CTL p) F.PT_CTL_EN = true) then startSearch p (firstRate s p) y else y) ∧
        getF y (R.PT_MOD p) F.PT_MOD_ID = id.toNat ∧ getB y (R.PT_MOD p) F.PT_MOD_DDM = diag.getLsbD 6 ∧ getPort y p = { getPort s p with moduleOk := true, downshifted := false } ∧
        (∀ k, k ≠ p.val → getPort y k = getPort s k) ∧ RegsBut [R.PT_MOD p] s y ∧ y = { s with regs := y.regs, ports := y.ports }) ∧
      (id ≠ 3 → getB s (R.PT_CTL p) F.PT_CTL_ANYMOD = false → ∃ y, exec (.moduleQualify p id diag) s = .next (loseModule p (ptNotice p 0x82 id.toNat y)) ∧
        getF y (R.PT_MOD p) F.PT_MOD_ID = id.toNat ∧ getB y (R.PT_EVT p) F.PT_EVT_MODREF = true ∧ RegsBut [R.PT_MOD p, R.PT_EVT p] s y ∧ y = { s with regs := y.regs })) ∧
  (∀ (p : Fin 3) (s : State), portState s p = 2 →
      ∃ t, exec (.blockLock p) s = .next t ∧ portState t p = 3 ∧ getB t (R.PT_STAT p) F.PT_STAT_LOCK = true ∧ bitsOf (getPort t p).txTrain.toNat 11 1 = 1 ∧
        getPort t p = { getPort s p with txTrain := (getPort t p).txTrain, scrambler := (getPort t p).scrambler, txBlock := (getPort t p).txBlock } ∧
        (∀ k, k ≠ p.val → getPort t k = getPort s k) ∧ RegsBut [R.PT_STAT p, R.PT_MOD p] s t ∧ t = { s with regs := t.regs, ports := t.ports, node := { s.node with freeCount := t.node.freeCount } }) ∧
  (∀ (p : Fin 3) (s : State), 
      (portState s p = 4 → ∃ t, exec (.readyTimeout p) s = .next t ∧ portState t p = 3 ∧ bitsOf (getPort t p).txTrain.toNat 11 1 = 1 ∧
        (∀ k, k ≠ p.val → getPort t k = getPort s k) ∧ RegsBut [R.PT_STAT p, R.PT_MOD p] s t ∧ t = { s with regs := t.regs, ports := t.ports, node := { s.node with freeCount := t.node.freeCount } }) ∧
      (portRate s p = 0 → (getPort s p).downshifted = false → portState s p = 2 ∨ portState s p = 3 → exec (.rateAlternate p) s = .next (startSearch p (1 - keptRate s p) s)) ∧
      ((getPort s p).downshifted = true → exec (.rateAlternate p) s = .next s)) ∧
  (∀ (p : Fin 3) (s : State), 
      (portState s p = 5 → exec (.lockloss p) s = .next (leaveUp p 0 (keptRate s p) s) ∧ exec (.stampto p) s = .next (leaveUp p 1 (keptRate s p) s) ∧
        (getB s (R.PT_CTL p) F.PT_CTL_AUTODN = true → portRate s p = 0 → exec (.hiber p) s = .next (leaveUp p 2 1 (onPort p (fun t => { t with downshifted := true }) s))) ∧
        (getB s (R.PT_CTL p) F.PT_CTL_AUTODN = false ∨ portRate s p ≠ 0 → exec (.hiber p) s = .next (leaveUp p 2 (keptRate s p) s)) ∧
        (∃ y, exec (.los p true) s = .next (leaveUp p 3 (keptRate y p) y) ∧ getB y (R.PT_STAT p) F.PT_STAT_LOS = true ∧ portState y p = 5 ∧ RegsBut [R.PT_STAT p] s y ∧ y = { s with regs := y.regs })) ∧
      (portState s p = 3 ∨ portState s p = 4 → exec (.lockloss p) s = .next (startSearch p (keptRate s p) (cutReception p s))) ∧
      (portState s p ≠ 5 → exec (.stampto p) s = .next s ∧ exec (.hiber p) s = .next s) ∧
      (∀ high, portState s p ≠ 5 ∨ high = false → ∃ t, exec (.los p high) s = .next t ∧ getB t (R.PT_STAT p) F.PT_STAT_LOS = high ∧ RegsBut [R.PT_STAT p] s t ∧ t = { s with regs := t.regs })) ∧
  (∀ (p cause rate : Nat) (s : State), p < 3 → cause < 16 →
      ∃ y, leaveUp p cause rate s = ptNotice p 0x81 cause (leaveLink p (some cause) (linkDown p cause (startSearch p rate y))) ∧ getB y (R.PT_EVT p) (causeFld cause) = true ∧
        getCtr y (ptCtr 11 (16 * p + cause)) = (getCtr s (ptCtr 11 (16 * p + cause)) + 1) % 2 ^ 48 ∧ RegsBut [R.PT_EVT p] s y ∧ y = { s with regs := y.regs, mon := { s.mon with counters := y.mon.counters }, integrity := { s.integrity with badWords := y.integrity.badWords } })

/-- TRAIN, STAMP, AUDIT, the module's management pair and its diagnostics. A STAMP to a port in READY or UP ends a reception, counts the stamps
it missed, takes over the credits and takes READY to UP. STAMP_SEND sends the release counts under the next stamp number and an AUDIT after
every 16th. An AUDIT class that counts more cells than arrived corrects the count and returns them as credit, up to 4,096. A TRAIN in TRAIN
of a fitting role with RLOCK enters READY, of another role reports the cable once. The block type alone says what a received control block
is: IDLE and FILL are counted, a FILL inside an envelope ends nothing, and an unknown type is a bad block. I2C_GO starts one command at a
time; its completion shows the byte or the error. DDM_POLL shows the five diagnostics. (spec: 10_caravan_links.md) -/
def Obligations.LinksCarryStampsAuditsAndTraining : Prop :=
  (∀ (p : Fin 3) (w : DWord) (s : State), bitsOf w.toNat 0 8 = 0x55 → 4 ≤ portState s p →
      let x := bump (ptCtr 1 (8 * p + 3)) (controlBlock p s)
      let lost := match (getPort x p).sseqRx with | some q => (bitsOf w.toNat 56 4 + 31 - q) % 16 | none => 0
      ∃ y, exec (.stamp p w) s = .next (if portState s p = 4 then enterUp p y else y) ∧ (getPort y p).sseqRx = some (bitsOf w.toNat 56 4) ∧
        tabGet (fun _ => 0) (getPort y p).credit 1 = bitsOf w.toNat 8 16 ∧ tabGet (fun _ => 0) (getPort y p).credit 3 = bitsOf w.toNat 24 16 ∧
        tabGet (fun _ => 0) (getPort y p).credit 2 = bitsOf w.toNat 40 16 ∧ getF y (R.PT_STAT p) F.PT_STAT_RLOCK = bitsOf w.toNat 60 1 ∧
        getCtr y (ptCtr 7 p) = (getCtr x (ptCtr 7 p) + lost) % 2 ^ 48 ∧ getPort y p = { getPort x p with sseqRx := (getPort y p).sseqRx, credit := (getPort y p).credit } ∧
        (∀ k, k ≠ p.val → getPort y k = getPort x k) ∧ RegsBut [R.PT_STAT p] x y ∧ y = { x with regs := y.regs, mon := { x.mon with counters := y.mon.counters }, integrity := { x.integrity with badWords := y.integrity.badWords }, ports := y.ports }) ∧
  (∀ (p : Nat) (s : State), (getPort s p).receiving = none → ∃ t, controlBlock p s = t ∧ getPort t p = { getPort s p with hunting := false, inTransit := [] } ∧
      (∀ k, k ≠ p → getPort t k = getPort s k) ∧ t = { s with ports := t.ports }) ∧
  (∀ (p : Fin 3) (s : State), 4 ≤ portState s p →
      let q := getPort s p
      ((sendingAt s p).isSome = true → exec (.stampSend p) s = .next (onPort p (fun t => { t with stampDue := true }) s)) ∧
      (sendingAt s p = none → ∃ t, exec (.stampSend p) s = .next t ∧ (getPort t p).sseqTx = (q.sseqTx + 1) % 16 ∧
        (getPort t p).txStamp = BitVec.ofNat 64 (countsWord 0x55 q.release + q.sseqTx * 2 ^ 56 + getF s (R.PT_STAT p) F.PT_STAT_LOCK * 2 ^ 60) ∧
        getCtr t (ptCtr 0 (8 * p.val + 3)) = (getCtr s (ptCtr 0 (8 * p.val + 3)) + 1) % 2 ^ 48 ∧
        (q.sinceAudit < 15 ∨ portState s p ≠ 5 → (getPort t p).sinceAudit = q.sinceAudit + 1 ∧ (getPort t p).txAudit = q.txAudit) ∧
        (15 ≤ q.sinceAudit → portState s p = 5 → (getPort t p).sinceAudit = 0 ∧ (getPort t p).txAudit = BitVec.ofNat 64 (countsWord 0x99 q.sent) ∧
          getCtr t (ptCtr 0 (8 * p.val + 5)) = (getCtr s (ptCtr 0 (8 * p.val + 5)) + 1) % 2 ^ 48) ∧
        getPort t p = { q with sseqTx := (getPort t p).sseqTx, txStamp := (getPort t p).txStamp, sinceAudit := (getPort t p).sinceAudit, txAudit := (getPort t p).txAudit, stampDue := false, scrambler := (getPort t p).scrambler, txBlock := (getPort t p).txBlock } ∧
        (∀ k, k ≠ p.val → getPort t k = getPort s k) ∧ t = { s with mon := { s.mon with counters := t.mon.counters }, integrity := { s.integrity with badWords := t.integrity.badWords }, ports := t.ports, node := { s.node with freeCount := t.node.freeCount } })) ∧
  (∀ (t : Table Nat), countsWord 0x99 t = 0x99 + tabGet (fun _ => 0) t 1 % 65536 * 2 ^ 8 + tabGet (fun _ => 0) t 3 % 65536 * 2 ^ 24 + tabGet (fun _ => 0) t 2 % 65536 * 2 ^ 40) ∧
  (∀ (p : Fin 3) (w : DWord) (s : State), bitsOf w.toNat 0 8 = 0x99 → 4 ≤ portState s p →
      let x := auditAll p w.toNat [(1, 8), (3, 24), (2, 40)] (bump (ptCtr 1 (8 * p + 5)) (controlBlock p s))
      exec (.audit p w) s = .next (if x.2 = true ∧ portUp x.1 p = true then leaveUp p 9 (keptRate x.1 p) x.1 else x.1)) ∧
  (∀ (p c count : Nat) (s : State), p < 3 → c ≠ 0 → 
      let d := (count + 65536 - tabGet (fun _ => 0) (getPort s p).received c) % 65536
      (d = 0 → auditClass p c count s = (s, false)) ∧
      (4096 < d → auditClass p c count s = (bump (ptCtr 10 p) s, true)) ∧
      (0 < d → d ≤ 4096 → ∃ t, auditClass p c count s = (t, false) ∧ tabGet (fun _ => 0) (getPort t p).received c = (tabGet (fun _ => 0) (getPort s p).received c + d) % 65536 ∧
        tabGet (fun _ => 0) (getPort t p).release c = (tabGet (fun _ => 0) (getPort s p).release c + (d - tabGet (fun _ => 0) (getPort s p).withheld c)) % 65536 ∧ getB t (R.PT_EVT p) F.PT_EVT_AUDIT = true ∧
        getCtr t (ptCtr 9 (8 * p + c)) = (getCtr s (ptCtr 9 (8 * p + c)) + d) % 2 ^ 48 ∧ RegsBut [R.PT_EVT p] s t ∧ t = { s with regs := t.regs, mon := { s.mon with counters := t.mon.counters }, integrity := { s.integrity with badWords := t.integrity.badWords }, ports := t.ports })) ∧
  (∀ (p : Fin 3) (w : DWord) (s : State), bitsOf w.toNat 0 8 = 0x66 → 3 ≤ portState s p →
      let x := bump (ptCtr 1 (8 * p + 4)) (controlBlock p s)
      ∃ y, getF y (R.PT_STAT p) F.PT_STAT_RLOCK = bitsOf w.toNat 11 1 ∧ getF y (R.PT_STAT p) F.PT_STAT_NROLE = bitsOf w.toNat 8 2 ∧ getReg y (R.PT_NID p) = BitVec.ofNat 32 (bitsOf w.toNat 16 32) ∧
        RegsBut [R.PT_STAT p, R.PT_NID p] x y ∧ y = { x with regs := y.regs } ∧
        (portState s p = 5 → exec (.train p w) s = .next (leaveUp p 12 (keptRate y p) y)) ∧
        (portState s p = 4 → exec (.train p w) s = .next (if bitsOf w.toNat 11 1 = 0 then setPortState p 3 y else y)) ∧
        (portState s p = 3 → compatible p (bitsOf w.toNat 8 2) = true → ∃ z, getPort z p = { getPort y p with cableEpisode := false } ∧ (∀ k, k ≠ p.val → getPort z k = getPort y k) ∧ z = { y with ports := z.ports } ∧
          exec (.train p w) s = .next (if bitsOf w.toNat 11 1 = 1 then enterReady p z else z)) ∧
        (portState s p = 3 → compatible p (bitsOf w.toNat 8 2) = false → ∃ z, getB z (R.PT_EVT p) F.PT_EVT_CABLE = true ∧ RegsBut [R.PT_EVT p] y z ∧ z = { y with regs := z.regs } ∧
          exec (.train p w) s = .next (if (getPort z p).cableEpisode then z else ptNotice p 0x83 (bitsOf w.toNat 8 2) (onPort p (fun t => { t with cableEpisode := true }) z)))) ∧
  (∀ (p : Nat) (s : State), p < 3 → portState (enterReady p s) p = 4 ∧
      (∀ c, 1 ≤ c → c ≤ 3 → tabGet (fun _ => 0) (getPort (enterReady p s) p).release c = (reservation s p c - heldCells s p c) % 65536 ∧ tabGet (fun _ => 0) (getPort (enterReady p s) p).withheld c = heldCells s p c - reservation s p c) ∧
      (getPort (enterReady p s) p).received = [] ∧ (getPort (enterReady p s) p).sseqRx = none ∧ (getPort (enterReady p s) p).sinceAudit = 0 ∧ (∀ k, k ≠ p → getPort (enterReady p s) k = getPort s k) ∧
      RegsBut [R.PT_STAT p, R.PT_MOD p] s (enterReady p s) ∧ (enterReady p s) = { s with regs := (enterReady p s).regs, ports := (enterReady p s).ports }) ∧
  (∀ (m : Master) (p : Fin 3) (v : Word) (s : State), Takes s m (R.PT_I2C_CMD p) →
      let u := dropOverlap (R.PT_I2C_CMD p) 4 s
      ((getPort u p).i2cBusy = true → ∃ t, exec (.i2cGo m p v) s = .next t ∧ t.resp = .ok ∧ getB t (R.PT_EVT p) F.PT_EVT_CFGREF = true ∧ OnlyRegs [R.PT_EVT p] (declineWrite (R.PT_I2C_CMD p) (F.PT_I2C_CMD_GO.put v 1) u) t) ∧
      ((getPort u p).i2cBusy = false → ∃ t, exec (.i2cGo m p v) s = .next t ∧ t.resp = .ok ∧ (getPort t p).i2cBusy = true ∧ getB t (R.PT_I2C_CMD p) F.PT_I2C_CMD_GO = true ∧
        getF t (R.PT_I2C_CMD p) F.PT_I2C_CMD_OFFSET = F.PT_I2C_CMD_OFFSET.get v ∧ getF t (R.PT_I2C_CMD p) F.PT_I2C_CMD_WDATA = F.PT_I2C_CMD_WDATA.get v ∧
        (∀ k, k ≠ p.val → getPort t k = getPort u k) ∧ RegsBut [R.PT_I2C_CMD p] u t ∧ t = { u with regs := t.regs, mon := { u.mon with counters := t.mon.counters }, integrity := { u.integrity with badWords := t.integrity.badWords }, ports := t.ports, resp := t.resp })) ∧
  (∀ (p : Fin 3) (data : Byte) (s : State), (getPort s p).i2cBusy = true →
      (∃ t, exec (.i2cComplete p true data) s = .next t ∧ (getPort t p).i2cBusy = false ∧ getB t (R.PT_I2C_CMD p) F.PT_I2C_CMD_GO = false ∧ getB t (R.PT_I2C_DATA p) F.PT_I2C_DATA_ERR = false ∧
        (getB s (R.PT_I2C_CMD p) F.PT_I2C_CMD_WRITE = false → getF t (R.PT_I2C_DATA p) F.PT_I2C_DATA_RDATA = data.toNat ∧ getB t (R.PT_I2C_DATA p) F.PT_I2C_DATA_VALID = true) ∧
        (∀ k, k ≠ p.val → getPort t k = getPort s k) ∧ RegsBut [R.PT_I2C_CMD p, R.PT_I2C_DATA p] s t ∧ t = { s with regs := t.regs, ports := t.ports }) ∧
      (∃ t, exec (.i2cComplete p false data) s = .next t ∧ (getPort t p).i2cBusy = false ∧ getB t (R.PT_I2C_DATA p) F.PT_I2C_DATA_ERR = true ∧ getB t (R.PT_EVT p) F.PT_EVT_I2CERR = true ∧
        getCtr t (ptCtr 14 p) = (getCtr s (ptCtr 14 p) + 1) % 2 ^ 48 ∧ (∀ k, k ≠ p.val → getPort t k = getPort s k) ∧ RegsBut [R.PT_I2C_CMD p, R.PT_I2C_DATA p, R.PT_EVT p] s t ∧ t = { s with regs := t.regs, mon := { s.mon with counters := t.mon.counters }, integrity := { s.integrity with badWords := t.integrity.badWords }, ports := t.ports })) ∧
  (∀ (p : Fin 3) (temp vcc bias txpwr rxpwr : BitVec 16) (s : State), (getPort s p).moduleOk = true → getB s (R.PT_MOD p) F.PT_MOD_DDM = true →
      ∃ t, exec (.ddmPoll p temp vcc bias txpwr rxpwr) s = .next t ∧ getReg t (R.PT_DDM_A p) = vcc ++ temp ∧ getReg t (R.PT_DDM_B p) = txpwr ++ bias ∧ getReg t (R.PT_DDM_C p) = rxpwr.zeroExtend 32 ∧
        RegsBut [R.PT_DDM_A p, R.PT_DDM_B p, R.PT_DDM_C p] s t ∧ t = { s with regs := t.regs }) ∧
  (∀ (p : Fin 3) (w : DWord) (s : State), exec (.train p w) s = exec (.stamp p w) s ∧ exec (.audit p w) s = exec (.stamp p w) s ∧
      (bitsOf w.toNat 0 8 = 0x0F → 3 ≤ portState s p → exec (.stamp p w) s = .next (bump (ptCtr 1 (8 * p + 1)) (controlBlock p s))) ∧
      (bitsOf w.toNat 0 8 = 0x33 → 3 ≤ portState s p → (getPort s p).hunting = false → exec (.stamp p w) s = .next (onPort p (fun t => { t with inTransit := [] }) (bumpN (ptCtr 1 (8 * p + 2)) 1 s))) ∧
      (bitsOf w.toNat 0 8 ∉ [0x0F, 0x33, 0x55, 0x66, 0x99] → exec (.stamp p w) s = .next (badBlock p s)))

/-- Headers, bad blocks, hunts and whole envelopes at a Caravan port. A bad header starts a hunt, with HCRC flagged and both counters raised; a
good one of an envelope that cuts through is placed at its outputs and its first cell handed over. A bad block is counted, makes the
envelope under way bad, and while hunting is counted as discarded. A control block ends a hunt and an envelope under way. A whole envelope
while hunting is counted and discarded; otherwise its blocks are counted and it finishes the one under way or is judged: reserved kinds and
zero HOPS, broken reservations, and bad or stomped payloads are counted with their credit returned, and a good one goes to the routing
decision. (spec: 10_caravan_links.md, 09_sorting_office.md) -/
def Obligations.EnvelopesAreReceivedOrDiscarded : Prop :=
  (∀ (p : Fin 3) (e : Envelope) (age : Nat) (ph : Fin 32) (s : State), let f := asKind e.kind e
      (canReceive s p = false ∨ (getPort s p).receiving.isSome = true → exec (.headerReceived p e age ph) s = .next s) ∧
      (canReceive s p = true → (getPort s p).receiving = none →
      (headerGood f = false → ∃ t, exec (.headerReceived p e age ph) s = .next t ∧ (getPort t p).hunting = true ∧ getB t (R.PT_EVT p) F.PT_EVT_HCRC = true ∧
        getCtr t (ptCtr 3 p) = (getCtr s (ptCtr 3 p) + 1) % 2 ^ 48 ∧ getCtr t (ptCtr 4 p) = (getCtr s (ptCtr 4 p) + 1) % 2 ^ 48 ∧
        getPort t p = { getPort s p with hunting := true } ∧ (∀ k, k ≠ p.val → getPort t k = getPort s k) ∧ RegsBut [R.PT_EVT p] s t ∧ t = { s with regs := t.regs, mon := { s.mon with counters := t.mon.counters }, integrity := { s.integrity with badWords := t.integrity.badWords }, ports := t.ports }) ∧
      (headerGood f = true →
        let mark := markAt s age ph
        let u := beginReception p f mark (applyLinks s)
        (getPort u p).receiving = some { env := f, id := none, bad := false, mark := mark } ∧ (getPort u p).rxMark = some mark ∧
        (cutsEarly u p f = false → exec (.headerReceived p e age ph) s = .next u) ∧
        (cutsEarly u p f = true →
          exec (.headerReceived p e age ph) s = .next (onPort p (fun t => { t with receiving := some { env := f, id := some u.office.nextId, bad := false, mark := mark } }) (placeReceived p f true false 1 mark (handMark p f mark u))))))) ∧
  (∀ (p : Fin 3) (s : State),
      ∃ y, exec (.badBlock p) s = .next y ∧
        getB y (R.PT_EVT p) F.PT_EVT_BADBLK = true ∧ getCtr y (ptCtr 2 p) = (getCtr s (ptCtr 2 p) + 1) % 2 ^ 48 ∧
        ((getPort s p).hunting = true → getCtr y (ptCtr 5 p) = (getCtr s (ptCtr 5 p) + 1) % 2 ^ 48) ∧
        getPort y p = { getPort s p with receiving := (getPort s p).receiving.map (fun r => { r with bad := true }) } ∧ (∀ k, k ≠ p.val → getPort y k = getPort s k) ∧ RegsBut [R.PT_EVT p] s y ∧ y = { s with regs := y.regs, mon := { s.mon with counters := y.mon.counters }, integrity := { s.integrity with badWords := y.integrity.badWords }, ports := y.ports }) ∧
  (∀ (p : Fin 3) (s : State), 
      (portState s p < 3 → exec (.huntEnd p) s = .next s) ∧
      (3 ≤ portState s p → exec (.huntEnd p) s = .next (bump (ptCtr 1 (8 * p + 1)) (controlBlock p s))) ∧
      (∀ r, (getPort s p).receiving = some r →
        let z := bump (ctr 0x000C 6 p) (onPort p (fun t => { t with receiving := none }) (onPort p (fun t => { t with hunting := false, inTransit := [] }) s))
        (r.id = none → controlBlock p s = returnCredit p r.env.cls.toNat (cellsOf r.env) z) ∧
        (∀ id e, r.id = some id → findStored z id = some e → controlBlock p s = finishBad id (updEnv id (cutPayload e.handed) z)))) ∧
  (∀ (p : Fin 3) (e : Envelope) (age : Nat) (ph : Fin 32) (fills : Nat) (s : State), 4 ≤ portState s p →
      let f := asKind e.kind e
      let n := 4 + f.lenw.toNat
      let x := receiveFills p fills (bumpN (ptCtr 1 (8 * p.val)) n s)
      ((getPort x p).hunting = true → exec (.envelopeReceived p e age ph fills) s = .next (bumpN (ptCtr 5 p) n x)) ∧
      ((getPort x p).hunting = false → (getPort x p).receiving = none → headerGood f = false → exec (.envelopeReceived p e age ph fills) s = .next (headerError p x)) ∧
      ((getPort x p).hunting = false → (getPort x p).receiving = none → headerGood f = true →
        exec (.envelopeReceived p e age ph fills) s = .next (receiveWhole p false (markAt x age ph) f (onPort p (fun t => { t with receiving := none }) (beginReception p f (markAt x age ph) x)))) ∧
      (∀ r, (getPort x p).hunting = false → (getPort x p).receiving = some r → r.id = none →
        exec (.envelopeReceived p e age ph fills) s = .next (receiveWhole p r.bad r.mark (withTrailer r.env f) (onPort p (fun t => { t with receiving := none }) x))) ∧
      (∀ r id, (getPort x p).hunting = false → (getPort x p).receiving = some r → r.id = some id →
        exec (.envelopeReceived p e age ph fills) s = .next (finishReception p id r.bad f (onPort p (fun t => { t with receiving := none }) x)))) ∧
  (∀ (p : Nat) (bad : Bool) (mark : RingMark) (e : Envelope) (s : State),
        let u := applyLinks s
        let n := cellsOf e
        let v := handMark p e mark u
        (reservedKind e.kind = true ∨ e.hops = 0 → receiveWhole p bad mark e s = returnCredit p e.cls.toNat n (bump (ptCtr 6 p) u)) ∧
        (reservedKind e.kind = false → e.hops ≠ 0 → breaksPool u p e = true → receiveWhole p bad mark e s = poolDrop p e u) ∧
        (reservedKind e.kind = false → e.hops ≠ 0 → breaksPool u p e = false → bad = true → receiveWhole p bad mark e s = returnCredit p e.cls.toNat n (bump (ctr 0x000C 6 p) u)) ∧
        (reservedKind e.kind = false → e.hops ≠ 0 → breaksPool u p e = false → bad = false → e.pcrc = pcrcOf e →
          receiveWhole p bad mark e s = keepLinkEvent e (placeReceived p e (cutsThrough u p (receivedOutputs u p e) e && decide (n ≤ 1)) true n mark v)) ∧
        (reservedKind e.kind = false → e.hops ≠ 0 → breaksPool u p e = false → bad = false → e.pcrc ≠ pcrcOf e → e.pcrc = ~~~(pcrcOf e) → receiveWhole p bad mark e s = returnCredit p e.cls.toNat n (bump (ctr 0x000C 5 p) u)) ∧
        (reservedKind e.kind = false → e.hops ≠ 0 → breaksPool u p e = false → bad = false → e.pcrc ≠ pcrcOf e → e.pcrc ≠ ~~~(pcrcOf e) → receiveWhole p bad mark e s = returnCredit p e.cls.toNat n (bump (ctr 0x000C 6 p) u)))

/-- CLAIM, the numbering wave and LINK_EVENT. An election by an eligible hub sends its claim and keeps the best one; a claim that is no worse
than the best seen goes on with the words it came with, turns back where the onward port is down, and one's own claim that comes back makes
the hub root. CN_CMD starts an election or, at the root only, a numbering wave. NUMBER at an unnumbered hub, or at a numbered one the first
time in a RENUMBER wave, gives it the wave's index and position, which it answers, or leaves it without one; the wave goes on with the
received words and the hub's own index and position, or turns back twice at most. A root's turned eastward wave begins the westward leg, and
any other return ends the wave. A waiting LINK_EVENT is applied once. (spec: 11_census_and_routing.md) -/
def Obligations.ElectionsAndTheNumberingWave : Prop :=
  (∀ (s : State), (getB s R.CN_STAT F.CN_STAT_ELIG = false → exec .electionStart s = .next s) ∧
      (getB s R.CN_STAT F.CN_STAT_ELIG = true →
        ∃ y, exec .electionStart s = .next (sendClaim (claimPort y) (claimWords y 0 (ownClaim s)) y) ∧
          y.census.best = some (match s.census.best with | some b => if noWorse b (ownClaim s) then b else ownClaim s | none => ownClaim s) ∧
          getF y R.CN_STAT F.CN_STAT_STATE = (if getF s R.CN_STAT F.CN_STAT_STATE = 0 then 1 else getF s R.CN_STAT F.CN_STAT_STATE) ∧
          getCtr y (ctr 0x000E 8 0) = (getCtr s (ctr 0x000E 8 0) + 1) % 2 ^ 48 ∧ RegsBut [R.CN_STAT] s y ∧ y = { s with regs := y.regs, mon := { s.mon with counters := y.mon.counters }, integrity := { s.integrity with badWords := y.integrity.badWords }, census := { s.census with best := y.census.best } })) ∧
  (∀ (m : Master) (v : Word) (s : State), Takes s m R.CN_CMD →
      let u := dropOverlap R.CN_CMD 4 s
      (F.CN_CMD_RENUMBER.get v = 0 → ∃ y, OnlyRegs [R.CN_CMD] u y ∧ exec (.cnClaim m v) s = .next (answer .ok (startElection y))) ∧
      (F.CN_CMD_CLAIM.get v = 0 → isRoot u = true → ∃ y, y.census.renumber = true ∧ y.census.remap = true ∧ RegsBut [R.CN_CMD] u y ∧ y = { u with regs := y.regs, mon := { u.mon with counters := y.mon.counters }, integrity := { u.integrity with badWords := y.integrity.badWords }, census := { u.census with renumber := y.census.renumber, remap := y.census.remap } } ∧ exec (.renumber m v) s = .next (answer .ok (startWave y))) ∧
      (F.CN_CMD_CLAIM.get v = 0 → isRoot u = false → ∃ t, exec (.renumber m v) s = .next t ∧ t.resp = .ok ∧ getB t R.RT_STAT F.RT_STAT_CFGREF = true ∧ OnlyRegs [R.CN_CMD, R.RT_STAT] u t) ∧
      (F.CN_CMD_RENUMBER.get v = 1 → exec (.cnClaim m v) s = .next (answer .ok (writeCnCmd (F.CN_CMD_CLAIM.put v 1) u)))) ∧
  (∀ (p : Fin 3) (e : Envelope) (s : State), let f := asKind kCensus e
      cOp f = 1 →
      let y := showElecting (noteCensus f s)
      let c := (cField f 1 16 8, cField f 1 32 32)
      let on := straight y p
      let back := p.val ≠ claimPort y ∨ 2 ≤ cTurns f ∨ (portUp y on = false ∧ 1 ≤ cTurns f)
      (c = ownClaim y → back → exec (.claim p e) s = .next (becomeRoot y)) ∧
      (c ≠ ownClaim y ∨ ¬back → mayPass y c = false → exec (.claim p e) s = .next y) ∧
      (c ≠ ownClaim y ∨ ¬back → mayPass y c = true →
        ∃ z, z.census.best = some c ∧ z = { y with census := { y.census with best := z.census.best } } ∧
          exec (.claim p e) s = .next (if portUp y on = true then sendClaim on f.payload z else if cTurns f < 2 then sendClaim p (setTurns (cTurns f + 1) f.payload) z else z))) ∧
  (∀ (p : Fin 3) (e : Envelope) (renumber : Bool) (s : State), let f := asKind kCensus e
      cOp f = 2 →
      let y := noteCensus f s
      let z := noteAcross p f y
      (isRoot y = true → exec (.number p e renumber) s = .next (if p.val = eastPort z ∧ cLeg f = 0 then startWestLeg z else onCensus (fun c => { c with inWave := false, renumber := false }) z)) ∧
      (isRoot y = false → exec (.number p e renumber) s = .next (receiveNumber p f renumber y))) ∧
  (∀ (p : Nat) (e : Envelope) (renumber : Bool) (s : State),
      ∃ x, getF x R.CN_POS F.CN_POS_EPOCH = cEpoch e ∧ getF x R.CN_ADDR F.CN_ADDR_ROOT = cRing e * 4096 + cRoot e ∧ RegsBut [R.CN_POS, R.CN_ADDR] (noteAcross p e s) x ∧ x = { (noteAcross p e s) with regs := x.regs } ∧
        (numbered x = false ∨ (renumber = true ∧ x.census.inWave = false) →
          let y := onCensus (fun c => { c with inWave := true, renumber := renumber }) x
          let pos := wrap 16 (wavePos y p e)
          (∀ idx, waveTake y p e = some idx → receiveNumber p e renumber s = passWave p (straight x p) (cTurns e) (renumbered e pos idx) (answerCensus { port := p, index := idx, status := 0, pos := pos, epoch := cEpoch e } (takeIndex idx pos y))) ∧
          (waveTake y p e = none → receiveNumber p e renumber s = passWave p (straight x p) (cTurns e) (renumbered e pos (cIndex e)) (noIndex { port := p, index := cIndex e, status := 1, pos := pos, epoch := cEpoch e } y))) ∧
        (numbered x = true → (renumber = false ∨ x.census.inWave = true) → receiveNumber p e renumber s = passWave p (straight x p) (cTurns e) e.payload x)) ∧
  (∀ (idx pos : Nat) (s : State), idx < 4096 → getF (takeIndex idx pos s) R.CN_POS F.CN_POS_POS = pos % 65536 ∧ position (takeIndex idx pos s) = 2 * idx + (if getB s R.RT_CFG F.RT_CFG_PAIR = true ∧ getB s R.RT_CFG F.RT_CFG_SIDEB = true then 1 else 0) ∧ numbered (takeIndex idx pos s) = true ∧
      getF (takeIndex idx pos s) R.CN_STAT F.CN_STAT_STATE = 2 ∧ RegsBut [R.RT_KEY, R.CN_POS, R.CN_STAT] s (takeIndex idx pos s) ∧ (takeIndex idx pos s) = { s with regs := (takeIndex idx pos s).regs }) ∧
  (∀ (p : Fin 3) (e : Envelope) (s : State), let f := asKind kLinkEvent e
      (f ∈ s.census.toApply → ∃ y, exec (.linkEvent p e) s = .next (applyLink f y) ∧ y.census.toApply = s.census.toApply.erase f ∧
        y = { takeDelivered f s with census := { s.census with toApply := y.census.toApply } }) ∧
      (f ∉ s.census.toApply → exec (.linkEvent p e) s = .next (takeDelivered f s))) ∧
  (∀ (arrived onward turns : Nat) (ws : List DWord) (s : State),
      (portUp s onward = true → passWave arrived onward turns ws s = sendCensus onward 2 ws s) ∧
      (portUp s onward = false → turns < 2 → portUp s arrived = true → passWave arrived onward turns ws s = sendCensus arrived 2 (setTurns (turns + 1) ws) s) ∧
      (portUp s onward = false → 2 ≤ turns ∨ portUp s arrived = false → passWave arrived onward turns ws s = s)) ∧
  (∀ (e : Envelope) (w : DWord) (ws : List DWord) (pos idx turns : Nat), e.payload = w :: ws →
      (∃ v, renumbered e pos idx = v :: ws ∧ bitsOf v.toNat 32 16 = pos % 65536 ∧ bitsOf v.toNat 48 12 = idx % 4096 ∧ bitsOf v.toNat 60 1 = 1 ∧ bitsOf v.toNat 0 32 = bitsOf w.toNat 0 32 ∧ bitsOf v.toNat 61 3 = bitsOf w.toNat 61 3) ∧
      (∃ v, setTurns turns (w :: ws) = v :: ws ∧ bitsOf v.toNat 5 2 = turns % 4 ∧ bitsOf v.toNat 0 5 = bitsOf w.toNat 0 5 ∧ bitsOf v.toNat 7 57 = bitsOf w.toNat 7 57))

/-- CENSUS_REPLY, COMMIT, NEIGHBOUR and JOIN. The root binds a replying ID to a free place or refuses it with notice 0x82. A hub that is not
admitted resends its reply. COMMIT_SEND sends the three parts of the map to group 0xFFF and takes it for the root; a received COMMIT part is
kept until all three of one epoch are there, which then take effect together: the epoch, the root, the present map and, where its bit is
set, the hub's own admission. A NEIGHBOUR shows the sender's index and keeps what it said. A quarantined, unnumbered hub outside a wave that
has heard a neighbour joins with the index that R280 gives, or has none. (spec: 11_census_and_routing.md) -/
def Obligations.AdmissionAndJoining : Prop :=
  (∀ (p : Fin 3) (e : Envelope) (s : State), let f := asKind kCensusReply e
      let u := takeDelivered f s
      let pair := decide (cField f 0 48 1 = 1)
      let k := 2 * cField f 0 0 12 + (if pair = true then cField f 0 49 1 else 0)
      (isRoot s = false → exec (.censusReply p e) s = .next u) ∧
      (isRoot s = true → cField f 0 12 4 = 0 ∨ cField f 0 12 4 = 2 →
      (mayAdmit u (cField f 0 0 12) pair (cField f 0 49 1) (payloadWord f 1) = true → ∃ t, exec (.censusReply p e) s = .next t ∧ holderOf t k = some (payloadWord f 1, pair) ∧
        (∀ j, j ≠ k → holderOf t j = holderOf s j) ∧ t = { u with census := { u.census with holders := t.census.holders } }) ∧
      (mayAdmit u (cField f 0 0 12) pair (cField f 0 49 1) (payloadWord f 1) = false → exec (.censusReply p e) s = .next (cnNotice 0x82 (cField f 0 0 12) u)))) ∧
  (∀ (r : Reply) (s : State), admitted s = false → s.census.reply = some r → exec .replyResend s = .next (sendReply r s)) ∧
  (∀ (s : State), isRoot s = true →
      let ring := getF s R.CN_CFG F.CN_CFG_RING
      let sent := fun (k : Nat) (x : State) => sendOrWait 6 none (build x 3 kCensus true (ring * 4096 + 0xFFF) (getF x R.BR_HOPS F.BR_HOPS_HOPS) (commitWords x k)) (bump (ctr 0x000E 11 0) x)
      ∃ t, exec .commitSend s = .next t ∧ t.census.remap = false ∧
        t = onCensus (fun c => { c with remap := false }) (applyMap ring (fun k => (List.range (partWords k)).map (fun w => mapWord s k w)) (sent 2 (sent 1 (sent 0 s))))) ∧
  (∀ (e : Envelope) (p : Fin 3) (s : State), let f := asKind kCensus e
      cOp f = 3 →
      let y := noteCensus f s
      let ep := cEpoch f
      let k := cField f 2 0 2
      ∃ x, x.census.parts = (s.census.parts.filter (fun q => q.epoch = ep && q.part ≠ k)) ++ [{ epoch := ep, part := k, words := f.payload.drop 3 }] ∧ x.census.best = none ∧
        getB x R.CN_STAT F.CN_STAT_ROOT = (isRoot y && decide (ep ≤ getF y R.CN_POS F.CN_POS_EPOCH)) ∧ RegsBut [R.CN_STAT] y x ∧ x = { y with regs := x.regs, census := { y.census with parts := x.census.parts, best := x.census.best } } ∧
        ((partOf x ep 0 = none ∨ partOf x ep 1 = none ∨ partOf x ep 2 = none) → exec (.commit p e) s = .next x) ∧
        (∀ a b c, partOf x ep 0 = some a → partOf x ep 1 = some b → partOf x ep 2 = some c →
          ∃ z, z.census.parts = [] ∧ getF z R.CN_POS F.CN_POS_EPOCH = ep ∧ getF z R.CN_ADDR F.CN_ADDR_ROOT = cRing f * 4096 + cRoot f ∧ RegsBut [R.CN_POS, R.CN_ADDR] x z ∧ z = { x with regs := z.regs, census := { x.census with parts := z.census.parts } } ∧
            exec (.commit p e) s = .next (applyMap (cRing f) (fun j => if j = 0 then a else if j = 1 then b else c) z))) ∧
  (∀ (ring : Nat) (parts : Nat → List DWord) (s : State), 
      (∀ j, j < 128 → getReg (applyMap ring parts s) (R.RT_PRES j) = presWord parts j) ∧
      (∀ p i, p < 3 → tabGet (fun _ => none) s.census.across p = some i → portUp s p = true → mapBit parts i = true →
        tabGet (fun _ => none) (applyMap ring parts s).census.last p = some (i, (getReg s (R.PT_NID p)).toNat)) ∧
      ((numbered s = false ∨ mapBit parts (position s / 2) = false) →
      (applyMap ring parts s).census = { s.census with inWave := false, last := (applyMap ring parts s).census.last } ∧ (∀ a, (∀ j, j < 128 → a ≠ R.RT_PRES j) → getReg (applyMap ring parts s) a = getReg s a) ∧
      applyMap ring parts s = { s with regs := (applyMap ring parts s).regs, census := (applyMap ring parts s).census }) ∧
      (numbered s = true → mapBit parts (position s / 2) = true → ring < 16 → let t := applyMap ring parts s
        admitted t = true ∧ quarantined t = false ∧ nodeAddr t = ring * 4096 + position s / 2 ∧ t.census.inWave = false ∧
        getF t R.CN_BIND F.CN_BIND_INDEX = position s / 2 ∧ getF t R.CN_BIND F.CN_BIND_RING = ring ∧ getB t R.CN_BIND F.CN_BIND_VALID = true)) ∧
  (∀ (p : Fin 3) (e : Envelope) (s : State), let f := asKind kCensus e
      cOp f = 4 →
      ∃ y, getF y (R.RT_NBR p) F.RT_NBR_INDEX = cIndex f ∧ getB y (R.RT_NBR p) F.RT_NBR_VALID = decide (cField f 0 60 1 = 1) ∧
        heardOn y p = some { index := cIndex f, last := if cField f 2 12 1 = 1 then some (cField f 2 0 12, cField f 1 32 32) else none, ring := cRing f, epoch := cEpoch f } ∧
        tabGet (fun _ => none) y.census.last p = some (cIndex f, (getReg s (R.PT_NID p)).toNat) ∧
        (cField f 0 60 1 = 1 → tabGet (fun _ => none) y.census.across p = some (cIndex f)) ∧
        (numbered s = false → getF y R.CN_ADDR F.CN_ADDR_ROOT = if cField f 1 12 1 = 1 then cRing f * 4096 + cRoot f else 0xFFFF) ∧
        RegsBut [R.RT_NBR p, R.CN_ADDR] (noteCensus f s) y ∧ y = { (noteCensus f s) with regs := y.regs, census := { (noteCensus f s).census with heard := y.census.heard, last := y.census.last, across := y.census.across } } ∧
        exec (.neighbour p e) s = .next (if p.val = 2 ∧ portUp y p = true then judgePeer (setPeer (some (cRing f)) y) else y)) ∧
  (∀ (s : State), quarantined s = true → numbered s = false → s.census.inWave = false → (heardOn s (eastPort s) ≠ none ∨ heardOn s (westPort s) ≠ none) →
      let r := joinChoice s
      (r.status = 1 → exec .join s = .next (noIndex r s)) ∧ (r.status ≠ 1 → exec .join s = .next (answerCensus r (takeIndex r.index r.pos s))))

/-- ITB increments and steps, virtual domain loads, and the FCLK edge at which they take effect. A commit of ITBn_INC within 0.1 % of the
nominal increment is readable at once and pends for the next FCLK edge; any other sets CFGREF, is counted and posts notice 0x82. A commit of
ITBn_STEP pends a step, absolute or relative. VD_LOAD asks for the staged values. With an empty queue one step is one FCLK edge (the model's
choice, log entry 1): LTICK rises by one and every ITB adds its increment, with a relative step added or an absolute one put in its place. A
load puts BASE, ANCHOR and RATE in force. (spec: 12_timetable_and_time.md) -/
def Obligations.TimeBasesTakeTheirCommits : Prop :=
  (∀ (m : Master) (n : Fin 4) (v : Word) (s : State), Takes s m (R.ITB_INC_LO n) →
      let u := dropOverlap (R.ITB_INC_LO n) 4 s
      let hi := (stagedUpper u (masterId u m) (R.ITB_INC_LO n) (getReg u (R.ITB_INC_HI n)) 0).1
      let inc := v.toNat + 2 ^ 32 * (hi.toNat % 256)
      (incAllowed inc = true → ∃ t, exec (.itbIncCommit m n v) s = .next t ∧ t.resp = .ok ∧ getReg t (R.ITB_INC_LO n) = v ∧
        getReg t (R.ITB_INC_HI n) = BitVec.ofNat 32 (hi.toNat % 256) ∧ getItb t n = { getItb s n with pendInc := some inc } ∧ (∀ k, k ≠ n.val → getItb t k = getItb s k) ∧
        getStage t (R.ITB_INC_LO n) = none ∧ RegsBut [R.ITB_INC_LO n, R.ITB_INC_HI n] u t ∧ t = { u with regs := t.regs, mon := { u.mon with counters := t.mon.counters }, integrity := { u.integrity with badWords := t.integrity.badWords }, resp := t.resp, stages := t.stages, time := { u.time with itb := t.time.itb } }) ∧
      (incAllowed inc = false → ∃ y, exec (.itbIncCommit m n v) s = .next (answer .ok (tmNotice n 0x82 0 y)) ∧ getB y (R.ITB_CTL n) F.ITB_CTL_CFGREF = true ∧
        getCtr y (ctr 0x0010 10 n) = (getCtr s (ctr 0x0010 10 n) + 1) % 2 ^ 48 ∧ getStage y (R.ITB_INC_LO n) = none ∧ RegsBut [R.ITB_CTL n] u y ∧ y = { u with regs := y.regs, mon := { u.mon with counters := y.mon.counters }, integrity := { u.integrity with badWords := y.integrity.badWords }, stages := y.stages })) ∧
  (∀ (m : Master) (n : Fin 4) (v : Word) (s : State), Takes s m (R.ITB_STEP_LO n) →
      let u := dropOverlap (R.ITB_STEP_LO n) 4 s
      let up := stagedUpper u (masterId u m) (R.ITB_STEP_LO n) 0 0
      ∃ t, exec (.itbStep m n v) s = .next t ∧ t.resp = .ok ∧
        getItb t n = { getItb s n with pendStep := some (up.2.getLsbD 16, v.toNat + 2 ^ 32 * up.1.toNat + 2 ^ 64 * (up.2.toNat % 65536)) } ∧
        (∀ k, k ≠ n.val → getItb t k = getItb s k) ∧ getStage t (R.ITB_STEP_LO n) = none ∧ t = { u with resp := t.resp, stages := t.stages, time := { u.time with itb := t.time.itb } }) ∧
  (∀ (m : Master) (d : Fin 16) (v : Word) (s : State), Takes s m (R.VD_CTL d) →
      let u := dropOverlap (R.VD_CTL d) 4 s
      let old := getReg u (R.VD_CTL d)
      let reload := decide (F.VD_CTL_FOLLOW.get v = 1 ∧ (F.VD_CTL_FOLLOW.get old = 0 ∨ F.VD_CTL_ITB.get v ≠ F.VD_CTL_ITB.get old))
      ∃ t, exec (.vdLoad m d v) s = .next t ∧ t.resp = .ok ∧ getVd t d = { getVd s d with loadNext := true, followNext := (getVd s d).followNext || reload } ∧
        getB t (R.VD_CTL d) F.VD_CTL_FOLLOW = decide (F.VD_CTL_FOLLOW.get v = 1) ∧ getF t (R.VD_CTL d) F.VD_CTL_ITB = F.VD_CTL_ITB.get v ∧
        (∀ k, k ≠ d.val → getVd t k = getVd s k) ∧ RegsBut [R.VD_CTL d] u t ∧ t = { u with regs := t.regs, mon := { u.mon with counters := t.mon.counters }, integrity := { u.integrity with badWords := t.integrity.badWords }, resp := t.resp, time := { u.time with vd := t.time.vd } }) ∧
  (∀ (s : State), s.pending = [] → step s = .next (tick s) ∧ (clocked s = false → tick s = s) ∧
      (clocked s = true → (fclkEdge s).time.ltick = (s.time.ltick + 1) % 2 ^ 64 ∧
        (∀ n, n < 4 → (getItb (fclkEdge s) n).pendInc = none ∧ (getItb (fclkEdge s) n).pendStep = none ∧ (getItb (fclkEdge s) n).inc = (getItb s n).pendInc.getD (getItb s n).inc ∧
          ((getItb s n).pendStep = none → (getItb (fclkEdge s) n).val = ((getItb s n).val + (getItb s n).pendInc.getD (getItb s n).inc) % 2 ^ 96) ∧
          (∀ x, (getItb s n).pendStep = some (true, x) → (getItb (fclkEdge s) n).val = x * 2 ^ 16 % 2 ^ 96) ∧
          (∀ x, (getItb s n).pendStep = some (false, x) → (getItb (fclkEdge s) n).val = ((getItb s n).val + (getItb s n).pendInc.getD (getItb s n).inc + x * 2 ^ 16) % 2 ^ 96)))) ∧
  (∀ (changed : Nat → Bool) (d : Nat) (s : State), F.VD_CTL_FOLLOW.get (getReg s (R.VD_CTL d)) = 0 →
      ((getVd s d).loadNext = true → 
        let t := vdEdge changed d s
        getReg t (R.VD_BASE_LO d) = BitVec.ofNat 32 (getVd s d).base ∧ getReg t (R.VD_BASE_HI d) = BitVec.ofNat 32 ((getVd s d).base / 2 ^ 32) ∧
        getReg t (R.VD_BASE_TOP d) = BitVec.ofNat 32 ((getVd s d).base / 2 ^ 64 % 65536) ∧ getReg t (R.VD_ANCHOR_LO d) = BitVec.ofNat 32 (getVd s d).anchor ∧
        getReg t (R.VD_ANCHOR_HI d) = BitVec.ofNat 32 ((getVd s d).anchor / 2 ^ 32) ∧ getReg t (R.VD_RATE_LO d) = BitVec.ofNat 32 (getVd s d).rate ∧
        getReg t (R.VD_RATE_HI d) = BitVec.ofNat 32 ((getVd s d).rate / 2 ^ 32 % 65536) ∧ (getVd t d).loadNext = false ∧
        RegsBut [R.VD_BASE_LO d, R.VD_BASE_HI d, R.VD_BASE_TOP d, R.VD_ANCHOR_LO d, R.VD_ANCHOR_HI d, R.VD_RATE_LO d, R.VD_RATE_HI d] s t ∧ t = { s with regs := t.regs, time := { s.time with vd := t.time.vd } }) ∧
      ((getVd s d).loadNext = false → (getVd s d).followNext = false → vdEdge changed d s = s))

/-- Beacons, delay probes and replies, and the choice of a parent. A beacon or a probe leaves in the Scheduled class for the neighbour where the
time unit may send on that port; nothing is sent where it may not. Its transmit reading is kept when its start is marked, and so is the TURN
of a reply. A received probe is answered with the TURN of the probe before it, and its own receive reading waits for the start of the reply.
A received reply gives the mean path delay register when both readings of the probe it names are known. A beacon's contents go to the
registers of its port, with a sample when its predecessor is known; then the parent is chosen, and a sample of the parent goes to the
firmware unless HOST is 1. A message that has another number of words than its format is taken and discarded. Choosing shows ELIG, follows
the chosen candidate, or loses the parent. Only the named state changes. (spec: 12_timetable_and_time.md) -/
def Obligations.NetworkTimeIsExchanged : Prop :=
  (∀ (p : Fin 3) (s : State), timeSends s p = true →
      (let y := (sendOnPort 5 p (build s 0 kBeacon false (neighbourAddr s p) 1 (beaconWords s p)) s).1
       ∃ t, exec (.beaconSend p) s = .next t ∧ getNet t p = { getNet y p with bcnSeq := ((getNet y p).bcnSeq + 1) % 65536, bcnTx := none } ∧
         (∀ k, k ≠ p.val → getNet t k = getNet y k) ∧ getCtr t (ctr 0x0010 0 p) = (getCtr y (ctr 0x0010 0 p) + 1) % 2 ^ 48 ∧ t = { y with time := { y.time with net := t.time.net }, mon := { y.mon with counters := t.mon.counters } }) ∧
      (let y := (sendOnPort 5 p (build s 0 kDelayProbe false (neighbourAddr s p) 1 [packed [(0, (getNet s p).probeSeq), (16, position s)]]) s).1
       ∃ t, exec (.delayProbeSend p) s = .next t ∧ getNet t p = { getNet y p with probeSeq := ((getNet s p).probeSeq + 1) % 65536 } ∧
         (∀ k, k ≠ p.val → getNet t k = getNet y k) ∧ getCtr t (ctr 0x0010 1 p) = (getCtr y (ctr 0x0010 1 p) + 1) % 2 ^ 48 ∧ t = { y with time := { y.time with net := t.time.net }, mon := { y.mon with counters := t.mon.counters } })) ∧
  (∀ (p : Fin 3) (s : State), timeSends s p = false → exec (.beaconSend p) s = .next s ∧ exec (.delayProbeSend p) s = .next s) ∧
  (∀ (p : Fin 3) (e : Envelope) (age : Nat) (ph : Fin 32) (s : State),
      let f := asKind kDelayProbe e
      let m := (deliveredMark s f).getD (markAt s age ph)
      let u := takeDelivered f s
      (f.payload.length ≠ 1 → exec (.delayProbe p e age ph) s = .next u) ∧
      (f.payload.length = 1 → ∃ x, getCtr x (ctr 0x0010 4 p) = (getCtr u (ctr 0x0010 4 p) + 1) % 2 ^ 48 ∧ x = { u with mon := { u.mon with counters := x.mon.counters } } ∧
        (timeSends x p = false → exec (.delayProbe p e age ph) s = .next x) ∧
        (timeSends x p = true →
          (let prev := ((getNet x p).turn).getD (0, 0)
           let y := (sendOnPort 5 p (build x 0 kDelayReply false (neighbourAddr x p) 1
            [packed [(0, wordBits f 0 0 16), (16, prev.1), (32, position x), (45, bit1 (getNet x p).turn.isSome)], BitVec.ofNat 64 prev.2]) x).1
           ∃ t, exec (.delayProbe p e age ph) s = .next t ∧ getNet t p = { getNet y p with turnRx := some (wordBits f 0 0 16, rxReading x p m) } ∧
             (∀ k, k ≠ p.val → getNet t k = getNet y k) ∧ getCtr t (ctr 0x0010 2 p) = (getCtr y (ctr 0x0010 2 p) + 1) % 2 ^ 48 ∧ t = { y with time := { y.time with net := t.time.net }, mon := { y.mon with counters := t.mon.counters } })))) ∧
  (∀ (p : Fin 3) (e : Envelope) (age : Nat) (ph : Fin 32) (s : State),
      let f := asKind kDelayReply e
      let m := (deliveredMark s f).getD (markAt s age ph)
      let u := takeDelivered f s
      (f.payload.length ≠ 2 → exec (.delayReply p e age ph) s = .next u) ∧
      (f.payload.length = 2 → ∃ t, exec (.delayReply p e age ph) s = .next t ∧ getCtr t (ctr 0x0010 5 p) = (getCtr u (ctr 0x0010 5 p) + 1) % 2 ^ 48 ∧
        getNet t p = { getNet u p with t4 := ((wordBits f 0 0 16, rxReading u p m) :: (getNet u p).t4).take 4 } ∧ (∀ k, k ≠ p.val → getNet t k = getNet u k) ∧
        (∀ a b, readingOf (getNet u p).t1 (wordBits f 0 16 16) = some a → readingOf (getNet u p).t4 (wordBits f 0 16 16) = some b → wordBits f 0 45 1 = 1 →
          getReg t (R.TM_P_MPD p) = BitVec.ofInt 32 ((signed 80 (b + 2 ^ 80 - a) - signed 64 (payloadWord f 1).toNat) * 1000 / (2 * 65536))) ∧
        ((readingOf (getNet u p).t1 (wordBits f 0 16 16) = none ∨ readingOf (getNet u p).t4 (wordBits f 0 16 16) = none ∨ wordBits f 0 45 1 ≠ 1) → getReg t (R.TM_P_MPD p) = getReg u (R.TM_P_MPD p)) ∧
        RegsBut [R.TM_P_MPD p] u t ∧ t = { u with regs := t.regs, mon := { u.mon with counters := t.mon.counters }, integrity := { u.integrity with badWords := t.integrity.badWords }, time := { u.time with net := t.time.net } })) ∧
  (∀ (p : Fin 3) (e : Envelope) (age : Nat) (ph : Fin 32) (s : State),
      let f := asKind kBeacon e
      let m := (deliveredMark s f).getD (markAt s age ph)
      let u := takeDelivered f s
      (f.payload.length ≠ 3 → exec (.beacon p e age ph) s = .next u) ∧
      (f.payload.length = 3 → ∃ x, getF x (R.TM_P_BCN p) F.TM_P_BCN_STEPS = wordBits f 0 8 16 ∧ getF x (R.TM_P_BCN p) F.TM_P_BCN_GPRI = wordBits f 0 0 8 ∧ getF x (R.TM_P_BCN p) F.TM_P_BCN_VALID = wordBits f 0 56 1 ∧
        getF x (R.TM_P_BCN p) F.TM_P_BCN_GM = wordBits f 0 57 1 ∧ getF x (R.TM_P_GM p) F.TM_P_GM_GMID = wordBits f 0 24 16 ∧ getF x (R.TM_P_GM p) F.TM_P_GM_KEY = wordBits f 2 16 13 ∧
        (getNet x p).rx = some (wordBits f 0 40 16, rxReading u p m) ∧ (getNet x p).rxTick = s.time.ltick ∧ (getNet x p).steppedRx = false ∧
        (getNet x p).pkey = (if wordBits f 2 45 1 = 1 then some (wordBits f 2 32 13) else none) ∧ (∀ k, k ≠ p.val → getNet x k = getNet u k) ∧ RegsBut [R.TM_P_BCN p, R.TM_P_GM p] u x ∧ x = { u with regs := x.regs, mon := { u.mon with counters := x.mon.counters }, integrity := { u.integrity with badWords := x.integrity.badWords }, time := { u.time with net := x.time.net } } ∧
        (beaconSample u p f = none → exec (.beacon p e age ph) s = .next (judgeParents x)) ∧
        (∀ ofs stepped, beaconSample u p f = some (ofs, stepped) → 
          ∃ y, getReg y (R.TM_P_OFS_LO p) = lo32 (BitVec.ofInt 64 ofs) ∧ getReg y (R.TM_P_OFS_HI p) = hi32 (BitVec.ofInt 64 ofs) ∧
            getF y (R.TM_P_SEQ p) F.TM_P_SEQ_SEQ = (wordBits f 0 40 16 + 65535) % 65536 ∧ getB y (R.TM_P_SEQ p) F.TM_P_SEQ_STEPPED = stepped ∧
            RegsBut [R.TM_P_OFS_LO p, R.TM_P_OFS_HI p, R.TM_P_SEQ p] x y ∧ y = { x with regs := y.regs } ∧
            (let z := judgeParents y
             (parentPort z ≠ p.val → exec (.beacon p e age ph) s = .next z) ∧
             (parentPort z = p.val → exec (.beacon p e age ph) s = .next (let w := post (getF z R.TM_CTL F.TM_CTL_NTC_Q) 0x0010 p 0x41 ((wordBits f 0 40 16 + 65535) % 65536) z
               if getB w R.TM_CTL F.TM_CTL_HOST = true then w else servoSample ofs stepped w)))))) ∧
  (∀ (s : State), ∃ x, (∀ p, p < 3 → getB x (R.TM_P_BCN p) F.TM_P_BCN_ELIG = beaconEligible s p) ∧ RegsBut [R.TM_P_BCN 0, R.TM_P_BCN 1, R.TM_P_BCN 2] s x ∧ x = { s with regs := x.regs } ∧
      (quarantined x = true → exec .parentLost s = .next x) ∧
      (quarantined x = false → chosenParent x = none → parentPort x ≠ 3 →
        ∃ y, getB y R.TM_CTL F.TM_CTL_SYNCED = false ∧ parentPort y = 3 ∧ getCtr y (ctr 0x0010 8 0) = (getCtr s (ctr 0x0010 8 0) + 1) % 2 ^ 48 ∧ RegsBut [R.TM_CTL, R.TM_STAT] x y ∧ y = { x with regs := y.regs, mon := { x.mon with counters := y.mon.counters }, integrity := { x.integrity with badWords := y.integrity.badWords } } ∧
          exec .parentLost s = .next (tmNotice (parentPort x) 0x81 (parentPort x) y)) ∧
      (quarantined x = false → chosenParent x = none → parentPort x = 3 → exec .parentLost s = .next (if ownMaster x = true then setF x R.TM_STAT F.TM_STAT_STEPS 0xFFFF else x)) ∧
      (∀ c, quarantined x = false → chosenParent x = some c →
        ∃ y, parentPort y = c.port ∧ getF y R.TM_STAT F.TM_STAT_STEPS = c.steps ∧ getF y R.TM_GM F.TM_GM_GMID = c.gmid % 65536 ∧ getF y R.TM_GM F.TM_GM_GPRI = c.gpri ∧ RegsBut [R.TM_STAT, R.TM_GM] x y ∧ y = { x with regs := y.regs, mon := { x.mon with counters := y.mon.counters }, integrity := { x.integrity with badWords := y.integrity.badWords } } ∧
          (let n := if c.port ≠ parentPort x ∨ (c.port = 3 ∧ ownMaster x = false) then tmNotice c.port 0x01 c.port y else y
           exec .parentLost s = .next (if c.gmid ≠ getF x R.TM_GM F.TM_GM_GMID then tmNotice c.port 0x03 c.gmid n else n)))) ∧
  (∀ (p : Nat) (e : Envelope) (m : RingMark) (s : State),
      let tx := txReading s p m
      (e.kind = kBeacon → (wordBits e 0 40 16 + 1) % 65536 = (getNet s p).bcnSeq → timeStarted p e m s = onNet p (fun n => { n with bcnTx := some tx, steppedTx := false }) s) ∧
      (e.kind = kDelayProbe → timeStarted p e m s = onNet p (fun n => { n with t1 := ((wordBits e 0 0 16, tx) :: n.t1).take 4 }) s) ∧
      (∀ rx, e.kind = kDelayReply → (getNet s p).turnRx = some (wordBits e 0 0 16, rx) →
        timeStarted p e m s = onNet p (fun n => { n with turn := some (wordBits e 0 0 16, wrap 64 ((tx : Int) - (rx : Int))), turnRx := none }) s) ∧
      (e.kind ≠ kBeacon → e.kind ≠ kDelayProbe → e.kind ≠ kDelayReply → timeStarted p e m s = s))

/-- The cycle boundary, the bank swap, the seal of the input image and writes of TT_CTL. A boundary that ITB0 has reached counts what it skipped
and abandoned, sets the cycle number, ends the walk, puts a pending service mode in force, decides whether the timetable runs, swaps banks
where asked, and moves the images: where the timetable runs the output fill half becomes stable, the mapped outputs, the gateway and the
CYCLE channels take it, and the input half is sealed. A swap request that is due flips ACTIVE, clears itself and posts notice 0x01. The seal
gives the input image its sealed half. A write of TT_CTL refuses RUN without a cycle and a swap for a cycle not ahead with CFGREF; SWAPNOW,
where the timetable does not run, applies a pending mode, swaps banks where asked and moves the images. Without a boundary due, or without a
seal, nothing changes. (spec: 12_timetable_and_time.md) -/
def Obligations.CycleBoundariesAndImages : Prop :=
  (∀ (s : State), (dueBoundary s = none → exec .cycleBoundary s = .next s) ∧
      (∀ k, dueBoundary s = some k →
        let z := skipBoundaries (k - s.tt.next) (if ttRunning s = true then abandonEntries s else s)
        ∃ x, getReg x R.TT_CNUM = BitVec.ofNat 32 k ∧ x.tt = { z.tt with next := k + 1, edge := nowNs s, walk := 256, skip := [], waited := false, written := [], cycling := true, published := [] } ∧
          getCtr x (ctr 0x000F 0 0) = (getCtr z (ctr 0x000F 0 0) + 1) % 2 ^ 48 ∧ RegsBut [R.TT_CNUM] z x ∧ x = { z with regs := x.regs, mon := { z.mon with counters := x.mon.counters }, integrity := { z.integrity with badWords := x.integrity.badWords }, tt := x.tt } ∧
          (let y := applyService x
           let r := getB y R.TT_CTL F.TT_CTL_RUN && decide (serviceMode y ≠ 0)
           ∃ w, ttRunning w = r ∧ RegsBut [R.TT_STAT] y w ∧ w = { y with regs := w.regs } ∧
            exec .cycleBoundary s = .next (if r = true then onTt (fun t => { t with walk := 0 }) (sealInput (cycleTx (gwBoundary (mappedOutputs true (swapOutput (bankSwap w))))))
              else mappedOutputs true (bankSwap w))))) ∧
  (∀ (s : State), (getB s R.TT_CTL F.TT_CTL_SWAP_REQ = false → bankSwap s = s) ∧
      (getB s R.TT_CTL F.TT_CTL_SWAP_REQ = true → getB s R.TT_CTL F.TT_CTL_SWAP_AT = true → signed 32 (cycleNumber s + 2 ^ 32 - (getReg s R.TT_SWAPC).toNat) < 0 → bankSwap s = s) ∧
      (getB s R.TT_CTL F.TT_CTL_SWAP_REQ = true → (getB s R.TT_CTL F.TT_CTL_SWAP_AT = false ∨ 0 ≤ signed 32 (cycleNumber s + 2 ^ 32 - (getReg s R.TT_SWAPC).toNat)) →
        ∃ y, bankSwap s = ttNotice 0x01 (cycleNumber s % 65536) y ∧ activeBank y = 1 - activeBank s ∧ getB y R.TT_CTL F.TT_CTL_SWAP_REQ = false ∧
          getCtr y (ctr 0x000F 2 0) = (getCtr s (ctr 0x000F 2 0) + 1) % 2 ^ 48 ∧ RegsBut [R.TT_STAT, R.TT_CTL] s y ∧ y = { s with regs := y.regs, mon := { s.mon with counters := y.mon.counters }, integrity := { s.integrity with badWords := y.integrity.badWords } })) ∧
  (∀ (n : Nat) (s : State), (n = 0 → skipBoundaries n s = s) ∧
      (n ≠ 0 → ∃ y, skipBoundaries n s = ttNotice 0x84 (min n 65535) y ∧ getB y R.TT_STAT F.TT_STAT_SKIP = true ∧ getCtr y (ctr 0x000F 1 0) = (getCtr s (ctr 0x000F 1 0) + n) % 2 ^ 48 ∧ RegsBut [R.TT_STAT] s y ∧ y = { s with regs := y.regs, mon := { s.mon with counters := y.mon.counters }, integrity := { s.integrity with badWords := y.integrity.badWords } }) ∧
      (ttFrom s (activeBank s) (cycleNumber s) s.tt.walk = [] → abandonEntries s = s) ∧
      (∀ a l, ttFrom s (activeBank s) (cycleNumber s) s.tt.walk = a :: l →
        ∃ y, abandonEntries s = ttNotice 0x81 (activeBank s * 256 + a) y ∧ getB y R.TT_STAT F.TT_STAT_OVERRUN = true ∧
          getCtr y (ctr 0x000F 4 0) = (getCtr s (ctr 0x000F 4 0) + (l.length + 1)) % 2 ^ 48 ∧ RegsBut [R.TT_STAT] s y ∧ y = { s with regs := y.regs, mon := { s.mon with counters := y.mon.counters }, integrity := { s.integrity with badWords := y.integrity.badWords } })) ∧
  (∀ (s : State), (s.time.sealing = false → exec .inputSeal s = .next s) ∧
      (s.time.sealing = true → Memory.wf s = true → ∃ t, exec .inputSeal s = .next t ∧ t.time.sealing = false ∧ (∀ a, 0x200000 ≤ a → a < 0x208000 → getByte t a = getByte s (sealOf a)) ∧
        (∀ a, (a < 0x200000 ∨ 0x208000 ≤ a) → getByte t a = getByte s a) ∧ t = { s with mem := t.mem, poison := t.poison, time := { s.time with sealing := false } })) ∧
  (∀ (s : State), Memory.wf s = true → (∀ a, 0x208000 ≤ a → a < 0x210000 → getByte (swapOutput s) a = getByte s (fillOf a)) ∧
      (∀ a, (a < 0x208000 ∨ 0x210000 ≤ a) → getByte (swapOutput s) a = getByte s a) ∧ swapOutput s = { s with mem := (swapOutput s).mem, poison := (swapOutput s).poison }) ∧
  (∀ (w : Word) (u : State),
      let noRun := decide (F.TT_CTL_RUN.get w = 1 ∧ ttCycle u = 0)
      let noSwap := decide (F.TT_CTL_SWAP_REQ.get w = 1 ∧ getB u R.TT_CTL F.TT_CTL_SWAP_REQ = false ∧ F.TT_CTL_SWAP_AT.get w = 1 ∧ signed 32 ((getReg u R.TT_SWAPC).toNat + 2 ^ 32 - cycleNumber u) ≤ 0)
      ∃ y, getB y R.TT_CTL F.TT_CTL_RUN = (decide (F.TT_CTL_RUN.get w = 1) && !noRun) ∧
        getB y R.TT_CTL F.TT_CTL_SWAP_REQ = (getB u R.TT_CTL F.TT_CTL_SWAP_REQ || (decide (F.TT_CTL_SWAP_REQ.get w = 1) && !noSwap)) ∧
        getB y R.TT_CTL F.TT_CTL_SWAP_AT = decide (F.TT_CTL_SWAP_AT.get w = 1) ∧
        getB y R.TT_STAT F.TT_STAT_CFGREF = (getB u R.TT_STAT F.TT_STAT_CFGREF || noRun || noSwap) ∧ RegsBut [R.TT_CTL, R.TT_STAT] u y ∧ y = { u with regs := y.regs, mon := { u.mon with counters := y.mon.counters }, integrity := { u.integrity with badWords := y.integrity.badWords } } ∧
        writeTtCtl w u = (if F.TT_CTL_SWAPNOW.get w = 1 ∧ ttRunning u = false then
            bump (ctr 0x000F 2 0) (endSeal (sealInput (cycleTx (gwBoundary (mappedOutputs false (swapOutput (bankSwap (applyService y)))))))) else y)) ∧
  (∀ (m : Master) (v : Word) (s : State), Takes s m R.TT_CTL →
      exec (.ttRunWrite m v) s = .next (answer .ok (writeTtCtl v (dropOverlap R.TT_CTL 4 s))) ∧
      exec (.swapReq m v) s = .next (answer .ok (writeTtCtl (F.TT_CTL_SWAP_REQ.put v 1) (dropOverlap R.TT_CTL 4 s))) ∧
      exec (.swapnow m v) s = .next (answer .ok (writeTtCtl (F.TT_CTL_SWAPNOW.put v 1) (dropOverlap R.TT_CTL 4 s))))

/-- Staging, committing, sending and handing over timetable entries, and receiving CYCLIC. A write of word 1, 2 or 3 of an entry goes to the
bank's stage; a write of word 0 commits the staged words with it, unless the entry is refused with CFGREF; a commit to the entry in
transmission is latched, or refused with PENDREF where one waits. The walk's first due entry starts from its offset on: abandoned for a
parity error, sent, refused by routing, or left to wait for room. A handover ends the transmission and puts a latched commit in force. A
CYCLIC is dropped in SAFE and RECOVERY, refused late or outside the windows, and otherwise stored in the output image. (spec:
12_timetable_and_time.md) -/
def Obligations.TimetableEntriesAreSentAndReceived : Prop :=
  (∀ (m : Master) (bank : Fin 2) (n : Fin 256) (k : Fin 3) (v : Word) (s : State),
      let A := if k.val = 0 then R.TT_ENT_W1 bank n else if k.val = 1 then R.TT_ENT_W2 bank n else R.TT_ENT_W3 bank n
      Takes s m A →
      let u := dropOverlap A 4 s
      let g := ttStage u bank n (masterId u m)
      ∃ t, exec (.ttEntryStage m bank n k v) s = .next t ∧ t.resp = .ok ∧
        tabGet (fun _ => none) t.tt.stages bank = some (if k.val = 0 then { g with w1 := some (fieldBits A v) } else if k.val = 1 then { g with w2 := some (fieldBits A v) } else { g with w3 := some (fieldBits A v) }) ∧
        (∀ b, b ≠ bank.val → tabGet (fun _ => none) t.tt.stages b = tabGet (fun _ => none) s.tt.stages b) ∧ t = { u with resp := t.resp, tt := { u.tt with stages := t.tt.stages }, mon := { u.mon with counters := t.mon.counters } }) ∧
  (∀ (m : Master) (bank : Fin 2) (n : Fin 256) (v : Word) (s : State), Takes s m (R.TT_ENT_W0 bank n) →
      let u := dropOverlap (R.TT_ENT_W0 bank n) 4 s
      let l := ttCommitOf u (masterId u m) bank n v
      ∃ x, tabGet (fun _ => none) x.tt.stages bank = none ∧ (∀ b, b ≠ bank.val → tabGet (fun _ => none) x.tt.stages b = tabGet (fun _ => none) s.tt.stages b) ∧ x = { u with tt := { u.tt with stages := x.tt.stages }, mon := { u.mon with counters := x.mon.counters } } ∧
        (ttEntryBad l = true → ∃ t, exec (.ttEntryCommit m bank n v) s = .next t ∧ t.resp = .ok ∧ getB t R.TT_STAT F.TT_STAT_CFGREF = true ∧ RegsBut [R.TT_STAT] x t ∧ t = { x with regs := t.regs, resp := t.resp }) ∧
        (ttEntryBad l = false → s.tt.sending = some (bank.val, n.val) → bank.val = activeBank u → s.tt.latch = none →
          ∃ t, exec (.ttEntryCommit m bank n v) s = .next t ∧ t.resp = .ok ∧ t.tt.latch = some l ∧ getB t R.TT_STAT F.TT_STAT_PENDING = true ∧ RegsBut [R.TT_STAT] x t ∧ t = { x with regs := t.regs, resp := t.resp, tt := { x.tt with latch := t.tt.latch } }) ∧
        (ttEntryBad l = false → s.tt.sending = some (bank.val, n.val) → bank.val = activeBank u → s.tt.latch ≠ none →
          ∃ y, exec (.ttEntryCommit m bank n v) s = .next (answer .ok (ttNotice 0x82 n y)) ∧ getB y R.TT_STAT F.TT_STAT_PENDREF = true ∧
            getCtr y (ctr 0x000F 6 0) = (getCtr x (ctr 0x000F 6 0) + 1) % 2 ^ 48 ∧ RegsBut [R.TT_STAT] x y ∧ y = { x with regs := y.regs, mon := { x.mon with counters := y.mon.counters }, integrity := { x.integrity with badWords := y.integrity.badWords } }) ∧
        (ttEntryBad l = false → (s.tt.sending ≠ some (bank.val, n.val) ∨ bank.val ≠ activeBank u) → exec (.ttEntryCommit m bank n v) s = .next (answer .ok (enterTt l x)))) ∧
  (∀ (l : TtLatch) (s : State),
      let t := enterTt l s
      getReg t (R.TT_ENT_W0 l.bank l.entry) = l.w0 ∧ getReg t (R.TT_ENT_W1 l.bank l.entry) = l.w1 ∧ getReg t (R.TT_ENT_W2 l.bank l.entry) = l.w2 ∧ getReg t (R.TT_ENT_W3 l.bank l.entry) = l.w3 ∧
      ttEntryParity t l.bank l.entry = false ∧ (l.bank ≠ activeBank s → l.entry < 256 → l.bank < 2 → t.tt = s.tt) ∧
      RegsBut [R.TT_ENT_W0 l.bank l.entry, R.TT_ENT_W1 l.bank l.entry, R.TT_ENT_W2 l.bank l.entry, R.TT_ENT_W3 l.bank l.entry] s t ∧ t = { s with regs := t.regs, mon := { s.mon with counters := t.mon.counters }, integrity := { s.integrity with badWords := t.integrity.badWords }, tt := { s.tt with skip := t.tt.skip } }) ∧
  (∀ (s : State),
      ((s.time.sealing = true ∨ s.tt.sending ≠ none) → exec .ttEntryStart s = .next s) ∧
      (s.time.sealing = false → s.tt.sending = none → 
        (ttFrom s (activeBank s) (cycleNumber s) s.tt.walk = [] → exec .ttEntryStart s = .next s) ∧
        (∀ n r, ttFrom s (activeBank s) (cycleNumber s) s.tt.walk = n :: r → 
          let o := originate 4 (cyclicEnv s (activeBank s) n) s
          let due := s.tt.edge + F.TT_ENT_W0_OFFSET.get (ttWord s (activeBank s) n 0)
          (nowNs s < due → exec .ttEntryStart s = .next s) ∧
          (due ≤ nowNs s → ttEntryParity s (activeBank s) n = true → ∃ y, exec .ttEntryStart s = .next (latchFault 4 y) ∧ y.tt = { s.tt with walk := n + 1, waited := false } ∧ y = { s with tt := y.tt, mon := { s.mon with counters := y.mon.counters } }) ∧
          (due ≤ nowNs s → ttEntryParity s (activeBank s) n = false → o.2 = .accepted → ∃ t, exec .ttEntryStart s = .next t ∧
            t.tt = { o.1.tt with walk := n + 1, waited := false, sending := some (activeBank s, n) } ∧ t = { o.1 with tt := t.tt }) ∧
          (due ≤ nowNs s → ttEntryParity s (activeBank s) n = false → o.2 = .noRoute → ∃ t, exec .ttEntryStart s = .next t ∧
            t.tt = { o.1.tt with walk := n + 1, waited := false } ∧ getCtr t (ctr 0x000F 12 0) = (getCtr o.1 (ctr 0x000F 12 0) + 1) % 2 ^ 48 ∧ t = { o.1 with tt := t.tt, mon := { o.1.mon with counters := t.mon.counters } }) ∧
          (due ≤ nowNs s → ttEntryParity s (activeBank s) n = false → o.2 = .noRoom → ∃ t, exec .ttEntryStart s = .next t ∧
            t.tt = { s.tt with waited := true } ∧ (s.tt.waited = true → t = s) ∧ t = { s with tt := t.tt, mon := { s.mon with counters := t.mon.counters } })))) ∧
  (∀ (s : State) (bank n : Nat), 
      let e := cyclicEnv s bank n
      let l := F.TT_ENT_W1_LENW.get (ttWord s bank n 1)
      e.kind = kCyclic ∧ e.cls = 0 ∧ e.mc = decide (F.TT_ENT_W1_MC.get (ttWord s bank n 1) = 1) ∧ e.dst = BitVec.ofNat 16 (F.TT_ENT_W1_DST.get (ttWord s bank n 1)) ∧
      e.tag = BitVec.ofNat 12 (cycleNumber s) ∧ e.payload = (List.range l).map (fun j => getMem64 s (inImage + 8 * F.TT_ENT_W2_SOFF.get (ttWord s bank n 2) + 8 * j)) ∧
      e.addr = BitVec.ofNat 48 (outImage + 8 * F.TT_ENT_W3_DOFF.get (ttWord s bank n 3))) ∧
  (∀ (s : State), (s.tt.sending = none → exec .ttEntryHandover s = .next s) ∧
      (s.tt.sending ≠ none → ∃ x, x.tt = { s.tt with sending := none } ∧ getCtr x (ctr 0x000F 3 0) = (getCtr s (ctr 0x000F 3 0) + 1) % 2 ^ 48 ∧ x = { s with tt := x.tt, mon := { s.mon with counters := x.mon.counters } } ∧
        (s.tt.latch = none → exec .ttEntryHandover s = .next x) ∧
        (∀ l, s.tt.latch = some l → ∃ y, getB y R.TT_STAT F.TT_STAT_PENDING = false ∧ RegsBut [R.TT_STAT] x y ∧ y = { x with regs := y.regs, tt := { x.tt with latch := y.tt.latch } } ∧ y.tt.latch = none ∧ exec .ttEntryHandover s = .next (enterTt l y)))) ∧
  (∀ (e : Envelope) (s : State),
      let f := asKind kCyclic e
      let x := bump (ctr 0x000F 7 0) (takeDelivered f s)
      (2 ≤ serviceMode x → exec (.cyclic e) s = .next (bump (ctr 0x000F 10 0) x)) ∧
      (serviceMode x < 2 → f.tag.toNat ≠ cycleNumber x % 4096 → ∃ y, exec (.cyclic e) s = .next (ttNotice 0x83 f.src.toNat y) ∧ getB y R.TT_STAT F.TT_STAT_LATE = true ∧
        getCtr y (ctr 0x000F 8 0) = (getCtr x (ctr 0x000F 8 0) + 1) % 2 ^ 48 ∧ RegsBut [R.TT_STAT] x y ∧ y = { x with regs := y.regs, mon := { x.mon with counters := y.mon.counters }, integrity := { x.integrity with badWords := y.integrity.badWords } }) ∧
      (serviceMode x < 2 → f.tag.toNat = cycleNumber x % 4096 → cyclicWindow x f = none → ∃ y, exec (.cyclic e) s = .next (ttNotice 0x83 f.src.toNat y) ∧ getB y R.TT_STAT F.TT_STAT_RXREF = true ∧
        getCtr y (ctr 0x000F 9 0) = (getCtr x (ctr 0x000F 9 0) + 1) % 2 ^ 48 ∧ RegsBut [R.TT_STAT] x y ∧ y = { x with regs := y.regs, mon := { x.mon with counters := y.mon.counters }, integrity := { x.integrity with badWords := y.integrity.badWords } }) ∧
      (∀ n, serviceMode x < 2 → f.tag.toNat = cycleNumber x % 4096 → cyclicWindow x f = some n →
        exec (.cyclic e) s = .next (storeCyclic f (if n ∈ x.tt.written then bump (ctr 0x000F 11 0) x else onTt (fun t => { t with written := n :: t.written }) x)))) ∧
  (∀ (e : Envelope) (s : State), 0x208000 ≤ e.addr.toNat → e.addr.toNat + 8 * e.lenw.toNat ≤ 0x210000 →
      (∀ j, j < e.lenw.toNat → getMem64 (storeCyclic e s) (fillOf (e.addr.toNat + 8 * j)) = payloadWord e j) ∧
      (∀ a, (a < fillOf e.addr.toNat ∨ fillOf (e.addr.toNat + 8 * e.lenw.toNat) ≤ a) → getByte (storeCyclic e s) a = getByte s a))

/-- Writes of the track registers, the four track states, and published and received samples. A write of TK_CFG or TK_RSRC while HOLD is 0 that
would change the source or the window is refused with CFGREF; any other is performed, restarts the window for a new source, and is followed
by a review of the track's state. The review moves the track to the state that R321 gives: a track that stops freezes, each change is
reported, DISCARD entries are disarmed at STALE, and an absolute or remote track that moves again makes a judged jump. HOLD writes hold and
release. TK_POS makes a silent jump. A track is sampled once in a cycle, from its OFFSET on: its sample leaves, is refused, or waits for
room, at most 1 µs; an OFFSET beyond the cycle is an omission. A received sample is offered to each subscribing track. (spec:
13_tracks_and_waymarks.md) -/
def Obligations.TracksFollowTheirSourceAndState : Prop :=
  (∀ (m : Master) (n : Fin 16) (rsrc : Bool) (v : Word) (s : State),
      let A := if rsrc = true then R.TK_RSRC n else R.TK_CFG n
      let fs := if rsrc = true then [F.TK_RSRC_NODE, F.TK_RSRC_TRACK, F.TK_RSRC_EN] else [F.TK_CFG_SRC, F.TK_CFG_SEL, F.TK_CFG_VWIN]
      Takes s m A → 
      let u := dropOverlap A 4 s
      let y := plainWrite A v u
      let other := changesAny u A (if rsrc = true then fs else [F.TK_CFG_SRC, F.TK_CFG_SEL]) v
      (getB u (R.TK_CTL n) F.TK_CTL_HOLD = false → changesAny u A fs v = true → ∃ t, exec (.tkCfgWrite m n rsrc v) s = .next t ∧ t.resp = .ok ∧
        getB t (R.TK_STAT n) F.TK_STAT_CFGREF = true ∧ OnlyRegs [R.TK_STAT n] (declineWrite A v u) t) ∧
      ((getB u (R.TK_CTL n) F.TK_CTL_HOLD = true ∨ changesAny u A fs v = false) → ∃ x, OnlyRegs [A] u y ∧ exec (.tkCfgWrite m n rsrc v) s = .next (answer .ok (reviewTrack n x)) ∧
        (other = false → x = y) ∧ 
        (other = true → rsrc = false → getTrack x n = { getTrack s n with window := [], vel := 0, raw := none }) ∧
        (other = true → rsrc = true → isRemote u n = true → getTrack x n = { getTrack s n with window := [], vel := 0, raw := none, sample := none, seqIn := none, badSample := false }) ∧
        (other = true → rsrc = true → isRemote u n = false → getTrack x n = { getTrack s n with sample := none, seqIn := none, badSample := false }) ∧
        (∀ k, k ≠ n.val → getTrack x k = getTrack s k) ∧ x = { y with tracks := { y.tracks with tracks := x.tracks.tracks } })) ∧
  (∀ (n : Nat) (s : State), (evalState s n = trackState s n → reviewTrack n s = s) ∧
      (evalState s n ≠ trackState s n →
        ∃ y, trackState y n = evalState s n ∧ getTrack y n = { getTrack s n with pos := if trackState s n < 2 ∧ 2 ≤ evalState s n then frozenPos s n else (getTrack s n).pos } ∧
          (∀ k, k ≠ n → getTrack y k = getTrack s k) ∧ RegsBut [R.TK_STAT n] s y ∧ y = { s with regs := y.regs, tracks := { s.tracks with tracks := y.tracks.tracks } } ∧
          (let z := tkNotice n 0x01 (evalState s n) y
           reviewTrack n s = (if evalState s n = 2 then stalePolicy n z
            else if 2 ≤ trackState s n ∧ evalState s n < 2 then
              (if isIncremental z n = true then evalTrack .cross n z else judgedJump (decide (trackState s n = 2)) n (onTrack n (fun t => { t with firstAfter := true }) z))
            else z)))) ∧
  (∀ (m : Master) (n : Fin 16) (v : Word) (s : State), Takes s m (R.TK_CTL n) →
      let u := dropOverlap (R.TK_CTL n) 4 s
      (∃ y t, getB y (R.TK_CTL n) F.TK_CTL_HOLD = true ∧ OnlyRegs [R.TK_CTL n] u y ∧ exec (.trackHold m n v) s = .next t ∧ t = answer .ok (reviewTrack n y) ∧ trackState t n = 3) ∧
      (∃ y, getB y (R.TK_CTL n) F.TK_CTL_HOLD = false ∧ OnlyRegs [R.TK_CTL n] u y ∧ exec (.trackRelease m n v) s = .next (answer .ok (reviewTrack n y)))) ∧
  (∀ (m : Master) (n : Fin 16) (v : Word) (s : State), Takes s m (R.TK_POS_LO n) →
      let u := dropOverlap (R.TK_POS_LO n) 4 s
      let hi := (stagedUpper u (masterId u m) (R.TK_POS_LO n) (BitVec.ofNat 32 (trackPos u n / 2 ^ 32)) 0).1
      let new := v.toNat + 2 ^ 32 * hi.toNat
      ∃ x, getStage x (R.TK_POS_LO n) = none ∧ x = { u with stages := x.stages } ∧
        (isIncremental u n = true → ∃ y, exec (.tkPosWrite m n v) s = .next (answer .ok (evalTrack .silent n y)) ∧
          getTrack y n = { getTrack s n with pos := new, jumped := true, window := (getTrack s n).window.map (fun q => ((q.1 + (new + 2 ^ 64 - (getTrack s n).pos % 2 ^ 64)) % 2 ^ 64, q.2)) } ∧
          (∀ k, k ≠ n.val → getTrack y k = getTrack s k) ∧ y = { x with tracks := { x.tracks with tracks := y.tracks.tracks } }) ∧
        (isIncremental u n = false → ∃ t, exec (.tkPosWrite m n v) s = .next t ∧ t.resp = .ok ∧ getB t (R.TK_STAT n) F.TK_STAT_CFGREF = true ∧ RegsBut [R.TK_STAT n] x t ∧ t = { x with regs := t.regs, mon := { x.mon with counters := t.mon.counters }, integrity := { x.integrity with badWords := t.integrity.badWords }, resp := t.resp })) ∧
  (∀ (n : Fin 16) (s : State),
      (isRemote s n = false → exec (.trackSourceInvalid n) s = .next (reviewTrack n s) ∧ exec (.trackFreshExpiry n) s = .next s ∧ exec (.trackCoastExpiry n) s = .next s) ∧
      (isRemote s n = true → exec (.trackSourceInvalid n) s = .next s ∧ exec (.trackFreshExpiry n) s = .next (reviewTrack n s) ∧
        exec (.trackCoastExpiry n) s = .next (if pastCoast s n = true then reviewTrack n s else s))) ∧
  (∀ (n : Fin 16) (s : State),
      let e := sampleEnv s n
      let u := onTt (fun t => { t with published := n.val :: t.published }) s
      let off := getF s (R.TK_PUB_A n) F.TK_PUB_A_OFFSET
      ((getB s (R.TK_PUB_A n) F.TK_PUB_A_EN = false ∨ quarantined s = true ∨ s.tt.cycling = false ∨ n.val ∈ s.tt.published) → exec (.trackPublish n) s = .next s) ∧
      (getB s (R.TK_PUB_A n) F.TK_PUB_A_EN = true → quarantined s = false → s.tt.cycling = true → n.val ∉ s.tt.published →
        (getF s R.TT_CYCLE F.TT_CYCLE_NS ≤ off → exec (.trackPublish n) s = .next (bump (ctr 0x0011 6 n) u)) ∧
        (off < getF s R.TT_CYCLE F.TT_CYCLE_NS → nowNs s < s.tt.edge + off → exec (.trackPublish n) s = .next s) ∧
        (off < getF s R.TT_CYCLE F.TT_CYCLE_NS → s.tt.edge + off ≤ nowNs s → 
          let o := originate 5 e u
          (o.2 = .accepted → ∃ t, exec (.trackPublish n) s = .next t ∧ getTrack t n = { getTrack o.1 n with seqOut := ((getTrack o.1 n).seqOut + 1) % 65536, jumped := false } ∧
            (∀ k, k ≠ n.val → getTrack t k = getTrack o.1 k) ∧ (isRemote o.1 n = false → getF t (R.TK_STAT n) F.TK_STAT_SEQ = (getTrack s n).seqOut % 65536) ∧
            (isRemote o.1 n = true → t.regs = o.1.regs) ∧
            getCtr t (ctr 0x0011 2 n) = (getCtr o.1 (ctr 0x0011 2 n) + 1) % 2 ^ 48 ∧ RegsBut [R.TK_STAT n] o.1 t ∧ t = { o.1 with regs := t.regs, mon := { o.1.mon with counters := t.mon.counters }, integrity := { o.1.integrity with badWords := t.integrity.badWords }, tracks := { o.1.tracks with tracks := t.tracks.tracks } }) ∧
          (o.2 = .noRoute → ∃ t, exec (.trackPublish n) s = .next t ∧ getB t (R.TK_STAT n) F.TK_STAT_PUBREF = true ∧
            getCtr t (ctr 0x0011 6 n) = (getCtr o.1 (ctr 0x0011 6 n) + 1) % 2 ^ 48 ∧ RegsBut [R.TK_STAT n] o.1 t ∧ t = { o.1 with regs := t.regs, mon := { o.1.mon with counters := t.mon.counters }, integrity := { o.1.integrity with badWords := t.integrity.badWords } }) ∧
          (o.2 = .noRoom → exec (.trackPublish n) s = .next (onTracks (fun x => { x with samples := x.samples ++ [(n.val, e, s.time.ltick)] }) o.1))))) ∧
  (∀ (s : State) (n : Nat),
      let e := sampleEnv s n
      e.kind = kTrackSample ∧ e.cls = BitVec.ofNat 2 (getF s (R.TK_PUB_A n) F.TK_PUB_A_CLASS) ∧ e.mc = getB s (R.TK_PUB_B n) F.TK_PUB_B_MC ∧ e.tag = 0 ∧
      e.payload = [sampleWord s n, BitVec.ofNat 64 (trackPos s n), BitVec.ofInt 64 (trackVel s n), BitVec.ofNat 64 (sampleInstant s n)] ∧
      (isIncremental s n = true → (getTrack s n).window ≠ [] → sampleInstant s n = (getTrack s n).t % 2 ^ 64) ∧
      ((isIncremental s n = false ∨ (getTrack s n).window = []) → sampleInstant s n = now64 s)) ∧
  (∀ (e : Envelope) (s : State),
      let f := asKind kTrackSample e
      let tick := ((deliveredMark s f).map (fun m => m.tick)).getD s.time.ltick
      let x := takeDelivered f s
      let ns := (List.range 16).filter (fun n => subscribes x n f.src.toNat (bitsOf (payloadWord f 0).toNat 0 4))
      ((ns = [] ∨ f.lenw ≠ 4) → exec (.trackSample e) s = .next (bump (ctr 0x0011 5 0) x)) ∧
      (ns ≠ [] → f.lenw = 4 → exec (.trackSample e) s = .next (ns.foldl (fun s n => takeSample n f tick s) (if poisonBits f ≠ 0 then consumePoison 8 x else x)))) ∧
  (∀ (n : Nat) (e : Envelope) (tick : Nat) (s : State),
      (sampleDiscarded s n e = true → getB (takeSample n e tick s) (R.TK_STAT n) F.TK_STAT_SAMPREF = true ∧ getCtr (takeSample n e tick s) (ctr 0x0011 4 n) = (getCtr s (ctr 0x0011 4 n) + 1) % 2 ^ 48 ∧ RegsBut [R.TK_STAT n] s (takeSample n e tick s) ∧ (takeSample n e tick s) = { s with regs := (takeSample n e tick s).regs, mon := { s.mon with counters := (takeSample n e tick s).mon.counters }, integrity := { s.integrity with badWords := (takeSample n e tick s).integrity.badWords } }) ∧
      (sampleDiscarded s n e = false → ∃ x, getF x (R.TK_STAT n) F.TK_STAT_SEQ = bitsOf (payloadWord e 0).toNat 16 16 ∧ getTrack x n = { getTrack s n with seqIn := some (bitsOf (payloadWord e 0).toNat 16 16) } ∧
        (∀ k, k ≠ n → getTrack x k = getTrack s k) ∧ getCtr x (ctr 0x0011 3 n) = (getCtr s (ctr 0x0011 3 n) + 1) % 2 ^ 48 ∧ RegsBut [R.TK_STAT n] s x ∧ x = { s with regs := x.regs, mon := { s.mon with counters := x.mon.counters }, integrity := { s.integrity with badWords := x.integrity.badWords }, tracks := { s.tracks with tracks := x.tracks.tracks } } ∧
        ((2 ≤ bitsOf (payloadWord e 0).toNat 4 2 ∨ bitOf (payloadWord e 0).toNat 7 = true) → takeSample n e tick s = reviewTrack n (onTrack n (fun t => { t with badSample := true }) x)) ∧
        (bitsOf (payloadWord e 0).toNat 4 2 < 2 → bitOf (payloadWord e 0).toNat 7 = false →
          let z := reviewTrack n (onTrack n (fun t => { t with sample := some ((payloadWord e 1).toNat, (payloadWord e 2).toNat, (payloadWord e 3).toNat), badSample := false, rxTick := tick }) x)
          (moving z n = false → takeSample n e tick s = z) ∧
          (moving z n = true → ∃ w, getTrack w n = { getTrack z n with firstAfter := false } ∧ w = { z with tracks := { z.tracks with tracks := w.tracks.tracks } } ∧
            takeSample n e tick s = (if moving x n = false then w
              else if (getTrack x n).firstAfter = true ∨ (payloadWord e 0).getLsbD 6 = true ∨ (getReg w (R.TK_JUMP n)).toNat * 65536 < (signed 64 (trackPos w n + 2 ^ 64 - trackPos x n)).natAbs then judgedJump false n w
              else evalTrack .cross n w))))) ∧
  (∀ (s : State) (n : Nat) (e : Envelope) (k : Nat),
      let o := offerSample n e s
      (o.2 ≠ .noRoom → ∃ t, retrySample s (n, e, k) = t ∧ t.tracks.samples = o.1.tracks.samples.erase (n, e, k) ∧ t = { o.1 with tracks := { o.1.tracks with samples := t.tracks.samples } }) ∧
      (o.2 = .noRoom → 2 * ticksSince s k ≤ 625 → retrySample s (n, e, k) = s) ∧
      (o.2 = .noRoom → 625 < 2 * ticksSince s k → ∃ t, retrySample s (n, e, k) = t ∧ t.tracks.samples = o.1.tracks.samples.erase (n, e, k) ∧
        getB t (R.TK_STAT n) F.TK_STAT_PUBREF = true ∧ getCtr t (ctr 0x0011 6 n) = (getCtr o.1 (ctr 0x0011 6 n) + 1) % 2 ^ 48 ∧ RegsBut [R.TK_STAT n] o.1 t ∧ t = { o.1 with regs := t.regs, mon := { o.1.mon with counters := t.mon.counters }, integrity := { o.1.integrity with badWords := t.integrity.badWords }, tracks := { o.1.tracks with samples := t.tracks.samples } }))

/-- The take-up of waymark entries, crossings, the action step and its eight actions. A take-up follows the waymark RAM: an entry with EN 0
leaves the scheduler, an unchanged one stays, a new or changed one is taken up, and is discarded on a STALE track where its policy says so.
A crossing evaluates every armed entry of a track while firing is on; a passed mark enters the queue with its postmarks, or is missed when
64 wait. The action step takes a crossing of its kind, five UCLK cycles after its edge at the earliest, one of a track and four in all in a
cycle: suspended firing drops it, a bad entry is disarmed, and a good one is recorded, disarmed or moved, and its action performed. The
hub's writes of an entry yield to a master's write of the same word in the same cycle. Pulse ends, emits, capture records with their image
copies, WM_CTL and capture reads do as R342, R345, R347 and R349 say. Where no crossing of a kind can be taken, nothing changes. (spec:
13_tracks_and_waymarks.md) -/
def Obligations.WaymarksFire : Prop :=
  (∀ (i : Fin 4096) (s : State),
      let r := ramEntry s i
      let old := getEntry s i
      (r.ctl % 2 = 0 → ∃ t, exec (.waymarkTakeup i) s = .next t ∧ getEntry t i = none ∧ (∀ k, k ≠ i.val → getEntry t k = getEntry s k) ∧
        t.tracks.queue = s.tracks.queue.filter (fun f => f.entry ≠ i.val) ∧ t = { s with tracks := { s.tracks with entries := t.tracks.entries, queue := t.tracks.queue } }) ∧
      (r.ctl % 2 ≠ 0 → (∃ e, old = some e ∧ e.pos = r.pos ∧ e.ctl = r.ctl ∧ e.period = r.period) → exec (.waymarkTakeup i) s = .next s) ∧
      (r.ctl % 2 ≠ 0 → (∀ e, old = some e → ¬(e.pos = r.pos ∧ e.ctl = r.ctl ∧ e.period = r.period)) →
        let e := { r with queued := old.any (fun e => e.queued) }
        ∃ x, getEntry x i = some e ∧ (∀ k, k ≠ i.val → getEntry x k = getEntry s k) ∧ x = { s with tracks := { s.tracks with entries := x.tracks.entries } } ∧
          exec (.waymarkTakeup i) s = .next (if trackState x (wmTrack r.ctl) = 2 ∧ wmStp r.ctl = 2 then wmDiscard i (wmTrack r.ctl) x
            else if moving x (wmTrack r.ctl) = true ∧ firingOn x = true ∧ e.queued = false then evalEntry .cross (i, e) x else x))) ∧
  (∀ (n : Fin 16) (s : State), ((moving s n = false ∨ firingOn s = false) → exec (.waymarkCrossing n) s = .next s) ∧
      (moving s n = true → firingOn s = true → exec (.waymarkCrossing n) s = .next ((trackEntries s n).foldl (fun s x => evalEntry .cross x s) s))) ∧
  (∀ (i : Nat) (e : WmEntry) (s : State),
      let d := wmDiff s e
      let t := { e with side := signOf d, fresh := false }
      ∃ x, getEntry x i = some t ∧ (∀ k, k ≠ i → getEntry x k = getEntry s k) ∧ x = { s with tracks := { s.tracks with entries := x.tracks.entries } } ∧
        (e.fresh = true → evalEntry .cross (i, e) s = (if (wmDir e.ctl = 0 ∧ 0 ≤ d) ∨ (wmDir e.ctl = 1 ∧ d ≤ 0) then wmJudge false i (decide (wmDir e.ctl = 0)) d t x else x)) ∧
        (e.fresh = false → evalEntry .cross (i, e) s = (if crosses (wmDir e.ctl) e.side d = true then wmEnqueue i false (decide (e.side < 0)) t x else x))) ∧
  (∀ (i : Nat) (late forward : Bool) (e : WmEntry) (s : State),
      (s.tracks.queue.length < 64 → ∃ f, f.entry = i ∧ f.track = wmTrack e.ctl ∧ f.pm = pmItb s 0 ∧ f.pms = (List.range 16).map (fun d => pmVd s d) ∧ f.tick = s.time.ltick ∧
        f.pos = trackPos s (wmTrack e.ctl) ∧ f.late = late ∧ f.forward = forward ∧
        (let t := wmEnqueue i late forward e s
         t.tracks.queue = s.tracks.queue ++ [f] ∧ getEntry t i = some { e with queued := true } ∧ (∀ k, k ≠ i → getEntry t k = getEntry s k) ∧
         getCtr t (ctr 0x0012 0 0) = (getCtr s (ctr 0x0012 0 0) + 1) % 2 ^ 48 ∧ t = { s with tracks := { s.tracks with queue := t.tracks.queue, entries := t.tracks.entries }, mon := { s.mon with counters := t.mon.counters } })) ∧
      (64 ≤ s.tracks.queue.length → wmEnqueue i late forward e s = wmMiss i forward e (bump (ctr 0x0012 0 0) s))) ∧
  (∀ (s : State) (f : Firing) (e : WmEntry) (kind : Nat), nextFiring s kind = some f → getEntry s f.entry = some e →
      let y := onTracks (fun x => { x with queue := x.queue.erase f, chosen := (uclkEdges s.time.ltick, f.track :: chosenNow s) }) s
      (∀ act, firingOn s = false → fire kind act s = setEntry f.entry (some { e with queued := false, side := if f.forward = true then -1 else 1 }) y) ∧
      (∀ act, firingOn s = true → entryBad s f.entry e = true → fire kind act s = badFiring f y) ∧
      (firingOn s = true → entryBad s f.entry e = false →
        let z := recordFiring f e y
        let x := if wmPeriodic e.ctl = true then wmMove f.entry f.forward z else wmDisarm f.entry z
        (kind = 0 → exec .actPin s = .next (actPins f.entry (bitsOf (argA x f) 16 4) (argA x f % 65536) (fun p => if bitOf (argA x f) 20 = true then none else some (bitOf (argB x f) (p % 16))) x)) ∧
        (kind = 1 → exec .actPulse s = .next (actPulse f x)) ∧
        (kind = 2 → exec .actFlag s = .next (if inUnitReset x 0x0003 (bitsOf (argA x f) 0 4) = true then x else raiseFlags (bitsOf (argA x f) 0 4) (bitsOf (argA x f) 4 8) x)) ∧
        (kind = 3 → (16 ≤ x.tracks.emits.length ∨ getB x (R.WM_TPL_A (bitsOf (argA x f) 0 6)) F.WM_TPL_A_VALID = false) → exec .actEmit s = .next (wmLost f.track 1 10 F.WM_STAT_EMITDROP x)) ∧
        (kind = 3 → x.tracks.emits.length < 16 → getB x (R.WM_TPL_A (bitsOf (argA x f) 0 6)) F.WM_TPL_A_VALID = true → ∃ t, exec .actEmit s = .next t ∧
          t.tracks.emits = x.tracks.emits ++ [{ template := bitsOf (argA x f) 0 6, data := argB x f, entry := f.entry, track := f.track, pm := f.pm }] ∧ t = { x with tracks := { x.tracks with emits := t.tracks.emits } }) ∧
        (kind = 4 → exec .actBus s = .next (requestObj (bitsOf (argA x f) 0 3) (bitsOf (argA x f) 3 7) false x)) ∧
        (kind = 5 → exec .actCapture s = .next (actCapture f x)) ∧
        (kind = 6 → exec .actNotice s = .next (postPm (bitsOf (argA x f) 0 5) 0x0012 f.track (bitsOf (argA x f) 8 8) (argB x f) ((f.pms[queueVd x (bitsOf (argA x f) 0 5)]?).getD 0) x)) ∧
        (kind = 7 → exec .actChain s = .next (actChain f e.pos x)))) ∧
  (∀ (s : State), (nextFiring s 0 = none → exec .actPin s = .next s) ∧ (nextFiring s 1 = none → exec .actPulse s = .next s) ∧
      (nextFiring s 2 = none → exec .actFlag s = .next s) ∧ (nextFiring s 3 = none → exec .actEmit s = .next s) ∧
      (nextFiring s 4 = none → exec .actBus s = .next s) ∧ (nextFiring s 5 = none → exec .actCapture s = .next s) ∧
      (nextFiring s 6 = none → exec .actNotice s = .next s) ∧ (nextFiring s 7 = none → exec .actChain s = .next s)) ∧
  (∀ (f : Firing) (e : WmEntry) (s : State),
      let t := recordFiring f e s
      (∀ a, (a < wmAddr f.entry 6 ∨ wmAddr f.entry 6 + 8 ≤ a) → getByte t a = getByte s a) ∧
      wmWord t f.entry 7 = (if wmHeld s f.entry 7 = true then wmWord s f.entry 7 else f.pm.toNat / 2 ^ 16 % 2 ^ 32) ∧
      wmWord t f.entry 6 = (if wmHeld s f.entry 6 = true then wmWord s f.entry 6 else (wmWord s f.entry 6 + 1) % 65536 + 2 ^ 16 + bit1 f.late * 2 ^ 17 + bit1 (decide (4 < addedSkew s f)) * 2 ^ 21) ∧
      t.tracks = s.tracks ∧ getCtr t (ctr 0x0012 1 0) = (getCtr s (ctr 0x0012 1 0) + 1) % 2 ^ 48) ∧
  (∀ (i : Nat) (s : State), getEntry (wmDisarm i s) i = none ∧ (∀ k, k ≠ i → getEntry (wmDisarm i s) k = getEntry s k) ∧
      wmWord (wmDisarm i s) i 2 = (if wmHeld s i 2 = true then wmWord s i 2 else wmWord s i 2 - wmWord s i 2 % 2) ∧
      (∀ a, (a < wmAddr i 2 ∨ wmAddr i 2 + 4 ≤ a) → getByte (wmDisarm i s) a = getByte s a) ∧ (wmDisarm i s).regs = s.regs) ∧
  (∀ (k : Fin 64) (s : State), (tabGet (fun _ => none) s.tracks.pulses k = none → exec (.pulseEnd k) s = .next s) ∧
      (∀ p, tabGet (fun _ => none) s.tracks.pulses k = some p → uclkEdges s.time.ltick < p.due → exec (.pulseEnd k) s = .next s) ∧
      (∀ p, tabGet (fun _ => none) s.tracks.pulses k = some p → p.due ≤ uclkEdges s.time.ltick → ∃ x, tabGet (fun _ => none) x.tracks.pulses k = none ∧ (∀ j, j ≠ k.val → tabGet (fun _ => none) x.tracks.pulses j = tabGet (fun _ => none) s.tracks.pulses j) ∧
        x = { s with tracks := { s.tracks with pulses := x.tracks.pulses } } ∧ exec (.pulseEnd k) s = .next ((maskPins p.bank (woutMask x p.bank p.mask)).foldl (fun s q => driveWout q p.level s) x))) ∧
  (∀ (s : State), (s.tracks.emits = [] → exec .emitDispatch s = .next s) ∧
      (∀ m rest, s.tracks.emits = m :: rest → ((chanState s 3 = 1 ∨ ownerOf s 3 ≠ 2) → exec .emitDispatch s = .next s) ∧
        (chanState s 3 ≠ 1 → ownerOf s 3 = 2 → 
          let x := loadEmit m (onTracks (fun x => { x with emits := rest }) s)
          (goRefused x 3 (getReg x (R.BR_OC_CMD 3)) = true → exec .emitDispatch s = .next (wmLost m.track 1 10 F.WM_STAT_EMITDROP x)) ∧
          (goRefused x 3 (getReg x (R.BR_OC_CMD 3)) = false → exec .emitDispatch s = .next (issue 3 false x))))) ∧
  (∀ (m : Master) (v : Word) (s : State), Takes s m R.WM_CTL → ∃ y, getReg y R.WM_CTL = getReg (plainWrite R.WM_CTL v s) R.WM_CTL ∧ getB y R.WM_CTL F.WM_CTL_EN = decide (F.WM_CTL_EN.get v = 1) ∧
      OnlyRegs [R.WM_CTL] (dropOverlap R.WM_CTL 4 s) y ∧ exec (.wmCtlWrite m v) s = .next (answer .ok (reviewFiring y))) ∧
  (∀ (m : Master) (s : State), Reads s m R.WM_CAP_LO →
      (s.tracks.caps = [] → ∃ t, exec (.wmCapRead m) s = .next t ∧ t.resp = .data 0 false ∧ getLatch t R.WM_CAP_LO = some { tag := masterId s m, hi := 0, top := 0, ext := 0 } ∧ t = { s with latches := t.latches, resp := t.resp }) ∧
      (∀ r rest, s.tracks.caps = r :: rest → ∃ t, exec (.wmCapRead m) s = .next t ∧ t.resp = .data ((lo32 r.1).zeroExtend 64) false ∧ t.tracks.caps = rest ∧
        getLatch t R.WM_CAP_LO = some { tag := masterId s m, hi := hi32 r.1, top := lo32 r.2, ext := hi32 r.2 } ∧ t = { s with latches := t.latches, resp := t.resp, tracks := { s.tracks with caps := rest } })) ∧
  (∀ (f : Firing) (pos : Nat) (s : State),
      let c := bitsOf (argA s f) 0 12
      let mark := wrap 64 (signed 64 pos + signed 32 (argB s f) * 65536)
      let t := actChain f pos s
      wmWord t c 2 = (if wmHeld s c 2 = true then wmWord s c 2 else wmWord s c 2 / 2 * 2 + bit1 (bitOf (argA s f) 12)) ∧
      (bitOf (argA s f) 12 = true → bitOf (argA s f) 13 = true →
        wmWord t c 0 = (if wmHeld s c 0 = true then wmWord s c 0 else mark % 2 ^ 32) ∧ wmWord t c 1 = (if wmHeld s c 1 = true then wmWord s c 1 else mark / 2 ^ 32)) ∧
      ((bitOf (argA s f) 12 = false ∨ bitOf (argA s f) 13 = false) → getMem64 t (wmAddr c 0) = getMem64 s (wmAddr c 0)) ∧
      (∀ a, (a < wmAddr c 0 ∨ wmAddr c 3 ≤ a) → getByte t a = getByte s a) ∧ t = { s with mem := t.mem, poison := t.poison, mon := { s.mon with counters := t.mon.counters } }) ∧
  (∀ (f : Firing) (s : State),
      (∃ y, (s.tracks.caps.length < 32 → ∃ r : DWord × DWord, r = wmRecord s f (bitsOf (argA s f) 0 4) s.tracks.capLost ∧
          y.tracks.caps = s.tracks.caps ++ [r] ∧ y.tracks.capLost = false ∧ r.2.getLsbD 0 = true ∧ r.2.getLsbD 1 = s.tracks.capLost ∧ y = { s with tracks := { s.tracks with caps := y.tracks.caps, capLost := y.tracks.capLost }, mon := { s.mon with counters := y.mon.counters } }) ∧
        (32 ≤ s.tracks.caps.length → y = onTracks (fun x => { x with capLost := true }) (wmLost f.track 2 12 F.WM_STAT_CAPOVF s)) ∧
        (bitOf (argA s f) 4 = false → actCapture f s = y) ∧
        (bitOf (argA s f) 4 = true → actCapture f s = copyOut (settleCopies (s.tracks.copies ++ [(bitsOf (argA s f) 16 15, wmRecord s f (bitsOf (argA s f) 0 4) s.tracks.capLost)]) y))) ∧
      (freePulse s = none → actPulse f s = wmLost f.track 0 9 F.WM_STAT_PULSEREF s) ∧
      (∀ k, freePulse s = some k →
        let y := actPins f.entry (bitsOf (argA s f) 16 4) (argA s f % 65536) (fun _ => some (bitOf (argA s f) 20)) s
        (woutMask s (bitsOf (argA s f) 16 4) (argA s f % 65536) = 0 → actPulse f s = y) ∧
        (woutMask s (bitsOf (argA s f) 16 4) (argA s f % 65536) ≠ 0 →
          tabGet (fun _ => none) (actPulse f s).tracks.pulses k = some { bank := bitsOf (argA s f) 16 4, mask := woutMask s (bitsOf (argA s f) 16 4) (argA s f % 65536), level := !bitOf (argA s f) 20, due := uclkEdges s.time.ltick + argB s f % 2 ^ 24 } ∧
          actPulse f s = { y with tracks := { y.tracks with pulses := (actPulse f s).tracks.pulses } })))

/-- DPX_CTL, the interlock, the step of a pair, its messages and the HEALTH report. EN is refused with CFGREF outside a ready pair, and
otherwise takes the hub to STANDBY; clearing it drops the claim and goes to OFF. YIELD hands over only an ACTIVE hub with a READY partner,
CLRF leaves FAULTED only without a selected fault, and FAULT latches fault 5. A selected fault takes an ACTIVE hub, which drops its claim
and its voice, or a STANDBY to FAULTED. PEER high turns drive off, and side B withdraws; PEER low lets a claiming hub drive. A standby that
may claim becomes ACTIVE and drives. A step edge shows the step, follows or leads the partner, and sends the STEP. A partner message on TIE
is taken, on another port counted, and one with too few words discarded; one that finds no room within 1 µs is not sent. A STEP moves READY,
the offset and ALIGNED. A period of HEALTH sends a report. (spec: 14_duplex_pairs.md) -/
def Obligations.DuplexPairsClaimAndStep : Prop :=
  (∀ (m : Master) (v : Word) (s : State), Takes s m R.DPX_CTL →
      let u := dropOverlap R.DPX_CTL 4 s
      (∀ w, w = F.DPX_CTL_EN.put v 1 → F.DPX_CTL_YIELD.get w = 0 → F.DPX_CTL_CLRF.get w = 0 → F.DPX_CTL_FAULT.get w = 0 → dpxOn u = false →
        (enableOk u = false → ∃ t, exec (.dpxEnable m v) s = .next t ∧ t.resp = .ok ∧ dpxOn t = false ∧ getB t R.DPX_STAT F.DPX_STAT_CFGREF = true ∧ dpxState t = dpxState s ∧ OnlyRegs [R.DPX_CTL, R.DPX_STAT] u t) ∧
        (enableOk u = true → ∃ y, dpxOn y = true ∧ OnlyRegs [R.DPX_CTL] u y ∧ exec (.dpxEnable m v) s = .next (answer .ok (whileFollowing (fun _ => selfTestKick (setDpxState 1 2 y)) u)))) ∧
      (∀ w, w = F.DPX_CTL_EN.put v 0 → F.DPX_CTL_YIELD.get w = 0 → F.DPX_CTL_CLRF.get w = 0 → F.DPX_CTL_FAULT.get w = 0 →
        ∃ y, dpxOn y = false ∧ OnlyRegs [R.DPX_CTL] u y ∧ exec (.dpxDisable m v) s = .next (answer .ok (whileFollowing (fun _ => selfTestKick (if dpxOn u = true then refreshPins (setDpxState 0 2 (dropClaim y)) else y)) u)))) ∧
  (∀ (m : Master) (v : Word) (s : State), Takes s m R.DPX_CTL →
      let u := dropOverlap R.DPX_CTL 4 s
      (∀ w, w = F.DPX_CTL_YIELD.put v 1 → F.DPX_CTL_EN.get w = F.DPX_CTL_EN.get (getReg u R.DPX_CTL) → F.DPX_CTL_CLRF.get w = 0 → F.DPX_CTL_FAULT.get w = 0 →
        ∃ y, OnlyRegs [R.DPX_CTL] u y ∧ exec (.dpxYield m v) s = .next (answer .ok (whileFollowing (fun _ => selfTestKick
          (if dpxState y = 2 ∧ getB y R.DPX_STAT F.DPX_STAT_PREADY = true then setDpxState 1 2 (bump (ctr 0x0013 11 0) (dropClaim y)) else setB y R.DPX_STAT F.DPX_STAT_CFGREF true)) u))) ∧
      (∀ w, w = F.DPX_CTL_CLRF.put v 1 → F.DPX_CTL_EN.get w = F.DPX_CTL_EN.get (getReg u R.DPX_CTL) → F.DPX_CTL_YIELD.get w = 0 → F.DPX_CTL_FAULT.get w = 0 →
        ∃ y, OnlyRegs [R.DPX_CTL] u y ∧ exec (.dpxClrf m v) s = .next (answer .ok (whileFollowing (fun _ => selfTestKick
          (if dpxState y ≠ 3 then y else if selectedFaults y = 0 then setDpxState 1 2 y else setB y R.DPX_STAT F.DPX_STAT_CFGREF true)) u))) ∧
      (∀ w, w = F.DPX_CTL_FAULT.put v 1 → F.DPX_CTL_EN.get w = F.DPX_CTL_EN.get (getReg u R.DPX_CTL) → F.DPX_CTL_YIELD.get w = 0 → F.DPX_CTL_CLRF.get w = 0 →
        ∃ y, OnlyRegs [R.DPX_CTL] u y ∧ exec (.dpxSoftFault m v) s = .next (answer .ok (whileFollowing (fun _ => selfTestKick (latchFault 5 y)) u)))) ∧
  (∀ (f : State → State) (s : State),
      (followsPartner s = followsPartner (f s) → whileFollowing f s = f s) ∧
      (followsPartner s = true → followsPartner (f s) = false → whileFollowing f s = ownSampling (f s)) ∧
      (followsPartner s = false → followsPartner (f s) = true → whileFollowing f s = startFollowing (f s))) ∧
  (∀ (st cause : Nat) (s : State), st < 4 → (dpxState s = st → setDpxState st cause s = s) ∧
      (dpxState s ≠ st → ∃ y, dpxState y = st ∧ RegsBut [R.DPX_STAT] s y ∧ y = { s with regs := y.regs } ∧
        setDpxState st cause s = selfTestKick (healthReport cause (if st = 2 then dpxNotice 0x01 (getReg s R.DPX_STEP).toNat y else if st = 1 then dpxNotice 0x02 (getReg s R.DPX_STEP).toNat y
          else if st = 3 ∨ dpxState s = 2 then dpxNotice 0xC1 (getReg s R.DPX_FAULT).toNat y else y)))) ∧
  (∀ (bit : Nat) (s : State), bit < 32 → ∃ y, getReg y R.DPX_FAULT = getReg s R.DPX_FAULT ||| BitVec.ofNat 32 (2 ^ bit) ∧ getCtr y (ctr 0x0013 12 bit) = (getCtr s (ctr 0x0013 12 bit) + 1) % 2 ^ 48 ∧ RegsBut [R.DPX_FAULT] s y ∧ y = { s with regs := y.regs, mon := { s.mon with counters := y.mon.counters }, integrity := { s.integrity with badWords := y.integrity.badWords } } ∧
      ((getReg s R.DPX_FMASK).getLsbD bit = true → dpxState s = 2 → latchFault bit s = setDpxState 3 1 (silence (dropClaim y))) ∧
      ((getReg s R.DPX_FMASK).getLsbD bit = true → dpxState s = 1 → latchFault bit s = setDpxState 3 1 (dropClaim y)) ∧
      (((getReg s R.DPX_FMASK).getLsbD bit = false ∨ (dpxState s ≠ 1 ∧ dpxState s ≠ 2)) → latchFault bit s = y)) ∧
  (∀ (s : State), (∀ m x, m < 8 → (tabGet (fun _ => Mb.reset) s.buses.mbs m).tx = some x → x.obj < 128) →
      getB (dropClaim s) R.DPX_STAT F.DPX_STAT_CLAIM = false ∧ getB (dropClaim s) R.DPX_STAT F.DPX_STAT_DRIVE = false ∧ (dropClaim s).duplex = { s.duplex with speaking := false } ∧
      (∀ m, m < 8 → (tabGet (fun _ => Mb.reset) (dropClaim s).buses.mbs m).tx = none)) ∧
  (∀ (level : Bool) (s : State), (getB s R.DPX_STAT F.DPX_STAT_PEER = level → exec (.peerChange level) s = .next s) ∧
      (getB s R.DPX_STAT F.DPX_STAT_PEER ≠ level → ∃ y, getB y R.DPX_STAT F.DPX_STAT_PEER = level ∧ RegsBut [R.DPX_STAT] s y ∧ y = { s with regs := y.regs, duplex := y.duplex } ∧
        y.duplex = (if dpxOn s = true then { s.duplex with gapStart := if level = true then none else some (itbNs s 3) } else s.duplex) ∧
        ((dpxOn s = false ∨ getB s R.DPX_STAT F.DPX_STAT_CLAIM = false) → exec (.peerChange level) s = .next y) ∧
        (dpxOn s = true → getB s R.DPX_STAT F.DPX_STAT_CLAIM = true → level = true → dpxRole s = 1 → exec (.peerChange level) s = .next (whileFollowing (fun _ => setDpxState 1 2 (dropClaim y)) s)) ∧
        (dpxOn s = true → getB s R.DPX_STAT F.DPX_STAT_CLAIM = true → (level = false ∨ dpxRole s = 0) → ∃ z, getB z R.DPX_STAT F.DPX_STAT_DRIVE = !level ∧ RegsBut [R.DPX_STAT] y z ∧ z = { y with regs := z.regs } ∧ exec (.peerChange level) s = .next (refreshPins z)))) ∧
  (∀ (s : State), (mayClaim s = false → exec .claimRaise s = .next s) ∧
      (mayClaim s = true → ∃ y, getB y R.DPX_STAT F.DPX_STAT_CLAIM = true ∧ getB y R.DPX_STAT F.DPX_STAT_DRIVE = true ∧ getCtr y (ctr 0x0013 9 0) = (getCtr s (ctr 0x0013 9 0) + 1) % 2 ^ 48 ∧
        y.duplex = { s.duplex with tookOver := s.duplex.gapStart.isSome, speaking := false } ∧ RegsBut [R.DPX_STAT] s y ∧ y = { s with regs := y.regs, mon := { s.mon with counters := y.mon.counters }, integrity := { s.integrity with badWords := y.integrity.badWords }, duplex := y.duplex } ∧
        exec .claimRaise s = .next (whileFollowing (fun _ => setDpxState 2 2 (refreshPins y)) s))) ∧
  (∀ (s : State),
      let m := itbNs s 3 / 1000 % 2 ^ 32
      (m = (getReg s R.DPX_STEP).toNat → exec .stepEdge s = .next s) ∧
      (m ≠ (getReg s R.DPX_STEP).toNat → ∃ y, getReg y R.DPX_STEP = BitVec.ofNat 32 m ∧ RegsBut [R.DPX_STEP] s y ∧ y = { s with regs := y.regs } ∧ (dpxOn s = false → exec .stepEdge s = .next y) ∧
        (dpxOn s = true →
          let x := if dpxState y = 1 then followEdge m y else if dpxState y = 2 then leadEdge m y else if y.duplex.mp ≠ [] then ownSampling y else y
          let z := startSpeaking ((List.range 16).foldl (fun s n => onEnc n (fun e => { e with edge := e.own }) s) x)
          let w := sendPartner 0 1 (stepWords z m) z
          ∃ t, exec .stepEdge s = .next t ∧ t.duplex = { w.duplex with own := ((m, stepWords z m) :: w.duplex.own).take 4 } ∧ t = { w with duplex := t.duplex }))) ∧
  (∀ (e : Envelope) (tie : Bool) (age : Nat) (ph : Fin 32) (s : State),
      (let f := partnerForm 1 e
       let u := takeDelivered f s
       let c := bump (ctr 0x0013 3 1) u
       let mark := (deliveredMark s f).getD (markAt s age ph)
       (f.payload.length < 30 → exec (.dpxStep e tie age ph) s = .next u) ∧
       (30 ≤ f.payload.length → tie = false → exec (.dpxStep e tie age ph) s = .next (bump (ctr 0x0013 15 0) u)) ∧
       (30 ≤ f.payload.length → tie = true → exec (.dpxStep e tie age ph) s = .next (if dpxOn c = true then whileFollowing (takeStep f mark) c else c))) ∧
      (let f := partnerForm 2 e
       let u := takeDelivered f s
       let c := bump (ctr 0x0013 3 2) u
       (f.payload.length < 13 → exec (.dpxState e tie) s = .next u) ∧
       (13 ≤ f.payload.length → tie = false → exec (.dpxState e tie) s = .next (bump (ctr 0x0013 15 0) u)) ∧
       (13 ≤ f.payload.length → tie = true → ∃ t, exec (.dpxState e tie) s = .next t ∧ t = { c with duplex := t.duplex } ∧
          t.duplex = (if dpxOn c = true ∧ dpxState c = 1 then { c.duplex with loads := c.duplex.loads ++ [(bitsOf (payloadWord f 0).toNat 32 32, f.payload)] } else c.duplex))) ∧
      (let f := partnerForm 3 e
       let u := takeDelivered f s
       let c := bump (ctr 0x0013 3 3) u
       (f.payload.length < 2 → exec (.dpxFrame e tie) s = .next u) ∧
       (2 ≤ f.payload.length → tie = false → exec (.dpxFrame e tie) s = .next (bump (ctr 0x0013 15 0) u)) ∧
       (2 ≤ f.payload.length → tie = true → exec (.dpxFrame e tie) s = .next (if dpxOn c = true ∧ dpxState c = 1 then takeFrame f c else c)))) ∧
  (∀ (e : Envelope) (mark : RingMark) (s : State),
      let w0 := (payloadWord e 0).toNat
      let n := bitsOf w0 32 32
      let t := takeStep e mark s
      getB t R.DPX_STAT F.DPX_STAT_PREADY = bitOf w0 6 ∧ t.duplex.partner = some (n, e.payload) ∧ t.duplex.rxStep = some (n, rxReadingIn s 3 2 mark) ∧
      (bitsOf w0 4 1 = dpxRole s → getB t R.DPX_STAT F.DPX_STAT_ROLEERR = true) ∧ (bitsOf w0 4 1 ≠ dpxRole s → getB t R.DPX_STAT F.DPX_STAT_ROLEERR = getB s R.DPX_STAT F.DPX_STAT_ROLEERR) ∧
      (∀ k r, s.duplex.rxStep = some (k, r) → (k + 1) % 2 ^ 32 = n →
        getReg t R.DPX_OFS = BitVec.ofNat 32 (saturate 32 (stepOffset s r (payloadWord e 1).toNat)) ∧
        getB t R.DPX_STAT F.DPX_STAT_ALIGNED = decide ((stepOffset s r (payloadWord e 1).toNat).natAbs ≤ 20000)) ∧
      ((∀ k r, s.duplex.rxStep = some (k, r) → (k + 1) % 2 ^ 32 ≠ n) → getReg t R.DPX_OFS = getReg s R.DPX_OFS ∧ getB t R.DPX_STAT F.DPX_STAT_ALIGNED = getB s R.DPX_STAT F.DPX_STAT_ALIGNED)) ∧
  (∀ (s : State), (getF s R.DPX_HCFG F.DPX_HCFG_PERIOD = 0 → exec .healthReport s = .next s) ∧
      (getF s R.DPX_HCFG F.DPX_HCFG_PERIOD ≠ 0 → getB s R.DPX_HDST F.DPX_HDST_VALID = false → exec .healthReport s = .next s) ∧
      (getF s R.DPX_HCFG F.DPX_HCFG_PERIOD ≠ 0 → getB s R.DPX_HDST F.DPX_HDST_VALID = true → ∃ e y, e.kind = kHealth ∧ e.cls = 3 ∧ e.mc = getB s R.DPX_HDST F.DPX_HDST_MC ∧
        e.dst = BitVec.ofNat 16 (getF s R.DPX_HDST F.DPX_HDST_DST) ∧ e.payload = healthWords s 0 ∧ e.addr = BitVec.ofNat 48 (getReg s R.DPX_HADDR).toNat ∧
        y = { s with duplex := { s.duplex with healthSeq := (s.duplex.healthSeq + 1) % 65536 } } ∧ exec .healthReport s = .next (originate 6 e y).1)) ∧
  (∀ (type : Nat) (e : Envelope) (k : Nat) (s : State),
      let o := sendOnPort 6 2 e s
      (o.2 = .accepted → ∃ t, retryPartner s (type, e, k) = t ∧ t.duplex.waiting = o.1.duplex.waiting.erase (type, e, k) ∧ getCtr t (ctr 0x0013 2 type) = (getCtr o.1 (ctr 0x0013 2 type) + 1) % 2 ^ 48 ∧
        t = { o.1 with duplex := { o.1.duplex with waiting := t.duplex.waiting }, mon := { o.1.mon with counters := t.mon.counters } }) ∧
      (o.2 ≠ .accepted → 2 * ticksSince s k ≤ 625 → retryPartner s (type, e, k) = s) ∧
      (o.2 ≠ .accepted → 625 < 2 * ticksSince s k → ∃ t, retryPartner s (type, e, k) = t ∧ t.duplex.waiting = o.1.duplex.waiting.erase (type, e, k) ∧
        getCtr t (ctr 0x0013 4 type) = (getCtr o.1 (ctr 0x0013 4 type) + 1) % 2 ^ 48 ∧ t = { o.1 with duplex := { o.1.duplex with waiting := t.duplex.waiting }, mon := { o.1.mon with counters := t.mon.counters } }))

/-- Cold start, brown-out, power-down, rails, temperature and the feed selector. A cold start gives both dies their reset values under the power
die's hold, keeping fuses, flash and the nets; the regulators start in order, and after the fifth step the digital die is released with its
straps. Brown-out, which yields to the reset level of 5.6 V, and all-clear follow the warning level and its hysteresis; over-voltage is
reported once above 42.0 V until VIN has fallen below 41.5 V; rails out of tolerance and heat set their events and act. Power-down resets
the digital die and switches the channels off; a collapse also pulls both feed gates low for its hold. The selector follows R380 and R381:
qualification, hold, transfer, gate faults, MODE and GFCLR. (spec: 15_power_die.md) -/
def Obligations.SupplyAndFeedsAreSupervised : Prop :=
  (∀ (straps : Straps) (monEn : Bool) (s : State), ∃ t, exec (.coldStart straps monEn) s = .next t ∧ t.power = { PowerState.reset with hold := true, ready := 0, straps := straps } ∧ t.pending = s.pending ∧
      getB t R.MON_STAT F.MON_STAT_STRAP = monEn ∧ getB t R.NODE_RST_CAUSE F.NODE_RST_CAUSE_PIN = s.node.resetL ∧
      (∀ a, 0x1000 ≤ a → a ≠ R.MON_STAT → a ≠ R.NODE_RST_CAUSE → getReg t a = resetWord a) ∧
      (∀ a, a < 0x1000 → a ≠ R.ID_FUSE_CMD → a ≠ R.ID_FUSE_STAT → (a < 0x500 ∨ 0x540 ≤ a) → getReg t a = getReg s a) ∧
      (∀ a, flashBase ≤ a → a < flashBase + 0x10000000 → getByte t a = getByte s a) ∧ (∀ a, (a < flashBase ∨ flashBase + 0x10000000 ≤ a) → getByte t a = memDefault a) ∧
      t.notices = State.reset.notices ∧ t.bridge = State.reset.bridge ∧ t.ports = State.reset.ports ∧ t.buses = State.reset.buses) ∧
  (∀ (s : State), (5 ≤ s.power.ready → exec .regulatorReady s = .next s) ∧
      (s.power.ready < 5 → ∃ t, exec .regulatorReady s = .next t ∧ t.power = { s.power with ready := s.power.ready + 1, hold := if s.power.ready = 4 then false else s.power.hold } ∧
        (s.power.ready = 0 → getB t R.FLD_CTL F.FLD_CTL_EN = (s.power.straps.fldAuto || getB s R.FLD_CTL F.FLD_CTL_EN) ∧ RegsBut [R.FLD_CTL] s t) ∧
        (s.power.ready = 3 → getB t R.PD_STAT F.PD_STAT_RAILS_OK = decide (s.power.outside = 0) ∧ RegsBut [R.PD_STAT] s t) ∧
        (s.power.ready = 4 → getF t R.UPD_BOOT F.UPD_BOOT_MODE = s.power.straps.bootMode.toNat ∧ getB t R.CN_STAT F.CN_STAT_ELIG = s.power.straps.rootElig ∧ getB t R.DPX_STAT F.DPX_STAT_ROLE = s.power.straps.role ∧
          getB t R.NODE_CLK_STAT F.NODE_CLK_STAT_SYS_LOCK = true ∧ getB t R.NODE_CLK_STAT F.NODE_CLK_STAT_SDS_LOCK = true ∧ RegsBut [R.UPD_BOOT, R.CN_STAT, R.DPX_STAT, R.NODE_CLK_STAT] s t) ∧
        (s.power.ready = 1 ∨ s.power.ready = 2 → t.regs = s.regs) ∧ t = { s with regs := t.regs, power := t.power })) ∧
  (∀ (vin : Nat) (s : State),
      (getB s R.PD_STAT F.PD_STAT_BROWN = false → 56 ≤ vin → vin < getF s R.SUP_CFG F.SUP_CFG_WARN → ∃ y, getB y R.PD_STAT F.PD_STAT_BROWN = true ∧ getB y R.PD_EVT F.PD_EVT_BROWN = true ∧
        getCtr y (ctr 0x0014 0 0) = (getCtr s (ctr 0x0014 0 0) + 1) % 2 ^ 48 ∧ RegsBut [R.PD_STAT, R.PD_EVT] s y ∧ y = { s with regs := y.regs, mon := { s.mon with counters := y.mon.counters }, integrity := { s.integrity with badWords := y.integrity.badWords } } ∧
        (clocked s = true → exec (.brownOut vin) s = .next (healthReport 3 (latchFault 2 (pdNotice 0x81 vin y)))) ∧ (clocked s = false → exec (.brownOut vin) s = .next y)) ∧
      ((getB s R.PD_STAT F.PD_STAT_BROWN = true ∨ vin < 56 ∨ getF s R.SUP_CFG F.SUP_CFG_WARN ≤ vin) → exec (.brownOut vin) s = .next s) ∧
      (getB s R.PD_STAT F.PD_STAT_BROWN = true → getF s R.SUP_CFG F.SUP_CFG_WARN + max 1 (getF s R.SUP_CFG F.SUP_CFG_HYST) ≤ vin → ∃ y, getB y R.PD_STAT F.PD_STAT_BROWN = false ∧
        getB y R.PD_EVT F.PD_EVT_ALLCLR = true ∧ getCtr y (ctr 0x0014 1 0) = (getCtr s (ctr 0x0014 1 0) + 1) % 2 ^ 48 ∧ RegsBut [R.PD_STAT, R.PD_EVT] s y ∧ y = { s with regs := y.regs, mon := { s.mon with counters := y.mon.counters }, integrity := { s.integrity with badWords := y.integrity.badWords } } ∧
        exec (.allClear vin) s = .next (releaseFlash (pdNotice 0x01 vin y))) ∧
      ((getB s R.PD_STAT F.PD_STAT_BROWN = false ∨ vin < getF s R.SUP_CFG F.SUP_CFG_WARN + max 1 (getF s R.SUP_CFG F.SUP_CFG_HYST)) → exec (.allClear vin) s = .next s) ∧
      (420 < vin → s.power.overVin = false → ∃ y, y.power = { s.power with overVin := true } ∧ getB y R.PD_EVT F.PD_EVT_OVWARN = true ∧ getCtr y (ctr 0x0014 2 0) = (getCtr s (ctr 0x0014 2 0) + 1) % 2 ^ 48 ∧
        RegsBut [R.PD_EVT] s y ∧ y = { s with regs := y.regs, mon := { s.mon with counters := y.mon.counters }, integrity := { s.integrity with badWords := y.integrity.badWords }, power := y.power } ∧ exec (.ovwarn vin) s = .next (pdNotice 0x83 0xFFFF y)) ∧
      (415 ≤ vin → (vin ≤ 420 ∨ s.power.overVin = true) → exec (.ovwarn vin) s = .next s) ∧
      (vin < 415 → exec (.ovwarn vin) s = .next { s with power := { s.power with overVin := false } })) ∧
  (∀ (s : State), ∃ t, exec .powerDown s = .next t ∧ t.power = { s.power with hold := true, ready := 0 } ∧ clocked t = false ∧ t.pending = s.pending ∧
      (∀ c, c < 9 → chanSt t c = 0) ∧ getB t R.PD_STAT F.PD_STAT_PG = false ∧ getB t R.PD_STAT F.PD_STAT_RAILS_OK = false ∧ (tabWf resetWord s.regs = true → feedState t = feedState s ∧ ∀ c, c < 9 → chanEn t c = chanEn s c) ∧
      (∀ a, keptBits a = 0 → getReg t a = resetWord a) ∧
      (∀ rail : Fin 4, rail.val < s.power.ready → ∃ u, exec (.railCollapse rail) s = .next u ∧ u.power = { t.power with gatesLow := true } ∧ feedState u = 0 ∧ RegsBut [R.PD_STAT] t u ∧ u = { t with regs := u.regs, power := u.power }) ∧
      (∀ rail : Fin 4, s.power.ready ≤ rail.val → exec (.railCollapse rail) s = .next s) ∧
      (s.power.gatesLow = false → exec .collapseHoldEnd s = .next s) ∧ (s.power.gatesLow = true → exec .collapseHoldEnd s = .next (feedSettle { s with power := { s.power with gatesLow := false } }))) ∧
  (∀ (out : BitVec 4) (s : State),
      ∃ y, getB y R.PD_STAT F.PD_STAT_RAILS_OK = decide (out = 0 ∧ 4 ≤ s.power.ready) ∧ y.power = { s.power with outside := out } ∧ RegsBut [R.PD_STAT] s y ∧ y = { s with regs := y.regs, power := y.power } ∧
        exec (.railOutOfTolerance out) s = .next (((List.range 4).filter (fun r => out.getLsbD r && !s.power.outside.getLsbD r)).foldl (fun s r => railLeft r s) y)) ∧
  (∀ (r : Nat) (s : State), r < 4 → ∃ y, getReg y R.RAIL_STAT = getReg s R.RAIL_STAT ||| BitVec.ofNat 32 (2 ^ r) ∧ getB y R.PD_EVT F.PD_EVT_RAIL = true ∧
      getCtr y (ctr 0x0014 11 r) = (getCtr s (ctr 0x0014 11 r) + 1) % 2 ^ 48 ∧ RegsBut [R.RAIL_STAT, R.PD_EVT] s y ∧ y = { s with regs := y.regs, mon := { s.mon with counters := y.mon.counters }, integrity := { s.integrity with badWords := y.integrity.badWords } } ∧ railLeft r s = pdNotice 0x84 r (if clocked s = true then latchFault 2 y else y)) ∧
  (∀ (t : BitVec 16) (onTime : Nat) (s : State),
      let hotter := fun (k : Nat) (lo hi : Int) => if t.toInt ≥ hi then true else if t.toInt < lo then false else tabGet (fun _ => false) s.power.hot k
      (∀ z : Fin 8, ∃ y, tabGet (fun _ => false) y.power.hot (z.val + 1) = hotter (z.val + 1) 1400 1600 ∧ (∀ k, k ≠ z.val + 1 → tabGet (fun _ => false) y.power.hot k = tabGet (fun _ => false) s.power.hot k) ∧
        y = { s with power := { s.power with hot := y.power.hot } } ∧
        ((t.toInt < 1600 ∨ driven s (z.val + 1) = false) → exec (.tempMeasure (some z) t onTime) s = .next y) ∧
        (1600 ≤ t.toInt → driven s (z.val + 1) = true → ∃ x, getB x R.PD_EVT F.PD_EVT_THERM = true ∧ RegsBut [R.PD_EVT] y x ∧ x = { y with regs := x.regs, mon := { y.mon with counters := x.mon.counters }, integrity := { y.integrity with badWords := x.integrity.badWords } } ∧
          exec (.tempMeasure (some z) t onTime) s = .next (tripHot (z.val + 1) 2 onTime x))) ∧
      (t.toInt < 1350 → (10 * (getF s R.SUP_CFG F.SUP_CFG_TWARN : Int) ≤ signed 16 (getF s R.SUP_VIN F.SUP_VIN_TJ) ∨ t.toInt < 10 * (getF s R.SUP_CFG F.SUP_CFG_TWARN : Int)) →
        ∃ x, exec (.tempMeasure none t onTime) s = .next x ∧ getF x R.SUP_VIN F.SUP_VIN_TJ = t.toNat ∧ tabGet (fun _ => false) x.power.hot 0 = hotter 0 1200 1350 ∧
          (∀ k, k ≠ 0 → tabGet (fun _ => false) x.power.hot k = tabGet (fun _ => false) s.power.hot k) ∧ RegsBut [R.SUP_VIN] s x ∧ x = { s with regs := x.regs, power := { s.power with hot := x.power.hot } })) ∧
  (∀ (b : Bool) (s : State),
      (∃ y, getB y R.PD_STAT (if b = true then F.PD_STAT_B_OK else F.PD_STAT_A_OK) = true ∧ RegsBut [R.PD_STAT] s y ∧ y = { s with regs := y.regs } ∧ exec (.feedQualified b) s = .next (feedSettle y)) ∧
      (∃ y, getB y R.PD_STAT (if b = true then F.PD_STAT_B_OK else F.PD_STAT_A_OK) = false ∧ RegsBut [R.PD_STAT] s y ∧ y = { s with regs := y.regs } ∧ exec (.feedDisqualified b) s = .next (feedSettle y)) ∧
      ((feedState s = (if preferB s = true then 1 else 2) ∧ feedOk s (preferB s) = true) → ∃ t, exec .feedHoldExpiry s = .next t ∧ feedState t = (if preferB s = true then 4 else 3) ∧ RegsBut [R.PD_STAT] s t ∧ t = { s with regs := t.regs }) ∧
      ((feedState s ≠ (if preferB s = true then 1 else 2) ∨ feedOk s (preferB s) = false) → exec .feedHoldExpiry s = .next s) ∧
      (feedState s = 3 ∨ feedState s = 4 → exec .feedTransferDone s = .next (feedSettle (feedOn (decide (feedState s = 4)) s)) ∧
        ∃ y, feedState y = 0 ∧ getB y R.PD_STAT (if feedState s = 3 then F.PD_STAT_GFAULT_B else F.PD_STAT_GFAULT_A) = true ∧ getB y R.PD_EVT F.PD_EVT_GFAULT = true ∧ RegsBut [R.PD_STAT, R.PD_EVT] s y ∧ y = { s with regs := y.regs, mon := { s.mon with counters := y.mon.counters }, integrity := { s.integrity with badWords := y.integrity.badWords } } ∧
          exec .gateFault s = .next (feedlessAll (bump (ctr 0x0014 4 (bit1 (decide (feedState s = 3)))) (pdNotice 0xC5 (bit1 (decide (feedState s = 3))) y)))) ∧
      (feedState s ≠ 3 → feedState s ≠ 4 → exec .feedTransferDone s = .next s ∧ exec .gateFault s = .next s)) ∧
  (∀ (s : State),
      let p := preferB s
      let x := decide (feedState s = 2)
      (feedState s = 0 → (s.power.gatesLow = true ∨ gfault s false = true ∨ gfault s true = true) → feedTick s = s) ∧
      (feedState s = 0 → s.power.gatesLow = false → gfault s false = false → gfault s true = false → feedOk s p = true → feedTick s = feedOn p s) ∧
      (feedState s = 0 → s.power.gatesLow = false → gfault s false = false → gfault s true = false → feedOk s p = false → feedTick s = (if otherAllowed s = true ∧ feedOk s (!p) = true then feedOn (!p) s else s)) ∧
      (feedState s = 1 ∨ feedState s = 2 → feedOk s x = true → (x = p ∨ otherAllowed s = true) → feedTick s = s) ∧
      (feedState s = 1 ∨ feedState s = 2 → (feedOk s x = false ∨ (x ≠ p ∧ otherAllowed s = false)) →
        feedTick s = putFeed (if feedOk s (!x) = true ∧ ((!x) = p ∨ otherAllowed s = true) then (if x = true then 3 else 4) else 0) s) ∧
      (feedState s = 3 ∨ feedState s = 4 → feedTick s = (if feedOk s (decide (feedState s = 4)) = true then s else putFeed 0 s))) ∧
  (∀ (b : Bool) (s : State), ∃ y, feedState y = (if b = true then 2 else 1) ∧ getB y R.PD_EVT F.PD_EVT_FEEDSW = true ∧ RegsBut [R.PD_STAT, R.PD_EVT] s y ∧ y = { s with regs := y.regs } ∧
      feedOn b s = bump (ctr 0x0014 3 (bit1 b)) (pdNotice 0x02 (if b = true then 2 else 1) y)) ∧
  (∀ (m : Master) (v : Word) (s : State),
      (Takes s m R.FEED_CFG →
        let u := dropOverlap R.FEED_CFG 4 s
        (getB s R.PD_CTL F.PD_CTL_LOCK = false → ∃ y, getF y R.FEED_CFG F.FEED_CFG_MODE = F.FEED_CFG_MODE.get v ∧ OnlyRegs [R.FEED_CFG] u y ∧ exec (.feedModeWrite m v) s = .next (answer .ok (feedSettle y))) ∧
        (getB s R.PD_CTL F.PD_CTL_LOCK = true → ∃ y, getReg y R.FEED_CFG = F.FEED_CFG_MODE.put (getReg s R.FEED_CFG) (F.FEED_CFG_MODE.get v) ∧
          (fieldBits R.FEED_CFG v ≠ getReg y R.FEED_CFG → getB y R.PD_EVT F.PD_EVT_CFGREF = true) ∧ OnlyRegs [R.FEED_CFG, R.PD_EVT] u y ∧ exec (.feedModeWrite m v) s = .next (answer .ok (feedSettle y)))) ∧
      (Takes s m R.PD_CTL →
        let u := dropOverlap R.PD_CTL 4 s
        (∃ y, gfault y false = false ∧ gfault y true = false ∧ OnlyRegs [R.PD_CTL, R.PD_STAT] u y ∧ exec (.gfclr m v) s = .next (answer .ok (feedSettle y)))))

/-- The field rail and the zone switches, power-good, metering and the power die's locked registers. A channel whose EN is 1 enters RAMP from
OFF while a feed is selected and BROWN is 0; it reaches ON or LIMIT, moves between them, and trips for START, FAULT or FAST with its cause.
From COOL it retries, goes off, or latches off without retries left; CLR frees a latched channel and restores the retries. FLD_PG follows
RISE and FALL. Samples sum up and add energy while the gate is driven; publishing gives the averages, whose rounding is left open. An
accumulator may be written in STARTUP only. LOCK stays set. (spec: 15_power_die.md) -/
def Obligations.ChannelsAreSwitchedAndMetered : Prop :=
  (∀ (c : Fin 9) (s : State),
      let L := if c.val = 0 then [R.PD_STAT, R.FLD_STAT2] else [R.PD_STAT, R.ZN_STAT (c - 1)]
      (chanSt s c = 0 → chanEn s c = true → feedState s ≠ 0 → getB s R.PD_STAT F.PD_STAT_BROWN = false → ∃ t, exec (.fldEnable c) s = .next t ∧ chanSt t c = 1 ∧
        retriesLeft t c = (if tabGet (fun _ => false) s.power.retried c = true then retriesLeft s c else retryCount s c) ∧ RegsBut L s t ∧ t = { s with regs := t.regs }) ∧
      ((chanSt s c ≠ 0 ∨ chanEn s c = false ∨ feedState s = 0 ∨ getB s R.PD_STAT F.PD_STAT_BROWN = true) → exec (.fldEnable c) s = .next s) ∧
      (∃ t, exec (.fldDisable c) s = .next t ∧ chanSt t c = (if chanEn s c = false ∨ (driven s c = true ∧ feedState s = 0) then 0 else chanSt s c) ∧ RegsBut L s t ∧ t = { s with regs := t.regs })) ∧
  (∀ (c : Fin 9) (atLimit : Bool) (n : Nat) (s : State),
      let L := if c.val = 0 then [R.PD_STAT] else [R.PD_STAT, R.ZN_STAT (c - 1)]
      (chanSt s c = 1 → exec (.fldStartTimeout c) s = .next (trip c 2 (1000 * max 1 (getF s R.FLD_TIM F.FLD_TIM_START)) s) ∧
        ∃ t, exec (.fldFullyOn c atLimit) s = .next t ∧ chanSt t c = (if atLimit = true then 3 else 2) ∧ RegsBut L s t ∧ t = { s with regs := t.regs }) ∧
      (chanSt s c ≠ 1 → exec (.fldStartTimeout c) s = .next s ∧ exec (.fldFullyOn c atLimit) s = .next s) ∧
      (chanSt s c = 2 → ∃ t, exec (.fldLimitEnter c) s = .next t ∧ chanSt t c = 3 ∧ RegsBut L s t ∧ t = { s with regs := t.regs }) ∧
      (chanSt s c ≠ 2 → exec (.fldLimitEnter c) s = .next s) ∧
      (chanSt s c = 3 → exec (.fldFaultTimeout c n) s = .next (trip c 3 n s) ∧
        (c.val ≠ 0 → ∃ t, exec (.fldLimitExit c n) s = .next t ∧ chanSt t c = 2 ∧ RegsBut L s t ∧ t = { s with regs := t.regs }) ∧
        (c.val = 0 → ∃ y, chanSt y 0 = 2 ∧ getB y R.PD_EVT F.PD_EVT_FLDLIM = true ∧ getCtr y (ctr 0x0014 6 0) = (getCtr s (ctr 0x0014 6 0) + 1) % 2 ^ 48 ∧ RegsBut [R.PD_STAT, R.PD_EVT] s y ∧ y = { s with regs := y.regs, mon := { s.mon with counters := y.mon.counters }, integrity := { s.integrity with badWords := y.integrity.badWords } } ∧
          exec (.fldLimitExit c n) s = .next (if clocked s = true then post (getF s R.PD_CTL F.PD_CTL_NTC_Q) 0x0014 0 0x82 (min 65535 n) y else y))) ∧
      (chanSt s c ≠ 3 → exec (.fldFaultTimeout c n) s = .next s ∧ exec (.fldLimitExit c n) s = .next s) ∧
      (driven s c = true → exec (.fastTrip c n) s = .next (trip c 1 n s)) ∧ (driven s c = false → exec (.fastTrip c n) s = .next s)) ∧
  (∀ (c cause onTime : Nat) (s : State), c < 9 → 
      let L := if c = 0 then [R.PD_STAT, R.FLD_STAT2, R.PD_EVT] else [R.PD_STAT, R.ZN_STAT (c - 1), R.PD_EVT]
      ∃ y, chanSt y c = 4 ∧ tabGet (fun _ => 0) y.power.therm c = 0 ∧ (c = 0 → getB y R.PD_STAT F.PD_STAT_PG = false ∧ getB y R.PD_EVT F.PD_EVT_FLDTRIP = true ∧ (onTime < 2 ^ 24 → getF y R.FLD_STAT2 F.FLD_STAT2_ONTIME = onTime)) ∧
        (c ≠ 0 → getB y R.PD_EVT F.PD_EVT_ZNTRIP = true ∧ getB y (R.ZN_STAT (c - 1)) F.ZN_STAT_TRIP = true ∧ (cause = 4 → getB y (R.ZN_STAT (c - 1)) F.ZN_STAT_THERM = true)) ∧
        RegsBut L s y ∧ y = { s with regs := y.regs, power := { s.power with therm := y.power.therm }, node := { s.node with freeCount := y.node.freeCount } } ∧
        trip c cause onTime s = (if c = 0 then bump (ctr 0x0014 5 cause) (pdNotice 0xC1 cause y) else bump (ctr 0x0014 9 (8 * (c - 1) + cause)) (pdNotice 0xC3 ((c - 1) * 256 + cause) y))) ∧
  (∀ (c : Fin 9) (s : State),
      let L := if c.val = 0 then [R.PD_STAT, R.FLD_STAT2] else [R.PD_STAT, R.ZN_STAT (c - 1)]
      ((chanSt s c ≠ 4 ∨ stillHot s c = true) → exec (.coolDownEnd c) s = .next s) ∧
      (chanSt s c = 4 → stillHot s c = false → chanEn s c = false → ∃ t, exec (.coolDownEnd c) s = .next t ∧ chanSt t c = 0 ∧ RegsBut L s t ∧ t = { s with regs := t.regs }) ∧
      (chanSt s c = 4 → stillHot s c = false → chanEn s c = true → retriesLeft s c = 0 → ∃ y, chanSt y c = 5 ∧ (c.val = 0 → getB y R.PD_EVT F.PD_EVT_FLDLATCH = true) ∧
        RegsBut (if c.val = 0 then [R.PD_STAT, R.PD_EVT] else [R.PD_STAT, R.ZN_STAT (c - 1)]) s y ∧ y = { s with regs := y.regs } ∧
        exec (.coolDownEnd c) s = .next (if c.val = 0 then bump (ctr 0x0014 8 0) (pdNotice 0xC2 0 y) else pdNotice 0xC4 (c.val - 1) y)) ∧
      (chanSt s c = 4 → stillHot s c = false → chanEn s c = true → retriesLeft s c ≠ 0 → feedState s ≠ 0 → ∃ t, exec (.coolDownEnd c) s = .next t ∧ chanSt t c = 1 ∧
        retriesLeft t c = (if retriesLeft s c = 31 then 31 else retriesLeft s c - 1) ∧ tabGet (fun _ => false) t.power.retried c = true ∧ RegsBut L s t ∧ t = { s with regs := t.regs, mon := { s.mon with counters := t.mon.counters }, integrity := { s.integrity with badWords := t.integrity.badWords }, power := { s.power with retried := t.power.retried } }) ∧
      (chanSt s c = 4 → stillHot s c = false → chanEn s c = true → retriesLeft s c ≠ 0 → feedState s = 0 → ∃ t, exec (.coolDownEnd c) s = .next t ∧ chanSt t c = 0 ∧
        retriesLeft t c = (if retriesLeft s c = 31 then 31 else retriesLeft s c - 1) ∧ tabGet (fun _ => false) t.power.retried c = true ∧ RegsBut L s t ∧ t = { s with regs := t.regs, mon := { s.mon with counters := t.mon.counters }, integrity := { s.integrity with badWords := t.integrity.badWords }, power := { s.power with retried := t.power.retried } })) ∧
  (∀ (m : Master) (c : Fin 9) (v : Word) (s : State),
      let A := if c.val = 0 then R.FLD_CTL else R.ZN_CTL (c - 1)
      Takes s m A → 
      let u := dropOverlap A 4 s
      ∃ t, exec (.fldClr m c v) s = .next t ∧ t.resp = .ok ∧ getReg t A = getReg (plainWrite A (F.FLD_CTL_CLR.put v 1) u) A ∧ chanSt t c = (if chanSt u c = 5 then 0 else chanSt u c) ∧
        retriesLeft t c = retryCount u c ∧ tabGet (fun _ => false) t.power.retried c = false ∧ RegsBut (if c.val = 0 then [A, R.PD_STAT, R.FLD_STAT2] else [A, R.PD_STAT, R.ZN_STAT (c - 1)]) u t ∧
        t = { u with regs := t.regs, mon := { u.mon with counters := t.mon.counters }, integrity := { u.integrity with badWords := t.integrity.badWords }, resp := t.resp, power := { u.power with retried := t.power.retried } }) ∧
  (∀ (vout : Nat) (s : State),
      (chanSt s 0 = 2 → getF s R.FLD_PGV F.FLD_PGV_RISE ≤ vout → getB s R.PD_STAT F.PD_STAT_PG = false → ∃ y, getB y R.PD_STAT F.PD_STAT_PG = true ∧ RegsBut [R.PD_STAT] s y ∧ y = { s with regs := y.regs } ∧ exec (.fldPgAssert vout) s = .next (pdNotice 0x03 0 y)) ∧
      ((chanSt s 0 ≠ 2 ∨ vout < getF s R.FLD_PGV F.FLD_PGV_RISE ∨ getB s R.PD_STAT F.PD_STAT_PG = true) → exec (.fldPgAssert vout) s = .next s) ∧
      (vout < getF s R.FLD_PGV F.FLD_PGV_FALL → ∃ t, exec (.fldPgFall vout) s = .next t ∧ getB t R.PD_STAT F.PD_STAT_PG = false ∧ RegsBut [R.PD_STAT] s t ∧ t = { s with regs := t.regs }) ∧
      (getF s R.FLD_PGV F.FLD_PGV_FALL ≤ vout → exec (.fldPgFall vout) s = .next s) ∧
      (getB s R.PD_STAT F.PD_STAT_PG = true → ∃ t, exec .retryRestore s = .next t ∧ retriesLeft t 0 = retryCount s 0 ∧ tabGet (fun _ => false) t.power.retried 0 = false ∧ RegsBut [R.FLD_STAT2] s t ∧ t = { s with regs := t.regs, power := { s.power with retried := t.power.retried } }) ∧
      (getB s R.PD_STAT F.PD_STAT_PG = false → exec .retryRestore s = .next s)) ∧
  (∀ (c : Fin 10) (x y z : Nat) (s : State),
      let m := meterSums s c
      let d := 1000000 * (if c.val = 0 then 8000 else 1000)
      let q := x * y * 65536 / d
      ∃ t, exec (.meterSample c x y z) s = .next t ∧ meterSums t c = { n := m.n + 1, x := m.x + x, y := m.y + y, xy := m.xy + x * y, z := m.z + z } ∧ (∀ k, k ≠ c.val → meterSums t k = meterSums s k) ∧
        ((c.val = 9 ∨ driven s c = false) → t.regs = s.regs) ∧
        (c.val < 9 → driven s c = true → ∃ e, (e = q ∨ (e = q + 1 ∧ x * y * 65536 % d ≠ 0)) ∧ regs64 t (energyLo c) (energyLo c + 4) = (regs64 s (energyLo c) (energyLo c + 4) + e) % 2 ^ 64) ∧
        RegsBut [energyLo c, energyLo c + 4] s t ∧ t = { s with regs := t.regs, power := { s.power with sums := t.power.sums }, node := { s.node with freeCount := t.node.freeCount } }) ∧
  (∀ (s : State),
      let f := meterSums s 0
      let g := meterSums s 9
      ∃ t, exec .meterPublish s = .next t ∧ t.power.sums = [] ∧
        (f.n ≠ 0 → f.x % f.n = 0 → f.x / f.n < 2 ^ 16 → getF t R.PM_FLD_V F.PM_FLD_V_MV = f.x / f.n) ∧ (f.n ≠ 0 → f.y % f.n = 0 → f.y / f.n < 2 ^ 16 → getF t R.PM_FLD_I F.PM_FLD_I_MA = f.y / f.n) ∧
        (f.n ≠ 0 → f.xy % (f.n * 1000) = 0 → f.xy / (f.n * 1000) < 2 ^ 32 → getF t R.PM_FLD_P F.PM_FLD_P_MW = f.xy / (f.n * 1000)) ∧
        (∀ k, k < 8 → (meterSums s (k + 1)).n ≠ 0 → (meterSums s (k + 1)).y % (meterSums s (k + 1)).n = 0 → (meterSums s (k + 1)).y / (meterSums s (k + 1)).n < 2 ^ 16 →
          getF t (R.PM_ZN_I k) F.PM_ZN_I_MA = (meterSums s (k + 1)).y / (meterSums s (k + 1)).n) ∧
        (g.n ≠ 0 → g.z % g.n = 0 → g.z / g.n < 2 ^ F.SUP_VIN_VIN.width → getF t R.SUP_VIN F.SUP_VIN_VIN = g.z / g.n) ∧
        RegsBut ([R.PM_FLD_V, R.PM_FLD_I, R.PM_FLD_P, R.FLD_STAT, R.PM_VZ, R.FEED_V, R.SUP_VIN] ++ (List.range 8).map R.PM_ZN_I ++ (List.range 8).map R.ZN_STAT ++ (List.range 8).map R.PM_ZN_P) s t ∧
        t = { s with regs := t.regs, power := { s.power with sums := t.power.sums }, node := { s.node with freeCount := t.node.freeCount } }) ∧
  (∀ (m : Master) (c : Fin 9) (v : Word) (s : State), Takes s m (energyLo c) →
      let u := dropOverlap (energyLo c) 4 s
      let hi := (stagedUpper u (masterId u m) (energyLo c) (getReg u (energyLo c + 4)) (getReg u (energyLo c + 8))).1
      (serviceMode s = 0 → ∃ t, exec (.energyWrite m c v) s = .next t ∧ t.resp = .ok ∧ regs64 t (energyLo c) (energyLo c + 4) = v.toNat + 2 ^ 32 * hi.toNat ∧ getStage t (energyLo c) = none ∧
        RegsBut [energyLo c, energyLo c + 4] u t ∧ t = { u with regs := t.regs, resp := t.resp, stages := t.stages }) ∧
      (serviceMode s ≠ 0 → ∃ t, exec (.energyWrite m c v) s = .next t ∧ t.resp = .ok ∧ getB t R.PD_EVT F.PD_EVT_CFGREF = true ∧ getStage t (energyLo c) = none ∧ RegsBut [R.PD_EVT] u t ∧ t = { u with regs := t.regs, resp := t.resp, stages := t.stages })) ∧
  (∀ (m : Master) (v : Word) (s : State), Takes s m R.PD_CTL → F.PD_CTL_GFCLR.get v = 0 →
      ∃ t, exec (.pdLock m v) s = .next t ∧ t.resp = .ok ∧ getB t R.PD_CTL F.PD_CTL_LOCK = true ∧ OnlyRegs [R.PD_CTL] (dropOverlap R.PD_CTL 4 s) t) ∧
  (∀ (a : Nat) (v : Word) (s : State), 
      ((getB s R.PD_CTL F.PD_CTL_LOCK = true ∧ pdFrozen a = true) ∨ pdBreaks s a v = true → getB (writePdCfg a v s) R.PD_EVT F.PD_EVT_CFGREF = true ∧ OnlyRegs [R.PD_EVT] s (writePdCfg a v s)) ∧
      ((getB s R.PD_CTL F.PD_CTL_LOCK = false ∨ pdFrozen a = false) → pdBreaks s a v = false → writePdCfg a v s = plainWrite a v s))

/-- Parity errors, buckets, the scrubber and self-test. A parity error is recorded with its counter, MI_STAT, address, source and notice, and
faults or poisons what R398 says: a store word its cluster when an engine fetches it, the third time at one address with notice 0x83, a FIFO
word the engine whose instruction takes it, a register word later its reader. A leak lowers the level of a class by one and re-arms its
report. The scrubber reads the next word of an enabled class: a corrected word is counted and waits to be written back, an uncorrectable one
is marked poisoned; the lap ends at the last word. BIST_CMD starts the test of a target, queues it, or is refused; the copy, the drain, the
verdict and the return move it on, and a failed bank is retired. (spec: 16_memory_integrity.md) -/
def Obligations.MemoriesAreScrubbedAndTested : Prop :=
  (∀ (kind cap inst a : Nat) (s : State), 8 ≤ kind → kind < 12 → ∃ y, getReg y R.MI_STAT = getReg s R.MI_STAT ||| BitVec.ofNat 32 (2 ^ (8 + kind)) ∧ getReg y R.MI_PADDR = BitVec.ofNat 32 a ∧
      getReg y R.MI_PSRC = BitVec.ofNat 32 (cap % 2 ^ 16 + inst % 2 ^ 8 * 2 ^ 16 + kind * 2 ^ 24) ∧ getCtr y (ctr 0x0015 6 kind) = (getCtr s (ctr 0x0015 6 kind) + 1) % 2 ^ 48 ∧
      RegsBut [R.MI_STAT, R.MI_PADDR, R.MI_PSRC] s y ∧ y = { s with regs := y.regs, mon := { s.mon with counters := y.mon.counters }, integrity := { s.integrity with badWords := y.integrity.badWords } } ∧ parityRecord kind cap inst a s = miNotice kind 0xC2 cap y) ∧
  (∀ (s : State),
      (∀ e : Fin 64, let a := 0x30400 + 0x1000 * (e.val / 4) + 2 * getF s (rPc e) F.SCR_PC_VAL
        (fetchDue s e = true → ∃ x, (∀ b, b ≠ a → (x.integrity.storeErrors.filter (fun y => y = b)).length = (s.integrity.storeErrors.filter (fun y => y = b)).length) ∧
          (let n := (s.integrity.storeErrors.filter (fun y => y = a)).length; (x.integrity.storeErrors.filter (fun y => y = a)).length = if n < 3 then n + 1 else n) ∧
          (let y := parityRecord 8 0x0003 (e.val / 4) a (storeParity e s)
           x = { y with integrity := { y.integrity with storeErrors := x.integrity.storeErrors } } ∧
           exec (.parityError (.store e)) s = .next (if (s.integrity.storeErrors.filter (fun y => y = a)).length = 2 then miNotice 0 0x83 (e.val / 4) x else x))) ∧
        (fetchDue s e = false → exec (.parityError (.store e)) s = .next s)) ∧
      (∀ (e : Fin 64) l t, clockDue s e = true → nextInstr s e = some (l, t) → readsTx s e l.word = true →
        exec (.parityError (.fifo e)) s = .next (parityRecord 9 0x0003 (e.val / 4) (R.SCR_TXF (e.val / 4) (e.val % 4)) (enterFault e 5 (useClock e t)))) ∧
      (∀ e : Fin 64, (clockDue s e = false ∨ nextInstr s e = none ∨ ∃ l t, nextInstr s e = some (l, t) ∧ readsTx s e l.word = false) → exec (.parityError (.fifo e)) s = .next s) ∧
      (∀ (e : Fin 64) (r : Fin 4), ∃ x, badWord x (regFileAddr e r) = true ∧ (∀ b, b ≠ regFileAddr e r → badWord x b = badWord s b) ∧
        x = { s with integrity := { s.integrity with badWords := x.integrity.badWords } } ∧ exec (.parityError (.regFile e r)) s = .next x) ∧
      (∀ a : Word, smallTable a.toNat = none → exec (.parityError (.table a)) s = .next s) ∧
      (∀ (a : Word) (cap inst : Nat), smallTable a.toNat = some (cap, inst) → ∃ x, badWord x a.toNat = true ∧ (∀ b, b ≠ a.toNat → badWord x b = badWord s b) ∧ x = { s with integrity := { s.integrity with badWords := x.integrity.badWords } } ∧
        exec (.parityError (.table a)) s = .next (parityRecord 11 cap inst a.toNat x)) ∧
      (∀ n : Fin 64, s.bridge.locks.find? (fun l => l.sem = some n.val) = none → exec (.parityError (.semaphore n)) s = .next s) ∧
      (∀ (n : Fin 64) (l : Lock), s.bridge.locks.find? (fun l => l.sem = some n.val) = some l → exec (.parityError (.semaphore n)) s = .next (parityRecord 11 0x000A 0 (R.BR_SEM_A n) (breakLock l s)))) ∧
  (∀ (c : Fin 7) (s : State), 
      let lvl := getF s (R.MI_LB_STAT c) F.MI_LB_STAT_LEVEL - 1
      ∃ t, exec (.bucketLeak c) s = .next t ∧ getF t (R.MI_LB_STAT c) F.MI_LB_STAT_LEVEL = lvl ∧
        (lvl ≤ getF s (R.MI_LB_CFG c) F.MI_LB_CFG_THRESH / 2 → tabGet (fun _ => false) t.integrity.reported c = false) ∧
        (getF s (R.MI_LB_CFG c) F.MI_LB_CFG_THRESH / 2 < lvl → t.integrity.reported = s.integrity.reported) ∧
        (∀ k, k ≠ c.val → tabGet (fun _ => false) t.integrity.reported k = tabGet (fun _ => false) s.integrity.reported k) ∧ RegsBut [R.MI_LB_STAT c] s t ∧ t = { s with regs := t.regs, integrity := { s.integrity with reported := t.integrity.reported } }) ∧
  (∀ (c : Fin 7) (found : Found) (s : State),
      let n := tabGet (fun _ => 0) s.integrity.scrubAt c
      let idle := bistHolds s c n || poisoned s (markPlace c n)
      (bitOf (getF s R.MI_CTL F.MI_CTL_SCRUB) c = false → exec (.scrubWord c found) s = .next s) ∧
      (bitOf (getF s R.MI_CTL F.MI_CTL_SCRUB) c = true → ∃ x,
        ((idle = true ∨ found = .clean) → x = s) ∧
        (idle = false → found = .correctable → ∃ a z, x = onInteg (fun i => { i with writeBack := tabSet (fun _ => none) i.writeBack c (some n) }) (correctedWord c a z) ∧ classAddr c n s = (a, z)) ∧
        (idle = false → found = .uncorrectable → ∃ a z, x = freshError c a (markPlace c n) z ∧ classAddr c n s = (a, z)) ∧
        (∃ y, tabGet (fun _ => 0) y.integrity.scrubAt c = (if classWords x c ≤ n + 1 then 0 else n + 1) ∧ (∀ k, k ≠ c.val → tabGet (fun _ => 0) y.integrity.scrubAt k = tabGet (fun _ => 0) x.integrity.scrubAt k) ∧
          y = { x with integrity := { x.integrity with scrubAt := y.integrity.scrubAt } } ∧ exec (.scrubWord c found) s = .next (if classWords x c ≤ n + 1 then endLap c y else y)))) ∧
  (∀ (c a place : Nat) (s : State), c < 7 → ∃ y, poisoned y place = true ∧ (∀ b, b / 8 ≠ place / 8 → poisoned y b = poisoned s b) ∧ getReg y R.MI_STAT = getReg s R.MI_STAT ||| BitVec.ofNat 32 (2 ^ (8 + c)) ∧
      getReg y (R.MI_LB_UADDR c) = BitVec.ofNat 32 a ∧ getCtr y (ctr 0x0015 1 c) = (getCtr s (ctr 0x0015 1 c) + 1) % 2 ^ 48 ∧ RegsBut [R.MI_STAT, R.MI_LB_UADDR c] s y ∧ y = { s with regs := y.regs, mon := { s.mon with counters := y.mon.counters }, integrity := { s.integrity with badWords := y.integrity.badWords }, poison := y.poison } ∧
      (let z := miNotice c 0xC1 (bitsOf a 3 16) y
       freshError c a place s = (if dpxOn z = true ∧ c < 6 ∧ bitOf (getF z R.DPX_FMASK F.DPX_FMASK_MEM) c = true then latchFault 0 z else z))) ∧
  (∀ (c a : Nat) (s : State), c < 7 →
      let lvl := getF s (R.MI_LB_STAT c) F.MI_LB_STAT_LEVEL
      let up := min 65535 (lvl + 1)
      let thr := getF s (R.MI_LB_CFG c) F.MI_LB_CFG_THRESH
      ∃ y, getReg y (R.MI_LB_ADDR c) = BitVec.ofNat 32 a ∧ getF y (R.MI_LB_STAT c) F.MI_LB_STAT_LEVEL = up ∧ getCtr y (ctr 0x0015 0 c) = (getCtr s (ctr 0x0015 0 c) + 1) % 2 ^ 48 ∧
        ((thr < lvl ∨ up ≤ thr) → correctedWord c a s = y ∧ RegsBut [R.MI_LB_ADDR c, R.MI_LB_STAT c] s y ∧ y = { s with regs := y.regs, mon := { s.mon with counters := y.mon.counters }, integrity := { s.integrity with badWords := y.integrity.badWords } }) ∧
        (lvl ≤ thr → thr < up → getReg y R.MI_STAT = getReg s R.MI_STAT ||| BitVec.ofNat 32 (2 ^ c) ∧ tabGet (fun _ => false) y.integrity.reported c = true ∧
          RegsBut [R.MI_LB_ADDR c, R.MI_LB_STAT c, R.MI_STAT] s y ∧ y = { s with regs := y.regs, mon := { s.mon with counters := y.mon.counters }, integrity := { s.integrity with reported := y.integrity.reported, badWords := y.integrity.badWords } } ∧
          correctedWord c a s = (if tabGet (fun _ => false) s.integrity.reported c = true then y else miNotice c 0x81 up y))) ∧
  (∀ (c : Fin 7) (otherWrite : Bool) (s : State),
      (tabGet (fun _ => none) s.integrity.writeBack c = none → exec (.scrubWriteback c otherWrite) s = .next s) ∧
      (tabGet (fun _ => none) s.integrity.writeBack c ≠ none → ∃ t, exec (.scrubWriteback c otherWrite) s = .next t ∧ tabGet (fun _ => none) t.integrity.writeBack c = none ∧
        (∀ k, k ≠ c.val → tabGet (fun _ => none) t.integrity.writeBack k = tabGet (fun _ => none) s.integrity.writeBack k) ∧
        getCtr t (ctr 0x0015 4 c) = (if otherWrite = true then (getCtr s (ctr 0x0015 4 c) + 1) % 2 ^ 48 else getCtr s (ctr 0x0015 4 c)) ∧ t = { s with integrity := { s.integrity with writeBack := t.integrity.writeBack }, mon := { s.mon with counters := t.mon.counters } })) ∧
  (∀ (m : Master) (v : Word) (s : State), Takes s m R.BIST_CMD →
      let t := F.BIST_CMD_TARGET.get v
      ∃ y, OnlyRegs [R.BIST_CMD] (dropOverlap R.BIST_CMD 4 s) y ∧
        (let refused := targetRefused y t || (s.integrity.test.isSome && !s.integrity.selfTest) || s.integrity.queued.isSome || s.upd.handover.isSome
         (refused = true → ∃ z, exec (.bistGo m v) s = .next (answer .ok z) ∧ getB z R.BIST_STAT F.BIST_STAT_CFGREF = true ∧ getCtr z (ctr 0x0016 3 0) = (getCtr y (ctr 0x0016 3 0) + 1) % 2 ^ 48 ∧ RegsBut [R.BIST_STAT] y z ∧ z = { y with regs := z.regs, mon := { y.mon with counters := z.mon.counters }, integrity := { y.integrity with badWords := z.integrity.badWords } }) ∧
         (refused = false → s.integrity.test ≠ none → exec (.bistGo m v) s = .next (answer .ok { y with integrity := { y.integrity with queued := some t } })) ∧
         (refused = false → s.integrity.test = none → exec (.bistGo m v) s = .next (answer .ok (startTest t false y))))) ∧
  (∀ (t : Nat) (self : Bool) (s : State), t < 0x40 ∨ 0x50 ≤ t → t < 2 ^ F.BIST_STAT_LTARGET.width →
      let y := startTest t self s
      getF y R.BIST_STAT F.BIST_STAT_STATE = 1 ∧ (segmentHeld s = false → getF y R.BIST_STAT F.BIST_STAT_LTARGET = t) ∧
      getF y R.BIST_STAT F.BIST_STAT_PHASE = (if (t < 0x20 ∧ s.integrity.spareFor = none) ∨ redirected t = true then 1 else 0) ∧
      y.integrity.test = some t ∧ y.integrity.selfTest = self ∧ y.integrity.draining = decide (t < 0x20 ∧ s.integrity.spareFor ≠ none) ∧
      RegsBut [R.BIST_STAT] s y ∧ y = { s with regs := y.regs, mon := { s.mon with counters := y.mon.counters }, integrity := y.integrity }) ∧
  (∀ (s : State), (s.integrity.test = none → exec .bistCopyDone s = .next s ∧ exec .bistReturnDone s = .next s) ∧
      (∀ t, s.integrity.test = some t → (getF s R.BIST_STAT F.BIST_STAT_PHASE ≠ 1 → exec .bistCopyDone s = .next s) ∧ (getF s R.BIST_STAT F.BIST_STAT_PHASE ≠ 4 → exec .bistReturnDone s = .next s) ∧
        (getF s R.BIST_STAT F.BIST_STAT_PHASE = 1 → ∃ u, exec .bistCopyDone s = .next u ∧ getF u R.BIST_STAT F.BIST_STAT_PHASE = 3 ∧
          u.integrity = (if t < 0x20 then { s.integrity with spareFor := some t, offline := true } else { s.integrity with segment := some t }) ∧ RegsBut [R.BIST_STAT] s u ∧ u = { s with regs := u.regs, integrity := u.integrity }) ∧
        (getF s R.BIST_STAT F.BIST_STAT_PHASE = 4 → exec .bistReturnDone s = .next (endTest { s with integrity := if t < 0x20 then { s.integrity with spareFor := none } else { s.integrity with segment := none } }))) ∧
      ((s.integrity.draining = true ∧ s.integrity.offline = false ∧ ∀ c ∈ usedCells s, some (c / 1024) ≠ s.integrity.test) → ∃ u, exec .bistBankDrained s = .next u ∧ u.integrity.offline = true ∧ getF u R.BIST_STAT F.BIST_STAT_PHASE = 3 ∧
        getF u R.SO_CAP F.SO_CAP_CELLS = (getF s R.SO_CAP F.SO_CAP_CELLS - 1024) % 2 ^ F.SO_CAP_CELLS.width ∧ getCtr u (ctr 0x0016 5 0) = (getCtr s (ctr 0x0016 5 0) + 1) % 2 ^ 48 ∧
        RegsBut [R.BIST_STAT, R.SO_CAP, R.SO_RES_B 0, R.SO_RES_B 1, R.SO_RES_B 2] s u ∧ u = { s with regs := u.regs, mon := { s.mon with counters := u.mon.counters }, integrity := u.integrity, ports := u.ports }) ∧
      ((s.integrity.draining = false ∨ s.integrity.offline = true ∨ ∃ c ∈ usedCells s, some (c / 1024) = s.integrity.test) → exec .bistBankDrained s = .next s)) ∧
  (∀ (pass : Bool) (faddr misr : Word) (s : State), (s.integrity.test = none → exec (.bistTestDone pass faddr misr) s = .next s) ∧
      (∀ t, s.integrity.test = some t → (t < 0x20 ∨ redirected t = true) → getF s R.BIST_STAT F.BIST_STAT_PHASE ≠ 3 → exec (.bistTestDone pass faddr misr) s = .next s) ∧
      (∀ t, s.integrity.test = some t → ((t < 0x20 ∨ redirected t = true) → getF s R.BIST_STAT F.BIST_STAT_PHASE = 3) → 
        ∃ y, (((0x40 ≤ t ∧ t < 0x50) ∨ t = 0x70 ∨ t = 0x71) → getReg y R.BIST_MISR = misr) ∧ (pass = false → t ≠ 0x70 → t ≠ 0x71 → getReg y R.BIST_FADDR = faddr) ∧ RegsBut [R.BIST_MISR, R.BIST_FADDR] s y ∧ y = { s with regs := y.regs } ∧
          (let z := verdict t pass y
           (pass = false → (t < 0x40 ∨ 0x50 ≤ t) → exec (.bistTestDone pass faddr misr) s = .next (endTest (failTarget t z))) ∧
           (pass = false → 0x40 ≤ t → t < 0x50 → exec (.bistTestDone pass faddr misr) s = .next (refreshCluster (t - 0x40) (endTest (failTarget t z)))) ∧
           (pass = true → ((t < 0x20 ∧ z.integrity.draining = false) ∨ redirected t = true) → ∃ u, exec (.bistTestDone pass faddr misr) s = .next u ∧ getF u R.BIST_STAT F.BIST_STAT_PHASE = 4 ∧ RegsBut [R.BIST_STAT] z u ∧ u = { z with regs := u.regs }) ∧
           (pass = true → t < 0x20 → z.integrity.draining = true → exec (.bistTestDone pass faddr misr) s = .next (endTest (regainBank z))) ∧
           (pass = true → 0x40 ≤ t → t < 0x50 → exec (.bistTestDone pass faddr misr) s = .next (refreshCluster (t - 0x40) (endTest (setB z (R.SCR_CSTAT (t - 0x40)) F.SCR_CSTAT_UNUSABLE false)))) ∧
           (pass = true → (t = 0x20 ∨ 0x70 ≤ t) → exec (.bistTestDone pass faddr misr) s = .next (endTest z))))) ∧
  (∀ (b : Nat) (s : State), s.integrity.draining = false → b < 32 → ∃ y, y.integrity.retired = b :: s.integrity.retired ∧ getF y R.SO_CAP F.SO_CAP_RETIRED = (getF s R.SO_CAP F.SO_CAP_RETIRED + 1) % 2 ^ F.SO_CAP_RETIRED.width ∧
      getCtr y (ctr 0x0016 4 0) = (getCtr s (ctr 0x0016 4 0) + 1) % 2 ^ 48 ∧ RegsBut [R.SO_CAP] s y ∧ y = { s with regs := y.regs, mon := { s.mon with counters := y.mon.counters }, integrity := { s.integrity with retired := y.integrity.retired, badWords := y.integrity.badWords } } ∧ getB (retireBank b s) R.SO_CAP F.SO_CAP_SPARE = false ∧
      retireBank b s = setB (bistNotice 0xC2 b y) R.SO_CAP F.SO_CAP_SPARE false)

/-- The ROM's boot, the records of the manifest and persistent data. The ROM boots once after a reset: a failed SRAM test stops it with its
flag, a refused flash with FLASHERR; otherwise BOOTFAIL is counted, a fourth failure or no slot enters recovery, and a slot that verifies is
started and its manifest applied. A record acts only while an apply is under way: writes and polls outside the node's own blocks, DELAY up
to 100,000 microseconds, one PERSIST, one NODECFG and END; a record that breaks its rule fails the apply. A persistent record costs a token,
waits, or replaces the waiting one of its kind; a token gained writes a waiting record. (spec: 17_manifest_and_update.md) -/
def Obligations.BootAndManifestFollowTheFlash : Prop :=
  (∀ (sfdp : Option (Nat × Bool)) (sram office : Bool) (s : State),
      ((s.upd.booted = true ∨ clocked s = false) → exec (.romBoot sfdp sram office) s = .next s) ∧
      (s.upd.booted = false → clocked s = true →
        ∃ x, x = { s with upd := { s.upd with booted := true }, node := { s.node with wdogFrom := s.time.ltick }, integrity := { s.integrity with segment := none } } ∧
          (sram = false → ∃ t, exec (.romBoot sfdp sram office) s = .next t ∧ getB t R.BIST_FLAGS F.BIST_FLAGS_MSRAM = true ∧ RegsBut [R.BIST_FLAGS] x t ∧ t = { x with regs := t.regs }) ∧
          (sram = true → flashRefused sfdp = true → ∃ t, exec (.romBoot sfdp sram office) s = .next t ∧ getB t R.UPD_STAT F.UPD_STAT_FLASHERR = true ∧ t.upd = { x.upd with line := .flash } ∧
            RegsBut [R.BIST_FLAGS, R.UPD_FLASH, R.UPD_STAT] x t ∧ t = { x with regs := t.regs, upd := t.upd }) ∧
          (sram = true → flashRefused sfdp = false → ∃ y, getB y R.BIST_FLAGS F.BIST_FLAGS_SO = (getB s R.BIST_FLAGS F.BIST_FLAGS_SO || (getB s R.BIST_BOOT F.BIST_BOOT_SO && !office)) ∧
            RegsBut [R.BIST_FLAGS, R.UPD_FLASH] x y ∧ y = { x with regs := y.regs } ∧ exec (.romBoot sfdp sram office) s = .next (bootImage (getB s R.BIST_BOOT F.BIST_BOOT_SO && !office) y)))) ∧
  (∀ (soFailed : Bool) (s : State),
      let fails := min 15 (getF s R.UPD_BOOT F.UPD_BOOT_BOOTFAIL + 1)
      let mode := getF s R.UPD_BOOT F.UPD_BOOT_MODE
      ∃ z, getF z R.UPD_BOOT F.UPD_BOOT_BOOTFAIL = fails ∧ getCtr z (ctr 0x0018 11 mode) = (getCtr s (ctr 0x0018 11 mode) + 1) % 2 ^ 48 ∧ RegsBut [R.UPD_BOOT] s z ∧ z = { s with regs := z.regs, mon := { s.mon with counters := z.mon.counters }, integrity := { s.integrity with badWords := z.integrity.badWords } } ∧
        (4 ≤ fails → bootImage soFailed s = enterRecovery z) ∧
        (fails < 4 → (chooseByMode mode z).1 = none → bootImage soFailed s = enterRecovery (chooseByMode mode z).2) ∧
        (∀ slot trial, fails < 4 → (chooseByMode mode z).1 = some (slot, trial) → 
          (let w := startSlot slot trial (chooseByMode mode z).2
           bootImage soFailed s = startApply slot (if soFailed = true then bistNotice 0xC3 0 w else w)))) ∧
  (∀ (slot : Nat) (trial : Bool) (s : State), slot < 2 →
      let t := startSlot slot trial s
      getF t R.UPD_STAT F.UPD_STAT_RUNSLOT = slot ∧ getB t R.UPD_STAT F.UPD_STAT_TRIAL = trial ∧ regs64 t R.UPD_RUN_LO R.UPD_RUN_HI = hdrImage (slotHeader s slot) ∧
      t.upd = { s.upd with keySlot := hdrNum (slotHeader s slot) 0x06 1, trialFrom := s.time.ltick, recovery := false, line := .none } ∧
      RegsBut [R.UPD_STAT, R.UPD_RUN_LO, R.UPD_RUN_HI, R.UPD_BOOT, R.UPD_DONE, R.UPD_IMG_LO, R.UPD_IMG_HI] s t ∧ t = { s with regs := t.regs, upd := t.upd }) ∧
  (∀ (s : State), (∀ slot, manifestMatches s slot (slotHeader s slot) = true → startApply slot s = { s with upd := { s.upd with apply := { index := 0, persists := 0, configs := 0, ended := false } } }) ∧
      (∀ x, x = requestMode 2 { s with upd := { s.upd with apply := { s.upd.apply with ended := true } } } → failApply s = updNotice 0xC1 s.upd.apply.index x)) ∧
  (∀ (s : State) (a w0 w1 mask value : Word) (ws : List Word) (hs : List (BitVec 16)) (us : Nat) (late : Bool) (how : ManifestEnd), applying s = false →
      exec (.mfWrite32 a ws) s = .next s ∧ exec (.mfWrite16 a hs) s = .next s ∧ exec (.mfDelay us) s = .next s ∧ exec (.mfPoll a mask value late) s = .next s ∧
      exec .mfPersist s = .next s ∧ exec (.mfNodecfg a w0 w1) s = .next s ∧ exec (.mfEnd how) s = .next s) ∧
  (∀ (s : State) (a : Word) (ws : List Word) (hs : List (BitVec 16)), applying s = true →
      let own := fun (w n : Nat) => (List.range n).any (fun i => ownBlock (a.toNat + w * i)) || ownBlock a.toNat
      let r4 := firmwareWrites 4 a.toNat (ws.map (fun w => w.toNat)) s
      let r2 := firmwareWrites 2 a.toNat (hs.map (fun h => h.toNat)) s
      let done := fun (u : UpdState) => { u with apply := { u.apply with index := u.apply.index + 1 } }
      (own 4 ws.length = true → exec (.mfWrite32 a ws) s = .next (failApply s)) ∧ (own 2 hs.length = true → exec (.mfWrite16 a hs) s = .next (failApply s)) ∧
      (own 4 ws.length = false → r4.2 = false → exec (.mfWrite32 a ws) s = .next (failApply r4.1)) ∧ (own 2 hs.length = false → r2.2 = false → exec (.mfWrite16 a hs) s = .next (failApply r2.1)) ∧
      (own 4 ws.length = false → r4.2 = true → exec (.mfWrite32 a ws) s = .next { r4.1 with upd := done r4.1.upd }) ∧
      (own 2 hs.length = false → r2.2 = true → exec (.mfWrite16 a hs) s = .next { r2.1 with upd := done r2.1.upd })) ∧
  (∀ (s : State) (a mask value : Word) (us : Nat) (late : Bool), applying s = true →
      let done := fun (u : UpdState) => { u with apply := { u.apply with index := u.apply.index + 1 } }
      let r := busRead (.loc 0) false a.toNat 4 0 s
      (us ≤ 100000 → exec (.mfDelay us) s = .next { s with upd := done s.upd }) ∧ (100000 < us → exec (.mfDelay us) s = .next (failApply s)) ∧
      (ownBlock a.toNat = true → exec (.mfPoll a mask value late) s = .next (failApply s)) ∧
      (∀ v p, ownBlock a.toNat = false → r.2 = .data v p → (lo32 v &&& mask) = value → exec (.mfPoll a mask value late) s = .next { r.1 with upd := done r.1.upd }) ∧
      (ownBlock a.toNat = false → (∀ v p, r.2 = .data v p → (lo32 v &&& mask) ≠ value) → exec (.mfPoll a mask value late) s = .next (if late = true then failApply r.1 else r.1))) ∧
  (∀ (s : State) (a w0 w1 : Word), applying s = true →
      let done := fun (u : UpdState) => { u with apply := { u.apply with index := u.apply.index + 1 } }
      let x := restorePersistent s
      let fits := decide (a = 0 ∧ (w0 &&& ~~~0x1FFFF) = 0 ∧ (w1 &&& ~~~0xFFFF00) = 0 ∧ s.upd.apply.configs = 0)
      (s.upd.apply.persists ≠ 0 → exec .mfPersist s = .next (failApply s)) ∧
      (s.upd.apply.persists = 0 → exec .mfPersist s = .next { x with upd := done { x.upd with apply := { x.upd.apply with persists := 1 } } }) ∧
      (fits = false → exec (.mfNodecfg a w0 w1) s = .next (failApply s)) ∧
      (fits = true → ∃ t, exec (.mfNodecfg a w0 w1) s = .next t ∧ t.upd = done { s.upd with apply := { s.upd.apply with configs := 1 } } ∧
        OnlyRegs [R.NODE_WDOG, R.UPD_CTL] { s with upd := t.upd, node := { s.node with wdogFrom := t.node.wdogFrom }, resp := t.resp } t)) ∧
  (∀ (s : State) (how : ManifestEnd), applying s = true →
      ((how ≠ .endRecord ∨ s.upd.apply.persists ≠ 1) → exec (.mfEnd how) s = .next (failApply s)) ∧
      (how = .endRecord → s.upd.apply.persists = 1 → (serviceMode s = 0 ∨ transitionOk (.loc 0) s 1 = true) → ∃ t, exec (.mfEnd how) s = .next t ∧ t.upd = { s.upd with apply := { s.upd.apply with ended := true } } ∧ sealed t = true ∧
        OnlyRegs [R.NODE_CTL] { s with upd := t.upd, resp := t.resp } t)) ∧
  (∀ (kind : Fin 3) (s : State),
      let r := recordNow s kind
      (s.upd.persistWait = [] → 0 < tokens s → flashHeld s = false → ∃ t, exec (.persistWrite kind) s = .next t ∧ tokens t = tokens s - 1 ∧
        t.upd = { s.upd with persistSeq := s.upd.persistSeq + 1, persist := t.upd.persist } ∧ tabGet (fun _ => none) t.upd.persist kind = some { r with seq := s.upd.persistSeq + 1 } ∧
        (∀ k, k ≠ kind.val → tabGet (fun _ => none) t.upd.persist k = tabGet (fun _ => none) s.upd.persist k) ∧ getCtr t (ctr 0x0018 9 0) = (getCtr s (ctr 0x0018 9 0) + 1) % 2 ^ 48 ∧ RegsBut [R.UPD_FLASH] s t ∧ t = { s with regs := t.regs, mon := { s.mon with counters := t.mon.counters }, integrity := { s.integrity with badWords := t.integrity.badWords }, upd := t.upd }) ∧
      ((s.upd.persistWait ≠ [] ∨ tokens s = 0 ∨ flashHeld s = true) → (∀ w ∈ s.upd.persistWait, w.1 ≠ kind.val) →
        exec (.persistWrite kind) s = .next { s with upd := { s.upd with persistWait := s.upd.persistWait ++ [(kind.val, r)] } }) ∧
      ((∃ w ∈ s.upd.persistWait, w.1 = kind.val) → ∃ y, ∃ arg < 2 ^ 16, exec (.persistWrite kind) s = .next (updNotice 0x83 arg y) ∧
        y.upd = { s.upd with persistWait := s.upd.persistWait.map (fun w => if w.1 = kind.val then (kind.val, r) else w) } ∧ getCtr y (ctr 0x0018 10 0) = (getCtr s (ctr 0x0018 10 0) + 1) % 2 ^ 48 ∧
        y = { s with upd := y.upd, node := { s.node with freeCount := y.node.freeCount }, mon := { s.mon with counters := y.mon.counters } }) ∧
      exec .energyCheckpoint s = exec (.persistWrite 1) s) ∧
  (∀ (s : State), ∃ y, tokens y = min 16 (tokens s + 1) ∧ RegsBut [R.UPD_FLASH] s y ∧ y = { s with regs := y.regs } ∧ exec .tokenGain s = .next (flushRecords 1 y) ∧
      (y.upd.persistWait = [] → exec .tokenGain s = .next y) ∧ (flashHeld s = true → exec .tokenGain s = .next y) ∧
      (∀ k r rest, flashHeld s = false → y.upd.persistWait = (k, r) :: rest → exec .tokenGain s = .next (appendRecord k r { y with upd := { y.upd with persistWait := rest } })))

/-- FOLIO envelopes, writing and verifying, UPD_CTL, the handover, the trial and recovery frames. A FOLIO envelope is relayed to a recovering
neighbour or judged, and one whose POISON and POISON_ANY disagree is counted with its judgment: a sender without W, a misfit, a poisoned
part, a query, a header or a part each have their outcome, a denial is recorded and a refusal sets REASON and is answered. A header whose
image is acceptable opens a session unless the flash is held. A complete folio is programmed in the other slot, and a verified image
completes the session. ABORT, ACTIVATE and CONFIRM act as R437 to R439 say or set CFGREF. A handover boots the chosen slot; an expired trial
falls back. A FOLIO_ACK on the relay port goes on to the host. A frame in recovery is judged or answered NAK. (spec:
17_manifest_and_update.md) -/
def Obligations.FoliosWriteAndActivateImages : Prop :=
  (∀ (p : Fin 3) (e : Envelope) (s : State),
      let out := fun (f : Envelope) =>
        if getB s R.UPD_RELAY_CTL F.UPD_RELAY_CTL_EN = true ∧ (folioOf p f).session = 0xFFFF ∧ s.upd.recovery = false then
          sendOrWait 6 (some (relayPort s)) { f with dst := 0xFFFF, hops := 1 } (takeDelivered f s)
        else match judgeFolio (folioOf p f) (takeDelivered f s) with
          | some t => if poisonMismatch f = true then bump (ctr 0x000B 7 0) t else t
          | none => s
      exec (.folioHeader p e) s = .next (out (asKind kFolio e)) ∧ exec (.folioPart p e) s = .next (out (asKind kFolio e)) ∧
      exec (.folioQuery p e) s = .next (out (asKind kFolio { e with lenw := 0 })) ∧ (asKind kFolio { e with lenw := 0 }).payload = [] ∧
      (folioOf p (asKind kFolio e)).id = taggedMaster e) ∧
  (∀ (r : FolioReq) (s : State),
      let x := if r.words = [] then s else bump (ctr 0x0018 0 0) s
      let denied := !holdsWrite x r.id R.UPD_CTL && r.asker.port.isSome
      (denied = true → judgeFolio r s = some (refuseFolio r.asker 6 r.folio (denyEnvelope r.id R.UPD_CTL x))) ∧ (denied = false → folioMisfit r = true → judgeFolio r s = some (refuseFolio r.asker 5 r.folio x)) ∧
      (denied = false → folioMisfit r = false → r.poison = true → judgeFolio r s = some (dropPoisoned x)) ∧
      (denied = false → folioMisfit r = false → r.poison = false → r.words = [] → judgeFolio r s = some (judgeQuery r x)) ∧
      (denied = false → folioMisfit r = false → r.poison = false → r.words ≠ [] → judgeFolio r s = (if r.folio = 0 then judgeHeader r x else some (judgePart r x)))) ∧
  (∀ (q : Asker) (reason f : Nat) (s : State), reason < 256 → ∃ y, getF y R.UPD_STAT F.UPD_STAT_REASON = reason ∧ getCtr y (ctr 0x0018 3 reason) = (getCtr s (ctr 0x0018 3 reason) + 1) % 2 ^ 48 ∧ RegsBut [R.UPD_STAT] s y ∧ y = { s with regs := y.regs, mon := { s.mon with counters := y.mon.counters }, integrity := { s.integrity with badWords := y.integrity.badWords } } ∧
      refuseFolio q reason f s = sendAck q 3 reason f (if f = 0 then updNotice 0x81 reason y else y)) ∧
  (∀ (r : FolioReq) (s : State), (s.upd.session = none → judgePart r s = refuseFolio r.asker 4 r.folio s ∧ judgeQuery r s = refuseFolio r.asker 4 r.folio s) ∧
      (∀ x, s.upd.session = some x → sameSession s r x = true → x.st ≠ 2 → x.st ≠ 4 → r.folio ≤ hdrFolios x.header →
        judgeQuery r s = sendAck r.asker 5 0 r.folio s ∧ (r.folio ∈ x.done → judgePart r s = sendAck r.asker 1 0 r.folio (bump (ctr 0x0018 1 0) s)) ∧
        (r.folio ∉ x.done → judgePart r s = gatherPart r s)) ∧
      (s.upd.session = none → getB s R.UPD_STAT F.UPD_STAT_TRIAL = false → acceptable s (wordsBytes r.words) = false → judgeHeader r s = some (refuseFolio r.asker 1 0 s)) ∧
      (s.upd.session = none → getB s R.UPD_STAT F.UPD_STAT_TRIAL = false → acceptable s (wordsBytes r.words) = true → hdrImage (wordsBytes r.words) ≠ regs64 s R.UPD_RUN_LO R.UPD_RUN_HI →
        judgeHeader r s = (if flashHeld s = true then none else some (openSession r (wordsBytes r.words) s)))) ∧
  (∀ (r : FolioReq) (h : List Byte) (s : State),
      let num := (s.upd.lastNum + 1) % 65536
      let slot := updateSlot s
      let t := openSession r h s
      t.upd.session = some { num := num, header := h, erased := [0], done := [], st := 1 } ∧ t.upd.lastNum = num ∧ t.upd.bufs = [] ∧ getCtr t (ctr 0x0018 6 0) = (getCtr s (ctr 0x0018 6 0) + 1) % 2 ^ 48 ∧
      (h.length ≤ 256 → ∀ i, i < 65536 → getByte t (slotBase slot + i) = (h[i]?).getD 0xFF)) ∧
  (∀ (f : Nat) (good : Bool) (s : State),
      ((s.upd.session = none ∨ s.upd.bufs.find? (fun b => b.folio = f) = none) → exec (.folioWrite f good) s = .next s) ∧
      (∀ x b, s.upd.session = some x → s.upd.bufs.find? (fun b => b.folio = f) = some b →
        ((x.st ≠ 1 ∨ b.parts.length ≠ 4 ∨ flashHeld s = true) → exec (.folioWrite f good) s = .next s) ∧
        (x.st = 1 → b.parts.length = 4 → flashHeld s = false → exec (.folioWrite f good) s = .next (writeFolio x b good s) ∧
          (let t := writeFolio x b good s
           let a := slotBase (updateSlot s) + 1024 * b.folio
           t.upd.bufs = (if good = true then s.upd.bufs.filter (fun y => y.folio ≠ b.folio) else []) ∧
           (∀ i w, (bufferBytes b)[i]? = some w → getByte t (a + i) = w) ∧
           (good = true → ∃ e, t.upd.session = some { x with erased := e, done := b.folio :: x.done, st := if x.done.length + 1 = hdrFolios x.header then 2 else 1 } ∧ b.folio / 64 ∈ e) ∧
           (good = false → ∃ e, t.upd.session = some { x with erased := e, st := 4 }) ∧
           (b.folio / 64 ∈ x.erased → ∀ c, (c < a ∨ a + (bufferBytes b).length ≤ c) → getByte t c = getByte s c))))) ∧
  (∀ (s : State), (s.upd.session = none → exec .verifyDone s = .next s) ∧
      (∀ x, s.upd.session = some x → (x.st ≠ 2 ∨ (s.upd.recovery = true ∧ flashHeld s = true)) → exec .verifyDone s = .next s) ∧
      (∀ x, s.upd.session = some x → x.st = 2 → (s.upd.recovery = false ∨ flashHeld s = false) →
        let slot := updateSlot s
        let q := s.upd.last.getD { port := none, src := 0, tag := 0, addr := 0 }
        let f := (q.addr.toNat % 2 ^ 24) / 1024
        ((firmwareMatches s slot x.header = false ∨ manifestMatches s slot x.header = false) → exec .verifyDone s = .next (failSession x q 7 f s)) ∧
        (firmwareMatches s slot x.header = true → manifestMatches s slot x.header = true → 
          let t := sendAck q 2 0 f (updNotice 0x02 x.num (putSession { x with st := 3 } s))
          exec .verifyDone s = .next (if t.upd.recovery = true then finishRecovery x t else t)))) ∧
  (∀ (m : Master) (v : Word) (s : State), Takes s m R.UPD_CTL →
      let u := dropOverlap R.UPD_CTL 4 s
      (∀ w, w = F.UPD_CTL_ABORT.put v 1 → F.UPD_CTL_ACTIVATE.get w = 0 → F.UPD_CTL_CONFIRM.get w = 0 → ∃ y, OnlyRegs [R.UPD_CTL] u y ∧ exec (.updAbort m v) s = .next (answer .ok (abortSession y))) ∧
      (∀ w, w = F.UPD_CTL_ACTIVATE.put v 1 → F.UPD_CTL_ABORT.get w = 0 → F.UPD_CTL_CONFIRM.get w = 0 → ∃ y, OnlyRegs [R.UPD_CTL] u y ∧ exec (.updActivate m v) s = .next (answer .ok (activate y))) ∧
      (∀ w, w = F.UPD_CTL_CONFIRM.put v 1 → F.UPD_CTL_ABORT.get w = 0 → F.UPD_CTL_ACTIVATE.get w = 0 → ∃ y, OnlyRegs [R.UPD_CTL] u y ∧ exec (.updConfirm m v) s = .next (answer .ok (confirmTrial (masterId u m) y)))) ∧
  (∀ (s : State), (s.upd.session = none → abortSession s = s) ∧
      (∀ x, s.upd.session = some x → x.st = 2 → getB (abortSession s) R.UPD_STAT F.UPD_STAT_CFGREF = true ∧ RegsBut [R.UPD_STAT] s (abortSession s) ∧ (abortSession s) = { s with regs := (abortSession s).regs }) ∧
      (∀ x, s.upd.session = some x → x.st ≠ 2 → flashHeld s = true → abortSession s = { s with upd := { s.upd with abortWait := true } }) ∧
      (∀ x, s.upd.session = some x → x.st ≠ 2 → flashHeld s = false → abortSession s = closeSession s ∧ (closeSession s).upd.session = none ∧ (closeSession s).upd.bufs = [] ∧
        getF (closeSession s) R.UPD_STAT F.UPD_STAT_SESSION_ST = 0 ∧ getReg (closeSession s) R.UPD_DONE = 0) ∧
      (∀ x, s.upd.session = some x → x.st = 3 → segmentHeld s = false → s.upd.handover = none →
        activate s = advanceHandover (onUpd (fun u => { u with handover := some { header := trialHeader s (updateSlot s) (hdrImage x.header), started := false } }) (clearSession s))) ∧
      ((∀ x, s.upd.session = some x → x.st ≠ 3 ∨ segmentHeld s = true ∨ s.upd.handover ≠ none) → getB (activate s) R.UPD_STAT F.UPD_STAT_CFGREF = true ∧ RegsBut [R.UPD_STAT] s (activate s) ∧ (activate s) = { s with regs := (activate s).regs }) ∧
      (∀ id, (id ≠ masterId s (.loc 0) ∨ getB s R.UPD_STAT F.UPD_STAT_TRIAL = false) → getB (confirmTrial id s) R.UPD_STAT F.UPD_STAT_CFGREF = true ∧ RegsBut [R.UPD_STAT] s (confirmTrial id s) ∧ (confirmTrial id s) = { s with regs := (confirmTrial id s).regs }) ∧
      (getB s R.UPD_STAT F.UPD_STAT_TRIAL = true → ∃ y, y = writeHeader { presentHeader s with state := 0 } s ∧ confirmTrial (masterId s (.loc 0)) s = updNotice 0x04 0 (setB y R.UPD_STAT F.UPD_STAT_TRIAL false))) ∧
  (∀ (withRecord : Bool) (s : State),
      let y := advanceHandover s
      (y.upd.handover = none → exec (.handoverDone withRecord) s = .next s) ∧ (∀ h, y.upd.handover = some h → h.started = false → exec (.handoverDone withRecord) s = .next s) ∧
      (∀ h, y.upd.handover = some h → h.started = true → ∃ z, z.upd = { y.upd with handover := none } ∧ getReg z R.ARB_PRESENT = getReg y R.ARB_PRESENT ||| 2 ∧ RegsBut [R.ARB_PRESENT] y z ∧ z = { y with regs := z.regs, upd := z.upd } ∧
        ((chooseSlot z).1 = none → exec (.handoverDone withRecord) s = .next (enterRecovery (chooseSlot z).2)) ∧
        (∀ slot trial, (chooseSlot z).1 = some (slot, trial) → 
          let w := setB (startSlot slot trial (chooseSlot z).2) R.UPD_BOOT F.UPD_BOOT_HANDOVER true
          exec (.handoverDone withRecord) s = .next (selfTestKick (updNotice 0x03 (bit1 withRecord) (bump (ctr 0x0018 7 0) (if withRecord = true then w else loseRecord (setB w R.UPD_BOOT F.UPD_BOOT_NOREC true)))))))) ∧
  (∀ (s : State),
      (getB s R.UPD_STAT F.UPD_STAT_TRIAL = true → trialSeconds s ≤ trialElapsed s → s.upd.handover = none →
        let x := getF s R.UPD_STAT F.UPD_STAT_RUNSLOT
        let y := noteFallback (1 - x) (setB s R.UPD_STAT F.UPD_STAT_TRIAL false)
        exec .trialExpiry s = .next (advanceHandover { y with upd := { y.upd with handover := some { header := putSlot x 2 (confirmedOn (1 - x) (presentHeader s)), started := false } } })) ∧
      ((getB s R.UPD_STAT F.UPD_STAT_TRIAL = false ∨ trialElapsed s < trialSeconds s ∨ s.upd.handover ≠ none) → exec .trialExpiry s = .next s)) ∧
  (∀ (bs : List Byte) (s : State), (s.upd.recovery = false → exec (.recoveryFrame bs) s = .next s) ∧
      (s.upd.recovery = true → unescape bs = none → exec (.recoveryFrame bs) s = .next { s with upd := { s.upd with line := .nak } }) ∧
      (∀ raw, s.upd.recovery = true → unescape bs = some raw → frameFolio s raw = none → exec (.recoveryFrame bs) s = .next { s with upd := { s.upd with line := .nak } }) ∧
      (∀ raw r, s.upd.recovery = true → unescape bs = some raw → frameFolio s raw = some r → exec (.recoveryFrame bs) s = .next ((judgeFolio r s).getD s))) ∧
  (∀ (p : Fin 3) (e : Envelope) (s : State),
      let f := asKind kFolioAck e
      ((getB s R.UPD_RELAY_CTL F.UPD_RELAY_CTL_EN = true ∧ p.val = relayPort s) → exec (.folioAck p e) s = .next (sendOrWait 6 none (withCrcs { f with
        dst := BitVec.ofNat 16 (getF s R.UPD_RELAY F.UPD_RELAY_HOST), hops := BitVec.ofNat 12 (getF s R.BR_HOPS F.BR_HOPS_HOPS) }) (takeDelivered f s))) ∧
      ((getB s R.UPD_RELAY_CTL F.UPD_RELAY_CTL_EN = false ∨ p.val ≠ relayPort s) → exec (.folioAck p e) s = .next (takeDelivered f s)))

/-- Staging and committing access-table entries, and programming and revoking key slots. A taken write of word 1 or 2 of an entry goes to the
table's one stage, which is emptied first when its tag names another master or entry. A taken write of word 0 commits the entry with the
staged words of that master and entry, or those in force; a LIMIT below BASE leaves the entry and sets CFGREF, and the stage is emptied
either way. A fuse command that meets every condition sets BUSY and starts; any other sets REF. It ends with the staged key blown and PROG
set, or with REV set, and a key that reads back wrong is marked ERR and revoked at once. (spec: 18_access_identity_capabilities.md) -/
def Obligations.AccessTablesAndKeyFuses : Prop :=
  (∀ (m : Master) (t : Fin 148) (e : Fin 16) (k : Fin 2) (v : Word) (s : State),
      let a := if k.val = 0 then R.AT_W1 t.val e.val else R.AT_W2 t.val e.val
      Takes s m a →
      let u := dropOverlap a 4 s
      let old := (atStage s t).getD { tag := masterId s m, entry := e, w1 := none, w2 := none }
      let g := if old.tag = masterId s m ∧ old.entry = e then old else { tag := masterId s m, entry := e, w1 := none, w2 := none }
      ∃ y, exec (.atEntryStage m t e k v) s = .next (answer .ok y) ∧
        atStage y t = some (if k.val = 0 then { g with w1 := some (fieldBits a v) } else { g with w2 := some v }) ∧
        (∀ x, x ≠ t.val → atStage y x = atStage s x) ∧ y = { u with mon := { u.mon with counters := y.mon.counters }, integrity := { u.integrity with badWords := y.integrity.badWords }, tables := { u.tables with stages := y.tables.stages } }) ∧
  (∀ (m : Master) (t : Fin 148) (e : Fin 16) (v : Word) (s : State), Takes s m (R.AT_W0 t.val e.val) →
      let u := dropOverlap (R.AT_W0 t.val e.val) 4 s
      let p := commitParts u (masterId s m) t e
      let w0 := fieldBits (R.AT_W0 t.val e.val) v
      ∃ y, exec (.atEntryCommit m t e v) s = .next (answer .ok y) ∧ atStage y t = none ∧ (∀ x, x ≠ t.val → atStage y x = atStage s x) ∧
        (F.AT_W2_LIMIT.get p.2 < F.AT_W2_BASE.get p.2 → getB y R.AT_STAT F.AT_STAT_CFGREF = true ∧ RegsBut [R.AT_STAT] u y ∧ y = { u with regs := y.regs, mon := { u.mon with counters := y.mon.counters }, integrity := { u.integrity with badWords := y.integrity.badWords }, tables := { u.tables with stages := y.tables.stages } }) ∧
        (F.AT_W2_BASE.get p.2 ≤ F.AT_W2_LIMIT.get p.2 → sealed s = false →
          getReg y (R.AT_W0 t.val e.val) = w0 ∧ getReg y (R.AT_W1 t.val e.val) = p.1 ∧ getReg y (R.AT_W2 t.val e.val) = p.2 ∧
          RegsBut [R.AT_W0 t.val e.val, R.AT_W1 t.val e.val, R.AT_W2 t.val e.val] u y ∧ y = { u with regs := y.regs, mon := { u.mon with counters := y.mon.counters }, integrity := { u.integrity with badWords := y.integrity.badWords }, tables := { u.tables with stages := y.tables.stages } }) ∧
        (F.AT_W2_BASE.get p.2 ≤ F.AT_W2_LIMIT.get p.2 → sealed s = true →
          (¬(w0 = getReg s (R.AT_W0 t.val e.val) ∧ p.1 = getReg s (R.AT_W1 t.val e.val) ∧ p.2 = getReg s (R.AT_W2 t.val e.val)) → getCtr y sealWr = (getCtr s sealWr + 1) % 2 ^ 48) ∧
          y.regs = u.regs ∧ y = { u with mon := { u.mon with counters := y.mon.counters }, integrity := { u.integrity with badWords := y.integrity.badWords }, tables := { u.tables with stages := y.tables.stages } })) ∧
  (∀ (m : Master) (v : Word) (s : State), Takes s m R.ID_FUSE_CMD →
      let u := dropOverlap R.ID_FUSE_CMD 4 s
      let k := F.ID_FUSE_CMD_SLOT.get v
      let may := (m = .loc 0 ∨ m = .loc 1) ∧ F.ID_FUSE_CMD_KEY.get v = 0xA5 ∧ (serviceMode s = 3 ∨ serviceMode s = 2) ∧ getB s R.PD_STAT F.PD_STAT_BROWN = false ∧ 1 ≤ k ∧ s.tables.fuse = none
      (may → bitOf (getReg s R.ID_KEYS).toNat (2 * k) = false →
        ∃ y, exec (.fuseProgram m v) s = .next (answer .ok y) ∧ y.tables.fuse = some (true, k) ∧ getB y R.ID_FUSE_STAT F.ID_FUSE_STAT_BUSY = true ∧ RegsBut [R.ID_FUSE_STAT] u y ∧ y = { u with regs := y.regs, tables := { u.tables with fuse := y.tables.fuse } }) ∧
      (may → bitOf (getReg s R.ID_KEYS).toNat (2 * k) = true → s.upd.keySlot ≠ k →
        ∃ y, exec (.fuseRevoke m v) s = .next (answer .ok y) ∧ y.tables.fuse = some (false, k) ∧ getB y R.ID_FUSE_STAT F.ID_FUSE_STAT_BUSY = true ∧ RegsBut [R.ID_FUSE_STAT] u y ∧ y = { u with regs := y.regs, tables := { u.tables with fuse := y.tables.fuse } }) ∧
      (¬(may ∧ bitOf (getReg s R.ID_KEYS).toNat (2 * k) = false) →
        ∃ y, exec (.fuseProgram m v) s = .next (answer .ok y) ∧ getB y R.ID_FUSE_STAT F.ID_FUSE_STAT_REF = true ∧ RegsBut [R.ID_FUSE_STAT] u y ∧ y = { u with regs := y.regs }) ∧
      (¬(may ∧ bitOf (getReg s R.ID_KEYS).toNat (2 * k) = true ∧ s.upd.keySlot ≠ k) →
        ∃ y, exec (.fuseRevoke m v) s = .next (answer .ok y) ∧ getB y R.ID_FUSE_STAT F.ID_FUSE_STAT_REF = true ∧ RegsBut [R.ID_FUSE_STAT] u y ∧ y = { u with regs := y.regs })) ∧
  (∀ (matched : Bool) (s : State), 
      (s.tables.fuse = none → exec (.fuseDone matched) s = .next s) ∧
      (∀ k, s.tables.fuse = some (false, k) → k < 4 →
        ∃ t, exec (.fuseDone matched) s = .next t ∧ t.tables.fuse = none ∧ getB t R.ID_FUSE_STAT F.ID_FUSE_STAT_BUSY = false ∧ bitOf (getReg t R.ID_KEYS).toNat (2 * k + 1) = true ∧
          (∀ b, b ≠ 2 * k + 1 → bitOf (getReg t R.ID_KEYS).toNat b = bitOf (getReg s R.ID_KEYS).toNat b) ∧ RegsBut [R.ID_FUSE_STAT, R.ID_KEYS] s t ∧ t = { s with regs := t.regs, tables := { s.tables with fuse := t.tables.fuse } }) ∧
      (∀ k, s.tables.fuse = some (true, k) → k < 4 →
        ∃ t, exec (.fuseDone matched) s = .next t ∧ t.tables.fuse = none ∧ getB t R.ID_FUSE_STAT F.ID_FUSE_STAT_BUSY = false ∧ bitOf (getReg t R.ID_KEYS).toNat (2 * k) = true ∧
          (matched = false → bitOf (getReg t R.ID_KEYS).toNat (2 * k + 1) = true ∧ getB t R.ID_FUSE_STAT F.ID_FUSE_STAT_ERR = true) ∧
          (∀ b, b ≠ 2 * k → (matched = true ∨ b ≠ 2 * k + 1) → bitOf (getReg t R.ID_KEYS).toNat b = bitOf (getReg s R.ID_KEYS).toNat b) ∧
          (∀ j, j < 16 → getReg t (R.ID_KEY k j) = tabGet (fun _ => 0) s.tables.keyStage j) ∧
          RegsBut ([R.ID_FUSE_STAT, R.ID_KEYS] ++ (List.range 16).map (fun j => R.ID_KEY k j)) s t ∧ t = { s with regs := t.regs, tables := { s.tables with fuse := t.tables.fuse } }))

/-- Snapshot marks, the copies they take at their instant, and local snapshots. A SNAPSHOT_MARK of another form, at a quarantined node, or whose
sender (SRC and the tag's MI, the model's reading, log entry 154) holds no W on the counter block, is discarded and counted. One whose
instant is not later than ITB0 is refused with LATE, a fifth pending one with OVR, each with a notice; one with a pending ID replaces that
mark. A snapshot copies every counter into bank ID & 1 and leaves the other bank, writes the bank's ID word with SEQ one higher, its
postmark and CNT_ARR without DONE, and starts the array copy; a copy under way is abandoned and counted. The array copy ends with DONE. A
taken CNT_SNAP with GO takes a local snapshot, or sets CFGREF where a due mark has the same bank. (spec: 19_counters_and_monitor.md) -/
def Obligations.SnapshotsCopyTheCounters : Prop :=
  (∀ (e : Envelope) (s : State),
      let f := asKind kSnapshotMark e
      let d := takeDelivered f s
      (f.lenw ≠ 2 ∨ (payloadWord f 0).toNat / 65536 ≠ 0 ∨ quarantined s = true ∨ holdsWrite s (taggedMaster f) 0xF0000 = false →
        ∃ t, exec (.snapshotMark e) s = .next t ∧ getCtr t (ctr 0x0017 6 0) = (getCtr s (ctr 0x0017 6 0) + 1) % 2 ^ 48 ∧ t.mon.marks = s.mon.marks ∧ t.regs = s.regs ∧ t = { d with mon := { d.mon with counters := t.mon.counters } }) ∧
      (f.lenw = 2 → (payloadWord f 0).toNat / 65536 = 0 → quarantined s = false → holdsWrite s (taggedMaster f) 0xF0000 = true →
        exec (.snapshotMark e) s = .next (acceptMark ((payloadWord f 0).toNat % 65536) (payloadWord f 1).toNat d))) ∧
  (∀ (id instant : Nat) (s : State),
      (∀ f kind x, f = F.CNT_STAT_LATE ∨ f = F.CNT_STAT_OVR → x = bump (ctr 0x0017 kind 0) (setB s R.CNT_STAT f true) → refuseMark f kind id s = postOnce (getF x R.CNT_CTL F.CNT_CTL_NTC_Q) 0x0017 0 0x81 id x ∧ getB x R.CNT_STAT f = true) ∧
      (instant ≤ nowNs s → acceptMark id instant s = refuseMark F.CNT_STAT_LATE 1 id s) ∧
      (nowNs s < instant → (∀ k ∈ s.mon.marks, k.id ≠ id) → 4 ≤ s.mon.marks.length → acceptMark id instant s = refuseMark F.CNT_STAT_OVR 2 id s) ∧
      (nowNs s < instant → ((∃ k ∈ s.mon.marks, k.id = id) ∨ s.mon.marks.length < 4) →
        ∃ t, t = acceptMark id instant s ∧ t.mon.marks = s.mon.marks.filter (fun k => k.id ≠ id) ++ [{ id := id, instant := instant }] ∧
          getCtr t (ctr 0x0017 0 0) = (getCtr s (ctr 0x0017 0 0) + 1) % 2 ^ 48 ∧ t.regs = s.regs ∧ t.mon.shadow0 = s.mon.shadow0 ∧ t.mon.shadow1 = s.mon.shadow1 ∧ t.mon.arrays = s.mon.arrays ∧ t = { s with mon := { s.mon with counters := t.mon.counters, marks := t.mon.marks } })) ∧
  (∀ (id : Nat) (isLocal : Bool) (s : State),
      let b := id % 2
      ∃ z, takeSnapshot id isLocal s = postOnce (getF z R.CNT_CTL F.CNT_CTL_NTC_Q) 0x0017 0 0x01 id z ∧
        (if b = 0 then z.mon.shadow0 else z.mon.shadow1) = s.mon.counters ∧ (if b = 0 then z.mon.shadow1 else z.mon.shadow0) = (if b = 0 then s.mon.shadow1 else s.mon.shadow0) ∧
        z.mon.arrays = s.mon.counters ∧ z.mon.arrBusy = true ∧
        getF z (R.CNT_SB_ID b) F.CNT_SB_ID_ID = id % 65536 ∧ getB z (R.CNT_SB_ID b) F.CNT_SB_ID_VALID = true ∧ getB z (R.CNT_SB_ID b) F.CNT_SB_ID_LOCAL = isLocal ∧
        getB z (R.CNT_SB_ID b) F.CNT_SB_ID_SYNCED = getB s R.TM_CTL F.TM_CTL_SYNCED ∧ getF z (R.CNT_SB_ID b) F.CNT_SB_ID_SEQ = (getF s (R.CNT_SB_ID b) F.CNT_SB_ID_SEQ + 1) % 256 ∧
        getReg z (R.CNT_SB_PM_LO b) = lo32 (pmItb s 0) ∧ getReg z (R.CNT_SB_PM_HI b) = hi32 (pmItb s 0) ∧ getF z R.CNT_ARR F.CNT_ARR_ID = id % 65536 ∧ getB z R.CNT_ARR F.CNT_ARR_DONE = false ∧
        getCtr z (ctr 0x0017 (if isLocal = true then 4 else 3) 0) = (getCtr s (ctr 0x0017 (if isLocal = true then 4 else 3) 0) + 1) % 2 ^ 48 ∧
        getCtr z (ctr 0x0017 5 0) = (getCtr s (ctr 0x0017 5 0) + bit1 s.mon.arrBusy) % 2 ^ 48 ∧
        RegsBut [R.CNT_SB_ID b, R.CNT_SB_PM_LO b, R.CNT_SB_PM_HI b, R.CNT_ARR] s z ∧ z = { s with regs := z.regs, mon := { s.mon with counters := z.mon.counters, shadow0 := z.mon.shadow0, shadow1 := z.mon.shadow1, arrays := z.mon.arrays, arrBusy := z.mon.arrBusy } }) ∧
  (∀ (s : State),
      let due := s.mon.marks.filter (fun k => k.instant ≤ nowNs s)
      let x := { s with mon := { s.mon with marks := s.mon.marks.filter (fun k => ¬(k ∈ due)) } }
      (∃ t, exec .snapshotTake s = .next t ∧ t = takeBank 1 due (takeBank 0 due x)) ∧
      (∀ b y, (due.filter (fun k => k.id % 2 = b)) = [] → takeBank b due y = y) ∧
      (∀ b k y, (due.filter (fun k => k.id % 2 = b)) = [k] → takeBank b due y = takeSnapshot k.id false y) ∧
      (∀ b k l y, (due.filter (fun k => k.id % 2 = b)) = [l, k] → takeBank b due y = takeSnapshot k.id false (refuseMark F.CNT_STAT_OVR 2 l.id y))) ∧
  (∀ (s : State),
      (s.mon.arrBusy = false → exec .arrayCopyDone s = .next s) ∧
      (s.mon.arrBusy = true → ∃ t, exec .arrayCopyDone s = .next t ∧ getB t R.CNT_ARR F.CNT_ARR_DONE = true ∧ getF t R.CNT_ARR F.CNT_ARR_ID = getF s R.CNT_ARR F.CNT_ARR_ID ∧ t.mon = { s.mon with arrBusy := false } ∧
        RegsBut [R.CNT_ARR] s t ∧ t = { s with regs := t.regs, mon := { s.mon with arrBusy := t.mon.arrBusy } })) ∧
  (∀ (m : Master) (v : Word) (s : State), Takes s m R.CNT_SNAP →
      let u := plainWrite R.CNT_SNAP (F.CNT_SNAP_GO.put v 1) (dropOverlap R.CNT_SNAP 4 s)
      let id := F.CNT_SNAP_ID.get v
      OnlyRegs [R.CNT_SNAP] (dropOverlap R.CNT_SNAP 4 s) u ∧
      ((∃ k ∈ u.mon.marks, k.instant ≤ nowNs u ∧ k.id % 2 = id % 2) →
        ∃ t, exec (.cntSnap m v) s = .next t ∧ t.resp = .ok ∧ getB t R.CNT_STAT F.CNT_STAT_CFGREF = true ∧ OnlyRegs [R.CNT_STAT] u t) ∧
      ((∀ k ∈ u.mon.marks, k.instant ≤ nowNs u → k.id % 2 ≠ id % 2) → exec (.cntSnap m v) s = .next (answer .ok (takeSnapshot id true u))))

/-- Monitor commands: the lock, the ROM line, the accesses of each command and its final line. On a node whose flash is refused every line
answers FLASH?; a monitor that cannot take a line leaves the state; while locked every command but id and unlock answers err LOCKED. An
unlocked monitor at its own node carries each command out through accesses of local master 1: it prints what they read and ends with ok, or
with the reason of the first that is refused; with a session current, the command goes to the session's target as a LINE. A scribe load from
a word outside the store is no line, and one of more than 200 characters ends with a reason that the spec leaves open (log entry 149). The
spelling of that line is the model's choice (log entry 13). (spec: 19_counters_and_monitor.md) -/
def Obligations.MonitorCommandsAtTheTerminal : Prop :=
  (∀ (a v : Word) (n bytes rate k' : Nat) (id : BitVec 16) (ns : DWord) (k tr : Fin 16) (ws : List (BitVec 16)) (e : Fin 64) (w : BitVec 16) (i : Fin 4096) (arm : Option Bool) (target : Byte) (node : Option (BitVec 16)) (slot : Fin 4) (r sg : BitVec 256) (s : State),
      let kept := [Instr.monPeek a n, .monPoke a v, .monDump a bytes, .monCensus, .monSnap id, .monSnapAt id ns, .monDl, .monDlFree, .monScribeLoad k k' ws, .monScribeInject e w, .monScribeStep e, .monTrack tr, .monWaymark i arm, .monPower, .monBist target, .monUpdateStatus, .monBaud rate, .monLock, .monNode node]
      let open_ := [Instr.monId, .monUnlockNonce, .monUnlockToken slot r sg]
      (∀ c ∈ kept ++ open_, clocked s = true → getB s R.UPD_STAT F.UPD_STAT_FLASHERR = true → exec c s = .next { s with upd := { s.upd with line := .flash } }) ∧
      (∀ c ∈ kept ++ open_, takesLine s = false → ¬(clocked s = true ∧ getB s R.UPD_STAT F.UPD_STAT_FLASHERR = true) → exec c s = .next s) ∧
      (∀ c ∈ kept, takesLine s = true → monUnlocked s = false →
        ∃ t, exec c s = .next t ∧ t.mon.result = some (.err .locked) ∧ t.mon.printed = [] ∧ t.mon.active = none ∧ getCtr t (ctr 0x0019 2 0) = (getCtr s (ctr 0x0019 2 0) + 1) % 2 ^ 48 ∧ t.regs = s.regs ∧
          t = { s with mon := { s.mon with counters := t.mon.counters, active := t.mon.active, printed := t.mon.printed, result := t.mon.result } })) ∧
  (∀ (s : State) (id : BitVec 16) (a v : Word) (n bytes : Nat) (tr : Fin 16) (i : Fin 4096) (e : Fin 64) (w : BitVec 16) (k : Fin 16) (k' : Nat) (ws : List (BitVec 16)), k' < 32 → (spell (.load k.val k' (ws.map (fun w => w.toNat)))).length ≤ 200 →
      takesLine s = true → currentSession s = none →
      let x := bump (ctr 0x0019 2 0) s
      let u := { x with mon := { x.mon with active := some .terminal, printed := [], result := none } }
      let done := fun (p : State × List DWord × MonResult) => endCommand none p.2.1 p.2.2 p.1
      let regs := fun (l : List Nat) => done (readAll (.loc 1) (l.map (fun a => (a, 4))) u)
      exec .monId s = .next (regs [R.ID_PART, R.ID_SERIAL_LO, R.ID_SERIAL_HI, R.CN_ADDR, R.NODE_STAT]) ∧
      (monUnlocked s = true →
        exec (.monPeek a n) s = .next (regs ((List.range n).map (fun j => a.toNat + 4 * j))) ∧
        exec (.monPoke a v) s = .next (done (writeOne (.loc 1) a.toNat 4 v.toNat u)) ∧
        exec .monCensus s = .next (regs ([R.CN_STAT, R.CN_ADDR, R.CN_POS] ++ (List.range 16).map (fun i => R.RT_BND i) ++ (List.range 128).map (fun i => R.RT_PRES i))) ∧
        exec (.monSnap id) s = .next (done (writeOne (.loc 1) R.CNT_SNAP 4 (id.toNat + 2 ^ 31) u)) ∧
        exec (.monScribeInject e w) s = .next (done (writeOne (.loc 1) (R.SCR_INJ (e.val / 4) (e.val % 4)) 4 w.toNat u)) ∧
        exec (.monScribeLoad k k' ws) s = .next (done (writeRow (.loc 1) 2 (0x30400 + 0x1000 * k.val + 2 * k') (ws.map (fun w => w.toNat)) u)) ∧
        exec (.monTrack tr) s = .next (regs [R.TK_STAT tr, R.TK_POS_LO tr, R.TK_POS_HI tr, R.TK_VEL_LO tr, R.TK_VEL_HI tr, R.TK_T_LO tr, R.TK_T_HI tr]) ∧
        exec (.monWaymark i none) s = .next (regs ((List.range 8).map (fun j => 0x300000 + 32 * i.val + 4 * j))) ∧
        exec .monPower s = .next (regs ([R.PD_STAT, R.FEED_V, R.SUP_VIN, R.FLD_STAT, R.FLD_STAT2, R.PM_FLD_V, R.PM_FLD_I, R.PM_FLD_P, R.PM_FLD_E_LO, R.PM_FLD_E_HI] ++ (List.range 8).flatMap (fun n => [R.ZN_STAT n, R.PM_ZN_I n, R.PM_ZN_P n, R.PM_ZN_E_LO n, R.PM_ZN_E_HI n]))) ∧
        exec .monUpdateStatus s = .next (regs [R.UPD_STAT, R.UPD_DONE, R.UPD_BOOT]) ∧
        exec (.monDump a bytes) s = .next (let p := readAll (.loc 1) (dumpReads bytes a.toNat bytes) u; endCommand (some (ceilDiv bytes 16)) p.2.1 p.2.2 p.1))) ∧
  (∀ (s : State) (ns : DWord) (id : BitVec 16) (i : Fin 4096) (e : Fin 64) (arm : Bool) (target : Byte) (rate : Nat),
      takesLine s = true → currentSession s = none → monUnlocked s = true →
      let x := bump (ctr 0x0019 2 0) s
      let u := { x with mon := { x.mon with active := some .terminal, printed := [], result := none } }
      let done := fun (p : State × List DWord × MonResult) => endCommand none p.2.1 p.2.2 p.1
      let m : Master := .loc 1
      exec .monDl s = .next (done (withReg m R.DL_TAIL (fun t => withReg m R.DL_HEAD (fun h => readRegs m ((List.range ((h + 128 - t) % 128)).flatMap (fun j => (List.range 8).map (fun l => R.DL_ENT ((t + j) % 64) l))))) u)) ∧
      exec .monDlFree s = .next (done (withReg m R.DL_HEAD (fun h => writeOne m R.DL_TAIL 4 h) u)) ∧
      exec (.monScribeStep e) s = .next (done (withReg m (R.SCR_CTL (e.val / 4) (e.val % 4)) (fun v s => (writeOne m (R.SCR_CTL (e.val / 4) (e.val % 4)) 4 (F.SCR_CTL_STEP.put (BitVec.ofNat 32 v) 1).toNat s).andThen (readRegs m [R.SCR_ESTAT (e.val / 4) (e.val % 4)])) u)) ∧
      exec (.monWaymark i (some arm)) s = .next (done (withReg m (0x300008 + 32 * i.val) (fun v => writeOne m (0x300008 + 32 * i.val) 4 (v / 2 * 2 + bit1 arm)) u)) ∧
      (∀ b, baudCode rate = some b → exec (.monBaud rate) s = .next (done (withReg m R.MON_CTL (fun v => writeOne m R.MON_CTL 4 (F.MON_CTL_BAUD.put (BitVec.ofNat 32 v) b).toNat) u))) ∧
      (baudCode rate = none → exec (.monBaud rate) s = .next (endCommand none [] (.err .badLine) u)) ∧
      (∀ t, writeOne m R.BIST_CMD 4 (target.toNat + 2 ^ 8) u = (t, [], .ok) → bistTaken u t = true → exec (.monBist target) s = .next t) ∧
      (∀ t, writeOne m R.BIST_CMD 4 (target.toNat + 2 ^ 8) u = (t, [], .ok) → bistTaken u t = false → exec (.monBist target) s = .next (done (readRegs m [R.BIST_STAT] t))) ∧
      (∀ t why, writeOne m R.BIST_CMD 4 (target.toNat + 2 ^ 8) u = (t, [], .err why) → exec (.monBist target) s = .next (endCommand none [] (.err why) t)) ∧
      (∀ c y, fresh 2 u = (c, y) →
        let env := build y (1 + c.toNat % 3) kSnapshotMark true (nodeAddr y / 4096 * 4096 + 0xFFF) (getF y R.BR_HOPS F.BR_HOPS_HOPS) [BitVec.ofNat 64 id.toNat, ns]
        (quarantined y = true ∨ originTargets y env = [] → exec (.monSnapAt id ns) s = .next (endCommand none [] (.err (.reason .noRoute)) y)) ∧
        (quarantined y = false → originTargets y env ≠ [] → exec (.monSnapAt id ns) s = .next (endCommand none [] .ok (sendOrWait (portOfKind kSnapshotMark) none env y))))) ∧
  (∀ (m : Master) (a n v : Nat) (ps : List (Nat × Nat)) (f : Nat → State → State × List DWord × MonResult) (s t : State),
      (∀ x bad, busRead m false a n 0 s = (t, .data x bad) → readAll m ((a, n) :: ps) s = (let q := readAll m ps t; (q.1, x :: q.2.1, q.2.2))) ∧
      (∀ why, busRead m false a n 0 s = (t, .err why) → readAll m ((a, n) :: ps) s = (t, [], .err (.reason why))) ∧ readAll m [] s = (s, [], .ok) ∧
      (busWrite m false a (leBytes n v) false s = (t, none) → writeOne m a n v s = (t, [], .ok)) ∧
      (∀ why, busWrite m false a (leBytes n v) false s = (t, some why) → writeOne m a n v s = (t, [], .err (.reason why))) ∧
      (∀ x bad, busRead m false a 4 0 s = (t, .data x bad) → withReg m a f s = f x.toNat t) ∧
      (∀ why, busRead m false a 4 0 s = (t, .err why) → withReg m a f s = (t, [], .err (.reason why)))) ∧
  (∀ (lines : Option Nat) (vals : List DWord) (r : MonResult) (s : State),
      (s.mon.active = none → endCommand lines vals r s = s) ∧
      (s.mon.active = some .terminal → endCommand lines vals r s = { s with mon := { s.mon with active := none, printed := vals, result := some r } })) ∧
  (∀ (x : Session) (s : State) (ns : DWord) (id : BitVec 16) (a v : Word) (n bytes rate : Nat) (tr k : Fin 16) (i : Fin 4096) (e : Fin 64) (w : BitVec 16) (k' : Nat) (ws : List (BitVec 16)) (arm : Option Bool) (target : Byte), k' < 32 → (spell (.load k.val k' (ws.map (fun w => w.toNat)))).length ≤ 200 →
      takesLine s = true → monUnlocked s = true → currentSession s = some x →
      ∃ y, getCtr y (ctr 0x0019 2 0) = (getCtr s (ctr 0x0019 2 0) + 1) % 2 ^ 48 ∧ y.regs = s.regs ∧ y = { s with mon := { s.mon with counters := y.mon.counters, active := y.mon.active, printed := y.mon.printed, result := y.mon.result, terminal := y.mon.terminal } } ∧ y.mon.active = none ∧ y.mon.printed = [] ∧ y.mon.result = none ∧
        y.mon.terminal = s.mon.terminal.map (fun z => if z.session = x.session then { z with busy := true, seq := if z.node = x.node then (z.seq + 1) % 65536 else z.seq } else z) ∧
        ∀ p ∈ [(Instr.monId, MonCmd.id), (.monPeek a n, .peek a.toNat n), (.monPoke a v, .poke a.toNat v.toNat), (.monDump a bytes, .dump a.toNat bytes), (.monCensus, .census), (.monSnap id, .snap id.toNat), (.monSnapAt id ns, .snapAt id.toNat ns.toNat), (.monDl, .dl), (.monDlFree, .dlFree), (.monScribeLoad k k' ws, .load k.val k' (ws.map (fun w => w.toNat))), (.monScribeInject e w, .inject e.val w.toNat), (.monScribeStep e, .step e.val), (.monTrack tr, .track tr.val), (.monWaymark i arm, .waymark i.val arm), (.monPower, .power), (.monBist target, .bist target.toNat), (.monUpdateStatus, .updateStatus), (.monBaud rate, .baud rate)],
          exec p.1 s = .next (sendOrWait 6 none (monitorEnv y x.node x.session x.seq 1 (spell p.2)) y)) ∧
  (∀ (s : State) (k : Fin 16) (k' : Nat) (ws : List (BitVec 16)), takesLine s = true → monUnlocked s = true →
      let x := bump (ctr 0x0019 2 0) s
      (32 ≤ k' → ∃ t, exec (.monScribeLoad k k' ws) s = .next t ∧ t.mon.result = some (.err .badLine) ∧ t.mon.printed = [] ∧ t.mon.active = none ∧ t.mon.counters = x.mon.counters ∧ t.regs = s.regs ∧
        t = { s with mon := { s.mon with counters := t.mon.counters, printed := t.mon.printed, result := t.mon.result, active := t.mon.active } }) ∧
      (k' < 32 → 200 < (spell (.load k.val k' (ws.map (fun w => w.toNat)))).length →
        ∃ why t, exec (.monScribeLoad k k' ws) s = .next t ∧ t.mon.result = some (.err (.unstated why)) ∧ t.mon.printed = [] ∧ t.mon.active = none ∧ t.mon.counters = x.mon.counters ∧ t.regs = s.regs ∧
          t = { s with node := { s.node with freeCount := t.node.freeCount }, mon := { s.mon with counters := t.mon.counters, printed := t.mon.printed, result := t.mon.result, active := t.mon.active } }))

/-- Unlocking and locking the monitor, and its tunnelled sessions. unlock prints a fresh nonce; a valid token uses it up and unlocks with a
notice, an invalid one uses it up and is counted, and the third in a row refuses every unlock until the lockout ends. lock relocks, but for
the strap. node opens one of up to 4 sessions with an OPEN, or answers err BUSY; node . closes it. A served session takes a LINE as ring
accesses of the terminal's node and index 1; OUTPUT lines are printed and DONE ends the LINE; a LINE that times out prints err TIMEOUT;
CLOSE and a session's idle end close a session. Each MONITOR row takes its envelope as one of its kind and TYPE (the model's choice, log
entry 126), and a quarantined node, or a MONITOR without a payload, only takes it away. The reason of a refused or invalid unlock is open.
(spec: 19_counters_and_monitor.md) -/
def Obligations.MonitorUnlocksAndSessions : Prop :=
  (∀ (level : Bool) (s : State), ∃ t, exec (.monEnChange level) s = .next t ∧ getB t R.MON_STAT F.MON_STAT_STRAP = level ∧ monUnlocked t = (level || s.mon.tokenUnlocked) ∧ RegsBut [R.MON_STAT] s t ∧ t = { s with regs := t.regs }) ∧
  (∀ (k : Fin 4) (r sg : BitVec 256) (s : State), takesLine s = true →
      let x := bump (ctr 0x0019 2 0) s
      (s.mon.lockedOut = false →
        ∃ n t, exec .monUnlockNonce s = .next t ∧ t.mon.nonce = some n ∧ t.mon.printed = [n] ∧ t.mon.result = some .ok ∧ t.mon.active = none ∧ t.mon.counters = x.mon.counters ∧ t.regs = s.regs ∧
          t = { s with node := { s.node with freeCount := t.node.freeCount }, mon := { s.mon with counters := t.mon.counters, nonce := t.mon.nonce, printed := t.mon.printed, result := t.mon.result, active := t.mon.active } }) ∧
      (s.mon.lockedOut = true → ∀ c ∈ [Instr.monUnlockNonce, .monUnlockToken k r sg],
        ∃ why t, exec c s = .next t ∧ t.mon.result = some (.err (.unstated why)) ∧ t.mon.printed = [] ∧ t.mon.active = none ∧ t.mon.counters = x.mon.counters ∧ t.regs = s.regs ∧
          t = { s with node := { s.node with freeCount := t.node.freeCount }, mon := { s.mon with counters := t.mon.counters, printed := t.mon.printed, result := t.mon.result, active := t.mon.active } }) ∧
      (s.mon.lockedOut = false → tokenValid s k.val r.toNat sg.toNat = true →
        ∃ y t, exec (.monUnlockToken k r sg) s = .next t ∧ getCtr y (ctr 0x0019 0 0) = (getCtr s (ctr 0x0019 0 0) + 1) % 2 ^ 48 ∧ y.regs = s.regs ∧ y.mon.nonce = none ∧ y.mon.tokenUnlocked = true ∧ y.mon.failsInRow = 0 ∧
          y = { s with mon := { s.mon with counters := y.mon.counters, nonce := y.mon.nonce, tokenUnlocked := y.mon.tokenUnlocked, failsInRow := y.mon.failsInRow } } ∧
          (let z := bump (ctr 0x0019 2 0) (postOnce (getF s R.MON_CTL F.MON_CTL_NTC_Q) 0x0019 0 0x01 k y); t = { z with mon := { z.mon with active := none, printed := [], result := some .ok } })) ∧
      (s.mon.lockedOut = false → tokenValid s k.val r.toNat sg.toNat = false →
        let n := min 3 (s.mon.failsInRow + 1)
        ∃ y t why, exec (.monUnlockToken k r sg) s = .next t ∧ getCtr y (ctr 0x0019 1 0) = (getCtr s (ctr 0x0019 1 0) + 1) % 2 ^ 48 ∧ y.regs = s.regs ∧ y.mon.nonce = none ∧ y.mon.failsInRow = n ∧ y.mon.lockedOut = decide (3 ≤ n) ∧
          y = { s with mon := { s.mon with counters := y.mon.counters, nonce := y.mon.nonce, lockedOut := y.mon.lockedOut, failsInRow := y.mon.failsInRow } } ∧
          (let z := bump (ctr 0x0019 2 0) (postOnce (getF s R.MON_CTL F.MON_CTL_NTC_Q) 0x0019 0 0x81 n y)
           t = { z with node := { z.node with freeCount := z.node.freeCount + 1 }, mon := { z.mon with active := none, printed := [], result := some (.err (.unstated why)) } }))) ∧
  (∀ (s : State),
      (s.mon.lockedOut = true → ∃ t, exec .unlockLockoutEnd s = .next t ∧ t = { s with mon := { s.mon with lockedOut := false, failsInRow := 0 } }) ∧
      (s.mon.lockedOut = false → exec .unlockLockoutEnd s = .next s) ∧
      (takesLine s = true → monUnlocked s = true →
        ∃ t, exec .monLock s = .next t ∧ t.mon.tokenUnlocked = false ∧ monUnlocked t = getB s R.MON_STAT F.MON_STAT_STRAP ∧ t.mon.result = some .ok ∧ t.mon.printed = [] ∧ t.mon.active = none ∧
          t.mon.counters = (bump (ctr 0x0019 2 0) s).mon.counters ∧ t.regs = s.regs ∧ t = { s with mon := { s.mon with counters := t.mon.counters, tokenUnlocked := t.mon.tokenUnlocked, printed := t.mon.printed, result := t.mon.result, active := t.mon.active } })) ∧
  (∀ (node : BitVec 16) (s : State), takesLine s = true → monUnlocked s = true →
      (4 ≤ s.mon.terminal.length → ∃ t, exec (.monNode (some node)) s = .next t ∧ t.mon.result = some (.err .busy) ∧ t.mon.printed = [] ∧ t.mon.active = none ∧
          getCtr t (ctr 0x0019 4 0) = (getCtr s (ctr 0x0019 4 0) + 1) % 2 ^ 48 ∧ t.regs = s.regs ∧ t = { s with mon := { s.mon with counters := t.mon.counters, printed := t.mon.printed, result := t.mon.result, active := t.mon.active } }) ∧
      (s.mon.terminal.length < 4 → ∃ n y, (∀ z ∈ s.mon.terminal, z.session ≠ n) ∧
          y.mon.terminal = s.mon.terminal ++ [{ session := n, node := node, busy := false, seq := 1 }] ∧ y.mon.current = some n ∧
          getCtr y (ctr 0x0019 3 0) = (getCtr s (ctr 0x0019 3 0) + 1) % 2 ^ 48 ∧ y.regs = s.regs ∧ y = { s with mon := { s.mon with counters := y.mon.counters, terminal := y.mon.terminal, current := y.mon.current, nextSession := y.mon.nextSession } } ∧
          ∃ z, z = bump (ctr 0x0019 2 0) (sendOrWait 6 none (monitorEnv s node n 0 0 []) y) ∧ exec (.monNode (some node)) s = .next { z with mon := { z.mon with active := none, printed := [], result := some .ok } }) ∧
      (currentSession s = none → ∃ t, exec (.monNode none) s = .next t ∧ t.mon.result = some .ok ∧ t.mon.printed = [] ∧ t.mon.active = none ∧ t.regs = s.regs ∧ t = { s with mon := { s.mon with counters := t.mon.counters, printed := t.mon.printed, result := t.mon.result, active := t.mon.active } }) ∧
      (∀ x, currentSession s = some x → ∃ y z, y = { s with mon := { s.mon with terminal := s.mon.terminal.filter (fun w => w.session ≠ x.session), current := none } } ∧
          z = bump (ctr 0x0019 2 0) (sendOrWait 6 none (monitorEnv y x.node x.session x.seq 4 []) y) ∧ exec (.monNode none) s = .next { z with mon := { z.mon with active := none, printed := [], result := some .ok } })) ∧
  (∀ (e : Envelope) (s : State),
      let f := fun (typ : Nat) => { asKind kMonitor e with payload := setField 32 4 typ (asKind kMonitor e).payload }
      let d := fun (typ : Nat) => takeDelivered (f typ) s
      ((quarantined s = true ∨ e.lenw = 0) →
        exec (.monitorOpen e) s = .next (d 0) ∧ exec (.monitorLine e) s = .next (d 1) ∧ exec (.monitorOutput e) s = .next (d 2) ∧
        exec (.monitorDone e) s = .next (d 3) ∧ exec (.monitorClose e) s = .next (d 4)) ∧
      (quarantined s = false → e.lenw ≠ 0 →
        ((servedOf s (f 0)).isSome = true → exec (.monitorOpen e) s = .next (d 0)) ∧
        (servedOf s (f 0) = none → s.mon.served.length < 4 → ∃ t, exec (.monitorOpen e) s = .next t ∧ t.mon.served = s.mon.served ++ [{ session := monSession (f 0), node := e.src, busy := false, seq := 0 }] ∧
          getCtr t (ctr 0x0019 3 0) = (getCtr s (ctr 0x0019 3 0) + 1) % 2 ^ 48 ∧ t.regs = s.regs ∧ t = { (d 0) with mon := { (d 0).mon with counters := t.mon.counters, served := t.mon.served } }) ∧
        (servedOf s (f 0) = none → 4 ≤ s.mon.served.length → ∃ y, y = bump (ctr 0x0019 4 0) (d 0) ∧
          (standbyHub s = false → exec (.monitorOpen e) s = .next (sendOrWait 6 none (monitorEnv y e.src (monSession (f 0)) 0 3 (resultText (.err .busy))) y)) ∧
          (standbyHub s = true → ∃ t, exec (.monitorOpen e) s = .next t ∧ t.regs = s.regs ∧ t = { (d 0) with mon := { (d 0).mon with counters := t.mon.counters } }))) ∧
      (quarantined s = false → e.lenw ≠ 0 →
        (servedOf s (f 1) = none → exec (.monitorLine e) s = .next (d 1)) ∧
        (∀ x, servedOf s (f 1) = some x → (s.mon.active.isSome = true ∨ x.busy = true) → exec (.monitorLine e) s = .next s) ∧
        (∀ x, servedOf s (f 1) = some x → s.mon.active = none → x.busy = false →
          ∃ y u, y = { d 1 with mon := { (d 1).mon with served := (d 1).mon.served.map (fun z => if z.session = x.session ∧ z.node = x.node then { z with busy := true } else z) } } ∧
            u = { bump (ctr 0x0019 2 0) y with mon := { (bump (ctr 0x0019 2 0) y).mon with active := some (.served x.session x.node) } } ∧
            (parseLine (monText (f 1)) = none → exec (.monitorLine e) s = .next (endCommand none [] (.err .badLine) u)) ∧
            (∀ c t vals r, parseLine (monText (f 1)) = some c → carryOut (.ring (e.src ++ (1 : BitVec 4))) c u = (t, some (vals, r)) → exec (.monitorLine e) s = .next (endCommand (linesOf c) vals r t)) ∧
            (∀ c t, parseLine (monText (f 1)) = some c → carryOut (.ring (e.src ++ (1 : BitVec 4))) c u = (t, none) → exec (.monitorLine e) s = .next t)))) ∧
  (∀ (e : Envelope) (s : State), e.lenw ≠ 0 → quarantined s = false →
      let f := fun (typ : Nat) => { asKind kMonitor e with payload := setField 32 4 typ (asKind kMonitor e).payload }
      let d := fun (typ : Nat) => takeDelivered (f typ) s
      (∀ x, terminalOf s (f 2) = some x → x.busy = true → ∃ t, exec (.monitorOutput e) s = .next t ∧ t = { d 2 with mon := { (d 2).mon with printed := s.mon.printed ++ textWords (monText (f 2)) } }) ∧
      ((∀ x, terminalOf s (f 2) = some x → x.busy = false) → exec (.monitorOutput e) s = .next (d 2)) ∧
      (∀ x, terminalOf s (f 3) = some x → x.busy = true → ∃ t, exec (.monitorDone e) s = .next t ∧
          t = { d 3 with mon := { (d 3).mon with result := some (.remote (textWords (monText (f 3)))), terminal := s.mon.terminal.map (fun y => if y.session = x.session ∧ y.node = x.node then { y with busy := false } else y) } }) ∧
      (∀ x, terminalOf s (f 3) = some x → x.busy = false → monText (f 3) = resultText (.err .busy) → ∃ t, exec (.monitorDone e) s = .next t ∧
          t = { d 3 with mon := { (d 3).mon with result := some (.err .busy), terminal := s.mon.terminal.filter (fun y => y.session ≠ x.session), current := if s.mon.current = some x.session then none else s.mon.current } }) ∧
      (∀ x, terminalOf s (f 3) = some x → x.busy = false → monText (f 3) ≠ resultText (.err .busy) → exec (.monitorDone e) s = .next (d 3)) ∧
      (terminalOf s (f 3) = none → exec (.monitorDone e) s = .next (d 3)) ∧
      (∃ t, exec (.monitorClose e) s = .next t ∧ t.mon.served = s.mon.served.filter (fun x => ¬(x.session = monSession (f 4) ∧ x.node = e.src)) ∧
        t.mon.terminal = (match terminalOf s (f 4) with | some x => s.mon.terminal.filter (fun y => y.session ≠ x.session) | none => s.mon.terminal) ∧
        t.mon.current = (if s.mon.current = (terminalOf s (f 4)).map (fun x => x.session) then none else s.mon.current) ∧ t.regs = s.regs ∧ t = { (d 4) with mon := { (d 4).mon with served := t.mon.served, terminal := t.mon.terminal, current := t.mon.current } })) ∧
  (∀ (k : Fin 4) (s : State),
      (∀ x, s.mon.terminal[k.val]? = some x → x.busy = true → ∃ t, exec (.monitorLineTimeout k) s = .next t ∧ getCtr t (ctr 0x0019 5 0) = (getCtr s (ctr 0x0019 5 0) + 1) % 2 ^ 48 ∧ t.mon.result = some (.err .timeout) ∧
          t.mon.terminal = s.mon.terminal.map (fun y => if y.session = x.session ∧ y.node = x.node then { y with busy := false } else y) ∧ t.regs = s.regs ∧ t = { s with mon := { s.mon with counters := t.mon.counters, terminal := t.mon.terminal, result := t.mon.result } }) ∧
      ((∀ x, s.mon.terminal[k.val]? = some x → x.busy = false) → exec (.monitorLineTimeout k) s = .next s) ∧
      (∃ t, exec (.monitorSessionIdle k true) s = .next t ∧ t = { s with mon := { s.mon with served := s.mon.served.eraseIdx k.val } }) ∧
      (s.mon.terminal[k.val]? = none → exec (.monitorSessionIdle k false) s = .next s) ∧
      (∀ x, s.mon.terminal[k.val]? = some x → ∃ t, exec (.monitorSessionIdle k false) s = .next t ∧
        t = { s with mon := { s.mon with terminal := s.mon.terminal.filter (fun y => y.session ≠ x.session), current := if s.mon.current = some x.session then none else s.mon.current } }))
end

