-- ==== Sys2Proof/Laws/Tables.lean ====
section
/-! SUPPORT. The sparse tables: a read after a write, and the canonical form that every table operation keeps. -/

namespace Sys2Proof.Machine

theorem tabLookup_erase_same {α : Type} (t : Table α) (n : Nat) : tabLookup (tabErase t n) n = none := by
  induction t with
  | nil => rfl
  | cons e t ih =>
    obtain ⟨k, v⟩ := e
    by_cases h : k = n
    · subst h; simpa [tabErase, List.filter] using ih
    · simp only [tabErase, List.filter, ne_eq, h, not_false_eq_true, decide_true, tabLookup, if_false]; exact ih

theorem tabLookup_erase_ne {α : Type} (t : Table α) {n m : Nat} (h : m ≠ n) : tabLookup (tabErase t n) m = tabLookup t m := by
  induction t with
  | nil => rfl
  | cons e t ih =>
    obtain ⟨k, v⟩ := e
    by_cases hk : k = n
    · subst hk
      have : tabErase ((k, v) :: t) k = tabErase t k := by simp [tabErase]
      rw [this, ih, tabLookup, if_neg (Ne.symm h)]
    · have : tabErase ((k, v) :: t) n = (k, v) :: tabErase t n := by simp [tabErase, hk]
      rw [this, tabLookup, tabLookup, ih]

theorem tabLookup_insert_same {α : Type} (t : Table α) (n : Nat) (v : α) : tabLookup (tabInsert t n v) n = some v := by
  induction t with
  | nil => simp [tabInsert, tabLookup]
  | cons e t ih =>
    obtain ⟨k, w⟩ := e
    unfold tabInsert
    split
    · simp [tabLookup]
    · split
      · simp [tabLookup]
      · rename_i h; rw [tabLookup, if_neg (fun x => h x.symm), ih]

theorem tabLookup_insert_ne {α : Type} (t : Table α) {n m : Nat} (v : α) (h : m ≠ n) :
    tabLookup (tabInsert t n v) m = tabLookup t m := by
  induction t with
  | nil => simp [tabInsert, tabLookup, Ne.symm h]
  | cons e t ih =>
    obtain ⟨k, w⟩ := e
    unfold tabInsert
    split
    · rw [tabLookup, if_neg (Ne.symm h)]
    · split
      · rename_i hk; subst hk; simp [tabLookup, Ne.symm h]
      · rw [tabLookup, tabLookup, ih]

/-- A read after a write of the same key gives the value written. -/
@[simp] theorem tabGet_tabSet_same {α : Type} [DecidableEq α] (d : Nat → α) (t : Table α) (n : Nat) (v : α) :
    tabGet d (tabSet d t n v) n = v := by
  unfold tabGet tabSet
  split
  · rename_i h; rw [tabLookup_erase_same, h]; rfl
  · rw [tabLookup_insert_same]; rfl

/-- A write leaves every other key alone. -/
theorem tabGet_tabSet_ne {α : Type} [DecidableEq α] (d : Nat → α) (t : Table α) {n m : Nat} (v : α) (h : m ≠ n) :
    tabGet d (tabSet d t n v) m = tabGet d t m := by
  unfold tabGet tabSet
  split
  · rw [tabLookup_erase_ne t h]
  · rw [tabLookup_insert_ne _ v h, tabLookup_erase_ne t h]

/-! The canonical form. -/

theorem rising_mono {α : Type} {a b : Nat} (h : a ≤ b) {t : Table α} (ht : risingFrom b t = true) : risingFrom a t = true := by
  cases t with
  | nil => rfl
  | cons e t => simp only [risingFrom, Bool.and_eq_true, decide_eq_true_eq] at ht ⊢; exact ⟨Nat.le_trans h ht.1, ht.2⟩

theorem rising_filter {α : Type} (p : Nat × α → Bool) {t : Table α} {b : Nat} (h : risingFrom b t = true) :
    risingFrom b (t.filter p) = true := by
  induction t generalizing b with
  | nil => rfl
  | cons e t ih =>
    obtain ⟨k, v⟩ := e
    simp only [risingFrom, Bool.and_eq_true, decide_eq_true_eq] at h
    rw [List.filter]
    split
    · simp only [risingFrom, Bool.and_eq_true, decide_eq_true_eq]; exact ⟨h.1, ih h.2⟩
    · exact ih (rising_mono (by omega) h.2)

theorem rising_insert {α : Type} {t : Table α} {b n : Nat} (v : α) (hb : b ≤ n) (h : risingFrom b t = true) :
    risingFrom b (tabInsert t n v) = true := by
  induction t generalizing b with
  | nil => simp [tabInsert, risingFrom, hb]
  | cons e t ih =>
    obtain ⟨k, w⟩ := e
    simp only [risingFrom, Bool.and_eq_true, decide_eq_true_eq] at h
    unfold tabInsert
    split
    · simp only [risingFrom, Bool.and_eq_true, decide_eq_true_eq]; exact ⟨hb, by omega, h.2⟩
    · split
      · rename_i hk; subst hk; simp only [risingFrom, Bool.and_eq_true, decide_eq_true_eq]; exact h
      · simp only [risingFrom, Bool.and_eq_true, decide_eq_true_eq]; exact ⟨h.1, ih (by omega) h.2⟩

theorem rising_mapKeys {α : Type} (f : Nat × α → α) {t : Table α} {b : Nat} (h : risingFrom b t = true) :
    risingFrom b (t.map (fun e => (e.1, f e))) = true := by
  induction t generalizing b with
  | nil => rfl
  | cons e t ih =>
    obtain ⟨k, v⟩ := e
    simp only [risingFrom, List.map, Bool.and_eq_true, decide_eq_true_eq] at h ⊢; exact ⟨h.1, ih h.2⟩

theorem mem_tabInsert {α : Type} {t : Table α} {n : Nat} {v : α} {e : Nat × α} (h : e ∈ tabInsert t n v) : e = (n, v) ∨ e ∈ t := by
  induction t with
  | nil => simpa [tabInsert] using h
  | cons x t ih =>
    obtain ⟨k, w⟩ := x
    unfold tabInsert at h
    split at h
    · simpa using h
    · split at h
      · rcases List.mem_cons.1 h with h | h
        · exact .inl h
        · exact .inr (List.mem_cons_of_mem _ h)
      · rcases List.mem_cons.1 h with h | h
        · exact .inr (h ▸ List.mem_cons_self ..)
        · exact (ih h).imp id (List.mem_cons_of_mem _)

theorem tabWf_iff {α : Type} [DecidableEq α] (d : Nat → α) (t : Table α) :
    tabWf d t = true ↔ risingFrom 0 t = true ∧ ∀ e ∈ t, e.2 ≠ d e.1 := by
  simp [tabWf, List.all_eq_true]

/-- A filtered table keeps the form. -/
theorem tabWf_filter {α : Type} [DecidableEq α] {d : Nat → α} (p : Nat × α → Bool) {t : Table α} (h : tabWf d t = true) :
    tabWf d (t.filter p) = true := by
  rw [tabWf_iff] at h ⊢
  exact ⟨rising_filter p h.1, fun e he => h.2 e (List.mem_filter.1 he).1⟩

/-- A write keeps the form. -/
theorem tabWf_tabSet {α : Type} [DecidableEq α] {d : Nat → α} {t : Table α} (n : Nat) (v : α) (h : tabWf d t = true) :
    tabWf d (tabSet d t n v) = true := by
  unfold tabSet
  have he : tabWf d (tabErase t n) = true := tabWf_filter _ h
  split
  · exact he
  · rename_i hv
    rw [tabWf_iff] at he ⊢
    refine ⟨rising_insert v (Nat.zero_le _) he.1, fun e hm => ?_⟩
    rcases mem_tabInsert hm with rfl | hm
    · exact hv
    · exact he.2 e hm

/-- A copied range keeps the form. -/
theorem tabWf_tabCopy {α : Type} [DecidableEq α] {d : Nat → α} (src dst n : Nat) {t : Table α} (h : tabWf d t = true) :
    tabWf d (tabCopy d src dst n t) = true := by
  unfold tabCopy
  generalize List.filter _ t = l
  have hc : tabWf d (tabCut t dst n) = true := tabWf_filter _ h
  generalize tabCut t dst n = u at hc
  induction l generalizing u with
  | nil => exact hc
  | cons e l ih => rw [List.foldl_cons]; exact ih _ (tabWf_tabSet _ _ hc)

/-- Entries mapped in place, with those that became the default taken out, keep the form. -/
theorem tabWf_mapFilter {α : Type} [DecidableEq α] {d : Nat → α} (f : Nat × α → α) {t : Table α} (h : risingFrom 0 t = true) :
    tabWf d ((t.map (fun e => (e.1, f e))).filter (fun e => e.2 ≠ d e.1)) = true := by
  rw [tabWf_iff]
  refine ⟨rising_filter _ (rising_mapKeys f h), fun e he => ?_⟩
  simpa using (List.mem_filter.1 he).2

end Sys2Proof.Machine
end

