-- ==== Sys2Proof/Laws/State.lean ====
section
/-! SUPPORT. What each update of one part of the state leaves in every field: the part it writes, and all others as they were. -/

namespace Sys2Proof.Machine

/-! setReg -/

@[simp] theorem setReg_pending (s : State) (a : Nat) (w : Word) : (setReg s a w).pending = s.pending := (rfl)
@[simp] theorem setReg_regs (s : State) (a : Nat) (w : Word) : (setReg s a w).regs = tabSet resetWord s.regs a w := (rfl)
@[simp] theorem setReg_latches (s : State) (a : Nat) (w : Word) : (setReg s a w).latches = s.latches := (rfl)
@[simp] theorem setReg_stages (s : State) (a : Nat) (w : Word) : (setReg s a w).stages = s.stages := (rfl)
@[simp] theorem setReg_mem (s : State) (a : Nat) (w : Word) : (setReg s a w).mem = s.mem := (rfl)
@[simp] theorem setReg_poison (s : State) (a : Nat) (w : Word) : (setReg s a w).poison = s.poison := (rfl)
@[simp] theorem setReg_resp (s : State) (a : Nat) (w : Word) : (setReg s a w).resp = s.resp := (rfl)
@[simp] theorem setReg_node (s : State) (a : Nat) (w : Word) : (setReg s a w).node = s.node := (rfl)
@[simp] theorem setReg_notices (s : State) (a : Nat) (w : Word) : (setReg s a w).notices = s.notices := (rfl)
@[simp] theorem setReg_arb (s : State) (a : Nat) (w : Word) : (setReg s a w).arb = s.arb := (rfl)
@[simp] theorem setReg_office (s : State) (a : Nat) (w : Word) : (setReg s a w).office = s.office := (rfl)
@[simp] theorem setReg_ports (s : State) (a : Nat) (w : Word) : (setReg s a w).ports = s.ports := (rfl)
@[simp] theorem setReg_bridge (s : State) (a : Nat) (w : Word) : (setReg s a w).bridge = s.bridge := (rfl)
@[simp] theorem setReg_dead (s : State) (a : Nat) (w : Word) : (setReg s a w).dead = s.dead := (rfl)
@[simp] theorem setReg_census (s : State) (a : Nat) (w : Word) : (setReg s a w).census = s.census := (rfl)
@[simp] theorem setReg_mon (s : State) (a : Nat) (w : Word) : (setReg s a w).mon = s.mon := (rfl)
@[simp] theorem setReg_time (s : State) (a : Nat) (w : Word) : (setReg s a w).time = s.time := (rfl)
@[simp] theorem setReg_tables (s : State) (a : Nat) (w : Word) : (setReg s a w).tables = s.tables := (rfl)
@[simp] theorem setReg_upd (s : State) (a : Nat) (w : Word) : (setReg s a w).upd = s.upd := (rfl)
@[simp] theorem setReg_field (s : State) (a : Nat) (w : Word) : (setReg s a w).field = s.field := (rfl)
@[simp] theorem setReg_tracks (s : State) (a : Nat) (w : Word) : (setReg s a w).tracks = s.tracks := (rfl)
@[simp] theorem setReg_scribe (s : State) (a : Nat) (w : Word) : (setReg s a w).scribe = s.scribe := (rfl)
@[simp] theorem setReg_buses (s : State) (a : Nat) (w : Word) : (setReg s a w).buses = s.buses := (rfl)
@[simp] theorem setReg_duplex (s : State) (a : Nat) (w : Word) : (setReg s a w).duplex = s.duplex := (rfl)
@[simp] theorem setReg_integrity (s : State) (a : Nat) (w : Word) : (setReg s a w).integrity = s.integrity := (rfl)
@[simp] theorem setReg_tt (s : State) (a : Nat) (w : Word) : (setReg s a w).tt = s.tt := (rfl)
@[simp] theorem setReg_power (s : State) (a : Nat) (w : Word) : (setReg s a w).power = s.power := (rfl)

/-! onNotices -/

@[simp] theorem onNotices_pending (f : NoticeState → NoticeState) (s : State) : (onNotices f s).pending = s.pending := (rfl)
@[simp] theorem onNotices_regs (f : NoticeState → NoticeState) (s : State) : (onNotices f s).regs = s.regs := (rfl)
@[simp] theorem onNotices_latches (f : NoticeState → NoticeState) (s : State) : (onNotices f s).latches = s.latches := (rfl)
@[simp] theorem onNotices_stages (f : NoticeState → NoticeState) (s : State) : (onNotices f s).stages = s.stages := (rfl)
@[simp] theorem onNotices_mem (f : NoticeState → NoticeState) (s : State) : (onNotices f s).mem = s.mem := (rfl)
@[simp] theorem onNotices_poison (f : NoticeState → NoticeState) (s : State) : (onNotices f s).poison = s.poison := (rfl)
@[simp] theorem onNotices_resp (f : NoticeState → NoticeState) (s : State) : (onNotices f s).resp = s.resp := (rfl)
@[simp] theorem onNotices_node (f : NoticeState → NoticeState) (s : State) : (onNotices f s).node = s.node := (rfl)
@[simp] theorem onNotices_notices (f : NoticeState → NoticeState) (s : State) : (onNotices f s).notices = f s.notices := (rfl)
@[simp] theorem onNotices_arb (f : NoticeState → NoticeState) (s : State) : (onNotices f s).arb = s.arb := (rfl)
@[simp] theorem onNotices_office (f : NoticeState → NoticeState) (s : State) : (onNotices f s).office = s.office := (rfl)
@[simp] theorem onNotices_ports (f : NoticeState → NoticeState) (s : State) : (onNotices f s).ports = s.ports := (rfl)
@[simp] theorem onNotices_bridge (f : NoticeState → NoticeState) (s : State) : (onNotices f s).bridge = s.bridge := (rfl)
@[simp] theorem onNotices_dead (f : NoticeState → NoticeState) (s : State) : (onNotices f s).dead = s.dead := (rfl)
@[simp] theorem onNotices_census (f : NoticeState → NoticeState) (s : State) : (onNotices f s).census = s.census := (rfl)
@[simp] theorem onNotices_mon (f : NoticeState → NoticeState) (s : State) : (onNotices f s).mon = s.mon := (rfl)
@[simp] theorem onNotices_time (f : NoticeState → NoticeState) (s : State) : (onNotices f s).time = s.time := (rfl)
@[simp] theorem onNotices_tables (f : NoticeState → NoticeState) (s : State) : (onNotices f s).tables = s.tables := (rfl)
@[simp] theorem onNotices_upd (f : NoticeState → NoticeState) (s : State) : (onNotices f s).upd = s.upd := (rfl)
@[simp] theorem onNotices_field (f : NoticeState → NoticeState) (s : State) : (onNotices f s).field = s.field := (rfl)
@[simp] theorem onNotices_tracks (f : NoticeState → NoticeState) (s : State) : (onNotices f s).tracks = s.tracks := (rfl)
@[simp] theorem onNotices_scribe (f : NoticeState → NoticeState) (s : State) : (onNotices f s).scribe = s.scribe := (rfl)
@[simp] theorem onNotices_buses (f : NoticeState → NoticeState) (s : State) : (onNotices f s).buses = s.buses := (rfl)
@[simp] theorem onNotices_duplex (f : NoticeState → NoticeState) (s : State) : (onNotices f s).duplex = s.duplex := (rfl)
@[simp] theorem onNotices_integrity (f : NoticeState → NoticeState) (s : State) : (onNotices f s).integrity = s.integrity := (rfl)
@[simp] theorem onNotices_tt (f : NoticeState → NoticeState) (s : State) : (onNotices f s).tt = s.tt := (rfl)
@[simp] theorem onNotices_power (f : NoticeState → NoticeState) (s : State) : (onNotices f s).power = s.power := (rfl)

/-! bumpN -/

@[simp] theorem bumpN_pending (c : Ctr) (n : Nat) (s : State) : (bumpN c n s).pending = s.pending := (rfl)
@[simp] theorem bumpN_regs (c : Ctr) (n : Nat) (s : State) : (bumpN c n s).regs = s.regs := (rfl)
@[simp] theorem bumpN_latches (c : Ctr) (n : Nat) (s : State) : (bumpN c n s).latches = s.latches := (rfl)
@[simp] theorem bumpN_stages (c : Ctr) (n : Nat) (s : State) : (bumpN c n s).stages = s.stages := (rfl)
@[simp] theorem bumpN_mem (c : Ctr) (n : Nat) (s : State) : (bumpN c n s).mem = s.mem := (rfl)
@[simp] theorem bumpN_poison (c : Ctr) (n : Nat) (s : State) : (bumpN c n s).poison = s.poison := (rfl)
@[simp] theorem bumpN_resp (c : Ctr) (n : Nat) (s : State) : (bumpN c n s).resp = s.resp := (rfl)
@[simp] theorem bumpN_node (c : Ctr) (n : Nat) (s : State) : (bumpN c n s).node = s.node := (rfl)
@[simp] theorem bumpN_notices (c : Ctr) (n : Nat) (s : State) : (bumpN c n s).notices = s.notices := (rfl)
@[simp] theorem bumpN_arb (c : Ctr) (n : Nat) (s : State) : (bumpN c n s).arb = s.arb := (rfl)
@[simp] theorem bumpN_office (c : Ctr) (n : Nat) (s : State) : (bumpN c n s).office = s.office := (rfl)
@[simp] theorem bumpN_ports (c : Ctr) (n : Nat) (s : State) : (bumpN c n s).ports = s.ports := (rfl)
@[simp] theorem bumpN_bridge (c : Ctr) (n : Nat) (s : State) : (bumpN c n s).bridge = s.bridge := (rfl)
@[simp] theorem bumpN_dead (c : Ctr) (n : Nat) (s : State) : (bumpN c n s).dead = s.dead := (rfl)
@[simp] theorem bumpN_census (c : Ctr) (n : Nat) (s : State) : (bumpN c n s).census = s.census := (rfl)
@[simp] theorem bumpN_time (c : Ctr) (n : Nat) (s : State) : (bumpN c n s).time = s.time := (rfl)
@[simp] theorem bumpN_tables (c : Ctr) (n : Nat) (s : State) : (bumpN c n s).tables = s.tables := (rfl)
@[simp] theorem bumpN_upd (c : Ctr) (n : Nat) (s : State) : (bumpN c n s).upd = s.upd := (rfl)
@[simp] theorem bumpN_field (c : Ctr) (n : Nat) (s : State) : (bumpN c n s).field = s.field := (rfl)
@[simp] theorem bumpN_tracks (c : Ctr) (n : Nat) (s : State) : (bumpN c n s).tracks = s.tracks := (rfl)
@[simp] theorem bumpN_scribe (c : Ctr) (n : Nat) (s : State) : (bumpN c n s).scribe = s.scribe := (rfl)
@[simp] theorem bumpN_buses (c : Ctr) (n : Nat) (s : State) : (bumpN c n s).buses = s.buses := (rfl)
@[simp] theorem bumpN_duplex (c : Ctr) (n : Nat) (s : State) : (bumpN c n s).duplex = s.duplex := (rfl)
@[simp] theorem bumpN_integrity (c : Ctr) (n : Nat) (s : State) : (bumpN c n s).integrity = s.integrity := (rfl)
@[simp] theorem bumpN_tt (c : Ctr) (n : Nat) (s : State) : (bumpN c n s).tt = s.tt := (rfl)
@[simp] theorem bumpN_power (c : Ctr) (n : Nat) (s : State) : (bumpN c n s).power = s.power := (rfl)

/-! bump -/

@[simp] theorem bump_pending (c : Ctr) (s : State) : (bump c s).pending = s.pending := (rfl)
@[simp] theorem bump_regs (c : Ctr) (s : State) : (bump c s).regs = s.regs := (rfl)
@[simp] theorem bump_latches (c : Ctr) (s : State) : (bump c s).latches = s.latches := (rfl)
@[simp] theorem bump_stages (c : Ctr) (s : State) : (bump c s).stages = s.stages := (rfl)
@[simp] theorem bump_mem (c : Ctr) (s : State) : (bump c s).mem = s.mem := (rfl)
@[simp] theorem bump_poison (c : Ctr) (s : State) : (bump c s).poison = s.poison := (rfl)
@[simp] theorem bump_resp (c : Ctr) (s : State) : (bump c s).resp = s.resp := (rfl)
@[simp] theorem bump_node (c : Ctr) (s : State) : (bump c s).node = s.node := (rfl)
@[simp] theorem bump_notices (c : Ctr) (s : State) : (bump c s).notices = s.notices := (rfl)
@[simp] theorem bump_arb (c : Ctr) (s : State) : (bump c s).arb = s.arb := (rfl)
@[simp] theorem bump_office (c : Ctr) (s : State) : (bump c s).office = s.office := (rfl)
@[simp] theorem bump_ports (c : Ctr) (s : State) : (bump c s).ports = s.ports := (rfl)
@[simp] theorem bump_bridge (c : Ctr) (s : State) : (bump c s).bridge = s.bridge := (rfl)
@[simp] theorem bump_dead (c : Ctr) (s : State) : (bump c s).dead = s.dead := (rfl)
@[simp] theorem bump_census (c : Ctr) (s : State) : (bump c s).census = s.census := (rfl)
@[simp] theorem bump_time (c : Ctr) (s : State) : (bump c s).time = s.time := (rfl)
@[simp] theorem bump_tables (c : Ctr) (s : State) : (bump c s).tables = s.tables := (rfl)
@[simp] theorem bump_upd (c : Ctr) (s : State) : (bump c s).upd = s.upd := (rfl)
@[simp] theorem bump_field (c : Ctr) (s : State) : (bump c s).field = s.field := (rfl)
@[simp] theorem bump_tracks (c : Ctr) (s : State) : (bump c s).tracks = s.tracks := (rfl)
@[simp] theorem bump_scribe (c : Ctr) (s : State) : (bump c s).scribe = s.scribe := (rfl)
@[simp] theorem bump_buses (c : Ctr) (s : State) : (bump c s).buses = s.buses := (rfl)
@[simp] theorem bump_duplex (c : Ctr) (s : State) : (bump c s).duplex = s.duplex := (rfl)
@[simp] theorem bump_integrity (c : Ctr) (s : State) : (bump c s).integrity = s.integrity := (rfl)
@[simp] theorem bump_tt (c : Ctr) (s : State) : (bump c s).tt = s.tt := (rfl)
@[simp] theorem bump_power (c : Ctr) (s : State) : (bump c s).power = s.power := (rfl)

/-! setF -/

@[simp] theorem setF_pending (s : State) (a : Nat) (f : Fld) (v : Nat) : (setF s a f v).pending = s.pending := (rfl)
@[simp] theorem setF_latches (s : State) (a : Nat) (f : Fld) (v : Nat) : (setF s a f v).latches = s.latches := (rfl)
@[simp] theorem setF_stages (s : State) (a : Nat) (f : Fld) (v : Nat) : (setF s a f v).stages = s.stages := (rfl)
@[simp] theorem setF_mem (s : State) (a : Nat) (f : Fld) (v : Nat) : (setF s a f v).mem = s.mem := (rfl)
@[simp] theorem setF_poison (s : State) (a : Nat) (f : Fld) (v : Nat) : (setF s a f v).poison = s.poison := (rfl)
@[simp] theorem setF_resp (s : State) (a : Nat) (f : Fld) (v : Nat) : (setF s a f v).resp = s.resp := (rfl)
@[simp] theorem setF_node (s : State) (a : Nat) (f : Fld) (v : Nat) : (setF s a f v).node = s.node := (rfl)
@[simp] theorem setF_notices (s : State) (a : Nat) (f : Fld) (v : Nat) : (setF s a f v).notices = s.notices := (rfl)
@[simp] theorem setF_arb (s : State) (a : Nat) (f : Fld) (v : Nat) : (setF s a f v).arb = s.arb := (rfl)
@[simp] theorem setF_office (s : State) (a : Nat) (f : Fld) (v : Nat) : (setF s a f v).office = s.office := (rfl)
@[simp] theorem setF_ports (s : State) (a : Nat) (f : Fld) (v : Nat) : (setF s a f v).ports = s.ports := (rfl)
@[simp] theorem setF_bridge (s : State) (a : Nat) (f : Fld) (v : Nat) : (setF s a f v).bridge = s.bridge := (rfl)
@[simp] theorem setF_dead (s : State) (a : Nat) (f : Fld) (v : Nat) : (setF s a f v).dead = s.dead := (rfl)
@[simp] theorem setF_census (s : State) (a : Nat) (f : Fld) (v : Nat) : (setF s a f v).census = s.census := (rfl)
@[simp] theorem setF_mon (s : State) (a : Nat) (f : Fld) (v : Nat) : (setF s a f v).mon = s.mon := (rfl)
@[simp] theorem setF_time (s : State) (a : Nat) (f : Fld) (v : Nat) : (setF s a f v).time = s.time := (rfl)
@[simp] theorem setF_tables (s : State) (a : Nat) (f : Fld) (v : Nat) : (setF s a f v).tables = s.tables := (rfl)
@[simp] theorem setF_upd (s : State) (a : Nat) (f : Fld) (v : Nat) : (setF s a f v).upd = s.upd := (rfl)
@[simp] theorem setF_field (s : State) (a : Nat) (f : Fld) (v : Nat) : (setF s a f v).field = s.field := (rfl)
@[simp] theorem setF_tracks (s : State) (a : Nat) (f : Fld) (v : Nat) : (setF s a f v).tracks = s.tracks := (rfl)
@[simp] theorem setF_scribe (s : State) (a : Nat) (f : Fld) (v : Nat) : (setF s a f v).scribe = s.scribe := (rfl)
@[simp] theorem setF_buses (s : State) (a : Nat) (f : Fld) (v : Nat) : (setF s a f v).buses = s.buses := (rfl)
@[simp] theorem setF_duplex (s : State) (a : Nat) (f : Fld) (v : Nat) : (setF s a f v).duplex = s.duplex := (rfl)
@[simp] theorem setF_integrity (s : State) (a : Nat) (f : Fld) (v : Nat) : (setF s a f v).integrity = s.integrity := (rfl)
@[simp] theorem setF_tt (s : State) (a : Nat) (f : Fld) (v : Nat) : (setF s a f v).tt = s.tt := (rfl)
@[simp] theorem setF_power (s : State) (a : Nat) (f : Fld) (v : Nat) : (setF s a f v).power = s.power := (rfl)

/-! setB -/

@[simp] theorem setB_pending (s : State) (a : Nat) (f : Fld) (b : Bool) : (setB s a f b).pending = s.pending := (rfl)
@[simp] theorem setB_latches (s : State) (a : Nat) (f : Fld) (b : Bool) : (setB s a f b).latches = s.latches := (rfl)
@[simp] theorem setB_stages (s : State) (a : Nat) (f : Fld) (b : Bool) : (setB s a f b).stages = s.stages := (rfl)
@[simp] theorem setB_mem (s : State) (a : Nat) (f : Fld) (b : Bool) : (setB s a f b).mem = s.mem := (rfl)
@[simp] theorem setB_poison (s : State) (a : Nat) (f : Fld) (b : Bool) : (setB s a f b).poison = s.poison := (rfl)
@[simp] theorem setB_resp (s : State) (a : Nat) (f : Fld) (b : Bool) : (setB s a f b).resp = s.resp := (rfl)
@[simp] theorem setB_node (s : State) (a : Nat) (f : Fld) (b : Bool) : (setB s a f b).node = s.node := (rfl)
@[simp] theorem setB_notices (s : State) (a : Nat) (f : Fld) (b : Bool) : (setB s a f b).notices = s.notices := (rfl)
@[simp] theorem setB_arb (s : State) (a : Nat) (f : Fld) (b : Bool) : (setB s a f b).arb = s.arb := (rfl)
@[simp] theorem setB_office (s : State) (a : Nat) (f : Fld) (b : Bool) : (setB s a f b).office = s.office := (rfl)
@[simp] theorem setB_ports (s : State) (a : Nat) (f : Fld) (b : Bool) : (setB s a f b).ports = s.ports := (rfl)
@[simp] theorem setB_bridge (s : State) (a : Nat) (f : Fld) (b : Bool) : (setB s a f b).bridge = s.bridge := (rfl)
@[simp] theorem setB_dead (s : State) (a : Nat) (f : Fld) (b : Bool) : (setB s a f b).dead = s.dead := (rfl)
@[simp] theorem setB_census (s : State) (a : Nat) (f : Fld) (b : Bool) : (setB s a f b).census = s.census := (rfl)
@[simp] theorem setB_mon (s : State) (a : Nat) (f : Fld) (b : Bool) : (setB s a f b).mon = s.mon := (rfl)
@[simp] theorem setB_time (s : State) (a : Nat) (f : Fld) (b : Bool) : (setB s a f b).time = s.time := (rfl)
@[simp] theorem setB_tables (s : State) (a : Nat) (f : Fld) (b : Bool) : (setB s a f b).tables = s.tables := (rfl)
@[simp] theorem setB_upd (s : State) (a : Nat) (f : Fld) (b : Bool) : (setB s a f b).upd = s.upd := (rfl)
@[simp] theorem setB_field (s : State) (a : Nat) (f : Fld) (b : Bool) : (setB s a f b).field = s.field := (rfl)
@[simp] theorem setB_tracks (s : State) (a : Nat) (f : Fld) (b : Bool) : (setB s a f b).tracks = s.tracks := (rfl)
@[simp] theorem setB_scribe (s : State) (a : Nat) (f : Fld) (b : Bool) : (setB s a f b).scribe = s.scribe := (rfl)
@[simp] theorem setB_buses (s : State) (a : Nat) (f : Fld) (b : Bool) : (setB s a f b).buses = s.buses := (rfl)
@[simp] theorem setB_duplex (s : State) (a : Nat) (f : Fld) (b : Bool) : (setB s a f b).duplex = s.duplex := (rfl)
@[simp] theorem setB_integrity (s : State) (a : Nat) (f : Fld) (b : Bool) : (setB s a f b).integrity = s.integrity := (rfl)
@[simp] theorem setB_tt (s : State) (a : Nat) (f : Fld) (b : Bool) : (setB s a f b).tt = s.tt := (rfl)
@[simp] theorem setB_power (s : State) (a : Nat) (f : Fld) (b : Bool) : (setB s a f b).power = s.power := (rfl)

/-! setByte -/

@[simp] theorem setByte_pending (s : State) (a : Nat) (b : Byte) : (setByte s a b).pending = s.pending := (rfl)
@[simp] theorem setByte_regs (s : State) (a : Nat) (b : Byte) : (setByte s a b).regs = s.regs := (rfl)
@[simp] theorem setByte_latches (s : State) (a : Nat) (b : Byte) : (setByte s a b).latches = s.latches := (rfl)
@[simp] theorem setByte_stages (s : State) (a : Nat) (b : Byte) : (setByte s a b).stages = s.stages := (rfl)
@[simp] theorem setByte_mem (s : State) (a : Nat) (b : Byte) : (setByte s a b).mem = tabSet memDefault s.mem a b := (rfl)
@[simp] theorem setByte_poison (s : State) (a : Nat) (b : Byte) : (setByte s a b).poison = s.poison := (rfl)
@[simp] theorem setByte_resp (s : State) (a : Nat) (b : Byte) : (setByte s a b).resp = s.resp := (rfl)
@[simp] theorem setByte_node (s : State) (a : Nat) (b : Byte) : (setByte s a b).node = s.node := (rfl)
@[simp] theorem setByte_notices (s : State) (a : Nat) (b : Byte) : (setByte s a b).notices = s.notices := (rfl)
@[simp] theorem setByte_arb (s : State) (a : Nat) (b : Byte) : (setByte s a b).arb = s.arb := (rfl)
@[simp] theorem setByte_office (s : State) (a : Nat) (b : Byte) : (setByte s a b).office = s.office := (rfl)
@[simp] theorem setByte_ports (s : State) (a : Nat) (b : Byte) : (setByte s a b).ports = s.ports := (rfl)
@[simp] theorem setByte_bridge (s : State) (a : Nat) (b : Byte) : (setByte s a b).bridge = s.bridge := (rfl)
@[simp] theorem setByte_dead (s : State) (a : Nat) (b : Byte) : (setByte s a b).dead = s.dead := (rfl)
@[simp] theorem setByte_census (s : State) (a : Nat) (b : Byte) : (setByte s a b).census = s.census := (rfl)
@[simp] theorem setByte_mon (s : State) (a : Nat) (b : Byte) : (setByte s a b).mon = s.mon := (rfl)
@[simp] theorem setByte_time (s : State) (a : Nat) (b : Byte) : (setByte s a b).time = s.time := (rfl)
@[simp] theorem setByte_tables (s : State) (a : Nat) (b : Byte) : (setByte s a b).tables = s.tables := (rfl)
@[simp] theorem setByte_upd (s : State) (a : Nat) (b : Byte) : (setByte s a b).upd = s.upd := (rfl)
@[simp] theorem setByte_field (s : State) (a : Nat) (b : Byte) : (setByte s a b).field = s.field := (rfl)
@[simp] theorem setByte_tracks (s : State) (a : Nat) (b : Byte) : (setByte s a b).tracks = s.tracks := (rfl)
@[simp] theorem setByte_scribe (s : State) (a : Nat) (b : Byte) : (setByte s a b).scribe = s.scribe := (rfl)
@[simp] theorem setByte_buses (s : State) (a : Nat) (b : Byte) : (setByte s a b).buses = s.buses := (rfl)
@[simp] theorem setByte_duplex (s : State) (a : Nat) (b : Byte) : (setByte s a b).duplex = s.duplex := (rfl)
@[simp] theorem setByte_integrity (s : State) (a : Nat) (b : Byte) : (setByte s a b).integrity = s.integrity := (rfl)
@[simp] theorem setByte_tt (s : State) (a : Nat) (b : Byte) : (setByte s a b).tt = s.tt := (rfl)
@[simp] theorem setByte_power (s : State) (a : Nat) (b : Byte) : (setByte s a b).power = s.power := (rfl)

/-! onArb -/

@[simp] theorem onArb_pending (f : ArbState → ArbState) (s : State) : (onArb f s).pending = s.pending := (rfl)
@[simp] theorem onArb_regs (f : ArbState → ArbState) (s : State) : (onArb f s).regs = s.regs := (rfl)
@[simp] theorem onArb_latches (f : ArbState → ArbState) (s : State) : (onArb f s).latches = s.latches := (rfl)
@[simp] theorem onArb_stages (f : ArbState → ArbState) (s : State) : (onArb f s).stages = s.stages := (rfl)
@[simp] theorem onArb_mem (f : ArbState → ArbState) (s : State) : (onArb f s).mem = s.mem := (rfl)
@[simp] theorem onArb_poison (f : ArbState → ArbState) (s : State) : (onArb f s).poison = s.poison := (rfl)
@[simp] theorem onArb_resp (f : ArbState → ArbState) (s : State) : (onArb f s).resp = s.resp := (rfl)
@[simp] theorem onArb_node (f : ArbState → ArbState) (s : State) : (onArb f s).node = s.node := (rfl)
@[simp] theorem onArb_notices (f : ArbState → ArbState) (s : State) : (onArb f s).notices = s.notices := (rfl)
@[simp] theorem onArb_arb (f : ArbState → ArbState) (s : State) : (onArb f s).arb = f s.arb := (rfl)
@[simp] theorem onArb_office (f : ArbState → ArbState) (s : State) : (onArb f s).office = s.office := (rfl)
@[simp] theorem onArb_ports (f : ArbState → ArbState) (s : State) : (onArb f s).ports = s.ports := (rfl)
@[simp] theorem onArb_bridge (f : ArbState → ArbState) (s : State) : (onArb f s).bridge = s.bridge := (rfl)
@[simp] theorem onArb_dead (f : ArbState → ArbState) (s : State) : (onArb f s).dead = s.dead := (rfl)
@[simp] theorem onArb_census (f : ArbState → ArbState) (s : State) : (onArb f s).census = s.census := (rfl)
@[simp] theorem onArb_mon (f : ArbState → ArbState) (s : State) : (onArb f s).mon = s.mon := (rfl)
@[simp] theorem onArb_time (f : ArbState → ArbState) (s : State) : (onArb f s).time = s.time := (rfl)
@[simp] theorem onArb_tables (f : ArbState → ArbState) (s : State) : (onArb f s).tables = s.tables := (rfl)
@[simp] theorem onArb_upd (f : ArbState → ArbState) (s : State) : (onArb f s).upd = s.upd := (rfl)
@[simp] theorem onArb_field (f : ArbState → ArbState) (s : State) : (onArb f s).field = s.field := (rfl)
@[simp] theorem onArb_tracks (f : ArbState → ArbState) (s : State) : (onArb f s).tracks = s.tracks := (rfl)
@[simp] theorem onArb_scribe (f : ArbState → ArbState) (s : State) : (onArb f s).scribe = s.scribe := (rfl)
@[simp] theorem onArb_buses (f : ArbState → ArbState) (s : State) : (onArb f s).buses = s.buses := (rfl)
@[simp] theorem onArb_duplex (f : ArbState → ArbState) (s : State) : (onArb f s).duplex = s.duplex := (rfl)
@[simp] theorem onArb_integrity (f : ArbState → ArbState) (s : State) : (onArb f s).integrity = s.integrity := (rfl)
@[simp] theorem onArb_tt (f : ArbState → ArbState) (s : State) : (onArb f s).tt = s.tt := (rfl)
@[simp] theorem onArb_power (f : ArbState → ArbState) (s : State) : (onArb f s).power = s.power := (rfl)

/-! onNode -/

@[simp] theorem onNode_pending (f : NodeState → NodeState) (s : State) : (onNode f s).pending = s.pending := (rfl)
@[simp] theorem onNode_regs (f : NodeState → NodeState) (s : State) : (onNode f s).regs = s.regs := (rfl)
@[simp] theorem onNode_latches (f : NodeState → NodeState) (s : State) : (onNode f s).latches = s.latches := (rfl)
@[simp] theorem onNode_stages (f : NodeState → NodeState) (s : State) : (onNode f s).stages = s.stages := (rfl)
@[simp] theorem onNode_mem (f : NodeState → NodeState) (s : State) : (onNode f s).mem = s.mem := (rfl)
@[simp] theorem onNode_poison (f : NodeState → NodeState) (s : State) : (onNode f s).poison = s.poison := (rfl)
@[simp] theorem onNode_resp (f : NodeState → NodeState) (s : State) : (onNode f s).resp = s.resp := (rfl)
@[simp] theorem onNode_node (f : NodeState → NodeState) (s : State) : (onNode f s).node = f s.node := (rfl)
@[simp] theorem onNode_notices (f : NodeState → NodeState) (s : State) : (onNode f s).notices = s.notices := (rfl)
@[simp] theorem onNode_arb (f : NodeState → NodeState) (s : State) : (onNode f s).arb = s.arb := (rfl)
@[simp] theorem onNode_office (f : NodeState → NodeState) (s : State) : (onNode f s).office = s.office := (rfl)
@[simp] theorem onNode_ports (f : NodeState → NodeState) (s : State) : (onNode f s).ports = s.ports := (rfl)
@[simp] theorem onNode_bridge (f : NodeState → NodeState) (s : State) : (onNode f s).bridge = s.bridge := (rfl)
@[simp] theorem onNode_dead (f : NodeState → NodeState) (s : State) : (onNode f s).dead = s.dead := (rfl)
@[simp] theorem onNode_census (f : NodeState → NodeState) (s : State) : (onNode f s).census = s.census := (rfl)
@[simp] theorem onNode_mon (f : NodeState → NodeState) (s : State) : (onNode f s).mon = s.mon := (rfl)
@[simp] theorem onNode_time (f : NodeState → NodeState) (s : State) : (onNode f s).time = s.time := (rfl)
@[simp] theorem onNode_tables (f : NodeState → NodeState) (s : State) : (onNode f s).tables = s.tables := (rfl)
@[simp] theorem onNode_upd (f : NodeState → NodeState) (s : State) : (onNode f s).upd = s.upd := (rfl)
@[simp] theorem onNode_field (f : NodeState → NodeState) (s : State) : (onNode f s).field = s.field := (rfl)
@[simp] theorem onNode_tracks (f : NodeState → NodeState) (s : State) : (onNode f s).tracks = s.tracks := (rfl)
@[simp] theorem onNode_scribe (f : NodeState → NodeState) (s : State) : (onNode f s).scribe = s.scribe := (rfl)
@[simp] theorem onNode_buses (f : NodeState → NodeState) (s : State) : (onNode f s).buses = s.buses := (rfl)
@[simp] theorem onNode_duplex (f : NodeState → NodeState) (s : State) : (onNode f s).duplex = s.duplex := (rfl)
@[simp] theorem onNode_integrity (f : NodeState → NodeState) (s : State) : (onNode f s).integrity = s.integrity := (rfl)
@[simp] theorem onNode_tt (f : NodeState → NodeState) (s : State) : (onNode f s).tt = s.tt := (rfl)
@[simp] theorem onNode_power (f : NodeState → NodeState) (s : State) : (onNode f s).power = s.power := (rfl)

/-! setPoison -/

@[simp] theorem setPoison_pending (s : State) (a : Nat) (b : Bool) : (setPoison s a b).pending = s.pending := (rfl)
@[simp] theorem setPoison_regs (s : State) (a : Nat) (b : Bool) : (setPoison s a b).regs = s.regs := (rfl)
@[simp] theorem setPoison_latches (s : State) (a : Nat) (b : Bool) : (setPoison s a b).latches = s.latches := (rfl)
@[simp] theorem setPoison_stages (s : State) (a : Nat) (b : Bool) : (setPoison s a b).stages = s.stages := (rfl)
@[simp] theorem setPoison_mem (s : State) (a : Nat) (b : Bool) : (setPoison s a b).mem = s.mem := (rfl)
@[simp] theorem setPoison_resp (s : State) (a : Nat) (b : Bool) : (setPoison s a b).resp = s.resp := (rfl)
@[simp] theorem setPoison_node (s : State) (a : Nat) (b : Bool) : (setPoison s a b).node = s.node := (rfl)
@[simp] theorem setPoison_notices (s : State) (a : Nat) (b : Bool) : (setPoison s a b).notices = s.notices := (rfl)
@[simp] theorem setPoison_arb (s : State) (a : Nat) (b : Bool) : (setPoison s a b).arb = s.arb := (rfl)
@[simp] theorem setPoison_office (s : State) (a : Nat) (b : Bool) : (setPoison s a b).office = s.office := (rfl)
@[simp] theorem setPoison_ports (s : State) (a : Nat) (b : Bool) : (setPoison s a b).ports = s.ports := (rfl)
@[simp] theorem setPoison_bridge (s : State) (a : Nat) (b : Bool) : (setPoison s a b).bridge = s.bridge := (rfl)
@[simp] theorem setPoison_dead (s : State) (a : Nat) (b : Bool) : (setPoison s a b).dead = s.dead := (rfl)
@[simp] theorem setPoison_census (s : State) (a : Nat) (b : Bool) : (setPoison s a b).census = s.census := (rfl)
@[simp] theorem setPoison_mon (s : State) (a : Nat) (b : Bool) : (setPoison s a b).mon = s.mon := (rfl)
@[simp] theorem setPoison_time (s : State) (a : Nat) (b : Bool) : (setPoison s a b).time = s.time := (rfl)
@[simp] theorem setPoison_tables (s : State) (a : Nat) (b : Bool) : (setPoison s a b).tables = s.tables := (rfl)
@[simp] theorem setPoison_upd (s : State) (a : Nat) (b : Bool) : (setPoison s a b).upd = s.upd := (rfl)
@[simp] theorem setPoison_field (s : State) (a : Nat) (b : Bool) : (setPoison s a b).field = s.field := (rfl)
@[simp] theorem setPoison_tracks (s : State) (a : Nat) (b : Bool) : (setPoison s a b).tracks = s.tracks := (rfl)
@[simp] theorem setPoison_scribe (s : State) (a : Nat) (b : Bool) : (setPoison s a b).scribe = s.scribe := (rfl)
@[simp] theorem setPoison_buses (s : State) (a : Nat) (b : Bool) : (setPoison s a b).buses = s.buses := (rfl)
@[simp] theorem setPoison_duplex (s : State) (a : Nat) (b : Bool) : (setPoison s a b).duplex = s.duplex := (rfl)
@[simp] theorem setPoison_integrity (s : State) (a : Nat) (b : Bool) : (setPoison s a b).integrity = s.integrity := (rfl)
@[simp] theorem setPoison_tt (s : State) (a : Nat) (b : Bool) : (setPoison s a b).tt = s.tt := (rfl)
@[simp] theorem setPoison_power (s : State) (a : Nat) (b : Bool) : (setPoison s a b).power = s.power := (rfl)

/-! answer -/

@[simp] theorem answer_pending (r : Resp) (s : State) : (answer r s).pending = s.pending := (rfl)
@[simp] theorem answer_regs (r : Resp) (s : State) : (answer r s).regs = s.regs := (rfl)
@[simp] theorem answer_latches (r : Resp) (s : State) : (answer r s).latches = s.latches := (rfl)
@[simp] theorem answer_stages (r : Resp) (s : State) : (answer r s).stages = s.stages := (rfl)
@[simp] theorem answer_mem (r : Resp) (s : State) : (answer r s).mem = s.mem := (rfl)
@[simp] theorem answer_poison (r : Resp) (s : State) : (answer r s).poison = s.poison := (rfl)
@[simp] theorem answer_resp (r : Resp) (s : State) : (answer r s).resp = r := (rfl)
@[simp] theorem answer_node (r : Resp) (s : State) : (answer r s).node = s.node := (rfl)
@[simp] theorem answer_notices (r : Resp) (s : State) : (answer r s).notices = s.notices := (rfl)
@[simp] theorem answer_arb (r : Resp) (s : State) : (answer r s).arb = s.arb := (rfl)
@[simp] theorem answer_office (r : Resp) (s : State) : (answer r s).office = s.office := (rfl)
@[simp] theorem answer_ports (r : Resp) (s : State) : (answer r s).ports = s.ports := (rfl)
@[simp] theorem answer_bridge (r : Resp) (s : State) : (answer r s).bridge = s.bridge := (rfl)
@[simp] theorem answer_dead (r : Resp) (s : State) : (answer r s).dead = s.dead := (rfl)
@[simp] theorem answer_census (r : Resp) (s : State) : (answer r s).census = s.census := (rfl)
@[simp] theorem answer_mon (r : Resp) (s : State) : (answer r s).mon = s.mon := (rfl)
@[simp] theorem answer_time (r : Resp) (s : State) : (answer r s).time = s.time := (rfl)
@[simp] theorem answer_tables (r : Resp) (s : State) : (answer r s).tables = s.tables := (rfl)
@[simp] theorem answer_upd (r : Resp) (s : State) : (answer r s).upd = s.upd := (rfl)
@[simp] theorem answer_field (r : Resp) (s : State) : (answer r s).field = s.field := (rfl)
@[simp] theorem answer_tracks (r : Resp) (s : State) : (answer r s).tracks = s.tracks := (rfl)
@[simp] theorem answer_scribe (r : Resp) (s : State) : (answer r s).scribe = s.scribe := (rfl)
@[simp] theorem answer_buses (r : Resp) (s : State) : (answer r s).buses = s.buses := (rfl)
@[simp] theorem answer_duplex (r : Resp) (s : State) : (answer r s).duplex = s.duplex := (rfl)
@[simp] theorem answer_integrity (r : Resp) (s : State) : (answer r s).integrity = s.integrity := (rfl)
@[simp] theorem answer_tt (r : Resp) (s : State) : (answer r s).tt = s.tt := (rfl)
@[simp] theorem answer_power (r : Resp) (s : State) : (answer r s).power = s.power := (rfl)

/-! onBridge -/

@[simp] theorem onBridge_pending (f : BridgeState → BridgeState) (s : State) : (onBridge f s).pending = s.pending := (rfl)
@[simp] theorem onBridge_regs (f : BridgeState → BridgeState) (s : State) : (onBridge f s).regs = s.regs := (rfl)
@[simp] theorem onBridge_latches (f : BridgeState → BridgeState) (s : State) : (onBridge f s).latches = s.latches := (rfl)
@[simp] theorem onBridge_stages (f : BridgeState → BridgeState) (s : State) : (onBridge f s).stages = s.stages := (rfl)
@[simp] theorem onBridge_mem (f : BridgeState → BridgeState) (s : State) : (onBridge f s).mem = s.mem := (rfl)
@[simp] theorem onBridge_poison (f : BridgeState → BridgeState) (s : State) : (onBridge f s).poison = s.poison := (rfl)
@[simp] theorem onBridge_resp (f : BridgeState → BridgeState) (s : State) : (onBridge f s).resp = s.resp := (rfl)
@[simp] theorem onBridge_node (f : BridgeState → BridgeState) (s : State) : (onBridge f s).node = s.node := (rfl)
@[simp] theorem onBridge_notices (f : BridgeState → BridgeState) (s : State) : (onBridge f s).notices = s.notices := (rfl)
@[simp] theorem onBridge_arb (f : BridgeState → BridgeState) (s : State) : (onBridge f s).arb = s.arb := (rfl)
@[simp] theorem onBridge_office (f : BridgeState → BridgeState) (s : State) : (onBridge f s).office = s.office := (rfl)
@[simp] theorem onBridge_ports (f : BridgeState → BridgeState) (s : State) : (onBridge f s).ports = s.ports := (rfl)
@[simp] theorem onBridge_bridge (f : BridgeState → BridgeState) (s : State) : (onBridge f s).bridge = f s.bridge := (rfl)
@[simp] theorem onBridge_dead (f : BridgeState → BridgeState) (s : State) : (onBridge f s).dead = s.dead := (rfl)
@[simp] theorem onBridge_census (f : BridgeState → BridgeState) (s : State) : (onBridge f s).census = s.census := (rfl)
@[simp] theorem onBridge_mon (f : BridgeState → BridgeState) (s : State) : (onBridge f s).mon = s.mon := (rfl)
@[simp] theorem onBridge_time (f : BridgeState → BridgeState) (s : State) : (onBridge f s).time = s.time := (rfl)
@[simp] theorem onBridge_tables (f : BridgeState → BridgeState) (s : State) : (onBridge f s).tables = s.tables := (rfl)
@[simp] theorem onBridge_upd (f : BridgeState → BridgeState) (s : State) : (onBridge f s).upd = s.upd := (rfl)
@[simp] theorem onBridge_field (f : BridgeState → BridgeState) (s : State) : (onBridge f s).field = s.field := (rfl)
@[simp] theorem onBridge_tracks (f : BridgeState → BridgeState) (s : State) : (onBridge f s).tracks = s.tracks := (rfl)
@[simp] theorem onBridge_scribe (f : BridgeState → BridgeState) (s : State) : (onBridge f s).scribe = s.scribe := (rfl)
@[simp] theorem onBridge_buses (f : BridgeState → BridgeState) (s : State) : (onBridge f s).buses = s.buses := (rfl)
@[simp] theorem onBridge_duplex (f : BridgeState → BridgeState) (s : State) : (onBridge f s).duplex = s.duplex := (rfl)
@[simp] theorem onBridge_integrity (f : BridgeState → BridgeState) (s : State) : (onBridge f s).integrity = s.integrity := (rfl)
@[simp] theorem onBridge_tt (f : BridgeState → BridgeState) (s : State) : (onBridge f s).tt = s.tt := (rfl)
@[simp] theorem onBridge_power (f : BridgeState → BridgeState) (s : State) : (onBridge f s).power = s.power := (rfl)

/-! onDead -/

@[simp] theorem onDead_pending (f : DeadState → DeadState) (s : State) : (onDead f s).pending = s.pending := (rfl)
@[simp] theorem onDead_regs (f : DeadState → DeadState) (s : State) : (onDead f s).regs = s.regs := (rfl)
@[simp] theorem onDead_latches (f : DeadState → DeadState) (s : State) : (onDead f s).latches = s.latches := (rfl)
@[simp] theorem onDead_stages (f : DeadState → DeadState) (s : State) : (onDead f s).stages = s.stages := (rfl)
@[simp] theorem onDead_mem (f : DeadState → DeadState) (s : State) : (onDead f s).mem = s.mem := (rfl)
@[simp] theorem onDead_poison (f : DeadState → DeadState) (s : State) : (onDead f s).poison = s.poison := (rfl)
@[simp] theorem onDead_resp (f : DeadState → DeadState) (s : State) : (onDead f s).resp = s.resp := (rfl)
@[simp] theorem onDead_node (f : DeadState → DeadState) (s : State) : (onDead f s).node = s.node := (rfl)
@[simp] theorem onDead_notices (f : DeadState → DeadState) (s : State) : (onDead f s).notices = s.notices := (rfl)
@[simp] theorem onDead_arb (f : DeadState → DeadState) (s : State) : (onDead f s).arb = s.arb := (rfl)
@[simp] theorem onDead_office (f : DeadState → DeadState) (s : State) : (onDead f s).office = s.office := (rfl)
@[simp] theorem onDead_ports (f : DeadState → DeadState) (s : State) : (onDead f s).ports = s.ports := (rfl)
@[simp] theorem onDead_bridge (f : DeadState → DeadState) (s : State) : (onDead f s).bridge = s.bridge := (rfl)
@[simp] theorem onDead_dead (f : DeadState → DeadState) (s : State) : (onDead f s).dead = f s.dead := (rfl)
@[simp] theorem onDead_census (f : DeadState → DeadState) (s : State) : (onDead f s).census = s.census := (rfl)
@[simp] theorem onDead_mon (f : DeadState → DeadState) (s : State) : (onDead f s).mon = s.mon := (rfl)
@[simp] theorem onDead_time (f : DeadState → DeadState) (s : State) : (onDead f s).time = s.time := (rfl)
@[simp] theorem onDead_tables (f : DeadState → DeadState) (s : State) : (onDead f s).tables = s.tables := (rfl)
@[simp] theorem onDead_upd (f : DeadState → DeadState) (s : State) : (onDead f s).upd = s.upd := (rfl)
@[simp] theorem onDead_field (f : DeadState → DeadState) (s : State) : (onDead f s).field = s.field := (rfl)
@[simp] theorem onDead_tracks (f : DeadState → DeadState) (s : State) : (onDead f s).tracks = s.tracks := (rfl)
@[simp] theorem onDead_scribe (f : DeadState → DeadState) (s : State) : (onDead f s).scribe = s.scribe := (rfl)
@[simp] theorem onDead_buses (f : DeadState → DeadState) (s : State) : (onDead f s).buses = s.buses := (rfl)
@[simp] theorem onDead_duplex (f : DeadState → DeadState) (s : State) : (onDead f s).duplex = s.duplex := (rfl)
@[simp] theorem onDead_integrity (f : DeadState → DeadState) (s : State) : (onDead f s).integrity = s.integrity := (rfl)
@[simp] theorem onDead_tt (f : DeadState → DeadState) (s : State) : (onDead f s).tt = s.tt := (rfl)
@[simp] theorem onDead_power (f : DeadState → DeadState) (s : State) : (onDead f s).power = s.power := (rfl)

/-! onUpd -/

@[simp] theorem onUpd_pending (f : UpdState → UpdState) (s : State) : (onUpd f s).pending = s.pending := (rfl)
@[simp] theorem onUpd_regs (f : UpdState → UpdState) (s : State) : (onUpd f s).regs = s.regs := (rfl)
@[simp] theorem onUpd_latches (f : UpdState → UpdState) (s : State) : (onUpd f s).latches = s.latches := (rfl)
@[simp] theorem onUpd_stages (f : UpdState → UpdState) (s : State) : (onUpd f s).stages = s.stages := (rfl)
@[simp] theorem onUpd_mem (f : UpdState → UpdState) (s : State) : (onUpd f s).mem = s.mem := (rfl)
@[simp] theorem onUpd_poison (f : UpdState → UpdState) (s : State) : (onUpd f s).poison = s.poison := (rfl)
@[simp] theorem onUpd_resp (f : UpdState → UpdState) (s : State) : (onUpd f s).resp = s.resp := (rfl)
@[simp] theorem onUpd_node (f : UpdState → UpdState) (s : State) : (onUpd f s).node = s.node := (rfl)
@[simp] theorem onUpd_notices (f : UpdState → UpdState) (s : State) : (onUpd f s).notices = s.notices := (rfl)
@[simp] theorem onUpd_arb (f : UpdState → UpdState) (s : State) : (onUpd f s).arb = s.arb := (rfl)
@[simp] theorem onUpd_office (f : UpdState → UpdState) (s : State) : (onUpd f s).office = s.office := (rfl)
@[simp] theorem onUpd_ports (f : UpdState → UpdState) (s : State) : (onUpd f s).ports = s.ports := (rfl)
@[simp] theorem onUpd_bridge (f : UpdState → UpdState) (s : State) : (onUpd f s).bridge = s.bridge := (rfl)
@[simp] theorem onUpd_dead (f : UpdState → UpdState) (s : State) : (onUpd f s).dead = s.dead := (rfl)
@[simp] theorem onUpd_census (f : UpdState → UpdState) (s : State) : (onUpd f s).census = s.census := (rfl)
@[simp] theorem onUpd_mon (f : UpdState → UpdState) (s : State) : (onUpd f s).mon = s.mon := (rfl)
@[simp] theorem onUpd_time (f : UpdState → UpdState) (s : State) : (onUpd f s).time = s.time := (rfl)
@[simp] theorem onUpd_tables (f : UpdState → UpdState) (s : State) : (onUpd f s).tables = s.tables := (rfl)
@[simp] theorem onUpd_upd (f : UpdState → UpdState) (s : State) : (onUpd f s).upd = f s.upd := (rfl)
@[simp] theorem onUpd_field (f : UpdState → UpdState) (s : State) : (onUpd f s).field = s.field := (rfl)
@[simp] theorem onUpd_tracks (f : UpdState → UpdState) (s : State) : (onUpd f s).tracks = s.tracks := (rfl)
@[simp] theorem onUpd_scribe (f : UpdState → UpdState) (s : State) : (onUpd f s).scribe = s.scribe := (rfl)
@[simp] theorem onUpd_buses (f : UpdState → UpdState) (s : State) : (onUpd f s).buses = s.buses := (rfl)
@[simp] theorem onUpd_duplex (f : UpdState → UpdState) (s : State) : (onUpd f s).duplex = s.duplex := (rfl)
@[simp] theorem onUpd_integrity (f : UpdState → UpdState) (s : State) : (onUpd f s).integrity = s.integrity := (rfl)
@[simp] theorem onUpd_tt (f : UpdState → UpdState) (s : State) : (onUpd f s).tt = s.tt := (rfl)
@[simp] theorem onUpd_power (f : UpdState → UpdState) (s : State) : (onUpd f s).power = s.power := (rfl)

/-! onOffice -/

@[simp] theorem onOffice_pending (f : OfficeState → OfficeState) (s : State) : (onOffice f s).pending = s.pending := (rfl)
@[simp] theorem onOffice_regs (f : OfficeState → OfficeState) (s : State) : (onOffice f s).regs = s.regs := (rfl)
@[simp] theorem onOffice_latches (f : OfficeState → OfficeState) (s : State) : (onOffice f s).latches = s.latches := (rfl)
@[simp] theorem onOffice_stages (f : OfficeState → OfficeState) (s : State) : (onOffice f s).stages = s.stages := (rfl)
@[simp] theorem onOffice_mem (f : OfficeState → OfficeState) (s : State) : (onOffice f s).mem = s.mem := (rfl)
@[simp] theorem onOffice_poison (f : OfficeState → OfficeState) (s : State) : (onOffice f s).poison = s.poison := (rfl)
@[simp] theorem onOffice_resp (f : OfficeState → OfficeState) (s : State) : (onOffice f s).resp = s.resp := (rfl)
@[simp] theorem onOffice_node (f : OfficeState → OfficeState) (s : State) : (onOffice f s).node = s.node := (rfl)
@[simp] theorem onOffice_notices (f : OfficeState → OfficeState) (s : State) : (onOffice f s).notices = s.notices := (rfl)
@[simp] theorem onOffice_arb (f : OfficeState → OfficeState) (s : State) : (onOffice f s).arb = s.arb := (rfl)
@[simp] theorem onOffice_office (f : OfficeState → OfficeState) (s : State) : (onOffice f s).office = f s.office := (rfl)
@[simp] theorem onOffice_ports (f : OfficeState → OfficeState) (s : State) : (onOffice f s).ports = s.ports := (rfl)
@[simp] theorem onOffice_bridge (f : OfficeState → OfficeState) (s : State) : (onOffice f s).bridge = s.bridge := (rfl)
@[simp] theorem onOffice_dead (f : OfficeState → OfficeState) (s : State) : (onOffice f s).dead = s.dead := (rfl)
@[simp] theorem onOffice_census (f : OfficeState → OfficeState) (s : State) : (onOffice f s).census = s.census := (rfl)
@[simp] theorem onOffice_mon (f : OfficeState → OfficeState) (s : State) : (onOffice f s).mon = s.mon := (rfl)
@[simp] theorem onOffice_time (f : OfficeState → OfficeState) (s : State) : (onOffice f s).time = s.time := (rfl)
@[simp] theorem onOffice_tables (f : OfficeState → OfficeState) (s : State) : (onOffice f s).tables = s.tables := (rfl)
@[simp] theorem onOffice_upd (f : OfficeState → OfficeState) (s : State) : (onOffice f s).upd = s.upd := (rfl)
@[simp] theorem onOffice_field (f : OfficeState → OfficeState) (s : State) : (onOffice f s).field = s.field := (rfl)
@[simp] theorem onOffice_tracks (f : OfficeState → OfficeState) (s : State) : (onOffice f s).tracks = s.tracks := (rfl)
@[simp] theorem onOffice_scribe (f : OfficeState → OfficeState) (s : State) : (onOffice f s).scribe = s.scribe := (rfl)
@[simp] theorem onOffice_buses (f : OfficeState → OfficeState) (s : State) : (onOffice f s).buses = s.buses := (rfl)
@[simp] theorem onOffice_duplex (f : OfficeState → OfficeState) (s : State) : (onOffice f s).duplex = s.duplex := (rfl)
@[simp] theorem onOffice_integrity (f : OfficeState → OfficeState) (s : State) : (onOffice f s).integrity = s.integrity := (rfl)
@[simp] theorem onOffice_tt (f : OfficeState → OfficeState) (s : State) : (onOffice f s).tt = s.tt := (rfl)
@[simp] theorem onOffice_power (f : OfficeState → OfficeState) (s : State) : (onOffice f s).power = s.power := (rfl)

/-! onPort -/

@[simp] theorem onPort_pending (p : Nat) (f : PortState → PortState) (s : State) : (onPort p f s).pending = s.pending := (rfl)
@[simp] theorem onPort_regs (p : Nat) (f : PortState → PortState) (s : State) : (onPort p f s).regs = s.regs := (rfl)
@[simp] theorem onPort_latches (p : Nat) (f : PortState → PortState) (s : State) : (onPort p f s).latches = s.latches := (rfl)
@[simp] theorem onPort_stages (p : Nat) (f : PortState → PortState) (s : State) : (onPort p f s).stages = s.stages := (rfl)
@[simp] theorem onPort_mem (p : Nat) (f : PortState → PortState) (s : State) : (onPort p f s).mem = s.mem := (rfl)
@[simp] theorem onPort_poison (p : Nat) (f : PortState → PortState) (s : State) : (onPort p f s).poison = s.poison := (rfl)
@[simp] theorem onPort_resp (p : Nat) (f : PortState → PortState) (s : State) : (onPort p f s).resp = s.resp := (rfl)
@[simp] theorem onPort_node (p : Nat) (f : PortState → PortState) (s : State) : (onPort p f s).node = s.node := (rfl)
@[simp] theorem onPort_notices (p : Nat) (f : PortState → PortState) (s : State) : (onPort p f s).notices = s.notices := (rfl)
@[simp] theorem onPort_arb (p : Nat) (f : PortState → PortState) (s : State) : (onPort p f s).arb = s.arb := (rfl)
@[simp] theorem onPort_office (p : Nat) (f : PortState → PortState) (s : State) : (onPort p f s).office = s.office := (rfl)
@[simp] theorem onPort_bridge (p : Nat) (f : PortState → PortState) (s : State) : (onPort p f s).bridge = s.bridge := (rfl)
@[simp] theorem onPort_dead (p : Nat) (f : PortState → PortState) (s : State) : (onPort p f s).dead = s.dead := (rfl)
@[simp] theorem onPort_census (p : Nat) (f : PortState → PortState) (s : State) : (onPort p f s).census = s.census := (rfl)
@[simp] theorem onPort_mon (p : Nat) (f : PortState → PortState) (s : State) : (onPort p f s).mon = s.mon := (rfl)
@[simp] theorem onPort_time (p : Nat) (f : PortState → PortState) (s : State) : (onPort p f s).time = s.time := (rfl)
@[simp] theorem onPort_tables (p : Nat) (f : PortState → PortState) (s : State) : (onPort p f s).tables = s.tables := (rfl)
@[simp] theorem onPort_upd (p : Nat) (f : PortState → PortState) (s : State) : (onPort p f s).upd = s.upd := (rfl)
@[simp] theorem onPort_field (p : Nat) (f : PortState → PortState) (s : State) : (onPort p f s).field = s.field := (rfl)
@[simp] theorem onPort_tracks (p : Nat) (f : PortState → PortState) (s : State) : (onPort p f s).tracks = s.tracks := (rfl)
@[simp] theorem onPort_scribe (p : Nat) (f : PortState → PortState) (s : State) : (onPort p f s).scribe = s.scribe := (rfl)
@[simp] theorem onPort_buses (p : Nat) (f : PortState → PortState) (s : State) : (onPort p f s).buses = s.buses := (rfl)
@[simp] theorem onPort_duplex (p : Nat) (f : PortState → PortState) (s : State) : (onPort p f s).duplex = s.duplex := (rfl)
@[simp] theorem onPort_integrity (p : Nat) (f : PortState → PortState) (s : State) : (onPort p f s).integrity = s.integrity := (rfl)
@[simp] theorem onPort_tt (p : Nat) (f : PortState → PortState) (s : State) : (onPort p f s).tt = s.tt := (rfl)
@[simp] theorem onPort_power (p : Nat) (f : PortState → PortState) (s : State) : (onPort p f s).power = s.power := (rfl)

/-! onNet -/

@[simp] theorem onNet_pending (p : Nat) (f : NetPort → NetPort) (s : State) : (onNet p f s).pending = s.pending := (rfl)
@[simp] theorem onNet_regs (p : Nat) (f : NetPort → NetPort) (s : State) : (onNet p f s).regs = s.regs := (rfl)
@[simp] theorem onNet_latches (p : Nat) (f : NetPort → NetPort) (s : State) : (onNet p f s).latches = s.latches := (rfl)
@[simp] theorem onNet_stages (p : Nat) (f : NetPort → NetPort) (s : State) : (onNet p f s).stages = s.stages := (rfl)
@[simp] theorem onNet_mem (p : Nat) (f : NetPort → NetPort) (s : State) : (onNet p f s).mem = s.mem := (rfl)
@[simp] theorem onNet_poison (p : Nat) (f : NetPort → NetPort) (s : State) : (onNet p f s).poison = s.poison := (rfl)
@[simp] theorem onNet_resp (p : Nat) (f : NetPort → NetPort) (s : State) : (onNet p f s).resp = s.resp := (rfl)
@[simp] theorem onNet_node (p : Nat) (f : NetPort → NetPort) (s : State) : (onNet p f s).node = s.node := (rfl)
@[simp] theorem onNet_notices (p : Nat) (f : NetPort → NetPort) (s : State) : (onNet p f s).notices = s.notices := (rfl)
@[simp] theorem onNet_arb (p : Nat) (f : NetPort → NetPort) (s : State) : (onNet p f s).arb = s.arb := (rfl)
@[simp] theorem onNet_office (p : Nat) (f : NetPort → NetPort) (s : State) : (onNet p f s).office = s.office := (rfl)
@[simp] theorem onNet_ports (p : Nat) (f : NetPort → NetPort) (s : State) : (onNet p f s).ports = s.ports := (rfl)
@[simp] theorem onNet_bridge (p : Nat) (f : NetPort → NetPort) (s : State) : (onNet p f s).bridge = s.bridge := (rfl)
@[simp] theorem onNet_dead (p : Nat) (f : NetPort → NetPort) (s : State) : (onNet p f s).dead = s.dead := (rfl)
@[simp] theorem onNet_census (p : Nat) (f : NetPort → NetPort) (s : State) : (onNet p f s).census = s.census := (rfl)
@[simp] theorem onNet_mon (p : Nat) (f : NetPort → NetPort) (s : State) : (onNet p f s).mon = s.mon := (rfl)
@[simp] theorem onNet_tables (p : Nat) (f : NetPort → NetPort) (s : State) : (onNet p f s).tables = s.tables := (rfl)
@[simp] theorem onNet_upd (p : Nat) (f : NetPort → NetPort) (s : State) : (onNet p f s).upd = s.upd := (rfl)
@[simp] theorem onNet_field (p : Nat) (f : NetPort → NetPort) (s : State) : (onNet p f s).field = s.field := (rfl)
@[simp] theorem onNet_tracks (p : Nat) (f : NetPort → NetPort) (s : State) : (onNet p f s).tracks = s.tracks := (rfl)
@[simp] theorem onNet_scribe (p : Nat) (f : NetPort → NetPort) (s : State) : (onNet p f s).scribe = s.scribe := (rfl)
@[simp] theorem onNet_buses (p : Nat) (f : NetPort → NetPort) (s : State) : (onNet p f s).buses = s.buses := (rfl)
@[simp] theorem onNet_duplex (p : Nat) (f : NetPort → NetPort) (s : State) : (onNet p f s).duplex = s.duplex := (rfl)
@[simp] theorem onNet_integrity (p : Nat) (f : NetPort → NetPort) (s : State) : (onNet p f s).integrity = s.integrity := (rfl)
@[simp] theorem onNet_tt (p : Nat) (f : NetPort → NetPort) (s : State) : (onNet p f s).tt = s.tt := (rfl)
@[simp] theorem onNet_power (p : Nat) (f : NetPort → NetPort) (s : State) : (onNet p f s).power = s.power := (rfl)

/-! onCensus -/

@[simp] theorem onCensus_pending (f : CensusState → CensusState) (s : State) : (onCensus f s).pending = s.pending := (rfl)
@[simp] theorem onCensus_regs (f : CensusState → CensusState) (s : State) : (onCensus f s).regs = s.regs := (rfl)
@[simp] theorem onCensus_latches (f : CensusState → CensusState) (s : State) : (onCensus f s).latches = s.latches := (rfl)
@[simp] theorem onCensus_stages (f : CensusState → CensusState) (s : State) : (onCensus f s).stages = s.stages := (rfl)
@[simp] theorem onCensus_mem (f : CensusState → CensusState) (s : State) : (onCensus f s).mem = s.mem := (rfl)
@[simp] theorem onCensus_poison (f : CensusState → CensusState) (s : State) : (onCensus f s).poison = s.poison := (rfl)
@[simp] theorem onCensus_resp (f : CensusState → CensusState) (s : State) : (onCensus f s).resp = s.resp := (rfl)
@[simp] theorem onCensus_node (f : CensusState → CensusState) (s : State) : (onCensus f s).node = s.node := (rfl)
@[simp] theorem onCensus_notices (f : CensusState → CensusState) (s : State) : (onCensus f s).notices = s.notices := (rfl)
@[simp] theorem onCensus_arb (f : CensusState → CensusState) (s : State) : (onCensus f s).arb = s.arb := (rfl)
@[simp] theorem onCensus_office (f : CensusState → CensusState) (s : State) : (onCensus f s).office = s.office := (rfl)
@[simp] theorem onCensus_ports (f : CensusState → CensusState) (s : State) : (onCensus f s).ports = s.ports := (rfl)
@[simp] theorem onCensus_bridge (f : CensusState → CensusState) (s : State) : (onCensus f s).bridge = s.bridge := (rfl)
@[simp] theorem onCensus_dead (f : CensusState → CensusState) (s : State) : (onCensus f s).dead = s.dead := (rfl)
@[simp] theorem onCensus_census (f : CensusState → CensusState) (s : State) : (onCensus f s).census = f s.census := (rfl)
@[simp] theorem onCensus_mon (f : CensusState → CensusState) (s : State) : (onCensus f s).mon = s.mon := (rfl)
@[simp] theorem onCensus_time (f : CensusState → CensusState) (s : State) : (onCensus f s).time = s.time := (rfl)
@[simp] theorem onCensus_tables (f : CensusState → CensusState) (s : State) : (onCensus f s).tables = s.tables := (rfl)
@[simp] theorem onCensus_upd (f : CensusState → CensusState) (s : State) : (onCensus f s).upd = s.upd := (rfl)
@[simp] theorem onCensus_field (f : CensusState → CensusState) (s : State) : (onCensus f s).field = s.field := (rfl)
@[simp] theorem onCensus_tracks (f : CensusState → CensusState) (s : State) : (onCensus f s).tracks = s.tracks := (rfl)
@[simp] theorem onCensus_scribe (f : CensusState → CensusState) (s : State) : (onCensus f s).scribe = s.scribe := (rfl)
@[simp] theorem onCensus_buses (f : CensusState → CensusState) (s : State) : (onCensus f s).buses = s.buses := (rfl)
@[simp] theorem onCensus_duplex (f : CensusState → CensusState) (s : State) : (onCensus f s).duplex = s.duplex := (rfl)
@[simp] theorem onCensus_integrity (f : CensusState → CensusState) (s : State) : (onCensus f s).integrity = s.integrity := (rfl)
@[simp] theorem onCensus_tt (f : CensusState → CensusState) (s : State) : (onCensus f s).tt = s.tt := (rfl)
@[simp] theorem onCensus_power (f : CensusState → CensusState) (s : State) : (onCensus f s).power = s.power := (rfl)

/-! onChan -/

@[simp] theorem onChan_pending (c : Nat) (f : Channel → Channel) (s : State) : (onChan c f s).pending = s.pending := (rfl)
@[simp] theorem onChan_regs (c : Nat) (f : Channel → Channel) (s : State) : (onChan c f s).regs = s.regs := (rfl)
@[simp] theorem onChan_latches (c : Nat) (f : Channel → Channel) (s : State) : (onChan c f s).latches = s.latches := (rfl)
@[simp] theorem onChan_stages (c : Nat) (f : Channel → Channel) (s : State) : (onChan c f s).stages = s.stages := (rfl)
@[simp] theorem onChan_mem (c : Nat) (f : Channel → Channel) (s : State) : (onChan c f s).mem = s.mem := (rfl)
@[simp] theorem onChan_poison (c : Nat) (f : Channel → Channel) (s : State) : (onChan c f s).poison = s.poison := (rfl)
@[simp] theorem onChan_resp (c : Nat) (f : Channel → Channel) (s : State) : (onChan c f s).resp = s.resp := (rfl)
@[simp] theorem onChan_node (c : Nat) (f : Channel → Channel) (s : State) : (onChan c f s).node = s.node := (rfl)
@[simp] theorem onChan_notices (c : Nat) (f : Channel → Channel) (s : State) : (onChan c f s).notices = s.notices := (rfl)
@[simp] theorem onChan_arb (c : Nat) (f : Channel → Channel) (s : State) : (onChan c f s).arb = s.arb := (rfl)
@[simp] theorem onChan_office (c : Nat) (f : Channel → Channel) (s : State) : (onChan c f s).office = s.office := (rfl)
@[simp] theorem onChan_ports (c : Nat) (f : Channel → Channel) (s : State) : (onChan c f s).ports = s.ports := (rfl)
@[simp] theorem onChan_dead (c : Nat) (f : Channel → Channel) (s : State) : (onChan c f s).dead = s.dead := (rfl)
@[simp] theorem onChan_census (c : Nat) (f : Channel → Channel) (s : State) : (onChan c f s).census = s.census := (rfl)
@[simp] theorem onChan_mon (c : Nat) (f : Channel → Channel) (s : State) : (onChan c f s).mon = s.mon := (rfl)
@[simp] theorem onChan_time (c : Nat) (f : Channel → Channel) (s : State) : (onChan c f s).time = s.time := (rfl)
@[simp] theorem onChan_tables (c : Nat) (f : Channel → Channel) (s : State) : (onChan c f s).tables = s.tables := (rfl)
@[simp] theorem onChan_upd (c : Nat) (f : Channel → Channel) (s : State) : (onChan c f s).upd = s.upd := (rfl)
@[simp] theorem onChan_field (c : Nat) (f : Channel → Channel) (s : State) : (onChan c f s).field = s.field := (rfl)
@[simp] theorem onChan_tracks (c : Nat) (f : Channel → Channel) (s : State) : (onChan c f s).tracks = s.tracks := (rfl)
@[simp] theorem onChan_scribe (c : Nat) (f : Channel → Channel) (s : State) : (onChan c f s).scribe = s.scribe := (rfl)
@[simp] theorem onChan_buses (c : Nat) (f : Channel → Channel) (s : State) : (onChan c f s).buses = s.buses := (rfl)
@[simp] theorem onChan_duplex (c : Nat) (f : Channel → Channel) (s : State) : (onChan c f s).duplex = s.duplex := (rfl)
@[simp] theorem onChan_integrity (c : Nat) (f : Channel → Channel) (s : State) : (onChan c f s).integrity = s.integrity := (rfl)
@[simp] theorem onChan_tt (c : Nat) (f : Channel → Channel) (s : State) : (onChan c f s).tt = s.tt := (rfl)
@[simp] theorem onChan_power (c : Nat) (f : Channel → Channel) (s : State) : (onChan c f s).power = s.power := (rfl)

/-! onTables -/

@[simp] theorem onTables_pending (f : TableState → TableState) (s : State) : (onTables f s).pending = s.pending := (rfl)
@[simp] theorem onTables_regs (f : TableState → TableState) (s : State) : (onTables f s).regs = s.regs := (rfl)
@[simp] theorem onTables_latches (f : TableState → TableState) (s : State) : (onTables f s).latches = s.latches := (rfl)
@[simp] theorem onTables_stages (f : TableState → TableState) (s : State) : (onTables f s).stages = s.stages := (rfl)
@[simp] theorem onTables_mem (f : TableState → TableState) (s : State) : (onTables f s).mem = s.mem := (rfl)
@[simp] theorem onTables_poison (f : TableState → TableState) (s : State) : (onTables f s).poison = s.poison := (rfl)
@[simp] theorem onTables_resp (f : TableState → TableState) (s : State) : (onTables f s).resp = s.resp := (rfl)
@[simp] theorem onTables_node (f : TableState → TableState) (s : State) : (onTables f s).node = s.node := (rfl)
@[simp] theorem onTables_notices (f : TableState → TableState) (s : State) : (onTables f s).notices = s.notices := (rfl)
@[simp] theorem onTables_arb (f : TableState → TableState) (s : State) : (onTables f s).arb = s.arb := (rfl)
@[simp] theorem onTables_office (f : TableState → TableState) (s : State) : (onTables f s).office = s.office := (rfl)
@[simp] theorem onTables_ports (f : TableState → TableState) (s : State) : (onTables f s).ports = s.ports := (rfl)
@[simp] theorem onTables_bridge (f : TableState → TableState) (s : State) : (onTables f s).bridge = s.bridge := (rfl)
@[simp] theorem onTables_dead (f : TableState → TableState) (s : State) : (onTables f s).dead = s.dead := (rfl)
@[simp] theorem onTables_census (f : TableState → TableState) (s : State) : (onTables f s).census = s.census := (rfl)
@[simp] theorem onTables_mon (f : TableState → TableState) (s : State) : (onTables f s).mon = s.mon := (rfl)
@[simp] theorem onTables_time (f : TableState → TableState) (s : State) : (onTables f s).time = s.time := (rfl)
@[simp] theorem onTables_tables (f : TableState → TableState) (s : State) : (onTables f s).tables = f s.tables := (rfl)
@[simp] theorem onTables_upd (f : TableState → TableState) (s : State) : (onTables f s).upd = s.upd := (rfl)
@[simp] theorem onTables_field (f : TableState → TableState) (s : State) : (onTables f s).field = s.field := (rfl)
@[simp] theorem onTables_tracks (f : TableState → TableState) (s : State) : (onTables f s).tracks = s.tracks := (rfl)
@[simp] theorem onTables_scribe (f : TableState → TableState) (s : State) : (onTables f s).scribe = s.scribe := (rfl)
@[simp] theorem onTables_buses (f : TableState → TableState) (s : State) : (onTables f s).buses = s.buses := (rfl)
@[simp] theorem onTables_duplex (f : TableState → TableState) (s : State) : (onTables f s).duplex = s.duplex := (rfl)
@[simp] theorem onTables_integrity (f : TableState → TableState) (s : State) : (onTables f s).integrity = s.integrity := (rfl)
@[simp] theorem onTables_tt (f : TableState → TableState) (s : State) : (onTables f s).tt = s.tt := (rfl)
@[simp] theorem onTables_power (f : TableState → TableState) (s : State) : (onTables f s).power = s.power := (rfl)

/-! onMon -/

@[simp] theorem onMon_pending (f : MonState → MonState) (s : State) : (onMon f s).pending = s.pending := (rfl)
@[simp] theorem onMon_regs (f : MonState → MonState) (s : State) : (onMon f s).regs = s.regs := (rfl)
@[simp] theorem onMon_latches (f : MonState → MonState) (s : State) : (onMon f s).latches = s.latches := (rfl)
@[simp] theorem onMon_stages (f : MonState → MonState) (s : State) : (onMon f s).stages = s.stages := (rfl)
@[simp] theorem onMon_mem (f : MonState → MonState) (s : State) : (onMon f s).mem = s.mem := (rfl)
@[simp] theorem onMon_poison (f : MonState → MonState) (s : State) : (onMon f s).poison = s.poison := (rfl)
@[simp] theorem onMon_resp (f : MonState → MonState) (s : State) : (onMon f s).resp = s.resp := (rfl)
@[simp] theorem onMon_node (f : MonState → MonState) (s : State) : (onMon f s).node = s.node := (rfl)
@[simp] theorem onMon_notices (f : MonState → MonState) (s : State) : (onMon f s).notices = s.notices := (rfl)
@[simp] theorem onMon_arb (f : MonState → MonState) (s : State) : (onMon f s).arb = s.arb := (rfl)
@[simp] theorem onMon_office (f : MonState → MonState) (s : State) : (onMon f s).office = s.office := (rfl)
@[simp] theorem onMon_ports (f : MonState → MonState) (s : State) : (onMon f s).ports = s.ports := (rfl)
@[simp] theorem onMon_bridge (f : MonState → MonState) (s : State) : (onMon f s).bridge = s.bridge := (rfl)
@[simp] theorem onMon_dead (f : MonState → MonState) (s : State) : (onMon f s).dead = s.dead := (rfl)
@[simp] theorem onMon_census (f : MonState → MonState) (s : State) : (onMon f s).census = s.census := (rfl)
@[simp] theorem onMon_mon (f : MonState → MonState) (s : State) : (onMon f s).mon = f s.mon := (rfl)
@[simp] theorem onMon_time (f : MonState → MonState) (s : State) : (onMon f s).time = s.time := (rfl)
@[simp] theorem onMon_tables (f : MonState → MonState) (s : State) : (onMon f s).tables = s.tables := (rfl)
@[simp] theorem onMon_upd (f : MonState → MonState) (s : State) : (onMon f s).upd = s.upd := (rfl)
@[simp] theorem onMon_field (f : MonState → MonState) (s : State) : (onMon f s).field = s.field := (rfl)
@[simp] theorem onMon_tracks (f : MonState → MonState) (s : State) : (onMon f s).tracks = s.tracks := (rfl)
@[simp] theorem onMon_scribe (f : MonState → MonState) (s : State) : (onMon f s).scribe = s.scribe := (rfl)
@[simp] theorem onMon_buses (f : MonState → MonState) (s : State) : (onMon f s).buses = s.buses := (rfl)
@[simp] theorem onMon_duplex (f : MonState → MonState) (s : State) : (onMon f s).duplex = s.duplex := (rfl)
@[simp] theorem onMon_integrity (f : MonState → MonState) (s : State) : (onMon f s).integrity = s.integrity := (rfl)
@[simp] theorem onMon_tt (f : MonState → MonState) (s : State) : (onMon f s).tt = s.tt := (rfl)
@[simp] theorem onMon_power (f : MonState → MonState) (s : State) : (onMon f s).power = s.power := (rfl)

/-! onDpx -/

@[simp] theorem onDpx_pending (f : DuplexState → DuplexState) (s : State) : (onDpx f s).pending = s.pending := (rfl)
@[simp] theorem onDpx_regs (f : DuplexState → DuplexState) (s : State) : (onDpx f s).regs = s.regs := (rfl)
@[simp] theorem onDpx_latches (f : DuplexState → DuplexState) (s : State) : (onDpx f s).latches = s.latches := (rfl)
@[simp] theorem onDpx_stages (f : DuplexState → DuplexState) (s : State) : (onDpx f s).stages = s.stages := (rfl)
@[simp] theorem onDpx_mem (f : DuplexState → DuplexState) (s : State) : (onDpx f s).mem = s.mem := (rfl)
@[simp] theorem onDpx_poison (f : DuplexState → DuplexState) (s : State) : (onDpx f s).poison = s.poison := (rfl)
@[simp] theorem onDpx_resp (f : DuplexState → DuplexState) (s : State) : (onDpx f s).resp = s.resp := (rfl)
@[simp] theorem onDpx_node (f : DuplexState → DuplexState) (s : State) : (onDpx f s).node = s.node := (rfl)
@[simp] theorem onDpx_notices (f : DuplexState → DuplexState) (s : State) : (onDpx f s).notices = s.notices := (rfl)
@[simp] theorem onDpx_arb (f : DuplexState → DuplexState) (s : State) : (onDpx f s).arb = s.arb := (rfl)
@[simp] theorem onDpx_office (f : DuplexState → DuplexState) (s : State) : (onDpx f s).office = s.office := (rfl)
@[simp] theorem onDpx_ports (f : DuplexState → DuplexState) (s : State) : (onDpx f s).ports = s.ports := (rfl)
@[simp] theorem onDpx_bridge (f : DuplexState → DuplexState) (s : State) : (onDpx f s).bridge = s.bridge := (rfl)
@[simp] theorem onDpx_dead (f : DuplexState → DuplexState) (s : State) : (onDpx f s).dead = s.dead := (rfl)
@[simp] theorem onDpx_census (f : DuplexState → DuplexState) (s : State) : (onDpx f s).census = s.census := (rfl)
@[simp] theorem onDpx_mon (f : DuplexState → DuplexState) (s : State) : (onDpx f s).mon = s.mon := (rfl)
@[simp] theorem onDpx_time (f : DuplexState → DuplexState) (s : State) : (onDpx f s).time = s.time := (rfl)
@[simp] theorem onDpx_tables (f : DuplexState → DuplexState) (s : State) : (onDpx f s).tables = s.tables := (rfl)
@[simp] theorem onDpx_upd (f : DuplexState → DuplexState) (s : State) : (onDpx f s).upd = s.upd := (rfl)
@[simp] theorem onDpx_field (f : DuplexState → DuplexState) (s : State) : (onDpx f s).field = s.field := (rfl)
@[simp] theorem onDpx_tracks (f : DuplexState → DuplexState) (s : State) : (onDpx f s).tracks = s.tracks := (rfl)
@[simp] theorem onDpx_scribe (f : DuplexState → DuplexState) (s : State) : (onDpx f s).scribe = s.scribe := (rfl)
@[simp] theorem onDpx_buses (f : DuplexState → DuplexState) (s : State) : (onDpx f s).buses = s.buses := (rfl)
@[simp] theorem onDpx_duplex (f : DuplexState → DuplexState) (s : State) : (onDpx f s).duplex = f s.duplex := (rfl)
@[simp] theorem onDpx_integrity (f : DuplexState → DuplexState) (s : State) : (onDpx f s).integrity = s.integrity := (rfl)
@[simp] theorem onDpx_tt (f : DuplexState → DuplexState) (s : State) : (onDpx f s).tt = s.tt := (rfl)
@[simp] theorem onDpx_power (f : DuplexState → DuplexState) (s : State) : (onDpx f s).power = s.power := (rfl)

/-! onTime -/

@[simp] theorem onTime_pending (f : TimeState → TimeState) (s : State) : (onTime f s).pending = s.pending := (rfl)
@[simp] theorem onTime_regs (f : TimeState → TimeState) (s : State) : (onTime f s).regs = s.regs := (rfl)
@[simp] theorem onTime_latches (f : TimeState → TimeState) (s : State) : (onTime f s).latches = s.latches := (rfl)
@[simp] theorem onTime_stages (f : TimeState → TimeState) (s : State) : (onTime f s).stages = s.stages := (rfl)
@[simp] theorem onTime_mem (f : TimeState → TimeState) (s : State) : (onTime f s).mem = s.mem := (rfl)
@[simp] theorem onTime_poison (f : TimeState → TimeState) (s : State) : (onTime f s).poison = s.poison := (rfl)
@[simp] theorem onTime_resp (f : TimeState → TimeState) (s : State) : (onTime f s).resp = s.resp := (rfl)
@[simp] theorem onTime_node (f : TimeState → TimeState) (s : State) : (onTime f s).node = s.node := (rfl)
@[simp] theorem onTime_notices (f : TimeState → TimeState) (s : State) : (onTime f s).notices = s.notices := (rfl)
@[simp] theorem onTime_arb (f : TimeState → TimeState) (s : State) : (onTime f s).arb = s.arb := (rfl)
@[simp] theorem onTime_office (f : TimeState → TimeState) (s : State) : (onTime f s).office = s.office := (rfl)
@[simp] theorem onTime_ports (f : TimeState → TimeState) (s : State) : (onTime f s).ports = s.ports := (rfl)
@[simp] theorem onTime_bridge (f : TimeState → TimeState) (s : State) : (onTime f s).bridge = s.bridge := (rfl)
@[simp] theorem onTime_dead (f : TimeState → TimeState) (s : State) : (onTime f s).dead = s.dead := (rfl)
@[simp] theorem onTime_census (f : TimeState → TimeState) (s : State) : (onTime f s).census = s.census := (rfl)
@[simp] theorem onTime_mon (f : TimeState → TimeState) (s : State) : (onTime f s).mon = s.mon := (rfl)
@[simp] theorem onTime_time (f : TimeState → TimeState) (s : State) : (onTime f s).time = f s.time := (rfl)
@[simp] theorem onTime_tables (f : TimeState → TimeState) (s : State) : (onTime f s).tables = s.tables := (rfl)
@[simp] theorem onTime_upd (f : TimeState → TimeState) (s : State) : (onTime f s).upd = s.upd := (rfl)
@[simp] theorem onTime_field (f : TimeState → TimeState) (s : State) : (onTime f s).field = s.field := (rfl)
@[simp] theorem onTime_tracks (f : TimeState → TimeState) (s : State) : (onTime f s).tracks = s.tracks := (rfl)
@[simp] theorem onTime_scribe (f : TimeState → TimeState) (s : State) : (onTime f s).scribe = s.scribe := (rfl)
@[simp] theorem onTime_buses (f : TimeState → TimeState) (s : State) : (onTime f s).buses = s.buses := (rfl)
@[simp] theorem onTime_duplex (f : TimeState → TimeState) (s : State) : (onTime f s).duplex = s.duplex := (rfl)
@[simp] theorem onTime_integrity (f : TimeState → TimeState) (s : State) : (onTime f s).integrity = s.integrity := (rfl)
@[simp] theorem onTime_tt (f : TimeState → TimeState) (s : State) : (onTime f s).tt = s.tt := (rfl)
@[simp] theorem onTime_power (f : TimeState → TimeState) (s : State) : (onTime f s).power = s.power := (rfl)

/-! onVd -/

@[simp] theorem onVd_pending (d : Nat) (f : Vd → Vd) (s : State) : (onVd d f s).pending = s.pending := (rfl)
@[simp] theorem onVd_regs (d : Nat) (f : Vd → Vd) (s : State) : (onVd d f s).regs = s.regs := (rfl)
@[simp] theorem onVd_latches (d : Nat) (f : Vd → Vd) (s : State) : (onVd d f s).latches = s.latches := (rfl)
@[simp] theorem onVd_stages (d : Nat) (f : Vd → Vd) (s : State) : (onVd d f s).stages = s.stages := (rfl)
@[simp] theorem onVd_mem (d : Nat) (f : Vd → Vd) (s : State) : (onVd d f s).mem = s.mem := (rfl)
@[simp] theorem onVd_poison (d : Nat) (f : Vd → Vd) (s : State) : (onVd d f s).poison = s.poison := (rfl)
@[simp] theorem onVd_resp (d : Nat) (f : Vd → Vd) (s : State) : (onVd d f s).resp = s.resp := (rfl)
@[simp] theorem onVd_node (d : Nat) (f : Vd → Vd) (s : State) : (onVd d f s).node = s.node := (rfl)
@[simp] theorem onVd_notices (d : Nat) (f : Vd → Vd) (s : State) : (onVd d f s).notices = s.notices := (rfl)
@[simp] theorem onVd_arb (d : Nat) (f : Vd → Vd) (s : State) : (onVd d f s).arb = s.arb := (rfl)
@[simp] theorem onVd_office (d : Nat) (f : Vd → Vd) (s : State) : (onVd d f s).office = s.office := (rfl)
@[simp] theorem onVd_ports (d : Nat) (f : Vd → Vd) (s : State) : (onVd d f s).ports = s.ports := (rfl)
@[simp] theorem onVd_bridge (d : Nat) (f : Vd → Vd) (s : State) : (onVd d f s).bridge = s.bridge := (rfl)
@[simp] theorem onVd_dead (d : Nat) (f : Vd → Vd) (s : State) : (onVd d f s).dead = s.dead := (rfl)
@[simp] theorem onVd_census (d : Nat) (f : Vd → Vd) (s : State) : (onVd d f s).census = s.census := (rfl)
@[simp] theorem onVd_mon (d : Nat) (f : Vd → Vd) (s : State) : (onVd d f s).mon = s.mon := (rfl)
@[simp] theorem onVd_tables (d : Nat) (f : Vd → Vd) (s : State) : (onVd d f s).tables = s.tables := (rfl)
@[simp] theorem onVd_upd (d : Nat) (f : Vd → Vd) (s : State) : (onVd d f s).upd = s.upd := (rfl)
@[simp] theorem onVd_field (d : Nat) (f : Vd → Vd) (s : State) : (onVd d f s).field = s.field := (rfl)
@[simp] theorem onVd_tracks (d : Nat) (f : Vd → Vd) (s : State) : (onVd d f s).tracks = s.tracks := (rfl)
@[simp] theorem onVd_scribe (d : Nat) (f : Vd → Vd) (s : State) : (onVd d f s).scribe = s.scribe := (rfl)
@[simp] theorem onVd_buses (d : Nat) (f : Vd → Vd) (s : State) : (onVd d f s).buses = s.buses := (rfl)
@[simp] theorem onVd_duplex (d : Nat) (f : Vd → Vd) (s : State) : (onVd d f s).duplex = s.duplex := (rfl)
@[simp] theorem onVd_integrity (d : Nat) (f : Vd → Vd) (s : State) : (onVd d f s).integrity = s.integrity := (rfl)
@[simp] theorem onVd_tt (d : Nat) (f : Vd → Vd) (s : State) : (onVd d f s).tt = s.tt := (rfl)
@[simp] theorem onVd_power (d : Nat) (f : Vd → Vd) (s : State) : (onVd d f s).power = s.power := (rfl)

/-! onTracks -/

@[simp] theorem onTracks_pending (f : TrackState → TrackState) (s : State) : (onTracks f s).pending = s.pending := (rfl)
@[simp] theorem onTracks_regs (f : TrackState → TrackState) (s : State) : (onTracks f s).regs = s.regs := (rfl)
@[simp] theorem onTracks_latches (f : TrackState → TrackState) (s : State) : (onTracks f s).latches = s.latches := (rfl)
@[simp] theorem onTracks_stages (f : TrackState → TrackState) (s : State) : (onTracks f s).stages = s.stages := (rfl)
@[simp] theorem onTracks_mem (f : TrackState → TrackState) (s : State) : (onTracks f s).mem = s.mem := (rfl)
@[simp] theorem onTracks_poison (f : TrackState → TrackState) (s : State) : (onTracks f s).poison = s.poison := (rfl)
@[simp] theorem onTracks_resp (f : TrackState → TrackState) (s : State) : (onTracks f s).resp = s.resp := (rfl)
@[simp] theorem onTracks_node (f : TrackState → TrackState) (s : State) : (onTracks f s).node = s.node := (rfl)
@[simp] theorem onTracks_notices (f : TrackState → TrackState) (s : State) : (onTracks f s).notices = s.notices := (rfl)
@[simp] theorem onTracks_arb (f : TrackState → TrackState) (s : State) : (onTracks f s).arb = s.arb := (rfl)
@[simp] theorem onTracks_office (f : TrackState → TrackState) (s : State) : (onTracks f s).office = s.office := (rfl)
@[simp] theorem onTracks_ports (f : TrackState → TrackState) (s : State) : (onTracks f s).ports = s.ports := (rfl)
@[simp] theorem onTracks_bridge (f : TrackState → TrackState) (s : State) : (onTracks f s).bridge = s.bridge := (rfl)
@[simp] theorem onTracks_dead (f : TrackState → TrackState) (s : State) : (onTracks f s).dead = s.dead := (rfl)
@[simp] theorem onTracks_census (f : TrackState → TrackState) (s : State) : (onTracks f s).census = s.census := (rfl)
@[simp] theorem onTracks_mon (f : TrackState → TrackState) (s : State) : (onTracks f s).mon = s.mon := (rfl)
@[simp] theorem onTracks_time (f : TrackState → TrackState) (s : State) : (onTracks f s).time = s.time := (rfl)
@[simp] theorem onTracks_tables (f : TrackState → TrackState) (s : State) : (onTracks f s).tables = s.tables := (rfl)
@[simp] theorem onTracks_upd (f : TrackState → TrackState) (s : State) : (onTracks f s).upd = s.upd := (rfl)
@[simp] theorem onTracks_field (f : TrackState → TrackState) (s : State) : (onTracks f s).field = s.field := (rfl)
@[simp] theorem onTracks_tracks (f : TrackState → TrackState) (s : State) : (onTracks f s).tracks = f s.tracks := (rfl)
@[simp] theorem onTracks_scribe (f : TrackState → TrackState) (s : State) : (onTracks f s).scribe = s.scribe := (rfl)
@[simp] theorem onTracks_buses (f : TrackState → TrackState) (s : State) : (onTracks f s).buses = s.buses := (rfl)
@[simp] theorem onTracks_duplex (f : TrackState → TrackState) (s : State) : (onTracks f s).duplex = s.duplex := (rfl)
@[simp] theorem onTracks_integrity (f : TrackState → TrackState) (s : State) : (onTracks f s).integrity = s.integrity := (rfl)
@[simp] theorem onTracks_tt (f : TrackState → TrackState) (s : State) : (onTracks f s).tt = s.tt := (rfl)
@[simp] theorem onTracks_power (f : TrackState → TrackState) (s : State) : (onTracks f s).power = s.power := (rfl)

/-! onTrack -/

@[simp] theorem onTrack_pending (n : Nat) (f : Track → Track) (s : State) : (onTrack n f s).pending = s.pending := (rfl)
@[simp] theorem onTrack_regs (n : Nat) (f : Track → Track) (s : State) : (onTrack n f s).regs = s.regs := (rfl)
@[simp] theorem onTrack_latches (n : Nat) (f : Track → Track) (s : State) : (onTrack n f s).latches = s.latches := (rfl)
@[simp] theorem onTrack_stages (n : Nat) (f : Track → Track) (s : State) : (onTrack n f s).stages = s.stages := (rfl)
@[simp] theorem onTrack_mem (n : Nat) (f : Track → Track) (s : State) : (onTrack n f s).mem = s.mem := (rfl)
@[simp] theorem onTrack_poison (n : Nat) (f : Track → Track) (s : State) : (onTrack n f s).poison = s.poison := (rfl)
@[simp] theorem onTrack_resp (n : Nat) (f : Track → Track) (s : State) : (onTrack n f s).resp = s.resp := (rfl)
@[simp] theorem onTrack_node (n : Nat) (f : Track → Track) (s : State) : (onTrack n f s).node = s.node := (rfl)
@[simp] theorem onTrack_notices (n : Nat) (f : Track → Track) (s : State) : (onTrack n f s).notices = s.notices := (rfl)
@[simp] theorem onTrack_arb (n : Nat) (f : Track → Track) (s : State) : (onTrack n f s).arb = s.arb := (rfl)
@[simp] theorem onTrack_office (n : Nat) (f : Track → Track) (s : State) : (onTrack n f s).office = s.office := (rfl)
@[simp] theorem onTrack_ports (n : Nat) (f : Track → Track) (s : State) : (onTrack n f s).ports = s.ports := (rfl)
@[simp] theorem onTrack_bridge (n : Nat) (f : Track → Track) (s : State) : (onTrack n f s).bridge = s.bridge := (rfl)
@[simp] theorem onTrack_dead (n : Nat) (f : Track → Track) (s : State) : (onTrack n f s).dead = s.dead := (rfl)
@[simp] theorem onTrack_census (n : Nat) (f : Track → Track) (s : State) : (onTrack n f s).census = s.census := (rfl)
@[simp] theorem onTrack_mon (n : Nat) (f : Track → Track) (s : State) : (onTrack n f s).mon = s.mon := (rfl)
@[simp] theorem onTrack_time (n : Nat) (f : Track → Track) (s : State) : (onTrack n f s).time = s.time := (rfl)
@[simp] theorem onTrack_tables (n : Nat) (f : Track → Track) (s : State) : (onTrack n f s).tables = s.tables := (rfl)
@[simp] theorem onTrack_upd (n : Nat) (f : Track → Track) (s : State) : (onTrack n f s).upd = s.upd := (rfl)
@[simp] theorem onTrack_field (n : Nat) (f : Track → Track) (s : State) : (onTrack n f s).field = s.field := (rfl)
@[simp] theorem onTrack_scribe (n : Nat) (f : Track → Track) (s : State) : (onTrack n f s).scribe = s.scribe := (rfl)
@[simp] theorem onTrack_buses (n : Nat) (f : Track → Track) (s : State) : (onTrack n f s).buses = s.buses := (rfl)
@[simp] theorem onTrack_duplex (n : Nat) (f : Track → Track) (s : State) : (onTrack n f s).duplex = s.duplex := (rfl)
@[simp] theorem onTrack_integrity (n : Nat) (f : Track → Track) (s : State) : (onTrack n f s).integrity = s.integrity := (rfl)
@[simp] theorem onTrack_tt (n : Nat) (f : Track → Track) (s : State) : (onTrack n f s).tt = s.tt := (rfl)
@[simp] theorem onTrack_power (n : Nat) (f : Track → Track) (s : State) : (onTrack n f s).power = s.power := (rfl)

/-! onTt -/

@[simp] theorem onTt_pending (f : TtState → TtState) (s : State) : (onTt f s).pending = s.pending := (rfl)
@[simp] theorem onTt_regs (f : TtState → TtState) (s : State) : (onTt f s).regs = s.regs := (rfl)
@[simp] theorem onTt_latches (f : TtState → TtState) (s : State) : (onTt f s).latches = s.latches := (rfl)
@[simp] theorem onTt_stages (f : TtState → TtState) (s : State) : (onTt f s).stages = s.stages := (rfl)
@[simp] theorem onTt_mem (f : TtState → TtState) (s : State) : (onTt f s).mem = s.mem := (rfl)
@[simp] theorem onTt_poison (f : TtState → TtState) (s : State) : (onTt f s).poison = s.poison := (rfl)
@[simp] theorem onTt_resp (f : TtState → TtState) (s : State) : (onTt f s).resp = s.resp := (rfl)
@[simp] theorem onTt_node (f : TtState → TtState) (s : State) : (onTt f s).node = s.node := (rfl)
@[simp] theorem onTt_notices (f : TtState → TtState) (s : State) : (onTt f s).notices = s.notices := (rfl)
@[simp] theorem onTt_arb (f : TtState → TtState) (s : State) : (onTt f s).arb = s.arb := (rfl)
@[simp] theorem onTt_office (f : TtState → TtState) (s : State) : (onTt f s).office = s.office := (rfl)
@[simp] theorem onTt_ports (f : TtState → TtState) (s : State) : (onTt f s).ports = s.ports := (rfl)
@[simp] theorem onTt_bridge (f : TtState → TtState) (s : State) : (onTt f s).bridge = s.bridge := (rfl)
@[simp] theorem onTt_dead (f : TtState → TtState) (s : State) : (onTt f s).dead = s.dead := (rfl)
@[simp] theorem onTt_census (f : TtState → TtState) (s : State) : (onTt f s).census = s.census := (rfl)
@[simp] theorem onTt_mon (f : TtState → TtState) (s : State) : (onTt f s).mon = s.mon := (rfl)
@[simp] theorem onTt_time (f : TtState → TtState) (s : State) : (onTt f s).time = s.time := (rfl)
@[simp] theorem onTt_tables (f : TtState → TtState) (s : State) : (onTt f s).tables = s.tables := (rfl)
@[simp] theorem onTt_upd (f : TtState → TtState) (s : State) : (onTt f s).upd = s.upd := (rfl)
@[simp] theorem onTt_field (f : TtState → TtState) (s : State) : (onTt f s).field = s.field := (rfl)
@[simp] theorem onTt_tracks (f : TtState → TtState) (s : State) : (onTt f s).tracks = s.tracks := (rfl)
@[simp] theorem onTt_scribe (f : TtState → TtState) (s : State) : (onTt f s).scribe = s.scribe := (rfl)
@[simp] theorem onTt_buses (f : TtState → TtState) (s : State) : (onTt f s).buses = s.buses := (rfl)
@[simp] theorem onTt_duplex (f : TtState → TtState) (s : State) : (onTt f s).duplex = s.duplex := (rfl)
@[simp] theorem onTt_integrity (f : TtState → TtState) (s : State) : (onTt f s).integrity = s.integrity := (rfl)
@[simp] theorem onTt_tt (f : TtState → TtState) (s : State) : (onTt f s).tt = f s.tt := (rfl)
@[simp] theorem onTt_power (f : TtState → TtState) (s : State) : (onTt f s).power = s.power := (rfl)

/-! onField -/

@[simp] theorem onField_pending (f : FieldState → FieldState) (s : State) : (onField f s).pending = s.pending := (rfl)
@[simp] theorem onField_regs (f : FieldState → FieldState) (s : State) : (onField f s).regs = s.regs := (rfl)
@[simp] theorem onField_latches (f : FieldState → FieldState) (s : State) : (onField f s).latches = s.latches := (rfl)
@[simp] theorem onField_stages (f : FieldState → FieldState) (s : State) : (onField f s).stages = s.stages := (rfl)
@[simp] theorem onField_mem (f : FieldState → FieldState) (s : State) : (onField f s).mem = s.mem := (rfl)
@[simp] theorem onField_poison (f : FieldState → FieldState) (s : State) : (onField f s).poison = s.poison := (rfl)
@[simp] theorem onField_resp (f : FieldState → FieldState) (s : State) : (onField f s).resp = s.resp := (rfl)
@[simp] theorem onField_node (f : FieldState → FieldState) (s : State) : (onField f s).node = s.node := (rfl)
@[simp] theorem onField_notices (f : FieldState → FieldState) (s : State) : (onField f s).notices = s.notices := (rfl)
@[simp] theorem onField_arb (f : FieldState → FieldState) (s : State) : (onField f s).arb = s.arb := (rfl)
@[simp] theorem onField_office (f : FieldState → FieldState) (s : State) : (onField f s).office = s.office := (rfl)
@[simp] theorem onField_ports (f : FieldState → FieldState) (s : State) : (onField f s).ports = s.ports := (rfl)
@[simp] theorem onField_bridge (f : FieldState → FieldState) (s : State) : (onField f s).bridge = s.bridge := (rfl)
@[simp] theorem onField_dead (f : FieldState → FieldState) (s : State) : (onField f s).dead = s.dead := (rfl)
@[simp] theorem onField_census (f : FieldState → FieldState) (s : State) : (onField f s).census = s.census := (rfl)
@[simp] theorem onField_mon (f : FieldState → FieldState) (s : State) : (onField f s).mon = s.mon := (rfl)
@[simp] theorem onField_time (f : FieldState → FieldState) (s : State) : (onField f s).time = s.time := (rfl)
@[simp] theorem onField_tables (f : FieldState → FieldState) (s : State) : (onField f s).tables = s.tables := (rfl)
@[simp] theorem onField_upd (f : FieldState → FieldState) (s : State) : (onField f s).upd = s.upd := (rfl)
@[simp] theorem onField_field (f : FieldState → FieldState) (s : State) : (onField f s).field = f s.field := (rfl)
@[simp] theorem onField_tracks (f : FieldState → FieldState) (s : State) : (onField f s).tracks = s.tracks := (rfl)
@[simp] theorem onField_scribe (f : FieldState → FieldState) (s : State) : (onField f s).scribe = s.scribe := (rfl)
@[simp] theorem onField_buses (f : FieldState → FieldState) (s : State) : (onField f s).buses = s.buses := (rfl)
@[simp] theorem onField_duplex (f : FieldState → FieldState) (s : State) : (onField f s).duplex = s.duplex := (rfl)
@[simp] theorem onField_integrity (f : FieldState → FieldState) (s : State) : (onField f s).integrity = s.integrity := (rfl)
@[simp] theorem onField_tt (f : FieldState → FieldState) (s : State) : (onField f s).tt = s.tt := (rfl)
@[simp] theorem onField_power (f : FieldState → FieldState) (s : State) : (onField f s).power = s.power := (rfl)

/-! onBank -/

@[simp] theorem onBank_pending (b : Nat) (f : Bank → Bank) (s : State) : (onBank b f s).pending = s.pending := (rfl)
@[simp] theorem onBank_regs (b : Nat) (f : Bank → Bank) (s : State) : (onBank b f s).regs = s.regs := (rfl)
@[simp] theorem onBank_latches (b : Nat) (f : Bank → Bank) (s : State) : (onBank b f s).latches = s.latches := (rfl)
@[simp] theorem onBank_stages (b : Nat) (f : Bank → Bank) (s : State) : (onBank b f s).stages = s.stages := (rfl)
@[simp] theorem onBank_mem (b : Nat) (f : Bank → Bank) (s : State) : (onBank b f s).mem = s.mem := (rfl)
@[simp] theorem onBank_poison (b : Nat) (f : Bank → Bank) (s : State) : (onBank b f s).poison = s.poison := (rfl)
@[simp] theorem onBank_resp (b : Nat) (f : Bank → Bank) (s : State) : (onBank b f s).resp = s.resp := (rfl)
@[simp] theorem onBank_node (b : Nat) (f : Bank → Bank) (s : State) : (onBank b f s).node = s.node := (rfl)
@[simp] theorem onBank_notices (b : Nat) (f : Bank → Bank) (s : State) : (onBank b f s).notices = s.notices := (rfl)
@[simp] theorem onBank_arb (b : Nat) (f : Bank → Bank) (s : State) : (onBank b f s).arb = s.arb := (rfl)
@[simp] theorem onBank_office (b : Nat) (f : Bank → Bank) (s : State) : (onBank b f s).office = s.office := (rfl)
@[simp] theorem onBank_ports (b : Nat) (f : Bank → Bank) (s : State) : (onBank b f s).ports = s.ports := (rfl)
@[simp] theorem onBank_bridge (b : Nat) (f : Bank → Bank) (s : State) : (onBank b f s).bridge = s.bridge := (rfl)
@[simp] theorem onBank_dead (b : Nat) (f : Bank → Bank) (s : State) : (onBank b f s).dead = s.dead := (rfl)
@[simp] theorem onBank_census (b : Nat) (f : Bank → Bank) (s : State) : (onBank b f s).census = s.census := (rfl)
@[simp] theorem onBank_mon (b : Nat) (f : Bank → Bank) (s : State) : (onBank b f s).mon = s.mon := (rfl)
@[simp] theorem onBank_time (b : Nat) (f : Bank → Bank) (s : State) : (onBank b f s).time = s.time := (rfl)
@[simp] theorem onBank_tables (b : Nat) (f : Bank → Bank) (s : State) : (onBank b f s).tables = s.tables := (rfl)
@[simp] theorem onBank_upd (b : Nat) (f : Bank → Bank) (s : State) : (onBank b f s).upd = s.upd := (rfl)
@[simp] theorem onBank_tracks (b : Nat) (f : Bank → Bank) (s : State) : (onBank b f s).tracks = s.tracks := (rfl)
@[simp] theorem onBank_scribe (b : Nat) (f : Bank → Bank) (s : State) : (onBank b f s).scribe = s.scribe := (rfl)
@[simp] theorem onBank_buses (b : Nat) (f : Bank → Bank) (s : State) : (onBank b f s).buses = s.buses := (rfl)
@[simp] theorem onBank_duplex (b : Nat) (f : Bank → Bank) (s : State) : (onBank b f s).duplex = s.duplex := (rfl)
@[simp] theorem onBank_integrity (b : Nat) (f : Bank → Bank) (s : State) : (onBank b f s).integrity = s.integrity := (rfl)
@[simp] theorem onBank_tt (b : Nat) (f : Bank → Bank) (s : State) : (onBank b f s).tt = s.tt := (rfl)
@[simp] theorem onBank_power (b : Nat) (f : Bank → Bank) (s : State) : (onBank b f s).power = s.power := (rfl)

/-! onPin -/

@[simp] theorem onPin_pending (p : Nat) (f : Pin → Pin) (s : State) : (onPin p f s).pending = s.pending := (rfl)
@[simp] theorem onPin_regs (p : Nat) (f : Pin → Pin) (s : State) : (onPin p f s).regs = s.regs := (rfl)
@[simp] theorem onPin_latches (p : Nat) (f : Pin → Pin) (s : State) : (onPin p f s).latches = s.latches := (rfl)
@[simp] theorem onPin_stages (p : Nat) (f : Pin → Pin) (s : State) : (onPin p f s).stages = s.stages := (rfl)
@[simp] theorem onPin_mem (p : Nat) (f : Pin → Pin) (s : State) : (onPin p f s).mem = s.mem := (rfl)
@[simp] theorem onPin_poison (p : Nat) (f : Pin → Pin) (s : State) : (onPin p f s).poison = s.poison := (rfl)
@[simp] theorem onPin_resp (p : Nat) (f : Pin → Pin) (s : State) : (onPin p f s).resp = s.resp := (rfl)
@[simp] theorem onPin_node (p : Nat) (f : Pin → Pin) (s : State) : (onPin p f s).node = s.node := (rfl)
@[simp] theorem onPin_notices (p : Nat) (f : Pin → Pin) (s : State) : (onPin p f s).notices = s.notices := (rfl)
@[simp] theorem onPin_arb (p : Nat) (f : Pin → Pin) (s : State) : (onPin p f s).arb = s.arb := (rfl)
@[simp] theorem onPin_office (p : Nat) (f : Pin → Pin) (s : State) : (onPin p f s).office = s.office := (rfl)
@[simp] theorem onPin_ports (p : Nat) (f : Pin → Pin) (s : State) : (onPin p f s).ports = s.ports := (rfl)
@[simp] theorem onPin_bridge (p : Nat) (f : Pin → Pin) (s : State) : (onPin p f s).bridge = s.bridge := (rfl)
@[simp] theorem onPin_dead (p : Nat) (f : Pin → Pin) (s : State) : (onPin p f s).dead = s.dead := (rfl)
@[simp] theorem onPin_census (p : Nat) (f : Pin → Pin) (s : State) : (onPin p f s).census = s.census := (rfl)
@[simp] theorem onPin_mon (p : Nat) (f : Pin → Pin) (s : State) : (onPin p f s).mon = s.mon := (rfl)
@[simp] theorem onPin_time (p : Nat) (f : Pin → Pin) (s : State) : (onPin p f s).time = s.time := (rfl)
@[simp] theorem onPin_tables (p : Nat) (f : Pin → Pin) (s : State) : (onPin p f s).tables = s.tables := (rfl)
@[simp] theorem onPin_upd (p : Nat) (f : Pin → Pin) (s : State) : (onPin p f s).upd = s.upd := (rfl)
@[simp] theorem onPin_tracks (p : Nat) (f : Pin → Pin) (s : State) : (onPin p f s).tracks = s.tracks := (rfl)
@[simp] theorem onPin_scribe (p : Nat) (f : Pin → Pin) (s : State) : (onPin p f s).scribe = s.scribe := (rfl)
@[simp] theorem onPin_buses (p : Nat) (f : Pin → Pin) (s : State) : (onPin p f s).buses = s.buses := (rfl)
@[simp] theorem onPin_duplex (p : Nat) (f : Pin → Pin) (s : State) : (onPin p f s).duplex = s.duplex := (rfl)
@[simp] theorem onPin_integrity (p : Nat) (f : Pin → Pin) (s : State) : (onPin p f s).integrity = s.integrity := (rfl)
@[simp] theorem onPin_tt (p : Nat) (f : Pin → Pin) (s : State) : (onPin p f s).tt = s.tt := (rfl)
@[simp] theorem onPin_power (p : Nat) (f : Pin → Pin) (s : State) : (onPin p f s).power = s.power := (rfl)

/-! onScribe -/

@[simp] theorem onScribe_pending (f : ScribeState → ScribeState) (s : State) : (onScribe f s).pending = s.pending := (rfl)
@[simp] theorem onScribe_regs (f : ScribeState → ScribeState) (s : State) : (onScribe f s).regs = s.regs := (rfl)
@[simp] theorem onScribe_latches (f : ScribeState → ScribeState) (s : State) : (onScribe f s).latches = s.latches := (rfl)
@[simp] theorem onScribe_stages (f : ScribeState → ScribeState) (s : State) : (onScribe f s).stages = s.stages := (rfl)
@[simp] theorem onScribe_mem (f : ScribeState → ScribeState) (s : State) : (onScribe f s).mem = s.mem := (rfl)
@[simp] theorem onScribe_poison (f : ScribeState → ScribeState) (s : State) : (onScribe f s).poison = s.poison := (rfl)
@[simp] theorem onScribe_resp (f : ScribeState → ScribeState) (s : State) : (onScribe f s).resp = s.resp := (rfl)
@[simp] theorem onScribe_node (f : ScribeState → ScribeState) (s : State) : (onScribe f s).node = s.node := (rfl)
@[simp] theorem onScribe_notices (f : ScribeState → ScribeState) (s : State) : (onScribe f s).notices = s.notices := (rfl)
@[simp] theorem onScribe_arb (f : ScribeState → ScribeState) (s : State) : (onScribe f s).arb = s.arb := (rfl)
@[simp] theorem onScribe_office (f : ScribeState → ScribeState) (s : State) : (onScribe f s).office = s.office := (rfl)
@[simp] theorem onScribe_ports (f : ScribeState → ScribeState) (s : State) : (onScribe f s).ports = s.ports := (rfl)
@[simp] theorem onScribe_bridge (f : ScribeState → ScribeState) (s : State) : (onScribe f s).bridge = s.bridge := (rfl)
@[simp] theorem onScribe_dead (f : ScribeState → ScribeState) (s : State) : (onScribe f s).dead = s.dead := (rfl)
@[simp] theorem onScribe_census (f : ScribeState → ScribeState) (s : State) : (onScribe f s).census = s.census := (rfl)
@[simp] theorem onScribe_mon (f : ScribeState → ScribeState) (s : State) : (onScribe f s).mon = s.mon := (rfl)
@[simp] theorem onScribe_time (f : ScribeState → ScribeState) (s : State) : (onScribe f s).time = s.time := (rfl)
@[simp] theorem onScribe_tables (f : ScribeState → ScribeState) (s : State) : (onScribe f s).tables = s.tables := (rfl)
@[simp] theorem onScribe_upd (f : ScribeState → ScribeState) (s : State) : (onScribe f s).upd = s.upd := (rfl)
@[simp] theorem onScribe_field (f : ScribeState → ScribeState) (s : State) : (onScribe f s).field = s.field := (rfl)
@[simp] theorem onScribe_tracks (f : ScribeState → ScribeState) (s : State) : (onScribe f s).tracks = s.tracks := (rfl)
@[simp] theorem onScribe_scribe (f : ScribeState → ScribeState) (s : State) : (onScribe f s).scribe = f s.scribe := (rfl)
@[simp] theorem onScribe_buses (f : ScribeState → ScribeState) (s : State) : (onScribe f s).buses = s.buses := (rfl)
@[simp] theorem onScribe_duplex (f : ScribeState → ScribeState) (s : State) : (onScribe f s).duplex = s.duplex := (rfl)
@[simp] theorem onScribe_integrity (f : ScribeState → ScribeState) (s : State) : (onScribe f s).integrity = s.integrity := (rfl)
@[simp] theorem onScribe_tt (f : ScribeState → ScribeState) (s : State) : (onScribe f s).tt = s.tt := (rfl)
@[simp] theorem onScribe_power (f : ScribeState → ScribeState) (s : State) : (onScribe f s).power = s.power := (rfl)

/-! onEng -/

@[simp] theorem onEng_pending (n : Nat) (f : Engine → Engine) (s : State) : (onEng n f s).pending = s.pending := (rfl)
@[simp] theorem onEng_regs (n : Nat) (f : Engine → Engine) (s : State) : (onEng n f s).regs = s.regs := (rfl)
@[simp] theorem onEng_latches (n : Nat) (f : Engine → Engine) (s : State) : (onEng n f s).latches = s.latches := (rfl)
@[simp] theorem onEng_stages (n : Nat) (f : Engine → Engine) (s : State) : (onEng n f s).stages = s.stages := (rfl)
@[simp] theorem onEng_mem (n : Nat) (f : Engine → Engine) (s : State) : (onEng n f s).mem = s.mem := (rfl)
@[simp] theorem onEng_poison (n : Nat) (f : Engine → Engine) (s : State) : (onEng n f s).poison = s.poison := (rfl)
@[simp] theorem onEng_resp (n : Nat) (f : Engine → Engine) (s : State) : (onEng n f s).resp = s.resp := (rfl)
@[simp] theorem onEng_node (n : Nat) (f : Engine → Engine) (s : State) : (onEng n f s).node = s.node := (rfl)
@[simp] theorem onEng_notices (n : Nat) (f : Engine → Engine) (s : State) : (onEng n f s).notices = s.notices := (rfl)
@[simp] theorem onEng_arb (n : Nat) (f : Engine → Engine) (s : State) : (onEng n f s).arb = s.arb := (rfl)
@[simp] theorem onEng_office (n : Nat) (f : Engine → Engine) (s : State) : (onEng n f s).office = s.office := (rfl)
@[simp] theorem onEng_ports (n : Nat) (f : Engine → Engine) (s : State) : (onEng n f s).ports = s.ports := (rfl)
@[simp] theorem onEng_bridge (n : Nat) (f : Engine → Engine) (s : State) : (onEng n f s).bridge = s.bridge := (rfl)
@[simp] theorem onEng_dead (n : Nat) (f : Engine → Engine) (s : State) : (onEng n f s).dead = s.dead := (rfl)
@[simp] theorem onEng_census (n : Nat) (f : Engine → Engine) (s : State) : (onEng n f s).census = s.census := (rfl)
@[simp] theorem onEng_mon (n : Nat) (f : Engine → Engine) (s : State) : (onEng n f s).mon = s.mon := (rfl)
@[simp] theorem onEng_time (n : Nat) (f : Engine → Engine) (s : State) : (onEng n f s).time = s.time := (rfl)
@[simp] theorem onEng_tables (n : Nat) (f : Engine → Engine) (s : State) : (onEng n f s).tables = s.tables := (rfl)
@[simp] theorem onEng_upd (n : Nat) (f : Engine → Engine) (s : State) : (onEng n f s).upd = s.upd := (rfl)
@[simp] theorem onEng_field (n : Nat) (f : Engine → Engine) (s : State) : (onEng n f s).field = s.field := (rfl)
@[simp] theorem onEng_tracks (n : Nat) (f : Engine → Engine) (s : State) : (onEng n f s).tracks = s.tracks := (rfl)
@[simp] theorem onEng_buses (n : Nat) (f : Engine → Engine) (s : State) : (onEng n f s).buses = s.buses := (rfl)
@[simp] theorem onEng_duplex (n : Nat) (f : Engine → Engine) (s : State) : (onEng n f s).duplex = s.duplex := (rfl)
@[simp] theorem onEng_integrity (n : Nat) (f : Engine → Engine) (s : State) : (onEng n f s).integrity = s.integrity := (rfl)
@[simp] theorem onEng_tt (n : Nat) (f : Engine → Engine) (s : State) : (onEng n f s).tt = s.tt := (rfl)
@[simp] theorem onEng_power (n : Nat) (f : Engine → Engine) (s : State) : (onEng n f s).power = s.power := (rfl)

/-! onBuses -/

@[simp] theorem onBuses_pending (f : BusState → BusState) (s : State) : (onBuses f s).pending = s.pending := (rfl)
@[simp] theorem onBuses_regs (f : BusState → BusState) (s : State) : (onBuses f s).regs = s.regs := (rfl)
@[simp] theorem onBuses_latches (f : BusState → BusState) (s : State) : (onBuses f s).latches = s.latches := (rfl)
@[simp] theorem onBuses_stages (f : BusState → BusState) (s : State) : (onBuses f s).stages = s.stages := (rfl)
@[simp] theorem onBuses_mem (f : BusState → BusState) (s : State) : (onBuses f s).mem = s.mem := (rfl)
@[simp] theorem onBuses_poison (f : BusState → BusState) (s : State) : (onBuses f s).poison = s.poison := (rfl)
@[simp] theorem onBuses_resp (f : BusState → BusState) (s : State) : (onBuses f s).resp = s.resp := (rfl)
@[simp] theorem onBuses_node (f : BusState → BusState) (s : State) : (onBuses f s).node = s.node := (rfl)
@[simp] theorem onBuses_notices (f : BusState → BusState) (s : State) : (onBuses f s).notices = s.notices := (rfl)
@[simp] theorem onBuses_arb (f : BusState → BusState) (s : State) : (onBuses f s).arb = s.arb := (rfl)
@[simp] theorem onBuses_office (f : BusState → BusState) (s : State) : (onBuses f s).office = s.office := (rfl)
@[simp] theorem onBuses_ports (f : BusState → BusState) (s : State) : (onBuses f s).ports = s.ports := (rfl)
@[simp] theorem onBuses_bridge (f : BusState → BusState) (s : State) : (onBuses f s).bridge = s.bridge := (rfl)
@[simp] theorem onBuses_dead (f : BusState → BusState) (s : State) : (onBuses f s).dead = s.dead := (rfl)
@[simp] theorem onBuses_census (f : BusState → BusState) (s : State) : (onBuses f s).census = s.census := (rfl)
@[simp] theorem onBuses_mon (f : BusState → BusState) (s : State) : (onBuses f s).mon = s.mon := (rfl)
@[simp] theorem onBuses_time (f : BusState → BusState) (s : State) : (onBuses f s).time = s.time := (rfl)
@[simp] theorem onBuses_tables (f : BusState → BusState) (s : State) : (onBuses f s).tables = s.tables := (rfl)
@[simp] theorem onBuses_upd (f : BusState → BusState) (s : State) : (onBuses f s).upd = s.upd := (rfl)
@[simp] theorem onBuses_field (f : BusState → BusState) (s : State) : (onBuses f s).field = s.field := (rfl)
@[simp] theorem onBuses_tracks (f : BusState → BusState) (s : State) : (onBuses f s).tracks = s.tracks := (rfl)
@[simp] theorem onBuses_scribe (f : BusState → BusState) (s : State) : (onBuses f s).scribe = s.scribe := (rfl)
@[simp] theorem onBuses_buses (f : BusState → BusState) (s : State) : (onBuses f s).buses = f s.buses := (rfl)
@[simp] theorem onBuses_duplex (f : BusState → BusState) (s : State) : (onBuses f s).duplex = s.duplex := (rfl)
@[simp] theorem onBuses_integrity (f : BusState → BusState) (s : State) : (onBuses f s).integrity = s.integrity := (rfl)
@[simp] theorem onBuses_tt (f : BusState → BusState) (s : State) : (onBuses f s).tt = s.tt := (rfl)
@[simp] theorem onBuses_power (f : BusState → BusState) (s : State) : (onBuses f s).power = s.power := (rfl)

/-! onMb -/

@[simp] theorem onMb_pending (m : Nat) (f : Mb → Mb) (s : State) : (onMb m f s).pending = s.pending := (rfl)
@[simp] theorem onMb_regs (m : Nat) (f : Mb → Mb) (s : State) : (onMb m f s).regs = s.regs := (rfl)
@[simp] theorem onMb_latches (m : Nat) (f : Mb → Mb) (s : State) : (onMb m f s).latches = s.latches := (rfl)
@[simp] theorem onMb_stages (m : Nat) (f : Mb → Mb) (s : State) : (onMb m f s).stages = s.stages := (rfl)
@[simp] theorem onMb_mem (m : Nat) (f : Mb → Mb) (s : State) : (onMb m f s).mem = s.mem := (rfl)
@[simp] theorem onMb_poison (m : Nat) (f : Mb → Mb) (s : State) : (onMb m f s).poison = s.poison := (rfl)
@[simp] theorem onMb_resp (m : Nat) (f : Mb → Mb) (s : State) : (onMb m f s).resp = s.resp := (rfl)
@[simp] theorem onMb_node (m : Nat) (f : Mb → Mb) (s : State) : (onMb m f s).node = s.node := (rfl)
@[simp] theorem onMb_notices (m : Nat) (f : Mb → Mb) (s : State) : (onMb m f s).notices = s.notices := (rfl)
@[simp] theorem onMb_arb (m : Nat) (f : Mb → Mb) (s : State) : (onMb m f s).arb = s.arb := (rfl)
@[simp] theorem onMb_office (m : Nat) (f : Mb → Mb) (s : State) : (onMb m f s).office = s.office := (rfl)
@[simp] theorem onMb_ports (m : Nat) (f : Mb → Mb) (s : State) : (onMb m f s).ports = s.ports := (rfl)
@[simp] theorem onMb_bridge (m : Nat) (f : Mb → Mb) (s : State) : (onMb m f s).bridge = s.bridge := (rfl)
@[simp] theorem onMb_dead (m : Nat) (f : Mb → Mb) (s : State) : (onMb m f s).dead = s.dead := (rfl)
@[simp] theorem onMb_census (m : Nat) (f : Mb → Mb) (s : State) : (onMb m f s).census = s.census := (rfl)
@[simp] theorem onMb_mon (m : Nat) (f : Mb → Mb) (s : State) : (onMb m f s).mon = s.mon := (rfl)
@[simp] theorem onMb_time (m : Nat) (f : Mb → Mb) (s : State) : (onMb m f s).time = s.time := (rfl)
@[simp] theorem onMb_tables (m : Nat) (f : Mb → Mb) (s : State) : (onMb m f s).tables = s.tables := (rfl)
@[simp] theorem onMb_upd (m : Nat) (f : Mb → Mb) (s : State) : (onMb m f s).upd = s.upd := (rfl)
@[simp] theorem onMb_field (m : Nat) (f : Mb → Mb) (s : State) : (onMb m f s).field = s.field := (rfl)
@[simp] theorem onMb_tracks (m : Nat) (f : Mb → Mb) (s : State) : (onMb m f s).tracks = s.tracks := (rfl)
@[simp] theorem onMb_scribe (m : Nat) (f : Mb → Mb) (s : State) : (onMb m f s).scribe = s.scribe := (rfl)
@[simp] theorem onMb_duplex (m : Nat) (f : Mb → Mb) (s : State) : (onMb m f s).duplex = s.duplex := (rfl)
@[simp] theorem onMb_integrity (m : Nat) (f : Mb → Mb) (s : State) : (onMb m f s).integrity = s.integrity := (rfl)
@[simp] theorem onMb_tt (m : Nat) (f : Mb → Mb) (s : State) : (onMb m f s).tt = s.tt := (rfl)
@[simp] theorem onMb_power (m : Nat) (f : Mb → Mb) (s : State) : (onMb m f s).power = s.power := (rfl)

/-! onUart -/

@[simp] theorem onUart_pending (u : Nat) (f : Uart → Uart) (s : State) : (onUart u f s).pending = s.pending := (rfl)
@[simp] theorem onUart_regs (u : Nat) (f : Uart → Uart) (s : State) : (onUart u f s).regs = s.regs := (rfl)
@[simp] theorem onUart_latches (u : Nat) (f : Uart → Uart) (s : State) : (onUart u f s).latches = s.latches := (rfl)
@[simp] theorem onUart_stages (u : Nat) (f : Uart → Uart) (s : State) : (onUart u f s).stages = s.stages := (rfl)
@[simp] theorem onUart_mem (u : Nat) (f : Uart → Uart) (s : State) : (onUart u f s).mem = s.mem := (rfl)
@[simp] theorem onUart_poison (u : Nat) (f : Uart → Uart) (s : State) : (onUart u f s).poison = s.poison := (rfl)
@[simp] theorem onUart_resp (u : Nat) (f : Uart → Uart) (s : State) : (onUart u f s).resp = s.resp := (rfl)
@[simp] theorem onUart_node (u : Nat) (f : Uart → Uart) (s : State) : (onUart u f s).node = s.node := (rfl)
@[simp] theorem onUart_notices (u : Nat) (f : Uart → Uart) (s : State) : (onUart u f s).notices = s.notices := (rfl)
@[simp] theorem onUart_arb (u : Nat) (f : Uart → Uart) (s : State) : (onUart u f s).arb = s.arb := (rfl)
@[simp] theorem onUart_office (u : Nat) (f : Uart → Uart) (s : State) : (onUart u f s).office = s.office := (rfl)
@[simp] theorem onUart_ports (u : Nat) (f : Uart → Uart) (s : State) : (onUart u f s).ports = s.ports := (rfl)
@[simp] theorem onUart_bridge (u : Nat) (f : Uart → Uart) (s : State) : (onUart u f s).bridge = s.bridge := (rfl)
@[simp] theorem onUart_dead (u : Nat) (f : Uart → Uart) (s : State) : (onUart u f s).dead = s.dead := (rfl)
@[simp] theorem onUart_census (u : Nat) (f : Uart → Uart) (s : State) : (onUart u f s).census = s.census := (rfl)
@[simp] theorem onUart_mon (u : Nat) (f : Uart → Uart) (s : State) : (onUart u f s).mon = s.mon := (rfl)
@[simp] theorem onUart_time (u : Nat) (f : Uart → Uart) (s : State) : (onUart u f s).time = s.time := (rfl)
@[simp] theorem onUart_tables (u : Nat) (f : Uart → Uart) (s : State) : (onUart u f s).tables = s.tables := (rfl)
@[simp] theorem onUart_upd (u : Nat) (f : Uart → Uart) (s : State) : (onUart u f s).upd = s.upd := (rfl)
@[simp] theorem onUart_tracks (u : Nat) (f : Uart → Uart) (s : State) : (onUart u f s).tracks = s.tracks := (rfl)
@[simp] theorem onUart_scribe (u : Nat) (f : Uart → Uart) (s : State) : (onUart u f s).scribe = s.scribe := (rfl)
@[simp] theorem onUart_buses (u : Nat) (f : Uart → Uart) (s : State) : (onUart u f s).buses = s.buses := (rfl)
@[simp] theorem onUart_duplex (u : Nat) (f : Uart → Uart) (s : State) : (onUart u f s).duplex = s.duplex := (rfl)
@[simp] theorem onUart_integrity (u : Nat) (f : Uart → Uart) (s : State) : (onUart u f s).integrity = s.integrity := (rfl)
@[simp] theorem onUart_tt (u : Nat) (f : Uart → Uart) (s : State) : (onUart u f s).tt = s.tt := (rfl)
@[simp] theorem onUart_power (u : Nat) (f : Uart → Uart) (s : State) : (onUart u f s).power = s.power := (rfl)

/-! onMains -/

@[simp] theorem onMains_pending (i : Nat) (f : Mains → Mains) (s : State) : (onMains i f s).pending = s.pending := (rfl)
@[simp] theorem onMains_regs (i : Nat) (f : Mains → Mains) (s : State) : (onMains i f s).regs = s.regs := (rfl)
@[simp] theorem onMains_latches (i : Nat) (f : Mains → Mains) (s : State) : (onMains i f s).latches = s.latches := (rfl)
@[simp] theorem onMains_stages (i : Nat) (f : Mains → Mains) (s : State) : (onMains i f s).stages = s.stages := (rfl)
@[simp] theorem onMains_mem (i : Nat) (f : Mains → Mains) (s : State) : (onMains i f s).mem = s.mem := (rfl)
@[simp] theorem onMains_poison (i : Nat) (f : Mains → Mains) (s : State) : (onMains i f s).poison = s.poison := (rfl)
@[simp] theorem onMains_resp (i : Nat) (f : Mains → Mains) (s : State) : (onMains i f s).resp = s.resp := (rfl)
@[simp] theorem onMains_node (i : Nat) (f : Mains → Mains) (s : State) : (onMains i f s).node = s.node := (rfl)
@[simp] theorem onMains_notices (i : Nat) (f : Mains → Mains) (s : State) : (onMains i f s).notices = s.notices := (rfl)
@[simp] theorem onMains_arb (i : Nat) (f : Mains → Mains) (s : State) : (onMains i f s).arb = s.arb := (rfl)
@[simp] theorem onMains_office (i : Nat) (f : Mains → Mains) (s : State) : (onMains i f s).office = s.office := (rfl)
@[simp] theorem onMains_ports (i : Nat) (f : Mains → Mains) (s : State) : (onMains i f s).ports = s.ports := (rfl)
@[simp] theorem onMains_bridge (i : Nat) (f : Mains → Mains) (s : State) : (onMains i f s).bridge = s.bridge := (rfl)
@[simp] theorem onMains_dead (i : Nat) (f : Mains → Mains) (s : State) : (onMains i f s).dead = s.dead := (rfl)
@[simp] theorem onMains_census (i : Nat) (f : Mains → Mains) (s : State) : (onMains i f s).census = s.census := (rfl)
@[simp] theorem onMains_mon (i : Nat) (f : Mains → Mains) (s : State) : (onMains i f s).mon = s.mon := (rfl)
@[simp] theorem onMains_time (i : Nat) (f : Mains → Mains) (s : State) : (onMains i f s).time = s.time := (rfl)
@[simp] theorem onMains_tables (i : Nat) (f : Mains → Mains) (s : State) : (onMains i f s).tables = s.tables := (rfl)
@[simp] theorem onMains_upd (i : Nat) (f : Mains → Mains) (s : State) : (onMains i f s).upd = s.upd := (rfl)
@[simp] theorem onMains_tracks (i : Nat) (f : Mains → Mains) (s : State) : (onMains i f s).tracks = s.tracks := (rfl)
@[simp] theorem onMains_scribe (i : Nat) (f : Mains → Mains) (s : State) : (onMains i f s).scribe = s.scribe := (rfl)
@[simp] theorem onMains_buses (i : Nat) (f : Mains → Mains) (s : State) : (onMains i f s).buses = s.buses := (rfl)
@[simp] theorem onMains_duplex (i : Nat) (f : Mains → Mains) (s : State) : (onMains i f s).duplex = s.duplex := (rfl)
@[simp] theorem onMains_integrity (i : Nat) (f : Mains → Mains) (s : State) : (onMains i f s).integrity = s.integrity := (rfl)
@[simp] theorem onMains_tt (i : Nat) (f : Mains → Mains) (s : State) : (onMains i f s).tt = s.tt := (rfl)
@[simp] theorem onMains_power (i : Nat) (f : Mains → Mains) (s : State) : (onMains i f s).power = s.power := (rfl)

/-! onEnc -/

@[simp] theorem onEnc_pending (n : Nat) (f : Enc → Enc) (s : State) : (onEnc n f s).pending = s.pending := (rfl)
@[simp] theorem onEnc_regs (n : Nat) (f : Enc → Enc) (s : State) : (onEnc n f s).regs = s.regs := (rfl)
@[simp] theorem onEnc_latches (n : Nat) (f : Enc → Enc) (s : State) : (onEnc n f s).latches = s.latches := (rfl)
@[simp] theorem onEnc_stages (n : Nat) (f : Enc → Enc) (s : State) : (onEnc n f s).stages = s.stages := (rfl)
@[simp] theorem onEnc_mem (n : Nat) (f : Enc → Enc) (s : State) : (onEnc n f s).mem = s.mem := (rfl)
@[simp] theorem onEnc_poison (n : Nat) (f : Enc → Enc) (s : State) : (onEnc n f s).poison = s.poison := (rfl)
@[simp] theorem onEnc_resp (n : Nat) (f : Enc → Enc) (s : State) : (onEnc n f s).resp = s.resp := (rfl)
@[simp] theorem onEnc_node (n : Nat) (f : Enc → Enc) (s : State) : (onEnc n f s).node = s.node := (rfl)
@[simp] theorem onEnc_notices (n : Nat) (f : Enc → Enc) (s : State) : (onEnc n f s).notices = s.notices := (rfl)
@[simp] theorem onEnc_arb (n : Nat) (f : Enc → Enc) (s : State) : (onEnc n f s).arb = s.arb := (rfl)
@[simp] theorem onEnc_office (n : Nat) (f : Enc → Enc) (s : State) : (onEnc n f s).office = s.office := (rfl)
@[simp] theorem onEnc_ports (n : Nat) (f : Enc → Enc) (s : State) : (onEnc n f s).ports = s.ports := (rfl)
@[simp] theorem onEnc_bridge (n : Nat) (f : Enc → Enc) (s : State) : (onEnc n f s).bridge = s.bridge := (rfl)
@[simp] theorem onEnc_dead (n : Nat) (f : Enc → Enc) (s : State) : (onEnc n f s).dead = s.dead := (rfl)
@[simp] theorem onEnc_census (n : Nat) (f : Enc → Enc) (s : State) : (onEnc n f s).census = s.census := (rfl)
@[simp] theorem onEnc_mon (n : Nat) (f : Enc → Enc) (s : State) : (onEnc n f s).mon = s.mon := (rfl)
@[simp] theorem onEnc_time (n : Nat) (f : Enc → Enc) (s : State) : (onEnc n f s).time = s.time := (rfl)
@[simp] theorem onEnc_tables (n : Nat) (f : Enc → Enc) (s : State) : (onEnc n f s).tables = s.tables := (rfl)
@[simp] theorem onEnc_upd (n : Nat) (f : Enc → Enc) (s : State) : (onEnc n f s).upd = s.upd := (rfl)
@[simp] theorem onEnc_tracks (n : Nat) (f : Enc → Enc) (s : State) : (onEnc n f s).tracks = s.tracks := (rfl)
@[simp] theorem onEnc_scribe (n : Nat) (f : Enc → Enc) (s : State) : (onEnc n f s).scribe = s.scribe := (rfl)
@[simp] theorem onEnc_buses (n : Nat) (f : Enc → Enc) (s : State) : (onEnc n f s).buses = s.buses := (rfl)
@[simp] theorem onEnc_duplex (n : Nat) (f : Enc → Enc) (s : State) : (onEnc n f s).duplex = s.duplex := (rfl)
@[simp] theorem onEnc_integrity (n : Nat) (f : Enc → Enc) (s : State) : (onEnc n f s).integrity = s.integrity := (rfl)
@[simp] theorem onEnc_tt (n : Nat) (f : Enc → Enc) (s : State) : (onEnc n f s).tt = s.tt := (rfl)
@[simp] theorem onEnc_power (n : Nat) (f : Enc → Enc) (s : State) : (onEnc n f s).power = s.power := (rfl)

/-! onPower -/

@[simp] theorem onPower_pending (f : PowerState → PowerState) (s : State) : (onPower f s).pending = s.pending := (rfl)
@[simp] theorem onPower_regs (f : PowerState → PowerState) (s : State) : (onPower f s).regs = s.regs := (rfl)
@[simp] theorem onPower_latches (f : PowerState → PowerState) (s : State) : (onPower f s).latches = s.latches := (rfl)
@[simp] theorem onPower_stages (f : PowerState → PowerState) (s : State) : (onPower f s).stages = s.stages := (rfl)
@[simp] theorem onPower_mem (f : PowerState → PowerState) (s : State) : (onPower f s).mem = s.mem := (rfl)
@[simp] theorem onPower_poison (f : PowerState → PowerState) (s : State) : (onPower f s).poison = s.poison := (rfl)
@[simp] theorem onPower_resp (f : PowerState → PowerState) (s : State) : (onPower f s).resp = s.resp := (rfl)
@[simp] theorem onPower_node (f : PowerState → PowerState) (s : State) : (onPower f s).node = s.node := (rfl)
@[simp] theorem onPower_notices (f : PowerState → PowerState) (s : State) : (onPower f s).notices = s.notices := (rfl)
@[simp] theorem onPower_arb (f : PowerState → PowerState) (s : State) : (onPower f s).arb = s.arb := (rfl)
@[simp] theorem onPower_office (f : PowerState → PowerState) (s : State) : (onPower f s).office = s.office := (rfl)
@[simp] theorem onPower_ports (f : PowerState → PowerState) (s : State) : (onPower f s).ports = s.ports := (rfl)
@[simp] theorem onPower_bridge (f : PowerState → PowerState) (s : State) : (onPower f s).bridge = s.bridge := (rfl)
@[simp] theorem onPower_dead (f : PowerState → PowerState) (s : State) : (onPower f s).dead = s.dead := (rfl)
@[simp] theorem onPower_census (f : PowerState → PowerState) (s : State) : (onPower f s).census = s.census := (rfl)
@[simp] theorem onPower_mon (f : PowerState → PowerState) (s : State) : (onPower f s).mon = s.mon := (rfl)
@[simp] theorem onPower_time (f : PowerState → PowerState) (s : State) : (onPower f s).time = s.time := (rfl)
@[simp] theorem onPower_tables (f : PowerState → PowerState) (s : State) : (onPower f s).tables = s.tables := (rfl)
@[simp] theorem onPower_upd (f : PowerState → PowerState) (s : State) : (onPower f s).upd = s.upd := (rfl)
@[simp] theorem onPower_field (f : PowerState → PowerState) (s : State) : (onPower f s).field = s.field := (rfl)
@[simp] theorem onPower_tracks (f : PowerState → PowerState) (s : State) : (onPower f s).tracks = s.tracks := (rfl)
@[simp] theorem onPower_scribe (f : PowerState → PowerState) (s : State) : (onPower f s).scribe = s.scribe := (rfl)
@[simp] theorem onPower_buses (f : PowerState → PowerState) (s : State) : (onPower f s).buses = s.buses := (rfl)
@[simp] theorem onPower_duplex (f : PowerState → PowerState) (s : State) : (onPower f s).duplex = s.duplex := (rfl)
@[simp] theorem onPower_integrity (f : PowerState → PowerState) (s : State) : (onPower f s).integrity = s.integrity := (rfl)
@[simp] theorem onPower_tt (f : PowerState → PowerState) (s : State) : (onPower f s).tt = s.tt := (rfl)
@[simp] theorem onPower_power (f : PowerState → PowerState) (s : State) : (onPower f s).power = f s.power := (rfl)

/-! onInteg -/

@[simp] theorem onInteg_pending (f : IntegrityState → IntegrityState) (s : State) : (onInteg f s).pending = s.pending := (rfl)
@[simp] theorem onInteg_regs (f : IntegrityState → IntegrityState) (s : State) : (onInteg f s).regs = s.regs := (rfl)
@[simp] theorem onInteg_latches (f : IntegrityState → IntegrityState) (s : State) : (onInteg f s).latches = s.latches := (rfl)
@[simp] theorem onInteg_stages (f : IntegrityState → IntegrityState) (s : State) : (onInteg f s).stages = s.stages := (rfl)
@[simp] theorem onInteg_mem (f : IntegrityState → IntegrityState) (s : State) : (onInteg f s).mem = s.mem := (rfl)
@[simp] theorem onInteg_poison (f : IntegrityState → IntegrityState) (s : State) : (onInteg f s).poison = s.poison := (rfl)
@[simp] theorem onInteg_resp (f : IntegrityState → IntegrityState) (s : State) : (onInteg f s).resp = s.resp := (rfl)
@[simp] theorem onInteg_node (f : IntegrityState → IntegrityState) (s : State) : (onInteg f s).node = s.node := (rfl)
@[simp] theorem onInteg_notices (f : IntegrityState → IntegrityState) (s : State) : (onInteg f s).notices = s.notices := (rfl)
@[simp] theorem onInteg_arb (f : IntegrityState → IntegrityState) (s : State) : (onInteg f s).arb = s.arb := (rfl)
@[simp] theorem onInteg_office (f : IntegrityState → IntegrityState) (s : State) : (onInteg f s).office = s.office := (rfl)
@[simp] theorem onInteg_ports (f : IntegrityState → IntegrityState) (s : State) : (onInteg f s).ports = s.ports := (rfl)
@[simp] theorem onInteg_bridge (f : IntegrityState → IntegrityState) (s : State) : (onInteg f s).bridge = s.bridge := (rfl)
@[simp] theorem onInteg_dead (f : IntegrityState → IntegrityState) (s : State) : (onInteg f s).dead = s.dead := (rfl)
@[simp] theorem onInteg_census (f : IntegrityState → IntegrityState) (s : State) : (onInteg f s).census = s.census := (rfl)
@[simp] theorem onInteg_mon (f : IntegrityState → IntegrityState) (s : State) : (onInteg f s).mon = s.mon := (rfl)
@[simp] theorem onInteg_time (f : IntegrityState → IntegrityState) (s : State) : (onInteg f s).time = s.time := (rfl)
@[simp] theorem onInteg_tables (f : IntegrityState → IntegrityState) (s : State) : (onInteg f s).tables = s.tables := (rfl)
@[simp] theorem onInteg_upd (f : IntegrityState → IntegrityState) (s : State) : (onInteg f s).upd = s.upd := (rfl)
@[simp] theorem onInteg_field (f : IntegrityState → IntegrityState) (s : State) : (onInteg f s).field = s.field := (rfl)
@[simp] theorem onInteg_tracks (f : IntegrityState → IntegrityState) (s : State) : (onInteg f s).tracks = s.tracks := (rfl)
@[simp] theorem onInteg_scribe (f : IntegrityState → IntegrityState) (s : State) : (onInteg f s).scribe = s.scribe := (rfl)
@[simp] theorem onInteg_buses (f : IntegrityState → IntegrityState) (s : State) : (onInteg f s).buses = s.buses := (rfl)
@[simp] theorem onInteg_duplex (f : IntegrityState → IntegrityState) (s : State) : (onInteg f s).duplex = s.duplex := (rfl)
@[simp] theorem onInteg_integrity (f : IntegrityState → IntegrityState) (s : State) : (onInteg f s).integrity = f s.integrity := (rfl)
@[simp] theorem onInteg_tt (f : IntegrityState → IntegrityState) (s : State) : (onInteg f s).tt = s.tt := (rfl)
@[simp] theorem onInteg_power (f : IntegrityState → IntegrityState) (s : State) : (onInteg f s).power = s.power := (rfl)

end Sys2Proof.Machine
end

