-- ==== Sys2Proof/Laws/Fields.lean ====
section
/-! SUPPORT. Registers and their fields: what a read gives after a write of the same or of another register or field. -/

namespace Sys2Proof.Machine

/-- A register's word after a write of it. -/
@[simp] theorem getReg_setReg_same (s : State) (a : Nat) (w : Word) : getReg (setReg s a w) a = w :=
  tabGet_tabSet_same resetWord s.regs a w

/-- A write of a register leaves every other register alone. -/
theorem getReg_setReg_ne (s : State) {a b : Nat} (w : Word) (h : b ≠ a) : getReg (setReg s a w) b = getReg s b :=
  tabGet_tabSet_ne resetWord s.regs w h

theorem testBit_bitsOf (x lo width i : Nat) : (bitsOf x lo width).testBit i = (decide (i < width) && x.testBit (lo + i)) := by
  simp only [bitsOf, Nat.testBit_mod_two_pow, Nat.testBit_div_two_pow]
  congr 2; omega

theorem getLsbD_mask (f : Fld) (i : Nat) : f.mask.getLsbD i = (decide (i < 32) && decide (f.lo ≤ i ∧ i < f.lo + f.width)) := by
  simp only [Fld.mask, BitVec.getLsbD_ofNat, Nat.testBit_mul_two_pow, Nat.testBit_two_pow_sub_one]
  by_cases h1 : i < 32 <;> by_cases h2 : f.lo ≤ i <;> simp [h1, h2] <;> omega

theorem getLsbD_put (f : Fld) (w : Word) (v i : Nat) :
    (f.put w v).getLsbD i =
      if f.lo ≤ i ∧ i < f.lo + f.width then decide (i < 32) && v.testBit (i - f.lo) else w.getLsbD i := by
  simp only [Fld.put, BitVec.getLsbD_or, BitVec.getLsbD_and, BitVec.getLsbD_not, getLsbD_mask, BitVec.getLsbD_ofNat,
    Nat.testBit_mul_two_pow]
  by_cases h1 : i < 32
  · by_cases h2 : f.lo ≤ i ∧ i < f.lo + f.width
    · simp [h1, h2]
    · simp only [h1, h2]; simp
  · have : w.getLsbD i = false := BitVec.getLsbD_of_ge _ _ (by omega)
    simp [h1, this]

/-- A field reads what was put into it. -/
theorem Fld.get_put_same (f : Fld) (w : Word) (v : Nat) (h : f.lo + f.width ≤ 32) : f.get (f.put w v) = v % 2 ^ f.width := by
  apply Nat.eq_of_testBit_eq
  intro i
  rw [Fld.get, testBit_bitsOf, ← BitVec.getLsbD, getLsbD_put, Nat.testBit_mod_two_pow]
  by_cases hi : i < f.width
  · have h1 : f.lo ≤ f.lo + i ∧ f.lo + i < f.lo + f.width := by omega
    have h2 : f.lo + i < 32 := by omega
    simp [hi, h1, h2]
  · simp [hi]

/-- A field that shares no bit with the one that is put keeps its value. -/
theorem Fld.get_put_ne (f g : Fld) (w : Word) (v : Nat) (h : f.lo + f.width ≤ g.lo ∨ g.lo + g.width ≤ f.lo) :
    g.get (f.put w v) = g.get w := by
  apply Nat.eq_of_testBit_eq
  intro i
  rw [Fld.get, Fld.get, testBit_bitsOf, testBit_bitsOf, ← BitVec.getLsbD, ← BitVec.getLsbD, getLsbD_put]
  by_cases hi : i < g.width
  · rw [if_neg (by omega)]
  · simp [hi]

/-- A field of a register after it is replaced. -/
theorem getF_setF_same (s : State) (a : Nat) (f : Fld) (v : Nat) (h : f.lo + f.width ≤ 32) :
    getF (setF s a f v) a f = v % 2 ^ f.width := by
  unfold getF setF; rw [getReg_setReg_same, Fld.get_put_same f _ v h]

/-- Another field of the same register. -/
theorem getF_setF_field (s : State) (a : Nat) {f g : Fld} (v : Nat) (h : f.lo + f.width ≤ g.lo ∨ g.lo + g.width ≤ f.lo) :
    getF (setF s a f v) a g = getF s a g := by
  unfold getF setF; rw [getReg_setReg_same, Fld.get_put_ne f g _ v h]

/-- A field of another register. -/
theorem getF_setF_ne (s : State) {a b : Nat} (f g : Fld) (v : Nat) (h : b ≠ a) : getF (setF s a f v) b g = getF s b g := by
  unfold getF setF; rw [getReg_setReg_ne _ _ h]

theorem getReg_setF_ne (s : State) {a b : Nat} (f : Fld) (v : Nat) (h : b ≠ a) : getReg (setF s a f v) b = getReg s b := by
  unfold setF; rw [getReg_setReg_ne _ _ h]

theorem getF_setReg_same (s : State) (a : Nat) (w : Word) (g : Fld) : getF (setReg s a w) a g = g.get w := by
  unfold getF; rw [getReg_setReg_same]

theorem getF_setReg_ne (s : State) {a b : Nat} (w : Word) (g : Fld) (h : b ≠ a) : getF (setReg s a w) b g = getF s b g := by
  unfold getF; rw [getReg_setReg_ne _ _ h]

/-- A one-bit field after it is replaced. -/
theorem getB_setB_same (s : State) (a : Nat) (f : Fld) (b : Bool) (hw : f.width = 1) (h : f.lo + 1 ≤ 32) :
    getB (setB s a f b) a f = b := by
  unfold getB setB; rw [getF_setF_same _ _ _ _ (by omega), hw]; cases b <;> simp [bit1]

theorem getB_setB_field (s : State) (a : Nat) {f g : Fld} (b : Bool) (h : f.lo + f.width ≤ g.lo ∨ g.lo + g.width ≤ f.lo) :
    getB (setB s a f b) a g = getB s a g := by
  unfold getB setB; rw [getF_setF_field _ _ _ h]

theorem getB_setB_ne (s : State) {a c : Nat} (f g : Fld) (b : Bool) (h : c ≠ a) : getB (setB s a f b) c g = getB s c g := by
  unfold getB setB; rw [getF_setF_ne _ _ _ _ h]

theorem getReg_setB_ne (s : State) {a c : Nat} (f : Fld) (b : Bool) (h : c ≠ a) : getReg (setB s a f b) c = getReg s c :=
  getReg_setF_ne s f _ h

/-- Registers are read from the register file alone. -/
theorem getReg_congr {s t : State} (h : t.regs = s.regs) (a : Nat) : getReg t a = getReg s a := by unfold getReg; rw [h]
theorem getF_congr {s t : State} (h : t.regs = s.regs) (a : Nat) (f : Fld) : getF t a f = getF s a f := by
  unfold getF; rw [getReg_congr h]
theorem getB_congr {s t : State} (h : t.regs = s.regs) (a : Nat) (f : Fld) : getB t a f = getB s a f := by
  unfold getB; rw [getF_congr h]

/-! Counters. -/

theorem ctrLookup_add_same (l : List (Ctr × Nat)) (c : Ctr) (n : Nat) : ctrLookup (ctrAdd l c n) c = (ctrLookup l c + n) % 2 ^ 48 := by
  induction l with
  | nil => simp [ctrAdd, ctrLookup]
  | cons e l ih =>
    obtain ⟨k, v⟩ := e
    unfold ctrAdd
    split
    · rename_i h; subst h; simp [ctrLookup]
    · rename_i h; simp only [ctrLookup, if_neg h, ih]

theorem ctrLookup_add_ne (l : List (Ctr × Nat)) {c d : Ctr} (n : Nat) (h : d ≠ c) : ctrLookup (ctrAdd l c n) d = ctrLookup l d := by
  induction l with
  | nil => simp [ctrAdd, ctrLookup, Ne.symm h]
  | cons e l ih =>
    obtain ⟨k, v⟩ := e
    unfold ctrAdd
    split
    · rename_i hk; subst hk; simp [ctrLookup, Ne.symm h]
    · simp only [ctrLookup, ih]

/-- A counter that rises by one wraps at 2^48 (R455). -/
theorem getCtr_bump_same (s : State) (c : Ctr) : getCtr (bump c s) c = (getCtr s c + 1) % 2 ^ 48 :=
  ctrLookup_add_same s.mon.counters c 1

theorem getCtr_bump_ne (s : State) {c d : Ctr} (h : d ≠ c) : getCtr (bump c s) d = getCtr s d :=
  ctrLookup_add_ne s.mon.counters 1 h

/-! Memory. -/

@[simp] theorem getByte_setByte_same (s : State) (a : Nat) (b : Byte) : getByte (setByte s a b) a = b :=
  tabGet_tabSet_same memDefault s.mem a b

theorem getByte_setByte_ne (s : State) {a c : Nat} (b : Byte) (h : c ≠ a) : getByte (setByte s a b) c = getByte s c :=
  tabGet_tabSet_ne memDefault s.mem b h

theorem getByte_congr {s t : State} (h : t.mem = s.mem) (a : Nat) : getByte t a = getByte s a := by unfold getByte; rw [h]

/-- Bytes written from an address leave every byte outside their range alone. -/
theorem getByte_setBytes_ne (bs : List Byte) (s : State) (a c : Nat) (h : c < a ∨ a + bs.length ≤ c) :
    getByte (setBytes s a bs) c = getByte s c := by
  induction bs generalizing s a with
  | nil => rfl
  | cons b bs ih =>
    simp only [List.length_cons] at h
    rw [setBytes, ih _ _ (by omega), getByte_setByte_ne _ _ (by omega)]

end Sys2Proof.Machine
end

