-- ==== Sys2Proof/Laws/Keeps.lean ====
section
/-! SUPPORT. What the lemmas that an operation keeps a part of the state are written with: the state that an outcome or a clock leaves,
and folds of operations that keep the part. -/

namespace Sys2Proof.Machine

/-- The state that an outcome leaves; a fault or a refusal leaves the state before. -/
def stateOr (o : Host.Outcome State Fault Refusal) (s : State) : State :=
  match o with
  | .next t => t
  | .fault _ => s
  | .refused _ => s

/-- The state that an engine's clock leaves. -/
def Clock.state : Clock → State
  | .stall _ s => s
  | .done _ s => s
  | .fault _ s => s

theorem stateOr_next (t s : State) : stateOr (.next t) s = t := by cases t; rfl
theorem stateOr_fault (r : Fault) (s : State) : stateOr (.fault r) s = s := by cases s; rfl
theorem stateOr_refused (r : Refusal) (s : State) : stateOr (.refused r) s = s := by cases s; rfl

theorem stateOr_ite (c : Prop) [Decidable c] (a b : Host.Outcome State Fault Refusal) (s : State) :
    stateOr (if c then a else b) s = if c then stateOr a s else stateOr b s := by split <;> rfl

theorem getD_ite (c : Prop) [Decidable c] (a b : Option State) (s : State) :
    (if c then a else b).getD s = if c then a.getD s else b.getD s := by split <;> rfl

theorem fst_ite {β : Type} (c : Prop) [Decidable c] (a b : State × β) :
    (if c then a else b).1 = if c then a.1 else b.1 := by split <;> rfl

theorem fresh_fst (n : Nat) (s : State) : (fresh n s).1 = Config.freeBits n s.node.freeCount := by cases s; rfl
theorem fresh_snd (n : Nat) (s : State) : (fresh n s).2 = onNode (fun x => { x with freeCount := x.freeCount + 1 }) s := by
  cases s; rfl

theorem foldl_pending {β : Type} (g : State → β → State) (h : ∀ s b, (g s b).pending = s.pending) (l : List β) (s : State) :
    (l.foldl g s).pending = s.pending := by
  induction l generalizing s with
  | nil => rfl
  | cons x xs ih => simp only [List.foldl_cons, ih, h]

theorem foldl_mem {β : Type} (g : State → β → State) (h : ∀ s b, (g s b).mem = s.mem) (l : List β) (s : State) :
    (l.foldl g s).mem = s.mem := by
  induction l generalizing s with
  | nil => rfl
  | cons x xs ih => simp only [List.foldl_cons, ih, h]

theorem foldl_wf {β : Type} (g : State → β → State) (h : ∀ s b, tabWf memDefault s.mem = true → tabWf memDefault (g s b).mem = true)
    (l : List β) (s : State) (hs : tabWf memDefault s.mem = true) : tabWf memDefault (l.foldl g s).mem = true := by
  induction l generalizing s with
  | nil => exact hs
  | cons x xs ih => rw [List.foldl_cons]; exact ih _ (h _ _ hs)

end Sys2Proof.Machine
end

