-- ==== Sys2Proof/Laws/Memory1.lean ====
section
/-! SUPPORT. Operations and meanings that leave every memory byte as it is. The operations and meanings of Ops, ReadAhead, Access, Notices, Arbiter, Flash, Routing, Office, Ports. -/

namespace Sys2Proof.Machine

theorem lostItem_mem (q : Nat) (s : State) : (lostItem q s).mem = s.mem := by
  unfold lostItem
  simp only [↓bump_mem, ↓setB_mem]

theorem postPm_mem (q : Nat) (cap : Nat) (inst : Nat) (code : Nat) (arg : Nat) (pm : DWord) (s : State) : (postPm q cap inst code arg pm s).mem = s.mem := by
  unfold postPm
  simp only [↓onNotices_mem, ↓lostItem_mem, apply_ite State.mem, ite_self]

theorem post_mem (q : Nat) (cap : Nat) (inst : Nat) (code : Nat) (arg : Nat) (s : State) : (post q cap inst code arg s).mem = s.mem := by
  unfold post
  simp only [↓postPm_mem]

theorem setPh_mem (s : State) (q : Nat) (p : PhQueue) : (setPh s q p).mem = s.mem := by
  unfold setPh
  simp only [↓onNotices_mem]

theorem setPort_mem (s : State) (p : Nat) (t : PortState) : (setPort s p t).mem = s.mem := by
  unfold setPort
  simp only

theorem fresh_mem (n : Nat) (s : State) : (fresh n s).2.mem = s.mem := by
  unfold fresh
  simp only [↓onNode_mem]

theorem postOpen_mem (q : Nat) (cap : Nat) (inst : Nat) (s : State) : (postOpen q cap inst s).mem = s.mem := by
  unfold postOpen
  simp only [↓fresh_mem, ↓post_mem]

theorem setItb_mem (s : State) (n : Nat) (t : Itb) : (setItb s n t).mem = s.mem := by
  unfold setItb
  simp only

theorem rewritten_mem (a : Nat) (s : State) : (rewritten a s).mem = s.mem := by
  unfold rewritten
  simp only

theorem postOnce_mem (q : Nat) (cap : Nat) (inst : Nat) (code : Nat) (arg : Nat) (s : State) : (postOnce q cap inst code arg s).mem = s.mem := by
  unfold postOnce
  simp only [↓post_mem, ↓onNotices_mem, apply_ite State.mem, ite_self]

theorem dlNotice_mem (code : Nat) (arg : Nat) (s : State) : (dlNotice code arg s).mem = s.mem := by
  unfold dlNotice
  simp only [↓post_mem, apply_ite State.mem, ite_self]

theorem setBuf_mem (k : Nat) (b : Option ReadAhead) (s : State) : (setBuf k b s).mem = s.mem := by
  unfold setBuf
  simp only [↓onBridge_mem]

theorem consumePoison_mem (row : Nat) (s : State) : (consumePoison row s).mem = s.mem := by
  unfold consumePoison
  simp only [↓bump_mem]

theorem discardBuffer_mem (why : Nat) (b : ReadAhead) (s : State) : (discardBuffer why b s).mem = s.mem := by
  unfold discardBuffer
  simp only [↓bump_mem, ↓setB_mem, ↓dlNotice_mem, ↓onDead_mem, ↓consumePoison_mem, ↓setF_mem, apply_ite State.mem, ite_self]

theorem dropBuf_mem (why : Nat) (k : Nat) (s : State) : (dropBuf why k s).mem = s.mem := by
  unfold dropBuf
  split <;> simp only [↓discardBuffer_mem, ↓setBuf_mem]

theorem dropOverlap_mem (a : Nat) (n : Nat) (s : State) : (dropOverlap a n s).mem = s.mem := by
  unfold dropOverlap
  grind [dropBuf_mem, stateOr, Clock.state, fresh, foldl_mem]

theorem recordDenial_mem (x : Access) (s : State) : (recordDenial x s).mem = s.mem := by
  unfold recordDenial
  simp only [↓bump_mem, ↓setF_mem, ↓setReg_mem, ↓setB_mem, ↓postOnce_mem]

theorem refuse_mem (x : Access) (s : State) : (refuse x s).mem = s.mem := by
  unfold refuse
  simp only [↓recordDenial_mem, apply_ite State.mem, ite_self]

theorem guardWriteAt_mem (m : Master) (a : Nat) (width : Nat) (eff : State → State × Option Reason) (s : State) (h0 : ∀ x, (eff x).1.mem = x.mem) : (guardWriteAt m a width eff s).mem = s.mem := by
  unfold guardWriteAt
  grind [answer_mem, refuse_mem, dropOverlap_mem, stateOr, Clock.state, fresh, foldl_mem]

theorem setStage_mem (s : State) (lo : Nat) (g : Option Stage) : (setStage s lo g).mem = s.mem := by
  unfold setStage
  simp only

theorem stagePart_mem (id : MasterId) (lo : Nat) (part : Nat) (v : Word) (s : State) : (stagePart id lo part v s).mem = s.mem := by
  unfold stagePart
  simp only [↓setStage_mem]

theorem countWrite_mem (rows : List FieldRow) (old : Word) (v : Word) (s : State) : (countWrite rows old v s).mem = s.mem := by
  unfold countWrite
  simp only [↓bump_mem, apply_ite State.mem, ite_self]

theorem plainWrite_mem (a : Nat) (v : Word) (s : State) : (plainWrite a v s).mem = s.mem := by
  unfold plainWrite
  split <;> simp only [↓countWrite_mem, ↓rewritten_mem, ↓setReg_mem]

theorem declineWrite_mem (a : Nat) (v : Word) (s : State) : (declineWrite a v s).mem = s.mem := by
  unfold declineWrite
  split <;> simp only [↓countWrite_mem]

theorem coreMeets_mem (m : Master) (r : Resp) (s : State) : (coreMeets m r s).mem = s.mem := by
  unfold coreMeets
  simp only [↓consumePoison_mem, apply_ite State.mem, ite_self]

theorem guardReadP_mem (m : Master) (a : Nat) (eff : State → State × Word × Bool) (s : State) (h0 : ∀ x, (eff x).1.mem = x.mem) : (guardReadP m a eff s).mem = s.mem := by
  unfold guardReadP
  grind [answer_mem, refuse_mem, coreMeets_mem, stateOr, Clock.state, fresh, foldl_mem]

theorem guardRead_mem (m : Master) (a : Nat) (eff : State → State × Word) (s : State) (h0 : ∀ x, (eff x).1.mem = x.mem) : (guardRead m a eff s).mem = s.mem := by
  unfold guardRead
  simp only [h0, ↓guardReadP_mem, implies_true]

theorem setLatch_mem (s : State) (lo : Nat) (l : Option Latch) : (setLatch s lo l).mem = s.mem := by
  unfold setLatch
  simp only

theorem latchUpper_mem (id : MasterId) (lo : Nat) (hi : Word) (top : Word) (ext : Word) (s : State) : (latchUpper id lo hi top ext s).mem = s.mem := by
  unfold latchUpper
  simp only [↓setLatch_mem]

theorem writeInPart_mem (a : Nat) (kept : Word) (v : Word) (s : State) : (writeInPart a kept v s).mem = s.mem := by
  unfold writeInPart
  split <;> simp only [↓countWrite_mem, ↓rewritten_mem, ↓setReg_mem]

theorem guardWrite_mem (m : Master) (a : Nat) (eff : State → State × Option Reason) (s : State) (h0 : ∀ x, (eff x).1.mem = x.mem) : (guardWrite m a eff s).mem = s.mem := by
  unfold guardWrite
  simp only [h0, ↓guardWriteAt_mem, implies_true]

theorem commitWide_mem (id : MasterId) (lo : Nat) (parts : Nat) (v : Word) (s : State) : (commitWide id lo parts v s).mem = s.mem := by
  unfold commitWide
  simp only [↓setReg_mem, ↓setStage_mem, apply_ite State.mem, ite_self]

theorem denyEnvelope_mem (id : MasterId) (a : Nat) (s : State) : (denyEnvelope id a s).mem = s.mem := by
  unfold denyEnvelope
  simp only [↓recordDenial_mem]

theorem countPart_mem (a : Nat) (v : Word) (s : State) : (countPart a v s).mem = s.mem := by
  unfold countPart
  split <;> simp only [↓bump_mem, apply_ite State.mem, ite_self]

theorem enterItem_mem (q : Nat) (it : Item) (lost : Bool) (s : State) : (enterItem q it lost s).mem = s.mem := by
  unfold enterItem
  simp only [↓lostItem_mem, ↓setPh_mem, apply_ite State.mem, ite_self]

theorem pointerCheck_mem (q : Nat) (s : State) : (pointerCheck q s).mem = s.mem := by
  unfold pointerCheck
  grind [setPh_mem, setB_mem, bump_mem, fresh_mem, enterItem_mem, postPm_mem, stateOr, Clock.state, fresh, foldl_mem]

theorem execNoticeEntry_mem (cap : BitVec 16) (inst : BitVec 8) (s : State) : (stateOr (execNoticeEntry cap inst s) s).mem = s.mem := by
  unfold execNoticeEntry
  split <;> simp only [↓pointerCheck_mem, ↓onNotices_mem, ↓enterItem_mem, apply_ite State.mem, ite_self, stateOr_next, stateOr_ite]

theorem popQueue_mem (id : MasterId) (q : Nat) (bad : BitVec 2) (s : State) : (popQueue id q bad s).1.mem = s.mem := by
  unfold popQueue
  grind [setB_mem, pointerCheck_mem, setPh_mem, stateOr, Clock.state, fresh, foldl_mem]

theorem readItem_mem (id : MasterId) (q : Nat) (k : Nat) (s : State) : (readItem id q k s).1.mem = s.mem := by
  unfold readItem
  grind [setB_mem, setPh_mem, stateOr, Clock.state, fresh, foldl_mem]

theorem flushQueue_mem (q : Nat) (s : State) : (flushQueue q s).mem = s.mem := by
  unfold flushQueue
  grind [setPh_mem, setB_mem, stateOr, Clock.state, fresh, foldl_mem]

theorem writePhCfg_mem (q : Nat) (v : Word) (s : State) : (writePhCfg q v s).mem = s.mem := by
  unfold writePhCfg
  simp only [↓setB_mem, ↓declineWrite_mem, ↓plainWrite_mem, ↓flushQueue_mem, apply_ite State.mem, ite_self]

theorem writePhCtl_mem (q : Nat) (v : Word) (s : State) : (writePhCtl q v s).mem = s.mem := by
  unfold writePhCtl
  simp only [↓plainWrite_mem, ↓flushQueue_mem, apply_ite State.mem, ite_self]

theorem execFlush_mem (m : Master) (q : Fin 32) (v : Word) (s : State) : (stateOr (execFlush m q v s) s).mem = s.mem := by
  unfold execFlush
  simp only [↓guardWrite_mem, ↓writePhCtl_mem, stateOr_next, implies_true]

theorem execPhCfgWrite_mem (m : Master) (q : Fin 32) (v : Word) (s : State) : (stateOr (execPhCfgWrite m q v s) s).mem = s.mem := by
  unfold execPhCfgWrite
  simp only [↓guardWrite_mem, ↓writePhCfg_mem, stateOr_next, implies_true]

theorem execPhPop_mem (m : Master) (q : Fin 32) (bad : BitVec 2) (s : State) : (stateOr (execPhPop m q bad s) s).mem = s.mem := by
  unfold execPhPop
  simp only [↓guardReadP_mem, ↓popQueue_mem, stateOr_next, implies_true]

theorem execPhItemRead_mem (m : Master) (q : Fin 32) (k : Fin 3) (s : State) : (stateOr (execPhItemRead m q k s) s).mem = s.mem := by
  unfold execPhItemRead
  simp only [↓guardReadP_mem, ↓readItem_mem, stateOr_next, implies_true]

theorem showHolder_mem (s : State) : (showHolder s).mem = s.mem := by
  unfold showHolder
  split <;> simp only [↓setB_mem, ↓setF_mem]

theorem grant_mem (n : Nat) (s : State) : (grant n s).mem = s.mem := by
  unfold grant
  simp only [↓onArb_mem, ↓showHolder_mem, ↓bump_mem, ↓setReg_mem, apply_ite State.mem, ite_self]

theorem sideGrant_mem (n : Nat) (s : State) : (sideGrant n s).mem = s.mem := by
  unfold sideGrant
  simp only [↓showHolder_mem, ↓onArb_mem, ↓grant_mem]

theorem arbDecide_mem (s : State) : (arbDecide s).mem = s.mem := by
  unfold arbDecide
  (repeat' split) <;> simp only [↓grant_mem]

theorem request_mem (n : Nat) (s : State) : (request n s).mem = s.mem := by
  unfold request
  simp only [↓onArb_mem, apply_ite State.mem, ite_self]

theorem acquire_mem (n : Nat) (s : State) : (acquire n s).mem = s.mem := by
  unfold acquire
  simp only [↓arbDecide_mem, ↓request_mem]

theorem execArbQuotaWrite_mem (m : Master) (v : Word) (s : State) : (stateOr (execArbQuotaWrite m v s) s).mem = s.mem := by
  unfold execArbQuotaWrite
  simp only [↓guardWrite_mem, ↓plainWrite_mem, stateOr_next, implies_true]

theorem endRequest_mem (n : Nat) (s : State) : (endRequest n s).mem = s.mem := by
  unfold endRequest
  simp only [↓onArb_mem, ↓showHolder_mem]

theorem noteTimeout_mem (n : Nat) (a : Nat) (s : State) : (noteTimeout n a s).mem = s.mem := by
  unfold noteTimeout
  simp only [↓setB_mem, ↓setReg_mem, ↓answer_mem, ↓bump_mem, ↓endRequest_mem]

theorem windowEnd_mem (s : State) : (windowEnd s).mem = s.mem := by
  unfold windowEnd
  simp only [↓onArb_mem]

theorem execQuotaWindowEnd_mem (s : State) : (stateOr (execQuotaWindowEnd s) s).mem = s.mem := by
  unfold execQuotaWindowEnd
  simp only [↓windowEnd_mem, stateOr_next]

theorem preempt_mem (n : Nat) (s : State) : (preempt n s).mem = s.mem := by
  unfold preempt
  simp only [↓onArb_mem, ↓bump_mem, ↓request_mem, ↓arbDecide_mem, ↓showHolder_mem, apply_ite State.mem, ite_self]

theorem writeArbPri_mem (n : Nat) (v : Word) (s : State) : (writeArbPri n v s).mem = s.mem := by
  unfold writeArbPri
  simp only [↓plainWrite_mem, ↓preempt_mem, apply_ite State.mem, ite_self]

theorem execArbPriWrite_mem (m : Master) (n : Fin 24) (v : Word) (s : State) : (stateOr (execArbPriWrite m n v s) s).mem = s.mem := by
  unfold execArbPriWrite
  simp only [↓guardWrite_mem, ↓writeArbPri_mem, stateOr_next, implies_true]

theorem appendRecord_mem (kind : Nat) (r : PersistRec) (s : State) : (appendRecord kind r s).mem = s.mem := by
  unfold appendRecord
  simp only [↓setF_mem, ↓bump_mem, ↓onUpd_mem]

theorem flushRecords_mem (x0 : Nat) (s : State) : (flushRecords x0 s).mem = s.mem := by
  induction x0 generalizing s with
  | zero => rfl
  | succ n ih => unfold flushRecords; grind [appendRecord_mem, onUpd_mem]

theorem updNotice_mem (code : Nat) (arg : Nat) (s : State) : (updNotice code arg s).mem = s.mem := by
  unfold updNotice
  simp only [↓post_mem]

theorem submitRecord_mem (kind : Nat) (r : PersistRec) (s : State) : (submitRecord kind r s).mem = s.mem := by
  unfold submitRecord
  (repeat' split) <;> simp only [↓appendRecord_mem, ↓onUpd_mem, ↓fresh_mem, ↓updNotice_mem, ↓bump_mem]

theorem execTokenGain_mem (s : State) : (stateOr (execTokenGain s) s).mem = s.mem := by
  unfold execTokenGain
  simp only [↓flushRecords_mem, ↓setF_mem, stateOr_next]

theorem execEnergyCheckpoint_mem (s : State) : (stateOr (execEnergyCheckpoint s) s).mem = s.mem := by
  unfold execEnergyCheckpoint
  simp only [↓submitRecord_mem, stateOr_next]

theorem execPersistWrite_mem (kind : Fin 3) (s : State) : (stateOr (execPersistWrite kind s) s).mem = s.mem := by
  unfold execPersistWrite
  simp only [↓submitRecord_mem, stateOr_next]

theorem rtEvent_mem (f : Fld) (k : Nat) (s : State) : (rtEvent f k s).mem = s.mem := by
  unfold rtEvent
  simp only [↓postOnce_mem, ↓bump_mem, ↓setB_mem]

theorem countBnd_mem (s : State) : (countBnd s).mem = s.mem := by
  unfold countBnd
  simp only [↓setF_mem]

theorem enterBnd_mem (b : Nat) (key : Nat) (side : Nat) (isLocal : Bool) (s : State) : (enterBnd b key side isLocal s).mem = s.mem := by
  unfold enterBnd
  (repeat' split) <;> simp only [↓countBnd_mem, ↓rewritten_mem, ↓setReg_mem, ↓postOnce_mem, ↓rtEvent_mem]

theorem removeBnd_mem (key : Nat) (side : Nat) (s : State) : (removeBnd key side s).mem = s.mem := by
  unfold removeBnd
  split <;> simp only [↓postOnce_mem, ↓countBnd_mem, ↓rewritten_mem, ↓setReg_mem]

theorem markJunction_mem (index : Nat) (down : Bool) (s : State) : (markJunction index down s).mem = s.mem := by
  unfold markJunction
  simp only [↓setB_mem, apply_ite State.mem, ite_self, implies_true, foldl_mem]

theorem applyLink_mem (e : Envelope) (s : State) : (applyLink e s).mem = s.mem := by
  unfold applyLink
  simp only [↓bump_mem, ↓enterBnd_mem, ↓removeBnd_mem, ↓markJunction_mem, apply_ite State.mem, ite_self]

theorem applyLinks_mem (s : State) : (applyLinks s).mem = s.mem := by
  unfold applyLinks
  simp only [↓applyLink_mem, implies_true, foldl_mem]

theorem cutCopy_mem (s : State) : (cutCopy s).mem = s.mem := by
  unfold cutCopy
  simp only [↓rtEvent_mem]

theorem releasePtr_mem (p : Ptr) (s : State) : (releasePtr p s).mem = s.mem := by
  unfold releasePtr
  simp only [↓onOffice_mem]

theorem releaseHeld_mem (o : Nat) (i : Nat) (c : Nat) (x0 : Nat) (s : State) : (releaseHeld o i c x0 s).mem = s.mem := by
  induction x0 generalizing s with
  | zero => rfl
  | succ n ih => unfold releaseHeld; dsimp only; split
                 · rfl
                 · exact (ih _).trans ((releasePtr_mem _ _).trans (onOffice_mem _ _))

theorem arrivePtr_mem (p : Ptr) (s : State) : (arrivePtr p s).mem = s.mem := by
  unfold arrivePtr
  simp only [↓releaseHeld_mem, ↓releasePtr_mem, ↓onOffice_mem, apply_ite State.mem, ite_self]

theorem countOrigin_mem (s : State) : (countOrigin s).mem = s.mem := by
  unfold countOrigin
  simp only

theorem pickCell_mem (used : List Nat) (b : Nat) (s : State) : (pickCell used b s).2.mem = s.mem := by
  unfold pickCell
  grind [fresh_mem, stateOr, Clock.state, fresh, foldl_mem]

theorem pickCells_mem (x0 : Nat) (x1 : Nat) (x2 : List Nat) (s : State) : (pickCells x0 x1 x2 s).2.mem = s.mem := by
  induction x0 generalizing s x1 x2 with
  | zero => rfl
  | succ n ih =>
    unfold pickCells
    dsimp only
    exact (ih _ _ _).trans (pickCell_mem _ _ _)

theorem noteLow_mem (s : State) : (noteLow s).mem = s.mem := by
  unfold noteLow
  simp only [↓setF_mem, apply_ite State.mem, ite_self]

theorem putCellWord_mem (c : Nat) (w : Nat) (v : DWord) (s : State) : (putCellWord c w v s).mem = s.mem := by
  unfold putCellWord
  simp only [↓setPoison_mem, ↓onOffice_mem]

theorem writeCell_mem (e : Stored) (s : State) (k : Nat) : (writeCell e s k).mem = s.mem := by
  unfold writeCell
  grind [putCellWord_mem, fresh_mem, stateOr, Clock.state, fresh, foldl_mem]

theorem updStored_mem (id : Nat) (f : Stored → Stored) (s : State) : (updStored id f s).mem = s.mem := by
  unfold updStored
  simp only [↓onOffice_mem]

theorem handPtr_mem (inp : Nat) (out : Nat) (cls : Nat) (id : Nat) (cell : Nat) (s : State) : (handPtr inp out cls id cell s).mem = s.mem := by
  unfold handPtr
  simp only [↓onOffice_mem]

theorem handCell_mem (inp : Nat) (targets : List Nat) (cls : Nat) (id : Nat) (cell : Nat) (s : State) : (handCell inp targets cls id cell s).mem = s.mem := by
  unfold handCell
  simp only [↓handPtr_mem, implies_true, foldl_mem]

theorem handCells_mem (inp : Nat) (targets : List Nat) (cls : Nat) (id : Nat) (x0 : Nat) (x1 : Nat) (s : State) : (handCells inp targets cls id x0 x1 s).mem = s.mem := by
  induction x1 generalizing s x0 with
  | zero => rfl
  | succ n ih => unfold handCells; rw [ih, handCell_mem]

theorem handOver_mem (id : Nat) (n : Nat) (s : State) : (handOver id n s).mem = s.mem := by
  unfold handOver
  split <;> simp only [↓writeCell_mem, ↓updStored_mem, ↓handCells_mem, implies_true, foldl_mem]

theorem storeEnvelope_mem (inp : Nat) (e : Envelope) (targets : List Nat) (ct : Bool) (whole : Bool) (ready : Nat) (mark : Option RingMark) (s : State) : (storeEnvelope inp e targets ct whole ready mark s).mem = s.mem := by
  unfold storeEnvelope
  simp only [↓fresh_mem, ↓pickCells_mem, ↓onOffice_mem, ↓bumpN_mem, ↓bump_mem, ↓noteLow_mem, ↓handOver_mem]

theorem originate_mem (port : Nat) (e : Envelope) (s : State) : (originate port e s).1.mem = s.mem := by
  unfold originate
  grind [applyLinks_mem, bump_mem, countOrigin_mem, cutCopy_mem, setB_mem, storeEnvelope_mem, stateOr, Clock.state, fresh, foldl_mem]

theorem sendOnPort_mem (port : Nat) (out : Nat) (e : Envelope) (s : State) : (sendOnPort port out e s).1.mem = s.mem := by
  unfold sendOnPort
  split <;> simp only [↓storeEnvelope_mem]

theorem sendBy_mem (port : Nat) (out : Option Nat) (e : Envelope) (s : State) : (sendBy port out e s).1.mem = s.mem := by
  unfold sendBy
  split <;> simp only [↓originate_mem, ↓sendOnPort_mem]

theorem withhold_mem (p : Nat) (c : Nat) (n : Nat) (s : State) : (withhold p c n s).mem = s.mem := by
  unfold withhold
  simp only [↓setPort_mem]

theorem returnCredit_mem (p : Nat) (c : Nat) (n : Nat) (s : State) : (returnCredit p c n s).mem = s.mem := by
  unfold returnCredit
  simp only [↓setPort_mem, apply_ite State.mem, ite_self]

theorem seeReply_mem (p : Nat) (e : Envelope) (s : State) : (seeReply p e s).mem = s.mem := by
  unfold seeReply
  simp only [apply_ite State.mem, ite_self]

theorem sendOrWait_mem (port : Nat) (out : Option Nat) (e : Envelope) (s : State) : (sendOrWait port out e s).mem = s.mem := by
  unfold sendOrWait
  grind [onOffice_mem, sendBy_mem, stateOr, Clock.state, fresh, foldl_mem]

theorem sendNdn_mem (reason : Nat) (cause : Nat) (pieces : Nat) (data : DWord) (pois : Bool) (e : Envelope) (s : State) : (sendNdn reason cause pieces data pois e s).mem = s.mem := by
  unfold sendNdn
  simp only [↓sendOrWait_mem, apply_ite State.mem, ite_self]

theorem placeReceived_mem (p : Nat) (e : Envelope) (ct : Bool) (whole : Bool) (ready : Nat) (mark : RingMark) (s : State) : (placeReceived p e ct whole ready mark s).mem = s.mem := by
  unfold placeReceived
  grind [returnCredit_mem, cutCopy_mem, seeReply_mem, rtEvent_mem, bump_mem, storeEnvelope_mem, sendNdn_mem, stateOr, Clock.state, fresh, foldl_mem]

theorem releaseCells_mem (id : Nat) (a : Nat) (n : Nat) (s : State) : (releaseCells id a n s).mem = s.mem := by
  unfold releaseCells
  split <;> simp only [↓returnCredit_mem, ↓updStored_mem]

theorem execOutputStall_mem (o : Fin 3) (s : State) : (stateOr (execOutputStall o s) s).mem = s.mem := by
  unfold execOutputStall
  (repeat' split) <;> simp only [↓bump_mem, ↓setB_mem, ↓onOffice_mem, ↓releaseCells_mem, ↓updStored_mem, apply_ite State.mem, ite_self, stateOr_next, stateOr_ite]

theorem flushOutbox_mem (s : State) : (flushOutbox s).mem = s.mem := by
  unfold flushOutbox
  simp only [↓sendOrWait_mem, ↓onOffice_mem, implies_true, foldl_mem]

theorem soNotice_mem (code : Nat) (arg : Nat) (s : State) : (soNotice code arg s).mem = s.mem := by
  unfold soNotice
  simp only [↓postOnce_mem]

theorem middleOut_mem (t : Nat) (j : Nat) (s : State) : (middleOut t j s).mem = s.mem := by
  unfold middleOut
  grind [arrivePtr_mem, onOffice_mem, stateOr, Clock.state, fresh, foldl_mem]

theorem dropPtrs_mem (id : Nat) (out : Nat) (s : State) : (dropPtrs id out s).mem = s.mem := by
  unfold dropPtrs
  simp only [↓onOffice_mem]

theorem dropTarget_mem (id : Nat) (out : Nat) (s : State) : (dropTarget id out s).mem = s.mem := by
  unfold dropTarget
  grind [dropPtrs_mem, releaseCells_mem, onOffice_mem, updStored_mem, stateOr, Clock.state, fresh, foldl_mem]

theorem removePtrs_mem (id : Nat) (out : Nat) (s : State) : (removePtrs id out s).mem = s.mem := by
  unfold removePtrs
  simp only [↓onOffice_mem]

theorem execReseqTimeout_mem (o : Fin 8) (i : Fin 8) (c : Fin 4) (s : State) : (stateOr (execReseqTimeout o i c s) s).mem = s.mem := by
  unfold execReseqTimeout
  grind [dropTarget_mem, removePtrs_mem, onOffice_mem, releaseHeld_mem, soNotice_mem, bump_mem, setB_mem, stateOr, Clock.state, fresh, foldl_mem]

theorem keepLinkEvent_mem (e : Envelope) (s : State) : (keepLinkEvent e s).mem = s.mem := by
  unfold keepLinkEvent
  simp only [apply_ite State.mem, ite_self]

theorem poolDrop_mem (p : Nat) (e : Envelope) (s : State) : (poolDrop p e s).mem = s.mem := by
  unfold poolDrop
  simp only [↓soNotice_mem, ↓bump_mem, ↓setB_mem, ↓returnCredit_mem, apply_ite State.mem, ite_self]

theorem setSending_mem (o : Nat) (x : Option (Nat × Envelope)) (s : State) : (setSending o x s).mem = s.mem := by
  unfold setSending
  simp only [↓onOffice_mem]

theorem notePassed_mem (o : Nat) (c : Nat) (s : State) : (notePassed o c s).mem = s.mem := by
  unfold notePassed
  simp only [↓onOffice_mem]

theorem middleIn_mem (t : Nat) (i : Nat) (s : State) : (middleIn t i s).mem = s.mem := by
  unfold middleIn
  grind [onOffice_mem, stateOr, Clock.state, fresh, foldl_mem]

theorem moveCredit_mem (s t : State) : (moveCredit s t).mem = t.mem := by
  unfold moveCredit
  exact foldl_mem _ (fun u p => foldl_mem _ (fun u c => (returnCredit_mem _ _ _ _).trans (withhold_mem _ _ _ _)) _ _) _ _
theorem writeSoRes_mem (a : Nat) (v : Word) (s : State) : (writeSoRes a v s).mem = s.mem := by
  unfold writeSoRes
  split
  · exact (setB_mem _ _ _ _).trans (declineWrite_mem _ _ _)
  · exact (moveCredit_mem _ _).trans (plainWrite_mem _ _ _)

theorem takeDelivered_mem (e : Envelope) (s : State) : (takeDelivered e s).mem = s.mem := by
  unfold takeDelivered
  split <;> simp only [↓onOffice_mem]

theorem switchSlot_mem (s : State) : (switchSlot s).mem = s.mem := by
  unfold switchSlot
  simp only [↓middleOut_mem, ↓middleIn_mem, ↓setF_mem, implies_true, foldl_mem]

theorem sendBlock_mem (p : Nat) (control : Bool) (d : DWord) (s : State) : (sendBlock p control d s).mem = s.mem := by
  unfold sendBlock
  simp only [↓fresh_mem, ↓onPort_mem]

theorem sendTrain_mem (p : Nat) (rlock : Bool) (s : State) : (sendTrain p rlock s).mem = s.mem := by
  unfold sendTrain
  simp only [↓fresh_mem, ↓sendBlock_mem, ↓onPort_mem]

theorem setPortState_mem (p : Nat) (st : Nat) (s : State) : (setPortState p st s).mem = s.mem := by
  unfold setPortState
  simp only [↓setB_mem, ↓setF_mem, ↓sendTrain_mem, apply_ite State.mem, ite_self]

theorem startSearch_mem (p : Nat) (r : Nat) (s : State) : (startSearch p r s).mem = s.mem := by
  unfold startSearch
  simp only [↓bump_mem, ↓setF_mem, ↓setB_mem, ↓onPort_mem, ↓setPortState_mem, apply_ite State.mem, ite_self]

theorem seekModule_mem (p : Nat) (s : State) : (seekModule p s).mem = s.mem := by
  unfold seekModule
  simp only [↓startSearch_mem, ↓setPortState_mem, apply_ite State.mem, ite_self]

theorem sendLinkEvent_mem (evt : Nat) (side : Nat) (b : Nat) (cause : Nat) (s : State) : (sendLinkEvent evt side b cause s).mem = s.mem := by
  unfold sendLinkEvent
  simp only [↓sendOrWait_mem, ↓bump_mem]

theorem sendTieDown_mem (cause : Option Nat) (s : State) : (sendTieDown cause s).mem = s.mem := by
  unfold sendTieDown
  split <;> simp only [↓sendLinkEvent_mem, ↓fresh_mem]

theorem reviewJunction_mem (cause : Option Nat) (s : State) : (reviewJunction cause s).mem = s.mem := by
  unfold reviewJunction
  simp only [↓sendLinkEvent_mem, ↓sendTieDown_mem, ↓setB_mem, apply_ite State.mem, ite_self]

theorem judgePeer_mem (s : State) : (judgePeer s).mem = s.mem := by
  unfold judgePeer
  simp only [↓reviewJunction_mem, ↓setB_mem, apply_ite State.mem, ite_self]

theorem retarget_mem (e : Stored) (out : Nat) (new : Nat) (s : State) : (retarget e out new s).mem = s.mem := by
  unfold retarget
  simp only [↓dropPtrs_mem, ↓updStored_mem, ↓handCells_mem]

theorem handBack_mem (p : Nat) (e : Stored) (s : State) : (handBack p e s).mem = s.mem := by
  unfold handBack
  grind [bump_mem, dropTarget_mem, cutCopy_mem, retarget_mem, sendNdn_mem, stateOr, Clock.state, fresh, foldl_mem]

theorem handBackAll_mem (p : Nat) (s : State) : (handBackAll p s).mem = s.mem := by
  unfold handBackAll
  simp only [↓handBack_mem, apply_ite State.mem, ite_self, implies_true, foldl_mem]

theorem ptEvt_mem (p : Nat) (f : Fld) (s : State) : (ptEvt p f s).mem = s.mem := by
  unfold ptEvt
  simp only [↓setB_mem]

theorem badBlock_mem (p : Nat) (s : State) : (badBlock p s).mem = s.mem := by
  unfold badBlock
  grind [bump_mem, ptEvt_mem, onPort_mem, stateOr, Clock.state, fresh, foldl_mem]

theorem execI2cComplete_mem (p : Fin 3) (ack : Bool) (data : Byte) (s : State) : (stateOr (execI2cComplete p ack data s) s).mem = s.mem := by
  unfold execI2cComplete
  simp only [↓onPort_mem, ↓setB_mem, ↓setF_mem, ↓bump_mem, ↓ptEvt_mem, apply_ite State.mem, ite_self, stateOr_next, stateOr_ite]

theorem freeRate_mem (p : Nat) (s : State) : (freeRate p s).mem = s.mem := by
  unfold freeRate
  simp only [↓onPort_mem]

theorem handRest_mem (id : Nat) (s : State) : (handRest id s).mem = s.mem := by
  unfold handRest
  split <;> simp only [↓handOver_mem]

theorem updEnv_mem (id : Nat) (f : Envelope → Envelope) (s : State) : (updEnv id f s).mem = s.mem := by
  unfold updEnv
  simp only [↓onOffice_mem]

theorem finishBad_mem (id : Nat) (s : State) : (finishBad id s).mem = s.mem := by
  unfold finishBad
  split <;> simp only [↓dropTarget_mem, ↓handRest_mem, ↓updEnv_mem, ↓updStored_mem, implies_true, foldl_mem]

theorem cutReception_mem (p : Nat) (s : State) : (cutReception p s).mem = s.mem := by
  unfold cutReception
  grind [bump_mem, onPort_mem, returnCredit_mem, finishBad_mem, updEnv_mem, stateOr, Clock.state, fresh, foldl_mem]

theorem countLost_mem (p : Nat) (s : State) : (countLost p s).mem = s.mem := by
  unfold countLost
  simp only [↓bumpN_mem, ↓onPort_mem, implies_true, foldl_mem]

theorem setPeer_mem (r : Option Nat) (s : State) : (setPeer r s).mem = s.mem := by
  unfold setPeer
  simp only

theorem leaveLink_mem (p : Nat) (cause : Option Nat) (s : State) : (leaveLink p cause s).mem = s.mem := by
  unfold leaveLink
  simp only [↓setB_mem, ↓cutReception_mem, ↓countLost_mem, ↓onPort_mem, ↓handBackAll_mem, ↓reviewJunction_mem, ↓setPeer_mem, apply_ite State.mem, ite_self]

theorem dropLink_mem (p : Nat) (s : State) : (dropLink p s).mem = s.mem := by
  exact leaveLink_mem p none s

theorem disablePort_mem (p : Nat) (s : State) : (disablePort p s).mem = s.mem := by
  unfold disablePort
  simp only [↓setPortState_mem, ↓setB_mem, ↓freeRate_mem, ↓dropLink_mem, ↓cutReception_mem, apply_ite State.mem, ite_self]

theorem enablePort_mem (p : Nat) (s : State) : (enablePort p s).mem = s.mem := by
  unfold enablePort
  simp only [↓seekModule_mem, ↓freeRate_mem]

theorem retrainPort_mem (p : Nat) (s : State) : (retrainPort p s).mem = s.mem := by
  unfold retrainPort
  simp only [↓startSearch_mem, ↓freeRate_mem, ↓dropLink_mem, ↓cutReception_mem, apply_ite State.mem, ite_self]

theorem writePtCtl_mem (p : Nat) (v : Word) (s : State) : (writePtCtl p v s).mem = s.mem := by
  unfold writePtCtl
  simp only [↓declineWrite_mem, ↓ptEvt_mem, ↓plainWrite_mem, ↓disablePort_mem, ↓enablePort_mem, ↓retrainPort_mem, apply_ite State.mem, ite_self]

theorem execPortDisable_mem (m : Master) (p : Fin 3) (v : Word) (s : State) : (stateOr (execPortDisable m p v s) s).mem = s.mem := by
  unfold execPortDisable
  simp only [↓guardWrite_mem, ↓writePtCtl_mem, stateOr_next, implies_true]

theorem sendCensus_mem (p : Nat) (op : Nat) (ws : List DWord) (s : State) : (sendCensus p op ws s).mem = s.mem := by
  unfold sendCensus
  simp only [↓sendOrWait_mem, ↓bump_mem]

theorem sendNeighbour_mem (p : Nat) (s : State) : (sendNeighbour p s).mem = s.mem := by
  unfold sendNeighbour
  simp only [↓sendCensus_mem, apply_ite State.mem, ite_self]

theorem execDdmPoll_mem (p : Fin 3) (temp : BitVec 16) (vcc : BitVec 16) (bias : BitVec 16) (txpwr : BitVec 16) (rxpwr : BitVec 16) (s : State) : (stateOr (execDdmPoll p temp vcc bias txpwr rxpwr s) s).mem = s.mem := by
  unfold execDdmPoll
  simp only [↓setReg_mem, apply_ite State.mem, ite_self, stateOr_next, stateOr_ite]

theorem headerError_mem (p : Nat) (s : State) : (headerError p s).mem = s.mem := by
  unfold headerError
  simp only [↓bump_mem, ↓onPort_mem, ↓ptEvt_mem]

theorem controlBlock_mem (p : Nat) (s : State) : (controlBlock p s).mem = s.mem := by
  unfold controlBlock
  simp only [↓cutReception_mem, ↓onPort_mem]

theorem receiveIdle_mem (p : Nat) (s : State) : (receiveIdle p s).mem = s.mem := by
  unfold receiveIdle
  simp only [↓bump_mem, ↓controlBlock_mem, apply_ite State.mem, ite_self]

theorem receiveFills_mem (p : Nat) (n : Nat) (s : State) : (receiveFills p n s).mem = s.mem := by
  unfold receiveFills
  simp only [↓bumpN_mem, ↓onPort_mem, apply_ite State.mem, ite_self]

theorem ptNotice_mem (p : Nat) (code : Nat) (arg : Nat) (s : State) : (ptNotice p code arg s).mem = s.mem := by
  unfold ptNotice
  simp only [↓post_mem]

theorem linkUp_mem (p : Nat) (s : State) : (linkUp p s).mem = s.mem := by
  unfold linkUp
  (repeat' split) <;> simp only [↓sendLinkEvent_mem, ↓removeBnd_mem]

theorem enterUp_mem (p : Nat) (s : State) : (enterUp p s).mem = s.mem := by
  unfold enterUp
  simp only [↓setPortState_mem, ↓onPort_mem, ↓ptNotice_mem, ↓setB_mem, ↓sendNeighbour_mem, ↓linkUp_mem, apply_ite State.mem, ite_self]

theorem receiveStamp_mem (p : Nat) (w : Nat) (s : State) : (receiveStamp p w s).mem = s.mem := by
  unfold receiveStamp
  simp only [↓bump_mem, ↓controlBlock_mem, ↓bumpN_mem, ↓onPort_mem, ↓setF_mem, ↓enterUp_mem, apply_ite State.mem, ite_self]

theorem linkDown_mem (p : Nat) (cause : Nat) (s : State) : (linkDown p cause s).mem = s.mem := by
  unfold linkDown
  split <;> simp only [↓sendLinkEvent_mem, ↓enterBnd_mem, apply_ite State.mem, ite_self]

theorem leaveUp_mem (p : Nat) (cause : Nat) (rate : Nat) (s : State) : (leaveUp p cause rate s).mem = s.mem := by
  unfold leaveUp
  simp only [↓bump_mem, ↓ptEvt_mem, ↓startSearch_mem, ↓linkDown_mem, ↓ptNotice_mem, ↓leaveLink_mem]

theorem enterReady_mem (p : Nat) (s : State) : (enterReady p s).mem = s.mem := by
  unfold enterReady
  simp only [↓onPort_mem, ↓setPortState_mem]

theorem receiveTrain_mem (p : Nat) (w : Nat) (s : State) : (receiveTrain p w s).mem = s.mem := by
  unfold receiveTrain
  simp only [↓bump_mem, ↓controlBlock_mem, ↓setF_mem, ↓setReg_mem, ↓leaveUp_mem, ↓setPortState_mem, ↓ptEvt_mem, ↓ptNotice_mem, ↓onPort_mem, ↓enterReady_mem, apply_ite State.mem, ite_self]

theorem auditClass_mem (p : Nat) (c : Nat) (count : Nat) (s : State) : (auditClass p c count s).1.mem = s.mem := by
  unfold auditClass
  grind [bump_mem, onPort_mem, returnCredit_mem, ptEvt_mem, bumpN_mem, stateOr, Clock.state, fresh, foldl_mem]

theorem auditAll_mem (p : Nat) (w : Nat) (x0 : List (Nat × Nat)) (s : State) : (auditAll p w x0 s).1.mem = s.mem := by
  induction x0 generalizing s with
  | nil => rfl
  | cons f fs ih => unfold auditAll; exact (ih _).trans (auditClass_mem _ _ _ _)

theorem receiveAudit_mem (p : Nat) (w : Nat) (s : State) : (receiveAudit p w s).mem = s.mem := by
  unfold receiveAudit
  split
  · rfl
  · extract_lets s1 x
    have h1 : s1.mem = s.mem := (bump_mem _ _).trans (controlBlock_mem _ _)
    have h2 : x.1.mem = s1.mem := auditAll_mem _ _ _ _
    clear_value x s1
    split
    · exact (leaveUp_mem _ _ _ _).trans (h2.trans h1)
    · exact h2.trans h1

theorem receiveControl_mem (p : Nat) (w : DWord) (s : State) : (receiveControl p w s).mem = s.mem := by
  unfold receiveControl
  simp only [↓receiveIdle_mem, ↓receiveFills_mem, ↓receiveStamp_mem, ↓receiveTrain_mem, ↓receiveAudit_mem, ↓badBlock_mem, apply_ite State.mem, ite_self]

theorem execStamp_mem (p : Fin 3) (w : DWord) (s : State) : (stateOr (execStamp p w s) s).mem = s.mem := by
  unfold execStamp
  simp only [↓receiveControl_mem, stateOr_next]

theorem loseModule_mem (p : Nat) (s : State) : (loseModule p s).mem = s.mem := by
  unfold loseModule
  simp only [↓onPort_mem, ↓setPortState_mem, ↓setB_mem, ↓dropLink_mem, ↓cutReception_mem, apply_ite State.mem, ite_self]

theorem execModuleChange_mem (p : Fin 3) (absent : Bool) (s : State) : (stateOr (execModuleChange p absent s) s).mem = s.mem := by
  unfold execModuleChange
  simp only [↓ptEvt_mem, ↓setB_mem, ↓ptNotice_mem, ↓loseModule_mem, apply_ite State.mem, ite_self, stateOr_next, stateOr_ite]

theorem writeI2cCmd_mem (p : Nat) (v : Word) (s : State) : (writeI2cCmd p v s).mem = s.mem := by
  unfold writeI2cCmd
  simp only [↓declineWrite_mem, ↓ptEvt_mem, ↓onPort_mem, ↓plainWrite_mem, apply_ite State.mem, ite_self]

theorem execModuleQualify_mem (p : Fin 3) (id : Byte) (diag : Byte) (s : State) : (stateOr (execModuleQualify p id diag s) s).mem = s.mem := by
  unfold execModuleQualify
  simp only [↓setF_mem, ↓setB_mem, ↓onPort_mem, ↓startSearch_mem, ↓loseModule_mem, ↓ptNotice_mem, ↓ptEvt_mem, apply_ite State.mem, ite_self, stateOr_next, stateOr_ite]

theorem sendStamp_mem (p : Nat) (s : State) : (sendStamp p s).mem = s.mem := by
  unfold sendStamp
  simp only [↓bump_mem, ↓setPort_mem, ↓sendBlock_mem, ↓onPort_mem, apply_ite State.mem, ite_self]

theorem execStampSend_mem (p : Fin 3) (s : State) : (stateOr (execStampSend p s) s).mem = s.mem := by
  unfold execStampSend
  simp only [↓onPort_mem, ↓sendStamp_mem, apply_ite State.mem, ite_self, stateOr_next, stateOr_ite]

theorem execBlockLock_mem (p : Fin 3) (s : State) : (stateOr (execBlockLock p s) s).mem = s.mem := by
  unfold execBlockLock
  simp only [↓setPortState_mem, ↓setB_mem, apply_ite State.mem, ite_self, stateOr_next, stateOr_ite]

end Sys2Proof.Machine
end

