-- ==== Sys2Proof/Laws/Memory2.lean ====
section
/-! SUPPORT. Operations and meanings that leave every memory byte as it is. The operations and meanings of Ports, Census, DeadLetters, Bridge, Tables, Counters, Images, Interlock, Integrity, Time, NetTime. -/

namespace Sys2Proof.Machine

theorem execHuntEnd_mem (p : Fin 3) (s : State) : (stateOr (execHuntEnd p s) s).mem = s.mem := by
  unfold execHuntEnd
  simp only [↓receiveIdle_mem, stateOr_next]

theorem execBadBlock_mem (p : Fin 3) (s : State) : (stateOr (execBadBlock p s) s).mem = s.mem := by
  unfold execBadBlock
  simp only [↓badBlock_mem, stateOr_next]

theorem execRetrain_mem (m : Master) (p : Fin 3) (v : Word) (s : State) : (stateOr (execRetrain m p v s) s).mem = s.mem := by
  unfold execRetrain
  simp only [↓guardWrite_mem, ↓writePtCtl_mem, stateOr_next, implies_true]

theorem execRateAlternate_mem (p : Fin 3) (s : State) : (stateOr (execRateAlternate p s) s).mem = s.mem := by
  unfold execRateAlternate
  simp only [↓startSearch_mem, apply_ite State.mem, ite_self, stateOr_next, stateOr_ite]

theorem handMark_mem (p : Nat) (e : Envelope) (mark : RingMark) (s : State) : (handMark p e mark s).mem = s.mem := by
  unfold handMark
  simp only [↓onNet_mem, apply_ite State.mem, ite_self]

theorem execAudit_mem (p : Fin 3) (w : DWord) (s : State) : (stateOr (execAudit p w s) s).mem = s.mem := by
  unfold execAudit
  simp only [↓receiveControl_mem, stateOr_next]

theorem writePtSdsRx_mem (p : Nat) (v : Word) (s : State) : (writePtSdsRx p v s).mem = s.mem := by
  unfold writePtSdsRx
  simp only [↓declineWrite_mem, ↓ptEvt_mem, ↓plainWrite_mem, apply_ite State.mem, ite_self]

theorem execReadyTimeout_mem (p : Fin 3) (s : State) : (stateOr (execReadyTimeout p s) s).mem = s.mem := by
  unfold execReadyTimeout
  simp only [↓setPortState_mem, apply_ite State.mem, ite_self, stateOr_next]

theorem countReceived_mem (p : Nat) (e : Envelope) (s : State) : (countReceived p e s).mem = s.mem := by
  unfold countReceived
  simp only [↓onPort_mem, apply_ite State.mem, ite_self]

theorem beginReception_mem (p : Nat) (e : Envelope) (mark : RingMark) (s : State) : (beginReception p e mark s).mem = s.mem := by
  unfold beginReception
  simp only [↓onPort_mem, ↓countReceived_mem]

theorem execHeaderReceived_mem (p : Fin 3) (e : Envelope) (age : Nat) (ph : Fin 32) (s : State) : (stateOr (execHeaderReceived p e age ph s) s).mem = s.mem := by
  unfold execHeaderReceived
  simp only [↓headerError_mem, ↓beginReception_mem, ↓applyLinks_mem, ↓placeReceived_mem, ↓handMark_mem, ↓onPort_mem, apply_ite State.mem, ite_self, stateOr_next, stateOr_ite]

theorem execLockloss_mem (p : Fin 3) (s : State) : (stateOr (execLockloss p s) s).mem = s.mem := by
  unfold execLockloss
  simp only [↓leaveUp_mem, ↓startSearch_mem, ↓cutReception_mem, apply_ite State.mem, ite_self, stateOr_next, stateOr_ite]

theorem execI2cGo_mem (m : Master) (p : Fin 3) (v : Word) (s : State) : (stateOr (execI2cGo m p v s) s).mem = s.mem := by
  unfold execI2cGo
  simp only [↓guardWrite_mem, ↓writeI2cCmd_mem, stateOr_next, implies_true]

theorem finishReception_mem (p : Nat) (id : Nat) (bad : Bool) (e : Envelope) (s : State) : (finishReception p id bad e s).mem = s.mem := by
  unfold finishReception
  grind [updEnv_mem, finishBad_mem, bump_mem, handRest_mem, keepLinkEvent_mem, updStored_mem, stateOr, Clock.state, fresh, foldl_mem]

theorem execLos_mem (p : Fin 3) (high : Bool) (s : State) : (stateOr (execLos p high s) s).mem = s.mem := by
  unfold execLos
  simp only [↓setB_mem, ↓leaveUp_mem, apply_ite State.mem, ite_self, stateOr_next]

theorem execPortEnable_mem (m : Master) (p : Fin 3) (v : Word) (s : State) : (stateOr (execPortEnable m p v s) s).mem = s.mem := by
  unfold execPortEnable
  simp only [↓guardWrite_mem, ↓writePtCtl_mem, stateOr_next, implies_true]

theorem execHiber_mem (p : Fin 3) (s : State) : (stateOr (execHiber p s) s).mem = s.mem := by
  unfold execHiber
  simp only [↓leaveUp_mem, ↓onPort_mem, apply_ite State.mem, ite_self, stateOr_next, stateOr_ite]

theorem execStampto_mem (p : Fin 3) (s : State) : (stateOr (execStampto p s) s).mem = s.mem := by
  unfold execStampto
  simp only [↓leaveUp_mem, apply_ite State.mem, ite_self, stateOr_next]

theorem receiveWhole_mem (p : Nat) (bad : Bool) (mark : RingMark) (e : Envelope) (s : State) : (receiveWhole p bad mark e s).mem = s.mem := by
  unfold receiveWhole
  (repeat' split) <;> simp only [↓applyLinks_mem, ↓returnCredit_mem, ↓bump_mem, ↓poolDrop_mem, ↓keepLinkEvent_mem, ↓placeReceived_mem, ↓handMark_mem, apply_ite State.mem, ite_self]

theorem execTrain_mem (p : Fin 3) (w : DWord) (s : State) : (stateOr (execTrain p w s) s).mem = s.mem := by
  unfold execTrain
  simp only [↓receiveControl_mem, stateOr_next]

theorem receiveEnvelope_mem (p : Nat) (e : Envelope) (mark : RingMark) (s : State) : (receiveEnvelope p e mark s).mem = s.mem := by
  unfold receiveEnvelope
  (repeat' split) <;> simp only [↓onPort_mem, ↓finishReception_mem, ↓receiveWhole_mem, ↓headerError_mem, ↓beginReception_mem]

theorem execEnvelopeReceived_mem (p : Fin 3) (e : Envelope) (age : Nat) (ph : Fin 32) (fills : Nat) (s : State) : (stateOr (execEnvelopeReceived p e age ph fills s) s).mem = s.mem := by
  unfold execEnvelopeReceived
  simp only [↓receiveFills_mem, ↓bumpN_mem, ↓receiveEnvelope_mem, apply_ite State.mem, ite_self, stateOr_next, stateOr_ite]

theorem paceCells_mem (p : Nat) (s : State) : (paceCells p s).mem = s.mem := by
  unfold paceCells
  (repeat' split) <;> simp only [↓handOver_mem]

theorem noteLast_mem (parts : Nat → List DWord) (p : Nat) (s : State) : (noteLast parts p s).mem = s.mem := by
  unfold noteLast
  split <;> simp only [↓onCensus_mem, apply_ite State.mem, ite_self]

theorem setCnState_mem (n : Nat) (s : State) : (setCnState n s).mem = s.mem := by
  unfold setCnState
  simp only [↓setF_mem]

theorem cnNotice_mem (code : Nat) (arg : Nat) (s : State) : (cnNotice code arg s).mem = s.mem := by
  unfold cnNotice
  simp only [↓postOnce_mem]

theorem enterRing_mem (ring : Nat) (s : State) : (enterRing ring s).mem = s.mem := by
  unfold enterRing
  simp only [↓setF_mem, ↓setCnState_mem, ↓setB_mem, ↓onCensus_mem, ↓submitRecord_mem, ↓cnNotice_mem, apply_ite State.mem, ite_self]

theorem applyMap_mem (ring : Nat) (parts : Nat → List DWord) (s : State) : (applyMap ring parts s).mem = s.mem := by
  unfold applyMap
  simp only [↓setReg_mem, ↓noteLast_mem, ↓enterRing_mem, ↓onCensus_mem, apply_ite State.mem, ite_self, implies_true, foldl_mem]

theorem takeIndex_mem (index : Nat) (pos : Nat) (s : State) : (takeIndex index pos s).mem = s.mem := by
  unfold takeIndex
  simp only [↓setF_mem, ↓setB_mem, ↓setCnState_mem]

theorem noteCensus_mem (e : Envelope) (s : State) : (noteCensus e s).mem = s.mem := by
  unfold noteCensus
  simp only [↓bump_mem, ↓takeDelivered_mem, ↓onCensus_mem, apply_ite State.mem, ite_self]

theorem censusGuard_mem (op : Nat) (e : Envelope) (f : Envelope → State → State) (s : State) (h0 : ∀ y0 x, (f y0 x).mem = x.mem) : (stateOr (censusGuard op e f s) s).mem = s.mem := by
  unfold censusGuard
  simp only [h0, ↓noteCensus_mem, apply_ite State.mem, ite_self, stateOr_next, stateOr_ite]

theorem writeJnCtl_mem (v : Word) (s : State) : (writeJnCtl v s).mem = s.mem := by
  unfold writeJnCtl
  simp only [↓declineWrite_mem, ↓setB_mem, ↓judgePeer_mem, ↓plainWrite_mem, apply_ite State.mem, ite_self]

theorem startWestLeg_mem (s : State) : (startWestLeg s).mem = s.mem := by
  unfold startWestLeg
  simp only [↓sendCensus_mem, ↓onCensus_mem, apply_ite State.mem, ite_self]

theorem rootNumber_mem (p : Nat) (e : Envelope) (s : State) : (rootNumber p e s).mem = s.mem := by
  unfold rootNumber
  simp only [↓startWestLeg_mem, ↓onCensus_mem, apply_ite State.mem, ite_self]

theorem noteAcross_mem (p : Nat) (e : Envelope) (s : State) : (noteAcross p e s).mem = s.mem := by
  unfold noteAcross
  simp only [↓onCensus_mem, apply_ite State.mem, ite_self]

theorem passWave_mem (arrived : Nat) (onward : Nat) (turns : Nat) (ws : List DWord) (s : State) : (passWave arrived onward turns ws s).mem = s.mem := by
  unfold passWave
  simp only [↓sendCensus_mem, apply_ite State.mem, ite_self]

theorem sendReply_mem (r : Reply) (s : State) : (sendReply r s).mem = s.mem := by
  unfold sendReply
  simp only [↓sendOrWait_mem]

theorem answerCensus_mem (r : Reply) (s : State) : (answerCensus r s).mem = s.mem := by
  unfold answerCensus
  simp only [↓sendReply_mem, ↓onCensus_mem]

theorem noIndex_mem (r : Reply) (s : State) : (noIndex r s).mem = s.mem := by
  unfold noIndex
  simp only [↓cnNotice_mem, ↓answerCensus_mem, ↓setCnState_mem]

theorem receiveNumber_mem (p : Nat) (e : Envelope) (renumber : Bool) (s : State) : (receiveNumber p e renumber s).mem = s.mem := by
  unfold receiveNumber
  grind [setF_mem, noteAcross_mem, passWave_mem, onCensus_mem, answerCensus_mem, takeIndex_mem, noIndex_mem, stateOr, Clock.state, fresh, foldl_mem]

theorem execNumber_mem (p : Fin 3) (e : Envelope) (renumber : Bool) (s : State) : (stateOr (execNumber p e renumber s) s).mem = s.mem := by
  unfold execNumber
  simp only [↓censusGuard_mem, ↓noteCensus_mem, ↓rootNumber_mem, ↓noteAcross_mem, ↓receiveNumber_mem, apply_ite State.mem, ite_self, implies_true]

theorem receiveNeighbour_mem (p : Nat) (e : Envelope) (s : State) : (receiveNeighbour p e s).mem = s.mem := by
  unfold receiveNeighbour
  simp only [↓noteAcross_mem, ↓noteCensus_mem, ↓setB_mem, ↓setF_mem, ↓onCensus_mem, ↓judgePeer_mem, ↓setPeer_mem, apply_ite State.mem, ite_self]

theorem showElecting_mem (s : State) : (showElecting s).mem = s.mem := by
  unfold showElecting
  simp only [↓setCnState_mem, apply_ite State.mem, ite_self]

theorem sendClaim_mem (p : Nat) (ws : List DWord) (s : State) : (sendClaim p ws s).mem = s.mem := by
  unfold sendClaim
  simp only [↓sendCensus_mem, apply_ite State.mem, ite_self]

theorem startElection_mem (s : State) : (startElection s).mem = s.mem := by
  unfold startElection
  simp only [↓showElecting_mem, ↓bump_mem, ↓onCensus_mem, ↓sendClaim_mem, apply_ite State.mem, ite_self]

theorem startWave_mem (s : State) : (startWave s).mem = s.mem := by
  unfold startWave
  simp only [↓takeIndex_mem, ↓setF_mem, ↓onCensus_mem, ↓sendCensus_mem, ↓startWestLeg_mem, apply_ite State.mem, ite_self]

theorem becomeRoot_mem (s : State) : (becomeRoot s).mem = s.mem := by
  unfold becomeRoot
  simp only [↓setF_mem, ↓setB_mem, ↓onCensus_mem, ↓cnNotice_mem, ↓startWave_mem, apply_ite State.mem, ite_self]

theorem receiveClaim_mem (p : Nat) (e : Envelope) (s : State) : (receiveClaim p e s).mem = s.mem := by
  unfold receiveClaim
  simp only [↓showElecting_mem, ↓noteCensus_mem, ↓becomeRoot_mem, ↓onCensus_mem, ↓sendClaim_mem, apply_ite State.mem, ite_self]

theorem writeRtGrp_mem (j : Nat) (v : Word) (s : State) : (writeRtGrp j v s).mem = s.mem := by
  unfold writeRtGrp
  simp only [↓plainWrite_mem]

theorem execClaim_mem (p : Fin 3) (e : Envelope) (s : State) : (stateOr (execClaim p e s) s).mem = s.mem := by
  unfold execClaim
  simp only [↓censusGuard_mem, ↓receiveClaim_mem, implies_true]

theorem writeCnCmd_mem (v : Word) (s : State) : (writeCnCmd v s).mem = s.mem := by
  unfold writeCnCmd
  simp only [↓plainWrite_mem, ↓startElection_mem, ↓startWave_mem, ↓onCensus_mem, ↓setB_mem, apply_ite State.mem, ite_self]

theorem execCnClaim_mem (m : Master) (v : Word) (s : State) : (stateOr (execCnClaim m v s) s).mem = s.mem := by
  unfold execCnClaim
  simp only [↓guardWrite_mem, ↓writeCnCmd_mem, stateOr_next, implies_true]

theorem receiveCommit_mem (e : Envelope) (s : State) : (receiveCommit e s).mem = s.mem := by
  unfold receiveCommit
  grind [noteCensus_mem, setB_mem, onCensus_mem, setF_mem, applyMap_mem, stateOr, Clock.state, fresh, foldl_mem]

theorem execCommit_mem (p : Fin 3) (e : Envelope) (s : State) : (stateOr (execCommit p e s) s).mem = s.mem := by
  unfold execCommit
  simp only [↓censusGuard_mem, ↓receiveCommit_mem, apply_ite State.mem, ite_self, implies_true]

theorem receiveReply_mem (e : Envelope) (s : State) : (receiveReply e s).mem = s.mem := by
  unfold receiveReply
  simp only [↓takeDelivered_mem, ↓onCensus_mem, ↓cnNotice_mem, apply_ite State.mem, ite_self]

theorem execCensusReply_mem (p : Fin 3) (e : Envelope) (s : State) : (stateOr (execCensusReply p e s) s).mem = s.mem := by
  unfold execCensusReply
  simp only [↓receiveReply_mem, apply_ite State.mem, ite_self, stateOr_next]

theorem execNeighbour_mem (p : Fin 3) (e : Envelope) (s : State) : (stateOr (execNeighbour p e s) s).mem = s.mem := by
  unfold execNeighbour
  simp only [↓censusGuard_mem, ↓receiveNeighbour_mem, implies_true]

theorem execLinkEvent_mem (p : Fin 3) (e : Envelope) (s : State) : (stateOr (execLinkEvent p e s) s).mem = s.mem := by
  unfold execLinkEvent
  simp only [↓takeDelivered_mem, ↓applyLink_mem, ↓onCensus_mem, apply_ite State.mem, ite_self, stateOr_next, stateOr_ite]

theorem execRenumber_mem (m : Master) (v : Word) (s : State) : (stateOr (execRenumber m v s) s).mem = s.mem := by
  unfold execRenumber
  simp only [↓guardWrite_mem, ↓writeCnCmd_mem, stateOr_next, implies_true]

theorem execReplyResend_mem (s : State) : (stateOr (execReplyResend s) s).mem = s.mem := by
  unfold execReplyResend
  (repeat' split) <;> simp only [↓sendReply_mem, stateOr_next]

theorem execElectionStart_mem (s : State) : (stateOr (execElectionStart s) s).mem = s.mem := by
  unfold execElectionStart
  simp only [↓startElection_mem, stateOr_next]

theorem execJoin_mem (s : State) : (stateOr (execJoin s) s).mem = s.mem := by
  unfold execJoin
  simp only [↓noIndex_mem, ↓answerCensus_mem, ↓takeIndex_mem, apply_ite State.mem, ite_self, stateOr_next, stateOr_ite]

theorem execCommitSend_mem (s : State) : (stateOr (execCommitSend s) s).mem = s.mem := by
  unfold execCommitSend
  simp only [↓sendOrWait_mem, ↓bump_mem, ↓onCensus_mem, ↓applyMap_mem, apply_ite State.mem, ite_self, stateOr_next, stateOr_ite, implies_true, foldl_mem]

theorem setWords_mem (a : Nat) (x0 : List Word) (s : State) : (setWords a x0 s).mem = s.mem := by
  induction x0 generalizing s a with
  | nil => rfl
  | cons w ws ih => unfold setWords; rw [ih, setReg_mem]

theorem logRecord_mem (v : Verdict) (e : Envelope) (s : State) : (logRecord v e s).mem = s.mem := by
  unfold logRecord
  simp only [↓bump_mem, ↓setB_mem, ↓dlNotice_mem, ↓onDead_mem, ↓setWords_mem, ↓consumePoison_mem, ↓setF_mem, apply_ite State.mem, ite_self]

theorem execPrefetchHoldExpiry_mem (k : Fin 4) (s : State) : (stateOr (execPrefetchHoldExpiry k s) s).mem = s.mem := by
  unfold execPrefetchHoldExpiry
  simp only [↓dropBuf_mem, stateOr_next]

theorem writeUpTail_mem (v : Word) (s : State) : (writeUpTail v s).mem = s.mem := by
  unfold writeUpTail
  simp only [↓setB_mem, ↓declineWrite_mem, ↓plainWrite_mem, apply_ite State.mem, ite_self]

theorem execUpTailWrite_mem (m : Master) (v : Word) (s : State) : (stateOr (execUpTailWrite m v s) s).mem = s.mem := by
  unfold execUpTailWrite
  simp only [↓guardWrite_mem, ↓writeUpTail_mem, stateOr_next, implies_true]

theorem writeDlTail_mem (v : Word) (s : State) : (writeDlTail v s).mem = s.mem := by
  unfold writeDlTail
  simp only [↓setB_mem, ↓declineWrite_mem, ↓plainWrite_mem, apply_ite State.mem, ite_self]

theorem execDlTailWrite_mem (m : Master) (v : Word) (s : State) : (stateOr (execDlTailWrite m v s) s).mem = s.mem := by
  unfold execDlTailWrite
  simp only [↓guardWrite_mem, ↓writeDlTail_mem, stateOr_next, implies_true]

theorem writeDlFaddr_mem (v : Word) (s : State) : (writeDlFaddr v s).mem = s.mem := by
  unfold writeDlFaddr
  simp only [↓setB_mem, ↓declineWrite_mem, ↓plainWrite_mem, apply_ite State.mem, ite_self]

theorem dropFences_mem (c : Nat) (s : State) : (dropFences c s).mem = s.mem := by
  unfold dropFences
  simp only [↓onBridge_mem]

theorem endChannel_mem (c : Nat) (st : Nat) (reason : Nat) (cause : Nat) (pieces : Nat) (s : State) : (endChannel c st reason cause pieces s).mem = s.mem := by
  unfold endChannel
  simp only [↓setF_mem, ↓onChan_mem, ↓dropFences_mem, ↓postOpen_mem, apply_ite State.mem, ite_self]

theorem setSlot_mem (i : Nat) (x : NpSlot) (s : State) : (setSlot i x s).mem = s.mem := by
  unfold setSlot
  simp only [↓onBridge_mem]

theorem moveFences_mem (c : Nat) (i : Nat) (g : Nat) (s : State) : (moveFences c i g s).mem = s.mem := by
  unfold moveFences
  simp only [↓onBridge_mem]

theorem allocate_mem (c : Nat) (s : State) : (allocate c s).mem = s.mem := by
  unfold allocate
  grind [setSlot_mem, setF_mem, moveFences_mem, onChan_mem, stateOr, Clock.state, fresh, foldl_mem]

theorem takePosted_mem (mi : Nat) (s : State) : (takePosted mi s).2.2.mem = s.mem := by
  unfold takePosted; exact onBridge_mem _ _
theorem issue_mem (c : Nat) (ntc : Bool) (s : State) : (issue c ntc s).mem = s.mem := by
  unfold issue
  extract_lets mi e r s1 s2
  have h2 : s2.mem = s.mem := by
    rw [show s2 = onChan c _ s1 from rfl, onChan_mem, show s1 = setF _ _ _ _ from rfl, setF_mem, setReg_mem]
  split
  · rw [endChannel_mem, bump_mem, setB_mem, h2]
  · split
    · dsimp only
      rw [onChan_mem, setF_mem, takePosted_mem, h2]
    · rename_i cv s3 e3 s4 _ _
      have h3 : s3.mem = s.mem := by
        show (if cv then _ else _ : State).mem = _
        split
        · exact (bump_mem _ _).trans h2
        · exact h2
      have h4 : s4.mem = s.mem := (onChan_mem _ _ _).trans h3
      clear_value s4
      split
      · exact (bump_mem _ _).trans h4
      · exact (allocate_mem _ _).trans h4

theorem writeOcData_mem (c : Nat) (j : Nat) (v : Word) (s : State) : (writeOcData c j v s).mem = s.mem := by
  unfold writeOcData
  simp only [↓declineWrite_mem, ↓setB_mem, ↓onChan_mem, ↓plainWrite_mem, apply_ite State.mem, ite_self]

theorem quarantineSlot_mem (i : Nat) (s : State) : (quarantineSlot i s).mem = s.mem := by
  unfold quarantineSlot
  simp only [↓setSlot_mem]

theorem execResponseTimeout_mem (index : Fin 512) (s : State) : (stateOr (execResponseTimeout index s) s).mem = s.mem := by
  unfold execResponseTimeout
  (repeat' split) <;> simp only [↓bump_mem, ↓setB_mem, ↓quarantineSlot_mem, ↓endChannel_mem, stateOr_next]

theorem writeOcCmd_mem (c : Nat) (v : Word) (s : State) : (writeOcCmd c v s).mem = s.mem := by
  unfold writeOcCmd
  simp only [↓setB_mem, ↓declineWrite_mem, ↓issue_mem, ↓plainWrite_mem, apply_ite State.mem, ite_self]

theorem execDlForward_mem (s : State) : (stateOr (execDlForward s) s).mem = s.mem := by
  unfold execDlForward
  simp only [↓bumpN_mem, ↓onDead_mem, ↓setReg_mem, ↓setWords_mem, ↓onChan_mem, ↓writeOcCmd_mem, apply_ite State.mem, ite_self, stateOr_next, stateOr_ite]

theorem keepStamp_mem (index : Nat) (gen : Nat) (w : BitVec 32) (s : State) : (keepStamp index gen w s).mem = s.mem := by
  unfold keepStamp
  simp only [↓onBridge_mem]

theorem acceptChannel_mem (c : Nat) (s : State) : (acceptChannel c s).mem = s.mem := by
  unfold acceptChannel
  grind [allocate_mem, originate_mem, setSlot_mem, endChannel_mem, dropFences_mem, onChan_mem, keepStamp_mem, setF_mem, stateOr, Clock.state, fresh, foldl_mem]

theorem execChannelAccepted_mem (c : Fin 4) (s : State) : (stateOr (execChannelAccepted c s) s).mem = s.mem := by
  unfold execChannelAccepted
  simp only [↓acceptChannel_mem, stateOr_next]

theorem landData_mem (c : Nat) (e : Envelope) (s : State) : (landData c e s).mem = s.mem := by
  unfold landData
  simp only [↓setWords_mem, ↓consumePoison_mem, ↓setB_mem, ↓onChan_mem, apply_ite State.mem, ite_self]

theorem completeChannel_mem (c : Nat) (e : Envelope) (s : State) : (completeChannel c e s).mem = s.mem := by
  unfold completeChannel
  simp only [↓endChannel_mem, ↓landData_mem, apply_ite State.mem, ite_self]

theorem logAnswer_mem (v : Verdict) (e : Envelope) (s : State) : (logAnswer v e s).mem = s.mem := by
  unfold logAnswer
  simp only [↓bump_mem, ↓logRecord_mem, apply_ite State.mem, ite_self]

theorem judgeAnswer_mem (e : Envelope) (s : State) : (judgeAnswer e s).mem = s.mem := by
  unfold judgeAnswer
  grind [quarantineSlot_mem, completeChannel_mem, logAnswer_mem, stateOr, Clock.state, fresh, foldl_mem]

theorem takeAnswer_mem (e : Envelope) (s : State) : (takeAnswer e s).mem = s.mem := by
  unfold takeAnswer
  simp only [↓bump_mem, ↓judgeAnswer_mem, apply_ite State.mem, ite_self]

theorem answerRow_mem (k : BitVec 5) (e : Envelope) (s : State) : (stateOr (answerRow k e s) s).mem = s.mem := by
  unfold answerRow
  simp only [↓takeAnswer_mem, ↓takeDelivered_mem, stateOr_next]

theorem execWriteAck_mem (e : Envelope) (s : State) : (stateOr (execWriteAck e s) s).mem = s.mem := by
  unfold execWriteAck
  simp only [↓answerRow_mem]

theorem execNdn_mem (e : Envelope) (s : State) : (stateOr (execNdn e s) s).mem = s.mem := by
  unfold execNdn
  simp only [↓answerRow_mem]

theorem execReadData_mem (e : Envelope) (s : State) : (stateOr (execReadData e s) s).mem = s.mem := by
  unfold execReadData
  simp only [↓answerRow_mem]

theorem execQuarantineEnd_mem (index : Fin 512) (s : State) : (stateOr (execQuarantineEnd index s) s).mem = s.mem := by
  unfold execQuarantineEnd
  simp only [↓setSlot_mem, apply_ite State.mem, ite_self, stateOr_next, stateOr_ite]

theorem execChannelGo_mem (m : Master) (c : Fin 4) (v : Word) (s : State) : (stateOr (execChannelGo m c v s) s).mem = s.mem := by
  unfold execChannelGo
  simp only [↓guardWrite_mem, ↓writeOcCmd_mem, stateOr_next, implies_true]

theorem execNoticeEnvelopeBuild_mem (q : Fin 32) (bad : BitVec 32) (s : State) : (stateOr (execNoticeEnvelopeBuild q bad s) s).mem = s.mem := by
  unfold execNoticeEnvelopeBuild
  simp only [↓pointerCheck_mem, ↓bump_mem, ↓setB_mem, ↓setPh_mem, ↓onBridge_mem, apply_ite State.mem, ite_self, stateOr_next, stateOr_ite]

theorem execNoticeEnvelopeRelease_mem (q : Fin 32) (s : State) : (stateOr (execNoticeEnvelopeRelease q s) s).mem = s.mem := by
  unfold execNoticeEnvelopeRelease
  grind [originate_mem, setPh_mem, onBridge_mem, stateOr, Clock.state, fresh, foldl_mem]

theorem writePfa_mem (n : Nat) (part : Nat) (v : Word) (s : State) : (writePfa n part v s).mem = s.mem := by
  unfold writePfa
  simp only [↓setB_mem, ↓declineWrite_mem, ↓plainWrite_mem, apply_ite State.mem, ite_self]

theorem setAtStage_mem (t : Nat) (g : Option AtStage) (s : State) : (setAtStage t g s).mem = s.mem := by
  unfold setAtStage
  simp only [↓onTables_mem]

theorem commitEntry_mem (id : MasterId) (t : Nat) (e : Nat) (v : Word) (s : State) : (commitEntry id t e v s).mem = s.mem := by
  unfold commitEntry
  simp only [↓countPart_mem, ↓setAtStage_mem, ↓bump_mem, ↓setB_mem, ↓rewritten_mem, ↓setReg_mem, apply_ite State.mem, ite_self]

theorem execAtEntryCommit_mem (m : Master) (t : Fin 148) (e : Fin 16) (v : Word) (s : State) : (stateOr (execAtEntryCommit m t e v s) s).mem = s.mem := by
  unfold execAtEntryCommit
  simp only [↓guardWrite_mem, ↓commitEntry_mem, stateOr_next, implies_true]

theorem writeFuseCmd_mem (m : Master) (v : Word) (s : State) : (writeFuseCmd m v s).mem = s.mem := by
  unfold writeFuseCmd
  simp only [↓countPart_mem, ↓setReg_mem, ↓onTables_mem, ↓setB_mem, apply_ite State.mem, ite_self]

theorem execFuseRevoke_mem (m : Master) (v : Word) (s : State) : (stateOr (execFuseRevoke m v s) s).mem = s.mem := by
  unfold execFuseRevoke
  simp only [↓guardWrite_mem, ↓writeFuseCmd_mem, stateOr_next, implies_true]

theorem blowKeys_mem (bit : Nat) (s : State) : (blowKeys bit s).mem = s.mem := by
  unfold blowKeys
  simp only [↓setReg_mem]

theorem execFuseProgram_mem (m : Master) (v : Word) (s : State) : (stateOr (execFuseProgram m v s) s).mem = s.mem := by
  unfold execFuseProgram
  simp only [↓guardWrite_mem, ↓writeFuseCmd_mem, stateOr_next, implies_true]

theorem execFuseDone_mem (matched : Bool) (s : State) : (stateOr (execFuseDone matched s) s).mem = s.mem := by
  unfold execFuseDone
  split <;> simp only [↓setB_mem, ↓onTables_mem, ↓blowKeys_mem, ↓setReg_mem, apply_ite State.mem, ite_self, stateOr_next, stateOr_ite, implies_true, foldl_mem]

theorem writeKeyStage_mem (j : Nat) (v : Word) (s : State) : (writeKeyStage j v s).mem = s.mem := by
  unfold writeKeyStage
  simp only [↓onTables_mem]

theorem stageEntry_mem (id : MasterId) (t : Nat) (e : Nat) (k : Nat) (v : Word) (s : State) : (stageEntry id t e k v s).mem = s.mem := by
  unfold stageEntry
  simp only [↓countPart_mem, ↓setAtStage_mem]

theorem execAtEntryStage_mem (m : Master) (t : Fin 148) (e : Fin 16) (k : Fin 2) (v : Word) (s : State) : (stateOr (execAtEntryStage m t e k v s) s).mem = s.mem := by
  unfold execAtEntryStage
  simp only [↓guardWrite_mem, ↓stageEntry_mem, stateOr_next, implies_true]

theorem cntNotice_mem (code : Nat) (arg : Nat) (s : State) : (cntNotice code arg s).mem = s.mem := by
  unfold cntNotice
  simp only [↓postOnce_mem]

theorem takeSnapshot_mem (id : Nat) (isLocal : Bool) (s : State) : (takeSnapshot id isLocal s).mem = s.mem := by
  unfold takeSnapshot
  simp only [↓onMon_mem, ↓setReg_mem, ↓bump_mem, ↓cntNotice_mem, apply_ite State.mem, ite_self]

theorem refuseMark_mem (f : Fld) (kind : Nat) (id : Nat) (s : State) : (refuseMark f kind id s).mem = s.mem := by
  unfold refuseMark
  simp only [↓cntNotice_mem, ↓bump_mem, ↓setB_mem]

theorem takeBank_mem (b : Nat) (due : List SnapMark) (s : State) : (takeBank b due s).mem = s.mem := by
  unfold takeBank
  grind [takeSnapshot_mem, refuseMark_mem, stateOr, Clock.state, fresh, foldl_mem]

theorem acceptMark_mem (id : Nat) (instant : Nat) (s : State) : (acceptMark id instant s).mem = s.mem := by
  unfold acceptMark
  simp only [↓refuseMark_mem, ↓bump_mem, ↓onMon_mem, apply_ite State.mem, ite_self]

theorem execSnapshotMark_mem (e : Envelope) (s : State) : (stateOr (execSnapshotMark e s) s).mem = s.mem := by
  unfold execSnapshotMark
  simp only [↓takeDelivered_mem, ↓bump_mem, ↓acceptMark_mem, apply_ite State.mem, ite_self, stateOr_next]

theorem execArrayCopyDone_mem (s : State) : (stateOr (execArrayCopyDone s) s).mem = s.mem := by
  unfold execArrayCopyDone
  simp only [↓onMon_mem, ↓setB_mem, apply_ite State.mem, ite_self, stateOr_next, stateOr_ite]

theorem writeCntSnap_mem (v : Word) (s : State) : (writeCntSnap v s).mem = s.mem := by
  unfold writeCntSnap
  simp only [↓plainWrite_mem, ↓setB_mem, ↓takeSnapshot_mem, apply_ite State.mem, ite_self]

theorem execCntSnap_mem (m : Master) (v : Word) (s : State) : (stateOr (execCntSnap m v s) s).mem = s.mem := by
  unfold execCntSnap
  simp only [↓guardWrite_mem, ↓writeCntSnap_mem, stateOr_next, implies_true]

theorem execSnapshotTake_mem (s : State) : (stateOr (execSnapshotTake s) s).mem = s.mem := by
  unfold execSnapshotTake
  simp only [↓onMon_mem, ↓takeBank_mem, stateOr_next]

theorem wordPoison_mem (a : Nat) (place : Nat) (whole : Bool) (pois : Bool) (s : State) : (wordPoison a place whole pois s).mem = s.mem := by
  unfold wordPoison
  simp only [↓setPoison_mem, ↓bump_mem, apply_ite State.mem, ite_self]

theorem offerPartner_mem (type : Nat) (e : Envelope) (s : State) : (offerPartner type e s).1.mem = s.mem := by
  unfold offerPartner
  grind [sendOnPort_mem, bump_mem, stateOr, Clock.state, fresh, foldl_mem]

theorem dpxNotice_mem (code : Nat) (arg : Nat) (s : State) : (dpxNotice code arg s).mem = s.mem := by
  unfold dpxNotice
  simp only [↓postOnce_mem]

theorem selfTestKick_mem (s : State) : (selfTestKick s).mem = s.mem := by
  unfold selfTestKick
  simp only [↓bump_mem, ↓setF_mem, apply_ite State.mem, ite_self]

theorem healthReport_mem (cause : Nat) (s : State) : (healthReport cause s).mem = s.mem := by
  unfold healthReport
  simp only [↓originate_mem, ↓onDpx_mem, apply_ite State.mem, ite_self]

theorem setDpxState_mem (st : Nat) (cause : Nat) (s : State) : (setDpxState st cause s).mem = s.mem := by
  unfold setDpxState
  simp only [↓setF_mem, ↓dpxNotice_mem, ↓selfTestKick_mem, ↓healthReport_mem, apply_ite State.mem, ite_self]

theorem silence_mem (s : State) : (silence s).mem = s.mem := by
  unfold silence
  simp only [↓bump_mem, ↓dropTarget_mem, apply_ite State.mem, ite_self, implies_true, foldl_mem]

theorem cutFrames_mem (s : State) : (cutFrames s).mem = s.mem := by
  unfold cutFrames
  grind [setReg_mem, stateOr, Clock.state, fresh, foldl_mem]

theorem dropClaim_mem (s : State) : (dropClaim s).mem = s.mem := by
  unfold dropClaim
  simp only [↓bump_mem, ↓setB_mem, ↓cutFrames_mem, ↓onDpx_mem, apply_ite State.mem, ite_self]

theorem giveUp_mem (s : State) : (giveUp s).mem = s.mem := by
  unfold giveUp
  simp only [↓setDpxState_mem, ↓silence_mem, ↓dropClaim_mem, apply_ite State.mem, ite_self]

theorem latchFault_mem (bit : Nat) (s : State) : (latchFault bit s).mem = s.mem := by
  unfold latchFault
  simp only [↓bump_mem, ↓setReg_mem, ↓giveUp_mem, apply_ite State.mem, ite_self]

theorem retryPartner_mem (s : State) (x : Nat × Envelope × Nat) : (retryPartner s x).mem = s.mem := by
  unfold retryPartner
  extract_lets gone
  have hg : ∀ u, (gone u).mem = u.mem := fun u => onDpx_mem _ _
  have h := offerPartner_mem x.1 x.2.1 s
  clear_value gone
  split
  · rename_i t e; rw [e] at h; exact (hg _).trans h
  · rename_i t _ _ e
    rw [e] at h
    split
    · rfl
    · exact (bump_mem _ _).trans ((hg _).trans h)

theorem sendPartner_mem (cls : Nat) (type : Nat) (ws : List DWord) (s : State) : (sendPartner cls type ws s).mem = s.mem := by
  unfold sendPartner
  grind [offerPartner_mem, onDpx_mem, stateOr, Clock.state, fresh, foldl_mem]

theorem retryPartners_mem (s : State) : (retryPartners s).mem = s.mem := by
  unfold retryPartners
  simp only [↓retryPartner_mem, implies_true, foldl_mem]

theorem reviewClaim_mem (s : State) : (reviewClaim s).mem = s.mem := by
  unfold reviewClaim
  simp only [↓dropClaim_mem, apply_ite State.mem, ite_self]

theorem miNotice_mem (inst : Nat) (code : Nat) (arg : Nat) (s : State) : (miNotice inst code arg s).mem = s.mem := by
  unfold miNotice
  simp only [↓postOnce_mem]

theorem freshError_mem (c : Nat) (a : Nat) (place : Nat) (s : State) : (freshError c a place s).mem = s.mem := by
  unfold freshError
  simp only [↓bump_mem, ↓setPoison_mem, ↓setReg_mem, ↓miNotice_mem, ↓latchFault_mem, apply_ite State.mem, ite_self]

theorem correctedWord_mem (c : Nat) (a : Nat) (s : State) : (correctedWord c a s).mem = s.mem := by
  unfold correctedWord
  simp only [↓setReg_mem, ↓bump_mem, ↓setF_mem, ↓miNotice_mem, apply_ite State.mem, ite_self]

theorem parityRecord_mem (kind : Nat) (cap : Nat) (inst : Nat) (a : Nat) (s : State) : (parityRecord kind cap inst a s).mem = s.mem := by
  unfold parityRecord
  simp only [↓bump_mem, ↓setReg_mem, ↓miNotice_mem]

theorem tmNotice_mem (inst : Nat) (code : Nat) (arg : Nat) (s : State) : (tmNotice inst code arg s).mem = s.mem := by
  unfold tmNotice
  simp only [↓postOnce_mem]

theorem applyInc_mem (n : Nat) (inc : Nat) (s : State) : (applyInc n inc s).mem = s.mem := by
  unfold applyInc
  simp only [↓setReg_mem, ↓setItb_mem, ↓bump_mem, ↓setB_mem, ↓tmNotice_mem, apply_ite State.mem, ite_self]

theorem commitInc_mem (id : MasterId) (n : Nat) (v : Word) (s : State) : (commitInc id n v s).mem = s.mem := by
  unfold commitInc
  simp only [↓applyInc_mem, ↓setStage_mem]

theorem execItbIncCommit_mem (m : Master) (n : Fin 4) (v : Word) (s : State) : (stateOr (execItbIncCommit m n v s) s).mem = s.mem := by
  unfold execItbIncCommit
  simp only [↓guardWrite_mem, ↓commitInc_mem, stateOr_next, implies_true]

theorem commitVd_mem (id : MasterId) (d : Nat) (which : Nat) (v : Word) (s : State) : (commitVd id d which v s).mem = s.mem := by
  unfold commitVd
  simp only [↓setStage_mem, ↓onVd_mem, apply_ite State.mem, ite_self]

theorem applyStep_mem (n : Nat) (abs : Bool) (val : Nat) (s : State) : (applyStep n abs val s).mem = s.mem := by
  unfold applyStep
  simp only [↓setItb_mem]

theorem writeVdCtl_mem (d : Nat) (v : Word) (s : State) : (writeVdCtl d v s).mem = s.mem := by
  unfold writeVdCtl
  simp only [↓plainWrite_mem, ↓onVd_mem, apply_ite State.mem, ite_self]

theorem execVdLoad_mem (m : Master) (d : Fin 16) (v : Word) (s : State) : (stateOr (execVdLoad m d v s) s).mem = s.mem := by
  unfold execVdLoad
  simp only [↓guardWrite_mem, ↓writeVdCtl_mem, stateOr_next, implies_true]

theorem markStep_mem (s : State) : (markStep s).mem = s.mem := by
  unfold markStep
  simp only [↓onTime_mem]

theorem noteStep_mem (n : Nat) (s : State) : (noteStep n s).mem = s.mem := by
  unfold noteStep
  simp only [↓bump_mem, ↓setB_mem, ↓tmNotice_mem, ↓markStep_mem, apply_ite State.mem, ite_self]

theorem putVd_mem (d : Nat) (base : Nat) (anchor : Nat) (rate : Nat) (s : State) : (putVd d base anchor rate s).mem = s.mem := by
  unfold putVd
  simp only [↓setReg_mem]

theorem vdEdge_mem (changed : Nat → Bool) (d : Nat) (s : State) : (vdEdge changed d s).mem = s.mem := by
  unfold vdEdge
  simp only [↓onVd_mem, ↓putVd_mem, apply_ite State.mem, ite_self]

theorem fclkEdge_mem (s : State) : (fclkEdge s).mem = s.mem := by
  unfold fclkEdge
  simp only [↓onTime_mem, ↓noteStep_mem, ↓vdEdge_mem, apply_ite State.mem, ite_self, implies_true, foldl_mem]

theorem commitStep_mem (id : MasterId) (n : Nat) (v : Word) (s : State) : (commitStep id n v s).mem = s.mem := by
  unfold commitStep
  simp only [↓applyStep_mem, ↓setStage_mem]

theorem execItbStep_mem (m : Master) (n : Fin 4) (v : Word) (s : State) : (stateOr (execItbStep m n v s) s).mem = s.mem := by
  unfold execItbStep
  simp only [↓guardWrite_mem, ↓commitStep_mem, stateOr_next, implies_true]

theorem timeStarted_mem (p : Nat) (e : Envelope) (m : RingMark) (s : State) : (timeStarted p e m s).mem = s.mem := by
  unfold timeStarted
  grind [onNet_mem, stateOr, Clock.state, fresh, foldl_mem]

theorem timeGuard_mem (kind : BitVec 5) (words : Nat) (age : Nat) (ph : Nat) (e : Envelope) (f : RingMark → Envelope → State → State) (s : State) (h0 : ∀ y0 y1 x, (f y0 y1 x).mem = x.mem) : (stateOr (timeGuard kind words age ph e f s) s).mem = s.mem := by
  unfold timeGuard
  simp only [h0, ↓takeDelivered_mem, apply_ite State.mem, ite_self, stateOr_next]

theorem takeReply_mem (p : Nat) (m : RingMark) (e : Envelope) (s : State) : (takeReply p m e s).mem = s.mem := by
  unfold takeReply
  grind [bump_mem, setReg_mem, onNet_mem, stateOr, Clock.state, fresh, foldl_mem]

theorem followParent_mem (c : Candidate) (s : State) : (followParent c s).mem = s.mem := by
  unfold followParent
  simp only [↓setF_mem, ↓tmNotice_mem, ↓bump_mem, apply_ite State.mem, ite_self]

theorem loseParent_mem (s : State) : (loseParent s).mem = s.mem := by
  unfold loseParent
  simp only [↓setF_mem, ↓setB_mem, ↓tmNotice_mem, ↓bump_mem, apply_ite State.mem, ite_self]

theorem judgeParents_mem (s : State) : (judgeParents s).mem = s.mem := by
  unfold judgeParents
  grind [setB_mem, followParent_mem, loseParent_mem, stateOr, Clock.state, fresh, foldl_mem]

theorem execParentLost_mem (s : State) : (stateOr (execParentLost s) s).mem = s.mem := by
  unfold execParentLost
  simp only [↓judgeParents_mem, stateOr_next]

theorem sendTime_mem (p : Nat) (kind : BitVec 5) (payload : List DWord) (s : State) : (sendTime p kind payload s).mem = s.mem := by
  unfold sendTime
  simp only [↓sendOnPort_mem]

theorem answerProbe_mem (p : Nat) (m : RingMark) (e : Envelope) (s : State) : (answerProbe p m e s).mem = s.mem := by
  unfold answerProbe
  simp only [↓bump_mem, ↓onNet_mem, ↓sendTime_mem, apply_ite State.mem, ite_self]

end Sys2Proof.Machine
end

