-- ==== Sys2Proof/Laws/Memory3.lean ====
section
/-! SUPPORT. Operations and meanings that leave every memory byte as it is. The operations and meanings of NetTime, TrackCore, Pins, Scribe, Buses, Serial. -/

namespace Sys2Proof.Machine

theorem execDelayReply_mem (p : Fin 3) (e : Envelope) (age : Nat) (ph : Fin 32) (s : State) : (stateOr (execDelayReply p e age ph s) s).mem = s.mem := by
  unfold execDelayReply
  simp only [↓timeGuard_mem, ↓takeReply_mem, implies_true]

theorem servoSample_mem (ofs : Int) (stepped : Bool) (s : State) : (servoSample ofs stepped s).mem = s.mem := by
  unfold servoSample
  grind [applyStep_mem, onTime_mem, fresh_mem, applyInc_mem, setB_mem, stateOr, Clock.state, fresh, foldl_mem]

theorem execDelayProbe_mem (p : Fin 3) (e : Envelope) (age : Nat) (ph : Fin 32) (s : State) : (stateOr (execDelayProbe p e age ph s) s).mem = s.mem := by
  unfold execDelayProbe
  simp only [↓timeGuard_mem, ↓answerProbe_mem, implies_true]

theorem storeBeacon_mem (p : Nat) (m : RingMark) (e : Envelope) (s : State) : (storeBeacon p m e s).mem = s.mem := by
  unfold storeBeacon
  simp only [↓setF_mem, ↓onNet_mem]

theorem takeBeacon_mem (p : Nat) (m : RingMark) (e : Envelope) (s : State) : (takeBeacon p m e s).mem = s.mem := by
  unfold takeBeacon
  grind [storeBeacon_mem, bump_mem, setReg_mem, setB_mem, setF_mem, judgeParents_mem, post_mem, servoSample_mem, stateOr, Clock.state, fresh, foldl_mem]

theorem execBeacon_mem (p : Fin 3) (e : Envelope) (age : Nat) (ph : Fin 32) (s : State) : (stateOr (execBeacon p e age ph s) s).mem = s.mem := by
  unfold execBeacon
  simp only [↓timeGuard_mem, ↓takeBeacon_mem, implies_true]

theorem writeTm_mem (a : Nat) (v : Word) (s : State) : (writeTm a v s).mem = s.mem := by
  unfold writeTm
  simp only [↓judgeParents_mem, ↓plainWrite_mem]

theorem execBeaconSend_mem (p : Fin 3) (s : State) : (stateOr (execBeaconSend p s) s).mem = s.mem := by
  unfold execBeaconSend
  simp only [↓bump_mem, ↓sendTime_mem, ↓onNet_mem, apply_ite State.mem, ite_self, stateOr_next, stateOr_ite]

theorem execDelayProbeSend_mem (p : Fin 3) (s : State) : (stateOr (execDelayProbeSend p s) s).mem = s.mem := by
  unfold execDelayProbeSend
  simp only [↓bump_mem, ↓sendTime_mem, ↓onNet_mem, apply_ite State.mem, ite_self, stateOr_next, stateOr_ite]

theorem postMany_mem (q : Nat) (cap : Nat) (inst : Nat) (code : Nat) (arg : Nat) (s : State) : (postMany q cap inst code arg s).mem = s.mem := by
  unfold postMany
  simp only [↓post_mem, ↓onNotices_mem, apply_ite State.mem, ite_self]

theorem wmNotice_mem (track : Nat) (code : Nat) (arg : Nat) (s : State) : (wmNotice track code arg s).mem = s.mem := by
  unfold wmNotice
  simp only [↓postMany_mem]

theorem tkNotice_mem (n : Nat) (code : Nat) (arg : Nat) (s : State) : (tkNotice n code arg s).mem = s.mem := by
  unfold tkNotice
  simp only [↓postMany_mem]

theorem windowVel_mem (w : List (Nat × Nat)) (k : Nat) (s : State) : (windowVel w k s).2.mem = s.mem := by
  unfold windowVel
  split
  · extract_lets dp dt v
    clear_value v dt
    split
    · exact fresh_mem 64 s
    · rfl
  · rfl

theorem stepTrack_mem (n : Nat) (d : Int) (instant : Nat) (s : State) : (stepTrack n d instant s).mem = s.mem := by
  unfold stepTrack
  simp only [↓windowVel_mem, ↓bump_mem, ↓onTrack_mem, apply_ite State.mem, ite_self]

theorem feedTracks_mem (src : Nat) (sel : Nat) (d : Int) (instant : Nat) (s : State) : (feedTracks src sel d instant s).mem = s.mem := by
  unfold feedTracks
  simp only [↓stepTrack_mem, apply_ite State.mem, ite_self, implies_true, foldl_mem]

theorem setEntry_mem (i : Nat) (e : Option WmEntry) (s : State) : (setEntry i e s).mem = s.mem := by
  unfold setEntry
  simp only [↓onTracks_mem]

theorem feedField_mem (entry : Nat) (iw : Nat) (value : Nat) (instant : Nat) (s : State) : (feedField entry iw value instant s).mem = s.mem := by
  unfold feedField
  grind [onTracks_mem, onTrack_mem, bump_mem, stepTrack_mem, stateOr, Clock.state, fresh, foldl_mem]

theorem dropFiring_mem (s : State) (f : Firing) : (dropFiring s f).mem = s.mem := by
  unfold dropFiring
  split <;> simp only [↓setEntry_mem]

theorem noteStored_mem (a : Nat) (len : Nat) (s : State) : (noteStored a len s).mem = s.mem := by
  unfold noteStored
  simp only [↓onTracks_mem, apply_ite State.mem, ite_self]

theorem bankNotice_mem (b : Nat) (code : Nat) (s : State) : (bankNotice b code s).mem = s.mem := by
  unfold bankNotice
  simp only [↓post_mem]

theorem refreshPin_mem (p : Nat) (s : State) : (refreshPin p s).mem = s.mem := by
  unfold refreshPin
  simp only [↓setB_mem, apply_ite State.mem, ite_self]

theorem refreshBank_mem (b : Nat) (s : State) : (refreshBank b s).mem = s.mem := by
  unfold refreshBank
  simp only [↓refreshPin_mem, implies_true, foldl_mem]

theorem readBankCap_mem (id : MasterId) (b : Nat) (s : State) : (readBankCap id b s).1.mem = s.mem := by
  unfold readBankCap
  split <;> simp only [↓latchUpper_mem, ↓setF_mem, ↓onBank_mem]

theorem refreshPins_mem (s : State) : (refreshPins s).mem = s.mem := by
  unfold refreshPins
  simp only [↓refreshPin_mem, implies_true, foldl_mem]

theorem goLive_mem (boundary : Bool) (s : State) : (goLive boundary s).mem = s.mem := by
  unfold goLive
  simp only [↓onField_mem, apply_ite State.mem, ite_self]

theorem takeMapped_mem (p : Nat) (held : Bool) (s : State) : (takeMapped p held s).mem = s.mem := by
  unfold takeMapped
  simp only [↓onPin_mem, ↓consumePoison_mem, ↓setB_mem, apply_ite State.mem, ite_self]

theorem holdSafe_mem (p : Nat) (s : State) : (holdSafe p s).mem = s.mem := by
  unfold holdSafe
  simp only [↓onPin_mem, apply_ite State.mem, ite_self]

theorem takeAllMapped_mem (s : State) : (takeAllMapped s).mem = s.mem := by
  unfold takeAllMapped
  simp only [↓takeMapped_mem, ↓holdSafe_mem, implies_true, foldl_mem]

theorem mappedOutputs_mem (boundary : Bool) (s : State) : (mappedOutputs boundary s).mem = s.mem := by
  unfold mappedOutputs
  simp only [↓refreshPins_mem, ↓goLive_mem, ↓takeAllMapped_mem]

theorem captureRecord_mem (p : Nat) (rising : Bool) (ep : Episode) (s : State) : (captureRecord p rising ep s).mem = s.mem := by
  unfold captureRecord
  simp only [↓bump_mem, ↓setB_mem, ↓onBank_mem, ↓setF_mem, ↓postPm_mem, apply_ite State.mem, ite_self]

theorem execBankCapRead_mem (m : Master) (b : Fin 16) (s : State) : (stateOr (execBankCapRead m b s) s).mem = s.mem := by
  unfold execBankCapRead
  simp only [↓guardRead_mem, ↓readBankCap_mem, stateOr_next, implies_true]

theorem lineRose_mem (p : Nat) (level : Bool) (age : Nat) (s : State) : (lineRose p level age s).mem = s.mem := by
  unfold lineRose
  simp only [↓onField_mem, apply_ite State.mem, ite_self]

theorem showRaw_mem (p : Nat) (s : State) : (showRaw p s).mem = s.mem := by
  unfold showRaw
  simp only [↓setB_mem]

theorem encoderGlitch_mem (p : Nat) (s : State) : (encoderGlitch p s).mem = s.mem := by
  unfold encoderGlitch
  simp only [↓bump_mem, apply_ite State.mem, ite_self]

theorem writePinMap_mem (p : Nat) (v : Word) (s : State) : (writePinMap p v s).mem = s.mem := by
  unfold writePinMap
  simp only [↓refreshPin_mem, ↓takeMapped_mem, ↓plainWrite_mem]

theorem driveWout_mem (p : Nat) (level : Bool) (s : State) : (driveWout p level s).mem = s.mem := by
  unfold driveWout
  simp only [↓refreshPin_mem, ↓onPin_mem, apply_ite State.mem, ite_self]

theorem writeBankOut_mem (b : Nat) (set : Bool) (v : Word) (s : State) : (writeBankOut b set v s).mem = s.mem := by
  unfold writeBankOut
  simp only [↓countPart_mem, ↓refreshPin_mem, ↓setB_mem, apply_ite State.mem, ite_self, implies_true, foldl_mem]

theorem execBankOutClr_mem (m : Master) (b : Fin 16) (v : Word) (s : State) : (stateOr (execBankOutClr m b v s) s).mem = s.mem := by
  unfold execBankOutClr
  simp only [↓guardWrite_mem, ↓writeBankOut_mem, stateOr_next, implies_true]

theorem safePins_mem (s : State) : (safePins s).mem = s.mem := by
  unfold safePins
  generalize List.range 256 = l
  extract_lets x
  have hx : x.mem = s.mem := by
    show (if serviceMode s = 1 then _ else _ : State).mem = _
    split
    · rfl
    · exact onField_mem _ _
  exact (refreshPins_mem _).trans ((foldl_mem _ (fun x b => holdSafe_mem _ _) _ _).trans hx)

theorem newFunc_mem (p : Nat) (s : State) : (newFunc p s).mem = s.mem := by
  unfold newFunc
  simp only [↓onPin_mem, ↓setB_mem, ↓takeMapped_mem, apply_ite State.mem, ite_self]

theorem writePinCfg_mem (p : Nat) (v : Word) (s : State) : (writePinCfg p v s).1.mem = s.mem := by
  unfold writePinCfg
  grind [bump_mem, setB_mem, declineWrite_mem, plainWrite_mem, newFunc_mem, refreshPin_mem, showRaw_mem, holdSafe_mem, stateOr, Clock.state, fresh, foldl_mem]

theorem execPinCfgWrite_mem (m : Master) (p : Fin 256) (v : Word) (s : State) : (stateOr (execPinCfgWrite m p v s) s).mem = s.mem := by
  unfold execPinCfgWrite
  simp only [↓guardWrite_mem, ↓writePinCfg_mem, stateOr_next, implies_true]

theorem execEdgeRejected_mem (p : Fin 256) (s : State) : (stateOr (execEdgeRejected p s) s).mem = s.mem := by
  unfold execEdgeRejected
  split <;> simp only [↓bump_mem, ↓onPin_mem, ↓setF_mem, apply_ite State.mem, ite_self, stateOr_next, stateOr_ite]

theorem writePinOut_mem (p : Nat) (v : Word) (s : State) : (writePinOut p v s).mem = s.mem := by
  unfold writePinOut
  simp only [↓plainWrite_mem, ↓setB_mem, ↓refreshPin_mem, apply_ite State.mem, ite_self]

theorem execPinOutToggle_mem (m : Master) (p : Fin 256) (v : Word) (s : State) : (stateOr (execPinOutToggle m p v s) s).mem = s.mem := by
  unfold execPinOutToggle
  simp only [↓guardWrite_mem, ↓writePinOut_mem, stateOr_next, implies_true]

theorem execPinOutWrite_mem (m : Master) (p : Fin 256) (v : Word) (s : State) : (stateOr (execPinOutWrite m p v s) s).mem = s.mem := by
  unfold execPinOutWrite
  simp only [↓guardWrite_mem, ↓writePinOut_mem, stateOr_next, implies_true]

theorem execStrapSample_mem (b : Fin 16) (level : Bool) (s : State) : (stateOr (execStrapSample b level s) s).mem = s.mem := by
  unfold execStrapSample
  simp only [↓setB_mem, ↓onBank_mem, apply_ite State.mem, ite_self, stateOr_next, stateOr_ite]

theorem execBankOutSet_mem (m : Master) (b : Fin 16) (v : Word) (s : State) : (stateOr (execBankOutSet m b v s) s).mem = s.mem := by
  unfold execBankOutSet
  simp only [↓guardWrite_mem, ↓writeBankOut_mem, stateOr_next, implies_true]

theorem emptyLatch_mem (n : Nat) (s : State) : (emptyLatch n s).mem = s.mem := by
  unfold emptyLatch
  simp only [↓setF_mem, ↓onEng_mem]

theorem setEngState_mem (n : Nat) (st : Nat) (on : Nat) (s : State) : (setEngState n st on s).mem = s.mem := by
  unfold setEngState
  simp only [↓setF_mem]

theorem setIsc_mem (n : Nat) (v : Nat) (s : State) : (setIsc n v s).mem = s.mem := by
  unfold setIsc
  simp only [↓setF_mem]

theorem putEng_mem (a : Nat) (v : Word) (s : State) : (putEng a v s).mem = s.mem := by
  unfold putEng
  simp only [↓rewritten_mem, ↓setReg_mem]

theorem setIsr_mem (n : Nat) (v : Word) (s : State) : (setIsr n v s).mem = s.mem := by
  unfold setIsr
  simp only [↓putEng_mem]

theorem emptyIsr_mem (n : Nat) (s : State) : (emptyIsr n s).mem = s.mem := by
  unfold emptyIsr
  simp only [↓setIsc_mem, ↓setIsr_mem]

theorem setOsc_mem (n : Nat) (v : Nat) (s : State) : (setOsc n v s).mem = s.mem := by
  unfold setOsc
  simp only [↓setF_mem]

theorem setOsr_mem (n : Nat) (v : Word) (s : State) : (setOsr n v s).mem = s.mem := by
  unfold setOsr
  simp only [↓putEng_mem]

theorem restartEngine_mem (n : Nat) (s : State) : (restartEngine n s).mem = s.mem := by
  unfold restartEngine
  simp only [↓setReg_mem, ↓emptyIsr_mem, ↓emptyLatch_mem, ↓setOsc_mem, ↓setOsr_mem, ↓setEngState_mem, apply_ite State.mem, ite_self]

theorem useClock_mem (n : Nat) (s : State) : (useClock n s).mem = s.mem := by
  unfold useClock
  simp only [↓onEng_mem]

theorem resumeDelay_mem (n : Nat) (s : State) : (resumeDelay n s).mem = s.mem := by
  unfold resumeDelay
  split <;> simp only [↓useClock_mem, apply_ite State.mem, ite_self]

theorem holdDelay_mem (n : Nat) (s : State) : (holdDelay n s).mem = s.mem := by
  unfold holdDelay
  simp only [↓onEng_mem]

theorem setX_mem (n : Nat) (v : Word) (s : State) : (setX n v s).mem = s.mem := by
  unfold setX
  simp only [↓putEng_mem, ↓feedTracks_mem, apply_ite State.mem, ite_self]

theorem writeDma_mem (n : Nat) (rx : Bool) (v : Word) (s : State) : (writeDma n rx v s).mem = s.mem := by
  unfold writeDma
  simp only [↓setB_mem, ↓countPart_mem, ↓plainWrite_mem, apply_ite State.mem, ite_self]

theorem execDmaChannelWrite_mem (m : Master) (e : Fin 64) (rx : Bool) (v : Word) (s : State) : (stateOr (execDmaChannelWrite m e rx v s) s).mem = s.mem := by
  unfold execDmaChannelWrite
  simp only [↓guardWrite_mem, ↓writeDma_mem, stateOr_next, implies_true]

theorem fetchInto_mem (n : Nat) (w : BitVec 16) (injected : Bool) (s : State) : (fetchInto n w injected s).mem = s.mem := by
  unfold fetchInto
  simp only [↓onEng_mem, ↓setB_mem, ↓setF_mem, apply_ite State.mem, ite_self]

theorem settleDma_mem (k : Nat) (s : State) : (settleDma k s).mem = s.mem := by
  unfold settleDma
  simp only [↓onNotices_mem, ↓request_mem, ↓endRequest_mem, apply_ite State.mem, ite_self]

theorem scrNotice_mem (n : Nat) (code : Nat) (arg : Nat) (s : State) : (scrNotice n code arg s).mem = s.mem := by
  unfold scrNotice
  simp only [↓post_mem]

theorem putBit_mem (a : Nat) (i : Nat) (b : Bool) (s : State) : (putBit a i b s).mem = s.mem := by
  unfold putBit
  simp only [↓setReg_mem]

theorem releaseOwned_mem (n : Nat) (s : State) : (releaseOwned n s).mem = s.mem := by
  unfold releaseOwned
  simp only [↓refreshPin_mem, ↓putBit_mem, apply_ite State.mem, ite_self, implies_true, foldl_mem]

theorem changeFlags_mem (k : Nat) (tog : Nat) (low : Nat) (up : Nat) (s : State) : (changeFlags k tog low up s).mem = s.mem := by
  unfold changeFlags
  simp only [↓setF_mem, ↓onScribe_mem]

theorem clockFlagToggle_mem (n : Nat) (l : Latched) (s : State) : (Clock.state (clockFlagToggle n l s)).mem = s.mem := by
  unfold clockFlagToggle
  split <;> simp only [↓changeFlags_mem, Clock.state]

theorem setY_mem (n : Nat) (v : Word) (s : State) : (setY n v s).mem = s.mem := by
  unfold setY
  simp only [↓putEng_mem]

theorem writeLane_mem (n : Nat) (i : Nat) (dir : Bool) (bit : Bool) (s : State) : (writeLane n i dir bit s).mem = s.mem := by
  unfold writeLane
  simp only [↓setB_mem, ↓refreshPin_mem, ↓putBit_mem, apply_ite State.mem, ite_self]

theorem writeLanes_mem (n : Nat) (dir : Bool) (mask : Nat) (width : Nat) (v : Nat) (s : State) : (writeLanes n dir mask width v s).mem = s.mem := by
  unfold writeLanes
  simp only [↓writeLane_mem, apply_ite State.mem, ite_self, implies_true, foldl_mem]

theorem clockMove_mem (n : Nat) (l : Latched) (s : State) : (Clock.state (clockMove n l s)).mem = s.mem := by
  unfold clockMove
  grind [setX_mem, setY_mem, setIsc_mem, setIsr_mem, setOsc_mem, setOsr_mem, writeLanes_mem, stateOr, Clock.state, fresh, foldl_mem]

theorem clockFlagRaise_mem (n : Nat) (l : Latched) (s : State) : (Clock.state (clockFlagRaise n l s)).mem = s.mem := by
  unfold clockFlagRaise
  split <;> simp only [↓changeFlags_mem, Clock.state]

theorem writeInject_mem (n : Nat) (v : Word) (s : State) : (writeInject n v s).mem = s.mem := by
  unfold writeInject
  simp only [↓countPart_mem, ↓setB_mem, ↓onEng_mem, apply_ite State.mem, ite_self]

theorem execInject_mem (m : Master) (e : Fin 64) (v : Word) (s : State) : (stateOr (execInject m e v s) s).mem = s.mem := by
  unfold execInject
  simp only [↓guardWrite_mem, ↓writeInject_mem, stateOr_next, implies_true]

theorem emptyFifos_mem (n : Nat) (s : State) : (emptyFifos n s).mem = s.mem := by
  unfold emptyFifos
  simp only [↓bumpN_mem, ↓onEng_mem]

theorem writeEngineReg_mem (n : Nat) (r : EngineReg) (v : Word) (s : State) : (writeEngineReg n r v s).mem = s.mem := by
  unfold writeEngineReg
  (repeat' split) <;> simp only [↓setB_mem, ↓countPart_mem, ↓setX_mem, ↓setOsc_mem, ↓setIsc_mem, ↓plainWrite_mem, ↓emptyFifos_mem, apply_ite State.mem, ite_self]

theorem execEngineStateWrite_mem (m : Master) (e : Fin 64) (r : EngineReg) (v : Word) (s : State) : (stateOr (execEngineStateWrite m e r v s) s).mem = s.mem := by
  unfold execEngineStateWrite
  simp only [↓guardWrite_mem, ↓writeEngineReg_mem, stateOr_next, implies_true]

theorem pullInto_mem (n : Nat) (dst : Nat) (w : Word) (s : State) : (pullInto n dst w s).mem = s.mem := by
  unfold pullInto
  simp only [↓setOsc_mem, ↓setOsr_mem, ↓setX_mem, ↓setY_mem, apply_ite State.mem, ite_self]

theorem takeTx_err_mem {n : Nat} {s t : State} (h : takeTx n s = some (.error t)) : t.mem = s.mem := by
  unfold takeTx at h; grind [onEng_mem, setReg_mem, consumePoison_mem]
theorem takeTx_ok_mem {n : Nat} {s t : State} {w : Word} (h : takeTx n s = some (.ok (w, t))) : t.mem = s.mem := by
  unfold takeTx at h; grind [onEng_mem, setReg_mem, consumePoison_mem]
theorem clockPull_mem (n : Nat) (l : Latched) (s : State) : (Clock.state (clockPull n l s)).mem = s.mem := by
  unfold clockPull
  dsimp only
  split
  · rfl
  · split
    · rename_i t e; exact takeTx_err_mem e
    · rename_i w t e; simp only [Clock.state, pullInto_mem]; exact takeTx_ok_mem e
    · split
      · rfl
      · simp only [Clock.state, bump_mem, pullInto_mem]

theorem clockFlagLower_mem (n : Nat) (l : Latched) (s : State) : (Clock.state (clockFlagLower n l s)).mem = s.mem := by
  unfold clockFlagLower
  split <;> simp only [↓changeFlags_mem, Clock.state]

theorem txSkip_mem (n : Nat) (s : State) : (txSkip n s).mem = s.mem := by
  unfold txSkip
  simp only [↓bump_mem]

theorem execDmaRxBlock_mem (e : Fin 64) (bad : BitVec 16) (s : State) : (stateOr (execDmaRxBlock e bad s) s).mem = s.mem := by
  unfold execDmaRxBlock
  simp only [↓onEng_mem, ↓parityRecord_mem, ↓settleDma_mem, apply_ite State.mem, ite_self, stateOr_next, stateOr_ite]

theorem timeoutRecord_mem (k : Nat) (write : Bool) (s : State) : (timeoutRecord k write s).mem = s.mem := by
  unfold timeoutRecord
  split <;> simp only [↓settleDma_mem, ↓onEng_mem, ↓txSkip_mem, apply_ite State.mem, ite_self]

theorem readRxf_mem (n : Nat) (bad : Bool) (s : State) : (readRxf n bad s).1.mem = s.mem := by
  unfold readRxf
  (repeat' split) <;> simp only [↓setB_mem, ↓onEng_mem, ↓parityRecord_mem]

theorem clockWaitLevel_mem (n : Nat) (l : Latched) (s : State) : (Clock.state (clockWaitLevel n l s)).mem = s.mem := by
  unfold clockWaitLevel
  (repeat' split) <;> simp only [Clock.state]

theorem clockFlagNotice_mem (n : Nat) (l : Latched) (s : State) : (Clock.state (clockFlagNotice n l s)).mem = s.mem := by
  unfold clockFlagNotice
  split <;> simp only [↓scrNotice_mem, Clock.state]

theorem setStoreWord_mem (k : Nat) (i : Nat) (w : BitVec 16) (s : State) : (setStoreWord k i w s).mem = s.mem := by
  unfold setStoreWord
  simp only [↓onScribe_mem]

theorem writeStore_mem (k : Nat) (off : Nat) (width : Nat) (v : Word) (s : State) : (writeStore k off width v s).mem = s.mem := by
  unfold writeStore
  simp only [↓setStoreWord_mem, apply_ite State.mem, ite_self]

theorem clockWaitEdge_mem (n : Nat) (l : Latched) (s : State) : (Clock.state (clockWaitEdge n l s)).mem = s.mem := by
  unfold clockWaitEdge
  grind [onEng_mem, stateOr, Clock.state, fresh, foldl_mem]

theorem clockWaitFlag_mem (n : Nat) (l : Latched) (s : State) : (Clock.state (clockWaitFlag n l s)).mem = s.mem := by
  unfold clockWaitFlag
  grind [changeFlags_mem, stateOr, Clock.state, fresh, foldl_mem]

theorem clockWaitCount_mem (n : Nat) (l : Latched) (s : State) : (Clock.state (clockWaitCount n l s)).mem = s.mem := by
  unfold clockWaitCount
  grind [setX_mem, setY_mem, stateOr, Clock.state, fresh, foldl_mem]

theorem shiftIn_mem (n : Nat) (N : Nat) (bits : Nat) (s : State) : (shiftIn n N bits s).mem = s.mem := by
  unfold shiftIn
  simp only [↓setIsc_mem, ↓setIsr_mem]

theorem pushRx_mem (n : Nat) (w : Word) (s : State) : (pushRx n w s).mem = s.mem := by
  unfold pushRx
  simp only [↓onEng_mem]

theorem clockShin_mem (n : Nat) (l : Latched) (s : State) : (Clock.state (clockShin n l s)).mem = s.mem := by
  unfold clockShin
  grind [shiftIn_mem, emptyIsr_mem, pushRx_mem, stateOr, Clock.state, fresh, foldl_mem]

theorem shoutTo_mem (n : Nat) (N : Nat) (dst : Nat) (s : State) : (Clock.state (shoutTo n N dst s)).mem = s.mem := by
  unfold shoutTo
  (repeat' split) <;> simp only [↓setOsc_mem, ↓setOsr_mem, ↓writeLanes_mem, ↓setX_mem, ↓setY_mem, ↓shiftIn_mem, Clock.state]

theorem clockShout_mem (n : Nat) (l : Latched) (s : State) : (Clock.state (clockShout n l s)).mem = s.mem := by
  unfold clockShout
  dsimp only
  split
  · rfl
  · split
    · split
      · rfl
      · rename_i t e; exact takeTx_err_mem e
      · rename_i w t e; exact (shoutTo_mem _ _ _ _).trans ((setOsc_mem _ _ _).trans ((setOsr_mem _ _ _).trans (takeTx_ok_mem e)))
    · exact shoutTo_mem _ _ _ _

theorem replaceYoungest_mem (n : Nat) (w : Word) (s : State) : (replaceYoungest n w s).mem = s.mem := by
  unfold replaceYoungest
  simp only [↓onEng_mem]

theorem clockPush_mem (n : Nat) (l : Latched) (s : State) : (Clock.state (clockPush n l s)).mem = s.mem := by
  unfold clockPush
  grind [emptyIsr_mem, pushRx_mem, bump_mem, replaceYoungest_mem, stateOr, Clock.state, fresh, foldl_mem]

theorem clockSet_mem (n : Nat) (l : Latched) (s : State) : (Clock.state (clockSet n l s)).mem = s.mem := by
  unfold clockSet
  grind [setX_mem, setY_mem, writeLanes_mem, setIsc_mem, setOsc_mem, stateOr, Clock.state, fresh, foldl_mem]

theorem clockJump_mem (n : Nat) (l : Latched) (s : State) : (Clock.state (clockJump n l s)).mem = s.mem := by
  unfold clockJump
  grind [setX_mem, setY_mem, stateOr, Clock.state, fresh, foldl_mem]

theorem clockMark_mem (n : Nat) (l : Latched) (s : State) : (Clock.state (clockMark n l s)).mem = s.mem := by
  unfold clockMark
  grind [setReg_mem, pushRx_mem, bump_mem, stateOr, Clock.state, fresh, foldl_mem]

theorem clockIllegal_mem (x0 : Nat) (x1 : Latched) (s : State) : (Clock.state (clockIllegal x0 x1 s)).mem = s.mem := by
  unfold clockIllegal
  simp only [Clock.state]

theorem clockAny_mem (n : Nat) (l : Latched) (s : State) : (Clock.state (clockAny n l s)).mem = s.mem := by
  unfold clockAny
  extract_lets w op k
  simp only [apply_ite Clock.state, apply_ite State.mem, clockWaitLevel_mem, clockWaitEdge_mem, clockWaitFlag_mem, clockWaitCount_mem,
    clockShin_mem, clockShout_mem, clockPull_mem, clockPush_mem, clockMove_mem, clockSet_mem, clockJump_mem, clockMark_mem,
    clockFlagRaise_mem, clockFlagLower_mem, clockFlagToggle_mem, clockFlagNotice_mem, clockIllegal_mem, ite_self]

theorem newOrigin_mem (n : Nat) (oldNum : Nat) (oldDen : Nat) (s : State) : (newOrigin n oldNum oldDen s).mem = s.mem := by
  unfold newOrigin
  simp only [↓onEng_mem]

theorem writeClkdiv_mem (n : Nat) (v : Word) (s : State) : (writeClkdiv n v s).mem = s.mem := by
  unfold writeClkdiv
  simp only [↓newOrigin_mem, ↓plainWrite_mem]

theorem execClkdivWrite_mem (m : Master) (e : Fin 64) (v : Word) (s : State) : (stateOr (execClkdivWrite m e v s) s).mem = s.mem := by
  unfold execClkdivWrite
  simp only [↓guardWrite_mem, ↓writeClkdiv_mem, stateOr_next, implies_true]

theorem writeTxf_mem (n : Nat) (v : Word) (s : State) : (writeTxf n v s).mem = s.mem := by
  unfold writeTxf
  simp only [↓bump_mem, ↓setB_mem, ↓onEng_mem, apply_ite State.mem, ite_self]

theorem writeScrFlags_mem (k : Nat) (v : Word) (s : State) : (writeScrFlags k v s).mem = s.mem := by
  unfold writeScrFlags
  simp only [↓changeFlags_mem, ↓countPart_mem]

theorem execFlagsSet_mem (m : Master) (k : Fin 16) (v : Word) (s : State) : (stateOr (execFlagsSet m k v s) s).mem = s.mem := by
  unfold execFlagsSet
  simp only [↓guardWrite_mem, ↓writeScrFlags_mem, stateOr_next, implies_true]

theorem execProgramStoreWrite_mem (m : Master) (k : Fin 16) (off : Nat) (width : Nat) (v : Word) (s : State) : (stateOr (execProgramStoreWrite m k off width v s) s).mem = s.mem := by
  unfold execProgramStoreWrite
  simp only [↓guardWriteAt_mem, ↓writeStore_mem, stateOr_next, implies_true]

theorem execScrRxfRead_mem (m : Master) (e : Fin 64) (bad : Bool) (s : State) : (stateOr (execScrRxfRead m e bad s) s).mem = s.mem := by
  unfold execScrRxfRead
  simp only [↓guardReadP_mem, ↓readRxf_mem, stateOr_next, implies_true]

theorem writePc_mem (n : Nat) (v : Word) (s : State) : (writePc n v s).mem = s.mem := by
  unfold writePc
  simp only [↓setB_mem, ↓countPart_mem, ↓plainWrite_mem, ↓emptyLatch_mem, apply_ite State.mem, ite_self]

theorem startTx_mem (n : Nat) (s : State) : (startTx n s).mem = s.mem := by
  unfold startTx
  simp only [↓settleDma_mem, ↓onEng_mem]

theorem execPcWrite_mem (m : Master) (e : Fin 64) (v : Word) (s : State) : (stateOr (execPcWrite m e v s) s).mem = s.mem := by
  unfold execPcWrite
  simp only [↓guardWrite_mem, ↓writePc_mem, stateOr_next, implies_true]

theorem execScrTxfWrite_mem (m : Master) (e : Fin 64) (v : Word) (s : State) : (stateOr (execScrTxfWrite m e v s) s).mem = s.mem := by
  unfold execScrTxfWrite
  simp only [↓guardWrite_mem, ↓writeTxf_mem, stateOr_next, implies_true]

theorem raiseFlags_mem (k : Nat) (mask : Nat) (s : State) : (raiseFlags k mask s).mem = s.mem := by
  unfold raiseFlags
  simp only [↓changeFlags_mem]

theorem cycleTx_mem (s : State) : (cycleTx s).mem = s.mem := by
  unfold cycleTx
  simp only [↓txSkip_mem, ↓bump_mem, ↓startTx_mem, apply_ite State.mem, ite_self, implies_true, foldl_mem]

theorem execDmaTxReturn_mem (e : Fin 64) (ok : Bool) (s : State) : (stateOr (execDmaTxReturn e ok s) s).mem = s.mem := by
  unfold execDmaTxReturn
  grind [acquire_mem, settleDma_mem, endRequest_mem, onEng_mem, txSkip_mem, recordDenial_mem, stateOr, Clock.state, fresh, foldl_mem]

theorem execDmaTxRefill_mem (e : Fin 64) (s : State) : (stateOr (execDmaTxRefill e s) s).mem = s.mem := by
  unfold execDmaTxRefill
  simp only [↓startTx_mem, apply_ite State.mem, ite_self, stateOr_next, stateOr_ite]

theorem execFlagsClear_mem (m : Master) (k : Fin 16) (v : Word) (s : State) : (stateOr (execFlagsClear m k v s) s).mem = s.mem := by
  unfold execFlagsClear
  simp only [↓guardWrite_mem, ↓writeScrFlags_mem, stateOr_next, implies_true]

theorem mbNotice_mem (m : Nat) (s : State) : (mbNotice m s).mem = s.mem := by
  unfold mbNotice
  simp only [↓postOpen_mem]

theorem setLevel_mem (m : Nat) (l : Nat) (s : State) : (setLevel m l s).mem = s.mem := by
  unfold setLevel
  simp only [↓setF_mem, ↓mbNotice_mem, apply_ite State.mem, ite_self]

theorem s2Event_mem (m : Nat) (s : State) : (s2Event m s).mem = s.mem := by
  unfold s2Event
  simp only [↓bump_mem, ↓setLevel_mem]

theorem mbFlag_mem (m : Nat) (f : Fld) (s : State) : (mbFlag m f s).mem = s.mem := by
  unfold mbFlag
  simp only [↓setB_mem]

theorem setPending_mem (m : Nat) (n : Nat) (b : Bool) (s : State) : (setPending m n b s).mem = s.mem := by
  unfold setPending
  simp only [↓setReg_mem]

theorem raiseRequest_mem (m : Nat) (n : Nat) (s : State) : (raiseRequest m n s).mem = s.mem := by
  unfold raiseRequest
  simp only [↓setPending_mem, ↓onMb_mem, apply_ite State.mem, ite_self]

theorem requestObj_mem (m : Nat) (n : Nat) (byTrigger : Bool) (s : State) : (requestObj m n byTrigger s).mem = s.mem := by
  unfold requestObj
  simp only [↓bump_mem, ↓mbFlag_mem, ↓raiseRequest_mem, apply_ite State.mem, ite_self]

theorem resetRange_mem (a : Nat) (n : Nat) (s : State) : (resetRange a n s).mem = s.mem := by
  unfold resetRange
  simp only

theorem measureDelay_mem (m : Nat) (loop : Option Nat) (s : State) : (measureDelay m loop s).mem = s.mem := by
  unfold measureDelay
  split <;> simp only [↓setF_mem, ↓bump_mem, ↓mbFlag_mem, apply_ite State.mem, ite_self]

theorem endWindow_mem (m : Nat) (s : State) : (endWindow m s).mem = s.mem := by
  unfold endWindow
  split <;> simp only [↓onMb_mem, ↓bump_mem, ↓setPending_mem, apply_ite State.mem, ite_self]

theorem clearInit_mem (m : Nat) (bank : Nat) (v : Word) (s : State) : (clearInit m bank v s).mem = s.mem := by
  unfold clearInit
  simp only [↓refreshPin_mem, ↓onPin_mem, ↓setB_mem, ↓plainWrite_mem, implies_true, foldl_mem]

theorem referenceMark_mem (m : Nat) (c : Nat) (age : Nat) (s : State) : (referenceMark m c age s).mem = s.mem := by
  unfold referenceMark
  simp only [↓setLevel_mem, ↓setF_mem, ↓setB_mem, ↓onMb_mem, apply_ite State.mem, ite_self]

theorem hearReference_mem (m : Nat) (f : BusFrame) (age : Nat) (s : State) : (hearReference m f age s).mem = s.mem := by
  unfold hearReference
  simp only [↓bump_mem, ↓setB_mem, ↓referenceMark_mem, apply_ite State.mem, ite_self]

theorem partnerFrame_mem (m : Nat) (n : Nat) (f : BusFrame) (pm : DWord) (sent : Bool) (s : State) : (partnerFrame m n f pm sent s).mem = s.mem := by
  unfold partnerFrame
  simp only [↓sendPartner_mem, apply_ite State.mem, ite_self]

theorem forwardFrame_mem (m : Nat) (n : Nat) (f : BusFrame) (pm : DWord) (s : State) : (forwardFrame m n f pm s).mem = s.mem := by
  unfold forwardFrame
  dsimp only
  split
  · rename_i t e
    rw [keepStamp_mem]
    have h := congrArg (fun p => p.1.mem) e
    simp only [originate_mem, takePosted_mem] at h
    exact h.symm
  · exact bump_mem _ _

theorem showCounts_mem (m : Nat) (s : State) : (showCounts m s).mem = s.mem := by
  unfold showCounts
  simp only [↓setF_mem]

theorem clearNew_mem (m : Nat) (j : Nat) (v : Word) (s : State) : (clearNew m j v s).mem = s.mem := by
  unfold clearNew
  simp only [↓setReg_mem, ↓onMb_mem]

theorem execMbNewClear_mem (m : Master) (c : Fin 8) (j : Fin 4) (v : Word) (s : State) : (stateOr (execMbNewClear m c j v s) s).mem = s.mem := by
  unfold execMbNewClear
  simp only [↓guardWrite_mem, ↓clearNew_mem, stateOr_next, implies_true]

theorem noRetries_mem (m : Nat) (n : Nat) (s : State) : (noRetries m n s).mem = s.mem := by
  unfold noRetries
  simp only [↓onMb_mem]

theorem writeMbTiming_mem (m : Nat) (a : Nat) (v : Word) (s : State) : (writeMbTiming m a v s).mem = s.mem := by
  unfold writeMbTiming
  simp only [↓plainWrite_mem, ↓mbFlag_mem, ↓declineWrite_mem, apply_ite State.mem, ite_self]

theorem execMbTxreq_mem (m : Master) (c : Fin 8) (j : Fin 4) (v : Word) (s : State) : (stateOr (execMbTxreq m c j v s) s).mem = s.mem := by
  unfold execMbTxreq
  simp only [↓guardWrite_mem, ↓requestObj_mem, stateOr_next, implies_true, foldl_mem]

theorem s1Event_mem (m : Nat) (s : State) : (s1Event m s).mem = s.mem := by
  unfold s1Event
  simp only [↓onMb_mem, ↓bump_mem, ↓setLevel_mem]

theorem openDelay_mem (s : State) (m : Nat) (n : Nat) : (openDelay s m n).2.mem = s.mem := by
  unfold openDelay
  grind [fresh_mem, stateOr, Clock.state, fresh, foldl_mem]

theorem takeOverTime_mem (m : Nat) (s : State) : (takeOverTime m s).mem = s.mem := by
  unfold takeOverTime
  simp only [↓onMb_mem, ↓requestObj_mem, ↓setB_mem]

theorem gwEnd_mem (s : State) : (gwEnd s).mem = s.mem := by
  unfold gwEnd
  simp only [↓endRequest_mem, ↓request_mem, apply_ite State.mem, ite_self]

theorem gwNotice_mem (s : State) : (gwNotice s).mem = s.mem := by
  unfold gwNotice
  simp only [↓postOpen_mem]

theorem stopTt_mem (m : Nat) (s : State) : (stopTt m s).mem = s.mem := by
  unfold stopTt
  simp only [↓onMb_mem, ↓setReg_mem]

theorem cancelObj_mem (m : Nat) (n : Nat) (s : State) : (cancelObj m n s).mem = s.mem := by
  unfold cancelObj
  simp only [↓setPending_mem, ↓onMb_mem, apply_ite State.mem, ite_self]

theorem execTtReferenceRequest_mem (c : Fin 8) (s : State) : (stateOr (execTtReferenceRequest c s) s).mem = s.mem := by
  unfold execTtReferenceRequest
  simp only [↓requestObj_mem, ↓onMb_mem, apply_ite State.mem, ite_self, stateOr_next, stateOr_ite]

theorem startTt_mem (m : Nat) (s : State) : (startTt m s).mem = s.mem := by
  unfold startTt
  extract_lets x y z
  exact (setLevel_mem _ _ _).trans ((onMb_mem _ _ _).trans ((setB_mem _ _ _ _).trans (setReg_mem _ _ _)))

theorem writeTtCfg_mem (m : Nat) (v : Word) (s : State) : (writeTtCfg m v s).mem = s.mem := by
  unfold writeTtCfg
  simp only [↓mbFlag_mem, ↓declineWrite_mem, ↓plainWrite_mem, ↓startTt_mem, ↓stopTt_mem, apply_ite State.mem, ite_self]

theorem writeTrig_mem (m : Nat) (a : Nat) (v : Word) (s : State) : (writeTrig m a v s).mem = s.mem := by
  unfold writeTrig
  simp only [↓mbFlag_mem, ↓declineWrite_mem, ↓plainWrite_mem, apply_ite State.mem, ite_self]

theorem execTtEnable_mem (m : Master) (c : Fin 8) (v : Word) (s : State) : (stateOr (execTtEnable m c v s) s).mem = s.mem := by
  unfold execTtEnable
  simp only [↓guardWrite_mem, ↓writeTtCfg_mem, stateOr_next, implies_true]

theorem execMbTxcan_mem (m : Master) (c : Fin 8) (j : Fin 4) (v : Word) (s : State) : (stateOr (execMbTxcan m c j v s) s).mem = s.mem := by
  unfold execMbTxcan
  simp only [↓guardWrite_mem, ↓cancelObj_mem, stateOr_next, implies_true, foldl_mem]

theorem gwBoundary_mem (s : State) : (gwBoundary s).mem = s.mem := by
  unfold gwBoundary
  simp only [↓onBuses_mem]

theorem uartNotice_mem (u : Nat) (s : State) : (uartNotice u s).mem = s.mem := by
  unfold uartNotice
  simp only [↓postOpen_mem]

theorem execUartStartBit_mem (u : Fin 16) (confirmed : Bool) (age : Nat) (s : State) : (stateOr (execUartStartBit u confirmed age s) s).mem = s.mem := by
  unfold execUartStartBit
  simp only [↓onUart_mem, ↓setReg_mem, apply_ite State.mem, ite_self, stateOr_next, stateOr_ite]

theorem uartFlag_mem (u : Nat) (f : Fld) (s : State) : (uartFlag u f s).mem = s.mem := by
  unfold uartFlag
  simp only [↓setB_mem]

theorem takeChar_mem (u : Nat) (c : UartChar) (s : State) : (takeChar u c s).mem = s.mem := by
  unfold takeChar
  simp only [↓onUart_mem, ↓bump_mem, ↓uartFlag_mem, ↓uartNotice_mem, apply_ite State.mem, ite_self]

theorem closeFrame_mem (u : Nat) (s : State) : (closeFrame u s).mem = s.mem := by
  unfold closeFrame
  simp only [↓onUart_mem]

theorem execUartGap_mem (u : Fin 16) (s : State) : (stateOr (execUartGap u s) s).mem = s.mem := by
  unfold execUartGap
  simp only [↓onUart_mem, ↓uartNotice_mem, ↓closeFrame_mem, apply_ite State.mem, ite_self, stateOr_next, stateOr_ite]

theorem refreshUart_mem (u : Nat) (s : State) : (refreshUart u s).mem = s.mem := by
  unfold refreshUart
  simp only [↓refreshPin_mem, implies_true, foldl_mem]

theorem encCount_mem (n : Nat) (d : Int) (age : Nat) (s : State) : (encCount n d age s).mem = s.mem := by
  unfold encCount
  simp only [↓setB_mem, ↓onEnc_mem, ↓setReg_mem, ↓feedTracks_mem, apply_ite State.mem, ite_self]

theorem rebase_mem (i : Nat) (s : State) : (rebase i s).mem = s.mem := by
  unfold rebase
  simp only [↓onMains_mem]

end Sys2Proof.Machine
end

