-- ==== Sys2Proof/Laws/Memory4.lean ====
section
/-! SUPPORT. Operations and meanings that leave every memory byte as it is. The operations and meanings of Serial, Waymarks, Timetable, Duplex, Power, Locks, Session, Bist. -/

namespace Sys2Proof.Machine

theorem correctFreq_mem (i : Nat) (err : Int) (s : State) : (correctFreq i err s).mem = s.mem := by
  unfold correctFreq
  simp only [↓setF_mem, ↓onMains_mem, ↓rebase_mem, ↓bump_mem, ↓setB_mem, apply_ite State.mem, ite_self]

theorem writeUaCtl_mem (u : Nat) (v : Word) (s : State) : (writeUaCtl u v s).mem = s.mem := by
  unfold writeUaCtl
  simp only [↓uartFlag_mem, ↓declineWrite_mem, ↓writeInPart_mem, ↓onPin_mem, ↓onUart_mem, ↓refreshUart_mem, apply_ite State.mem, ite_self, implies_true, foldl_mem]

theorem writeImg2_mem (a : Nat) (stat : Nat) (f : Fld) (v : Word) (s : State) : (writeImg2 a stat f v s).mem = s.mem := by
  unfold writeImg2
  simp only [↓setB_mem, ↓declineWrite_mem, ↓plainWrite_mem, apply_ite State.mem, ite_self]

theorem drainUart_mem (u : Nat) (s : State) : (drainUart u s).mem = s.mem := by
  unfold drainUart
  simp only [↓onUart_mem, ↓closeFrame_mem, apply_ite State.mem, ite_self, implies_true, foldl_mem]

theorem encIllegal_mem (n : Nat) (old : Nat) (new : Nat) (s : State) : (encIllegal n old new s).mem = s.mem := by
  unfold encIllegal
  simp only [↓bump_mem, ↓setB_mem, ↓post_mem, apply_ite State.mem, ite_self]

theorem encSample_mem (n : Nat) (a : Bool) (b : Bool) (age : Nat) (s : State) : (encSample n a b age s).mem = s.mem := by
  unfold encSample
  extract_lets old new s1
  have h1 : s1.mem = s.mem := setF_mem _ _ _ _
  clear_value s1
  split
  · exact h1
  · split
    · exact (encIllegal_mem _ _ _ _).trans h1
    · exact (encCount_mem _ _ _ _).trans h1

theorem encIndex_mem (n : Nat) (age : Nat) (s : State) : (encIndex n age s).mem = s.mem := by
  unfold encIndex
  simp only [↓setReg_mem, ↓onEnc_mem, ↓setB_mem, ↓postPm_mem, apply_ite State.mem, ite_self]

theorem execEncoderIndex_mem (n : Fin 16) (z : Bool) (a : Bool) (b : Bool) (age : Nat) (s : State) : (stateOr (execEncoderIndex n z a b age s) s).mem = s.mem := by
  unfold execEncoderIndex
  simp only [↓setB_mem, ↓encSample_mem, ↓encIndex_mem, apply_ite State.mem, ite_self, stateOr_next, stateOr_ite]

theorem writeEnCount_mem (n : Nat) (v : Word) (s : State) : (writeEnCount n v s).mem = s.mem := by
  unfold writeEnCount
  simp only [↓onEnc_mem, ↓plainWrite_mem]

theorem resetUart_mem (u : Nat) (s : State) : (resetUart u s).mem = s.mem := by
  unfold resetUart
  simp only [↓resetRange_mem, ↓onUart_mem]

theorem writeTxd_mem (u : Nat) (v : Word) (s : State) : (writeTxd u v s).mem = s.mem := by
  unfold writeTxd
  simp only [↓countPart_mem, ↓bump_mem, ↓uartFlag_mem, ↓onUart_mem, apply_ite State.mem, ite_self]

theorem execUaTxdWrite_mem (m : Master) (u : Fin 16) (v : Word) (s : State) : (stateOr (execUaTxdWrite m u v s) s).mem = s.mem := by
  unfold execUaTxdWrite
  simp only [↓guardWrite_mem, ↓writeTxd_mem, stateOr_next, implies_true]

theorem charFlags_mem (u : Nat) (c : UartChar) (s : State) : (charFlags u c s).mem = s.mem := by
  unfold charFlags
  simp only [↓uartFlag_mem, apply_ite State.mem, ite_self]

theorem compareEcho_mem (u : Nat) (c : UartChar) (s : State) : (compareEcho u c s).mem = s.mem := by
  unfold compareEcho
  simp only [↓onUart_mem, ↓uartNotice_mem, ↓bump_mem, ↓uartFlag_mem, apply_ite State.mem, ite_self]

theorem execUartCharReceived_mem (u : Fin 16) (d : BitVec 9) (par : Bool) (stop : Bool) (s : State) : (stateOr (execUartCharReceived u d par stop s) s).mem = s.mem := by
  unfold execUartCharReceived
  simp only [↓charFlags_mem, ↓onUart_mem, ↓compareEcho_mem, ↓takeChar_mem, apply_ite State.mem, ite_self, stateOr_next, stateOr_ite]

theorem writeEnMod_mem (n : Nat) (v : Word) (s : State) : (writeEnMod n v s).mem = s.mem := by
  unfold writeEnMod
  simp only [↓setB_mem, ↓declineWrite_mem, ↓plainWrite_mem, apply_ite State.mem, ite_self]

theorem readRxd_mem (u : Nat) (s : State) : (readRxd u s).1.mem = s.mem := by
  unfold readRxd
  (repeat' split) <;> simp only [↓uartFlag_mem, ↓onUart_mem]

theorem execUartTxStart_mem (u : Fin 16) (s : State) : (stateOr (execUartTxStart u s) s).mem = s.mem := by
  unfold execUartTxStart
  grind [refreshUart_mem, onUart_mem, stateOr, Clock.state, fresh, foldl_mem]

theorem writeUaImg_mem (u : Nat) (v : Word) (s : State) : (writeUaImg u v s).mem = s.mem := by
  unfold writeUaImg
  simp only [↓uartFlag_mem, ↓declineWrite_mem, ↓plainWrite_mem, ↓drainUart_mem, apply_ite State.mem, ite_self]

theorem execEnCountWrite_mem (m : Master) (n : Fin 16) (v : Word) (s : State) : (stateOr (execEnCountWrite m n v s) s).mem = s.mem := by
  unfold execEnCountWrite
  simp only [↓guardWrite_mem, ↓writeEnCount_mem, stateOr_next, implies_true]

theorem execUartTxEnd_mem (u : Fin 16) (s : State) : (stateOr (execUartTxEnd u s) s).mem = s.mem := by
  unfold execUartTxEnd
  simp only [↓refreshUart_mem, ↓onUart_mem, apply_ite State.mem, ite_self, stateOr_next, stateOr_ite]

theorem writeUaTiming_mem (u : Nat) (a : Nat) (v : Word) (s : State) : (writeUaTiming u a v s).mem = s.mem := by
  unfold writeUaTiming
  simp only [↓uartFlag_mem, ↓declineWrite_mem, ↓plainWrite_mem, apply_ite State.mem, ite_self]

theorem execUaRxdRead_mem (m : Master) (u : Fin 16) (s : State) : (stateOr (execUaRxdRead m u s) s).mem = s.mem := by
  unfold execUaRxdRead
  simp only [↓guardRead_mem, ↓readRxd_mem, stateOr_next, implies_true]

theorem execEncoderEdge_mem (n : Fin 16) (a : Bool) (b : Bool) (age : Nat) (s : State) : (stateOr (execEncoderEdge n a b age s) s).mem = s.mem := by
  unfold execEncoderEdge
  simp only [↓encSample_mem, apply_ite State.mem, ite_self, stateOr_next]

theorem loadEmit_mem (m : Emit) (s : State) : (loadEmit m s).mem = s.mem := by
  unfold loadEmit
  simp only [↓setReg_mem, ↓onChan_mem, ↓setWords_mem]

theorem reachPin_mem (p : Nat) (entry : Nat) (act : Option Bool) (s : State) : (reachPin p entry act s).mem = s.mem := by
  unfold reachPin
  simp only [↓setB_mem, ↓driveWout_mem, ↓onPin_mem, apply_ite State.mem, ite_self]

theorem offerSample_mem (n : Nat) (e : Envelope) (s : State) : (offerSample n e s).1.mem = s.mem := by
  unfold offerSample
  grind [originate_mem, setF_mem, bump_mem, onTrack_mem, setB_mem, stateOr, Clock.state, fresh, foldl_mem]

theorem retrySample_mem (s : State) (x : Nat × Envelope × Nat) : (retrySample s x).mem = s.mem := by
  unfold retrySample
  extract_lets gone
  have hg : ∀ u, (gone u).mem = u.mem := fun u => onTracks_mem _ _
  have h := offerSample_mem x.1 x.2.1 s
  clear_value gone
  split
  · rename_i t e
    rw [e] at h
    split
    · rfl
    · exact (bump_mem _ _).trans ((setB_mem _ _ _ _).trans ((hg _).trans h))
  · rename_i t _ _ e; rw [e] at h; exact (hg _).trans h

theorem cancelPulses_mem (bank : Nat) (mask : Nat) (s : State) : (cancelPulses bank mask s).mem = s.mem := by
  unfold cancelPulses
  grind [onTracks_mem, stateOr, Clock.state, fresh, foldl_mem]

theorem readWmCap_mem (id : MasterId) (s : State) : (readWmCap id s).1.mem = s.mem := by
  unfold readWmCap
  split <;> simp only [↓latchUpper_mem, ↓onTracks_mem]

theorem execWmCapRead_mem (m : Master) (s : State) : (stateOr (execWmCapRead m s) s).mem = s.mem := by
  unfold execWmCapRead
  simp only [↓guardRead_mem, ↓readWmCap_mem, stateOr_next, implies_true]

theorem wmLost_mem (track : Nat) (what : Nat) (kind : Nat) (f : Fld) (s : State) : (wmLost track what kind f s).mem = s.mem := by
  unfold wmLost
  simp only [↓wmNotice_mem, ↓bump_mem, ↓setB_mem]

theorem settleCopies_mem (cs : List (Nat × DWord × DWord)) (s : State) : (settleCopies cs s).mem = s.mem := by
  unfold settleCopies
  simp only [↓onNotices_mem, ↓onTracks_mem]

theorem sampleEdge_mem (n : Nat) (s : State) : (sampleEdge n s).mem = s.mem := by
  unfold sampleEdge
  grind [offerSample_mem, onTracks_mem, stateOr, Clock.state, fresh, foldl_mem]

theorem execTrackPublish_mem (n : Fin 16) (s : State) : (stateOr (execTrackPublish n s) s).mem = s.mem := by
  unfold execTrackPublish
  simp only [↓onTt_mem, ↓bump_mem, ↓sampleEdge_mem, apply_ite State.mem, ite_self, stateOr_next, stateOr_ite]

theorem takeFiring_mem (f : Firing) (s : State) : (takeFiring f s).mem = s.mem := by
  unfold takeFiring
  simp only [↓onTracks_mem]

theorem actPins_mem (entry : Nat) (bank : Nat) (mask : Nat) (act : Nat → Option Bool) (s : State) : (actPins entry bank mask act s).mem = s.mem := by
  unfold actPins
  simp only [↓bumpN_mem, ↓setB_mem, ↓cancelPulses_mem, ↓reachPin_mem, apply_ite State.mem, ite_self, implies_true, foldl_mem]

theorem actPulse_mem (f : Firing) (s : State) : (actPulse f s).mem = s.mem := by
  unfold actPulse
  split <;> simp only [↓wmLost_mem, ↓actPins_mem, ↓onTracks_mem, apply_ite State.mem, ite_self]

theorem execEmitDispatch_mem (s : State) : (stateOr (execEmitDispatch s) s).mem = s.mem := by
  unfold execEmitDispatch
  split <;> simp only [↓loadEmit_mem, ↓onTracks_mem, ↓wmLost_mem, ↓issue_mem, apply_ite State.mem, ite_self, stateOr_next, stateOr_ite]

theorem writeTkCarm_mem (n : Nat) (v : Word) (s : State) : (writeTkCarm n v s).mem = s.mem := by
  unfold writeTkCarm
  simp only [↓setB_mem, ↓declineWrite_mem, ↓plainWrite_mem, ↓setF_mem, apply_ite State.mem, ite_self]

theorem retrySamples_mem (s : State) : (retrySamples s).mem = s.mem := by
  unfold retrySamples
  simp only [↓retrySample_mem, implies_true, foldl_mem]

theorem resetTrack_mem (n : Nat) (s : State) : (resetTrack n s).mem = s.mem := by
  unfold resetTrack
  simp only [↓tkNotice_mem, ↓onTracks_mem, ↓onTrack_mem, ↓resetRange_mem, apply_ite State.mem, ite_self]

theorem execPulseEnd_mem (k : Fin 64) (s : State) : (stateOr (execPulseEnd k s) s).mem = s.mem := by
  unfold execPulseEnd
  split <;> simp only [↓onTracks_mem, ↓driveWout_mem, apply_ite State.mem, ite_self, stateOr_next, stateOr_ite, implies_true, foldl_mem]

theorem setTtStage_mem (bank : Nat) (g : Option TtStage) (s : State) : (setTtStage bank g s).mem = s.mem := by
  unfold setTtStage
  simp only [↓onTt_mem]

theorem ttRefuse_mem (s : State) : (ttRefuse s).mem = s.mem := by
  unfold ttRefuse
  simp only [↓setB_mem]

theorem ttNotice_mem (code : Nat) (arg : Nat) (s : State) : (ttNotice code arg s).mem = s.mem := by
  unfold ttNotice
  simp only [↓postOnce_mem]

theorem bankSwap_mem (s : State) : (bankSwap s).mem = s.mem := by
  unfold bankSwap
  simp only [↓setB_mem, ↓bump_mem, ↓ttNotice_mem, apply_ite State.mem, ite_self]

theorem abandonEntries_mem (s : State) : (abandonEntries s).mem = s.mem := by
  unfold abandonEntries
  grind [ttNotice_mem, bumpN_mem, setB_mem, stateOr, Clock.state, fresh, foldl_mem]

theorem skipBoundaries_mem (n : Nat) (s : State) : (skipBoundaries n s).mem = s.mem := by
  unfold skipBoundaries
  simp only [↓ttNotice_mem, ↓bumpN_mem, ↓setB_mem, apply_ite State.mem, ite_self]

theorem rebaseTt_mem (s : State) : (rebaseTt s).mem = s.mem := by
  unfold rebaseTt
  simp only [↓onTt_mem]

theorem startEntry_mem (bank : Nat) (n : Nat) (s : State) : (startEntry bank n s).mem = s.mem := by
  unfold startEntry
  grind [onTt_mem, latchFault_mem, bump_mem, originate_mem, stateOr, Clock.state, fresh, foldl_mem]

theorem enterTt_mem (l : TtLatch) (s : State) : (enterTt l s).mem = s.mem := by
  unfold enterTt
  simp only [↓rewritten_mem, ↓setReg_mem, ↓onTt_mem, apply_ite State.mem, ite_self]

theorem commitTtEntry_mem (id : MasterId) (bank : Nat) (n : Nat) (v : Word) (s : State) : (commitTtEntry id bank n v s).mem = s.mem := by
  unfold commitTtEntry
  simp only [↓countPart_mem, ↓setTtStage_mem, ↓ttRefuse_mem, ↓ttNotice_mem, ↓bump_mem, ↓setB_mem, ↓onTt_mem, ↓enterTt_mem, apply_ite State.mem, ite_self]

theorem execTtEntryCommit_mem (m : Master) (bank : Fin 2) (n : Fin 256) (v : Word) (s : State) : (stateOr (execTtEntryCommit m bank n v s) s).mem = s.mem := by
  unfold execTtEntryCommit
  simp only [↓guardWrite_mem, ↓commitTtEntry_mem, stateOr_next, implies_true]

theorem stageTtEntry_mem (id : MasterId) (bank : Nat) (n : Nat) (k : Nat) (v : Word) (s : State) : (stageTtEntry id bank n k v s).mem = s.mem := by
  unfold stageTtEntry
  simp only [↓countPart_mem, ↓setTtStage_mem]

theorem execTtEntryStage_mem (m : Master) (bank : Fin 2) (n : Fin 256) (k : Fin 3) (v : Word) (s : State) : (stateOr (execTtEntryStage m bank n k v s) s).mem = s.mem := by
  unfold execTtEntryStage
  simp only [↓guardWrite_mem, ↓stageTtEntry_mem, stateOr_next, implies_true]

theorem execTtEntryStart_mem (s : State) : (stateOr (execTtEntryStart s) s).mem = s.mem := by
  unfold execTtEntryStart
  grind [startEntry_mem, stateOr, Clock.state, fresh, foldl_mem]

theorem execTtEntryHandover_mem (s : State) : (stateOr (execTtEntryHandover s) s).mem = s.mem := by
  unfold execTtEntryHandover
  grind [bump_mem, onTt_mem, enterTt_mem, setB_mem, stateOr, Clock.state, fresh, foldl_mem]

theorem writeTtT0_mem (id : MasterId) (v : Word) (s : State) : (writeTtT0 id v s).mem = s.mem := by
  unfold writeTtT0
  simp only [↓ttRefuse_mem, ↓rebaseTt_mem, ↓commitWide_mem, apply_ite State.mem, ite_self]

theorem stageTtT0_mem (id : MasterId) (v : Word) (s : State) : (stageTtT0 id v s).mem = s.mem := by
  unfold stageTtT0
  simp only [↓ttRefuse_mem, ↓stagePart_mem, apply_ite State.mem, ite_self]

theorem writeTtCycle_mem (v : Word) (s : State) : (writeTtCycle v s).mem = s.mem := by
  unfold writeTtCycle
  simp only [↓ttRefuse_mem, ↓declineWrite_mem, ↓rebaseTt_mem, ↓plainWrite_mem, apply_ite State.mem, ite_self]

theorem ownEnc_mem (n : Nat) (s : State) : (ownEnc n s).mem = s.mem := by
  unfold ownEnc
  simp only [↓onEnc_mem, ↓setReg_mem, ↓feedTracks_mem, apply_ite State.mem, ite_self]

theorem startFollowing_mem (s : State) : (startFollowing s).mem = s.mem := by
  unfold startFollowing
  simp only [↓onEnc_mem, ↓onDpx_mem, implies_true, foldl_mem]

theorem dpxRefuse_mem (s : State) : (dpxRefuse s).mem = s.mem := by
  unfold dpxRefuse
  simp only [↓setB_mem]

theorem writeDpxCtl_mem (v : Word) (s : State) : (writeDpxCtl v s).mem = s.mem := by
  unfold writeDpxCtl
  simp only [↓writeInPart_mem, ↓dpxRefuse_mem, ↓setDpxState_mem, ↓refreshPins_mem, ↓dropClaim_mem, ↓bump_mem, ↓latchFault_mem, ↓selfTestKick_mem, apply_ite State.mem, ite_self]

theorem startSpeaking_mem (s : State) : (startSpeaking s).mem = s.mem := by
  unfold startSpeaking
  simp only [↓onDpx_mem, ↓dpxNotice_mem, apply_ite State.mem, ite_self]

theorem setDrive_mem (on : Bool) (s : State) : (setDrive on s).mem = s.mem := by
  unfold setDrive
  simp only [↓refreshPins_mem, ↓setB_mem]

theorem peerTo_mem (level : Bool) (s : State) : (peerTo level s).mem = s.mem := by
  unfold peerTo
  simp only [↓setB_mem, ↓onDpx_mem, ↓setDpxState_mem, ↓dropClaim_mem, ↓setDrive_mem, apply_ite State.mem, ite_self]

theorem partnerRow_mem (e : Envelope) (type : Nat) (words : Nat) (tie : Bool) (f : Envelope → State → State) (s : State) (h0 : ∀ y0 x, (f y0 x).mem = x.mem) : (stateOr (partnerRow e type words tie f s) s).mem = s.mem := by
  unfold partnerRow
  simp only [h0, ↓takeDelivered_mem, ↓bump_mem, apply_ite State.mem, ite_self, stateOr_next]

theorem planCaptures_mem (n : Nat) (ws : List DWord) (s : State) : (planCaptures n ws s).mem = s.mem := by
  unfold planCaptures
  split <;> simp only [↓onDpx_mem]

theorem raiseClaim_mem (s : State) : (raiseClaim s).mem = s.mem := by
  unfold raiseClaim
  extract_lets x
  exact (setDpxState_mem _ _ _).trans ((setDrive_mem _ _).trans ((onDpx_mem _ _).trans ((bump_mem _ _).trans (setB_mem _ _ _ _))))

theorem applyEnc_mem (ws : List DWord) (n : Nat) (s : State) : (applyEnc ws n s).mem = s.mem := by
  unfold applyEnc
  simp only [↓onEnc_mem, ↓setReg_mem, ↓feedTracks_mem, apply_ite State.mem, ite_self]

theorem reportIntent_mem (theirs : DWord) (s : State) : (reportIntent theirs s).mem = s.mem := by
  unfold reportIntent
  simp only [↓setB_mem, ↓onDpx_mem]

theorem sendCaptures_mem (m : Nat) (s : State) : (sendCaptures m s).mem = s.mem := by
  unfold sendCaptures
  simp only [↓onDpx_mem, ↓sendPartner_mem, implies_true, foldl_mem]

theorem leadEdge_mem (m : Nat) (s : State) : (leadEdge m s).mem = s.mem := by
  unfold leadEdge
  grind [sendCaptures_mem, planCaptures_mem, stateOr, Clock.state, fresh, foldl_mem]

theorem takeStep_mem (e : Envelope) (mark : RingMark) (s : State) : (takeStep e mark s).mem = s.mem := by
  unfold takeStep
  extract_lets w0 n same first s1 s2 s3 s4 s5
  have h1 : s1.mem = s.mem := by
    show (if same = true then _ else _ : State).mem = _
    split
    · exact setB_mem _ _ _ _
    · rfl
  have h2 : s2.mem = s.mem := by
    show (if first = true then _ else _ : State).mem = _
    split
    · exact (reviewClaim_mem _).trans ((dpxNotice_mem _ _ _).trans h1)
    · exact h1
  have h3 : s3.mem = s.mem := (setB_mem _ _ _ _).trans h2
  have h4 : s4.mem = s.mem := by
    dsimp only [s4]
    split
    · split
      · exact (setB_mem _ _ _ _).trans ((setReg_mem _ _ _).trans h3)
      · exact h3
    · exact h3
  have h5 : s5.mem = s.mem := (onDpx_mem _ _).trans h4
  clear_value s5
  split
  · exact (setB_mem _ _ _ _).trans ((onDpx_mem _ _).trans h5)
  · exact h5

theorem execDpxState_mem (e : Envelope) (tie : Bool) (s : State) : (stateOr (execDpxState e tie s) s).mem = s.mem := by
  unfold execDpxState
  simp only [↓partnerRow_mem, ↓onDpx_mem, apply_ite State.mem, ite_self, implies_true]

theorem compareDomain_mem (dom : Nat) (differs : Bool) (report : State → State) (s : State) (h0 : ∀ x, (report x).mem = x.mem) : (compareDomain dom differs report s).mem = s.mem := by
  unfold compareDomain
  simp only [h0, ↓onDpx_mem, ↓dpxNotice_mem, ↓bump_mem, apply_ite State.mem, ite_self]

theorem compareStep_mem (n : Nat) (ws : List DWord) (s : State) : (compareStep n ws s).mem = s.mem := by
  unfold compareStep
  grind [compareDomain_mem, reportIntent_mem, setReg_mem, stateOr, Clock.state, fresh, foldl_mem]

theorem execHealthReport_mem (s : State) : (stateOr (execHealthReport s) s).mem = s.mem := by
  unfold execHealthReport
  simp only [↓healthReport_mem, apply_ite State.mem, ite_self, stateOr_next]

theorem putRetries_mem (c : Nat) (n : Nat) (s : State) : (putRetries c n s).mem = s.mem := by
  unfold putRetries
  simp only [↓setF_mem, apply_ite State.mem, ite_self]

theorem restoreRetries_mem (c : Nat) (s : State) : (restoreRetries c s).mem = s.mem := by
  unfold restoreRetries
  simp only [↓onPower_mem, ↓putRetries_mem]

theorem putChan_mem (c : Nat) (st : Nat) (s : State) : (putChan c st s).mem = s.mem := by
  unfold putChan
  simp only [↓setF_mem, ↓setB_mem, apply_ite State.mem, ite_self]

theorem chanOff_mem (c : Nat) (s : State) : (chanOff c s).mem = s.mem := by
  unfold chanOff
  simp only [↓putChan_mem]

theorem clearChan_mem (c : Nat) (s : State) : (clearChan c s).mem = s.mem := by
  unfold clearChan
  simp only [↓restoreRetries_mem, ↓chanOff_mem, apply_ite State.mem, ite_self]

theorem writeChanCtl_mem (c : Nat) (v : Word) (s : State) : (writeChanCtl c v s).mem = s.mem := by
  unfold writeChanCtl
  simp only [↓plainWrite_mem, ↓clearChan_mem, apply_ite State.mem, ite_self]

theorem dropPg_mem (c : Nat) (s : State) : (dropPg c s).mem = s.mem := by
  unfold dropPg
  simp only [↓setB_mem, apply_ite State.mem, ite_self]

theorem feedlessChan_mem (c : Nat) (s : State) : (feedlessChan c s).mem = s.mem := by
  unfold feedlessChan
  simp only [↓dropPg_mem, ↓chanOff_mem, apply_ite State.mem, ite_self]

theorem feedlessAll_mem (s : State) : (feedlessAll s).mem = s.mem := by
  unfold feedlessAll
  simp only [↓feedlessChan_mem, implies_true, foldl_mem]

theorem pdNotice_mem (code : Nat) (arg : Nat) (s : State) : (pdNotice code arg s).mem = s.mem := by
  unfold pdNotice
  simp only [↓postOnce_mem, apply_ite State.mem, ite_self]

theorem pdEvent_mem (f : Fld) (s : State) : (pdEvent f s).mem = s.mem := by
  unfold pdEvent
  simp only [↓setB_mem]

theorem putFeed_mem (n : Nat) (s : State) : (putFeed n s).mem = s.mem := by
  unfold putFeed
  simp only [↓setF_mem]

theorem feedOn_mem (b : Bool) (s : State) : (feedOn b s).mem = s.mem := by
  unfold feedOn
  simp only [↓bump_mem, ↓pdNotice_mem, ↓pdEvent_mem, ↓putFeed_mem]

theorem feedTick_mem (s : State) : (feedTick s).mem = s.mem := by
  unfold feedTick
  simp only [↓feedOn_mem, ↓putFeed_mem, apply_ite State.mem, ite_self]

theorem feedSettle_mem (s : State) : (feedSettle s).mem = s.mem := by
  unfold feedSettle
  simp only [↓feedlessAll_mem, ↓feedTick_mem]

theorem writePdCtl_mem (v : Word) (s : State) : (writePdCtl v s).mem = s.mem := by
  unfold writePdCtl
  simp only [↓plainWrite_mem, ↓feedSettle_mem, ↓setB_mem, apply_ite State.mem, ite_self]

theorem execGfclr_mem (m : Master) (v : Word) (s : State) : (stateOr (execGfclr m v s) s).mem = s.mem := by
  unfold execGfclr
  simp only [↓guardWrite_mem, ↓writePdCtl_mem, stateOr_next, implies_true]

theorem latchSupply_mem (s : State) : (latchSupply s).mem = s.mem := by
  unfold latchSupply
  simp only [↓latchFault_mem, apply_ite State.mem, ite_self]

theorem railLeft_mem (r : Nat) (s : State) : (railLeft r s).mem = s.mem := by
  unfold railLeft
  simp only [↓setReg_mem, ↓bump_mem, ↓pdEvent_mem, ↓pdNotice_mem, ↓latchSupply_mem]

theorem execGateFault_mem (s : State) : (stateOr (execGateFault s) s).mem = s.mem := by
  unfold execGateFault
  simp only [↓setB_mem, ↓putFeed_mem, ↓bump_mem, ↓pdNotice_mem, ↓pdEvent_mem, ↓feedlessAll_mem, apply_ite State.mem, ite_self, stateOr_next, stateOr_ite]

theorem execBrownOut_mem (vin : Nat) (s : State) : (stateOr (execBrownOut vin s) s).mem = s.mem := by
  unfold execBrownOut
  simp only [↓pdEvent_mem, ↓setB_mem, ↓latchSupply_mem, ↓pdNotice_mem, ↓bump_mem, ↓healthReport_mem, apply_ite State.mem, ite_self, stateOr_next, stateOr_ite]

theorem execFldClr_mem (m : Master) (c : Fin 9) (v : Word) (s : State) : (stateOr (execFldClr m c v s) s).mem = s.mem := by
  unfold execFldClr
  simp only [↓guardWrite_mem, ↓writeChanCtl_mem, stateOr_next, implies_true]

theorem roundFree_mem (x : Nat) (d : Nat) (s : State) : (roundFree x d s).2.mem = s.mem := by
  unfold roundFree
  grind [fresh_mem, stateOr, Clock.state, fresh, foldl_mem]

theorem fitFree_mem (w : Nat) (x : Nat) (s : State) : (fitFree w x s).2.mem = s.mem := by
  unfold fitFree
  grind [fresh_mem, stateOr, Clock.state, fresh, foldl_mem]

theorem trip_mem (c : Nat) (cause : Nat) (onTime : Nat) (s : State) : (trip c cause onTime s).mem = s.mem := by
  unfold trip
  simp only [↓dropPg_mem, ↓putChan_mem, ↓onPower_mem, ↓fitFree_mem, ↓pdEvent_mem, ↓setF_mem, ↓bump_mem, ↓pdNotice_mem, ↓setB_mem, apply_ite State.mem, ite_self]

theorem channelsOff_mem (s : State) : (channelsOff s).mem = s.mem := by
  unfold channelsOff
  simp only [↓chanOff_mem, implies_true, foldl_mem]

theorem heat_mem (k : Nat) (t : Int) (lo : Int) (hi : Int) (s : State) : (heat k t lo hi s).mem = s.mem := by
  unfold heat
  simp only [↓onPower_mem]

theorem tripHot_mem (c : Nat) (sensor : Nat) (onTime : Nat) (s : State) : (tripHot c sensor onTime s).mem = s.mem := by
  unfold tripHot
  simp only [↓onPower_mem, ↓trip_mem, apply_ite State.mem, ite_self]

theorem execTempMeasure_mem (zone : Option (Fin 8)) (t : BitVec 16) (onTime : Nat) (s : State) : (stateOr (execTempMeasure zone t onTime s) s).mem = s.mem := by
  unfold execTempMeasure
  split <;> simp only [↓heat_mem, ↓tripHot_mem, ↓bump_mem, ↓pdEvent_mem, ↓setF_mem, ↓roundFree_mem, ↓pdNotice_mem, apply_ite State.mem, ite_self, stateOr_next, stateOr_ite, implies_true, foldl_mem]

theorem execPdLock_mem (m : Master) (v : Word) (s : State) : (stateOr (execPdLock m v s) s).mem = s.mem := by
  unfold execPdLock
  simp only [↓guardWrite_mem, ↓writePdCtl_mem, stateOr_next, implies_true]

theorem commitEnergy_mem (id : MasterId) (c : Nat) (v : Word) (s : State) : (commitEnergy id c v s).mem = s.mem := by
  unfold commitEnergy
  simp only [↓commitWide_mem, ↓setStage_mem, ↓pdEvent_mem, apply_ite State.mem, ite_self]

theorem execOvwarn_mem (vin : Nat) (s : State) : (stateOr (execOvwarn vin s) s).mem = s.mem := by
  unfold execOvwarn
  simp only [↓onPower_mem, ↓pdNotice_mem, ↓bump_mem, ↓pdEvent_mem, apply_ite State.mem, ite_self, stateOr_next, stateOr_ite]

theorem execFldLimitEnter_mem (c : Fin 9) (s : State) : (stateOr (execFldLimitEnter c s) s).mem = s.mem := by
  unfold execFldLimitEnter
  simp only [↓putChan_mem, apply_ite State.mem, ite_self, stateOr_next, stateOr_ite]

theorem execFeedDisqualified_mem (b : Bool) (s : State) : (stateOr (execFeedDisqualified b s) s).mem = s.mem := by
  unfold execFeedDisqualified
  simp only [↓feedSettle_mem, ↓setB_mem, stateOr_next]

theorem execFeedHoldExpiry_mem (s : State) : (stateOr (execFeedHoldExpiry s) s).mem = s.mem := by
  unfold execFeedHoldExpiry
  simp only [↓putFeed_mem, apply_ite State.mem, ite_self, stateOr_next, stateOr_ite]

theorem execFastTrip_mem (c : Fin 9) (onTime : Nat) (s : State) : (stateOr (execFastTrip c onTime s) s).mem = s.mem := by
  unfold execFastTrip
  simp only [↓trip_mem, apply_ite State.mem, ite_self, stateOr_next, stateOr_ite]

theorem pdRefuse_mem (a : Nat) (v : Word) (s : State) : (pdRefuse a v s).mem = s.mem := by
  unfold pdRefuse
  simp only [↓countPart_mem, ↓pdEvent_mem]

theorem publish_mem (a : Nat) (f : Fld) (x : Nat) (n : Nat) (d : Nat) (s : State) : (publish a f x n d s).mem = s.mem := by
  unfold publish
  simp only [↓roundFree_mem, ↓fitFree_mem, ↓setF_mem, apply_ite State.mem, ite_self]

theorem putSums_mem (c : Nat) (m : MeterSum) (s : State) : (putSums c m s).mem = s.mem := by
  unfold putSums
  simp only [↓onPower_mem]

theorem execEnergyWrite_mem (m : Master) (c : Fin 9) (v : Word) (s : State) : (stateOr (execEnergyWrite m c v s) s).mem = s.mem := by
  unfold execEnergyWrite
  simp only [↓guardWrite_mem, ↓commitEnergy_mem, stateOr_next, implies_true]

theorem execFeedTransferDone_mem (s : State) : (stateOr (execFeedTransferDone s) s).mem = s.mem := by
  unfold execFeedTransferDone
  simp only [↓feedSettle_mem, ↓feedOn_mem, apply_ite State.mem, ite_self, stateOr_next, stateOr_ite]

theorem execFldPgFall_mem (vout : Nat) (s : State) : (stateOr (execFldPgFall vout s) s).mem = s.mem := by
  unfold execFldPgFall
  simp only [↓setB_mem, apply_ite State.mem, ite_self, stateOr_next, stateOr_ite]

theorem execFldFullyOn_mem (c : Fin 9) (atLimit : Bool) (s : State) : (stateOr (execFldFullyOn c atLimit s) s).mem = s.mem := by
  unfold execFldFullyOn
  simp only [↓putChan_mem, apply_ite State.mem, ite_self, stateOr_next, stateOr_ite]

theorem writeFeedCfg_mem (v : Word) (s : State) : (writeFeedCfg v s).mem = s.mem := by
  unfold writeFeedCfg
  simp only [↓bump_mem, ↓pdRefuse_mem, ↓feedSettle_mem, ↓setReg_mem, ↓plainWrite_mem, apply_ite State.mem, ite_self]

theorem execFldEnable_mem (c : Fin 9) (s : State) : (stateOr (execFldEnable c s) s).mem = s.mem := by
  unfold execFldEnable
  simp only [↓putRetries_mem, ↓putChan_mem, apply_ite State.mem, ite_self, stateOr_next, stateOr_ite]

theorem execFeedQualified_mem (b : Bool) (s : State) : (stateOr (execFeedQualified b s) s).mem = s.mem := by
  unfold execFeedQualified
  simp only [↓feedSettle_mem, ↓setB_mem, stateOr_next]

theorem writePdCfg_mem (a : Nat) (v : Word) (s : State) : (writePdCfg a v s).mem = s.mem := by
  unfold writePdCfg
  simp only [↓bump_mem, ↓pdRefuse_mem, ↓plainWrite_mem, apply_ite State.mem, ite_self]

theorem execFeedModeWrite_mem (m : Master) (v : Word) (s : State) : (stateOr (execFeedModeWrite m v s) s).mem = s.mem := by
  unfold execFeedModeWrite
  simp only [↓guardWrite_mem, ↓writeFeedCfg_mem, stateOr_next, implies_true]

theorem addEnergy_mem (c : Nat) (n : Nat) (s : State) : (addEnergy c n s).mem = s.mem := by
  unfold addEnergy
  simp only [↓setReg_mem]

theorem execMeterSample_mem (c : Fin 10) (x : Nat) (y : Nat) (z : Nat) (s : State) : (stateOr (execMeterSample c x y z s) s).mem = s.mem := by
  unfold execMeterSample
  simp only [↓putSums_mem, ↓roundFree_mem, ↓addEnergy_mem, apply_ite State.mem, ite_self, stateOr_next, stateOr_ite]

theorem powerNodeReset_mem (s : State) : (powerNodeReset s).mem = s.mem := by
  unfold powerNodeReset
  simp only [↓chanOff_mem, ↓setB_mem, apply_ite State.mem, ite_self, implies_true, foldl_mem]

theorem execFldPgAssert_mem (vout : Nat) (s : State) : (stateOr (execFldPgAssert vout s) s).mem = s.mem := by
  unfold execFldPgAssert
  simp only [↓pdNotice_mem, ↓setB_mem, apply_ite State.mem, ite_self, stateOr_next, stateOr_ite]

theorem execRetryRestore_mem (s : State) : (stateOr (execRetryRestore s) s).mem = s.mem := by
  unfold execRetryRestore
  simp only [↓restoreRetries_mem, apply_ite State.mem, ite_self, stateOr_next, stateOr_ite]

theorem execCoolDownEnd_mem (c : Fin 9) (s : State) : (stateOr (execCoolDownEnd c s) s).mem = s.mem := by
  unfold execCoolDownEnd
  simp only [↓chanOff_mem, ↓putChan_mem, ↓bump_mem, ↓pdNotice_mem, ↓pdEvent_mem, ↓putRetries_mem, ↓onPower_mem, ↓feedlessChan_mem, apply_ite State.mem, ite_self, stateOr_next, stateOr_ite]

theorem execFldFaultTimeout_mem (c : Fin 9) (onTime : Nat) (s : State) : (stateOr (execFldFaultTimeout c onTime s) s).mem = s.mem := by
  unfold execFldFaultTimeout
  simp only [↓trip_mem, apply_ite State.mem, ite_self, stateOr_next, stateOr_ite]

theorem execFldDisable_mem (c : Fin 9) (s : State) : (stateOr (execFldDisable c s) s).mem = s.mem := by
  unfold execFldDisable
  simp only [↓feedlessChan_mem, ↓chanOff_mem, apply_ite State.mem, ite_self, stateOr_next]

theorem execFldStartTimeout_mem (c : Fin 9) (s : State) : (stateOr (execFldStartTimeout c s) s).mem = s.mem := by
  unfold execFldStartTimeout
  simp only [↓trip_mem, apply_ite State.mem, ite_self, stateOr_next, stateOr_ite]

theorem execRailOutOfTolerance_mem (out : BitVec 4) (s : State) : (stateOr (execRailOutOfTolerance out s) s).mem = s.mem := by
  unfold execRailOutOfTolerance
  simp only [↓setB_mem, ↓onPower_mem, ↓railLeft_mem, stateOr_next, implies_true, foldl_mem]

theorem execFldLimitExit_mem (c : Fin 9) (length : Nat) (s : State) : (stateOr (execFldLimitExit c length s) s).mem = s.mem := by
  unfold execFldLimitExit
  simp only [↓putChan_mem, ↓bump_mem, ↓pdEvent_mem, ↓post_mem, apply_ite State.mem, ite_self, stateOr_next, stateOr_ite]

theorem execMeterPublish_mem (s : State) : (stateOr (execMeterPublish s) s).mem = s.mem := by
  unfold execMeterPublish
  simp only [↓publish_mem, ↓onPower_mem, stateOr_next, implies_true, foldl_mem]

theorem showLock_mem (s : State) : (showLock s).mem = s.mem := by
  unfold showLock
  simp only [↓setB_mem, ↓showHolder_mem, ↓onArb_mem, ↓arbDecide_mem, apply_ite State.mem, ite_self]

theorem takeLock_mem (l : Lock) (s : State) : (takeLock l s).mem = s.mem := by
  unfold takeLock
  simp only [↓showLock_mem, ↓onBridge_mem]

theorem passLock_mem (page : Option Nat) (s : State) : (passLock page s).mem = s.mem := by
  unfold passLock
  split <;> simp only [↓takeLock_mem, ↓onBridge_mem]

theorem releaseLock_mem (id : MasterId) (s : State) : (releaseLock id s).mem = s.mem := by
  unfold releaseLock
  split <;> simp only [↓passLock_mem, ↓showLock_mem, ↓onBridge_mem]

theorem breakLock_mem (l : Lock) (s : State) : (breakLock l s).mem = s.mem := by
  unfold breakLock
  simp only [↓sendNdn_mem, ↓bump_mem, ↓releaseLock_mem]

theorem execLockTimeout_mem (holder : MasterId) (s : State) : (stateOr (execLockTimeout holder s) s).mem = s.mem := by
  unfold execLockTimeout
  split <;> simp only [↓breakLock_mem, apply_ite State.mem, ite_self, stateOr_next, stateOr_ite]

theorem beginLock_mem (id : MasterId) (s : State) : (beginLock id s).mem = s.mem := by
  unfold beginLock
  simp only [↓showLock_mem, ↓onBridge_mem]

theorem startCommand_mem (who : MonAsker) (s : State) : (startCommand who s).mem = s.mem := by
  unfold startCommand
  split <;> simp only [↓bump_mem, ↓onMon_mem]

theorem answerSession_mem (session : BitVec 16) (node : BitVec 16) (typ : Nat) (text : List Byte) (s : State) : (answerSession session node typ text s).mem = s.mem := by
  unfold answerSession
  simp only [↓bump_mem, ↓sendOrWait_mem, ↓onMon_mem, apply_ite State.mem, ite_self]

theorem freshBytes_mem (x0 : Nat) (s : State) : (freshBytes x0 s).2.mem = s.mem := by
  induction x0 generalizing s with
  | zero => rfl
  | succ n ih => unfold freshBytes; dsimp only; rw [ih]; exact fresh_mem _ _

theorem answerLines_mem (session : BitVec 16) (node : BitVec 16) (x0 : Nat) (s : State) : (answerLines session node x0 s).mem = s.mem := by
  induction x0 generalizing s with
  | zero => rfl
  | succ n ih => unfold answerLines; dsimp only; rw [ih, answerSession_mem]; exact (freshBytes_mem _ _).trans (by rw [fresh_mem])

theorem endCommand_mem (lines : Option Nat) (vals : List DWord) (r : MonResult) (s : State) : (endCommand lines vals r s).mem = s.mem := by
  unfold endCommand
  grind [onMon_mem, fresh_mem, answerSession_mem, answerLines_mem, stateOr, Clock.state, fresh, foldl_mem]

theorem monBistDone_mem (s : State) : (monBistDone s).mem = s.mem := by
  unfold monBistDone
  simp only [↓endCommand_mem]

theorem bistNotice_mem (code : Nat) (arg : Nat) (s : State) : (bistNotice code arg s).mem = s.mem := by
  unfold bistNotice
  simp only [↓postOnce_mem]

theorem latchBist_mem (s : State) : (latchBist s).mem = s.mem := by
  unfold latchBist
  simp only [↓latchFault_mem, apply_ite State.mem, ite_self]

theorem retireBank_mem (b : Nat) (s : State) : (retireBank b s).mem = s.mem := by
  unfold retireBank
  simp only [↓setF_mem, ↓bump_mem, ↓onInteg_mem, ↓bistNotice_mem, ↓latchBist_mem, ↓soNotice_mem, ↓setB_mem, apply_ite State.mem, ite_self]

theorem verdict_mem (t : Nat) (pass : Bool) (s : State) : (verdict t pass s).mem = s.mem := by
  unfold verdict
  simp only [↓setF_mem, ↓bump_mem, ↓bistNotice_mem, ↓monBistDone_mem, apply_ite State.mem, ite_self]

theorem setPhase_mem (n : Nat) (s : State) : (setPhase n s).mem = s.mem := by
  unfold setPhase
  simp only [↓setF_mem]

theorem refreshCluster_mem (k : Nat) (s : State) : (refreshCluster k s).mem = s.mem := by
  unfold refreshCluster
  simp only [↓refreshBank_mem]

theorem startTest_mem (t : Nat) (self : Bool) (s : State) : (startTest t self s).mem = s.mem := by
  unfold startTest
  simp only [↓bump_mem, ↓setF_mem, ↓setPhase_mem, ↓onInteg_mem, ↓refreshCluster_mem, apply_ite State.mem, ite_self]

theorem bistCommand_mem (t : Nat) (s : State) : (bistCommand t s).mem = s.mem := by
  unfold bistCommand
  simp only [↓bump_mem, ↓setB_mem, ↓onInteg_mem, ↓startTest_mem, apply_ite State.mem, ite_self]

theorem endTest_mem (s : State) : (endTest s).mem = s.mem := by
  unfold endTest
  grind [setF_mem, setPhase_mem, onInteg_mem, bistCommand_mem, selfTestKick_mem, stateOr, Clock.state, fresh, foldl_mem]

theorem regainBank_mem (s : State) : (regainBank s).mem = s.mem := by
  unfold regainBank
  skip
  refine (onInteg_mem _ _).trans ((moveCredit_mem _ _).trans ?_)
  exact (foldl_mem _ (fun u p => setF_mem _ _ _ _) _ _).trans (setF_mem _ _ _ _)

theorem scrambleReg_mem (a : Nat) (s : State) : (scrambleReg a s).mem = s.mem := by
  unfold scrambleReg
  simp only [↓fresh_mem, ↓setReg_mem]

theorem scrambleField_mem (a : Nat) (f : Fld) (s : State) : (scrambleField a f s).mem = s.mem := by
  unfold scrambleField
  simp only [↓fresh_mem, ↓setF_mem]

theorem scrambleWords_mem (x0 : Nat) (s : State) : (scrambleWords x0 s).2.mem = s.mem := by
  induction x0 generalizing s with
  | zero => rfl
  | succ n ih => unfold scrambleWords; dsimp only; rw [ih]; exact fresh_mem _ _

theorem scrambleEngine_mem (n : Nat) (s : State) : (scrambleEngine n s).mem = s.mem := by
  unfold scrambleEngine
  simp only [↓scrambleReg_mem, ↓scrambleField_mem, ↓scrambleWords_mem, ↓onEng_mem]

end Sys2Proof.Machine
end

