-- ==== Sys2Proof/Laws/Memory5.lean ====
section
/-! SUPPORT. Operations and meanings that leave every memory byte as it is. The operations and meanings of Bist, Reset, NodeControl, Update, Bus, Departure, Inbound, Manifest, Monitor. -/

namespace Sys2Proof.Machine

theorem scrambleCluster_mem (k : Nat) (s : State) : (scrambleCluster k s).mem = s.mem := by
  unfold scrambleCluster
  grind [scrambleEngine_mem, scrambleField_mem, scrambleReg_mem, fresh_mem, onScribe_mem, stateOr, Clock.state, fresh, foldl_mem]

theorem raiseSingleton_mem (f : Fld) (s : State) : (raiseSingleton f s).mem = s.mem := by
  unfold raiseSingleton
  simp only [↓latchBist_mem, ↓bistNotice_mem, ↓setB_mem]

theorem failTarget_mem (t : Nat) (s : State) : (failTarget t s).mem = s.mem := by
  unfold failTarget
  simp only [↓retireBank_mem, ↓latchBist_mem, ↓setB_mem, ↓scrambleCluster_mem, ↓setF_mem, ↓raiseSingleton_mem, apply_ite State.mem, ite_self]

theorem execBistTestDone_mem (pass : Bool) (faddr : Word) (misr : Word) (s : State) : (stateOr (execBistTestDone pass faddr misr s) s).mem = s.mem := by
  unfold execBistTestDone
  split <;> simp only [↓setReg_mem, ↓verdict_mem, ↓setPhase_mem, ↓endTest_mem, ↓regainBank_mem, ↓refreshCluster_mem, ↓setB_mem, ↓failTarget_mem, apply_ite State.mem, ite_self, stateOr_next, stateOr_ite]

theorem loseBank_mem (s : State) : (loseBank s).mem = s.mem := by
  unfold loseBank
  skip
  refine (onInteg_mem _ _).trans ((moveCredit_mem _ _).trans ?_)
  exact (foldl_mem _ (fun u p => setF_mem _ _ _ _) _ _).trans (setF_mem _ _ _ _)

theorem lapTime_mem (c : Nat) (s : State) : (lapTime c s).2.mem = s.mem := by
  unfold lapTime
  generalize lapTicks c s * 16 = k
  exact (fitFree_mem _ _ _).trans (roundFree_mem _ _ _)

theorem classAddr_mem (c : Nat) (n : Nat) (s : State) : (classAddr c n s).2.mem = s.mem := by
  unfold classAddr
  grind [fresh_mem, stateOr, Clock.state, fresh, foldl_mem]

theorem writeBistCmd_mem (v : Word) (s : State) : (writeBistCmd v s).mem = s.mem := by
  unfold writeBistCmd
  simp only [↓plainWrite_mem, ↓bistCommand_mem, apply_ite State.mem, ite_self]

theorem execBistGo_mem (m : Master) (v : Word) (s : State) : (stateOr (execBistGo m v s) s).mem = s.mem := by
  unfold execBistGo
  simp only [↓guardWrite_mem, ↓writeBistCmd_mem, stateOr_next, implies_true]

theorem noteStoreError_mem (k : Nat) (a : Nat) (s : State) : (noteStoreError k a s).mem = s.mem := by
  unfold noteStoreError
  simp only [↓onInteg_mem, ↓miNotice_mem, apply_ite State.mem, ite_self]

theorem execScrubWriteback_mem (c : Fin 7) (otherWrite : Bool) (s : State) : (stateOr (execScrubWriteback c otherWrite s) s).mem = s.mem := by
  unfold execScrubWriteback
  simp only [↓onInteg_mem, ↓bump_mem, apply_ite State.mem, ite_self, stateOr_next, stateOr_ite]

theorem showLap_mem (c : Nat) (us : Nat) (s : State) : (showLap c us s).mem = s.mem := by
  unfold showLap
  simp only [↓setReg_mem, apply_ite State.mem, ite_self]

theorem execBucketLeak_mem (c : Fin 7) (s : State) : (stateOr (execBucketLeak c s) s).mem = s.mem := by
  unfold execBucketLeak
  simp only [↓setF_mem, ↓onInteg_mem, apply_ite State.mem, ite_self, stateOr_next, stateOr_ite]

theorem execBistCopyDone_mem (s : State) : (stateOr (execBistCopyDone s) s).mem = s.mem := by
  unfold execBistCopyDone
  split <;> simp only [↓setPhase_mem, ↓onInteg_mem, apply_ite State.mem, ite_self, stateOr_next, stateOr_ite]

theorem execBistReturnDone_mem (s : State) : (stateOr (execBistReturnDone s) s).mem = s.mem := by
  unfold execBistReturnDone
  split <;> simp only [↓endTest_mem, ↓onInteg_mem, apply_ite State.mem, ite_self, stateOr_next, stateOr_ite]

theorem markBad_mem (a : Nat) (s : State) : (markBad a s).mem = s.mem := by
  unfold markBad
  simp only [↓onInteg_mem, apply_ite State.mem, ite_self]

theorem endLap_mem (c : Nat) (s : State) : (endLap c s).mem = s.mem := by
  unfold endLap
  have hr := lapTime_mem c s
  generalize lapTime c s = r at hr
  exact (bump_mem _ _).trans ((onInteg_mem _ _).trans ((showLap_mem _ _ _).trans hr))

theorem execBistBankDrained_mem (s : State) : (stateOr (execBistBankDrained s) s).mem = s.mem := by
  unfold execBistBankDrained
  simp only [↓setPhase_mem, ↓bump_mem, ↓loseBank_mem, ↓onInteg_mem, apply_ite State.mem, ite_self, stateOr_next, stateOr_ite]

theorem execScrubWord_mem (c : Fin 7) (found : Found) (s : State) : (stateOr (execScrubWord c found s) s).mem = s.mem := by
  unfold execScrubWord
  (repeat' split) <;> simp only [↓classAddr_mem, ↓onInteg_mem, ↓correctedWord_mem, ↓freshError_mem, ↓endLap_mem, apply_ite State.mem, ite_self, stateOr_next]

theorem putLock_mem (sys : Bool) (sds : Bool) (s : State) : (putLock sys sds s).mem = s.mem := by
  unfold putLock
  simp only [↓setB_mem]

theorem execCollapseHoldEnd_mem (s : State) : (stateOr (execCollapseHoldEnd s) s).mem = s.mem := by
  unfold execCollapseHoldEnd
  simp only [↓feedSettle_mem, ↓onPower_mem, apply_ite State.mem, ite_self, stateOr_next, stateOr_ite]

theorem noteCause_mem (f : Fld) (s : State) : (noteCause f s).mem = s.mem := by
  unfold noteCause
  simp only [↓setB_mem]

theorem releaseDie_mem (s : State) : (releaseDie s).mem = s.mem := by
  unfold releaseDie
  simp only [↓onPower_mem, ↓setF_mem, ↓setB_mem, ↓putLock_mem]

theorem execRegulatorReady_mem (s : State) : (stateOr (execRegulatorReady s) s).mem = s.mem := by
  unfold execRegulatorReady
  simp only [↓onPower_mem, ↓setB_mem, ↓releaseDie_mem, apply_ite State.mem, ite_self, stateOr_next, stateOr_ite]

theorem execJtagInstruction_mem (code : Byte) (s : State) : (stateOr (execJtagInstruction code s) s).mem = s.mem := by
  unfold execJtagInstruction
  simp only [↓refreshPins_mem, ↓onNode_mem, stateOr_next]

theorem refusedTransition_mem (s : State) : (refusedTransition s).mem = s.mem := by
  unfold refusedTransition
  simp only [↓bump_mem]

theorem quietUnit_mem (cap : Nat) (inst : Nat) (s : State) : (quietUnit cap inst s).mem = s.mem := by
  unfold quietUnit
  simp only [↓onPin_mem, apply_ite State.mem, ite_self, implies_true, foldl_mem]

theorem dropStages_mem (a : Nat) (n : Nat) (s : State) : (dropStages a n s).mem = s.mem := by
  unfold dropStages
  simp only

theorem resetCluster_mem (k : Nat) (s : State) : (resetCluster k s).mem = s.mem := by
  unfold resetCluster
  simp only [↓settleDma_mem, ↓setB_mem, ↓resetRange_mem]

theorem restartWdog_mem (s : State) : (restartWdog s).mem = s.mem := by
  unfold restartWdog
  simp only [↓onNode_mem]

theorem writeNodeWdog_mem (v : Word) (s : State) : (writeNodeWdog v s).mem = s.mem := by
  unfold writeNodeWdog
  simp only [↓plainWrite_mem, ↓restartWdog_mem, apply_ite State.mem, ite_self]

theorem execKick_mem (m : Master) (v : Word) (s : State) : (stateOr (execKick m v s) s).mem = s.mem := by
  unfold execKick
  simp only [↓guardWrite_mem, ↓writeNodeWdog_mem, stateOr_next, implies_true]

theorem judgeClock_mem (i : Nat) (f : Nat) (s : State) : (judgeClock i f s).mem = s.mem := by
  unfold judgeClock
  simp only [↓onNode_mem, ↓latchFault_mem, ↓postOpen_mem, ↓setB_mem, apply_ite State.mem, ite_self]

theorem execClockMonitorWindow_mem (fclk : Nat) (uclk : Nat) (core : Nat) (bus : Nat) (s : State) : (stateOr (execClockMonitorWindow fclk uclk core bus s) s).mem = s.mem := by
  unfold execClockMonitorWindow
  simp only [↓judgeClock_mem, apply_ite State.mem, ite_self, stateOr_next]

theorem writeNodeCtl_mem (m : Master) (v : Word) (s : State) : (writeNodeCtl m v s).mem = s.mem := by
  unfold writeNodeCtl
  simp only [↓plainWrite_mem, ↓refusedTransition_mem, ↓writeInPart_mem, apply_ite State.mem, ite_self]

theorem execPllLockHeld_mem (s : State) : (stateOr (execPllLockHeld s) s).mem = s.mem := by
  unfold execPllLockHeld
  simp only [↓putLock_mem, ↓onNode_mem, apply_ite State.mem, ite_self, stateOr_next]

theorem execResetLRelease_mem (s : State) : (stateOr (execResetLRelease s) s).mem = s.mem := by
  unfold execResetLRelease
  simp only [↓onNode_mem, stateOr_next]

theorem sendAck_mem (q : Asker) (status : Nat) (reason : Nat) (f : Nat) (s : State) : (sendAck q status reason f s).mem = s.mem := by
  unfold sendAck
  split <;> simp only [↓onUpd_mem, ↓sendOrWait_mem, apply_ite State.mem, ite_self]

theorem refuseFolio_mem (q : Asker) (reason : Nat) (f : Nat) (s : State) : (refuseFolio q reason f s).mem = s.mem := by
  unfold refuseFolio
  simp only [↓bump_mem, ↓setF_mem, ↓updNotice_mem, ↓sendAck_mem, apply_ite State.mem, ite_self]

theorem dropPoisoned_mem (s : State) : (dropPoisoned s).mem = s.mem := by
  unfold dropPoisoned
  simp only [↓bump_mem, ↓latchFault_mem, apply_ite State.mem, ite_self]

theorem judgeQuery_mem (r : FolioReq) (s : State) : (judgeQuery r s).mem = s.mem := by
  unfold judgeQuery
  split <;> simp only [↓refuseFolio_mem, ↓sendAck_mem, apply_ite State.mem, ite_self]

theorem showSession_mem (s : State) : (showSession s).mem = s.mem := by
  unfold showSession
  split <;> simp only [↓setF_mem, ↓setReg_mem]

theorem putSession_mem (x : UpdSession) (s : State) : (putSession x s).mem = s.mem := by
  unfold putSession
  simp only [↓showSession_mem, ↓onUpd_mem]

theorem gatherPart_mem (r : FolioReq) (s : State) : (gatherPart r s).mem = s.mem := by
  unfold gatherPart
  split <;> simp only [↓onUpd_mem, ↓sendAck_mem, ↓bump_mem, apply_ite State.mem, ite_self]

theorem judgePart_mem (r : FolioReq) (s : State) : (judgePart r s).mem = s.mem := by
  unfold judgePart
  split <;> simp only [↓refuseFolio_mem, ↓sendAck_mem, ↓bump_mem, ↓gatherPart_mem, apply_ite State.mem, ite_self]

theorem noteFallback_mem (slot : Nat) (s : State) : (noteFallback slot s).mem = s.mem := by
  unfold noteFallback
  simp only [↓updNotice_mem, ↓bump_mem, ↓setB_mem]

theorem requestMode_mem (mode : Nat) (s : State) : (requestMode mode s).mem = s.mem := by
  unfold requestMode
  simp only [↓setF_mem, apply_ite State.mem, ite_self]

theorem enterRecovery_mem (s : State) : (enterRecovery s).mem = s.mem := by
  unfold enterRecovery
  simp only [↓showSession_mem, ↓onUpd_mem, ↓requestMode_mem, ↓writePtCtl_mem, implies_true, foldl_mem]

theorem startSlot_mem (slot : Nat) (trial : Bool) (s : State) : (startSlot slot trial s).mem = s.mem := by
  unfold startSlot
  simp only [↓setB_mem, ↓setF_mem, ↓setReg_mem, ↓showSession_mem, ↓onUpd_mem]

theorem loseRecord_mem (s : State) : (loseRecord s).mem = s.mem := by
  unfold loseRecord
  simp only

theorem clearSession_mem (s : State) : (clearSession s).mem = s.mem := by
  unfold clearSession
  simp only [↓onUpd_mem, ↓setF_mem, ↓setReg_mem]

theorem updRefuse_mem (s : State) : (updRefuse s).mem = s.mem := by
  unfold updRefuse
  simp only [↓setB_mem]

theorem execFolioAck_mem (p : Fin 3) (e : Envelope) (s : State) : (stateOr (execFolioAck p e s) s).mem = s.mem := by
  unfold execFolioAck
  simp only [↓sendOrWait_mem, ↓takeDelivered_mem, apply_ite State.mem, ite_self, stateOr_next, stateOr_ite]

theorem failSession_mem (x : UpdSession) (q : Asker) (reason : Nat) (f : Nat) (s : State) : (failSession x q reason f s).mem = s.mem := by
  unfold failSession
  simp only [↓onUpd_mem, ↓putSession_mem, ↓bump_mem, ↓setF_mem, ↓sendAck_mem, ↓updNotice_mem]

theorem failApply_mem (s : State) : (failApply s).mem = s.mem := by
  unfold failApply
  simp only [↓updNotice_mem, ↓requestMode_mem, ↓onUpd_mem]

theorem startApply_mem (slot : Nat) (s : State) : (startApply slot s).mem = s.mem := by
  unfold startApply
  simp only [↓onUpd_mem, ↓failApply_mem, apply_ite State.mem, ite_self]

theorem showFlash_mem (sfdp : Option (Nat × Bool)) (s : State) : (showFlash sfdp s).mem = s.mem := by
  unfold showFlash
  split <;> simp only [↓setB_mem, ↓setF_mem]

theorem readCapture_mem (id : MasterId) (n : Nat) (s : State) : (readCapture id n s).1.mem = s.mem := by
  unfold readCapture
  simp only [↓latchUpper_mem]

theorem readWide_mem (id : MasterId) (w : WideRow) (part : Nat) (lo : Nat) (a : Nat) (s : State) : (readWide id w part lo a s).1.mem = s.mem := by
  unfold readWide
  (repeat' split) <;> simp only [↓latchUpper_mem]

theorem markedAnswer_mem (p : State × Word × Bool) : (markedAnswer p).1.mem = p.1.mem := by cases p; rfl
theorem cleanAnswer_mem (p : State × Word) : (cleanAnswer p).1.mem = p.1.mem := by cases p; rfl
theorem regRead_mem (m : Master) (a : Nat) (bad : BitVec 2) (s : State) : (regRead m a bad s).1.mem = s.mem := by
  unfold regRead
  extract_lets id
  split
  · rfl
  · rename_i r i j _
    split
    · exact (markedAnswer_mem _).trans (popQueue_mem _ _ _ _)
    split
    · exact (markedAnswer_mem _).trans (readItem_mem _ _ _ _)
    split
    · exact (markedAnswer_mem _).trans (readRxf_mem _ _ _)
    split
    · exact (cleanAnswer_mem _).trans (readRxd_mem _ _)
    split
    · exact (cleanAnswer_mem _).trans (readBankCap_mem _ _ _)
    split
    · exact (cleanAnswer_mem _).trans (readWmCap_mem _ _)
    split
    · exact (cleanAnswer_mem _).trans (readCapture_mem _ _ _)
    split
    · rfl
    split
    · rfl
    split
    · rfl
    split
    · exact (cleanAnswer_mem _).trans (readWide_mem _ _ _ _ _ _)
    · rfl

theorem memRead_mem (a : Nat) (n : Nat) (s : State) : (memRead a n s).1.mem = s.mem := by
  unfold memRead
  grind [fresh_mem, stateOr, Clock.state, fresh, foldl_mem]

theorem busRead_mem (m : Master) (lock : Bool) (a : Nat) (n : Nat) (bad : BitVec 2) (s : State) : (busRead m lock a n bad s).1.mem = s.mem := by
  unfold busRead
  grind [refuse_mem, regRead_mem, memRead_mem, stateOr, Clock.state, fresh, foldl_mem]

theorem readAccess_mem (m : Master) (a : Nat) (s : State) : (readAccess m a s).mem = s.mem := by
  unfold readAccess
  simp only [↓busRead_mem, ↓answer_mem, ↓coreMeets_mem, apply_ite State.mem, ite_self]

theorem writeLocal_mem (id : MasterId) (base : Nat) (i : Nat) (j : Nat) (v : Word) (s : State) : ((writeLocal id base i j v s).getD s).mem = s.mem := by
  unfold writeLocal
  simp only [getD_ite, Option.getD_some, Option.getD_none, apply_ite State.mem, writeArbPri_mem, writePhCfg_mem, writePhCtl_mem, writePfa_mem, writeOcCmd_mem,
    writeOcData_mem, writeDlTail_mem, writeUpTail_mem, writeDlFaddr_mem, commitEntry_mem, stageEntry_mem, ite_self]

theorem writeRtCfg_mem (v : Word) (s : State) : (writeRtCfg v s).mem = s.mem := by
  unfold writeRtCfg
  simp only [↓setB_mem, ↓declineWrite_mem, ↓writeInPart_mem, ↓reviewJunction_mem, ↓plainWrite_mem, ↓refreshPins_mem, apply_ite State.mem, ite_self]

theorem writeRing_mem (base : Nat) (i : Nat) (a : Nat) (v : Word) (s : State) : ((writeRing base i a v s).getD s).mem = s.mem := by
  unfold writeRing
  (repeat' split) <;> simp only [↓writeSoRes_mem, ↓writePtCtl_mem, ↓writePtSdsRx_mem, ↓writeI2cCmd_mem, ↓writeCnCmd_mem, ↓writeRtCfg_mem, ↓writeRtGrp_mem, ↓writeJnCtl_mem, Option.getD_some, Option.getD_none]

theorem writeFmask_mem (v : Word) (s : State) : (writeFmask v s).mem = s.mem := by
  unfold writeFmask
  simp only [↓plainWrite_mem, ↓giveUp_mem, apply_ite State.mem, ite_self]

theorem writePower_mem (id : MasterId) (base : Nat) (i : Nat) (a : Nat) (v : Word) (s : State) : ((writePower id base i a v s).getD s).mem = s.mem := by
  unfold writePower
  (repeat' split) <;> simp only [↓writePdCtl_mem, ↓writeFeedCfg_mem, ↓writeChanCtl_mem, ↓writePdCfg_mem, ↓commitEnergy_mem, ↓writeBistCmd_mem, ↓writeCntSnap_mem, Option.getD_some, Option.getD_none]

theorem writePlain_mem (id : MasterId) (a : Nat) (v : Word) (s : State) : (writePlain id a v s).mem = s.mem := by
  unfold writePlain
  (repeat' split) <;> simp only [↓commitWide_mem, ↓countPart_mem, ↓stagePart_mem, ↓plainWrite_mem]

theorem execWideLoRead_mem (m : Master) (a : Word) (s : State) : (stateOr (execWideLoRead m a s) s).mem = s.mem := by
  unfold execWideLoRead
  simp only [↓readAccess_mem, stateOr_next]

theorem stepStarted_mem (o : Nat) (e : Envelope) (m : RingMark) (s : State) : (stepStarted o e m s).mem = s.mem := by
  unfold stepStarted
  simp only [↓onDpx_mem, apply_ite State.mem, ite_self]

theorem noteUncorr_mem (e : Stored) (w : Nat) (s : State) : (noteUncorr e w s).mem = s.mem := by
  unfold noteUncorr
  simp only [↓bump_mem, ↓setB_mem, ↓freshError_mem, apply_ite State.mem, ite_self]

theorem markStart_mem (o : Nat) (e : Envelope) (m : RingMark) (s : State) : (markStart o e m s).mem = s.mem := by
  unfold markStart
  simp only [↓onPort_mem, ↓onNet_mem, apply_ite State.mem, ite_self]

theorem startAt_mem (o : Nat) (c : Nat) (e : Stored) (env : Envelope) (ph : Nat) (s : State) : (startAt o c e env ph s).mem = s.mem := by
  unfold startAt
  simp only [↓onPort_mem, ↓consumePoison_mem, ↓markStart_mem, ↓stepStarted_mem, ↓timeStarted_mem, ↓setSending_mem, ↓notePassed_mem, apply_ite State.mem, ite_self]

theorem setWait_mem (out : Nat) (c : Nat) (b : Bool) (s : State) : (setWait out c b s).mem = s.mem := by
  unfold setWait
  simp only [↓setB_mem]

theorem noteAll_mem (e : Stored) (ws : List Nat) (s : State) : (noteAll e ws s).mem = s.mem := by
  unfold noteAll
  simp only [↓noteUncorr_mem, implies_true, foldl_mem]

theorem countOut_mem (o : Nat) (e : Stored) (s : State) : (countOut o e s).mem = s.mem := by
  unfold countOut
  simp only [↓bump_mem, ↓bumpN_mem, apply_ite State.mem, ite_self]

theorem execInternalDelivery_mem (o : Fin 5) (accept : Bool) (uncorr : BitVec 36) (s : State) : (stateOr (execInternalDelivery o accept uncorr s) s).mem = s.mem := by
  unfold execInternalDelivery
  grind [setWait_mem, noteAll_mem, notePassed_mem, dropTarget_mem, countOut_mem, onOffice_mem, stateOr, Clock.state, fresh, foldl_mem]

theorem execEnvelopeStart_mem (o : Fin 3) (uncorr : BitVec 36) (ph : Fin 32) (s : State) : (stateOr (execEnvelopeStart o uncorr ph s) s).mem = s.mem := by
  unfold execEnvelopeStart
  (repeat' split) <;> simp only [↓noteAll_mem, ↓dropTarget_mem, ↓startAt_mem, apply_ite State.mem, ite_self, stateOr_next, stateOr_ite]

theorem execEnvelopeSent_mem (o : Fin 3) (uncorr : BitVec 36) (s : State) : (stateOr (execEnvelopeSent o uncorr s) s).mem = s.mem := by
  unfold execEnvelopeSent
  (repeat' split) <;> simp only [↓setSending_mem, ↓noteAll_mem, ↓bump_mem, ↓bumpN_mem, ↓countOut_mem, ↓onOffice_mem, ↓dropTarget_mem, ↓sendBlock_mem, ↓sendStamp_mem, apply_ite State.mem, ite_self, stateOr_next]

theorem askPiece_mem (c : Current) (s : State) : (askPiece c s).mem = s.mem := by
  unfold askPiece
  split <;> simp only [↓request_mem, apply_ite State.mem, ite_self]

theorem perform_mem (r : Request) (s : State) : (perform r s).mem = s.mem := by
  unfold perform
  simp only [↓askPiece_mem, ↓onBridge_mem, ↓bump_mem]

theorem lockAndPerform_mem (r : Request) (s : State) : (lockAndPerform r s).mem = s.mem := by
  unfold lockAndPerform
  simp only [↓perform_mem, ↓takeLock_mem]

theorem startWaiter_mem (s : State) : (startWaiter s).mem = s.mem := by
  unfold startWaiter
  (repeat' split) <;> simp only [↓perform_mem, ↓onBridge_mem, ↓lockAndPerform_mem]

theorem execLockWaiterGrant_mem (s : State) : (stateOr (execLockWaiterGrant s) s).mem = s.mem := by
  unfold execLockWaiterGrant
  simp only [↓startWaiter_mem, apply_ite State.mem, ite_self, stateOr_next]

theorem closeRequest_mem (c : Current) (failed : Bool) (s : State) : (closeRequest c failed s).mem = s.mem := by
  unfold closeRequest
  simp only [↓endRequest_mem, ↓onBridge_mem, ↓releaseLock_mem, apply_ite State.mem, ite_self]

theorem refuseRequest_mem (reason : Nat) (cause : Nat) (pieces : Nat) (data : DWord) (pois : Bool) (e : Envelope) (s : State) : (refuseRequest reason cause pieces data pois e s).mem = s.mem := by
  unfold refuseRequest
  simp only [↓bump_mem, ↓sendNdn_mem, apply_ite State.mem, ite_self]

theorem refuseWhole_mem (r : Reason) (e : Envelope) (s : State) : (refuseWhole r e s).mem = s.mem := by
  unfold refuseWhole
  simp only [↓refuseRequest_mem]

theorem failPiece_mem (c : Current) (r : Reason) (s : State) : (failPiece c r s).mem = s.mem := by
  unfold failPiece
  simp only [↓closeRequest_mem, ↓refuseWhole_mem, ↓refuseRequest_mem, apply_ite State.mem, ite_self]

theorem answerDone_mem (e : Envelope) (bytes : List Byte) (pois : BitVec 32) (s : State) : (answerDone e bytes pois s).mem = s.mem := by
  unfold answerDone
  simp only [↓bump_mem, ↓sendOrWait_mem, apply_ite State.mem, ite_self]

theorem foundWord_mem (f : Found) (a : Nat) (s : State) : (foundWord f a s).mem = s.mem := by
  unfold foundWord
  split <;> simp only [↓freshError_mem, ↓correctedWord_mem, apply_ite State.mem, ite_self]

theorem readBeats_mem (id : MasterId) (lock : Bool) (bad : BitVec 2) (f : Found) (x0 : Nat) (x1 : List (Nat × Nat)) (s : State) : (readBeats id lock bad f x0 x1 s).1.mem = s.mem := by
  induction x1 generalizing s f x0 with
  | nil => rfl
  | cons b bs ih =>
    unfold readBeats
    dsimp only
    generalize hs : (if x0 = 0 ∧ (refusal s { m := .ring id, a := b.1, width := b.2, write := false, lock := lock }).isNone = true then foundWord f b.1 s else s) = s1
    have h1 : s1.mem = s.mem := by
      rw [← hs]; split
      · exact foundWord_mem _ _ _
      · rfl
    have h2 := busRead_mem (.ring id) lock b.1 b.2 bad s1
    generalize busRead (.ring id) lock b.1 b.2 bad s1 = p at h2
    split
    · exact h2.trans h1
    · split
      · rename_i e2; have i := ih (if x0 = 0 then Found.clean else f) (x0 - 1) p.1; rw [e2] at i; exact i.trans (h2.trans h1)
      · rename_i e2; have i := ih (if x0 = 0 then Found.clean else f) (x0 - 1) p.1; rw [e2] at i; exact i.trans (h2.trans h1)

theorem fillBuffer_mem (id : MasterId) (e : Nat) (s : State) : (fillBuffer id e s).mem = s.mem := by
  unfold fillBuffer
  grind [readBeats_mem, dropBuf_mem, setBuf_mem, sideGrant_mem, onBridge_mem, stateOr, Clock.state, fresh, foldl_mem]

theorem noteRead_mem (id : MasterId) (a : Nat) (n : Nat) (s : State) : (noteRead id a n s).mem = s.mem := by
  unfold noteRead
  simp only [↓onBridge_mem, ↓fillBuffer_mem, apply_ite State.mem, ite_self]

theorem finishRequest_mem (c : Current) (s : State) : (finishRequest c s).mem = s.mem := by
  unfold finishRequest
  simp only [↓answerDone_mem, ↓closeRequest_mem, ↓noteRead_mem, apply_ite State.mem, ite_self]

theorem nextPiece_mem (c : Current) (s : State) : (nextPiece c s).mem = s.mem := by
  unfold nextPiece
  simp only [↓bump_mem, ↓finishRequest_mem, ↓askPiece_mem, ↓onBridge_mem, apply_ite State.mem, ite_self]

theorem openBeat_mem (f : Found) (n : Nat) (s : State) : (openBeat f n s).2.mem = s.mem := by
  unfold openBeat
  grind [fresh_mem, stateOr, Clock.state, fresh, foldl_mem]

theorem dropReader_mem (id : MasterId) (a : Nat) (n : Nat) (s : State) : (dropReader id a n s).mem = s.mem := by
  unfold dropReader
  grind [dropBuf_mem, stateOr, Clock.state, fresh, foldl_mem]

theorem startLockRead_mem (r : Request) (s : State) : (startLockRead r s).mem = s.mem := by
  unfold startLockRead
  simp only [↓refuseWhole_mem, ↓lockAndPerform_mem, ↓bump_mem, ↓onBridge_mem, apply_ite State.mem, ite_self]

theorem answerBuffer_mem (id : MasterId) (k : Nat) (b : ReadAhead) (e : Envelope) (s : State) : (answerBuffer id k b e s).mem = s.mem := by
  unfold answerBuffer
  simp only [↓onBridge_mem, ↓bump_mem, ↓setBuf_mem, ↓answerDone_mem, ↓fillBuffer_mem, apply_ite State.mem, ite_self]

theorem startRequest_mem (r : Request) (s : State) : (startRequest r s).mem = s.mem := by
  unfold startRequest
  grind [setB_mem, bump_mem, refuseWhole_mem, dropReader_mem, startLockRead_mem, answerBuffer_mem, perform_mem, stateOr, Clock.state, fresh, foldl_mem]

theorem beginRequest_mem (r : Request) (s : State) : (beginRequest r s).mem = s.mem := by
  unfold beginRequest
  simp only [↓startRequest_mem, ↓onBridge_mem]

theorem execLiTimeout_mem (requester : Fin 24) (a : Word) (write : Bool) (s : State) : (stateOr (execLiTimeout requester a write s) s).mem = s.mem := by
  unfold execLiTimeout
  grind [noteTimeout_mem, failPiece_mem, failApply_mem, settleCopies_mem, onBuses_mem, timeoutRecord_mem, stateOr, Clock.state, fresh, foldl_mem]

theorem startNext_mem (s : State) : (startNext s).mem = s.mem := by
  unfold startNext
  (repeat' split) <;> simp only [↓startWaiter_mem, ↓beginRequest_mem]

theorem arrive_mem (e : Envelope) (s : State) : (arrive e s).mem = s.mem := by
  unfold arrive
  simp only [↓bump_mem, ↓takeDelivered_mem, ↓refuseWhole_mem, ↓onBridge_mem, ↓startNext_mem, apply_ite State.mem, ite_self]

theorem requestRow_mem (k : BitVec 5) (e : Envelope) (s : State) : (stateOr (requestRow k e s) s).mem = s.mem := by
  unfold requestRow
  simp only [↓arrive_mem, stateOr_next]

theorem execRead_mem (e : Envelope) (s : State) : (stateOr (execRead e s) s).mem = s.mem := by
  unfold execRead
  simp only [↓requestRow_mem]

theorem execWriteA_mem (e : Envelope) (s : State) : (stateOr (execWriteA e s) s).mem = s.mem := by
  unfold execWriteA
  simp only [↓requestRow_mem]

theorem execWriteP_mem (e : Envelope) (s : State) : (stateOr (execWriteP e s) s).mem = s.mem := by
  unfold execWriteP
  simp only [↓requestRow_mem]

theorem execInboundStart_mem (s : State) : (stateOr (execInboundStart s) s).mem = s.mem := by
  unfold execInboundStart
  simp only [↓startNext_mem, stateOr_next]

theorem execUnlockWrite_mem (e : Envelope) (s : State) : (stateOr (execUnlockWrite e s) s).mem = s.mem := by
  unfold execUnlockWrite
  simp only [↓requestRow_mem]

theorem execLockRead_mem (e : Envelope) (s : State) : (stateOr (execLockRead e s) s).mem = s.mem := by
  unfold execLockRead
  simp only [↓requestRow_mem]

theorem manifestRecord_mem (ok : Bool) (act : State → State) (s : State) (h0 : ∀ x, (act x).mem = x.mem) : (manifestRecord ok act s).mem = s.mem := by
  unfold manifestRecord
  simp only [h0, ↓failApply_mem, apply_ite State.mem, ite_self]

theorem recordDone_mem (s : State) : (recordDone s).mem = s.mem := by
  unfold recordDone
  simp only [↓onUpd_mem]

theorem execMfDelay_mem (us : Nat) (s : State) : (stateOr (execMfDelay us s) s).mem = s.mem := by
  unfold execMfDelay
  simp only [↓manifestRecord_mem, ↓recordDone_mem, stateOr_next, implies_true]

theorem execMfPoll_mem (a : Word) (mask : Word) (value : Word) (late : Bool) (s : State) : (stateOr (execMfPoll a mask value late s) s).mem = s.mem := by
  unfold execMfPoll
  grind [manifestRecord_mem, busRead_mem, recordDone_mem, failApply_mem, stateOr, Clock.state, fresh, foldl_mem]

theorem execMfEnd_mem (how : ManifestEnd) (s : State) : (stateOr (execMfEnd how s) s).mem = s.mem := by
  unfold execMfEnd
  simp only [↓manifestRecord_mem, ↓onUpd_mem, ↓writeNodeCtl_mem, stateOr_next, implies_true]

theorem setRegs_mem (x0 : List Nat) (x1 : List Word) (s : State) : (setRegs x0 x1 s).mem = s.mem := by
  induction x0 generalizing s x1 with
  | nil => rfl
  | cons a as ih => cases x1 with
    | nil => rfl
    | cons w ws => unfold setRegs; rw [ih, setReg_mem]

theorem restorePersistent_mem (s : State) : (restorePersistent s).mem = s.mem := by
  unfold restorePersistent
  grind [setRegs_mem, onUpd_mem, stateOr, Clock.state, fresh, foldl_mem]

theorem execMfPersist_mem (s : State) : (stateOr (execMfPersist s) s).mem = s.mem := by
  unfold execMfPersist
  simp only [↓manifestRecord_mem, ↓recordDone_mem, ↓onUpd_mem, ↓restorePersistent_mem, stateOr_next, implies_true]

theorem execMfNodecfg_mem (a : Word) (w0 : Word) (w1 : Word) (s : State) : (stateOr (execMfNodecfg a w0 w1 s) s).mem = s.mem := by
  unfold execMfNodecfg
  simp only [↓manifestRecord_mem, ↓writeNodeWdog_mem, ↓plainWrite_mem, ↓recordDone_mem, ↓onUpd_mem, stateOr_next, implies_true]

theorem endLine_mem (vals : List DWord) (r : MonResult) (s : State) : (endLine vals r s).mem = s.mem := by
  unfold endLine
  simp only [↓endCommand_mem, ↓startCommand_mem]

theorem terminalLine_mem (open_ : Bool) (act : State → State) (s : State) (h0 : ∀ x, (act x).mem = x.mem) : (terminalLine open_ act s).mem = s.mem := by
  unfold terminalLine
  simp only [h0, ↓onUpd_mem, ↓endLine_mem, apply_ite State.mem, ite_self]

theorem endOpen_mem (s : State) : (endOpen s).mem = s.mem := by
  unfold endOpen
  simp only [↓fresh_mem, ↓endLine_mem]

theorem sendLine_mem (x : Session) (c : MonCmd) (s : State) : (sendLine x c s).mem = s.mem := by
  unfold sendLine
  simp only [↓startCommand_mem, ↓onMon_mem, ↓sendOrWait_mem]

theorem readOne_mem (m : Master) (a : Nat) (n : Nat) (s : State) : (readOne m a n s).1.mem = s.mem := by
  unfold readOne
  grind [busRead_mem, stateOr, Clock.state, fresh, foldl_mem]

theorem andThen_mem (p : Ran) (f : State → Ran) (h : ∀ x, (f x).1.mem = x.mem) : (p.andThen f).1.mem = p.1.mem := by
  unfold Ran.andThen; grind
theorem readAll_mem (m : Master) (x0 : List (Nat × Nat)) (s : State) : (readAll m x0 s).1.mem = s.mem := by
  induction x0 generalizing s with
  | nil => rfl
  | cons p ps ih => unfold readAll; rw [andThen_mem _ _ (fun x => ih x), readOne_mem]

theorem readRegs_mem (m : Master) (as : List Nat) (s : State) : (readRegs m as s).1.mem = s.mem := by
  unfold readRegs
  simp only [↓readAll_mem]

theorem sendMark_mem (id : Nat) (ns : Nat) (s : State) : (sendMark id ns s).1.mem = s.mem := by
  unfold sendMark
  grind [fresh_mem, sendOrWait_mem, stateOr, Clock.state, fresh, foldl_mem]

theorem withReg_mem (m : Master) (a : Nat) (f : Nat → State → Ran) (s : State) (h0 : ∀ y0 x, (f y0 x).1.mem = x.mem) : (withReg m a f s).1.mem = s.mem := by
  unfold withReg
  grind [busRead_mem, stateOr, Clock.state, fresh, foldl_mem]

theorem monitorRow_mem (typ : Nat) (e : Envelope) (act : Envelope → State → State) (s : State) (h0 : ∀ y0 x, (act y0 x).mem = x.mem) : (stateOr (monitorRow typ e act s) s).mem = s.mem := by
  unfold monitorRow
  simp only [h0, ↓takeDelivered_mem, apply_ite State.mem, ite_self, stateOr_next]

theorem dropSession_mem (n : BitVec 16) (s : State) : (dropSession n s).mem = s.mem := by
  unfold dropSession
  simp only [↓onMon_mem]

theorem execMonitorDone_mem (e : Envelope) (s : State) : (stateOr (execMonitorDone e s) s).mem = s.mem := by
  unfold execMonitorDone
  grind [monitorRow_mem, takeDelivered_mem, onMon_mem, dropSession_mem, stateOr, Clock.state, fresh, foldl_mem]

theorem execMonitorOutput_mem (e : Envelope) (s : State) : (stateOr (execMonitorOutput e s) s).mem = s.mem := by
  unfold execMonitorOutput
  grind [monitorRow_mem, takeDelivered_mem, onMon_mem, stateOr, Clock.state, fresh, foldl_mem]

theorem openTerminal_mem (node : BitVec 16) (s : State) : (openTerminal node s).mem = s.mem := by
  unfold openTerminal
  simp only [↓endLine_mem, ↓bump_mem, ↓onMon_mem, ↓sendOrWait_mem, apply_ite State.mem, ite_self]

theorem execMonitorClose_mem (e : Envelope) (s : State) : (stateOr (execMonitorClose e s) s).mem = s.mem := by
  unfold execMonitorClose
  grind [monitorRow_mem, takeDelivered_mem, onMon_mem, dropSession_mem, stateOr, Clock.state, fresh, foldl_mem]

theorem execMonLock_mem (s : State) : (stateOr (execMonLock s) s).mem = s.mem := by
  unfold execMonLock
  simp only [↓terminalLine_mem, ↓endLine_mem, ↓onMon_mem, stateOr_next, implies_true]

theorem execMonitorLineTimeout_mem (k : Fin 4) (s : State) : (stateOr (execMonitorLineTimeout k s) s).mem = s.mem := by
  unfold execMonitorLineTimeout
  split <;> simp only [↓bump_mem, ↓onMon_mem, apply_ite State.mem, ite_self, stateOr_next, stateOr_ite]

theorem execMonEnChange_mem (level : Bool) (s : State) : (stateOr (execMonEnChange level s) s).mem = s.mem := by
  unfold execMonEnChange
  simp only [↓setB_mem, stateOr_next]

theorem monNotice_mem (code : Nat) (arg : Nat) (s : State) : (monNotice code arg s).mem = s.mem := by
  unfold monNotice
  simp only [↓postOnce_mem]

theorem leaveSession_mem (s : State) : (leaveSession s).mem = s.mem := by
  unfold leaveSession
  split <;> simp only [↓endLine_mem, ↓sendOrWait_mem, ↓dropSession_mem]

theorem execMonitorSessionIdle_mem (k : Fin 4) (served : Bool) (s : State) : (stateOr (execMonitorSessionIdle k served s) s).mem = s.mem := by
  unfold execMonitorSessionIdle
  (repeat' split) <;> simp only [↓onMon_mem, ↓dropSession_mem, stateOr_next]

theorem refuseUnlock_mem (s : State) : (refuseUnlock s).mem = s.mem := by
  unfold refuseUnlock
  simp only [↓endOpen_mem]

theorem execMonUnlockNonce_mem (s : State) : (stateOr (execMonUnlockNonce s) s).mem = s.mem := by
  unfold execMonUnlockNonce
  grind [terminalLine_mem, refuseUnlock_mem, fresh_mem, endLine_mem, onMon_mem, stateOr, Clock.state, fresh, foldl_mem]

theorem execMonitorOpen_mem (e : Envelope) (s : State) : (stateOr (execMonitorOpen e s) s).mem = s.mem := by
  unfold execMonitorOpen
  simp only [↓monitorRow_mem, ↓takeDelivered_mem, ↓bump_mem, ↓sendOrWait_mem, ↓onMon_mem, apply_ite State.mem, ite_self, implies_true]

theorem execMonUnlockToken_mem (k : Fin 4) (r : BitVec 256) (sg : BitVec 256) (s : State) : (stateOr (execMonUnlockToken k r sg s) s).mem = s.mem := by
  unfold execMonUnlockToken
  simp only [↓terminalLine_mem, ↓refuseUnlock_mem, ↓onMon_mem, ↓endLine_mem, ↓monNotice_mem, ↓bump_mem, ↓endOpen_mem, apply_ite State.mem, ite_self, stateOr_next, implies_true]

theorem execMonNode_mem (node : Option (BitVec 16)) (s : State) : (stateOr (execMonNode node s) s).mem = s.mem := by
  unfold execMonNode
  split <;> simp only [↓terminalLine_mem, ↓openTerminal_mem, ↓leaveSession_mem, stateOr_next, implies_true]

theorem execUnlockLockoutEnd_mem (s : State) : (stateOr (execUnlockLockoutEnd s) s).mem = s.mem := by
  unfold execUnlockLockoutEnd
  simp only [↓onMon_mem, apply_ite State.mem, ite_self, stateOr_next]

end Sys2Proof.Machine
end

