-- ==== Sys2Proof/Laws/MemoryForm1.lean ====
section
/-! SUPPORT. Operations and meanings that write memory keep its canonical form. The operations and meanings of Ops, Access, Flash, Census, DeadLetters, Images, NetTime, TrackCore, Pins, Scribe, Buses. -/

namespace Sys2Proof.Machine

theorem setByte_wf (s : State) (a : Nat) (b : Byte) (hw : tabWf memDefault s.mem = true) : tabWf memDefault (setByte s a b).mem = true := by
  exact tabWf_tabSet _ _ hw

theorem setBytes_wf (s : State) (a : Nat) (x0 : List Byte) (hw : tabWf memDefault s.mem = true) : tabWf memDefault (setBytes s a x0).mem = true := by
  induction x0 generalizing s a with
  | nil => exact hw
  | cons b bs ih => unfold setBytes; exact ih _ _ (setByte_wf _ _ _ hw)

theorem setMem32_wf (s : State) (a : Nat) (w : Word) (hw : tabWf memDefault s.mem = true) : tabWf memDefault (setMem32 s a w).mem = true := by
  unfold setMem32
  simp only [setBytes_wf, hw]

theorem setMem64_wf (s : State) (a : Nat) (w : DWord) (hw : tabWf memDefault s.mem = true) : tabWf memDefault (setMem64 s a w).mem = true := by
  unfold setMem64
  simp only [setBytes_wf, hw]

theorem guardWriteAt_wf (m : Master) (a : Nat) (width : Nat) (eff : State → State × Option Reason) (s : State) (h0 : ∀ x, tabWf memDefault x.mem = true → tabWf memDefault (eff x).1.mem = true) (hw : tabWf memDefault s.mem = true) : tabWf memDefault (guardWriteAt m a width eff s).mem = true := by
  unfold guardWriteAt
  grind [answer_mem, refuse_mem, dropOverlap_mem, stateOr, Clock.state, fresh, foldl_mem, foldl_wf]

theorem guardReadP_wf (m : Master) (a : Nat) (eff : State → State × Word × Bool) (s : State) (h0 : ∀ x, tabWf memDefault x.mem = true → tabWf memDefault (eff x).1.mem = true) (hw : tabWf memDefault s.mem = true) : tabWf memDefault (guardReadP m a eff s).mem = true := by
  unfold guardReadP
  grind [answer_mem, refuse_mem, coreMeets_mem, stateOr, Clock.state, fresh, foldl_mem, foldl_wf]

theorem guardRead_wf (m : Master) (a : Nat) (eff : State → State × Word) (s : State) (h0 : ∀ x, tabWf memDefault x.mem = true → tabWf memDefault (eff x).1.mem = true) (hw : tabWf memDefault s.mem = true) : tabWf memDefault (guardRead m a eff s).mem = true := by
  unfold guardRead
  simp +contextual only [h0, guardReadP_wf, implies_true, hw]

theorem guardWrite_wf (m : Master) (a : Nat) (eff : State → State × Option Reason) (s : State) (h0 : ∀ x, tabWf memDefault x.mem = true → tabWf memDefault (eff x).1.mem = true) (hw : tabWf memDefault s.mem = true) : tabWf memDefault (guardWrite m a eff s).mem = true := by
  unfold guardWrite
  simp +contextual only [h0, guardWriteAt_wf, implies_true, hw]

theorem eraseFlash_wf (a : Nat) (n : Nat) (s : State) (hw : tabWf memDefault s.mem = true) : tabWf memDefault (eraseFlash a n s).mem = true := by
  exact tabWf_filter _ hw

theorem programHeader_wf (h : BootHeader) (s : State) (hw : tabWf memDefault s.mem = true) : tabWf memDefault (programHeader h s).mem = true := by
  unfold programHeader
  simp only [setBytes_wf, eraseFlash_wf, hw]

theorem writeHeader_wf (h : BootHeader) (s : State) (hw : tabWf memDefault s.mem = true) : tabWf memDefault (writeHeader h s).mem = true := by
  unfold writeHeader
  simp only [↓onUpd_mem, programHeader_wf, apply_ite State.mem, apply_ite (tabWf memDefault), ite_self, hw]

theorem closeSession_wf (s : State) (hw : tabWf memDefault s.mem = true) : tabWf memDefault (closeSession s).mem = true := by
  unfold closeSession
  simp only [writeHeader_wf, ↓onUpd_mem, ↓setF_mem, ↓setReg_mem, hw]

theorem releaseFlash_wf (s : State) (hw : tabWf memDefault s.mem = true) : tabWf memDefault (releaseFlash s).mem = true := by
  unfold releaseFlash
  split <;> simp only [programHeader_wf, ↓onUpd_mem, closeSession_wf, ↓flushRecords_mem, apply_ite State.mem, apply_ite (tabWf memDefault), ite_self, hw]

theorem censusGuard_wf (op : Nat) (e : Envelope) (f : Envelope → State → State) (s : State) (h0 : ∀ y0 x, tabWf memDefault x.mem = true → tabWf memDefault (f y0 x).mem = true) (hw : tabWf memDefault s.mem = true) : tabWf memDefault (stateOr (censusGuard op e f s) s).mem = true := by
  unfold censusGuard
  simp only [h0, ↓noteCensus_mem, apply_ite State.mem, apply_ite (tabWf memDefault), ite_self, stateOr_next, stateOr_ite, hw]

theorem storeBytes_wf (a : Nat) (bs : List Byte) (s : State) (hw : tabWf memDefault s.mem = true) : tabWf memDefault (storeBytes a bs s).mem = true := by
  unfold storeBytes
  simp only [setBytes_wf, ↓dropOverlap_mem, hw]

theorem copyMem_wf (src : Nat) (dst : Nat) (n : Nat) (s : State) (hw : tabWf memDefault s.mem = true) : tabWf memDefault (copyMem src dst n s).mem = true := by
  exact tabWf_tabCopy _ _ _ hw

theorem startSeal_wf (s : State) (hw : tabWf memDefault s.mem = true) : tabWf memDefault (startSeal s).mem = true := by
  unfold startSeal
  simp only [copyMem_wf, hw]

theorem writeAt_wf (a : Nat) (place : Nat) (bs : List Byte) (pois : Bool) (s : State) (hw : tabWf memDefault s.mem = true) : tabWf memDefault (writeAt a place bs pois s).mem = true := by
  unfold writeAt
  simp only [setBytes_wf, ↓wordPoison_mem, apply_ite State.mem, ite_self, implies_true, foldl_mem, hw]

theorem masterWrite_wf (a : Nat) (bs : List Byte) (pois : Bool) (s : State) (hw : tabWf memDefault s.mem = true) : tabWf memDefault (masterWrite a bs pois s).mem = true := by
  unfold masterWrite
  simp only [writeAt_wf, ↓dropOverlap_mem, hw]

theorem boundaryWrite_wf (off : Nat) (bs : List Byte) (s : State) (hw : tabWf memDefault s.mem = true) : tabWf memDefault (boundaryWrite off bs s).mem = true := by
  unfold boundaryWrite
  simp only [writeAt_wf, hw]

theorem setImageBit_wf (base : Nat) (bit : Nat) (b : Bool) (s : State) (hw : tabWf memDefault s.mem = true) : tabWf memDefault (setImageBit base bit b s).mem = true := by
  unfold setImageBit
  simp only [setByte_wf, hw]

theorem endSeal_wf (s : State) (hw : tabWf memDefault s.mem = true) : tabWf memDefault (endSeal s).mem = true := by
  unfold endSeal
  simp only [copyMem_wf, apply_ite State.mem, apply_ite (tabWf memDefault), ite_self, hw]

theorem swapOutput_wf (s : State) (hw : tabWf memDefault s.mem = true) : tabWf memDefault (swapOutput s).mem = true := by
  unfold swapOutput
  simp only [copyMem_wf, hw]

theorem timeGuard_wf (kind : BitVec 5) (words : Nat) (age : Nat) (ph : Nat) (e : Envelope) (f : RingMark → Envelope → State → State) (s : State) (h0 : ∀ y0 y1 x, tabWf memDefault x.mem = true → tabWf memDefault (f y0 y1 x).mem = true) (hw : tabWf memDefault s.mem = true) : tabWf memDefault (stateOr (timeGuard kind words age ph e f s) s).mem = true := by
  unfold timeGuard
  simp only [h0, ↓takeDelivered_mem, apply_ite State.mem, apply_ite (tabWf memDefault), ite_self, stateOr_next, hw]

theorem wmPut_wf (i : Nat) (w : Nat) (v : Nat) (s : State) (hw : tabWf memDefault s.mem = true) : tabWf memDefault (wmPut i w v s).mem = true := by
  unfold wmPut
  simp only [↓wordPoison_mem, setMem32_wf, apply_ite State.mem, apply_ite (tabWf memDefault), ite_self, hw]

theorem wmPutPos_wf (i : Nat) (pos : Nat) (s : State) (hw : tabWf memDefault s.mem = true) : tabWf memDefault (wmPutPos i pos s).mem = true := by
  unfold wmPutPos
  simp only [wmPut_wf, ↓setPoison_mem, setMem64_wf, apply_ite State.mem, apply_ite (tabWf memDefault), ite_self, hw]

theorem captureArm_wf (n : Nat) (pos : Nat) (live : Bool) (s : State) (hw : tabWf memDefault s.mem = true) : tabWf memDefault (captureArm n pos live s).mem = true := by
  unfold captureArm
  simp only [↓tkNotice_mem, ↓bump_mem, ↓setB_mem, wmPut_wf, wmPutPos_wf, ↓setF_mem, apply_ite State.mem, apply_ite (tabWf memDefault), ite_self, hw]

theorem commitCapture_wf (l : CapLatch) (pm : DWord) (s : State) (hw : tabWf memDefault s.mem = true) : tabWf memDefault (commitCapture l pm s).mem = true := by
  unfold commitCapture
  simp only [↓setReg_mem, ↓tkNotice_mem, ↓bump_mem, captureArm_wf, hw]

theorem wmOutcome_wf (i : Nat) (bit : Nat) (ns : Nat) (s : State) (hw : tabWf memDefault s.mem = true) : tabWf memDefault (wmOutcome i bit ns s).mem = true := by
  unfold wmOutcome
  simp only [wmPut_wf, hw]

theorem wmDisarm_wf (i : Nat) (s : State) (hw : tabWf memDefault s.mem = true) : tabWf memDefault (wmDisarm i s).mem = true := by
  unfold wmDisarm
  simp only [↓setEntry_mem, wmPut_wf, hw]

theorem wmBad_wf (i : Nat) (track : Nat) (ns : Nat) (s : State) (hw : tabWf memDefault s.mem = true) : tabWf memDefault (wmBad i track ns s).mem = true := by
  unfold wmBad
  simp only [wmOutcome_wf, ↓bump_mem, ↓setB_mem, wmDisarm_wf, ↓wmNotice_mem, hw]

theorem wmMove_wf (i : Nat) (forward : Bool) (s : State) (hw : tabWf memDefault s.mem = true) : tabWf memDefault (wmMove i forward s).mem = true := by
  unfold wmMove
  split <;> simp only [↓bumpN_mem, wmPutPos_wf, ↓setEntry_mem, hw]

theorem wmMiss_wf (i : Nat) (forward : Bool) (e : WmEntry) (s : State) (hw : tabWf memDefault s.mem = true) : tabWf memDefault (wmMiss i forward e s).mem = true := by
  unfold wmMiss
  simp only [wmOutcome_wf, ↓bump_mem, ↓setB_mem, ↓wmNotice_mem, wmDisarm_wf, wmBad_wf, wmMove_wf, apply_ite State.mem, apply_ite (tabWf memDefault), ite_self, hw]

theorem wmEnqueue_wf (i : Nat) (late : Bool) (forward : Bool) (e : WmEntry) (s : State) (hw : tabWf memDefault s.mem = true) : tabWf memDefault (wmEnqueue i late forward e s).mem = true := by
  unfold wmEnqueue
  simp only [↓bump_mem, wmMiss_wf, ↓setEntry_mem, ↓onTracks_mem, apply_ite State.mem, apply_ite (tabWf memDefault), ite_self, hw]

theorem wmJudge_wf (fromStale : Bool) (i : Nat) (forward : Bool) (d : Int) (e : WmEntry) (s : State) (hw : tabWf memDefault s.mem = true) : tabWf memDefault (wmJudge fromStale i forward d e s).mem = true := by
  unfold wmJudge
  simp only [wmEnqueue_wf, wmMiss_wf, apply_ite State.mem, apply_ite (tabWf memDefault), ite_self, hw]

theorem evalEntry_wf (mode : EvalMode) (x : Nat × WmEntry) (s : State) (hw : tabWf memDefault s.mem = true) : tabWf memDefault (evalEntry mode x s).mem = true := by
  unfold evalEntry
  (repeat' split) <;> simp only [↓setEntry_mem, wmJudge_wf, wmEnqueue_wf, apply_ite State.mem, apply_ite (tabWf memDefault), ite_self, hw]

theorem evalTrack_wf (mode : EvalMode) (n : Nat) (s : State) (hw : tabWf memDefault s.mem = true) : tabWf memDefault (evalTrack mode n s).mem = true := by
  unfold evalTrack
  simp +contextual only [↓setEntry_mem, evalEntry_wf, apply_ite State.mem, apply_ite (tabWf memDefault), ite_self, implies_true, foldl_mem, foldl_wf, hw]

theorem reviewFiring_wf (s : State) (hw : tabWf memDefault s.mem = true) : tabWf memDefault (reviewFiring s).mem = true := by
  unfold reviewFiring
  simp +contextual only [↓onTracks_mem, evalTrack_wf, ↓dropFiring_mem, apply_ite State.mem, apply_ite (tabWf memDefault), ite_self, implies_true, foldl_mem, foldl_wf, hw]

theorem wmDiscard_wf (i : Nat) (track : Nat) (s : State) (hw : tabWf memDefault s.mem = true) : tabWf memDefault (wmDiscard i track s).mem = true := by
  unfold wmDiscard
  simp only [wmOutcome_wf, ↓bump_mem, ↓setB_mem, wmDisarm_wf, ↓wmNotice_mem, hw]

theorem stalePolicy_wf (n : Nat) (s : State) (hw : tabWf memDefault s.mem = true) : tabWf memDefault (stalePolicy n s).mem = true := by
  unfold stalePolicy
  simp +contextual only [wmDiscard_wf, apply_ite State.mem, apply_ite (tabWf memDefault), ite_self, implies_true, foldl_wf, hw]

theorem judgedJump_wf (fromStale : Bool) (n : Nat) (s : State) (hw : tabWf memDefault s.mem = true) : tabWf memDefault (judgedJump fromStale n s).mem = true := by
  unfold judgedJump
  simp only [↓bump_mem, ↓setB_mem, evalTrack_wf, ↓onTrack_mem, hw]

theorem reviewTrack_wf (n : Nat) (s : State) (hw : tabWf memDefault s.mem = true) : tabWf memDefault (reviewTrack n s).mem = true := by
  unfold reviewTrack
  simp only [↓onTrack_mem, ↓tkNotice_mem, ↓setF_mem, stalePolicy_wf, evalTrack_wf, judgedJump_wf, apply_ite State.mem, apply_ite (tabWf memDefault), ite_self, hw]

theorem reviewTracks_wf (s : State) (hw : tabWf memDefault s.mem = true) : tabWf memDefault (reviewTracks s).mem = true := by
  unfold reviewTracks
  simp +contextual only [reviewTrack_wf, implies_true, foldl_wf, hw]

theorem reviewSource_wf (src : Nat) (sel : Nat) (s : State) (hw : tabWf memDefault s.mem = true) : tabWf memDefault (reviewSource src sel s).mem = true := by
  unfold reviewSource
  simp +contextual only [reviewTrack_wf, apply_ite State.mem, apply_ite (tabWf memDefault), ite_self, implies_true, foldl_wf, hw]

theorem setSupplyFault_wf (b : Nat) (on : Bool) (s : State) (hw : tabWf memDefault s.mem = true) : tabWf memDefault (setSupplyFault b on s).mem = true := by
  unfold setSupplyFault
  simp only [↓setB_mem, reviewTracks_wf, ↓refreshBank_mem, implies_true, foldl_mem, hw]

theorem startSupplyFault_wf (b : Nat) (s : State) (hw : tabWf memDefault s.mem = true) : tabWf memDefault (startSupplyFault b s).mem = true := by
  unfold startSupplyFault
  simp only [↓bankNotice_mem, setSupplyFault_wf, apply_ite State.mem, apply_ite (tabWf memDefault), ite_self, hw]

theorem execSupplyFaultStart_wf (b : Fin 16) (s : State) (hw : tabWf memDefault s.mem = true) : tabWf memDefault (stateOr (execSupplyFaultStart b s) s).mem = true := by
  unfold execSupplyFaultStart
  simp only [startSupplyFault_wf, stateOr_next, hw]

theorem endSupplyFault_wf (b : Nat) (s : State) (hw : tabWf memDefault s.mem = true) : tabWf memDefault (endSupplyFault b s).mem = true := by
  unfold endSupplyFault
  simp only [↓bankNotice_mem, setSupplyFault_wf, apply_ite State.mem, apply_ite (tabWf memDefault), ite_self, hw]

theorem execSupplyFaultEnd_wf (b : Fin 16) (s : State) (hw : tabWf memDefault s.mem = true) : tabWf memDefault (stateOr (execSupplyFaultEnd b s) s).mem = true := by
  unfold execSupplyFaultEnd
  simp only [endSupplyFault_wf, apply_ite State.mem, apply_ite (tabWf memDefault), ite_self, stateOr_next, hw]

theorem commitEdge_wf (p : Nat) (rising : Bool) (ep : Episode) (s : State) (hw : tabWf memDefault s.mem = true) : tabWf memDefault (commitEdge p rising ep s).mem = true := by
  unfold commitEdge
  (repeat' split) <;> simp only [↓captureRecord_mem, commitCapture_wf, hw]

theorem acceptEdge_wf (p : Nat) (ep : Episode) (s : State) (hw : tabWf memDefault s.mem = true) : tabWf memDefault (acceptEdge p ep s).mem = true := by
  unfold acceptEdge
  simp only [↓onPin_mem, commitEdge_wf, ↓setB_mem, apply_ite State.mem, apply_ite (tabWf memDefault), ite_self, hw]

theorem execEdgeAccepted_wf (p : Fin 256) (s : State) (hw : tabWf memDefault s.mem = true) : tabWf memDefault (stateOr (execEdgeAccepted p s) s).mem = true := by
  unfold execEdgeAccepted
  split <;> simp only [acceptEdge_wf, apply_ite State.mem, apply_ite (tabWf memDefault), ite_self, stateOr_next, hw]

theorem execPinTransition_wf (p : Fin 256) (level : Bool) (age : Nat) (s : State) (hw : tabWf memDefault s.mem = true) : tabWf memDefault (stateOr (execPinTransition p level age s) s).mem = true := by
  unfold execPinTransition
  grind [lineRose_mem, showRaw_mem, onPin_mem, encoderGlitch_mem, acceptEdge_wf, stateOr, Clock.state, fresh, foldl_mem, foldl_wf]

theorem pinsToImage_wf (base : Nat) (s : State) (hw : tabWf memDefault s.mem = true) : tabWf memDefault (pinsToImage base s).mem = true := by
  unfold pinsToImage
  simp +contextual only [setImageBit_wf, apply_ite State.mem, apply_ite (tabWf memDefault), ite_self, implies_true, foldl_wf, hw]

theorem writeBankCfg_wf (b : Nat) (v : Word) (s : State) (hw : tabWf memDefault s.mem = true) : tabWf memDefault (writeBankCfg b v s).mem = true := by
  unfold writeBankCfg
  simp only [↓plainWrite_mem, endSupplyFault_wf, startSupplyFault_wf, apply_ite State.mem, apply_ite (tabWf memDefault), ite_self, hw]

theorem execBankCfgWrite_wf (m : Master) (b : Fin 16) (v : Word) (s : State) (hw : tabWf memDefault s.mem = true) : tabWf memDefault (stateOr (execBankCfgWrite m b v s) s).mem = true := by
  unfold execBankCfgWrite
  simp +contextual only [guardWrite_wf, writeBankCfg_wf, stateOr_next, implies_true, hw]

theorem reviewEngineTracks_wf (n : Nat) (s : State) (hw : tabWf memDefault s.mem = true) : tabWf memDefault (reviewEngineTracks n s).mem = true := by
  unfold reviewEngineTracks
  simp only [reviewSource_wf, hw]

theorem clearFault_wf (n : Nat) (s : State) (hw : tabWf memDefault s.mem = true) : tabWf memDefault (clearFault n s).mem = true := by
  unfold clearFault
  simp only [↓setB_mem, ↓setF_mem, ↓emptyLatch_mem, reviewEngineTracks_wf, ↓setEngState_mem, apply_ite State.mem, apply_ite (tabWf memDefault), ite_self, hw]

theorem enableEngine_wf (n : Nat) (s : State) (hw : tabWf memDefault s.mem = true) : tabWf memDefault (enableEngine n s).mem = true := by
  unfold enableEngine
  simp only [↓resumeDelay_mem, ↓onEng_mem, ↓setB_mem, reviewEngineTracks_wf, ↓setEngState_mem, apply_ite State.mem, apply_ite (tabWf memDefault), ite_self, hw]

theorem disableEngine_wf (n : Nat) (s : State) (hw : tabWf memDefault s.mem = true) : tabWf memDefault (disableEngine n s).mem = true := by
  unfold disableEngine
  simp only [↓setB_mem, reviewEngineTracks_wf, ↓setEngState_mem, ↓holdDelay_mem, apply_ite State.mem, apply_ite (tabWf memDefault), ite_self, hw]

theorem writeScrCtl_wf (n : Nat) (v : Word) (s : State) (hw : tabWf memDefault s.mem = true) : tabWf memDefault (writeScrCtl n v s).mem = true := by
  unfold writeScrCtl
  simp only [↓countPart_mem, clearFault_wf, ↓setB_mem, ↓restartEngine_mem, enableEngine_wf, disableEngine_wf, reviewEngineTracks_wf, ↓setEngState_mem, ↓resumeDelay_mem, ↓onEng_mem, apply_ite State.mem, apply_ite (tabWf memDefault), ite_self, hw]

theorem execEngineDisable_wf (m : Master) (e : Fin 64) (v : Word) (s : State) (hw : tabWf memDefault s.mem = true) : tabWf memDefault (stateOr (execEngineDisable m e v s) s).mem = true := by
  unfold execEngineDisable
  simp +contextual only [guardWrite_wf, writeScrCtl_wf, stateOr_next, implies_true, hw]

theorem enterFault_wf (n : Nat) (cause : Nat) (s : State) (hw : tabWf memDefault s.mem = true) : tabWf memDefault (enterFault n cause s).mem = true := by
  unfold enterFault
  simp only [↓setEngState_mem, ↓setF_mem, ↓setB_mem, ↓onEng_mem, ↓settleDma_mem, reviewEngineTracks_wf, ↓scrNotice_mem, ↓releaseOwned_mem, hw]

theorem regParity_wf (n : Nat) (a : Nat) (s : State) (hw : tabWf memDefault s.mem = true) : tabWf memDefault (regParity n a s).mem = true := by
  unfold regParity
  simp only [↓parityRecord_mem, enterFault_wf, hw]

theorem atBoundary_wf (n : Nat) (s : State) (hw : tabWf memDefault s.mem = true) : tabWf memDefault (atBoundary n s).mem = true := by
  unfold atBoundary
  simp only [reviewEngineTracks_wf, ↓setEngState_mem, ↓onEng_mem, apply_ite State.mem, apply_ite (tabWf memDefault), ite_self, hw]

theorem nextInstr_mem {n : Nat} {s t : State} {l : Latched} (h : nextInstr s n = some (l, t)) : t.mem = s.mem := by
  unfold nextInstr at h
  extract_lets e stalled delayed at h
  split at h
  · cases h
  · rename_i x _
    have hx : x.mem = s.mem := by
      show (match e.inj with | some w => fetchInto n w true s | none => if stalled = true then s else fetchInto n (storeWord s (n / 4) (getF s (rPc n) F.SCR_PC_VAL)) false s : State).mem = _
      split
      · exact fetchInto_mem _ _ _ _
      · split
        · rfl
        · exact fetchInto_mem _ _ _ _
    rcases e2 : (getEng x n).latched with _ | l2
    · rw [e2] at h; cases h
    · rw [e2] at h; have q := congrArg Prod.snd (Option.some.inj h); exact (congrArg State.mem q).symm.trans hx
theorem finishClock_wf (n : Nat) (l : Latched) (c : Clock) (hw : tabWf memDefault c.state.mem = true) :
    tabWf memDefault (finishClock n l c).mem = true := by
  unfold finishClock
  cases c with
  | stall on s => exact reviewEngineTracks_wf _ _ ((setEngState_mem _ _ _ _).symm ▸ hw)
  | fault cause s => exact enterFault_wf _ _ _ hw
  | done pc s =>
    have h0 : tabWf memDefault (onEng n (fun e => { e with latched := e.latched.map (fun x => { x with delay := some (opBits l.word 9 3) }) }) (setReg s (rPc n) (BitVec.ofNat 32 (nextPc l pc)))).mem = true := by
      rw [onEng_mem, setReg_mem]; exact hw
    have h3 := reviewEngineTracks_wf n _ ((setEngState_mem n 1 0 _).symm ▸ h0)
    show tabWf memDefault (if opBits l.word 9 3 = 0 then _ else _ : State).mem = true
    split
    · exact atBoundary_wf _ _ h3
    · exact h3
theorem nextInstr_wf {n : Nat} {s t : State} {l : Latched} (h : nextInstr s n = some (l, t)) (hw : tabWf memDefault s.mem = true) :
    tabWf memDefault t.mem = true := by
  rw [nextInstr_mem h]; exact hw
theorem runClock_wf (n : Nat) (is : BitVec 16 → Bool) (f : Nat → Latched → State → Clock) (s : State) (h0 : ∀ y0 y1 x, tabWf memDefault x.mem = true → tabWf memDefault (Clock.state (f y0 y1 x)).mem = true) (hw : tabWf memDefault s.mem = true) : tabWf memDefault (runClock n is f s).mem = true := by
  unfold runClock
  split
  · exact hw
  · split
    · rename_i l t e
      have hu : tabWf memDefault (useClock n t).mem = true := (useClock_mem n t).symm ▸ nextInstr_wf e hw
      split
      · exact hw
      · split
        · exact regParity_wf _ _ _ hu
        · exact finishClock_wf _ _ _ (h0 _ _ _ hu)
    · exact hw

theorem execFlagToggle_wf (e : Fin 64) (s : State) (hw : tabWf memDefault s.mem = true) : tabWf memDefault (stateOr (execFlagToggle e s) s).mem = true := by
  unfold execFlagToggle
  simp +contextual only [runClock_wf, ↓clockFlagToggle_mem, stateOr_next, implies_true, hw]

theorem execScribeMove_wf (e : Fin 64) (s : State) (hw : tabWf memDefault s.mem = true) : tabWf memDefault (stateOr (execScribeMove e s) s).mem = true := by
  unfold execScribeMove
  simp +contextual only [runClock_wf, ↓clockMove_mem, stateOr_next, implies_true, hw]

theorem execFlagRaise_wf (e : Fin 64) (s : State) (hw : tabWf memDefault s.mem = true) : tabWf memDefault (stateOr (execFlagRaise e s) s).mem = true := by
  unfold execFlagRaise
  simp +contextual only [runClock_wf, ↓clockFlagRaise_mem, stateOr_next, implies_true, hw]

theorem execPull_wf (e : Fin 64) (s : State) (hw : tabWf memDefault s.mem = true) : tabWf memDefault (stateOr (execPull e s) s).mem = true := by
  unfold execPull
  simp +contextual only [runClock_wf, ↓clockPull_mem, stateOr_next, implies_true, hw]

theorem execFlagLower_wf (e : Fin 64) (s : State) (hw : tabWf memDefault s.mem = true) : tabWf memDefault (stateOr (execFlagLower e s) s).mem = true := by
  unfold execFlagLower
  simp +contextual only [runClock_wf, ↓clockFlagLower_mem, stateOr_next, implies_true, hw]

theorem execDelayExpiry_wf (e : Fin 64) (s : State) (hw : tabWf memDefault s.mem = true) : tabWf memDefault (stateOr (execDelayExpiry e s) s).mem = true := by
  unfold execDelayExpiry
  (repeat' split) <;> simp only [atBoundary_wf, ↓onEng_mem, stateOr_next, hw]

theorem storeParity_wf (n : Nat) (s : State) (hw : tabWf memDefault s.mem = true) : tabWf memDefault (storeParity n s).mem = true := by
  unfold storeParity
  simp +contextual only [↓setF_mem, ↓setB_mem, ↓fetchInto_mem, enterFault_wf, apply_ite State.mem, apply_ite (tabWf memDefault), ite_self, implies_true, foldl_wf, hw]

theorem execWaitLevel_wf (e : Fin 64) (s : State) (hw : tabWf memDefault s.mem = true) : tabWf memDefault (stateOr (execWaitLevel e s) s).mem = true := by
  unfold execWaitLevel
  simp +contextual only [runClock_wf, ↓clockWaitLevel_mem, stateOr_next, implies_true, hw]

theorem execRestart_wf (m : Master) (e : Fin 64) (v : Word) (s : State) (hw : tabWf memDefault s.mem = true) : tabWf memDefault (stateOr (execRestart m e v s) s).mem = true := by
  unfold execRestart
  simp +contextual only [guardWrite_wf, writeScrCtl_wf, stateOr_next, implies_true, hw]

theorem execStallComplete_wf (e : Fin 64) (s : State) (hw : tabWf memDefault s.mem = true) : tabWf memDefault (stateOr (execStallComplete e s) s).mem = true := by
  unfold execStallComplete
  (repeat' split) <;> simp_all only [runClock_wf, ↓clockAny_mem, stateOr_next, implies_true]

theorem execIllegal_wf (e : Fin 64) (s : State) (hw : tabWf memDefault s.mem = true) : tabWf memDefault (stateOr (execIllegal e s) s).mem = true := by
  unfold execIllegal
  simp +contextual only [runClock_wf, ↓clockIllegal_mem, stateOr_next, implies_true, hw]

theorem execWaitFlag_wf (e : Fin 64) (s : State) (hw : tabWf memDefault s.mem = true) : tabWf memDefault (stateOr (execWaitFlag e s) s).mem = true := by
  unfold execWaitFlag
  simp +contextual only [runClock_wf, ↓clockWaitFlag_mem, stateOr_next, implies_true, hw]

theorem execClrf_wf (m : Master) (e : Fin 64) (v : Word) (s : State) (hw : tabWf memDefault s.mem = true) : tabWf memDefault (stateOr (execClrf m e v s) s).mem = true := by
  unfold execClrf
  simp +contextual only [guardWrite_wf, writeScrCtl_wf, stateOr_next, implies_true, hw]

theorem writeCsync_wf (k : Nat) (v : Word) (s : State) (hw : tabWf memDefault s.mem = true) : tabWf memDefault (writeCsync k v s).mem = true := by
  unfold writeCsync
  simp +contextual only [↓countPart_mem, disableEngine_wf, ↓newOrigin_mem, enableEngine_wf, apply_ite State.mem, apply_ite (tabWf memDefault), ite_self, implies_true, foldl_wf, hw]

theorem execCsyncStart_wf (m : Master) (k : Fin 16) (v : Word) (s : State) (hw : tabWf memDefault s.mem = true) : tabWf memDefault (stateOr (execCsyncStart m k v s) s).mem = true := by
  unfold execCsyncStart
  simp +contextual only [guardWrite_wf, writeCsync_wf, stateOr_next, implies_true, hw]

theorem execWaitCount_wf (e : Fin 64) (s : State) (hw : tabWf memDefault s.mem = true) : tabWf memDefault (stateOr (execWaitCount e s) s).mem = true := by
  unfold execWaitCount
  simp +contextual only [runClock_wf, ↓clockWaitCount_mem, stateOr_next, implies_true, hw]

theorem execShin_wf (e : Fin 64) (s : State) (hw : tabWf memDefault s.mem = true) : tabWf memDefault (stateOr (execShin e s) s).mem = true := by
  unfold execShin
  simp +contextual only [runClock_wf, ↓clockShin_mem, stateOr_next, implies_true, hw]

theorem execWaitEdge_wf (e : Fin 64) (s : State) (hw : tabWf memDefault s.mem = true) : tabWf memDefault (stateOr (execWaitEdge e s) s).mem = true := by
  unfold execWaitEdge
  simp +contextual only [runClock_wf, ↓clockWaitEdge_mem, stateOr_next, implies_true, hw]

theorem commitRecord_wf (woff : Nat) (words : List (Word × Bool)) (s : State) (hw : tabWf memDefault s.mem = true) : tabWf memDefault (commitRecord woff words s).mem = true := by
  unfold commitRecord
  simp +contextual only [masterWrite_wf, implies_true, foldl_wf, hw]

theorem execDmaRecordCommit_wf (e : Fin 64) (s : State) (hw : tabWf memDefault s.mem = true) : tabWf memDefault (stateOr (execDmaRecordCommit e s) s).mem = true := by
  unfold execDmaRecordCommit
  dsimp only
  split
  · exact hw
  · split
    · exact hw
    · have h1 := (acquire_mem (4 + e.val / 4) s).symm ▸ hw
      generalize acquire (4 + e.val / 4) s = t at h1
      split
      · exact h1
      · have h2 : ∀ f, tabWf memDefault (settleDma (e.val / 4) (endRequest (4 + e.val / 4) (onEng e.val f t))).mem = true := by
          intro f; rw [settleDma_mem, endRequest_mem, onEng_mem]; exact h1
        split
        · rw [stateOr_next, recordDenial_mem]; exact h2 _
        · rw [stateOr_next, bump_mem]; exact commitRecord_wf _ _ _ (h2 _)

theorem execJump_wf (e : Fin 64) (s : State) (hw : tabWf memDefault s.mem = true) : tabWf memDefault (stateOr (execJump e s) s).mem = true := by
  unfold execJump
  simp +contextual only [runClock_wf, ↓clockJump_mem, stateOr_next, implies_true, hw]

theorem execCsyncStop_wf (m : Master) (k : Fin 16) (v : Word) (s : State) (hw : tabWf memDefault s.mem = true) : tabWf memDefault (stateOr (execCsyncStop m k v s) s).mem = true := by
  unfold execCsyncStop
  simp +contextual only [guardWrite_wf, writeCsync_wf, stateOr_next, implies_true, hw]

theorem execPush_wf (e : Fin 64) (s : State) (hw : tabWf memDefault s.mem = true) : tabWf memDefault (stateOr (execPush e s) s).mem = true := by
  unfold execPush
  simp +contextual only [runClock_wf, ↓clockPush_mem, stateOr_next, implies_true, hw]

theorem execFlagNotice_wf (e : Fin 64) (s : State) (hw : tabWf memDefault s.mem = true) : tabWf memDefault (stateOr (execFlagNotice e s) s).mem = true := by
  unfold execFlagNotice
  simp +contextual only [runClock_wf, ↓clockFlagNotice_mem, stateOr_next, implies_true, hw]

theorem execEngineEnable_wf (m : Master) (e : Fin 64) (v : Word) (s : State) (hw : tabWf memDefault s.mem = true) : tabWf memDefault (stateOr (execEngineEnable m e v s) s).mem = true := by
  unfold execEngineEnable
  simp +contextual only [guardWrite_wf, writeScrCtl_wf, stateOr_next, implies_true, hw]

theorem execMark_wf (e : Fin 64) (s : State) (hw : tabWf memDefault s.mem = true) : tabWf memDefault (stateOr (execMark e s) s).mem = true := by
  unfold execMark
  simp +contextual only [runClock_wf, ↓clockMark_mem, stateOr_next, implies_true, hw]

theorem execScribeSet_wf (e : Fin 64) (s : State) (hw : tabWf memDefault s.mem = true) : tabWf memDefault (stateOr (execScribeSet e s) s).mem = true := by
  unfold execScribeSet
  simp +contextual only [runClock_wf, ↓clockSet_mem, stateOr_next, implies_true, hw]

theorem execEngineStep_wf (m : Master) (e : Fin 64) (v : Word) (s : State) (hw : tabWf memDefault s.mem = true) : tabWf memDefault (stateOr (execEngineStep m e v s) s).mem = true := by
  unfold execEngineStep
  simp +contextual only [guardWrite_wf, writeScrCtl_wf, stateOr_next, implies_true, hw]

theorem execShout_wf (e : Fin 64) (s : State) (hw : tabWf memDefault s.mem = true) : tabWf memDefault (stateOr (execShout e s) s).mem = true := by
  unfold execShout
  simp +contextual only [runClock_wf, ↓clockShout_mem, stateOr_next, implies_true, hw]

theorem writeMap_wf (n : Nat) (isB : Bool) (v : Word) (s : State) (hw : tabWf memDefault s.mem = true) : tabWf memDefault (writeMap n isB v s).mem = true := by
  unfold writeMap
  simp only [↓setB_mem, ↓declineWrite_mem, ↓plainWrite_mem, reviewSource_wf, apply_ite State.mem, apply_ite (tabWf memDefault), ite_self, hw]

theorem execGwMapWrite_wf (m : Master) (n : Fin 512) (b : Bool) (v : Word) (s : State) (hw : tabWf memDefault s.mem = true) : tabWf memDefault (stateOr (execGwMapWrite m n b v s) s).mem = true := by
  unfold execGwMapWrite
  simp +contextual only [guardWrite_wf, writeMap_wf, stateOr_next, implies_true, hw]

theorem putObjWord_wf (m : Nat) (n : Nat) (off : Nat) (v : Nat) (s : State) (hw : tabWf memDefault s.mem = true) : tabWf memDefault (putObjWord m n off v s).mem = true := by
  unfold putObjWord
  simp only [masterWrite_wf, hw]

theorem markObj_wf (m : Nat) (n : Nat) (bit : Nat) (s : State) (hw : tabWf memDefault s.mem = true) : tabWf memDefault (markObj m n bit s).mem = true := by
  unfold markObj
  simp only [putObjWord_wf, hw]

theorem copyObj_wf (m : Nat) (n : Nat) (single : Bool) (loop : Option Nat) (s : State) (hw : tabWf memDefault s.mem = true) : tabWf memDefault (copyObj m n single loop s).mem = true := by
  unfold copyObj
  simp only [markObj_wf, ↓mbFlag_mem, ↓setPending_mem, ↓mbNotice_mem, ↓consumePoison_mem, ↓onMb_mem, ↓measureDelay_mem, apply_ite State.mem, apply_ite (tabWf memDefault), ite_self, hw]

theorem storeFrame_wf (m : Nat) (n : Nat) (f : BusFrame) (pm : DWord) (instant : Nat) (s : State) (hw : tabWf memDefault s.mem = true) : tabWf memDefault (storeFrame m n f pm instant s).mem = true := by
  unfold storeFrame
  grind [masterWrite_wf, putObjWord_wf, onMb_mem, setReg_mem, mbNotice_mem, request_mem, onBuses_mem, forwardFrame_mem, stateOr, Clock.state, fresh, foldl_mem, foldl_wf]

theorem acceptFrame_wf (m : Nat) (f : BusFrame) (age : Nat) (reference : Bool) (s : State) (hw : tabWf memDefault s.mem = true) : tabWf memDefault (acceptFrame m f age reference s).mem = true := by
  unfold acceptFrame
  grind [hearReference_mem, bump_mem, partnerFrame_mem, storeFrame_wf, stateOr, Clock.state, fresh, foldl_mem, foldl_wf]

theorem reviewBus_wf (m : Nat) (s : State) (hw : tabWf memDefault s.mem = true) : tabWf memDefault (reviewBus m s).mem = true := by
  unfold reviewBus
  simp +contextual only [reviewTrack_wf, apply_ite State.mem, apply_ite (tabWf memDefault), ite_self, implies_true, foldl_wf, hw]

theorem setMbState_wf (m : Nat) (st : Nat) (s : State) (hw : tabWf memDefault s.mem = true) : tabWf memDefault (setMbState m st s).mem = true := by
  unfold setMbState
  simp only [reviewBus_wf, ↓mbNotice_mem, ↓setF_mem, apply_ite State.mem, apply_ite (tabWf memDefault), ite_self, hw]

theorem takeInit_wf (m : Nat) (s : State) (hw : tabWf memDefault s.mem = true) : tabWf memDefault (takeInit m s).mem = true := by
  unfold takeInit
  simp only [↓onMb_mem, ↓setB_mem, setMbState_wf, hw]

theorem writeMbCtl_wf (m : Nat) (receiving : Bool) (v : Word) (s : State) (hw : tabWf memDefault s.mem = true) : tabWf memDefault (writeMbCtl m receiving v s).mem = true := by
  unfold writeMbCtl
  split <;> simp only [↓mbFlag_mem, ↓declineWrite_mem, ↓plainWrite_mem, ↓clearInit_mem, ↓onMb_mem, takeInit_wf, apply_ite State.mem, apply_ite (tabWf memDefault), ite_self, hw]

theorem enterBusOff_wf (m : Nat) (s : State) (hw : tabWf memDefault s.mem = true) : tabWf memDefault (enterBusOff m s).mem = true := by
  unfold enterBusOff
  simp only [↓bump_mem, ↓mbFlag_mem, ↓setReg_mem, ↓onMb_mem, setMbState_wf, ↓setB_mem, apply_ite State.mem, ite_self, implies_true, foldl_mem, hw]

theorem reviewMb_wf (m : Nat) (s : State) (hw : tabWf memDefault s.mem = true) : tabWf memDefault (reviewMb m s).mem = true := by
  unfold reviewMb
  simp only [↓showCounts_mem, enterBusOff_wf, setMbState_wf, ↓mbFlag_mem, apply_ite State.mem, apply_ite (tabWf memDefault), ite_self, hw]

theorem lowerRec_wf (m : Nat) (s : State) (hw : tabWf memDefault s.mem = true) : tabWf memDefault (lowerRec m s).mem = true := by
  unfold lowerRec
  grind [reviewMb_wf, onMb_mem, fresh_mem, stateOr, Clock.state, fresh, foldl_mem, foldl_wf]

theorem frameEnd_wf (m : Nat) (s : State) (hw : tabWf memDefault s.mem = true) : tabWf memDefault (frameEnd m s).mem = true := by
  unfold frameEnd
  simp only [takeInit_wf, apply_ite State.mem, apply_ite (tabWf memDefault), ite_self, hw]

theorem endAttempt_wf (m : Nat) (counts : Bool) (s : State) (hw : tabWf memDefault s.mem = true) : tabWf memDefault (endAttempt m counts s).mem = true := by
  unfold endAttempt
  split <;> simp only [↓onMb_mem, ↓noRetries_mem, ↓setPending_mem, ↓mbNotice_mem, markObj_wf, ↓mbFlag_mem, apply_ite State.mem, apply_ite (tabWf memDefault), ite_self, hw]

theorem busFault_wf (m : Nat) (kind : BusFault) (tecUp : Nat) (recUp : Nat) (s : State) (hw : tabWf memDefault s.mem = true) : tabWf memDefault (busFault m kind tecUp recUp s).mem = true := by
  unfold busFault
  grind [bump_mem, setF_mem, onMb_mem, frameEnd_wf, reviewMb_wf, endAttempt_wf, stateOr, Clock.state, fresh, foldl_mem, foldl_wf]

theorem execProtocolException_wf (c : Fin 8) (recUp : Nat) (s : State) (hw : tabWf memDefault s.mem = true) : tabWf memDefault (stateOr (execProtocolException c recUp s) s).mem = true := by
  unfold execProtocolException
  simp only [↓bump_mem, ↓mbFlag_mem, busFault_wf, ↓onMb_mem, apply_ite State.mem, apply_ite (tabWf memDefault), ite_self, stateOr_next, stateOr_ite, hw]

theorem execMbInitSet_wf (m : Master) (c : Fin 8) (v : Word) (inFrame : Bool) (s : State) (hw : tabWf memDefault s.mem = true) : tabWf memDefault (stateOr (execMbInitSet m c v inFrame s) s).mem = true := by
  unfold execMbInitSet
  simp +contextual only [guardWrite_wf, writeMbCtl_wf, stateOr_next, implies_true, hw]

theorem execFrameReceived_wf (c : Fin 8) (f : BusFrame) (age : Nat) (reference : Bool) (s : State) (hw : tabWf memDefault s.mem = true) : tabWf memDefault (stateOr (execFrameReceived c f age reference s) s).mem = true := by
  unfold execFrameReceived
  simp only [lowerRec_wf, ↓bump_mem, frameEnd_wf, acceptFrame_wf, apply_ite State.mem, apply_ite (tabWf memDefault), ite_self, stateOr_next, stateOr_ite, hw]

theorem execArbitrationLost_wf (c : Fin 8) (s : State) (hw : tabWf memDefault s.mem = true) : tabWf memDefault (stateOr (execArbitrationLost c s) s).mem = true := by
  unfold execArbitrationLost
  simp only [↓bump_mem, endAttempt_wf, apply_ite State.mem, apply_ite (tabWf memDefault), ite_self, stateOr_next, hw]

theorem fireTrigger_wf (m : Nat) (n : Nat) (busIdle : Bool) (s : State) (hw : tabWf memDefault s.mem = true) : tabWf memDefault (fireTrigger m n busIdle s).mem = true := by
  unfold fireTrigger
  simp only [↓s1Event_mem, ↓onMb_mem, ↓openDelay_mem, copyObj_wf, ↓requestObj_mem, ↓s2Event_mem, ↓takeOverTime_mem, apply_ite State.mem, apply_ite (tabWf memDefault), ite_self, hw]

theorem execTtTrigger_wf (c : Fin 8) (n : Fin 64) (busIdle : Bool) (s : State) (hw : tabWf memDefault s.mem = true) : tabWf memDefault (stateOr (execTtTrigger c n busIdle s) s).mem = true := by
  unfold execTtTrigger
  simp only [↓endWindow_mem, ↓onMb_mem, fireTrigger_wf, apply_ite State.mem, apply_ite (tabWf memDefault), ite_self, stateOr_next, stateOr_ite, hw]

theorem rateDrop_wf (m : Nat) (n : Nat) (s : State) (hw : tabWf memDefault s.mem = true) : tabWf memDefault (rateDrop m n s).mem = true := by
  unfold rateDrop
  simp only [↓bump_mem, putObjWord_wf, hw]

theorem updateObj_wf (m : Nat) (n : Nat) (s : State) (hw : tabWf memDefault s.mem = true) : tabWf memDefault (updateObj m n s).mem = true := by
  unfold updateObj
  grind [recordDenial_mem, gwNotice_mem, setB_mem, markObj_wf, consumePoison_mem, masterWrite_wf, rateDrop_wf, requestObj_mem, stateOr, Clock.state, fresh, foldl_mem, foldl_wf]

theorem execGwImageToBus_wf (s : State) (hw : tabWf memDefault s.mem = true) : tabWf memDefault (stateOr (execGwImageToBus s) s).mem = true := by
  unfold execGwImageToBus
  simp +contextual only [↓acquire_mem, ↓gwEnd_mem, ↓onBuses_mem, updateObj_wf, apply_ite State.mem, apply_ite (tabWf memDefault), ite_self, stateOr_next, stateOr_ite, implies_true, foldl_wf, hw]

theorem execMbInitClear_wf (m : Master) (c : Fin 8) (v : Word) (s : State) (hw : tabWf memDefault s.mem = true) : tabWf memDefault (stateOr (execMbInitClear m c v s) s).mem = true := by
  unfold execMbInitClear
  simp +contextual only [guardWrite_wf, writeMbCtl_wf, stateOr_next, implies_true, hw]

theorem applyEntry_wf (i : Nat) (m : Nat) (n : Nat) (instant : Nat) (s : State) (hw : tabWf memDefault s.mem = true) : tabWf memDefault (applyEntry i m n instant s).mem = true := by
  unfold applyEntry
  simp only [↓bump_mem, ↓recordDenial_mem, reviewSource_wf, ↓feedField_mem, masterWrite_wf, apply_ite State.mem, apply_ite (tabWf memDefault), ite_self, hw]

theorem completeObj_wf (m : Nat) (n : Nat) (f : BusFrame) (pm : DWord) (age : Nat) (s : State) (hw : tabWf memDefault s.mem = true) : tabWf memDefault (completeObj m n f pm age s).mem = true := by
  unfold completeObj
  extract_lets cnt s1 s2 s3 s4
  have h1 : tabWf memDefault s1.mem = true := putObjWord_wf _ _ _ _ _ (putObjWord_wf _ _ _ _ _ hw)
  have h2 : tabWf memDefault s2.mem = true := putObjWord_wf _ _ _ _ _ (putObjWord_wf _ _ _ _ _ h1)
  have h3 : tabWf memDefault s3.mem = true := (bump_mem _ _).symm ▸ h2
  have h4 : tabWf memDefault s4.mem = true := by
    show tabWf memDefault (if bitOf (objCfg s3 m n) 14 = true then _ else _ : State).mem = true
    split
    · rw [mbNotice_mem]; exact h3
    · exact h3
  clear_value s4
  split
  · rw [referenceMark_mem]; exact h4
  · exact h4

end Sys2Proof.Machine
end

