-- ==== Sys2Proof/Laws/MemoryForm2.lean ====
section
/-! SUPPORT. Operations and meanings that write memory keep its canonical form. The operations and meanings of Buses, Serial, Waymarks, Timetable, Duplex, Power, Bist, Reset, NodeControl. -/

namespace Sys2Proof.Machine

theorem execTxComplete_wf (c : Fin 8) (age : Nat) (s : State) (hw : tabWf memDefault s.mem = true) : tabWf memDefault (stateOr (execTxComplete c age s) s).mem = true := by
  unfold execTxComplete
  grind [noRetries_mem, onMb_mem, completeObj_wf, reviewMb_wf, partnerFrame_mem, acceptFrame_wf, bump_mem, frameEnd_wf, stateOr, Clock.state, fresh, foldl_mem, foldl_wf]

theorem execTxCopy_wf (c : Fin 8) (loop : Option Nat) (uncorr : Bool) (s : State) (hw : tabWf memDefault s.mem = true) : tabWf memDefault (stateOr (execTxCopy c loop uncorr s) s).mem = true := by
  unfold execTxCopy
  (repeat' split) <;> simp only [↓freshError_mem, copyObj_wf, stateOr_next, hw]

theorem putFrameWord_wf (m : Nat) (n : Nat) (len : Nat) (e : Envelope) (s : State) (i : Nat) (hw : tabWf memDefault s.mem = true) : tabWf memDefault (putFrameWord m n len e s i).mem = true := by
  unfold putFrameWord
  simp only [↓consumePoison_mem, masterWrite_wf, apply_ite State.mem, ite_self, hw]

theorem takeBusFrame_wf (m : Nat) (n : Nat) (e : Envelope) (s : State) (hw : tabWf memDefault s.mem = true) : tabWf memDefault (takeBusFrame m n e s).mem = true := by
  unfold takeBusFrame
  simp +contextual only [putObjWord_wf, ↓requestObj_mem, putFrameWord_wf, implies_true, foldl_wf, hw]

theorem execProtocolExceptionRejoin_wf (c : Fin 8) (s : State) (hw : tabWf memDefault s.mem = true) : tabWf memDefault (stateOr (execProtocolExceptionRejoin c s) s).mem = true := by
  unfold execProtocolExceptionRejoin
  simp only [frameEnd_wf, ↓onMb_mem, apply_ite State.mem, apply_ite (tabWf memDefault), ite_self, stateOr_next, hw]

theorem writeMbCtlOpen_wf (m : Nat) (v : Word) (s : State) (hw : tabWf memDefault s.mem = true) : tabWf memDefault (writeMbCtlOpen m v s).mem = true := by
  unfold writeMbCtlOpen
  grind [fresh_mem, writeMbCtl_wf, stateOr, Clock.state, fresh, foldl_mem, foldl_wf]

theorem writeGwCtl_wf (v : Word) (s : State) (hw : tabWf memDefault s.mem = true) : tabWf memDefault (writeGwCtl v s).mem = true := by
  unfold writeGwCtl
  simp +contextual only [↓plainWrite_mem, reviewTrack_wf, apply_ite State.mem, apply_ite (tabWf memDefault), ite_self, implies_true, foldl_wf, hw]

theorem execGwBusToImage_wf (s : State) (hw : tabWf memDefault s.mem = true) : tabWf memDefault (stateOr (execGwBusToImage s) s).mem = true := by
  unfold execGwBusToImage
  (repeat' split) <;> simp_all only [↓acquire_mem, ↓gwEnd_mem, ↓onBuses_mem, rateDrop_wf, applyEntry_wf, apply_ite State.mem, apply_ite (tabWf memDefault), ite_self, stateOr_next, stateOr_ite, implies_true, foldl_wf]

theorem execBusOffRecovery_wf (c : Fin 8) (s : State) (hw : tabWf memDefault s.mem = true) : tabWf memDefault (stateOr (execBusOffRecovery c s) s).mem = true := by
  unfold execBusOffRecovery
  simp only [setMbState_wf, ↓showCounts_mem, ↓onMb_mem, apply_ite State.mem, apply_ite (tabWf memDefault), ite_self, stateOr_next, hw]

theorem execBusError_wf (c : Fin 8) (kind : BusFault) (tecUp : Nat) (recUp : Nat) (s : State) (hw : tabWf memDefault s.mem = true) : tabWf memDefault (stateOr (execBusError c kind tecUp recUp s) s).mem = true := by
  unfold execBusError
  simp only [busFault_wf, apply_ite State.mem, apply_ite (tabWf memDefault), ite_self, stateOr_next, hw]

theorem resetMb_wf (m : Nat) (s : State) (hw : tabWf memDefault s.mem = true) : tabWf memDefault (resetMb m s).mem = true := by
  unfold resetMb
  simp only [setMbState_wf, ↓onBuses_mem, ↓resetRange_mem, ↓onMb_mem, hw]

theorem execBusIntegrated_wf (c : Fin 8) (s : State) (hw : tabWf memDefault s.mem = true) : tabWf memDefault (stateOr (execBusIntegrated c s) s).mem = true := by
  unfold execBusIntegrated
  simp only [reviewMb_wf, setMbState_wf, apply_ite State.mem, apply_ite (tabWf memDefault), ite_self, stateOr_next, hw]

theorem execBusFrame_wf (e : Envelope) (s : State) (hw : tabWf memDefault s.mem = true) : tabWf memDefault (stateOr (execBusFrame e s) s).mem = true := by
  unfold execBusFrame
  extract_lets e1 s1 s2 rw
  have h1 : tabWf memDefault s1.mem = true := (takeDelivered_mem e1 s).symm ▸ hw
  have h2 : tabWf memDefault s2.mem = true := by
    show tabWf memDefault (if poisonMismatch e1 = true then _ else _ : State).mem = true
    split
    · rw [bump_mem]; exact h1
    · exact h1
  have h3 : ∀ r, tabWf memDefault (rw r).mem = true := fun r => (sendNdn_mem r.code 0 0 (ndnData e1).1 (ndnData e1).2 e1 s2).symm ▸ h2
  clear_value rw s2
  split
  · exact h3 _
  · split
    · exact h3 _
    · split
      · exact h3 _
      · split
        · exact h3 _
        · exact takeBusFrame_wf _ _ _ _ h2

theorem writeEnCtl_wf (n : Nat) (v : Word) (s : State) (hw : tabWf memDefault s.mem = true) : tabWf memDefault (writeEnCtl n v s).mem = true := by
  unfold writeEnCtl
  simp only [↓setB_mem, ↓declineWrite_mem, reviewSource_wf, ↓writeInPart_mem, apply_ite State.mem, apply_ite (tabWf memDefault), ite_self, hw]

theorem mainsBoundary_wf (i : Nat) (s : State) (hw : tabWf memDefault s.mem = true) : tabWf memDefault (mainsBoundary i s).mem = true := by
  unfold mainsBoundary
  simp only [boundaryWrite_wf, apply_ite State.mem, apply_ite (tabWf memDefault), ite_self, hw]

theorem setMainsState_wf (i : Nat) (st : Nat) (s : State) (hw : tabWf memDefault s.mem = true) : tabWf memDefault (setMainsState i st s).mem = true := by
  unfold setMainsState
  simp only [↓setF_mem, ↓rebase_mem, ↓onMains_mem, ↓setB_mem, reviewSource_wf, ↓postOpen_mem, apply_ite State.mem, apply_ite (tabWf memDefault), ite_self, hw]

theorem judgeError_wf (i : Nat) (err : Int) (s : State) (hw : tabWf memDefault s.mem = true) : tabWf memDefault (judgeError i err s).mem = true := by
  unfold judgeError
  simp only [↓onMains_mem, setMainsState_wf, apply_ite State.mem, apply_ite (tabWf memDefault), ite_self, hw]

theorem mainsEdge_wf (i : Nat) (age : Nat) (s : State) (hw : tabWf memDefault s.mem = true) : tabWf memDefault (mainsEdge i age s).mem = true := by
  unfold mainsEdge
  simp only [↓rebase_mem, ↓onMains_mem, judgeError_wf, ↓setReg_mem, ↓correctFreq_mem, apply_ite State.mem, apply_ite (tabWf memDefault), ite_self, hw]

theorem execMainsEdge_wf (i : Fin 2) (rising : Bool) (age : Nat) (s : State) (hw : tabWf memDefault s.mem = true) : tabWf memDefault (stateOr (execMainsEdge i rising age s) s).mem = true := by
  unfold execMainsEdge
  (repeat' split) <;> simp only [↓bump_mem, mainsEdge_wf, ↓onMains_mem, apply_ite State.mem, apply_ite (tabWf memDefault), ite_self, stateOr_next, stateOr_ite, hw]

theorem execMainsHoldMax_wf (i : Fin 2) (s : State) (hw : tabWf memDefault s.mem = true) : tabWf memDefault (stateOr (execMainsHoldMax i s) s).mem = true := by
  unfold execMainsHoldMax
  simp only [setMainsState_wf, apply_ite State.mem, apply_ite (tabWf memDefault), ite_self, stateOr_next, hw]

theorem uartBoundary_wf (u : Nat) (s : State) (hw : tabWf memDefault s.mem = true) : tabWf memDefault (uartBoundary u s).mem = true := by
  unfold uartBoundary
  simp only [boundaryWrite_wf, ↓onUart_mem, ↓bumpN_mem, apply_ite State.mem, apply_ite (tabWf memDefault), ite_self, hw]

theorem encBoundary_wf (n : Nat) (s : State) (hw : tabWf memDefault s.mem = true) : tabWf memDefault (encBoundary n s).mem = true := by
  unfold encBoundary
  simp only [boundaryWrite_wf, apply_ite State.mem, apply_ite (tabWf memDefault), ite_self, hw]

theorem unitRecords_wf (s : State) (hw : tabWf memDefault s.mem = true) : tabWf memDefault (unitRecords s).mem = true := by
  unfold unitRecords
  grind [uartBoundary_wf, encBoundary_wf, mainsBoundary_wf, stateOr, Clock.state, fresh, foldl_mem, foldl_wf]

theorem resetMains_wf (i : Nat) (s : State) (hw : tabWf memDefault s.mem = true) : tabWf memDefault (resetMains i s).mem = true := by
  unfold resetMains
  simp only [reviewSource_wf, ↓resetRange_mem, ↓onMains_mem, setMainsState_wf, hw]

theorem execZarm_wf (m : Master) (n : Fin 16) (v : Word) (s : State) (hw : tabWf memDefault s.mem = true) : tabWf memDefault (stateOr (execZarm m n v s) s).mem = true := by
  unfold execZarm
  simp +contextual only [guardWrite_wf, writeEnCtl_wf, stateOr_next, implies_true, hw]

theorem writeMpCtl_wf (i : Nat) (v : Word) (s : State) (hw : tabWf memDefault s.mem = true) : tabWf memDefault (writeMpCtl i v s).mem = true := by
  unfold writeMpCtl
  simp only [↓setB_mem, ↓writeInPart_mem, ↓setF_mem, ↓rebase_mem, setMainsState_wf, ↓onMains_mem, apply_ite State.mem, apply_ite (tabWf memDefault), ite_self, hw]

theorem execMainsEnable_wf (m : Master) (i : Fin 2) (v : Word) (s : State) (hw : tabWf memDefault s.mem = true) : tabWf memDefault (stateOr (execMainsEnable m i v s) s).mem = true := by
  unfold execMainsEnable
  simp +contextual only [guardWrite_wf, writeMpCtl_wf, stateOr_next, implies_true, hw]

theorem resetEnc_wf (n : Nat) (s : State) (hw : tabWf memDefault s.mem = true) : tabWf memDefault (resetEnc n s).mem = true := by
  unfold resetEnc
  simp only [reviewSource_wf, ↓resetRange_mem, ↓onEnc_mem, hw]

theorem execMainsEdgeMissing_wf (i : Fin 2) (s : State) (hw : tabWf memDefault s.mem = true) : tabWf memDefault (stateOr (execMainsEdgeMissing i s) s).mem = true := by
  unfold execMainsEdgeMissing
  simp only [setMainsState_wf, apply_ite State.mem, apply_ite (tabWf memDefault), ite_self, stateOr_next, hw]

theorem applySample_wf (n : Nat) (e : Envelope) (tick : Nat) (s : State) (hw : tabWf memDefault s.mem = true) : tabWf memDefault (applySample n e tick s).mem = true := by
  unfold applySample
  simp only [↓onTrack_mem, reviewTrack_wf, judgedJump_wf, evalTrack_wf, apply_ite State.mem, apply_ite (tabWf memDefault), ite_self, hw]

theorem recordFiring_wf (f : Firing) (e : WmEntry) (s : State) (hw : tabWf memDefault s.mem = true) : tabWf memDefault (recordFiring f e s).mem = true := by
  unfold recordFiring
  simp only [wmPut_wf, ↓bump_mem, ↓wmNotice_mem, ↓setB_mem, apply_ite State.mem, ite_self, hw]

theorem execWaymarkCrossing_wf (n : Fin 16) (s : State) (hw : tabWf memDefault s.mem = true) : tabWf memDefault (stateOr (execWaymarkCrossing n s) s).mem = true := by
  unfold execWaymarkCrossing
  simp only [evalTrack_wf, stateOr_next, hw]

theorem copyOut_wf (s : State) (hw : tabWf memDefault s.mem = true) : tabWf memDefault (copyOut s).mem = true := by
  unfold copyOut
  split <;> simp only [↓acquire_mem, ↓endRequest_mem, ↓settleCopies_mem, ↓refuse_mem, masterWrite_wf, apply_ite State.mem, apply_ite (tabWf memDefault), ite_self, hw]

theorem actCapture_wf (f : Firing) (s : State) (hw : tabWf memDefault s.mem = true) : tabWf memDefault (actCapture f s).mem = true := by
  unfold actCapture
  simp only [↓onTracks_mem, ↓wmLost_mem, ↓bump_mem, copyOut_wf, ↓settleCopies_mem, apply_ite State.mem, apply_ite (tabWf memDefault), ite_self, hw]

theorem writeTkCfg_wf (n : Nat) (rsrc : Bool) (v : Word) (s : State) (hw : tabWf memDefault s.mem = true) : tabWf memDefault (writeTkCfg n rsrc v s).mem = true := by
  unfold writeTkCfg
  simp only [↓setB_mem, ↓declineWrite_mem, ↓plainWrite_mem, ↓onTrack_mem, reviewTrack_wf, apply_ite State.mem, apply_ite (tabWf memDefault), ite_self, hw]

theorem writeTkCtl_wf (n : Nat) (v : Word) (s : State) (hw : tabWf memDefault s.mem = true) : tabWf memDefault (writeTkCtl n v s).mem = true := by
  unfold writeTkCtl
  simp only [reviewTrack_wf, ↓plainWrite_mem, hw]

theorem execTrackHold_wf (m : Master) (n : Fin 16) (v : Word) (s : State) (hw : tabWf memDefault s.mem = true) : tabWf memDefault (stateOr (execTrackHold m n v s) s).mem = true := by
  unfold execTrackHold
  simp +contextual only [guardWrite_wf, writeTkCtl_wf, stateOr_next, implies_true, hw]

theorem badFiring_wf (f : Firing) (s : State) (hw : tabWf memDefault s.mem = true) : tabWf memDefault (badFiring f s).mem = true := by
  unfold badFiring
  simp only [wmBad_wf, ↓latchFault_mem, ↓miNotice_mem, apply_ite State.mem, ite_self, hw]

theorem fire_wf (kind : Nat) (act : Firing → WmEntry → State → State) (s : State) (h0 : ∀ y0 y1 x, tabWf memDefault x.mem = true → tabWf memDefault (act y0 y1 x).mem = true) (hw : tabWf memDefault s.mem = true) : tabWf memDefault (fire kind act s).mem = true := by
  unfold fire
  grind [takeFiring_mem, dropFiring_mem, badFiring_wf, recordFiring_wf, wmMove_wf, wmDisarm_wf, stateOr, Clock.state, fresh, foldl_mem, foldl_wf]

theorem execActCapture_wf (s : State) (hw : tabWf memDefault s.mem = true) : tabWf memDefault (stateOr (execActCapture s) s).mem = true := by
  unfold execActCapture
  simp +contextual only [fire_wf, actCapture_wf, stateOr_next, implies_true, hw]

theorem silentJump_wf (n : Nat) (new : Nat) (s : State) (hw : tabWf memDefault s.mem = true) : tabWf memDefault (silentJump n new s).mem = true := by
  unfold silentJump
  simp only [evalTrack_wf, ↓onTrack_mem, hw]

theorem writeTkPos_wf (id : MasterId) (n : Nat) (v : Word) (s : State) (hw : tabWf memDefault s.mem = true) : tabWf memDefault (writeTkPos id n v s).mem = true := by
  unfold writeTkPos
  simp only [↓setStage_mem, silentJump_wf, ↓setB_mem, apply_ite State.mem, apply_ite (tabWf memDefault), ite_self, hw]

theorem execTkPosWrite_wf (m : Master) (n : Fin 16) (v : Word) (s : State) (hw : tabWf memDefault s.mem = true) : tabWf memDefault (stateOr (execTkPosWrite m n v s) s).mem = true := by
  unfold execTkPosWrite
  simp +contextual only [guardWrite_wf, writeTkPos_wf, stateOr_next, implies_true, hw]

theorem writeTkRcfg_wf (n : Nat) (v : Word) (s : State) (hw : tabWf memDefault s.mem = true) : tabWf memDefault (writeTkRcfg n v s).mem = true := by
  unfold writeTkRcfg
  simp only [reviewTrack_wf, ↓plainWrite_mem, hw]

theorem writeWmCtl_wf (v : Word) (s : State) (hw : tabWf memDefault s.mem = true) : tabWf memDefault (writeWmCtl v s).mem = true := by
  unfold writeWmCtl
  simp only [reviewFiring_wf, ↓plainWrite_mem, hw]

theorem execWmCtlWrite_wf (m : Master) (v : Word) (s : State) (hw : tabWf memDefault s.mem = true) : tabWf memDefault (stateOr (execWmCtlWrite m v s) s).mem = true := by
  unfold execWmCtlWrite
  simp +contextual only [guardWrite_wf, writeWmCtl_wf, stateOr_next, implies_true, hw]

theorem execActPulse_wf (s : State) (hw : tabWf memDefault s.mem = true) : tabWf memDefault (stateOr (execActPulse s) s).mem = true := by
  unfold execActPulse
  simp +contextual only [fire_wf, ↓actPulse_mem, stateOr_next, implies_true, hw]

theorem actChain_wf (f : Firing) (pos : Nat) (s : State) (hw : tabWf memDefault s.mem = true) : tabWf memDefault (actChain f pos s).mem = true := by
  unfold actChain
  simp only [wmPutPos_wf, wmPut_wf, apply_ite State.mem, apply_ite (tabWf memDefault), ite_self, hw]

theorem execActChain_wf (s : State) (hw : tabWf memDefault s.mem = true) : tabWf memDefault (stateOr (execActChain s) s).mem = true := by
  unfold execActChain
  simp +contextual only [fire_wf, actChain_wf, stateOr_next, implies_true, hw]

theorem execActFlag_wf (s : State) (hw : tabWf memDefault s.mem = true) : tabWf memDefault (stateOr (execActFlag s) s).mem = true := by
  unfold execActFlag
  simp +contextual only [fire_wf, ↓raiseFlags_mem, apply_ite State.mem, ite_self, stateOr_next, implies_true, hw]

theorem takeSample_wf (n : Nat) (e : Envelope) (tick : Nat) (s : State) (hw : tabWf memDefault s.mem = true) : tabWf memDefault (takeSample n e tick s).mem = true := by
  unfold takeSample
  simp only [↓bump_mem, ↓setB_mem, ↓setF_mem, ↓onTrack_mem, reviewTrack_wf, applySample_wf, apply_ite State.mem, apply_ite (tabWf memDefault), ite_self, hw]

theorem execTrackSample_wf (e : Envelope) (s : State) (hw : tabWf memDefault s.mem = true) : tabWf memDefault (stateOr (execTrackSample e s) s).mem = true := by
  unfold execTrackSample
  simp +contextual only [↓takeDelivered_mem, ↓bump_mem, ↓consumePoison_mem, takeSample_wf, apply_ite State.mem, apply_ite (tabWf memDefault), ite_self, stateOr_next, stateOr_ite, implies_true, foldl_wf, hw]

theorem execTkCfgWrite_wf (m : Master) (n : Fin 16) (rsrc : Bool) (v : Word) (s : State) (hw : tabWf memDefault s.mem = true) : tabWf memDefault (stateOr (execTkCfgWrite m n rsrc v s) s).mem = true := by
  unfold execTkCfgWrite
  simp +contextual only [guardWrite_wf, writeTkCfg_wf, stateOr_next, implies_true, hw]

theorem execActEmit_wf (s : State) (hw : tabWf memDefault s.mem = true) : tabWf memDefault (stateOr (execActEmit s) s).mem = true := by
  unfold execActEmit
  simp +contextual only [fire_wf, ↓wmLost_mem, ↓onTracks_mem, apply_ite State.mem, ite_self, stateOr_next, implies_true, hw]

theorem execActPin_wf (s : State) (hw : tabWf memDefault s.mem = true) : tabWf memDefault (stateOr (execActPin s) s).mem = true := by
  unfold execActPin
  simp +contextual only [fire_wf, ↓actPins_mem, stateOr_next, implies_true, hw]

theorem takeUp_wf (i : Nat) (s : State) (hw : tabWf memDefault s.mem = true) : tabWf memDefault (takeUp i s).mem = true := by
  unfold takeUp
  simp only [↓onTracks_mem, ↓setEntry_mem, wmDiscard_wf, evalEntry_wf, apply_ite State.mem, apply_ite (tabWf memDefault), ite_self, hw]

theorem execWaymarkTakeup_wf (i : Fin 4096) (s : State) (hw : tabWf memDefault s.mem = true) : tabWf memDefault (stateOr (execWaymarkTakeup i s) s).mem = true := by
  unfold execWaymarkTakeup
  simp only [takeUp_wf, stateOr_next, hw]

theorem execTrackFreshExpiry_wf (n : Fin 16) (s : State) (hw : tabWf memDefault s.mem = true) : tabWf memDefault (stateOr (execTrackFreshExpiry n s) s).mem = true := by
  unfold execTrackFreshExpiry
  simp only [reviewTrack_wf, apply_ite State.mem, apply_ite (tabWf memDefault), ite_self, stateOr_next, hw]

theorem execTrackCoastExpiry_wf (n : Fin 16) (s : State) (hw : tabWf memDefault s.mem = true) : tabWf memDefault (stateOr (execTrackCoastExpiry n s) s).mem = true := by
  unfold execTrackCoastExpiry
  simp only [reviewTrack_wf, apply_ite State.mem, apply_ite (tabWf memDefault), ite_self, stateOr_next, hw]

theorem execActNotice_wf (s : State) (hw : tabWf memDefault s.mem = true) : tabWf memDefault (stateOr (execActNotice s) s).mem = true := by
  unfold execActNotice
  simp +contextual only [fire_wf, ↓postPm_mem, stateOr_next, implies_true, hw]

theorem execTrackRelease_wf (m : Master) (n : Fin 16) (v : Word) (s : State) (hw : tabWf memDefault s.mem = true) : tabWf memDefault (stateOr (execTrackRelease m n v s) s).mem = true := by
  unfold execTrackRelease
  simp +contextual only [guardWrite_wf, writeTkCtl_wf, stateOr_next, implies_true, hw]

theorem copiesOut_wf (s : State) (hw : tabWf memDefault s.mem = true) : tabWf memDefault (copiesOut s).mem = true := by
  unfold copiesOut
  simp +contextual only [copyOut_wf, implies_true, foldl_wf, hw]

theorem execTrackSourceInvalid_wf (n : Fin 16) (s : State) (hw : tabWf memDefault s.mem = true) : tabWf memDefault (stateOr (execTrackSourceInvalid n s) s).mem = true := by
  unfold execTrackSourceInvalid
  simp only [reviewTrack_wf, apply_ite State.mem, apply_ite (tabWf memDefault), ite_self, stateOr_next, hw]

theorem execActBus_wf (s : State) (hw : tabWf memDefault s.mem = true) : tabWf memDefault (stateOr (execActBus s) s).mem = true := by
  unfold execActBus
  simp +contextual only [fire_wf, ↓requestObj_mem, stateOr_next, implies_true, hw]

theorem execInputSeal_wf (s : State) (hw : tabWf memDefault s.mem = true) : tabWf memDefault (stateOr (execInputSeal s) s).mem = true := by
  unfold execInputSeal
  simp only [endSeal_wf, stateOr_next, hw]

theorem sealInput_wf (s : State) (hw : tabWf memDefault s.mem = true) : tabWf memDefault (sealInput s).mem = true := by
  unfold sealInput
  grind [pinsToImage_wf, unitRecords_wf, startSeal_wf, endSeal_wf, stateOr, Clock.state, fresh, foldl_mem, foldl_wf]

theorem swapImages_wf (isBoundary : Bool) (s : State) (hw : tabWf memDefault s.mem = true) : tabWf memDefault (swapImages isBoundary s).mem = true := by
  unfold swapImages
  simp only [sealInput_wf, ↓cycleTx_mem, ↓gwBoundary_mem, ↓mappedOutputs_mem, swapOutput_wf, hw]

theorem applyService_wf (s : State) (hw : tabWf memDefault s.mem = true) : tabWf memDefault (applyService s).mem = true := by
  unfold applyService
  simp only [↓setF_mem, ↓reviewClaim_mem, reviewFiring_wf, ↓safePins_mem, apply_ite State.mem, apply_ite (tabWf memDefault), ite_self, hw]

theorem swapNow_wf (s : State) (hw : tabWf memDefault s.mem = true) : tabWf memDefault (swapNow s).mem = true := by
  unfold swapNow
  grind [bump_mem, endSeal_wf, swapImages_wf, bankSwap_mem, applyService_wf, stateOr, Clock.state, fresh, foldl_mem, foldl_wf]

theorem writeTtCtl_wf (v : Word) (s : State) (hw : tabWf memDefault s.mem = true) : tabWf memDefault (writeTtCtl v s).mem = true := by
  unfold writeTtCtl
  simp only [↓ttRefuse_mem, ↓writeInPart_mem, swapNow_wf, apply_ite State.mem, apply_ite (tabWf memDefault), ite_self, hw]

theorem execSwapnow_wf (m : Master) (v : Word) (s : State) (hw : tabWf memDefault s.mem = true) : tabWf memDefault (stateOr (execSwapnow m v s) s).mem = true := by
  unfold execSwapnow
  simp +contextual only [guardWrite_wf, writeTtCtl_wf, stateOr_next, implies_true, hw]

theorem execSwapReq_wf (m : Master) (v : Word) (s : State) (hw : tabWf memDefault s.mem = true) : tabWf memDefault (stateOr (execSwapReq m v s) s).mem = true := by
  unfold execSwapReq
  simp +contextual only [guardWrite_wf, writeTtCtl_wf, stateOr_next, implies_true, hw]

theorem boundary_wf (k : Nat) (s : State) (hw : tabWf memDefault s.mem = true) : tabWf memDefault (boundary k s).mem = true := by
  unfold boundary
  simp only [↓skipBoundaries_mem, ↓abandonEntries_mem, ↓bump_mem, ↓setReg_mem, ↓onTt_mem, applyService_wf, ↓bankSwap_mem, ↓setB_mem, swapImages_wf, ↓mappedOutputs_mem, apply_ite State.mem, apply_ite (tabWf memDefault), ite_self, hw]

theorem execCycleBoundary_wf (s : State) (hw : tabWf memDefault s.mem = true) : tabWf memDefault (stateOr (execCycleBoundary s) s).mem = true := by
  unfold execCycleBoundary
  split <;> simp only [boundary_wf, stateOr_next, hw]

theorem execTtRunWrite_wf (m : Master) (v : Word) (s : State) (hw : tabWf memDefault s.mem = true) : tabWf memDefault (stateOr (execTtRunWrite m v s) s).mem = true := by
  unfold execTtRunWrite
  simp +contextual only [guardWrite_wf, writeTtCtl_wf, stateOr_next, implies_true, hw]

theorem execServiceModeTakesEffect_wf (s : State) (hw : tabWf memDefault s.mem = true) : tabWf memDefault (stateOr (execServiceModeTakesEffect s) s).mem = true := by
  unfold execServiceModeTakesEffect
  simp only [applyService_wf, apply_ite State.mem, apply_ite (tabWf memDefault), ite_self, stateOr_next, hw]

theorem storeCyclic_wf (e : Envelope) (s : State) (hw : tabWf memDefault s.mem = true) : tabWf memDefault (storeCyclic e s).mem = true := by
  unfold storeCyclic
  simp +contextual only [↓consumePoison_mem, masterWrite_wf, apply_ite State.mem, ite_self, implies_true, foldl_wf, hw]

theorem takeCyclic_wf (e : Envelope) (s : State) (hw : tabWf memDefault s.mem = true) : tabWf memDefault (takeCyclic e s).mem = true := by
  unfold takeCyclic
  grind [bump_mem, ttNotice_mem, setB_mem, onTt_mem, storeCyclic_wf, stateOr, Clock.state, fresh, foldl_mem, foldl_wf]

theorem execCyclic_wf (e : Envelope) (s : State) (hw : tabWf memDefault s.mem = true) : tabWf memDefault (stateOr (execCyclic e s) s).mem = true := by
  unfold execCyclic
  simp only [takeCyclic_wf, ↓takeDelivered_mem, stateOr_next, hw]

theorem ownPin_wf (p : Nat) (s : State) (hw : tabWf memDefault s.mem = true) : tabWf memDefault (ownPin p s).mem = true := by
  unfold ownPin
  simp +contextual only [↓onPin_mem, ↓setB_mem, commitEdge_wf, apply_ite State.mem, apply_ite (tabWf memDefault), ite_self, implies_true, foldl_wf, hw]

theorem reviewMains_wf (s : State) (hw : tabWf memDefault s.mem = true) : tabWf memDefault (reviewMains s).mem = true := by
  unfold reviewMains
  simp only [reviewSource_wf, hw]

theorem ownSampling_wf (s : State) (hw : tabWf memDefault s.mem = true) : tabWf memDefault (ownSampling s).mem = true := by
  unfold ownSampling
  grind [ownPin_wf, ownEnc_mem, reviewMains_wf, onDpx_mem, stateOr, Clock.state, fresh, foldl_mem, foldl_wf]

theorem whileFollowing_wf (f : State → State) (s : State) (h0 : ∀ x, tabWf memDefault x.mem = true → tabWf memDefault (f x).mem = true) (hw : tabWf memDefault s.mem = true) : tabWf memDefault (whileFollowing f s).mem = true := by
  unfold whileFollowing
  simp only [h0, ownSampling_wf, ↓startFollowing_mem, apply_ite State.mem, apply_ite (tabWf memDefault), ite_self, hw]

theorem dpxCtlWrite_wf (m : Master) (f : Fld) (b : Nat) (v : Word) (s : State) (hw : tabWf memDefault s.mem = true) : tabWf memDefault (dpxCtlWrite m f b v s).mem = true := by
  unfold dpxCtlWrite
  simp +contextual only [guardWrite_wf, whileFollowing_wf, ↓writeDpxCtl_mem, implies_true, hw]

theorem execDpxDisable_wf (m : Master) (v : Word) (s : State) (hw : tabWf memDefault s.mem = true) : tabWf memDefault (stateOr (execDpxDisable m v s) s).mem = true := by
  unfold execDpxDisable
  simp only [dpxCtlWrite_wf, stateOr_next, hw]

theorem partnerRow_wf (e : Envelope) (type : Nat) (words : Nat) (tie : Bool) (f : Envelope → State → State) (s : State) (h0 : ∀ y0 x, tabWf memDefault x.mem = true → tabWf memDefault (f y0 x).mem = true) (hw : tabWf memDefault s.mem = true) : tabWf memDefault (stateOr (partnerRow e type words tie f s) s).mem = true := by
  unfold partnerRow
  simp only [h0, ↓takeDelivered_mem, ↓bump_mem, apply_ite State.mem, apply_ite (tabWf memDefault), ite_self, stateOr_next, hw]

theorem takeFrame_wf (e : Envelope) (s : State) (hw : tabWf memDefault s.mem = true) : tabWf memDefault (takeFrame e s).mem = true := by
  unfold takeFrame
  simp only [completeObj_wf, ↓setPending_mem, storeFrame_wf, apply_ite State.mem, apply_ite (tabWf memDefault), ite_self, hw]

theorem execDpxFrame_wf (e : Envelope) (tie : Bool) (s : State) (hw : tabWf memDefault s.mem = true) : tabWf memDefault (stateOr (execDpxFrame e tie s) s).mem = true := by
  unfold execDpxFrame
  simp +contextual only [partnerRow_wf, takeFrame_wf, apply_ite State.mem, apply_ite (tabWf memDefault), ite_self, implies_true, hw]

theorem loadEngine_wf (n : Nat) (w1 : DWord) (w2 : DWord) (w3 : DWord) (s : State) (hw : tabWf memDefault s.mem = true) : tabWf memDefault (loadEngine n w1 w2 w3 s).mem = true := by
  unfold loadEngine
  simp only [↓setY_mem, ↓setX_mem, ↓setReg_mem, ↓setOsc_mem, ↓setIsc_mem, ↓onEng_mem, ↓fetchInto_mem, reviewEngineTracks_wf, ↓setEngState_mem, apply_ite State.mem, apply_ite (tabWf memDefault), ite_self, hw]

theorem loadState_wf (ws : List DWord) (s : State) (hw : tabWf memDefault s.mem = true) : tabWf memDefault (loadState ws s).mem = true := by
  unfold loadState
  simp +contextual only [loadEngine_wf, ↓bump_mem, implies_true, foldl_wf, hw]

theorem applyLevel_wf (ws : List DWord) (m : Nat) (p : Nat) (s : State) (hw : tabWf memDefault s.mem = true) : tabWf memDefault (applyLevel ws m p s).mem = true := by
  unfold applyLevel
  grind [setB_mem, onPin_mem, commitEdge_wf, bumpN_mem, stateOr, Clock.state, fresh, foldl_mem, foldl_wf]

theorem execPeerChange_wf (level : Bool) (s : State) (hw : tabWf memDefault s.mem = true) : tabWf memDefault (stateOr (execPeerChange level s) s).mem = true := by
  unfold execPeerChange
  simp +contextual only [whileFollowing_wf, ↓peerTo_mem, apply_ite State.mem, apply_ite (tabWf memDefault), ite_self, stateOr_next, implies_true, hw]

theorem applyVectors_wf (ws : List DWord) (m : Nat) (s : State) (hw : tabWf memDefault s.mem = true) : tabWf memDefault (applyVectors ws m s).mem = true := by
  unfold applyVectors
  grind [applyLevel_wf, applyEnc_mem, reviewMains_wf, onDpx_mem, stateOr, Clock.state, fresh, foldl_mem, foldl_wf]

theorem execDpxEnable_wf (m : Master) (v : Word) (s : State) (hw : tabWf memDefault s.mem = true) : tabWf memDefault (stateOr (execDpxEnable m v s) s).mem = true := by
  unfold execDpxEnable
  simp only [dpxCtlWrite_wf, stateOr_next, hw]

theorem missStep_wf (s : State) (hw : tabWf memDefault s.mem = true) : tabWf memDefault (missStep s).mem = true := by
  unfold missStep
  simp only [↓bump_mem, ↓onDpx_mem, ↓dpxNotice_mem, ownSampling_wf, ↓setB_mem, apply_ite State.mem, apply_ite (tabWf memDefault), ite_self, hw]

theorem execClaimRaise_wf (s : State) (hw : tabWf memDefault s.mem = true) : tabWf memDefault (stateOr (execClaimRaise s) s).mem = true := by
  unfold execClaimRaise
  simp +contextual only [whileFollowing_wf, ↓raiseClaim_mem, apply_ite State.mem, apply_ite (tabWf memDefault), ite_self, stateOr_next, implies_true, hw]

theorem takeLoads_wf (m : Nat) (s : State) (hw : tabWf memDefault s.mem = true) : tabWf memDefault (takeLoads m s).mem = true := by
  unfold takeLoads
  simp +contextual only [↓onDpx_mem, loadState_wf, implies_true, foldl_wf, hw]

theorem compareDomain_wf (dom : Nat) (differs : Bool) (report : State → State) (s : State) (h0 : ∀ x, tabWf memDefault x.mem = true → tabWf memDefault (report x).mem = true) (hw : tabWf memDefault s.mem = true) : tabWf memDefault (compareDomain dom differs report s).mem = true := by
  unfold compareDomain
  simp only [h0, ↓onDpx_mem, ↓dpxNotice_mem, ↓bump_mem, apply_ite State.mem, apply_ite (tabWf memDefault), ite_self, hw]

theorem followEdge_wf (m : Nat) (s : State) (hw : tabWf memDefault s.mem = true) : tabWf memDefault (followEdge m s).mem = true := by
  unfold followEdge
  grind [takeLoads_wf, applyVectors_wf, compareStep_mem, missStep_wf, stateOr, Clock.state, fresh, foldl_mem, foldl_wf]

theorem pairEdge_wf (m : Nat) (s : State) (hw : tabWf memDefault s.mem = true) : tabWf memDefault (pairEdge m s).mem = true := by
  unfold pairEdge
  simp only [followEdge_wf, ↓leadEdge_mem, ownSampling_wf, ↓onEnc_mem, ↓startSpeaking_mem, ↓sendPartner_mem, ↓onDpx_mem, apply_ite State.mem, apply_ite (tabWf memDefault), ite_self, implies_true, foldl_mem, hw]

theorem execStepEdge_wf (s : State) (hw : tabWf memDefault s.mem = true) : tabWf memDefault (stateOr (execStepEdge s) s).mem = true := by
  unfold execStepEdge
  simp only [↓setReg_mem, pairEdge_wf, apply_ite State.mem, apply_ite (tabWf memDefault), ite_self, stateOr_next, stateOr_ite, hw]

theorem execDpxClrf_wf (m : Master) (v : Word) (s : State) (hw : tabWf memDefault s.mem = true) : tabWf memDefault (stateOr (execDpxClrf m v s) s).mem = true := by
  unfold execDpxClrf
  simp only [dpxCtlWrite_wf, stateOr_next, hw]

theorem execDpxSoftFault_wf (m : Master) (v : Word) (s : State) (hw : tabWf memDefault s.mem = true) : tabWf memDefault (stateOr (execDpxSoftFault m v s) s).mem = true := by
  unfold execDpxSoftFault
  simp only [dpxCtlWrite_wf, stateOr_next, hw]

theorem execDpxStep_wf (e : Envelope) (tie : Bool) (age : Nat) (ph : Fin 32) (s : State) (hw : tabWf memDefault s.mem = true) : tabWf memDefault (stateOr (execDpxStep e tie age ph s) s).mem = true := by
  unfold execDpxStep
  simp +contextual only [partnerRow_wf, whileFollowing_wf, ↓takeStep_mem, apply_ite State.mem, apply_ite (tabWf memDefault), ite_self, implies_true, hw]

theorem execDpxYield_wf (m : Master) (v : Word) (s : State) (hw : tabWf memDefault s.mem = true) : tabWf memDefault (stateOr (execDpxYield m v s) s).mem = true := by
  unfold execDpxYield
  simp only [dpxCtlWrite_wf, stateOr_next, hw]

theorem execAllClear_wf (vin : Nat) (s : State) (hw : tabWf memDefault s.mem = true) : tabWf memDefault (stateOr (execAllClear vin s) s).mem = true := by
  unfold execAllClear
  simp only [↓pdEvent_mem, ↓setB_mem, releaseFlash_wf, ↓pdNotice_mem, ↓bump_mem, apply_ite State.mem, apply_ite (tabWf memDefault), ite_self, stateOr_next, stateOr_ite, hw]

theorem execParityError_wf (p : ParityPlace) (s : State) (hw : tabWf memDefault s.mem = true) : tabWf memDefault (stateOr (execParityError p s) s).mem = true := by
  unfold execParityError
  cases p with
  | store e =>
    dsimp only
    split
    · simp only [stateOr_next, noteStoreError_mem, parityRecord_mem]; exact storeParity_wf _ _ hw
    · exact hw
  | fifo e =>
    dsimp only
    split
    · rename_i l t h
      have ht : tabWf memDefault t.mem = true := by
        split at h
        · exact nextInstr_wf h hw
        · cases h
      split
      · simp only [stateOr_next, parityRecord_mem]
        exact enterFault_wf _ _ _ ((useClock_mem _ _).symm ▸ ht)
      · exact hw
    · exact hw
  | regFile e r => simp only [stateOr_next, markBad_mem]; exact hw
  | table a =>
    dsimp only
    split
    · exact hw
    · simp only [stateOr_next, parityRecord_mem, markBad_mem]; exact hw
  | semaphore n =>
    dsimp only
    generalize s.bridge.locks.find? _ = o
    cases o with
    | none => exact hw
    | some l => simp only [stateOr_next, parityRecord_mem, breakLock_mem]; exact hw

theorem coldStart_wf (straps : Straps) (monEn : Bool) (s : State) (hw : tabWf memDefault s.mem = true) : tabWf memDefault (coldStart straps monEn s).mem = true := by
  unfold coldStart
  have h : tabWf memDefault (flashMem s.mem) = true := tabWf_filter _ hw
  dsimp only
  split
  · rw [noteCause_mem, setB_mem]; exact h
  · rw [setB_mem]; exact h

theorem resetDigital_wf (s : State) (hw : tabWf memDefault s.mem = true) : tabWf memDefault (resetDigital s).mem = true := by
  exact tabWf_mapFilter (fun e => if isWmEn e.1 then e.2 &&& 0xFE else e.2) ((tabWf_iff _ _).1 hw).1

theorem powerDown_wf (s : State) (hw : tabWf memDefault s.mem = true) : tabWf memDefault (powerDown s).mem = true := by
  unfold powerDown
  simp only [↓channelsOff_mem, ↓onPower_mem, resetDigital_wf, ↓setB_mem, hw]

theorem execPowerDown_wf (s : State) (hw : tabWf memDefault s.mem = true) : tabWf memDefault (stateOr (execPowerDown s) s).mem = true := by
  unfold execPowerDown
  simp only [powerDown_wf, stateOr_next, hw]

theorem execRailCollapse_wf (rail : Fin 4) (s : State) (hw : tabWf memDefault s.mem = true) : tabWf memDefault (stateOr (execRailCollapse rail s) s).mem = true := by
  unfold execRailCollapse
  simp only [↓putFeed_mem, ↓onPower_mem, powerDown_wf, apply_ite State.mem, apply_ite (tabWf memDefault), ite_self, stateOr_next, stateOr_ite, hw]

theorem execColdStart_wf (straps : Straps) (monEn : Bool) (s : State) (hw : tabWf memDefault s.mem = true) : tabWf memDefault (stateOr (execColdStart straps monEn s) s).mem = true := by
  unfold execColdStart
  simp only [coldStart_wf, stateOr_next, hw]

theorem nodeReset_wf (cause : Fld) (s : State) (hw : tabWf memDefault s.mem = true) : tabWf memDefault (nodeReset cause s).mem = true := by
  unfold nodeReset
  simp only [↓noteCause_mem, ↓putLock_mem, ↓powerNodeReset_mem, resetDigital_wf, hw]

theorem resetUnit_wf (cap : Nat) (inst : Nat) (s : State) (hw : tabWf memDefault s.mem = true) : tabWf memDefault (resetUnit cap inst s).mem = true := by
  unfold resetUnit
  simp only [↓dropStages_mem, ↓resetCluster_mem, resetMb_wf, ↓resetUart_mem, resetEnc_wf, resetMains_wf, ↓resetTrack_mem, apply_ite State.mem, apply_ite (tabWf memDefault), ite_self, hw]

theorem holdUnit_wf (cap : Nat) (inst : Nat) (s : State) (hw : tabWf memDefault s.mem = true) : tabWf memDefault (holdUnit cap inst s).mem = true := by
  unfold holdUnit
  simp only [↓quietUnit_mem, resetUnit_wf, ↓onNode_mem, ↓arbDecide_mem, ↓endRequest_mem, reviewTracks_wf, ↓refreshBank_mem, apply_ite State.mem, ite_self, implies_true, foldl_mem, hw]

theorem releaseUnit_wf (cap : Nat) (inst : Nat) (s : State) (hw : tabWf memDefault s.mem = true) : tabWf memDefault (releaseUnit cap inst s).mem = true := by
  unfold releaseUnit
  simp only [↓onNode_mem, reviewTracks_wf, ↓refreshBank_mem, implies_true, foldl_mem, hw]

theorem writeNodeUrst_wf (v : Word) (s : State) (hw : tabWf memDefault s.mem = true) : tabWf memDefault (writeNodeUrst v s).mem = true := by
  unfold writeNodeUrst
  simp only [↓setB_mem, ↓plainWrite_mem, ↓refusedTransition_mem, holdUnit_wf, releaseUnit_wf, apply_ite State.mem, apply_ite (tabWf memDefault), ite_self, hw]

theorem execClockLoss_wf (s : State) (hw : tabWf memDefault s.mem = true) : tabWf memDefault (stateOr (execClockLoss s) s).mem = true := by
  unfold execClockLoss
  simp only [↓putLock_mem, nodeReset_wf, ↓onNode_mem, stateOr_next, hw]

theorem execUnitResetRelease_wf (m : Master) (v : Word) (s : State) (hw : tabWf memDefault s.mem = true) : tabWf memDefault (stateOr (execUnitResetRelease m v s) s).mem = true := by
  unfold execUnitResetRelease
  simp +contextual only [guardWrite_wf, writeNodeUrst_wf, stateOr_next, implies_true, hw]

theorem execResetLLow_wf (s : State) (hw : tabWf memDefault s.mem = true) : tabWf memDefault (stateOr (execResetLLow s) s).mem = true := by
  unfold execResetLLow
  simp only [nodeReset_wf, ↓onNode_mem, stateOr_next, hw]

theorem execUnitResetHold_wf (m : Master) (v : Word) (s : State) (hw : tabWf memDefault s.mem = true) : tabWf memDefault (stateOr (execUnitResetHold m v s) s).mem = true := by
  unfold execUnitResetHold
  simp +contextual only [guardWrite_wf, writeNodeUrst_wf, stateOr_next, implies_true, hw]

theorem execVddioClassChange_wf (b : Fin 16) (cls : Fin 4) (s : State) (hw : tabWf memDefault s.mem = true) : tabWf memDefault (stateOr (execVddioClassChange b cls s) s).mem = true := by
  unfold execVddioClassChange
  simp only [↓onBank_mem, ↓setF_mem, startSupplyFault_wf, apply_ite State.mem, apply_ite (tabWf memDefault), ite_self, stateOr_next, hw]

theorem nodeCtlAccess_wf (m : Master) (v : Word) (s : State) (hw : tabWf memDefault s.mem = true) : tabWf memDefault (nodeCtlAccess m v s).mem = true := by
  unfold nodeCtlAccess
  simp +contextual only [guardWrite_wf, ↓writeNodeCtl_mem, nodeReset_wf, apply_ite State.mem, apply_ite (tabWf memDefault), ite_self, implies_true, hw]

theorem execSeal_wf (m : Master) (v : Word) (s : State) (hw : tabWf memDefault s.mem = true) : tabWf memDefault (stateOr (execSeal m v s) s).mem = true := by
  unfold execSeal
  simp only [nodeCtlAccess_wf, stateOr_next, hw]

theorem execSoftReset_wf (m : Master) (v : Word) (s : State) (hw : tabWf memDefault s.mem = true) : tabWf memDefault (stateOr (execSoftReset m v s) s).mem = true := by
  unfold execSoftReset
  simp only [nodeCtlAccess_wf, stateOr_next, hw]

theorem execServiceWrite_wf (m : Master) (v : Word) (s : State) (hw : tabWf memDefault s.mem = true) : tabWf memDefault (stateOr (execServiceWrite m v s) s).mem = true := by
  unfold execServiceWrite
  simp only [nodeCtlAccess_wf, stateOr_next, hw]

theorem execWatchdogExpiry_wf (s : State) (hw : tabWf memDefault s.mem = true) : tabWf memDefault (stateOr (execWatchdogExpiry s) s).mem = true := by
  unfold execWatchdogExpiry
  simp only [nodeReset_wf, apply_ite State.mem, apply_ite (tabWf memDefault), ite_self, stateOr_next, hw]

end Sys2Proof.Machine
end

