-- ==== Sys2Proof/Laws/MemoryForm3.lean ====
section
/-! SUPPORT. Operations and meanings that write memory keep its canonical form. The operations and meanings of Update, Bus, Inbound, Manifest, Monitor, Step. -/

namespace Sys2Proof.Machine

theorem openSession_wf (r : FolioReq) (h : List Byte) (s : State) (hw : tabWf memDefault s.mem = true) : tabWf memDefault (openSession r h s).mem = true := by
  unfold openSession
  grind [bump_mem, onUpd_mem, writeHeader_wf, eraseFlash_wf, setBytes_wf, putSession_mem, sendAck_mem, updNotice_mem, stateOr, Clock.state, fresh, foldl_mem, foldl_wf]

theorem judgeHeader_wf (r : FolioReq) (s : State) (hw : tabWf memDefault s.mem = true) : tabWf memDefault ((judgeHeader r s).getD s).mem = true := by
  unfold judgeHeader
  grind [sendAck_mem, refuseFolio_mem, openSession_wf, stateOr, Clock.state, fresh, foldl_mem, foldl_wf]

theorem judgeFolio_wf (r : FolioReq) (s : State) (hw : tabWf memDefault s.mem = true) : tabWf memDefault ((judgeFolio r s).getD s).mem = true := by
  unfold judgeFolio
  extract_lets s1
  have h1 : tabWf memDefault s1.mem = true := by
    show tabWf memDefault (if r.words = [] then _ else _ : State).mem = true
    split
    · exact hw
    · rw [bump_mem]; exact hw
  clear_value s1
  split
  · rw [Option.getD_some, refuseFolio_mem, denyEnvelope_mem]; exact h1
  split
  · rw [Option.getD_some, refuseFolio_mem]; exact h1
  split
  · rw [Option.getD_some, dropPoisoned_mem]; exact h1
  split
  · rw [Option.getD_some, judgeQuery_mem]; exact h1
  split
  · have h := judgeHeader_wf r s1 h1
    cases e : judgeHeader r s1 with
    | none => exact hw
    | some t => rw [e] at h; exact h
  · rw [Option.getD_some, judgePart_mem]; exact h1

theorem takeFolio_wf (p : Nat) (e : Envelope) (s : State) (hw : tabWf memDefault s.mem = true) : tabWf memDefault (takeFolio p e s).mem = true := by
  unfold takeFolio
  grind [sendOrWait_mem, takeDelivered_mem, judgeFolio_wf, bump_mem, stateOr, Clock.state, fresh, foldl_mem, foldl_wf]

theorem execFolioQuery_wf (p : Fin 3) (e : Envelope) (s : State) (hw : tabWf memDefault s.mem = true) : tabWf memDefault (stateOr (execFolioQuery p e s) s).mem = true := by
  unfold execFolioQuery
  simp only [takeFolio_wf, stateOr_next, hw]

theorem execFolioHeader_wf (p : Fin 3) (e : Envelope) (s : State) (hw : tabWf memDefault s.mem = true) : tabWf memDefault (stateOr (execFolioHeader p e s) s).mem = true := by
  unfold execFolioHeader
  simp only [takeFolio_wf, stateOr_next, hw]

theorem advanceHandover_wf (s : State) (hw : tabWf memDefault s.mem = true) : tabWf memDefault (advanceHandover s).mem = true := by
  unfold advanceHandover
  split <;> simp only [programHeader_wf, ↓onUpd_mem, ↓arbDecide_mem, ↓endRequest_mem, ↓setReg_mem, apply_ite State.mem, apply_ite (tabWf memDefault), ite_self, hw]

theorem chooseSlot_wf (s : State) (hw : tabWf memDefault s.mem = true) : tabWf memDefault (chooseSlot s).2.mem = true := by
  have hn : ∀ y x, tabWf memDefault x.mem = true → tabWf memDefault (noteFallback y x).mem = true := fun y x h => (noteFallback_mem y x).symm ▸ h
  unfold chooseSlot
  split
  · split
    · exact writeHeader_wf _ _ hw
    · exact hw
  · dsimp only
    (repeat' split) <;> first | exact hw | exact writeHeader_wf _ _ hw | exact hn _ _ (writeHeader_wf _ _ hw)
theorem chooseByMode_wf (mode : Nat) (s : State) (hw : tabWf memDefault s.mem = true) : tabWf memDefault (chooseByMode mode s).2.mem = true := by
  unfold chooseByMode
  split
  · exact chooseSlot_wf _ hw
  · split <;> exact hw
theorem execHandoverDone_wf (withRecord : Bool) (s : State) (hw : tabWf memDefault s.mem = true) : tabWf memDefault (stateOr (execHandoverDone withRecord s) s).mem = true := by
  unfold execHandoverDone
  dsimp only
  have h0 := advanceHandover_wf s hw
  generalize advanceHandover s = x at h0
  split
  · exact hw
  split
  · exact hw
  have h1 : tabWf memDefault (setReg (onUpd (fun u => { u with handover := none }) x) R.ARB_PRESENT (getReg (onUpd (fun u => { u with handover := none }) x) R.ARB_PRESENT ||| 2)).mem = true := by
    rw [setReg_mem, onUpd_mem]; exact h0
  generalize setReg (onUpd (fun u => { u with handover := none }) x) R.ARB_PRESENT (getReg (onUpd (fun u => { u with handover := none }) x) R.ARB_PRESENT ||| 2) = y at h1
  have h2 := chooseSlot_wf y h1
  split
  · rename_i e; rw [e] at h2; rw [stateOr_next, enterRecovery_mem]; exact h2
  · rename_i e; rw [e] at h2
    rw [stateOr_next, selfTestKick_mem, updNotice_mem, bump_mem]
    split
    · rw [setB_mem, startSlot_mem]; exact h2
    · rw [loseRecord_mem, setB_mem, setB_mem, startSlot_mem]; exact h2

theorem execRecoveryFrame_wf (bs : List Byte) (s : State) (hw : tabWf memDefault s.mem = true) : tabWf memDefault (stateOr (execRecoveryFrame bs s) s).mem = true := by
  unfold execRecoveryFrame
  grind [onUpd_mem, judgeFolio_wf, stateOr, Clock.state, fresh, foldl_mem, foldl_wf]

theorem activate_wf (s : State) (hw : tabWf memDefault s.mem = true) : tabWf memDefault (activate s).mem = true := by
  unfold activate
  split <;> simp only [advanceHandover_wf, ↓onUpd_mem, ↓clearSession_mem, ↓updRefuse_mem, apply_ite State.mem, apply_ite (tabWf memDefault), ite_self, hw]

theorem confirmTrial_wf (id : MasterId) (s : State) (hw : tabWf memDefault s.mem = true) : tabWf memDefault (confirmTrial id s).mem = true := by
  unfold confirmTrial
  simp only [↓updRefuse_mem, writeHeader_wf, ↓updNotice_mem, ↓setB_mem, apply_ite State.mem, apply_ite (tabWf memDefault), ite_self, hw]

theorem abortSession_wf (s : State) (hw : tabWf memDefault s.mem = true) : tabWf memDefault (abortSession s).mem = true := by
  unfold abortSession
  split <;> simp only [↓updRefuse_mem, ↓onUpd_mem, closeSession_wf, apply_ite State.mem, apply_ite (tabWf memDefault), ite_self, hw]

theorem writeUpdCtl_wf (id : MasterId) (v : Word) (s : State) (hw : tabWf memDefault s.mem = true) : tabWf memDefault (writeUpdCtl id v s).mem = true := by
  unfold writeUpdCtl
  grind [plainWrite_mem, activate_wf, confirmTrial_wf, abortSession_wf, stateOr, Clock.state, fresh, foldl_mem, foldl_wf]

theorem execUpdActivate_wf (m : Master) (v : Word) (s : State) (hw : tabWf memDefault s.mem = true) : tabWf memDefault (stateOr (execUpdActivate m v s) s).mem = true := by
  unfold execUpdActivate
  simp +contextual only [guardWrite_wf, writeUpdCtl_wf, stateOr_next, implies_true, hw]

theorem finishRecovery_wf (x : UpdSession) (s : State) (hw : tabWf memDefault s.mem = true) : tabWf memDefault (finishRecovery x s).mem = true := by
  unfold finishRecovery
  simp only [↓clearSession_mem, writeHeader_wf, nodeReset_wf, ↓setF_mem, hw]

theorem execUpdConfirm_wf (m : Master) (v : Word) (s : State) (hw : tabWf memDefault s.mem = true) : tabWf memDefault (stateOr (execUpdConfirm m v s) s).mem = true := by
  unfold execUpdConfirm
  simp +contextual only [guardWrite_wf, writeUpdCtl_wf, stateOr_next, implies_true, hw]

theorem execTrialExpiry_wf (s : State) (hw : tabWf memDefault s.mem = true) : tabWf memDefault (stateOr (execTrialExpiry s) s).mem = true := by
  unfold execTrialExpiry
  simp only [advanceHandover_wf, ↓onUpd_mem, ↓noteFallback_mem, ↓setB_mem, apply_ite State.mem, apply_ite (tabWf memDefault), ite_self, stateOr_next, stateOr_ite, hw]

theorem execVerifyDone_wf (s : State) (hw : tabWf memDefault s.mem = true) : tabWf memDefault (stateOr (execVerifyDone s) s).mem = true := by
  unfold execVerifyDone
  split <;> simp only [↓putSession_mem, ↓sendAck_mem, ↓updNotice_mem, finishRecovery_wf, ↓failSession_mem, apply_ite State.mem, apply_ite (tabWf memDefault), ite_self, stateOr_next, stateOr_ite, hw]

theorem execUpdAbort_wf (m : Master) (v : Word) (s : State) (hw : tabWf memDefault s.mem = true) : tabWf memDefault (stateOr (execUpdAbort m v s) s).mem = true := by
  unfold execUpdAbort
  simp +contextual only [guardWrite_wf, writeUpdCtl_wf, stateOr_next, implies_true, hw]

theorem bootImage_wf (soFailed : Bool) (s : State) (hw : tabWf memDefault s.mem = true) : tabWf memDefault (bootImage soFailed s).mem = true := by
  unfold bootImage
  extract_lets mode fails s1
  have h1 : tabWf memDefault s1.mem = true := by
    rw [show s1.mem = s.mem from (bump_mem _ _).trans (setF_mem _ _ _ _)]; exact hw
  clear_value s1
  have h2 : tabWf memDefault (if 4 ≤ fails then (none, s1) else chooseByMode mode s1).2.mem = true := by
    split
    · exact h1
    · exact chooseByMode_wf _ _ h1
  split
  · rename_i e; rw [e] at h2; rw [enterRecovery_mem]; exact h2
  · rename_i e; rw [e] at h2
    dsimp only
    rw [startApply_mem]
    split
    · rw [bistNotice_mem, startSlot_mem]; exact h2
    · rw [startSlot_mem]; exact h2

theorem writeFolio_wf (x : UpdSession) (b : Assembly) (good : Bool) (s : State) (hw : tabWf memDefault s.mem = true) : tabWf memDefault (writeFolio x b good s).mem = true := by
  unfold writeFolio
  grind [onUpd_mem, bump_mem, eraseFlash_wf, setBytes_wf, failSession_mem, putSession_mem, sendAck_mem, stateOr, Clock.state, fresh, foldl_mem, foldl_wf]

theorem execFolioWrite_wf (f : Nat) (good : Bool) (s : State) (hw : tabWf memDefault s.mem = true) : tabWf memDefault (stateOr (execFolioWrite f good s) s).mem = true := by
  unfold execFolioWrite
  split <;> simp only [writeFolio_wf, apply_ite State.mem, apply_ite (tabWf memDefault), ite_self, stateOr_next, stateOr_ite, hw]

theorem execRomBoot_wf (sfdp : Option (Nat × Bool)) (sram : Bool) (office : Bool) (s : State) (hw : tabWf memDefault s.mem = true) : tabWf memDefault (stateOr (execRomBoot sfdp sram office s) s).mem = true := by
  unfold execRomBoot
  simp only [↓restartWdog_mem, ↓onUpd_mem, ↓onInteg_mem, ↓setB_mem, ↓showFlash_mem, bootImage_wf, apply_ite State.mem, apply_ite (tabWf memDefault), ite_self, stateOr_next, stateOr_ite, hw]

theorem execFolioPart_wf (p : Fin 3) (e : Envelope) (s : State) (hw : tabWf memDefault s.mem = true) : tabWf memDefault (stateOr (execFolioPart p e s) s).mem = true := by
  unfold execFolioPart
  simp only [takeFolio_wf, stateOr_next, hw]

theorem writeNode_wf (m : Master) (base : Nat) (i : Nat) (v : Word) (s : State) (hw : tabWf memDefault s.mem = true) : tabWf memDefault ((writeNode m base i v s).getD s).mem = true := by
  unfold writeNode
  (repeat' split) <;> simp only [↓writeNodeCtl_mem, nodeReset_wf, ↓writeNodeWdog_mem, writeNodeUrst_wf, ↓plainWrite_mem, writeUpdCtl_wf, ↓writeFuseCmd_mem, ↓writeKeyStage_mem, Option.getD_some, Option.getD_none, hw]

theorem writeScribe_wf (base : Nat) (i : Nat) (j : Nat) (v : Word) (s : State) (hw : tabWf memDefault s.mem = true) : tabWf memDefault ((writeScribe base i j v s).getD s).mem = true := by
  unfold writeScribe
  (repeat' split) <;> simp only [↓writeEngineReg_mem, writeScrCtl_wf, writeCsync_wf, ↓writeScrFlags_mem, ↓writeClkdiv_mem, ↓writeInject_mem, ↓writePc_mem, ↓writeTxf_mem, ↓writeDma_mem, Option.getD_some, Option.getD_none, hw]

theorem writeBuses_wf (base : Nat) (i : Nat) (j : Nat) (a : Nat) (v : Word) (s : State) (hw : tabWf memDefault s.mem = true) : tabWf memDefault ((writeBuses base i j a v s).getD s).mem = true := by
  unfold writeBuses
  (repeat' split) <;> simp only [writeMbCtlOpen_wf, ↓writeMbTiming_mem, ↓requestObj_mem, ↓cancelObj_mem, ↓clearNew_mem, ↓writeTtCfg_mem, ↓writeTrig_mem, writeGwCtl_wf, writeMap_wf, implies_true, Option.getD_some, Option.getD_none, foldl_mem, hw]

theorem writeUnits_wf (base : Nat) (i : Nat) (a : Nat) (v : Word) (s : State) (hw : tabWf memDefault s.mem = true) : tabWf memDefault ((writeUnits base i a v s).getD s).mem = true := by
  unfold writeUnits
  (repeat' split) <;> simp only [↓writeUaCtl_mem, ↓writeUaTiming_mem, ↓writeTxd_mem, ↓writeUaImg_mem, writeEnCtl_wf, ↓writeEnMod_mem, ↓writeEnCount_mem, ↓writeImg2_mem, writeMpCtl_wf, Option.getD_some, Option.getD_none, hw]

theorem writeTimes_wf (id : MasterId) (base : Nat) (i : Nat) (j : Nat) (a : Nat) (v : Word) (s : State) (hw : tabWf memDefault s.mem = true) : tabWf memDefault ((writeTimes id base i j a v s).getD s).mem = true := by
  unfold writeTimes
  simp only [getD_ite, Option.getD_some, Option.getD_none, apply_ite State.mem, apply_ite (tabWf memDefault), writeTtCtl_wf, writeTtCycle_mem, writeTtT0_mem, stageTtT0_mem,
    commitTtEntry_mem, stageTtEntry_mem, commitInc_mem, commitStep_mem, commitVd_mem, writeVdCtl_mem, writeTm_mem, ite_self, hw]

theorem writeMotion_wf (id : MasterId) (base : Nat) (i : Nat) (v : Word) (s : State) (hw : tabWf memDefault s.mem = true) : tabWf memDefault ((writeMotion id base i v s).getD s).mem = true := by
  unfold writeMotion
  (repeat' split) <;> simp_all only [writeTkCfg_wf, writeTkCtl_wf, writeTkPos_wf, writeTkRcfg_wf, ↓writeTkCarm_mem, writeWmCtl_wf, whileFollowing_wf, ↓writeDpxCtl_mem, ↓writeFmask_mem, implies_true, Option.getD_some, Option.getD_none]

theorem writePins_wf (base i : Nat) (v : Word) (s : State) (t : State × Option Reason) (hw : tabWf memDefault s.mem = true)
    (h : writePins base i v s = some t) : tabWf memDefault t.1.mem = true := by
  unfold writePins at h; grind [writePinCfg_mem, writePinOut_mem, writePinMap_mem, writeBankCfg_wf, writeBankOut_mem]
theorem regWrite_wf (m : Master) (a : Nat) (v : Word) (s : State) (hw : tabWf memDefault s.mem = true) : tabWf memDefault (regWrite m a v s).1.mem = true := by
  unfold regWrite
  extract_lets id
  split
  · exact hw
  · rename_i r i j _
    have ho : tabWf memDefault ((if a < 0x20000 then writeNode m r.base i v s
      else if a < 0x30000 then none
      else if a < 0x40000 then writeScribe r.base i j v s
      else if a < 0x50000 then writeBuses r.base i j a v s
      else if a < 0x60000 then writeUnits r.base i a v s
      else if a < 0x80000 then writeLocal id r.base i j v s
      else if a < 0xA0000 then writeRing r.base i a v s
      else if a < 0xB0000 then writeTimes id r.base i j a v s
      else if a < 0xD0000 then writeMotion id r.base i v s
      else writePower id r.base i a v s : Option State).getD s).mem = true := by
      simp only [getD_ite, Option.getD_none, apply_ite State.mem, apply_ite (tabWf memDefault), writeNode_wf, writeScribe_wf, writeBuses_wf, writeUnits_wf, writeLocal_mem,
        writeRing_mem, writeTimes_wf, writeMotion_wf, writePower_mem, ite_self, hw]
    extract_lets own
    change tabWf memDefault (own.getD s).mem = true at ho
    clear_value own
    split
    · exact hw
    · split
      · cases e : writePins r.base i v s with
        | none => exact (writePlain_mem _ _ _ _).symm ▸ hw
        | some t => exact writePins_wf _ _ _ _ _ hw e
      · cases own with
        | none => exact (writePlain_mem _ _ _ _).symm ▸ hw
        | some t => exact ho

theorem memWrite_wf (a : Nat) (bs : List Byte) (pois : Bool) (s : State) (hw : tabWf memDefault s.mem = true) : tabWf memDefault (memWrite a bs pois s).1.mem = true := by
  unfold memWrite
  (repeat' split) <;> simp only [↓writeStore_mem, masterWrite_wf, ↓noteStored_mem, hw]

theorem busWrite_wf (m : Master) (lock : Bool) (a : Nat) (bs : List Byte) (pois : Bool) (s : State) (hw : tabWf memDefault s.mem = true) : tabWf memDefault (busWrite m lock a bs pois s).1.mem = true := by
  unfold busWrite
  grind [refuse_mem, regWrite_wf, dropOverlap_mem, memWrite_wf, stateOr, Clock.state, fresh, foldl_mem, foldl_wf]

theorem answerWrite_mem (p : State × Option Reason) : (answerWrite p).mem = p.1.mem := by
  unfold answerWrite; grind [answer_mem]
theorem answerWrite_wf (p : State × Option Reason) (hw : tabWf memDefault p.1.mem = true) : tabWf memDefault (answerWrite p).mem = true := by
  rw [answerWrite_mem]; exact hw
theorem writeAccess_wf (m : Master) (a : Nat) (bs : List Byte) (s : State) (hw : tabWf memDefault s.mem = true) : tabWf memDefault (writeAccess m a bs s).mem = true := by
  unfold writeAccess
  simp only [↓answerWrite_mem, busWrite_wf, ↓answer_mem, apply_ite State.mem, apply_ite (tabWf memDefault), ite_self, hw]

theorem wordWrite_wf (m : Master) (a : Nat) (v : Word) (s : State) (hw : tabWf memDefault s.mem = true) : tabWf memDefault (wordWrite m a v s).mem = true := by
  unfold wordWrite
  simp only [nodeCtlAccess_wf, writeAccess_wf, apply_ite State.mem, apply_ite (tabWf memDefault), ite_self, hw]

theorem execSoResWrite_wf (m : Master) (a : Word) (v : Word) (s : State) (hw : tabWf memDefault s.mem = true) : tabWf memDefault (stateOr (execSoResWrite m a v s) s).mem = true := by
  unfold execSoResWrite
  simp only [wordWrite_wf, stateOr_next, hw]

theorem execWideHiWrite_wf (m : Master) (a : Word) (v : Word) (s : State) (hw : tabWf memDefault s.mem = true) : tabWf memDefault (stateOr (execWideHiWrite m a v s) s).mem = true := by
  unfold execWideHiWrite
  simp only [wordWrite_wf, stateOr_next, hw]

theorem execWideLoWrite_wf (m : Master) (a : Word) (v : Word) (s : State) (hw : tabWf memDefault s.mem = true) : tabWf memDefault (stateOr (execWideLoWrite m a v s) s).mem = true := by
  unfold execWideLoWrite
  simp only [wordWrite_wf, stateOr_next, hw]

theorem execRegisterWrite_wf (m : Master) (a : Word) (width : Nat) (v : DWord) (s : State) (hw : tabWf memDefault s.mem = true) : tabWf memDefault (stateOr (execRegisterWrite m a width v s) s).mem = true := by
  unfold execRegisterWrite
  simp only [nodeCtlAccess_wf, writeAccess_wf, apply_ite State.mem, apply_ite (tabWf memDefault), ite_self, stateOr_next, hw]

theorem writeBeat_wf (c : Current) (b : Nat × Nat) (s : State) (hw : tabWf memDefault s.mem = true) : tabWf memDefault (writeBeat c b s).1.mem = true := by
  unfold writeBeat
  simp only [↓consumePoison_mem, busWrite_wf, apply_ite State.mem, ite_self, hw]

theorem writePiece_wf (c : Current) (p : Nat × Nat) (s : State) (hw : tabWf memDefault s.mem = true) : tabWf memDefault (writePiece c p s).1.mem = true := by
  unfold writePiece
  split
  · rename_i t r e
    obtain ⟨b, _, hb⟩ := List.exists_of_findSome?_eq_some e
    rcases h : (writeBeat c b s).2 with _ | q
    · rw [h] at hb; cases hb
    · rw [h] at hb; cases hb; exact writeBeat_wf _ _ _ hw
  · exact foldl_wf _ (fun x b hx => writeBeat_wf _ _ _ hx) _ _ hw

theorem performPiece_wf (bad : BitVec 2) (f : Found) (c : Current) (p : Nat × Nat) (s : State) (hw : tabWf memDefault s.mem = true) : tabWf memDefault (performPiece bad f c p s).mem = true := by
  unfold performPiece
  grind [beginLock_mem, writePiece_wf, failPiece_mem, nextPiece_mem, endRequest_mem, openBeat_mem, readBeats_mem, stateOr, Clock.state, fresh, foldl_mem, foldl_wf]

theorem tryPiece_wf (bad : BitVec 2) (f : Found) (c : Current) (p : Nat × Nat) (s : State) (hw : tabWf memDefault s.mem = true) : tabWf memDefault (tryPiece bad f c p s).mem = true := by
  unfold tryPiece
  simp only [↓acquire_mem, performPiece_wf, apply_ite State.mem, apply_ite (tabWf memDefault), ite_self, hw]

theorem execInboundPiece_wf (bad : BitVec 2) (found : Found) (s : State) (hw : tabWf memDefault s.mem = true) : tabWf memDefault (stateOr (execInboundPiece bad found s) s).mem = true := by
  unfold execInboundPiece
  (repeat' split) <;> simp only [↓failPiece_mem, tryPiece_wf, stateOr_next, hw]

theorem manifestRecord_wf (ok : Bool) (act : State → State) (s : State) (h0 : ∀ x, tabWf memDefault x.mem = true → tabWf memDefault (act x).mem = true) (hw : tabWf memDefault s.mem = true) : tabWf memDefault (manifestRecord ok act s).mem = true := by
  unfold manifestRecord
  simp only [h0, ↓failApply_mem, apply_ite State.mem, apply_ite (tabWf memDefault), ite_self, hw]

theorem firmwareWrites_wf (w : Nat) (x0 : Nat) (x1 : List Nat) (s : State) (hw : tabWf memDefault s.mem = true) : tabWf memDefault (firmwareWrites w x0 x1 s).1.mem = true := by
  induction x1 generalizing s x0 with
  | nil => exact hw
  | cons v vs ih =>
    have h := busWrite_wf (.loc 0) false x0 (leBytes w v) false s hw
    unfold firmwareWrites
    split
    · rename_i e; rw [e] at h; exact ih _ _ h
    · rename_i e; rw [e] at h; exact h

theorem writeRecord_wf (w : Nat) (a : Nat) (vs : List Nat) (s : State) (hw : tabWf memDefault s.mem = true) : tabWf memDefault (writeRecord w a vs s).mem = true := by
  unfold writeRecord
  grind [manifestRecord_wf, firmwareWrites_wf, recordDone_mem, failApply_mem, stateOr, Clock.state, fresh, foldl_mem, foldl_wf]

theorem execMfWrite32_wf (a : Word) (ws : List Word) (s : State) (hw : tabWf memDefault s.mem = true) : tabWf memDefault (stateOr (execMfWrite32 a ws s) s).mem = true := by
  unfold execMfWrite32
  simp only [writeRecord_wf, stateOr_next, hw]

theorem execMfWrite16_wf (a : Word) (hs : List (BitVec 16)) (s : State) (hw : tabWf memDefault s.mem = true) : tabWf memDefault (stateOr (execMfWrite16 a hs s) s).mem = true := by
  unfold execMfWrite16
  simp only [writeRecord_wf, stateOr_next, hw]

theorem terminalLine_wf (open_ : Bool) (act : State → State) (s : State) (h0 : ∀ x, tabWf memDefault x.mem = true → tabWf memDefault (act x).mem = true) (hw : tabWf memDefault s.mem = true) : tabWf memDefault (terminalLine open_ act s).mem = true := by
  unfold terminalLine
  simp only [h0, ↓onUpd_mem, ↓endLine_mem, apply_ite State.mem, apply_ite (tabWf memDefault), ite_self, hw]

theorem writeOne_wf (m : Master) (a : Nat) (n : Nat) (v : Nat) (s : State) (hw : tabWf memDefault s.mem = true) : tabWf memDefault (writeOne m a n v s).1.mem = true := by
  unfold writeOne
  grind [busWrite_wf, stateOr, Clock.state, fresh, foldl_mem, foldl_wf]

theorem withReg_wf (m : Master) (a : Nat) (f : Nat → State → Ran) (s : State) (h0 : ∀ y0 x, tabWf memDefault x.mem = true → tabWf memDefault (f y0 x).1.mem = true) (hw : tabWf memDefault s.mem = true) : tabWf memDefault (withReg m a f s).1.mem = true := by
  unfold withReg
  grind [busRead_mem, stateOr, Clock.state, fresh, foldl_mem, foldl_wf]

theorem andThen_wf (p : Ran) (f : State → Ran) (h : ∀ x, tabWf memDefault x.mem = true → tabWf memDefault (f x).1.mem = true)
    (hw : tabWf memDefault p.1.mem = true) : tabWf memDefault (p.andThen f).1.mem = true := by
  unfold Ran.andThen
  split
  · exact h _ hw
  · exact hw
theorem writeRow_wf (m : Master) (n : Nat) (x0 : Nat) (x1 : List Nat) (s : State) (hw : tabWf memDefault s.mem = true) : tabWf memDefault (writeRow m n x0 x1 s).1.mem = true := by
  induction x1 generalizing s x0 with
  | nil => exact hw
  | cons p ps ih => unfold writeRow; exact andThen_wf _ _ (fun x hx => ih _ x hx) (writeOne_wf _ _ _ _ _ hw)

theorem carryOut_wf (m : Master) (c : MonCmd) (s : State) (hw : tabWf memDefault s.mem = true) : tabWf memDefault (carryOut m c s).1.mem = true := by
  unfold carryOut
  extract_lets full
  have hg : ∀ rs x, tabWf memDefault x.mem = true → tabWf memDefault (readRegs m rs x).1.mem = true := fun _ x h => (readRegs_mem _ _ x).symm ▸ h
  have ha : ∀ rs x, tabWf memDefault x.mem = true → tabWf memDefault (readAll m rs x).1.mem = true := fun _ x h => (readAll_mem _ _ x).symm ▸ h
  cases c with
  | waymark i arm =>
    cases arm with
    | none => exact hg _ _ hw
    | some b => exact withReg_wf _ _ _ _ (fun y0 x h => writeOne_wf _ _ _ _ _ h) hw
  | bist t =>
    dsimp only
    have h := writeOne_wf m R.BIST_CMD 4 (F.BIST_CMD_GO.put (BitVec.ofNat 32 t) 1).toNat s hw
    split
    · rename_i u vs e
      rw [e] at h
      split
      · exact h
      · exact hg _ _ h
    · exact h
  | baud rate =>
    dsimp only
    split
    · exact withReg_wf _ _ _ _ (fun y0 x h => writeOne_wf _ _ _ _ _ h) hw
    · exact hw
  | id => exact hg _ _ hw
  | peek a n => exact ha _ _ hw
  | poke a v => exact writeOne_wf _ _ _ _ _ hw
  | dump a n => exact ha _ _ hw
  | census => exact hg _ _ hw
  | snap i => exact writeOne_wf _ _ _ _ _ hw
  | snapAt i ns => exact (sendMark_mem _ _ _).symm ▸ hw
  | dl => exact withReg_wf _ _ _ _ (fun y0 x h => withReg_wf _ _ _ _ (fun y1 x h => hg _ _ h) h) hw
  | dlFree => exact withReg_wf _ _ _ _ (fun y0 x h => writeOne_wf _ _ _ _ _ h) hw
  | load k a ws => exact writeRow_wf _ _ _ _ _ hw
  | inject e v => exact writeOne_wf _ _ _ _ _ hw
  | step e => exact withReg_wf _ _ _ _ (fun y0 x h => andThen_wf _ _ (fun z hz => hg _ _ hz) (writeOne_wf _ _ _ _ _ h)) hw
  | track n => exact hg _ _ hw
  | power => exact hg _ _ hw
  | updateStatus => exact hg _ _ hw

theorem runCommand_wf (who : MonAsker) (m : Master) (c : MonCmd) (s : State) (hw : tabWf memDefault s.mem = true) : tabWf memDefault (runCommand who m c s).mem = true := by
  unfold runCommand
  grind [carryOut_wf, startCommand_mem, endCommand_mem, stateOr, Clock.state, fresh, foldl_mem, foldl_wf]

theorem typed_wf (c : MonCmd) (s : State) (hw : tabWf memDefault s.mem = true) : tabWf memDefault (stateOr (typed c s) s).mem = true := by
  unfold typed
  grind [terminalLine_wf, endOpen_mem, sendLine_mem, runCommand_wf, stateOr, Clock.state, fresh, foldl_mem, foldl_wf]

theorem execMonUpdateStatus_wf (s : State) (hw : tabWf memDefault s.mem = true) : tabWf memDefault (stateOr (execMonUpdateStatus s) s).mem = true := by
  unfold execMonUpdateStatus
  simp only [typed_wf, hw]

theorem monitorRow_wf (typ : Nat) (e : Envelope) (act : Envelope → State → State) (s : State) (h0 : ∀ y0 x, tabWf memDefault x.mem = true → tabWf memDefault (act y0 x).mem = true) (hw : tabWf memDefault s.mem = true) : tabWf memDefault (stateOr (monitorRow typ e act s) s).mem = true := by
  unfold monitorRow
  simp only [h0, ↓takeDelivered_mem, apply_ite State.mem, apply_ite (tabWf memDefault), ite_self, stateOr_next, hw]

theorem execMonPoke_wf (a : Word) (v : Word) (s : State) (hw : tabWf memDefault s.mem = true) : tabWf memDefault (stateOr (execMonPoke a v s) s).mem = true := by
  unfold execMonPoke
  simp only [typed_wf, hw]

theorem execMonScribeInject_wf (e : Fin 64) (v : BitVec 16) (s : State) (hw : tabWf memDefault s.mem = true) : tabWf memDefault (stateOr (execMonScribeInject e v s) s).mem = true := by
  unfold execMonScribeInject
  simp only [typed_wf, hw]

theorem execMonId_wf (s : State) (hw : tabWf memDefault s.mem = true) : tabWf memDefault (stateOr (execMonId s) s).mem = true := by
  unfold execMonId
  simp only [typed_wf, hw]

theorem execMonWaymark_wf (i : Fin 4096) (arm : Option Bool) (s : State) (hw : tabWf memDefault s.mem = true) : tabWf memDefault (stateOr (execMonWaymark i arm s) s).mem = true := by
  unfold execMonWaymark
  simp only [typed_wf, hw]

theorem execMonDlFree_wf (s : State) (hw : tabWf memDefault s.mem = true) : tabWf memDefault (stateOr (execMonDlFree s) s).mem = true := by
  unfold execMonDlFree
  simp only [typed_wf, hw]

theorem execMonCensus_wf (s : State) (hw : tabWf memDefault s.mem = true) : tabWf memDefault (stateOr (execMonCensus s) s).mem = true := by
  unfold execMonCensus
  simp only [typed_wf, hw]

theorem execMonSnapAt_wf (id : BitVec 16) (ns : DWord) (s : State) (hw : tabWf memDefault s.mem = true) : tabWf memDefault (stateOr (execMonSnapAt id ns s) s).mem = true := by
  unfold execMonSnapAt
  simp only [typed_wf, hw]

theorem execMonDump_wf (a : Word) (bytes : Nat) (s : State) (hw : tabWf memDefault s.mem = true) : tabWf memDefault (stateOr (execMonDump a bytes s) s).mem = true := by
  unfold execMonDump
  simp only [typed_wf, hw]

theorem execMonScribeStep_wf (e : Fin 64) (s : State) (hw : tabWf memDefault s.mem = true) : tabWf memDefault (stateOr (execMonScribeStep e s) s).mem = true := by
  unfold execMonScribeStep
  simp only [typed_wf, hw]

theorem execMonBist_wf (target : Byte) (s : State) (hw : tabWf memDefault s.mem = true) : tabWf memDefault (stateOr (execMonBist target s) s).mem = true := by
  unfold execMonBist
  simp only [typed_wf, hw]

theorem execMonBaud_wf (rate : Nat) (s : State) (hw : tabWf memDefault s.mem = true) : tabWf memDefault (stateOr (execMonBaud rate s) s).mem = true := by
  unfold execMonBaud
  simp only [typed_wf, hw]

theorem execMonTrack_wf (n : Fin 16) (s : State) (hw : tabWf memDefault s.mem = true) : tabWf memDefault (stateOr (execMonTrack n s) s).mem = true := by
  unfold execMonTrack
  simp only [typed_wf, hw]

theorem execMonDl_wf (s : State) (hw : tabWf memDefault s.mem = true) : tabWf memDefault (stateOr (execMonDl s) s).mem = true := by
  unfold execMonDl
  simp only [typed_wf, hw]

theorem execMonScribeLoad_wf (k : Fin 16) (a : Nat) (words : List (BitVec 16)) (s : State) (hw : tabWf memDefault s.mem = true) : tabWf memDefault (stateOr (execMonScribeLoad k a words s) s).mem = true := by
  unfold execMonScribeLoad
  simp +contextual only [terminalLine_wf, ↓endLine_mem, typed_wf, apply_ite State.mem, apply_ite (tabWf memDefault), ite_self, stateOr_next, stateOr_ite, implies_true, hw]

theorem execMonSnap_wf (id : BitVec 16) (s : State) (hw : tabWf memDefault s.mem = true) : tabWf memDefault (stateOr (execMonSnap id s) s).mem = true := by
  unfold execMonSnap
  simp only [typed_wf, hw]

theorem execMonPeek_wf (a : Word) (n : Nat) (s : State) (hw : tabWf memDefault s.mem = true) : tabWf memDefault (stateOr (execMonPeek a n s) s).mem = true := by
  unfold execMonPeek
  simp only [typed_wf, hw]

theorem execMonitorLine_wf (e : Envelope) (s : State) (hw : tabWf memDefault s.mem = true) : tabWf memDefault (stateOr (execMonitorLine e s) s).mem = true := by
  unfold execMonitorLine
  grind [monitorRow_wf, takeDelivered_mem, onMon_mem, runCommand_wf, endCommand_mem, startCommand_mem, stateOr, Clock.state, fresh, foldl_mem, foldl_wf]

theorem execMonPower_wf (s : State) (hw : tabWf memDefault s.mem = true) : tabWf memDefault (stateOr (execMonPower s) s).mem = true := by
  unfold execMonPower
  simp only [typed_wf, hw]

theorem tick_wf (s : State) (hw : tabWf memDefault s.mem = true) : tabWf memDefault (tick s).mem = true := by
  unfold tick
  simp only [↓fclkEdge_mem, ↓flushOutbox_mem, ↓paceCells_mem, ↓switchSlot_mem, ↓retryPartners_mem, ↓retrySamples_mem, copiesOut_wf, ↓arbDecide_mem, ↓onNotices_mem, apply_ite State.mem, apply_ite (tabWf memDefault), ite_self, implies_true, foldl_mem, hw]

end Sys2Proof.Machine
end

