-- ==== Sys2Proof/Laws/Queue1.lean ====
section
/-! SUPPORT. Every operation and meaning leaves the queue of commands as it is. The operations and meanings of Ops, ReadAhead, Access, Notices, Arbiter, Flash, Routing, Office, Ports. -/

namespace Sys2Proof.Machine

theorem lostItem_pending (q : Nat) (s : State) : (lostItem q s).pending = s.pending := by
  unfold lostItem
  simp only [↓bump_pending, ↓setB_pending]

theorem postPm_pending (q : Nat) (cap : Nat) (inst : Nat) (code : Nat) (arg : Nat) (pm : DWord) (s : State) : (postPm q cap inst code arg pm s).pending = s.pending := by
  unfold postPm
  simp only [↓onNotices_pending, ↓lostItem_pending, apply_ite State.pending, ite_self]

theorem post_pending (q : Nat) (cap : Nat) (inst : Nat) (code : Nat) (arg : Nat) (s : State) : (post q cap inst code arg s).pending = s.pending := by
  unfold post
  simp only [↓postPm_pending]

theorem setBytes_pending (s : State) (a : Nat) (x0 : List Byte) : (setBytes s a x0).pending = s.pending := by
  induction x0 generalizing s a with
  | nil => rfl
  | cons b bs ih => simp only [setBytes, ih, setByte_pending]

theorem setMem32_pending (s : State) (a : Nat) (w : Word) : (setMem32 s a w).pending = s.pending := by
  unfold setMem32
  simp only [↓setBytes_pending]

theorem setPh_pending (s : State) (q : Nat) (p : PhQueue) : (setPh s q p).pending = s.pending := by
  unfold setPh
  simp only [↓onNotices_pending]

theorem setPort_pending (s : State) (p : Nat) (t : PortState) : (setPort s p t).pending = s.pending := by
  unfold setPort
  simp only

theorem setMem64_pending (s : State) (a : Nat) (w : DWord) : (setMem64 s a w).pending = s.pending := by
  unfold setMem64
  simp only [↓setBytes_pending]

theorem fresh_pending (n : Nat) (s : State) : (fresh n s).2.pending = s.pending := by
  unfold fresh
  simp only [↓onNode_pending]

theorem postOpen_pending (q : Nat) (cap : Nat) (inst : Nat) (s : State) : (postOpen q cap inst s).pending = s.pending := by
  unfold postOpen
  simp only [↓fresh_pending, ↓post_pending]

theorem setItb_pending (s : State) (n : Nat) (t : Itb) : (setItb s n t).pending = s.pending := by
  unfold setItb
  simp only

theorem rewritten_pending (a : Nat) (s : State) : (rewritten a s).pending = s.pending := by
  unfold rewritten
  simp only

theorem postOnce_pending (q : Nat) (cap : Nat) (inst : Nat) (code : Nat) (arg : Nat) (s : State) : (postOnce q cap inst code arg s).pending = s.pending := by
  unfold postOnce
  simp only [↓post_pending, ↓onNotices_pending, apply_ite State.pending, ite_self]

theorem dlNotice_pending (code : Nat) (arg : Nat) (s : State) : (dlNotice code arg s).pending = s.pending := by
  unfold dlNotice
  simp only [↓post_pending, apply_ite State.pending, ite_self]

theorem setBuf_pending (k : Nat) (b : Option ReadAhead) (s : State) : (setBuf k b s).pending = s.pending := by
  unfold setBuf
  simp only [↓onBridge_pending]

theorem consumePoison_pending (row : Nat) (s : State) : (consumePoison row s).pending = s.pending := by
  unfold consumePoison
  simp only [↓bump_pending]

theorem discardBuffer_pending (why : Nat) (b : ReadAhead) (s : State) : (discardBuffer why b s).pending = s.pending := by
  unfold discardBuffer
  simp only [↓bump_pending, ↓setB_pending, ↓dlNotice_pending, ↓onDead_pending, ↓consumePoison_pending, ↓setF_pending, apply_ite State.pending, ite_self]

theorem dropBuf_pending (why : Nat) (k : Nat) (s : State) : (dropBuf why k s).pending = s.pending := by
  unfold dropBuf
  split <;> simp only [↓discardBuffer_pending, ↓setBuf_pending]

theorem dropOverlap_pending (a : Nat) (n : Nat) (s : State) : (dropOverlap a n s).pending = s.pending := by
  unfold dropOverlap
  grind [dropBuf_pending, stateOr, Clock.state, fresh, foldl_pending]

theorem recordDenial_pending (x : Access) (s : State) : (recordDenial x s).pending = s.pending := by
  unfold recordDenial
  simp only [↓bump_pending, ↓setF_pending, ↓setReg_pending, ↓setB_pending, ↓postOnce_pending]

theorem refuse_pending (x : Access) (s : State) : (refuse x s).pending = s.pending := by
  unfold refuse
  simp only [↓recordDenial_pending, apply_ite State.pending, ite_self]

theorem guardWriteAt_pending (m : Master) (a : Nat) (width : Nat) (eff : State → State × Option Reason) (s : State) (h0 : ∀ x, (eff x).1.pending = x.pending) : (guardWriteAt m a width eff s).pending = s.pending := by
  unfold guardWriteAt
  grind [answer_pending, refuse_pending, dropOverlap_pending, stateOr, Clock.state, fresh, foldl_pending]

theorem setStage_pending (s : State) (lo : Nat) (g : Option Stage) : (setStage s lo g).pending = s.pending := by
  unfold setStage
  simp only

theorem stagePart_pending (id : MasterId) (lo : Nat) (part : Nat) (v : Word) (s : State) : (stagePart id lo part v s).pending = s.pending := by
  unfold stagePart
  simp only [↓setStage_pending]

theorem countWrite_pending (rows : List FieldRow) (old : Word) (v : Word) (s : State) : (countWrite rows old v s).pending = s.pending := by
  unfold countWrite
  simp only [↓bump_pending, apply_ite State.pending, ite_self]

theorem plainWrite_pending (a : Nat) (v : Word) (s : State) : (plainWrite a v s).pending = s.pending := by
  unfold plainWrite
  split <;> simp only [↓countWrite_pending, ↓rewritten_pending, ↓setReg_pending]

theorem declineWrite_pending (a : Nat) (v : Word) (s : State) : (declineWrite a v s).pending = s.pending := by
  unfold declineWrite
  split <;> simp only [↓countWrite_pending]

theorem coreMeets_pending (m : Master) (r : Resp) (s : State) : (coreMeets m r s).pending = s.pending := by
  unfold coreMeets
  simp only [↓consumePoison_pending, apply_ite State.pending, ite_self]

theorem guardReadP_pending (m : Master) (a : Nat) (eff : State → State × Word × Bool) (s : State) (h0 : ∀ x, (eff x).1.pending = x.pending) : (guardReadP m a eff s).pending = s.pending := by
  unfold guardReadP
  grind [answer_pending, refuse_pending, coreMeets_pending, stateOr, Clock.state, fresh, foldl_pending]

theorem guardRead_pending (m : Master) (a : Nat) (eff : State → State × Word) (s : State) (h0 : ∀ x, (eff x).1.pending = x.pending) : (guardRead m a eff s).pending = s.pending := by
  unfold guardRead
  simp only [h0, ↓guardReadP_pending, implies_true]

theorem setLatch_pending (s : State) (lo : Nat) (l : Option Latch) : (setLatch s lo l).pending = s.pending := by
  unfold setLatch
  simp only

theorem latchUpper_pending (id : MasterId) (lo : Nat) (hi : Word) (top : Word) (ext : Word) (s : State) : (latchUpper id lo hi top ext s).pending = s.pending := by
  unfold latchUpper
  simp only [↓setLatch_pending]

theorem writeInPart_pending (a : Nat) (kept : Word) (v : Word) (s : State) : (writeInPart a kept v s).pending = s.pending := by
  unfold writeInPart
  split <;> simp only [↓countWrite_pending, ↓rewritten_pending, ↓setReg_pending]

theorem guardWrite_pending (m : Master) (a : Nat) (eff : State → State × Option Reason) (s : State) (h0 : ∀ x, (eff x).1.pending = x.pending) : (guardWrite m a eff s).pending = s.pending := by
  unfold guardWrite
  simp only [h0, ↓guardWriteAt_pending, implies_true]

theorem commitWide_pending (id : MasterId) (lo : Nat) (parts : Nat) (v : Word) (s : State) : (commitWide id lo parts v s).pending = s.pending := by
  unfold commitWide
  simp only [↓setReg_pending, ↓setStage_pending, apply_ite State.pending, ite_self]

theorem denyEnvelope_pending (id : MasterId) (a : Nat) (s : State) : (denyEnvelope id a s).pending = s.pending := by
  unfold denyEnvelope
  simp only [↓recordDenial_pending]

theorem countPart_pending (a : Nat) (v : Word) (s : State) : (countPart a v s).pending = s.pending := by
  unfold countPart
  split <;> simp only [↓bump_pending, apply_ite State.pending, ite_self]

theorem enterItem_pending (q : Nat) (it : Item) (lost : Bool) (s : State) : (enterItem q it lost s).pending = s.pending := by
  unfold enterItem
  simp only [↓lostItem_pending, ↓setPh_pending, apply_ite State.pending, ite_self]

theorem pointerCheck_pending (q : Nat) (s : State) : (pointerCheck q s).pending = s.pending := by
  unfold pointerCheck
  grind [setPh_pending, setB_pending, bump_pending, fresh_pending, enterItem_pending, postPm_pending, stateOr, Clock.state, fresh, foldl_pending]

theorem execNoticeEntry_pending (cap : BitVec 16) (inst : BitVec 8) (s : State) : (stateOr (execNoticeEntry cap inst s) s).pending = s.pending := by
  unfold execNoticeEntry
  split <;> simp only [↓pointerCheck_pending, ↓onNotices_pending, ↓enterItem_pending, apply_ite State.pending, ite_self, stateOr_next, stateOr_ite]

theorem popQueue_pending (id : MasterId) (q : Nat) (bad : BitVec 2) (s : State) : (popQueue id q bad s).1.pending = s.pending := by
  unfold popQueue
  grind [setB_pending, pointerCheck_pending, setPh_pending, stateOr, Clock.state, fresh, foldl_pending]

theorem readItem_pending (id : MasterId) (q : Nat) (k : Nat) (s : State) : (readItem id q k s).1.pending = s.pending := by
  unfold readItem
  grind [setB_pending, setPh_pending, stateOr, Clock.state, fresh, foldl_pending]

theorem flushQueue_pending (q : Nat) (s : State) : (flushQueue q s).pending = s.pending := by
  unfold flushQueue
  grind [setPh_pending, setB_pending, stateOr, Clock.state, fresh, foldl_pending]

theorem writePhCfg_pending (q : Nat) (v : Word) (s : State) : (writePhCfg q v s).pending = s.pending := by
  unfold writePhCfg
  simp only [↓setB_pending, ↓declineWrite_pending, ↓plainWrite_pending, ↓flushQueue_pending, apply_ite State.pending, ite_self]

theorem writePhCtl_pending (q : Nat) (v : Word) (s : State) : (writePhCtl q v s).pending = s.pending := by
  unfold writePhCtl
  simp only [↓plainWrite_pending, ↓flushQueue_pending, apply_ite State.pending, ite_self]

theorem execFlush_pending (m : Master) (q : Fin 32) (v : Word) (s : State) : (stateOr (execFlush m q v s) s).pending = s.pending := by
  unfold execFlush
  simp only [↓guardWrite_pending, ↓writePhCtl_pending, stateOr_next, implies_true]

theorem execPhCfgWrite_pending (m : Master) (q : Fin 32) (v : Word) (s : State) : (stateOr (execPhCfgWrite m q v s) s).pending = s.pending := by
  unfold execPhCfgWrite
  simp only [↓guardWrite_pending, ↓writePhCfg_pending, stateOr_next, implies_true]

theorem execPhPop_pending (m : Master) (q : Fin 32) (bad : BitVec 2) (s : State) : (stateOr (execPhPop m q bad s) s).pending = s.pending := by
  unfold execPhPop
  simp only [↓guardReadP_pending, ↓popQueue_pending, stateOr_next, implies_true]

theorem execPhItemRead_pending (m : Master) (q : Fin 32) (k : Fin 3) (s : State) : (stateOr (execPhItemRead m q k s) s).pending = s.pending := by
  unfold execPhItemRead
  simp only [↓guardReadP_pending, ↓readItem_pending, stateOr_next, implies_true]

theorem showHolder_pending (s : State) : (showHolder s).pending = s.pending := by
  unfold showHolder
  split <;> simp only [↓setB_pending, ↓setF_pending]

theorem grant_pending (n : Nat) (s : State) : (grant n s).pending = s.pending := by
  unfold grant
  simp only [↓onArb_pending, ↓showHolder_pending, ↓bump_pending, ↓setReg_pending, apply_ite State.pending, ite_self]

theorem sideGrant_pending (n : Nat) (s : State) : (sideGrant n s).pending = s.pending := by
  unfold sideGrant
  simp only [↓showHolder_pending, ↓onArb_pending, ↓grant_pending]

theorem arbDecide_pending (s : State) : (arbDecide s).pending = s.pending := by
  unfold arbDecide
  (repeat' split) <;> simp only [↓grant_pending]

theorem request_pending (n : Nat) (s : State) : (request n s).pending = s.pending := by
  unfold request
  simp only [↓onArb_pending, apply_ite State.pending, ite_self]

theorem acquire_pending (n : Nat) (s : State) : (acquire n s).pending = s.pending := by
  unfold acquire
  simp only [↓arbDecide_pending, ↓request_pending]

theorem execArbQuotaWrite_pending (m : Master) (v : Word) (s : State) : (stateOr (execArbQuotaWrite m v s) s).pending = s.pending := by
  unfold execArbQuotaWrite
  simp only [↓guardWrite_pending, ↓plainWrite_pending, stateOr_next, implies_true]

theorem endRequest_pending (n : Nat) (s : State) : (endRequest n s).pending = s.pending := by
  unfold endRequest
  simp only [↓onArb_pending, ↓showHolder_pending]

theorem noteTimeout_pending (n : Nat) (a : Nat) (s : State) : (noteTimeout n a s).pending = s.pending := by
  unfold noteTimeout
  simp only [↓setB_pending, ↓setReg_pending, ↓answer_pending, ↓bump_pending, ↓endRequest_pending]

theorem windowEnd_pending (s : State) : (windowEnd s).pending = s.pending := by
  unfold windowEnd
  simp only [↓onArb_pending]

theorem execQuotaWindowEnd_pending (s : State) : (stateOr (execQuotaWindowEnd s) s).pending = s.pending := by
  unfold execQuotaWindowEnd
  simp only [↓windowEnd_pending, stateOr_next]

theorem preempt_pending (n : Nat) (s : State) : (preempt n s).pending = s.pending := by
  unfold preempt
  simp only [↓onArb_pending, ↓bump_pending, ↓request_pending, ↓arbDecide_pending, ↓showHolder_pending, apply_ite State.pending, ite_self]

theorem writeArbPri_pending (n : Nat) (v : Word) (s : State) : (writeArbPri n v s).pending = s.pending := by
  unfold writeArbPri
  simp only [↓plainWrite_pending, ↓preempt_pending, apply_ite State.pending, ite_self]

theorem execArbPriWrite_pending (m : Master) (n : Fin 24) (v : Word) (s : State) : (stateOr (execArbPriWrite m n v s) s).pending = s.pending := by
  unfold execArbPriWrite
  simp only [↓guardWrite_pending, ↓writeArbPri_pending, stateOr_next, implies_true]

theorem eraseFlash_pending (a : Nat) (n : Nat) (s : State) : (eraseFlash a n s).pending = s.pending := by
  unfold eraseFlash
  simp only

theorem programHeader_pending (h : BootHeader) (s : State) : (programHeader h s).pending = s.pending := by
  unfold programHeader
  simp only [↓setBytes_pending, ↓eraseFlash_pending]

theorem writeHeader_pending (h : BootHeader) (s : State) : (writeHeader h s).pending = s.pending := by
  unfold writeHeader
  simp only [↓onUpd_pending, ↓programHeader_pending, apply_ite State.pending, ite_self]

theorem closeSession_pending (s : State) : (closeSession s).pending = s.pending := by
  unfold closeSession
  simp only [↓writeHeader_pending, ↓onUpd_pending, ↓setF_pending, ↓setReg_pending]

theorem appendRecord_pending (kind : Nat) (r : PersistRec) (s : State) : (appendRecord kind r s).pending = s.pending := by
  unfold appendRecord
  simp only [↓setF_pending, ↓bump_pending, ↓onUpd_pending]

theorem flushRecords_pending (x0 : Nat) (s : State) : (flushRecords x0 s).pending = s.pending := by
  induction x0 generalizing s with
  | zero => rfl
  | succ n ih => unfold flushRecords; grind [appendRecord_pending, onUpd_pending]

theorem releaseFlash_pending (s : State) : (releaseFlash s).pending = s.pending := by
  unfold releaseFlash
  split <;> simp only [↓programHeader_pending, ↓onUpd_pending, ↓closeSession_pending, ↓flushRecords_pending, apply_ite State.pending, ite_self]

theorem updNotice_pending (code : Nat) (arg : Nat) (s : State) : (updNotice code arg s).pending = s.pending := by
  unfold updNotice
  simp only [↓post_pending]

theorem submitRecord_pending (kind : Nat) (r : PersistRec) (s : State) : (submitRecord kind r s).pending = s.pending := by
  unfold submitRecord
  (repeat' split) <;> simp only [↓appendRecord_pending, ↓onUpd_pending, ↓fresh_pending, ↓updNotice_pending, ↓bump_pending]

theorem execTokenGain_pending (s : State) : (stateOr (execTokenGain s) s).pending = s.pending := by
  unfold execTokenGain
  simp only [↓flushRecords_pending, ↓setF_pending, stateOr_next]

theorem execEnergyCheckpoint_pending (s : State) : (stateOr (execEnergyCheckpoint s) s).pending = s.pending := by
  unfold execEnergyCheckpoint
  simp only [↓submitRecord_pending, stateOr_next]

theorem execPersistWrite_pending (kind : Fin 3) (s : State) : (stateOr (execPersistWrite kind s) s).pending = s.pending := by
  unfold execPersistWrite
  simp only [↓submitRecord_pending, stateOr_next]

theorem rtEvent_pending (f : Fld) (k : Nat) (s : State) : (rtEvent f k s).pending = s.pending := by
  unfold rtEvent
  simp only [↓postOnce_pending, ↓bump_pending, ↓setB_pending]

theorem countBnd_pending (s : State) : (countBnd s).pending = s.pending := by
  unfold countBnd
  simp only [↓setF_pending]

theorem enterBnd_pending (b : Nat) (key : Nat) (side : Nat) (isLocal : Bool) (s : State) : (enterBnd b key side isLocal s).pending = s.pending := by
  unfold enterBnd
  (repeat' split) <;> simp only [↓countBnd_pending, ↓rewritten_pending, ↓setReg_pending, ↓postOnce_pending, ↓rtEvent_pending]

theorem removeBnd_pending (key : Nat) (side : Nat) (s : State) : (removeBnd key side s).pending = s.pending := by
  unfold removeBnd
  split <;> simp only [↓postOnce_pending, ↓countBnd_pending, ↓rewritten_pending, ↓setReg_pending]

theorem markJunction_pending (index : Nat) (down : Bool) (s : State) : (markJunction index down s).pending = s.pending := by
  unfold markJunction
  simp only [↓setB_pending, apply_ite State.pending, ite_self, implies_true, foldl_pending]

theorem applyLink_pending (e : Envelope) (s : State) : (applyLink e s).pending = s.pending := by
  unfold applyLink
  simp only [↓bump_pending, ↓enterBnd_pending, ↓removeBnd_pending, ↓markJunction_pending, apply_ite State.pending, ite_self]

theorem applyLinks_pending (s : State) : (applyLinks s).pending = s.pending := by
  unfold applyLinks
  simp only [↓applyLink_pending, implies_true, foldl_pending]

theorem cutCopy_pending (s : State) : (cutCopy s).pending = s.pending := by
  unfold cutCopy
  simp only [↓rtEvent_pending]

theorem releasePtr_pending (p : Ptr) (s : State) : (releasePtr p s).pending = s.pending := by
  unfold releasePtr
  simp only [↓onOffice_pending]

theorem releaseHeld_pending (o : Nat) (i : Nat) (c : Nat) (x0 : Nat) (s : State) : (releaseHeld o i c x0 s).pending = s.pending := by
  induction x0 generalizing s with
  | zero => rfl
  | succ n ih => unfold releaseHeld; dsimp only; split
                 · rfl
                 · exact (ih _).trans ((releasePtr_pending _ _).trans (onOffice_pending _ _))

theorem arrivePtr_pending (p : Ptr) (s : State) : (arrivePtr p s).pending = s.pending := by
  unfold arrivePtr
  simp only [↓releaseHeld_pending, ↓releasePtr_pending, ↓onOffice_pending, apply_ite State.pending, ite_self]

theorem countOrigin_pending (s : State) : (countOrigin s).pending = s.pending := by
  unfold countOrigin
  simp only

theorem pickCell_pending (used : List Nat) (b : Nat) (s : State) : (pickCell used b s).2.pending = s.pending := by
  unfold pickCell
  grind [fresh_pending, stateOr, Clock.state, fresh, foldl_pending]

theorem pickCells_pending (x0 : Nat) (x1 : Nat) (x2 : List Nat) (s : State) : (pickCells x0 x1 x2 s).2.pending = s.pending := by
  induction x0 generalizing s x1 x2 with
  | zero => rfl
  | succ n ih =>
    unfold pickCells
    dsimp only
    exact (ih _ _ _).trans (pickCell_pending _ _ _)

theorem noteLow_pending (s : State) : (noteLow s).pending = s.pending := by
  unfold noteLow
  simp only [↓setF_pending, apply_ite State.pending, ite_self]

theorem putCellWord_pending (c : Nat) (w : Nat) (v : DWord) (s : State) : (putCellWord c w v s).pending = s.pending := by
  unfold putCellWord
  simp only [↓setPoison_pending, ↓onOffice_pending]

theorem writeCell_pending (e : Stored) (s : State) (k : Nat) : (writeCell e s k).pending = s.pending := by
  unfold writeCell
  grind [putCellWord_pending, fresh_pending, stateOr, Clock.state, fresh, foldl_pending]

theorem updStored_pending (id : Nat) (f : Stored → Stored) (s : State) : (updStored id f s).pending = s.pending := by
  unfold updStored
  simp only [↓onOffice_pending]

theorem handPtr_pending (inp : Nat) (out : Nat) (cls : Nat) (id : Nat) (cell : Nat) (s : State) : (handPtr inp out cls id cell s).pending = s.pending := by
  unfold handPtr
  simp only [↓onOffice_pending]

theorem handCell_pending (inp : Nat) (targets : List Nat) (cls : Nat) (id : Nat) (cell : Nat) (s : State) : (handCell inp targets cls id cell s).pending = s.pending := by
  unfold handCell
  simp only [↓handPtr_pending, implies_true, foldl_pending]

theorem handCells_pending (inp : Nat) (targets : List Nat) (cls : Nat) (id : Nat) (x0 : Nat) (x1 : Nat) (s : State) : (handCells inp targets cls id x0 x1 s).pending = s.pending := by
  induction x1 generalizing s x0 with
  | zero => rfl
  | succ n ih => unfold handCells; rw [ih, handCell_pending]

theorem handOver_pending (id : Nat) (n : Nat) (s : State) : (handOver id n s).pending = s.pending := by
  unfold handOver
  split <;> simp only [↓writeCell_pending, ↓updStored_pending, ↓handCells_pending, implies_true, foldl_pending]

theorem storeEnvelope_pending (inp : Nat) (e : Envelope) (targets : List Nat) (ct : Bool) (whole : Bool) (ready : Nat) (mark : Option RingMark) (s : State) : (storeEnvelope inp e targets ct whole ready mark s).pending = s.pending := by
  unfold storeEnvelope
  simp only [↓fresh_pending, ↓pickCells_pending, ↓onOffice_pending, ↓bumpN_pending, ↓bump_pending, ↓noteLow_pending, ↓handOver_pending]

theorem originate_pending (port : Nat) (e : Envelope) (s : State) : (originate port e s).1.pending = s.pending := by
  unfold originate
  grind [applyLinks_pending, bump_pending, countOrigin_pending, cutCopy_pending, setB_pending, storeEnvelope_pending, stateOr, Clock.state, fresh, foldl_pending]

theorem sendOnPort_pending (port : Nat) (out : Nat) (e : Envelope) (s : State) : (sendOnPort port out e s).1.pending = s.pending := by
  unfold sendOnPort
  split <;> simp only [↓storeEnvelope_pending]

theorem sendBy_pending (port : Nat) (out : Option Nat) (e : Envelope) (s : State) : (sendBy port out e s).1.pending = s.pending := by
  unfold sendBy
  split <;> simp only [↓originate_pending, ↓sendOnPort_pending]

theorem withhold_pending (p : Nat) (c : Nat) (n : Nat) (s : State) : (withhold p c n s).pending = s.pending := by
  unfold withhold
  simp only [↓setPort_pending]

theorem returnCredit_pending (p : Nat) (c : Nat) (n : Nat) (s : State) : (returnCredit p c n s).pending = s.pending := by
  unfold returnCredit
  simp only [↓setPort_pending, apply_ite State.pending, ite_self]

theorem seeReply_pending (p : Nat) (e : Envelope) (s : State) : (seeReply p e s).pending = s.pending := by
  unfold seeReply
  simp only [apply_ite State.pending, ite_self]

theorem sendOrWait_pending (port : Nat) (out : Option Nat) (e : Envelope) (s : State) : (sendOrWait port out e s).pending = s.pending := by
  unfold sendOrWait
  grind [onOffice_pending, sendBy_pending, stateOr, Clock.state, fresh, foldl_pending]

theorem sendNdn_pending (reason : Nat) (cause : Nat) (pieces : Nat) (data : DWord) (pois : Bool) (e : Envelope) (s : State) : (sendNdn reason cause pieces data pois e s).pending = s.pending := by
  unfold sendNdn
  simp only [↓sendOrWait_pending, apply_ite State.pending, ite_self]

theorem placeReceived_pending (p : Nat) (e : Envelope) (ct : Bool) (whole : Bool) (ready : Nat) (mark : RingMark) (s : State) : (placeReceived p e ct whole ready mark s).pending = s.pending := by
  unfold placeReceived
  grind [returnCredit_pending, cutCopy_pending, seeReply_pending, rtEvent_pending, bump_pending, storeEnvelope_pending, sendNdn_pending, stateOr, Clock.state, fresh, foldl_pending]

theorem releaseCells_pending (id : Nat) (a : Nat) (n : Nat) (s : State) : (releaseCells id a n s).pending = s.pending := by
  unfold releaseCells
  split <;> simp only [↓returnCredit_pending, ↓updStored_pending]

theorem execOutputStall_pending (o : Fin 3) (s : State) : (stateOr (execOutputStall o s) s).pending = s.pending := by
  unfold execOutputStall
  (repeat' split) <;> simp only [↓bump_pending, ↓setB_pending, ↓onOffice_pending, ↓releaseCells_pending, ↓updStored_pending, apply_ite State.pending, ite_self, stateOr_next, stateOr_ite]

theorem flushOutbox_pending (s : State) : (flushOutbox s).pending = s.pending := by
  unfold flushOutbox
  simp only [↓sendOrWait_pending, ↓onOffice_pending, implies_true, foldl_pending]

theorem soNotice_pending (code : Nat) (arg : Nat) (s : State) : (soNotice code arg s).pending = s.pending := by
  unfold soNotice
  simp only [↓postOnce_pending]

theorem middleOut_pending (t : Nat) (j : Nat) (s : State) : (middleOut t j s).pending = s.pending := by
  unfold middleOut
  grind [arrivePtr_pending, onOffice_pending, stateOr, Clock.state, fresh, foldl_pending]

theorem dropPtrs_pending (id : Nat) (out : Nat) (s : State) : (dropPtrs id out s).pending = s.pending := by
  unfold dropPtrs
  simp only [↓onOffice_pending]

theorem dropTarget_pending (id : Nat) (out : Nat) (s : State) : (dropTarget id out s).pending = s.pending := by
  unfold dropTarget
  grind [dropPtrs_pending, releaseCells_pending, onOffice_pending, updStored_pending, stateOr, Clock.state, fresh, foldl_pending]

theorem removePtrs_pending (id : Nat) (out : Nat) (s : State) : (removePtrs id out s).pending = s.pending := by
  unfold removePtrs
  simp only [↓onOffice_pending]

theorem execReseqTimeout_pending (o : Fin 8) (i : Fin 8) (c : Fin 4) (s : State) : (stateOr (execReseqTimeout o i c s) s).pending = s.pending := by
  unfold execReseqTimeout
  grind [dropTarget_pending, removePtrs_pending, onOffice_pending, releaseHeld_pending, soNotice_pending, bump_pending, setB_pending, stateOr, Clock.state, fresh, foldl_pending]

theorem keepLinkEvent_pending (e : Envelope) (s : State) : (keepLinkEvent e s).pending = s.pending := by
  unfold keepLinkEvent
  simp only [apply_ite State.pending, ite_self]

theorem poolDrop_pending (p : Nat) (e : Envelope) (s : State) : (poolDrop p e s).pending = s.pending := by
  unfold poolDrop
  simp only [↓soNotice_pending, ↓bump_pending, ↓setB_pending, ↓returnCredit_pending, apply_ite State.pending, ite_self]

theorem setSending_pending (o : Nat) (x : Option (Nat × Envelope)) (s : State) : (setSending o x s).pending = s.pending := by
  unfold setSending
  simp only [↓onOffice_pending]

theorem notePassed_pending (o : Nat) (c : Nat) (s : State) : (notePassed o c s).pending = s.pending := by
  unfold notePassed
  simp only [↓onOffice_pending]

theorem middleIn_pending (t : Nat) (i : Nat) (s : State) : (middleIn t i s).pending = s.pending := by
  unfold middleIn
  grind [onOffice_pending, stateOr, Clock.state, fresh, foldl_pending]

theorem moveCredit_pending (s t : State) : (moveCredit s t).pending = t.pending := by
  unfold moveCredit
  exact foldl_pending _ (fun u p => foldl_pending _ (fun u c => (returnCredit_pending _ _ _ _).trans (withhold_pending _ _ _ _)) _ _) _ _
theorem writeSoRes_pending (a : Nat) (v : Word) (s : State) : (writeSoRes a v s).pending = s.pending := by
  unfold writeSoRes
  split
  · exact (setB_pending _ _ _ _).trans (declineWrite_pending _ _ _)
  · exact (moveCredit_pending _ _).trans (plainWrite_pending _ _ _)

theorem takeDelivered_pending (e : Envelope) (s : State) : (takeDelivered e s).pending = s.pending := by
  unfold takeDelivered
  split <;> simp only [↓onOffice_pending]

theorem switchSlot_pending (s : State) : (switchSlot s).pending = s.pending := by
  unfold switchSlot
  simp only [↓middleOut_pending, ↓middleIn_pending, ↓setF_pending, implies_true, foldl_pending]

theorem sendBlock_pending (p : Nat) (control : Bool) (d : DWord) (s : State) : (sendBlock p control d s).pending = s.pending := by
  unfold sendBlock
  simp only [↓fresh_pending, ↓onPort_pending]

theorem sendTrain_pending (p : Nat) (rlock : Bool) (s : State) : (sendTrain p rlock s).pending = s.pending := by
  unfold sendTrain
  simp only [↓fresh_pending, ↓sendBlock_pending, ↓onPort_pending]

theorem setPortState_pending (p : Nat) (st : Nat) (s : State) : (setPortState p st s).pending = s.pending := by
  unfold setPortState
  simp only [↓setB_pending, ↓setF_pending, ↓sendTrain_pending, apply_ite State.pending, ite_self]

theorem startSearch_pending (p : Nat) (r : Nat) (s : State) : (startSearch p r s).pending = s.pending := by
  unfold startSearch
  simp only [↓bump_pending, ↓setF_pending, ↓setB_pending, ↓onPort_pending, ↓setPortState_pending, apply_ite State.pending, ite_self]

theorem seekModule_pending (p : Nat) (s : State) : (seekModule p s).pending = s.pending := by
  unfold seekModule
  simp only [↓startSearch_pending, ↓setPortState_pending, apply_ite State.pending, ite_self]

theorem sendLinkEvent_pending (evt : Nat) (side : Nat) (b : Nat) (cause : Nat) (s : State) : (sendLinkEvent evt side b cause s).pending = s.pending := by
  unfold sendLinkEvent
  simp only [↓sendOrWait_pending, ↓bump_pending]

theorem sendTieDown_pending (cause : Option Nat) (s : State) : (sendTieDown cause s).pending = s.pending := by
  unfold sendTieDown
  split <;> simp only [↓sendLinkEvent_pending, ↓fresh_pending]

theorem reviewJunction_pending (cause : Option Nat) (s : State) : (reviewJunction cause s).pending = s.pending := by
  unfold reviewJunction
  simp only [↓sendLinkEvent_pending, ↓sendTieDown_pending, ↓setB_pending, apply_ite State.pending, ite_self]

theorem judgePeer_pending (s : State) : (judgePeer s).pending = s.pending := by
  unfold judgePeer
  simp only [↓reviewJunction_pending, ↓setB_pending, apply_ite State.pending, ite_self]

theorem retarget_pending (e : Stored) (out : Nat) (new : Nat) (s : State) : (retarget e out new s).pending = s.pending := by
  unfold retarget
  simp only [↓dropPtrs_pending, ↓updStored_pending, ↓handCells_pending]

theorem handBack_pending (p : Nat) (e : Stored) (s : State) : (handBack p e s).pending = s.pending := by
  unfold handBack
  grind [bump_pending, dropTarget_pending, cutCopy_pending, retarget_pending, sendNdn_pending, stateOr, Clock.state, fresh, foldl_pending]

theorem handBackAll_pending (p : Nat) (s : State) : (handBackAll p s).pending = s.pending := by
  unfold handBackAll
  simp only [↓handBack_pending, apply_ite State.pending, ite_self, implies_true, foldl_pending]

theorem ptEvt_pending (p : Nat) (f : Fld) (s : State) : (ptEvt p f s).pending = s.pending := by
  unfold ptEvt
  simp only [↓setB_pending]

theorem badBlock_pending (p : Nat) (s : State) : (badBlock p s).pending = s.pending := by
  unfold badBlock
  grind [bump_pending, ptEvt_pending, onPort_pending, stateOr, Clock.state, fresh, foldl_pending]

theorem execI2cComplete_pending (p : Fin 3) (ack : Bool) (data : Byte) (s : State) : (stateOr (execI2cComplete p ack data s) s).pending = s.pending := by
  unfold execI2cComplete
  simp only [↓onPort_pending, ↓setB_pending, ↓setF_pending, ↓bump_pending, ↓ptEvt_pending, apply_ite State.pending, ite_self, stateOr_next, stateOr_ite]

theorem freeRate_pending (p : Nat) (s : State) : (freeRate p s).pending = s.pending := by
  unfold freeRate
  simp only [↓onPort_pending]

theorem handRest_pending (id : Nat) (s : State) : (handRest id s).pending = s.pending := by
  unfold handRest
  split <;> simp only [↓handOver_pending]

theorem updEnv_pending (id : Nat) (f : Envelope → Envelope) (s : State) : (updEnv id f s).pending = s.pending := by
  unfold updEnv
  simp only [↓onOffice_pending]

theorem finishBad_pending (id : Nat) (s : State) : (finishBad id s).pending = s.pending := by
  unfold finishBad
  split <;> simp only [↓dropTarget_pending, ↓handRest_pending, ↓updEnv_pending, ↓updStored_pending, implies_true, foldl_pending]

theorem cutReception_pending (p : Nat) (s : State) : (cutReception p s).pending = s.pending := by
  unfold cutReception
  grind [bump_pending, onPort_pending, returnCredit_pending, finishBad_pending, updEnv_pending, stateOr, Clock.state, fresh, foldl_pending]

theorem countLost_pending (p : Nat) (s : State) : (countLost p s).pending = s.pending := by
  unfold countLost
  simp only [↓bumpN_pending, ↓onPort_pending, implies_true, foldl_pending]

theorem setPeer_pending (r : Option Nat) (s : State) : (setPeer r s).pending = s.pending := by
  unfold setPeer
  simp only

theorem leaveLink_pending (p : Nat) (cause : Option Nat) (s : State) : (leaveLink p cause s).pending = s.pending := by
  unfold leaveLink
  simp only [↓setB_pending, ↓cutReception_pending, ↓countLost_pending, ↓onPort_pending, ↓handBackAll_pending, ↓reviewJunction_pending, ↓setPeer_pending, apply_ite State.pending, ite_self]

theorem dropLink_pending (p : Nat) (s : State) : (dropLink p s).pending = s.pending := by
  exact leaveLink_pending p none s

theorem disablePort_pending (p : Nat) (s : State) : (disablePort p s).pending = s.pending := by
  unfold disablePort
  simp only [↓setPortState_pending, ↓setB_pending, ↓freeRate_pending, ↓dropLink_pending, ↓cutReception_pending, apply_ite State.pending, ite_self]

theorem enablePort_pending (p : Nat) (s : State) : (enablePort p s).pending = s.pending := by
  unfold enablePort
  simp only [↓seekModule_pending, ↓freeRate_pending]

theorem retrainPort_pending (p : Nat) (s : State) : (retrainPort p s).pending = s.pending := by
  unfold retrainPort
  simp only [↓startSearch_pending, ↓freeRate_pending, ↓dropLink_pending, ↓cutReception_pending, apply_ite State.pending, ite_self]

theorem writePtCtl_pending (p : Nat) (v : Word) (s : State) : (writePtCtl p v s).pending = s.pending := by
  unfold writePtCtl
  simp only [↓declineWrite_pending, ↓ptEvt_pending, ↓plainWrite_pending, ↓disablePort_pending, ↓enablePort_pending, ↓retrainPort_pending, apply_ite State.pending, ite_self]

theorem execPortDisable_pending (m : Master) (p : Fin 3) (v : Word) (s : State) : (stateOr (execPortDisable m p v s) s).pending = s.pending := by
  unfold execPortDisable
  simp only [↓guardWrite_pending, ↓writePtCtl_pending, stateOr_next, implies_true]

theorem sendCensus_pending (p : Nat) (op : Nat) (ws : List DWord) (s : State) : (sendCensus p op ws s).pending = s.pending := by
  unfold sendCensus
  simp only [↓sendOrWait_pending, ↓bump_pending]

theorem sendNeighbour_pending (p : Nat) (s : State) : (sendNeighbour p s).pending = s.pending := by
  unfold sendNeighbour
  simp only [↓sendCensus_pending, apply_ite State.pending, ite_self]

theorem execDdmPoll_pending (p : Fin 3) (temp : BitVec 16) (vcc : BitVec 16) (bias : BitVec 16) (txpwr : BitVec 16) (rxpwr : BitVec 16) (s : State) : (stateOr (execDdmPoll p temp vcc bias txpwr rxpwr s) s).pending = s.pending := by
  unfold execDdmPoll
  simp only [↓setReg_pending, apply_ite State.pending, ite_self, stateOr_next, stateOr_ite]

theorem headerError_pending (p : Nat) (s : State) : (headerError p s).pending = s.pending := by
  unfold headerError
  simp only [↓bump_pending, ↓onPort_pending, ↓ptEvt_pending]

theorem controlBlock_pending (p : Nat) (s : State) : (controlBlock p s).pending = s.pending := by
  unfold controlBlock
  simp only [↓cutReception_pending, ↓onPort_pending]

theorem receiveIdle_pending (p : Nat) (s : State) : (receiveIdle p s).pending = s.pending := by
  unfold receiveIdle
  simp only [↓bump_pending, ↓controlBlock_pending, apply_ite State.pending, ite_self]

theorem receiveFills_pending (p : Nat) (n : Nat) (s : State) : (receiveFills p n s).pending = s.pending := by
  unfold receiveFills
  simp only [↓bumpN_pending, ↓onPort_pending, apply_ite State.pending, ite_self]

theorem ptNotice_pending (p : Nat) (code : Nat) (arg : Nat) (s : State) : (ptNotice p code arg s).pending = s.pending := by
  unfold ptNotice
  simp only [↓post_pending]

end Sys2Proof.Machine
end

