-- ==== Sys2Proof/Laws/Queue2.lean ====
section
/-! SUPPORT. Every operation and meaning leaves the queue of commands as it is. The operations and meanings of Ports, Census, DeadLetters, Bridge, Tables, Counters, Images. -/

namespace Sys2Proof.Machine

theorem linkUp_pending (p : Nat) (s : State) : (linkUp p s).pending = s.pending := by
  unfold linkUp
  (repeat' split) <;> simp only [↓sendLinkEvent_pending, ↓removeBnd_pending]

theorem enterUp_pending (p : Nat) (s : State) : (enterUp p s).pending = s.pending := by
  unfold enterUp
  simp only [↓setPortState_pending, ↓onPort_pending, ↓ptNotice_pending, ↓setB_pending, ↓sendNeighbour_pending, ↓linkUp_pending, apply_ite State.pending, ite_self]

theorem receiveStamp_pending (p : Nat) (w : Nat) (s : State) : (receiveStamp p w s).pending = s.pending := by
  unfold receiveStamp
  simp only [↓bump_pending, ↓controlBlock_pending, ↓bumpN_pending, ↓onPort_pending, ↓setF_pending, ↓enterUp_pending, apply_ite State.pending, ite_self]

theorem linkDown_pending (p : Nat) (cause : Nat) (s : State) : (linkDown p cause s).pending = s.pending := by
  unfold linkDown
  split <;> simp only [↓sendLinkEvent_pending, ↓enterBnd_pending, apply_ite State.pending, ite_self]

theorem leaveUp_pending (p : Nat) (cause : Nat) (rate : Nat) (s : State) : (leaveUp p cause rate s).pending = s.pending := by
  unfold leaveUp
  simp only [↓bump_pending, ↓ptEvt_pending, ↓startSearch_pending, ↓linkDown_pending, ↓ptNotice_pending, ↓leaveLink_pending]

theorem enterReady_pending (p : Nat) (s : State) : (enterReady p s).pending = s.pending := by
  unfold enterReady
  simp only [↓onPort_pending, ↓setPortState_pending]

theorem receiveTrain_pending (p : Nat) (w : Nat) (s : State) : (receiveTrain p w s).pending = s.pending := by
  unfold receiveTrain
  simp only [↓bump_pending, ↓controlBlock_pending, ↓setF_pending, ↓setReg_pending, ↓leaveUp_pending, ↓setPortState_pending, ↓ptEvt_pending, ↓ptNotice_pending, ↓onPort_pending, ↓enterReady_pending, apply_ite State.pending, ite_self]

theorem auditClass_pending (p : Nat) (c : Nat) (count : Nat) (s : State) : (auditClass p c count s).1.pending = s.pending := by
  unfold auditClass
  grind [bump_pending, onPort_pending, returnCredit_pending, ptEvt_pending, bumpN_pending, stateOr, Clock.state, fresh, foldl_pending]

theorem auditAll_pending (p : Nat) (w : Nat) (x0 : List (Nat × Nat)) (s : State) : (auditAll p w x0 s).1.pending = s.pending := by
  induction x0 generalizing s with
  | nil => rfl
  | cons f fs ih => unfold auditAll; exact (ih _).trans (auditClass_pending _ _ _ _)

theorem receiveAudit_pending (p : Nat) (w : Nat) (s : State) : (receiveAudit p w s).pending = s.pending := by
  unfold receiveAudit
  split
  · rfl
  · extract_lets s1 x
    have h1 : s1.pending = s.pending := (bump_pending _ _).trans (controlBlock_pending _ _)
    have h2 : x.1.pending = s1.pending := auditAll_pending _ _ _ _
    clear_value x s1
    split
    · exact (leaveUp_pending _ _ _ _).trans (h2.trans h1)
    · exact h2.trans h1

theorem receiveControl_pending (p : Nat) (w : DWord) (s : State) : (receiveControl p w s).pending = s.pending := by
  unfold receiveControl
  simp only [↓receiveIdle_pending, ↓receiveFills_pending, ↓receiveStamp_pending, ↓receiveTrain_pending, ↓receiveAudit_pending, ↓badBlock_pending, apply_ite State.pending, ite_self]

theorem execStamp_pending (p : Fin 3) (w : DWord) (s : State) : (stateOr (execStamp p w s) s).pending = s.pending := by
  unfold execStamp
  simp only [↓receiveControl_pending, stateOr_next]

theorem loseModule_pending (p : Nat) (s : State) : (loseModule p s).pending = s.pending := by
  unfold loseModule
  simp only [↓onPort_pending, ↓setPortState_pending, ↓setB_pending, ↓dropLink_pending, ↓cutReception_pending, apply_ite State.pending, ite_self]

theorem execModuleChange_pending (p : Fin 3) (absent : Bool) (s : State) : (stateOr (execModuleChange p absent s) s).pending = s.pending := by
  unfold execModuleChange
  simp only [↓ptEvt_pending, ↓setB_pending, ↓ptNotice_pending, ↓loseModule_pending, apply_ite State.pending, ite_self, stateOr_next, stateOr_ite]

theorem writeI2cCmd_pending (p : Nat) (v : Word) (s : State) : (writeI2cCmd p v s).pending = s.pending := by
  unfold writeI2cCmd
  simp only [↓declineWrite_pending, ↓ptEvt_pending, ↓onPort_pending, ↓plainWrite_pending, apply_ite State.pending, ite_self]

theorem execModuleQualify_pending (p : Fin 3) (id : Byte) (diag : Byte) (s : State) : (stateOr (execModuleQualify p id diag s) s).pending = s.pending := by
  unfold execModuleQualify
  simp only [↓setF_pending, ↓setB_pending, ↓onPort_pending, ↓startSearch_pending, ↓loseModule_pending, ↓ptNotice_pending, ↓ptEvt_pending, apply_ite State.pending, ite_self, stateOr_next, stateOr_ite]

theorem sendStamp_pending (p : Nat) (s : State) : (sendStamp p s).pending = s.pending := by
  unfold sendStamp
  simp only [↓bump_pending, ↓setPort_pending, ↓sendBlock_pending, ↓onPort_pending, apply_ite State.pending, ite_self]

theorem execStampSend_pending (p : Fin 3) (s : State) : (stateOr (execStampSend p s) s).pending = s.pending := by
  unfold execStampSend
  simp only [↓onPort_pending, ↓sendStamp_pending, apply_ite State.pending, ite_self, stateOr_next, stateOr_ite]

theorem execBlockLock_pending (p : Fin 3) (s : State) : (stateOr (execBlockLock p s) s).pending = s.pending := by
  unfold execBlockLock
  simp only [↓setPortState_pending, ↓setB_pending, apply_ite State.pending, ite_self, stateOr_next, stateOr_ite]

theorem execHuntEnd_pending (p : Fin 3) (s : State) : (stateOr (execHuntEnd p s) s).pending = s.pending := by
  unfold execHuntEnd
  simp only [↓receiveIdle_pending, stateOr_next]

theorem execBadBlock_pending (p : Fin 3) (s : State) : (stateOr (execBadBlock p s) s).pending = s.pending := by
  unfold execBadBlock
  simp only [↓badBlock_pending, stateOr_next]

theorem execRetrain_pending (m : Master) (p : Fin 3) (v : Word) (s : State) : (stateOr (execRetrain m p v s) s).pending = s.pending := by
  unfold execRetrain
  simp only [↓guardWrite_pending, ↓writePtCtl_pending, stateOr_next, implies_true]

theorem execRateAlternate_pending (p : Fin 3) (s : State) : (stateOr (execRateAlternate p s) s).pending = s.pending := by
  unfold execRateAlternate
  simp only [↓startSearch_pending, apply_ite State.pending, ite_self, stateOr_next, stateOr_ite]

theorem handMark_pending (p : Nat) (e : Envelope) (mark : RingMark) (s : State) : (handMark p e mark s).pending = s.pending := by
  unfold handMark
  simp only [↓onNet_pending, apply_ite State.pending, ite_self]

theorem execAudit_pending (p : Fin 3) (w : DWord) (s : State) : (stateOr (execAudit p w s) s).pending = s.pending := by
  unfold execAudit
  simp only [↓receiveControl_pending, stateOr_next]

theorem writePtSdsRx_pending (p : Nat) (v : Word) (s : State) : (writePtSdsRx p v s).pending = s.pending := by
  unfold writePtSdsRx
  simp only [↓declineWrite_pending, ↓ptEvt_pending, ↓plainWrite_pending, apply_ite State.pending, ite_self]

theorem execReadyTimeout_pending (p : Fin 3) (s : State) : (stateOr (execReadyTimeout p s) s).pending = s.pending := by
  unfold execReadyTimeout
  simp only [↓setPortState_pending, apply_ite State.pending, ite_self, stateOr_next]

theorem countReceived_pending (p : Nat) (e : Envelope) (s : State) : (countReceived p e s).pending = s.pending := by
  unfold countReceived
  simp only [↓onPort_pending, apply_ite State.pending, ite_self]

theorem beginReception_pending (p : Nat) (e : Envelope) (mark : RingMark) (s : State) : (beginReception p e mark s).pending = s.pending := by
  unfold beginReception
  simp only [↓onPort_pending, ↓countReceived_pending]

theorem execHeaderReceived_pending (p : Fin 3) (e : Envelope) (age : Nat) (ph : Fin 32) (s : State) : (stateOr (execHeaderReceived p e age ph s) s).pending = s.pending := by
  unfold execHeaderReceived
  simp only [↓headerError_pending, ↓beginReception_pending, ↓applyLinks_pending, ↓placeReceived_pending, ↓handMark_pending, ↓onPort_pending, apply_ite State.pending, ite_self, stateOr_next, stateOr_ite]

theorem execLockloss_pending (p : Fin 3) (s : State) : (stateOr (execLockloss p s) s).pending = s.pending := by
  unfold execLockloss
  simp only [↓leaveUp_pending, ↓startSearch_pending, ↓cutReception_pending, apply_ite State.pending, ite_self, stateOr_next, stateOr_ite]

theorem execI2cGo_pending (m : Master) (p : Fin 3) (v : Word) (s : State) : (stateOr (execI2cGo m p v s) s).pending = s.pending := by
  unfold execI2cGo
  simp only [↓guardWrite_pending, ↓writeI2cCmd_pending, stateOr_next, implies_true]

theorem finishReception_pending (p : Nat) (id : Nat) (bad : Bool) (e : Envelope) (s : State) : (finishReception p id bad e s).pending = s.pending := by
  unfold finishReception
  grind [updEnv_pending, finishBad_pending, bump_pending, handRest_pending, keepLinkEvent_pending, updStored_pending, stateOr, Clock.state, fresh, foldl_pending]

theorem execLos_pending (p : Fin 3) (high : Bool) (s : State) : (stateOr (execLos p high s) s).pending = s.pending := by
  unfold execLos
  simp only [↓setB_pending, ↓leaveUp_pending, apply_ite State.pending, ite_self, stateOr_next]

theorem execPortEnable_pending (m : Master) (p : Fin 3) (v : Word) (s : State) : (stateOr (execPortEnable m p v s) s).pending = s.pending := by
  unfold execPortEnable
  simp only [↓guardWrite_pending, ↓writePtCtl_pending, stateOr_next, implies_true]

theorem execHiber_pending (p : Fin 3) (s : State) : (stateOr (execHiber p s) s).pending = s.pending := by
  unfold execHiber
  simp only [↓leaveUp_pending, ↓onPort_pending, apply_ite State.pending, ite_self, stateOr_next, stateOr_ite]

theorem execStampto_pending (p : Fin 3) (s : State) : (stateOr (execStampto p s) s).pending = s.pending := by
  unfold execStampto
  simp only [↓leaveUp_pending, apply_ite State.pending, ite_self, stateOr_next]

theorem receiveWhole_pending (p : Nat) (bad : Bool) (mark : RingMark) (e : Envelope) (s : State) : (receiveWhole p bad mark e s).pending = s.pending := by
  unfold receiveWhole
  (repeat' split) <;> simp only [↓applyLinks_pending, ↓returnCredit_pending, ↓bump_pending, ↓poolDrop_pending, ↓keepLinkEvent_pending, ↓placeReceived_pending, ↓handMark_pending, apply_ite State.pending, ite_self]

theorem execTrain_pending (p : Fin 3) (w : DWord) (s : State) : (stateOr (execTrain p w s) s).pending = s.pending := by
  unfold execTrain
  simp only [↓receiveControl_pending, stateOr_next]

theorem receiveEnvelope_pending (p : Nat) (e : Envelope) (mark : RingMark) (s : State) : (receiveEnvelope p e mark s).pending = s.pending := by
  unfold receiveEnvelope
  (repeat' split) <;> simp only [↓onPort_pending, ↓finishReception_pending, ↓receiveWhole_pending, ↓headerError_pending, ↓beginReception_pending]

theorem execEnvelopeReceived_pending (p : Fin 3) (e : Envelope) (age : Nat) (ph : Fin 32) (fills : Nat) (s : State) : (stateOr (execEnvelopeReceived p e age ph fills s) s).pending = s.pending := by
  unfold execEnvelopeReceived
  simp only [↓receiveFills_pending, ↓bumpN_pending, ↓receiveEnvelope_pending, apply_ite State.pending, ite_self, stateOr_next, stateOr_ite]

theorem paceCells_pending (p : Nat) (s : State) : (paceCells p s).pending = s.pending := by
  unfold paceCells
  (repeat' split) <;> simp only [↓handOver_pending]

theorem noteLast_pending (parts : Nat → List DWord) (p : Nat) (s : State) : (noteLast parts p s).pending = s.pending := by
  unfold noteLast
  split <;> simp only [↓onCensus_pending, apply_ite State.pending, ite_self]

theorem setCnState_pending (n : Nat) (s : State) : (setCnState n s).pending = s.pending := by
  unfold setCnState
  simp only [↓setF_pending]

theorem cnNotice_pending (code : Nat) (arg : Nat) (s : State) : (cnNotice code arg s).pending = s.pending := by
  unfold cnNotice
  simp only [↓postOnce_pending]

theorem enterRing_pending (ring : Nat) (s : State) : (enterRing ring s).pending = s.pending := by
  unfold enterRing
  simp only [↓setF_pending, ↓setCnState_pending, ↓setB_pending, ↓onCensus_pending, ↓submitRecord_pending, ↓cnNotice_pending, apply_ite State.pending, ite_self]

theorem applyMap_pending (ring : Nat) (parts : Nat → List DWord) (s : State) : (applyMap ring parts s).pending = s.pending := by
  unfold applyMap
  simp only [↓setReg_pending, ↓noteLast_pending, ↓enterRing_pending, ↓onCensus_pending, apply_ite State.pending, ite_self, implies_true, foldl_pending]

theorem takeIndex_pending (index : Nat) (pos : Nat) (s : State) : (takeIndex index pos s).pending = s.pending := by
  unfold takeIndex
  simp only [↓setF_pending, ↓setB_pending, ↓setCnState_pending]

theorem noteCensus_pending (e : Envelope) (s : State) : (noteCensus e s).pending = s.pending := by
  unfold noteCensus
  simp only [↓bump_pending, ↓takeDelivered_pending, ↓onCensus_pending, apply_ite State.pending, ite_self]

theorem censusGuard_pending (op : Nat) (e : Envelope) (f : Envelope → State → State) (s : State) (h0 : ∀ y0 x, (f y0 x).pending = x.pending) : (stateOr (censusGuard op e f s) s).pending = s.pending := by
  unfold censusGuard
  simp only [h0, ↓noteCensus_pending, apply_ite State.pending, ite_self, stateOr_next, stateOr_ite]

theorem writeJnCtl_pending (v : Word) (s : State) : (writeJnCtl v s).pending = s.pending := by
  unfold writeJnCtl
  simp only [↓declineWrite_pending, ↓setB_pending, ↓judgePeer_pending, ↓plainWrite_pending, apply_ite State.pending, ite_self]

theorem startWestLeg_pending (s : State) : (startWestLeg s).pending = s.pending := by
  unfold startWestLeg
  simp only [↓sendCensus_pending, ↓onCensus_pending, apply_ite State.pending, ite_self]

theorem rootNumber_pending (p : Nat) (e : Envelope) (s : State) : (rootNumber p e s).pending = s.pending := by
  unfold rootNumber
  simp only [↓startWestLeg_pending, ↓onCensus_pending, apply_ite State.pending, ite_self]

theorem noteAcross_pending (p : Nat) (e : Envelope) (s : State) : (noteAcross p e s).pending = s.pending := by
  unfold noteAcross
  simp only [↓onCensus_pending, apply_ite State.pending, ite_self]

theorem passWave_pending (arrived : Nat) (onward : Nat) (turns : Nat) (ws : List DWord) (s : State) : (passWave arrived onward turns ws s).pending = s.pending := by
  unfold passWave
  simp only [↓sendCensus_pending, apply_ite State.pending, ite_self]

theorem sendReply_pending (r : Reply) (s : State) : (sendReply r s).pending = s.pending := by
  unfold sendReply
  simp only [↓sendOrWait_pending]

theorem answerCensus_pending (r : Reply) (s : State) : (answerCensus r s).pending = s.pending := by
  unfold answerCensus
  simp only [↓sendReply_pending, ↓onCensus_pending]

theorem noIndex_pending (r : Reply) (s : State) : (noIndex r s).pending = s.pending := by
  unfold noIndex
  simp only [↓cnNotice_pending, ↓answerCensus_pending, ↓setCnState_pending]

theorem receiveNumber_pending (p : Nat) (e : Envelope) (renumber : Bool) (s : State) : (receiveNumber p e renumber s).pending = s.pending := by
  unfold receiveNumber
  grind [setF_pending, noteAcross_pending, passWave_pending, onCensus_pending, answerCensus_pending, takeIndex_pending, noIndex_pending, stateOr, Clock.state, fresh, foldl_pending]

theorem execNumber_pending (p : Fin 3) (e : Envelope) (renumber : Bool) (s : State) : (stateOr (execNumber p e renumber s) s).pending = s.pending := by
  unfold execNumber
  simp only [↓censusGuard_pending, ↓noteCensus_pending, ↓rootNumber_pending, ↓noteAcross_pending, ↓receiveNumber_pending, apply_ite State.pending, ite_self, implies_true]

theorem receiveNeighbour_pending (p : Nat) (e : Envelope) (s : State) : (receiveNeighbour p e s).pending = s.pending := by
  unfold receiveNeighbour
  simp only [↓noteAcross_pending, ↓noteCensus_pending, ↓setB_pending, ↓setF_pending, ↓onCensus_pending, ↓judgePeer_pending, ↓setPeer_pending, apply_ite State.pending, ite_self]

theorem showElecting_pending (s : State) : (showElecting s).pending = s.pending := by
  unfold showElecting
  simp only [↓setCnState_pending, apply_ite State.pending, ite_self]

theorem sendClaim_pending (p : Nat) (ws : List DWord) (s : State) : (sendClaim p ws s).pending = s.pending := by
  unfold sendClaim
  simp only [↓sendCensus_pending, apply_ite State.pending, ite_self]

theorem startElection_pending (s : State) : (startElection s).pending = s.pending := by
  unfold startElection
  simp only [↓showElecting_pending, ↓bump_pending, ↓onCensus_pending, ↓sendClaim_pending, apply_ite State.pending, ite_self]

theorem startWave_pending (s : State) : (startWave s).pending = s.pending := by
  unfold startWave
  simp only [↓takeIndex_pending, ↓setF_pending, ↓onCensus_pending, ↓sendCensus_pending, ↓startWestLeg_pending, apply_ite State.pending, ite_self]

theorem becomeRoot_pending (s : State) : (becomeRoot s).pending = s.pending := by
  unfold becomeRoot
  simp only [↓setF_pending, ↓setB_pending, ↓onCensus_pending, ↓cnNotice_pending, ↓startWave_pending, apply_ite State.pending, ite_self]

theorem receiveClaim_pending (p : Nat) (e : Envelope) (s : State) : (receiveClaim p e s).pending = s.pending := by
  unfold receiveClaim
  simp only [↓showElecting_pending, ↓noteCensus_pending, ↓becomeRoot_pending, ↓onCensus_pending, ↓sendClaim_pending, apply_ite State.pending, ite_self]

theorem writeRtGrp_pending (j : Nat) (v : Word) (s : State) : (writeRtGrp j v s).pending = s.pending := by
  unfold writeRtGrp
  simp only [↓plainWrite_pending]

theorem execClaim_pending (p : Fin 3) (e : Envelope) (s : State) : (stateOr (execClaim p e s) s).pending = s.pending := by
  unfold execClaim
  simp only [↓censusGuard_pending, ↓receiveClaim_pending, implies_true]

theorem writeCnCmd_pending (v : Word) (s : State) : (writeCnCmd v s).pending = s.pending := by
  unfold writeCnCmd
  simp only [↓plainWrite_pending, ↓startElection_pending, ↓startWave_pending, ↓onCensus_pending, ↓setB_pending, apply_ite State.pending, ite_self]

theorem execCnClaim_pending (m : Master) (v : Word) (s : State) : (stateOr (execCnClaim m v s) s).pending = s.pending := by
  unfold execCnClaim
  simp only [↓guardWrite_pending, ↓writeCnCmd_pending, stateOr_next, implies_true]

theorem receiveCommit_pending (e : Envelope) (s : State) : (receiveCommit e s).pending = s.pending := by
  unfold receiveCommit
  grind [noteCensus_pending, setB_pending, onCensus_pending, setF_pending, applyMap_pending, stateOr, Clock.state, fresh, foldl_pending]

theorem execCommit_pending (p : Fin 3) (e : Envelope) (s : State) : (stateOr (execCommit p e s) s).pending = s.pending := by
  unfold execCommit
  simp only [↓censusGuard_pending, ↓receiveCommit_pending, apply_ite State.pending, ite_self, implies_true]

theorem receiveReply_pending (e : Envelope) (s : State) : (receiveReply e s).pending = s.pending := by
  unfold receiveReply
  simp only [↓takeDelivered_pending, ↓onCensus_pending, ↓cnNotice_pending, apply_ite State.pending, ite_self]

theorem execCensusReply_pending (p : Fin 3) (e : Envelope) (s : State) : (stateOr (execCensusReply p e s) s).pending = s.pending := by
  unfold execCensusReply
  simp only [↓receiveReply_pending, apply_ite State.pending, ite_self, stateOr_next]

theorem execNeighbour_pending (p : Fin 3) (e : Envelope) (s : State) : (stateOr (execNeighbour p e s) s).pending = s.pending := by
  unfold execNeighbour
  simp only [↓censusGuard_pending, ↓receiveNeighbour_pending, implies_true]

theorem execLinkEvent_pending (p : Fin 3) (e : Envelope) (s : State) : (stateOr (execLinkEvent p e s) s).pending = s.pending := by
  unfold execLinkEvent
  simp only [↓takeDelivered_pending, ↓applyLink_pending, ↓onCensus_pending, apply_ite State.pending, ite_self, stateOr_next, stateOr_ite]

theorem execRenumber_pending (m : Master) (v : Word) (s : State) : (stateOr (execRenumber m v s) s).pending = s.pending := by
  unfold execRenumber
  simp only [↓guardWrite_pending, ↓writeCnCmd_pending, stateOr_next, implies_true]

theorem execReplyResend_pending (s : State) : (stateOr (execReplyResend s) s).pending = s.pending := by
  unfold execReplyResend
  (repeat' split) <;> simp only [↓sendReply_pending, stateOr_next]

theorem execElectionStart_pending (s : State) : (stateOr (execElectionStart s) s).pending = s.pending := by
  unfold execElectionStart
  simp only [↓startElection_pending, stateOr_next]

theorem execJoin_pending (s : State) : (stateOr (execJoin s) s).pending = s.pending := by
  unfold execJoin
  simp only [↓noIndex_pending, ↓answerCensus_pending, ↓takeIndex_pending, apply_ite State.pending, ite_self, stateOr_next, stateOr_ite]

theorem execCommitSend_pending (s : State) : (stateOr (execCommitSend s) s).pending = s.pending := by
  unfold execCommitSend
  simp only [↓sendOrWait_pending, ↓bump_pending, ↓onCensus_pending, ↓applyMap_pending, apply_ite State.pending, ite_self, stateOr_next, stateOr_ite, implies_true, foldl_pending]

theorem setWords_pending (a : Nat) (x0 : List Word) (s : State) : (setWords a x0 s).pending = s.pending := by
  induction x0 generalizing s a with
  | nil => rfl
  | cons w ws ih => unfold setWords; rw [ih, setReg_pending]

theorem logRecord_pending (v : Verdict) (e : Envelope) (s : State) : (logRecord v e s).pending = s.pending := by
  unfold logRecord
  simp only [↓bump_pending, ↓setB_pending, ↓dlNotice_pending, ↓onDead_pending, ↓setWords_pending, ↓consumePoison_pending, ↓setF_pending, apply_ite State.pending, ite_self]

theorem execPrefetchHoldExpiry_pending (k : Fin 4) (s : State) : (stateOr (execPrefetchHoldExpiry k s) s).pending = s.pending := by
  unfold execPrefetchHoldExpiry
  simp only [↓dropBuf_pending, stateOr_next]

theorem writeUpTail_pending (v : Word) (s : State) : (writeUpTail v s).pending = s.pending := by
  unfold writeUpTail
  simp only [↓setB_pending, ↓declineWrite_pending, ↓plainWrite_pending, apply_ite State.pending, ite_self]

theorem execUpTailWrite_pending (m : Master) (v : Word) (s : State) : (stateOr (execUpTailWrite m v s) s).pending = s.pending := by
  unfold execUpTailWrite
  simp only [↓guardWrite_pending, ↓writeUpTail_pending, stateOr_next, implies_true]

theorem writeDlTail_pending (v : Word) (s : State) : (writeDlTail v s).pending = s.pending := by
  unfold writeDlTail
  simp only [↓setB_pending, ↓declineWrite_pending, ↓plainWrite_pending, apply_ite State.pending, ite_self]

theorem execDlTailWrite_pending (m : Master) (v : Word) (s : State) : (stateOr (execDlTailWrite m v s) s).pending = s.pending := by
  unfold execDlTailWrite
  simp only [↓guardWrite_pending, ↓writeDlTail_pending, stateOr_next, implies_true]

theorem storeBytes_pending (a : Nat) (bs : List Byte) (s : State) : (storeBytes a bs s).pending = s.pending := by
  unfold storeBytes
  simp only [↓setBytes_pending, ↓dropOverlap_pending]

theorem writeDlFaddr_pending (v : Word) (s : State) : (writeDlFaddr v s).pending = s.pending := by
  unfold writeDlFaddr
  simp only [↓setB_pending, ↓declineWrite_pending, ↓plainWrite_pending, apply_ite State.pending, ite_self]

theorem dropFences_pending (c : Nat) (s : State) : (dropFences c s).pending = s.pending := by
  unfold dropFences
  simp only [↓onBridge_pending]

theorem endChannel_pending (c : Nat) (st : Nat) (reason : Nat) (cause : Nat) (pieces : Nat) (s : State) : (endChannel c st reason cause pieces s).pending = s.pending := by
  unfold endChannel
  simp only [↓setF_pending, ↓onChan_pending, ↓dropFences_pending, ↓postOpen_pending, apply_ite State.pending, ite_self]

theorem setSlot_pending (i : Nat) (x : NpSlot) (s : State) : (setSlot i x s).pending = s.pending := by
  unfold setSlot
  simp only [↓onBridge_pending]

theorem moveFences_pending (c : Nat) (i : Nat) (g : Nat) (s : State) : (moveFences c i g s).pending = s.pending := by
  unfold moveFences
  simp only [↓onBridge_pending]

theorem allocate_pending (c : Nat) (s : State) : (allocate c s).pending = s.pending := by
  unfold allocate
  grind [setSlot_pending, setF_pending, moveFences_pending, onChan_pending, stateOr, Clock.state, fresh, foldl_pending]

theorem takePosted_pending (mi : Nat) (s : State) : (takePosted mi s).2.2.pending = s.pending := by
  unfold takePosted; exact onBridge_pending _ _
theorem issue_pending (c : Nat) (ntc : Bool) (s : State) : (issue c ntc s).pending = s.pending := by
  unfold issue
  extract_lets mi e r s1 s2
  have h2 : s2.pending = s.pending := by
    rw [show s2 = onChan c _ s1 from rfl, onChan_pending, show s1 = setF _ _ _ _ from rfl, setF_pending, setReg_pending]
  split
  · rw [endChannel_pending, bump_pending, setB_pending, h2]
  · split
    · dsimp only
      rw [onChan_pending, setF_pending, takePosted_pending, h2]
    · rename_i cv s3 e3 s4 _ _
      have h3 : s3.pending = s.pending := by
        show (if cv then _ else _ : State).pending = _
        split
        · exact (bump_pending _ _).trans h2
        · exact h2
      have h4 : s4.pending = s.pending := (onChan_pending _ _ _).trans h3
      clear_value s4
      split
      · exact (bump_pending _ _).trans h4
      · exact (allocate_pending _ _).trans h4

theorem writeOcData_pending (c : Nat) (j : Nat) (v : Word) (s : State) : (writeOcData c j v s).pending = s.pending := by
  unfold writeOcData
  simp only [↓declineWrite_pending, ↓setB_pending, ↓onChan_pending, ↓plainWrite_pending, apply_ite State.pending, ite_self]

theorem quarantineSlot_pending (i : Nat) (s : State) : (quarantineSlot i s).pending = s.pending := by
  unfold quarantineSlot
  simp only [↓setSlot_pending]

theorem execResponseTimeout_pending (index : Fin 512) (s : State) : (stateOr (execResponseTimeout index s) s).pending = s.pending := by
  unfold execResponseTimeout
  (repeat' split) <;> simp only [↓bump_pending, ↓setB_pending, ↓quarantineSlot_pending, ↓endChannel_pending, stateOr_next]

theorem writeOcCmd_pending (c : Nat) (v : Word) (s : State) : (writeOcCmd c v s).pending = s.pending := by
  unfold writeOcCmd
  simp only [↓setB_pending, ↓declineWrite_pending, ↓issue_pending, ↓plainWrite_pending, apply_ite State.pending, ite_self]

theorem execDlForward_pending (s : State) : (stateOr (execDlForward s) s).pending = s.pending := by
  unfold execDlForward
  simp only [↓bumpN_pending, ↓onDead_pending, ↓setReg_pending, ↓setWords_pending, ↓onChan_pending, ↓writeOcCmd_pending, apply_ite State.pending, ite_self, stateOr_next, stateOr_ite]

theorem keepStamp_pending (index : Nat) (gen : Nat) (w : BitVec 32) (s : State) : (keepStamp index gen w s).pending = s.pending := by
  unfold keepStamp
  simp only [↓onBridge_pending]

theorem acceptChannel_pending (c : Nat) (s : State) : (acceptChannel c s).pending = s.pending := by
  unfold acceptChannel
  grind [allocate_pending, originate_pending, setSlot_pending, endChannel_pending, dropFences_pending, onChan_pending, keepStamp_pending, setF_pending, stateOr, Clock.state, fresh, foldl_pending]

theorem execChannelAccepted_pending (c : Fin 4) (s : State) : (stateOr (execChannelAccepted c s) s).pending = s.pending := by
  unfold execChannelAccepted
  simp only [↓acceptChannel_pending, stateOr_next]

theorem landData_pending (c : Nat) (e : Envelope) (s : State) : (landData c e s).pending = s.pending := by
  unfold landData
  simp only [↓setWords_pending, ↓consumePoison_pending, ↓setB_pending, ↓onChan_pending, apply_ite State.pending, ite_self]

theorem completeChannel_pending (c : Nat) (e : Envelope) (s : State) : (completeChannel c e s).pending = s.pending := by
  unfold completeChannel
  simp only [↓endChannel_pending, ↓landData_pending, apply_ite State.pending, ite_self]

theorem logAnswer_pending (v : Verdict) (e : Envelope) (s : State) : (logAnswer v e s).pending = s.pending := by
  unfold logAnswer
  simp only [↓bump_pending, ↓logRecord_pending, apply_ite State.pending, ite_self]

theorem judgeAnswer_pending (e : Envelope) (s : State) : (judgeAnswer e s).pending = s.pending := by
  unfold judgeAnswer
  grind [quarantineSlot_pending, completeChannel_pending, logAnswer_pending, stateOr, Clock.state, fresh, foldl_pending]

theorem takeAnswer_pending (e : Envelope) (s : State) : (takeAnswer e s).pending = s.pending := by
  unfold takeAnswer
  simp only [↓bump_pending, ↓judgeAnswer_pending, apply_ite State.pending, ite_self]

theorem answerRow_pending (k : BitVec 5) (e : Envelope) (s : State) : (stateOr (answerRow k e s) s).pending = s.pending := by
  unfold answerRow
  simp only [↓takeAnswer_pending, ↓takeDelivered_pending, stateOr_next]

theorem execWriteAck_pending (e : Envelope) (s : State) : (stateOr (execWriteAck e s) s).pending = s.pending := by
  unfold execWriteAck
  simp only [↓answerRow_pending]

theorem execNdn_pending (e : Envelope) (s : State) : (stateOr (execNdn e s) s).pending = s.pending := by
  unfold execNdn
  simp only [↓answerRow_pending]

theorem execReadData_pending (e : Envelope) (s : State) : (stateOr (execReadData e s) s).pending = s.pending := by
  unfold execReadData
  simp only [↓answerRow_pending]

theorem execQuarantineEnd_pending (index : Fin 512) (s : State) : (stateOr (execQuarantineEnd index s) s).pending = s.pending := by
  unfold execQuarantineEnd
  simp only [↓setSlot_pending, apply_ite State.pending, ite_self, stateOr_next, stateOr_ite]

theorem execChannelGo_pending (m : Master) (c : Fin 4) (v : Word) (s : State) : (stateOr (execChannelGo m c v s) s).pending = s.pending := by
  unfold execChannelGo
  simp only [↓guardWrite_pending, ↓writeOcCmd_pending, stateOr_next, implies_true]

theorem execNoticeEnvelopeBuild_pending (q : Fin 32) (bad : BitVec 32) (s : State) : (stateOr (execNoticeEnvelopeBuild q bad s) s).pending = s.pending := by
  unfold execNoticeEnvelopeBuild
  simp only [↓pointerCheck_pending, ↓bump_pending, ↓setB_pending, ↓setPh_pending, ↓onBridge_pending, apply_ite State.pending, ite_self, stateOr_next, stateOr_ite]

theorem execNoticeEnvelopeRelease_pending (q : Fin 32) (s : State) : (stateOr (execNoticeEnvelopeRelease q s) s).pending = s.pending := by
  unfold execNoticeEnvelopeRelease
  grind [originate_pending, setPh_pending, onBridge_pending, stateOr, Clock.state, fresh, foldl_pending]

theorem writePfa_pending (n : Nat) (part : Nat) (v : Word) (s : State) : (writePfa n part v s).pending = s.pending := by
  unfold writePfa
  simp only [↓setB_pending, ↓declineWrite_pending, ↓plainWrite_pending, apply_ite State.pending, ite_self]

theorem setAtStage_pending (t : Nat) (g : Option AtStage) (s : State) : (setAtStage t g s).pending = s.pending := by
  unfold setAtStage
  simp only [↓onTables_pending]

theorem commitEntry_pending (id : MasterId) (t : Nat) (e : Nat) (v : Word) (s : State) : (commitEntry id t e v s).pending = s.pending := by
  unfold commitEntry
  simp only [↓countPart_pending, ↓setAtStage_pending, ↓bump_pending, ↓setB_pending, ↓rewritten_pending, ↓setReg_pending, apply_ite State.pending, ite_self]

theorem execAtEntryCommit_pending (m : Master) (t : Fin 148) (e : Fin 16) (v : Word) (s : State) : (stateOr (execAtEntryCommit m t e v s) s).pending = s.pending := by
  unfold execAtEntryCommit
  simp only [↓guardWrite_pending, ↓commitEntry_pending, stateOr_next, implies_true]

theorem writeFuseCmd_pending (m : Master) (v : Word) (s : State) : (writeFuseCmd m v s).pending = s.pending := by
  unfold writeFuseCmd
  simp only [↓countPart_pending, ↓setReg_pending, ↓onTables_pending, ↓setB_pending, apply_ite State.pending, ite_self]

theorem execFuseRevoke_pending (m : Master) (v : Word) (s : State) : (stateOr (execFuseRevoke m v s) s).pending = s.pending := by
  unfold execFuseRevoke
  simp only [↓guardWrite_pending, ↓writeFuseCmd_pending, stateOr_next, implies_true]

theorem blowKeys_pending (bit : Nat) (s : State) : (blowKeys bit s).pending = s.pending := by
  unfold blowKeys
  simp only [↓setReg_pending]

theorem execFuseProgram_pending (m : Master) (v : Word) (s : State) : (stateOr (execFuseProgram m v s) s).pending = s.pending := by
  unfold execFuseProgram
  simp only [↓guardWrite_pending, ↓writeFuseCmd_pending, stateOr_next, implies_true]

theorem execFuseDone_pending (matched : Bool) (s : State) : (stateOr (execFuseDone matched s) s).pending = s.pending := by
  unfold execFuseDone
  split <;> simp only [↓setB_pending, ↓onTables_pending, ↓blowKeys_pending, ↓setReg_pending, apply_ite State.pending, ite_self, stateOr_next, stateOr_ite, implies_true, foldl_pending]

theorem writeKeyStage_pending (j : Nat) (v : Word) (s : State) : (writeKeyStage j v s).pending = s.pending := by
  unfold writeKeyStage
  simp only [↓onTables_pending]

theorem stageEntry_pending (id : MasterId) (t : Nat) (e : Nat) (k : Nat) (v : Word) (s : State) : (stageEntry id t e k v s).pending = s.pending := by
  unfold stageEntry
  simp only [↓countPart_pending, ↓setAtStage_pending]

theorem execAtEntryStage_pending (m : Master) (t : Fin 148) (e : Fin 16) (k : Fin 2) (v : Word) (s : State) : (stateOr (execAtEntryStage m t e k v s) s).pending = s.pending := by
  unfold execAtEntryStage
  simp only [↓guardWrite_pending, ↓stageEntry_pending, stateOr_next, implies_true]

theorem cntNotice_pending (code : Nat) (arg : Nat) (s : State) : (cntNotice code arg s).pending = s.pending := by
  unfold cntNotice
  simp only [↓postOnce_pending]

theorem takeSnapshot_pending (id : Nat) (isLocal : Bool) (s : State) : (takeSnapshot id isLocal s).pending = s.pending := by
  unfold takeSnapshot
  simp only [↓onMon_pending, ↓setReg_pending, ↓bump_pending, ↓cntNotice_pending, apply_ite State.pending, ite_self]

theorem refuseMark_pending (f : Fld) (kind : Nat) (id : Nat) (s : State) : (refuseMark f kind id s).pending = s.pending := by
  unfold refuseMark
  simp only [↓cntNotice_pending, ↓bump_pending, ↓setB_pending]

theorem takeBank_pending (b : Nat) (due : List SnapMark) (s : State) : (takeBank b due s).pending = s.pending := by
  unfold takeBank
  grind [takeSnapshot_pending, refuseMark_pending, stateOr, Clock.state, fresh, foldl_pending]

theorem acceptMark_pending (id : Nat) (instant : Nat) (s : State) : (acceptMark id instant s).pending = s.pending := by
  unfold acceptMark
  simp only [↓refuseMark_pending, ↓bump_pending, ↓onMon_pending, apply_ite State.pending, ite_self]

theorem execSnapshotMark_pending (e : Envelope) (s : State) : (stateOr (execSnapshotMark e s) s).pending = s.pending := by
  unfold execSnapshotMark
  simp only [↓takeDelivered_pending, ↓bump_pending, ↓acceptMark_pending, apply_ite State.pending, ite_self, stateOr_next]

theorem execArrayCopyDone_pending (s : State) : (stateOr (execArrayCopyDone s) s).pending = s.pending := by
  unfold execArrayCopyDone
  simp only [↓onMon_pending, ↓setB_pending, apply_ite State.pending, ite_self, stateOr_next, stateOr_ite]

theorem writeCntSnap_pending (v : Word) (s : State) : (writeCntSnap v s).pending = s.pending := by
  unfold writeCntSnap
  simp only [↓plainWrite_pending, ↓setB_pending, ↓takeSnapshot_pending, apply_ite State.pending, ite_self]

theorem execCntSnap_pending (m : Master) (v : Word) (s : State) : (stateOr (execCntSnap m v s) s).pending = s.pending := by
  unfold execCntSnap
  simp only [↓guardWrite_pending, ↓writeCntSnap_pending, stateOr_next, implies_true]

theorem execSnapshotTake_pending (s : State) : (stateOr (execSnapshotTake s) s).pending = s.pending := by
  unfold execSnapshotTake
  simp only [↓onMon_pending, ↓takeBank_pending, stateOr_next]

theorem copyMem_pending (src : Nat) (dst : Nat) (n : Nat) (s : State) : (copyMem src dst n s).pending = s.pending := by
  unfold copyMem
  simp only

theorem startSeal_pending (s : State) : (startSeal s).pending = s.pending := by
  unfold startSeal
  simp only [↓copyMem_pending]

theorem wordPoison_pending (a : Nat) (place : Nat) (whole : Bool) (pois : Bool) (s : State) : (wordPoison a place whole pois s).pending = s.pending := by
  unfold wordPoison
  simp only [↓setPoison_pending, ↓bump_pending, apply_ite State.pending, ite_self]

theorem writeAt_pending (a : Nat) (place : Nat) (bs : List Byte) (pois : Bool) (s : State) : (writeAt a place bs pois s).pending = s.pending := by
  unfold writeAt
  simp only [↓setBytes_pending, ↓wordPoison_pending, apply_ite State.pending, ite_self, implies_true, foldl_pending]

theorem masterWrite_pending (a : Nat) (bs : List Byte) (pois : Bool) (s : State) : (masterWrite a bs pois s).pending = s.pending := by
  unfold masterWrite
  simp only [↓writeAt_pending, ↓dropOverlap_pending]

theorem boundaryWrite_pending (off : Nat) (bs : List Byte) (s : State) : (boundaryWrite off bs s).pending = s.pending := by
  unfold boundaryWrite
  simp only [↓writeAt_pending]

theorem setImageBit_pending (base : Nat) (bit : Nat) (b : Bool) (s : State) : (setImageBit base bit b s).pending = s.pending := by
  unfold setImageBit
  simp only [↓setByte_pending]

theorem endSeal_pending (s : State) : (endSeal s).pending = s.pending := by
  unfold endSeal
  simp only [↓copyMem_pending, apply_ite State.pending, ite_self]

end Sys2Proof.Machine
end

