-- ==== Sys2Proof/Laws/Queue3.lean ====
section
/-! SUPPORT. Every operation and meaning leaves the queue of commands as it is. The operations and meanings of Images, Interlock, Integrity, Time, NetTime, TrackCore, Pins, Scribe. -/

namespace Sys2Proof.Machine

theorem swapOutput_pending (s : State) : (swapOutput s).pending = s.pending := by
  unfold swapOutput
  simp only [↓copyMem_pending]

theorem offerPartner_pending (type : Nat) (e : Envelope) (s : State) : (offerPartner type e s).1.pending = s.pending := by
  unfold offerPartner
  grind [sendOnPort_pending, bump_pending, stateOr, Clock.state, fresh, foldl_pending]

theorem dpxNotice_pending (code : Nat) (arg : Nat) (s : State) : (dpxNotice code arg s).pending = s.pending := by
  unfold dpxNotice
  simp only [↓postOnce_pending]

theorem selfTestKick_pending (s : State) : (selfTestKick s).pending = s.pending := by
  unfold selfTestKick
  simp only [↓bump_pending, ↓setF_pending, apply_ite State.pending, ite_self]

theorem healthReport_pending (cause : Nat) (s : State) : (healthReport cause s).pending = s.pending := by
  unfold healthReport
  simp only [↓originate_pending, ↓onDpx_pending, apply_ite State.pending, ite_self]

theorem setDpxState_pending (st : Nat) (cause : Nat) (s : State) : (setDpxState st cause s).pending = s.pending := by
  unfold setDpxState
  simp only [↓setF_pending, ↓dpxNotice_pending, ↓selfTestKick_pending, ↓healthReport_pending, apply_ite State.pending, ite_self]

theorem silence_pending (s : State) : (silence s).pending = s.pending := by
  unfold silence
  simp only [↓bump_pending, ↓dropTarget_pending, apply_ite State.pending, ite_self, implies_true, foldl_pending]

theorem cutFrames_pending (s : State) : (cutFrames s).pending = s.pending := by
  unfold cutFrames
  grind [setReg_pending, stateOr, Clock.state, fresh, foldl_pending]

theorem dropClaim_pending (s : State) : (dropClaim s).pending = s.pending := by
  unfold dropClaim
  simp only [↓bump_pending, ↓setB_pending, ↓cutFrames_pending, ↓onDpx_pending, apply_ite State.pending, ite_self]

theorem giveUp_pending (s : State) : (giveUp s).pending = s.pending := by
  unfold giveUp
  simp only [↓setDpxState_pending, ↓silence_pending, ↓dropClaim_pending, apply_ite State.pending, ite_self]

theorem latchFault_pending (bit : Nat) (s : State) : (latchFault bit s).pending = s.pending := by
  unfold latchFault
  simp only [↓bump_pending, ↓setReg_pending, ↓giveUp_pending, apply_ite State.pending, ite_self]

theorem retryPartner_pending (s : State) (x : Nat × Envelope × Nat) : (retryPartner s x).pending = s.pending := by
  unfold retryPartner
  extract_lets gone
  have hg : ∀ u, (gone u).pending = u.pending := fun u => onDpx_pending _ _
  have h := offerPartner_pending x.1 x.2.1 s
  clear_value gone
  split
  · rename_i t e; rw [e] at h; exact (hg _).trans h
  · rename_i t _ _ e
    rw [e] at h
    split
    · rfl
    · exact (bump_pending _ _).trans ((hg _).trans h)

theorem sendPartner_pending (cls : Nat) (type : Nat) (ws : List DWord) (s : State) : (sendPartner cls type ws s).pending = s.pending := by
  unfold sendPartner
  grind [offerPartner_pending, onDpx_pending, stateOr, Clock.state, fresh, foldl_pending]

theorem retryPartners_pending (s : State) : (retryPartners s).pending = s.pending := by
  unfold retryPartners
  simp only [↓retryPartner_pending, implies_true, foldl_pending]

theorem reviewClaim_pending (s : State) : (reviewClaim s).pending = s.pending := by
  unfold reviewClaim
  simp only [↓dropClaim_pending, apply_ite State.pending, ite_self]

theorem miNotice_pending (inst : Nat) (code : Nat) (arg : Nat) (s : State) : (miNotice inst code arg s).pending = s.pending := by
  unfold miNotice
  simp only [↓postOnce_pending]

theorem freshError_pending (c : Nat) (a : Nat) (place : Nat) (s : State) : (freshError c a place s).pending = s.pending := by
  unfold freshError
  simp only [↓bump_pending, ↓setPoison_pending, ↓setReg_pending, ↓miNotice_pending, ↓latchFault_pending, apply_ite State.pending, ite_self]

theorem correctedWord_pending (c : Nat) (a : Nat) (s : State) : (correctedWord c a s).pending = s.pending := by
  unfold correctedWord
  simp only [↓setReg_pending, ↓bump_pending, ↓setF_pending, ↓miNotice_pending, apply_ite State.pending, ite_self]

theorem parityRecord_pending (kind : Nat) (cap : Nat) (inst : Nat) (a : Nat) (s : State) : (parityRecord kind cap inst a s).pending = s.pending := by
  unfold parityRecord
  simp only [↓bump_pending, ↓setReg_pending, ↓miNotice_pending]

theorem tmNotice_pending (inst : Nat) (code : Nat) (arg : Nat) (s : State) : (tmNotice inst code arg s).pending = s.pending := by
  unfold tmNotice
  simp only [↓postOnce_pending]

theorem applyInc_pending (n : Nat) (inc : Nat) (s : State) : (applyInc n inc s).pending = s.pending := by
  unfold applyInc
  simp only [↓setReg_pending, ↓setItb_pending, ↓bump_pending, ↓setB_pending, ↓tmNotice_pending, apply_ite State.pending, ite_self]

theorem commitInc_pending (id : MasterId) (n : Nat) (v : Word) (s : State) : (commitInc id n v s).pending = s.pending := by
  unfold commitInc
  simp only [↓applyInc_pending, ↓setStage_pending]

theorem execItbIncCommit_pending (m : Master) (n : Fin 4) (v : Word) (s : State) : (stateOr (execItbIncCommit m n v s) s).pending = s.pending := by
  unfold execItbIncCommit
  simp only [↓guardWrite_pending, ↓commitInc_pending, stateOr_next, implies_true]

theorem commitVd_pending (id : MasterId) (d : Nat) (which : Nat) (v : Word) (s : State) : (commitVd id d which v s).pending = s.pending := by
  unfold commitVd
  simp only [↓setStage_pending, ↓onVd_pending, apply_ite State.pending, ite_self]

theorem applyStep_pending (n : Nat) (abs : Bool) (val : Nat) (s : State) : (applyStep n abs val s).pending = s.pending := by
  unfold applyStep
  simp only [↓setItb_pending]

theorem writeVdCtl_pending (d : Nat) (v : Word) (s : State) : (writeVdCtl d v s).pending = s.pending := by
  unfold writeVdCtl
  simp only [↓plainWrite_pending, ↓onVd_pending, apply_ite State.pending, ite_self]

theorem execVdLoad_pending (m : Master) (d : Fin 16) (v : Word) (s : State) : (stateOr (execVdLoad m d v s) s).pending = s.pending := by
  unfold execVdLoad
  simp only [↓guardWrite_pending, ↓writeVdCtl_pending, stateOr_next, implies_true]

theorem markStep_pending (s : State) : (markStep s).pending = s.pending := by
  unfold markStep
  simp only [↓onTime_pending]

theorem noteStep_pending (n : Nat) (s : State) : (noteStep n s).pending = s.pending := by
  unfold noteStep
  simp only [↓bump_pending, ↓setB_pending, ↓tmNotice_pending, ↓markStep_pending, apply_ite State.pending, ite_self]

theorem putVd_pending (d : Nat) (base : Nat) (anchor : Nat) (rate : Nat) (s : State) : (putVd d base anchor rate s).pending = s.pending := by
  unfold putVd
  simp only [↓setReg_pending]

theorem vdEdge_pending (changed : Nat → Bool) (d : Nat) (s : State) : (vdEdge changed d s).pending = s.pending := by
  unfold vdEdge
  simp only [↓onVd_pending, ↓putVd_pending, apply_ite State.pending, ite_self]

theorem fclkEdge_pending (s : State) : (fclkEdge s).pending = s.pending := by
  unfold fclkEdge
  simp only [↓onTime_pending, ↓noteStep_pending, ↓vdEdge_pending, apply_ite State.pending, ite_self, implies_true, foldl_pending]

theorem commitStep_pending (id : MasterId) (n : Nat) (v : Word) (s : State) : (commitStep id n v s).pending = s.pending := by
  unfold commitStep
  simp only [↓applyStep_pending, ↓setStage_pending]

theorem execItbStep_pending (m : Master) (n : Fin 4) (v : Word) (s : State) : (stateOr (execItbStep m n v s) s).pending = s.pending := by
  unfold execItbStep
  simp only [↓guardWrite_pending, ↓commitStep_pending, stateOr_next, implies_true]

theorem timeStarted_pending (p : Nat) (e : Envelope) (m : RingMark) (s : State) : (timeStarted p e m s).pending = s.pending := by
  unfold timeStarted
  grind [onNet_pending, stateOr, Clock.state, fresh, foldl_pending]

theorem timeGuard_pending (kind : BitVec 5) (words : Nat) (age : Nat) (ph : Nat) (e : Envelope) (f : RingMark → Envelope → State → State) (s : State) (h0 : ∀ y0 y1 x, (f y0 y1 x).pending = x.pending) : (stateOr (timeGuard kind words age ph e f s) s).pending = s.pending := by
  unfold timeGuard
  simp only [h0, ↓takeDelivered_pending, apply_ite State.pending, ite_self, stateOr_next]

theorem takeReply_pending (p : Nat) (m : RingMark) (e : Envelope) (s : State) : (takeReply p m e s).pending = s.pending := by
  unfold takeReply
  grind [bump_pending, setReg_pending, onNet_pending, stateOr, Clock.state, fresh, foldl_pending]

theorem followParent_pending (c : Candidate) (s : State) : (followParent c s).pending = s.pending := by
  unfold followParent
  simp only [↓setF_pending, ↓tmNotice_pending, ↓bump_pending, apply_ite State.pending, ite_self]

theorem loseParent_pending (s : State) : (loseParent s).pending = s.pending := by
  unfold loseParent
  simp only [↓setF_pending, ↓setB_pending, ↓tmNotice_pending, ↓bump_pending, apply_ite State.pending, ite_self]

theorem judgeParents_pending (s : State) : (judgeParents s).pending = s.pending := by
  unfold judgeParents
  grind [setB_pending, followParent_pending, loseParent_pending, stateOr, Clock.state, fresh, foldl_pending]

theorem execParentLost_pending (s : State) : (stateOr (execParentLost s) s).pending = s.pending := by
  unfold execParentLost
  simp only [↓judgeParents_pending, stateOr_next]

theorem sendTime_pending (p : Nat) (kind : BitVec 5) (payload : List DWord) (s : State) : (sendTime p kind payload s).pending = s.pending := by
  unfold sendTime
  simp only [↓sendOnPort_pending]

theorem answerProbe_pending (p : Nat) (m : RingMark) (e : Envelope) (s : State) : (answerProbe p m e s).pending = s.pending := by
  unfold answerProbe
  simp only [↓bump_pending, ↓onNet_pending, ↓sendTime_pending, apply_ite State.pending, ite_self]

theorem execDelayReply_pending (p : Fin 3) (e : Envelope) (age : Nat) (ph : Fin 32) (s : State) : (stateOr (execDelayReply p e age ph s) s).pending = s.pending := by
  unfold execDelayReply
  simp only [↓timeGuard_pending, ↓takeReply_pending, implies_true]

theorem servoSample_pending (ofs : Int) (stepped : Bool) (s : State) : (servoSample ofs stepped s).pending = s.pending := by
  unfold servoSample
  grind [applyStep_pending, onTime_pending, fresh_pending, applyInc_pending, setB_pending, stateOr, Clock.state, fresh, foldl_pending]

theorem execDelayProbe_pending (p : Fin 3) (e : Envelope) (age : Nat) (ph : Fin 32) (s : State) : (stateOr (execDelayProbe p e age ph s) s).pending = s.pending := by
  unfold execDelayProbe
  simp only [↓timeGuard_pending, ↓answerProbe_pending, implies_true]

theorem storeBeacon_pending (p : Nat) (m : RingMark) (e : Envelope) (s : State) : (storeBeacon p m e s).pending = s.pending := by
  unfold storeBeacon
  simp only [↓setF_pending, ↓onNet_pending]

theorem takeBeacon_pending (p : Nat) (m : RingMark) (e : Envelope) (s : State) : (takeBeacon p m e s).pending = s.pending := by
  unfold takeBeacon
  grind [storeBeacon_pending, bump_pending, setReg_pending, setB_pending, setF_pending, judgeParents_pending, post_pending, servoSample_pending, stateOr, Clock.state, fresh, foldl_pending]

theorem execBeacon_pending (p : Fin 3) (e : Envelope) (age : Nat) (ph : Fin 32) (s : State) : (stateOr (execBeacon p e age ph s) s).pending = s.pending := by
  unfold execBeacon
  simp only [↓timeGuard_pending, ↓takeBeacon_pending, implies_true]

theorem writeTm_pending (a : Nat) (v : Word) (s : State) : (writeTm a v s).pending = s.pending := by
  unfold writeTm
  simp only [↓judgeParents_pending, ↓plainWrite_pending]

theorem execBeaconSend_pending (p : Fin 3) (s : State) : (stateOr (execBeaconSend p s) s).pending = s.pending := by
  unfold execBeaconSend
  simp only [↓bump_pending, ↓sendTime_pending, ↓onNet_pending, apply_ite State.pending, ite_self, stateOr_next, stateOr_ite]

theorem execDelayProbeSend_pending (p : Fin 3) (s : State) : (stateOr (execDelayProbeSend p s) s).pending = s.pending := by
  unfold execDelayProbeSend
  simp only [↓bump_pending, ↓sendTime_pending, ↓onNet_pending, apply_ite State.pending, ite_self, stateOr_next, stateOr_ite]

theorem postMany_pending (q : Nat) (cap : Nat) (inst : Nat) (code : Nat) (arg : Nat) (s : State) : (postMany q cap inst code arg s).pending = s.pending := by
  unfold postMany
  simp only [↓post_pending, ↓onNotices_pending, apply_ite State.pending, ite_self]

theorem wmNotice_pending (track : Nat) (code : Nat) (arg : Nat) (s : State) : (wmNotice track code arg s).pending = s.pending := by
  unfold wmNotice
  simp only [↓postMany_pending]

theorem tkNotice_pending (n : Nat) (code : Nat) (arg : Nat) (s : State) : (tkNotice n code arg s).pending = s.pending := by
  unfold tkNotice
  simp only [↓postMany_pending]

theorem wmPut_pending (i : Nat) (w : Nat) (v : Nat) (s : State) : (wmPut i w v s).pending = s.pending := by
  unfold wmPut
  simp only [↓wordPoison_pending, ↓setMem32_pending, apply_ite State.pending, ite_self]

theorem wmPutPos_pending (i : Nat) (pos : Nat) (s : State) : (wmPutPos i pos s).pending = s.pending := by
  unfold wmPutPos
  simp only [↓wmPut_pending, ↓setPoison_pending, ↓setMem64_pending, apply_ite State.pending, ite_self]

theorem captureArm_pending (n : Nat) (pos : Nat) (live : Bool) (s : State) : (captureArm n pos live s).pending = s.pending := by
  unfold captureArm
  simp only [↓tkNotice_pending, ↓bump_pending, ↓setB_pending, ↓wmPut_pending, ↓wmPutPos_pending, ↓setF_pending, apply_ite State.pending, ite_self]

theorem commitCapture_pending (l : CapLatch) (pm : DWord) (s : State) : (commitCapture l pm s).pending = s.pending := by
  unfold commitCapture
  simp only [↓setReg_pending, ↓tkNotice_pending, ↓bump_pending, ↓captureArm_pending]

theorem windowVel_pending (w : List (Nat × Nat)) (k : Nat) (s : State) : (windowVel w k s).2.pending = s.pending := by
  unfold windowVel
  split
  · extract_lets dp dt v
    clear_value v dt
    split
    · exact fresh_pending 64 s
    · rfl
  · rfl

theorem stepTrack_pending (n : Nat) (d : Int) (instant : Nat) (s : State) : (stepTrack n d instant s).pending = s.pending := by
  unfold stepTrack
  simp only [↓windowVel_pending, ↓bump_pending, ↓onTrack_pending, apply_ite State.pending, ite_self]

theorem feedTracks_pending (src : Nat) (sel : Nat) (d : Int) (instant : Nat) (s : State) : (feedTracks src sel d instant s).pending = s.pending := by
  unfold feedTracks
  simp only [↓stepTrack_pending, apply_ite State.pending, ite_self, implies_true, foldl_pending]

theorem wmOutcome_pending (i : Nat) (bit : Nat) (ns : Nat) (s : State) : (wmOutcome i bit ns s).pending = s.pending := by
  unfold wmOutcome
  simp only [↓wmPut_pending]

theorem setEntry_pending (i : Nat) (e : Option WmEntry) (s : State) : (setEntry i e s).pending = s.pending := by
  unfold setEntry
  simp only [↓onTracks_pending]

theorem wmDisarm_pending (i : Nat) (s : State) : (wmDisarm i s).pending = s.pending := by
  unfold wmDisarm
  simp only [↓setEntry_pending, ↓wmPut_pending]

theorem wmBad_pending (i : Nat) (track : Nat) (ns : Nat) (s : State) : (wmBad i track ns s).pending = s.pending := by
  unfold wmBad
  simp only [↓wmOutcome_pending, ↓bump_pending, ↓setB_pending, ↓wmDisarm_pending, ↓wmNotice_pending]

theorem wmMove_pending (i : Nat) (forward : Bool) (s : State) : (wmMove i forward s).pending = s.pending := by
  unfold wmMove
  split <;> simp only [↓bumpN_pending, ↓wmPutPos_pending, ↓setEntry_pending]

theorem wmMiss_pending (i : Nat) (forward : Bool) (e : WmEntry) (s : State) : (wmMiss i forward e s).pending = s.pending := by
  unfold wmMiss
  simp only [↓wmOutcome_pending, ↓bump_pending, ↓setB_pending, ↓wmNotice_pending, ↓wmDisarm_pending, ↓wmBad_pending, ↓wmMove_pending, apply_ite State.pending, ite_self]

theorem wmEnqueue_pending (i : Nat) (late : Bool) (forward : Bool) (e : WmEntry) (s : State) : (wmEnqueue i late forward e s).pending = s.pending := by
  unfold wmEnqueue
  simp only [↓bump_pending, ↓wmMiss_pending, ↓setEntry_pending, ↓onTracks_pending, apply_ite State.pending, ite_self]

theorem wmJudge_pending (fromStale : Bool) (i : Nat) (forward : Bool) (d : Int) (e : WmEntry) (s : State) : (wmJudge fromStale i forward d e s).pending = s.pending := by
  unfold wmJudge
  simp only [↓wmEnqueue_pending, ↓wmMiss_pending, apply_ite State.pending, ite_self]

theorem evalEntry_pending (mode : EvalMode) (x : Nat × WmEntry) (s : State) : (evalEntry mode x s).pending = s.pending := by
  unfold evalEntry
  (repeat' split) <;> simp only [↓setEntry_pending, ↓wmJudge_pending, ↓wmEnqueue_pending, apply_ite State.pending, ite_self]

theorem evalTrack_pending (mode : EvalMode) (n : Nat) (s : State) : (evalTrack mode n s).pending = s.pending := by
  unfold evalTrack
  simp only [↓setEntry_pending, ↓evalEntry_pending, apply_ite State.pending, ite_self, implies_true, foldl_pending]

theorem feedField_pending (entry : Nat) (iw : Nat) (value : Nat) (instant : Nat) (s : State) : (feedField entry iw value instant s).pending = s.pending := by
  unfold feedField
  grind [onTracks_pending, onTrack_pending, bump_pending, stepTrack_pending, stateOr, Clock.state, fresh, foldl_pending]

theorem dropFiring_pending (s : State) (f : Firing) : (dropFiring s f).pending = s.pending := by
  unfold dropFiring
  split <;> simp only [↓setEntry_pending]

theorem reviewFiring_pending (s : State) : (reviewFiring s).pending = s.pending := by
  unfold reviewFiring
  simp only [↓onTracks_pending, ↓evalTrack_pending, ↓dropFiring_pending, apply_ite State.pending, ite_self, implies_true, foldl_pending]

theorem wmDiscard_pending (i : Nat) (track : Nat) (s : State) : (wmDiscard i track s).pending = s.pending := by
  unfold wmDiscard
  simp only [↓wmOutcome_pending, ↓bump_pending, ↓setB_pending, ↓wmDisarm_pending, ↓wmNotice_pending]

theorem stalePolicy_pending (n : Nat) (s : State) : (stalePolicy n s).pending = s.pending := by
  unfold stalePolicy
  simp only [↓wmDiscard_pending, apply_ite State.pending, ite_self, implies_true, foldl_pending]

theorem judgedJump_pending (fromStale : Bool) (n : Nat) (s : State) : (judgedJump fromStale n s).pending = s.pending := by
  unfold judgedJump
  simp only [↓bump_pending, ↓setB_pending, ↓evalTrack_pending, ↓onTrack_pending]

theorem reviewTrack_pending (n : Nat) (s : State) : (reviewTrack n s).pending = s.pending := by
  unfold reviewTrack
  simp only [↓onTrack_pending, ↓tkNotice_pending, ↓setF_pending, ↓stalePolicy_pending, ↓evalTrack_pending, ↓judgedJump_pending, apply_ite State.pending, ite_self]

theorem reviewTracks_pending (s : State) : (reviewTracks s).pending = s.pending := by
  unfold reviewTracks
  simp only [↓reviewTrack_pending, implies_true, foldl_pending]

theorem reviewSource_pending (src : Nat) (sel : Nat) (s : State) : (reviewSource src sel s).pending = s.pending := by
  unfold reviewSource
  simp only [↓reviewTrack_pending, apply_ite State.pending, ite_self, implies_true, foldl_pending]

theorem noteStored_pending (a : Nat) (len : Nat) (s : State) : (noteStored a len s).pending = s.pending := by
  unfold noteStored
  simp only [↓onTracks_pending, apply_ite State.pending, ite_self]

theorem bankNotice_pending (b : Nat) (code : Nat) (s : State) : (bankNotice b code s).pending = s.pending := by
  unfold bankNotice
  simp only [↓post_pending]

theorem refreshPin_pending (p : Nat) (s : State) : (refreshPin p s).pending = s.pending := by
  unfold refreshPin
  simp only [↓setB_pending, apply_ite State.pending, ite_self]

theorem refreshBank_pending (b : Nat) (s : State) : (refreshBank b s).pending = s.pending := by
  unfold refreshBank
  simp only [↓refreshPin_pending, implies_true, foldl_pending]

theorem setSupplyFault_pending (b : Nat) (on : Bool) (s : State) : (setSupplyFault b on s).pending = s.pending := by
  unfold setSupplyFault
  simp only [↓setB_pending, ↓reviewTracks_pending, ↓refreshBank_pending, implies_true, foldl_pending]

theorem startSupplyFault_pending (b : Nat) (s : State) : (startSupplyFault b s).pending = s.pending := by
  unfold startSupplyFault
  simp only [↓bankNotice_pending, ↓setSupplyFault_pending, apply_ite State.pending, ite_self]

theorem execSupplyFaultStart_pending (b : Fin 16) (s : State) : (stateOr (execSupplyFaultStart b s) s).pending = s.pending := by
  unfold execSupplyFaultStart
  simp only [↓startSupplyFault_pending, stateOr_next]

theorem endSupplyFault_pending (b : Nat) (s : State) : (endSupplyFault b s).pending = s.pending := by
  unfold endSupplyFault
  simp only [↓bankNotice_pending, ↓setSupplyFault_pending, apply_ite State.pending, ite_self]

theorem execSupplyFaultEnd_pending (b : Fin 16) (s : State) : (stateOr (execSupplyFaultEnd b s) s).pending = s.pending := by
  unfold execSupplyFaultEnd
  simp only [↓endSupplyFault_pending, apply_ite State.pending, ite_self, stateOr_next]

theorem readBankCap_pending (id : MasterId) (b : Nat) (s : State) : (readBankCap id b s).1.pending = s.pending := by
  unfold readBankCap
  split <;> simp only [↓latchUpper_pending, ↓setF_pending, ↓onBank_pending]

theorem refreshPins_pending (s : State) : (refreshPins s).pending = s.pending := by
  unfold refreshPins
  simp only [↓refreshPin_pending, implies_true, foldl_pending]

theorem goLive_pending (boundary : Bool) (s : State) : (goLive boundary s).pending = s.pending := by
  unfold goLive
  simp only [↓onField_pending, apply_ite State.pending, ite_self]

theorem takeMapped_pending (p : Nat) (held : Bool) (s : State) : (takeMapped p held s).pending = s.pending := by
  unfold takeMapped
  simp only [↓onPin_pending, ↓consumePoison_pending, ↓setB_pending, apply_ite State.pending, ite_self]

theorem holdSafe_pending (p : Nat) (s : State) : (holdSafe p s).pending = s.pending := by
  unfold holdSafe
  simp only [↓onPin_pending, apply_ite State.pending, ite_self]

theorem takeAllMapped_pending (s : State) : (takeAllMapped s).pending = s.pending := by
  unfold takeAllMapped
  simp only [↓takeMapped_pending, ↓holdSafe_pending, implies_true, foldl_pending]

theorem mappedOutputs_pending (boundary : Bool) (s : State) : (mappedOutputs boundary s).pending = s.pending := by
  unfold mappedOutputs
  simp only [↓refreshPins_pending, ↓goLive_pending, ↓takeAllMapped_pending]

theorem captureRecord_pending (p : Nat) (rising : Bool) (ep : Episode) (s : State) : (captureRecord p rising ep s).pending = s.pending := by
  unfold captureRecord
  simp only [↓bump_pending, ↓setB_pending, ↓onBank_pending, ↓setF_pending, ↓postPm_pending, apply_ite State.pending, ite_self]

theorem commitEdge_pending (p : Nat) (rising : Bool) (ep : Episode) (s : State) : (commitEdge p rising ep s).pending = s.pending := by
  unfold commitEdge
  (repeat' split) <;> simp only [↓captureRecord_pending, ↓commitCapture_pending]

theorem acceptEdge_pending (p : Nat) (ep : Episode) (s : State) : (acceptEdge p ep s).pending = s.pending := by
  unfold acceptEdge
  simp only [↓onPin_pending, ↓commitEdge_pending, ↓setB_pending, apply_ite State.pending, ite_self]

theorem execEdgeAccepted_pending (p : Fin 256) (s : State) : (stateOr (execEdgeAccepted p s) s).pending = s.pending := by
  unfold execEdgeAccepted
  split <;> simp only [↓acceptEdge_pending, apply_ite State.pending, ite_self, stateOr_next]

theorem execBankCapRead_pending (m : Master) (b : Fin 16) (s : State) : (stateOr (execBankCapRead m b s) s).pending = s.pending := by
  unfold execBankCapRead
  simp only [↓guardRead_pending, ↓readBankCap_pending, stateOr_next, implies_true]

theorem lineRose_pending (p : Nat) (level : Bool) (age : Nat) (s : State) : (lineRose p level age s).pending = s.pending := by
  unfold lineRose
  simp only [↓onField_pending, apply_ite State.pending, ite_self]

theorem showRaw_pending (p : Nat) (s : State) : (showRaw p s).pending = s.pending := by
  unfold showRaw
  simp only [↓setB_pending]

theorem encoderGlitch_pending (p : Nat) (s : State) : (encoderGlitch p s).pending = s.pending := by
  unfold encoderGlitch
  simp only [↓bump_pending, apply_ite State.pending, ite_self]

theorem execPinTransition_pending (p : Fin 256) (level : Bool) (age : Nat) (s : State) : (stateOr (execPinTransition p level age s) s).pending = s.pending := by
  unfold execPinTransition
  grind [lineRose_pending, showRaw_pending, onPin_pending, encoderGlitch_pending, acceptEdge_pending, stateOr, Clock.state, fresh, foldl_pending]

theorem writePinMap_pending (p : Nat) (v : Word) (s : State) : (writePinMap p v s).pending = s.pending := by
  unfold writePinMap
  simp only [↓refreshPin_pending, ↓takeMapped_pending, ↓plainWrite_pending]

theorem driveWout_pending (p : Nat) (level : Bool) (s : State) : (driveWout p level s).pending = s.pending := by
  unfold driveWout
  simp only [↓refreshPin_pending, ↓onPin_pending, apply_ite State.pending, ite_self]

theorem writeBankOut_pending (b : Nat) (set : Bool) (v : Word) (s : State) : (writeBankOut b set v s).pending = s.pending := by
  unfold writeBankOut
  simp only [↓countPart_pending, ↓refreshPin_pending, ↓setB_pending, apply_ite State.pending, ite_self, implies_true, foldl_pending]

theorem execBankOutClr_pending (m : Master) (b : Fin 16) (v : Word) (s : State) : (stateOr (execBankOutClr m b v s) s).pending = s.pending := by
  unfold execBankOutClr
  simp only [↓guardWrite_pending, ↓writeBankOut_pending, stateOr_next, implies_true]

theorem safePins_pending (s : State) : (safePins s).pending = s.pending := by
  unfold safePins
  generalize List.range 256 = l
  extract_lets x
  have hx : x.pending = s.pending := by
    show (if serviceMode s = 1 then _ else _ : State).pending = _
    split
    · rfl
    · exact onField_pending _ _
  exact (refreshPins_pending _).trans ((foldl_pending _ (fun x b => holdSafe_pending _ _) _ _).trans hx)

theorem newFunc_pending (p : Nat) (s : State) : (newFunc p s).pending = s.pending := by
  unfold newFunc
  simp only [↓onPin_pending, ↓setB_pending, ↓takeMapped_pending, apply_ite State.pending, ite_self]

theorem writePinCfg_pending (p : Nat) (v : Word) (s : State) : (writePinCfg p v s).1.pending = s.pending := by
  unfold writePinCfg
  grind [bump_pending, setB_pending, declineWrite_pending, plainWrite_pending, newFunc_pending, refreshPin_pending, showRaw_pending, holdSafe_pending, stateOr, Clock.state, fresh, foldl_pending]

theorem execPinCfgWrite_pending (m : Master) (p : Fin 256) (v : Word) (s : State) : (stateOr (execPinCfgWrite m p v s) s).pending = s.pending := by
  unfold execPinCfgWrite
  simp only [↓guardWrite_pending, ↓writePinCfg_pending, stateOr_next, implies_true]

theorem execEdgeRejected_pending (p : Fin 256) (s : State) : (stateOr (execEdgeRejected p s) s).pending = s.pending := by
  unfold execEdgeRejected
  split <;> simp only [↓bump_pending, ↓onPin_pending, ↓setF_pending, apply_ite State.pending, ite_self, stateOr_next, stateOr_ite]

theorem writePinOut_pending (p : Nat) (v : Word) (s : State) : (writePinOut p v s).pending = s.pending := by
  unfold writePinOut
  simp only [↓plainWrite_pending, ↓setB_pending, ↓refreshPin_pending, apply_ite State.pending, ite_self]

theorem execPinOutToggle_pending (m : Master) (p : Fin 256) (v : Word) (s : State) : (stateOr (execPinOutToggle m p v s) s).pending = s.pending := by
  unfold execPinOutToggle
  simp only [↓guardWrite_pending, ↓writePinOut_pending, stateOr_next, implies_true]

theorem execPinOutWrite_pending (m : Master) (p : Fin 256) (v : Word) (s : State) : (stateOr (execPinOutWrite m p v s) s).pending = s.pending := by
  unfold execPinOutWrite
  simp only [↓guardWrite_pending, ↓writePinOut_pending, stateOr_next, implies_true]

theorem pinsToImage_pending (base : Nat) (s : State) : (pinsToImage base s).pending = s.pending := by
  unfold pinsToImage
  simp only [↓setImageBit_pending, apply_ite State.pending, ite_self, implies_true, foldl_pending]

theorem execStrapSample_pending (b : Fin 16) (level : Bool) (s : State) : (stateOr (execStrapSample b level s) s).pending = s.pending := by
  unfold execStrapSample
  simp only [↓setB_pending, ↓onBank_pending, apply_ite State.pending, ite_self, stateOr_next, stateOr_ite]

theorem writeBankCfg_pending (b : Nat) (v : Word) (s : State) : (writeBankCfg b v s).pending = s.pending := by
  unfold writeBankCfg
  simp only [↓plainWrite_pending, ↓endSupplyFault_pending, ↓startSupplyFault_pending, apply_ite State.pending, ite_self]

theorem execBankCfgWrite_pending (m : Master) (b : Fin 16) (v : Word) (s : State) : (stateOr (execBankCfgWrite m b v s) s).pending = s.pending := by
  unfold execBankCfgWrite
  simp only [↓guardWrite_pending, ↓writeBankCfg_pending, stateOr_next, implies_true]

theorem execBankOutSet_pending (m : Master) (b : Fin 16) (v : Word) (s : State) : (stateOr (execBankOutSet m b v s) s).pending = s.pending := by
  unfold execBankOutSet
  simp only [↓guardWrite_pending, ↓writeBankOut_pending, stateOr_next, implies_true]

theorem emptyLatch_pending (n : Nat) (s : State) : (emptyLatch n s).pending = s.pending := by
  unfold emptyLatch
  simp only [↓setF_pending, ↓onEng_pending]

theorem reviewEngineTracks_pending (n : Nat) (s : State) : (reviewEngineTracks n s).pending = s.pending := by
  unfold reviewEngineTracks
  simp only [↓reviewSource_pending]

theorem setEngState_pending (n : Nat) (st : Nat) (on : Nat) (s : State) : (setEngState n st on s).pending = s.pending := by
  unfold setEngState
  simp only [↓setF_pending]

theorem clearFault_pending (n : Nat) (s : State) : (clearFault n s).pending = s.pending := by
  unfold clearFault
  simp only [↓setB_pending, ↓setF_pending, ↓emptyLatch_pending, ↓reviewEngineTracks_pending, ↓setEngState_pending, apply_ite State.pending, ite_self]

theorem setIsc_pending (n : Nat) (v : Nat) (s : State) : (setIsc n v s).pending = s.pending := by
  unfold setIsc
  simp only [↓setF_pending]

theorem putEng_pending (a : Nat) (v : Word) (s : State) : (putEng a v s).pending = s.pending := by
  unfold putEng
  simp only [↓rewritten_pending, ↓setReg_pending]

theorem setIsr_pending (n : Nat) (v : Word) (s : State) : (setIsr n v s).pending = s.pending := by
  unfold setIsr
  simp only [↓putEng_pending]

theorem emptyIsr_pending (n : Nat) (s : State) : (emptyIsr n s).pending = s.pending := by
  unfold emptyIsr
  simp only [↓setIsc_pending, ↓setIsr_pending]

theorem setOsc_pending (n : Nat) (v : Nat) (s : State) : (setOsc n v s).pending = s.pending := by
  unfold setOsc
  simp only [↓setF_pending]

theorem setOsr_pending (n : Nat) (v : Word) (s : State) : (setOsr n v s).pending = s.pending := by
  unfold setOsr
  simp only [↓putEng_pending]

theorem restartEngine_pending (n : Nat) (s : State) : (restartEngine n s).pending = s.pending := by
  unfold restartEngine
  simp only [↓setReg_pending, ↓emptyIsr_pending, ↓emptyLatch_pending, ↓setOsc_pending, ↓setOsr_pending, ↓setEngState_pending, apply_ite State.pending, ite_self]

theorem useClock_pending (n : Nat) (s : State) : (useClock n s).pending = s.pending := by
  unfold useClock
  simp only [↓onEng_pending]

theorem resumeDelay_pending (n : Nat) (s : State) : (resumeDelay n s).pending = s.pending := by
  unfold resumeDelay
  split <;> simp only [↓useClock_pending, apply_ite State.pending, ite_self]

theorem enableEngine_pending (n : Nat) (s : State) : (enableEngine n s).pending = s.pending := by
  unfold enableEngine
  simp only [↓resumeDelay_pending, ↓onEng_pending, ↓setB_pending, ↓reviewEngineTracks_pending, ↓setEngState_pending, apply_ite State.pending, ite_self]

theorem holdDelay_pending (n : Nat) (s : State) : (holdDelay n s).pending = s.pending := by
  unfold holdDelay
  simp only [↓onEng_pending]

theorem disableEngine_pending (n : Nat) (s : State) : (disableEngine n s).pending = s.pending := by
  unfold disableEngine
  simp only [↓setB_pending, ↓reviewEngineTracks_pending, ↓setEngState_pending, ↓holdDelay_pending, apply_ite State.pending, ite_self]

theorem writeScrCtl_pending (n : Nat) (v : Word) (s : State) : (writeScrCtl n v s).pending = s.pending := by
  unfold writeScrCtl
  simp only [↓countPart_pending, ↓clearFault_pending, ↓setB_pending, ↓restartEngine_pending, ↓enableEngine_pending, ↓disableEngine_pending, ↓reviewEngineTracks_pending, ↓setEngState_pending, ↓resumeDelay_pending, ↓onEng_pending, apply_ite State.pending, ite_self]

theorem execEngineDisable_pending (m : Master) (e : Fin 64) (v : Word) (s : State) : (stateOr (execEngineDisable m e v s) s).pending = s.pending := by
  unfold execEngineDisable
  simp only [↓guardWrite_pending, ↓writeScrCtl_pending, stateOr_next, implies_true]

theorem setX_pending (n : Nat) (v : Word) (s : State) : (setX n v s).pending = s.pending := by
  unfold setX
  simp only [↓putEng_pending, ↓feedTracks_pending, apply_ite State.pending, ite_self]

theorem writeDma_pending (n : Nat) (rx : Bool) (v : Word) (s : State) : (writeDma n rx v s).pending = s.pending := by
  unfold writeDma
  simp only [↓setB_pending, ↓countPart_pending, ↓plainWrite_pending, apply_ite State.pending, ite_self]

theorem execDmaChannelWrite_pending (m : Master) (e : Fin 64) (rx : Bool) (v : Word) (s : State) : (stateOr (execDmaChannelWrite m e rx v s) s).pending = s.pending := by
  unfold execDmaChannelWrite
  simp only [↓guardWrite_pending, ↓writeDma_pending, stateOr_next, implies_true]

theorem fetchInto_pending (n : Nat) (w : BitVec 16) (injected : Bool) (s : State) : (fetchInto n w injected s).pending = s.pending := by
  unfold fetchInto
  simp only [↓onEng_pending, ↓setB_pending, ↓setF_pending, apply_ite State.pending, ite_self]

theorem settleDma_pending (k : Nat) (s : State) : (settleDma k s).pending = s.pending := by
  unfold settleDma
  simp only [↓onNotices_pending, ↓request_pending, ↓endRequest_pending, apply_ite State.pending, ite_self]

theorem scrNotice_pending (n : Nat) (code : Nat) (arg : Nat) (s : State) : (scrNotice n code arg s).pending = s.pending := by
  unfold scrNotice
  simp only [↓post_pending]

theorem putBit_pending (a : Nat) (i : Nat) (b : Bool) (s : State) : (putBit a i b s).pending = s.pending := by
  unfold putBit
  simp only [↓setReg_pending]

theorem releaseOwned_pending (n : Nat) (s : State) : (releaseOwned n s).pending = s.pending := by
  unfold releaseOwned
  simp only [↓refreshPin_pending, ↓putBit_pending, apply_ite State.pending, ite_self, implies_true, foldl_pending]

theorem enterFault_pending (n : Nat) (cause : Nat) (s : State) : (enterFault n cause s).pending = s.pending := by
  unfold enterFault
  simp only [↓setEngState_pending, ↓setF_pending, ↓setB_pending, ↓onEng_pending, ↓settleDma_pending, ↓reviewEngineTracks_pending, ↓scrNotice_pending, ↓releaseOwned_pending]

theorem regParity_pending (n : Nat) (a : Nat) (s : State) : (regParity n a s).pending = s.pending := by
  unfold regParity
  simp only [↓parityRecord_pending, ↓enterFault_pending]

theorem atBoundary_pending (n : Nat) (s : State) : (atBoundary n s).pending = s.pending := by
  unfold atBoundary
  simp only [↓reviewEngineTracks_pending, ↓setEngState_pending, ↓onEng_pending, apply_ite State.pending, ite_self]

theorem nextInstr_pending {n : Nat} {s t : State} {l : Latched} (h : nextInstr s n = some (l, t)) : t.pending = s.pending := by
  unfold nextInstr at h
  extract_lets e stalled delayed at h
  split at h
  · cases h
  · rename_i x _
    have hx : x.pending = s.pending := by
      show (match e.inj with | some w => fetchInto n w true s | none => if stalled = true then s else fetchInto n (storeWord s (n / 4) (getF s (rPc n) F.SCR_PC_VAL)) false s : State).pending = _
      split
      · exact fetchInto_pending _ _ _ _
      · split
        · rfl
        · exact fetchInto_pending _ _ _ _
    rcases e2 : (getEng x n).latched with _ | l2
    · rw [e2] at h; cases h
    · rw [e2] at h; have q := congrArg Prod.snd (Option.some.inj h); exact (congrArg State.pending q).symm.trans hx
theorem finishClock_pending (n : Nat) (l : Latched) (c : Clock) : (finishClock n l c).pending = c.state.pending := by
  unfold finishClock
  cases c with
  | stall on s => exact (reviewEngineTracks_pending _ _).trans (setEngState_pending _ _ _ _)
  | fault cause s => exact enterFault_pending _ _ _
  | done pc s =>
    have h3 : (reviewEngineTracks n (setEngState n 1 0 (onEng n (fun e => { e with latched := e.latched.map (fun x => { x with delay := some (opBits l.word 9 3) }) }) (setReg s (rPc n) (BitVec.ofNat 32 (nextPc l pc)))))).pending = s.pending :=
      (reviewEngineTracks_pending _ _).trans ((setEngState_pending _ _ _ _).trans ((onEng_pending _ _ _).trans (setReg_pending _ _ _)))
    show (if opBits l.word 9 3 = 0 then _ else _ : State).pending = _
    split
    · exact (atBoundary_pending _ _).trans h3
    · exact h3
theorem runClock_pending (n : Nat) (is : BitVec 16 → Bool) (f : Nat → Latched → State → Clock) (s : State) (h0 : ∀ y0 y1 x, (Clock.state (f y0 y1 x)).pending = x.pending) : (runClock n is f s).pending = s.pending := by
  unfold runClock
  split
  · rfl
  · split
    · rename_i l t e
      have ht := nextInstr_pending e
      have hu : (useClock n t).pending = s.pending := (useClock_pending _ _).trans ht
      split
      · rfl
      · split
        · exact (regParity_pending _ _ _).trans hu
        · exact (finishClock_pending _ _ _).trans ((h0 _ _ _).trans hu)
    · rfl

end Sys2Proof.Machine
end

