-- ==== Sys2Proof/Laws/Queue4.lean ====
section
/-! SUPPORT. Every operation and meaning leaves the queue of commands as it is. The operations and meanings of Scribe, Buses. -/

namespace Sys2Proof.Machine

theorem changeFlags_pending (k : Nat) (tog : Nat) (low : Nat) (up : Nat) (s : State) : (changeFlags k tog low up s).pending = s.pending := by
  unfold changeFlags
  simp only [↓setF_pending, ↓onScribe_pending]

theorem clockFlagToggle_pending (n : Nat) (l : Latched) (s : State) : (Clock.state (clockFlagToggle n l s)).pending = s.pending := by
  unfold clockFlagToggle
  split <;> simp only [↓changeFlags_pending, Clock.state]

theorem execFlagToggle_pending (e : Fin 64) (s : State) : (stateOr (execFlagToggle e s) s).pending = s.pending := by
  unfold execFlagToggle
  simp only [↓runClock_pending, ↓clockFlagToggle_pending, stateOr_next, implies_true]

theorem setY_pending (n : Nat) (v : Word) (s : State) : (setY n v s).pending = s.pending := by
  unfold setY
  simp only [↓putEng_pending]

theorem writeLane_pending (n : Nat) (i : Nat) (dir : Bool) (bit : Bool) (s : State) : (writeLane n i dir bit s).pending = s.pending := by
  unfold writeLane
  simp only [↓setB_pending, ↓refreshPin_pending, ↓putBit_pending, apply_ite State.pending, ite_self]

theorem writeLanes_pending (n : Nat) (dir : Bool) (mask : Nat) (width : Nat) (v : Nat) (s : State) : (writeLanes n dir mask width v s).pending = s.pending := by
  unfold writeLanes
  simp only [↓writeLane_pending, apply_ite State.pending, ite_self, implies_true, foldl_pending]

theorem clockMove_pending (n : Nat) (l : Latched) (s : State) : (Clock.state (clockMove n l s)).pending = s.pending := by
  unfold clockMove
  grind [setX_pending, setY_pending, setIsc_pending, setIsr_pending, setOsc_pending, setOsr_pending, writeLanes_pending, stateOr, Clock.state, fresh, foldl_pending]

theorem execScribeMove_pending (e : Fin 64) (s : State) : (stateOr (execScribeMove e s) s).pending = s.pending := by
  unfold execScribeMove
  simp only [↓runClock_pending, ↓clockMove_pending, stateOr_next, implies_true]

theorem clockFlagRaise_pending (n : Nat) (l : Latched) (s : State) : (Clock.state (clockFlagRaise n l s)).pending = s.pending := by
  unfold clockFlagRaise
  split <;> simp only [↓changeFlags_pending, Clock.state]

theorem execFlagRaise_pending (e : Fin 64) (s : State) : (stateOr (execFlagRaise e s) s).pending = s.pending := by
  unfold execFlagRaise
  simp only [↓runClock_pending, ↓clockFlagRaise_pending, stateOr_next, implies_true]

theorem writeInject_pending (n : Nat) (v : Word) (s : State) : (writeInject n v s).pending = s.pending := by
  unfold writeInject
  simp only [↓countPart_pending, ↓setB_pending, ↓onEng_pending, apply_ite State.pending, ite_self]

theorem execInject_pending (m : Master) (e : Fin 64) (v : Word) (s : State) : (stateOr (execInject m e v s) s).pending = s.pending := by
  unfold execInject
  simp only [↓guardWrite_pending, ↓writeInject_pending, stateOr_next, implies_true]

theorem emptyFifos_pending (n : Nat) (s : State) : (emptyFifos n s).pending = s.pending := by
  unfold emptyFifos
  simp only [↓bumpN_pending, ↓onEng_pending]

theorem writeEngineReg_pending (n : Nat) (r : EngineReg) (v : Word) (s : State) : (writeEngineReg n r v s).pending = s.pending := by
  unfold writeEngineReg
  (repeat' split) <;> simp only [↓setB_pending, ↓countPart_pending, ↓setX_pending, ↓setOsc_pending, ↓setIsc_pending, ↓plainWrite_pending, ↓emptyFifos_pending, apply_ite State.pending, ite_self]

theorem execEngineStateWrite_pending (m : Master) (e : Fin 64) (r : EngineReg) (v : Word) (s : State) : (stateOr (execEngineStateWrite m e r v s) s).pending = s.pending := by
  unfold execEngineStateWrite
  simp only [↓guardWrite_pending, ↓writeEngineReg_pending, stateOr_next, implies_true]

theorem pullInto_pending (n : Nat) (dst : Nat) (w : Word) (s : State) : (pullInto n dst w s).pending = s.pending := by
  unfold pullInto
  simp only [↓setOsc_pending, ↓setOsr_pending, ↓setX_pending, ↓setY_pending, apply_ite State.pending, ite_self]

theorem takeTx_err_pending {n : Nat} {s t : State} (h : takeTx n s = some (.error t)) : t.pending = s.pending := by
  unfold takeTx at h; grind [onEng_pending, setReg_pending, consumePoison_pending]
theorem takeTx_ok_pending {n : Nat} {s t : State} {w : Word} (h : takeTx n s = some (.ok (w, t))) : t.pending = s.pending := by
  unfold takeTx at h; grind [onEng_pending, setReg_pending, consumePoison_pending]
theorem clockPull_pending (n : Nat) (l : Latched) (s : State) : (Clock.state (clockPull n l s)).pending = s.pending := by
  unfold clockPull
  dsimp only
  split
  · rfl
  · split
    · rename_i t e; exact takeTx_err_pending e
    · rename_i w t e; simp only [Clock.state, pullInto_pending]; exact takeTx_ok_pending e
    · split
      · rfl
      · simp only [Clock.state, bump_pending, pullInto_pending]

theorem execPull_pending (e : Fin 64) (s : State) : (stateOr (execPull e s) s).pending = s.pending := by
  unfold execPull
  simp only [↓runClock_pending, ↓clockPull_pending, stateOr_next, implies_true]

theorem clockFlagLower_pending (n : Nat) (l : Latched) (s : State) : (Clock.state (clockFlagLower n l s)).pending = s.pending := by
  unfold clockFlagLower
  split <;> simp only [↓changeFlags_pending, Clock.state]

theorem execFlagLower_pending (e : Fin 64) (s : State) : (stateOr (execFlagLower e s) s).pending = s.pending := by
  unfold execFlagLower
  simp only [↓runClock_pending, ↓clockFlagLower_pending, stateOr_next, implies_true]

theorem execDelayExpiry_pending (e : Fin 64) (s : State) : (stateOr (execDelayExpiry e s) s).pending = s.pending := by
  unfold execDelayExpiry
  (repeat' split) <;> simp only [↓atBoundary_pending, ↓onEng_pending, stateOr_next]

theorem txSkip_pending (n : Nat) (s : State) : (txSkip n s).pending = s.pending := by
  unfold txSkip
  simp only [↓bump_pending]

theorem execDmaRxBlock_pending (e : Fin 64) (bad : BitVec 16) (s : State) : (stateOr (execDmaRxBlock e bad s) s).pending = s.pending := by
  unfold execDmaRxBlock
  simp only [↓onEng_pending, ↓parityRecord_pending, ↓settleDma_pending, apply_ite State.pending, ite_self, stateOr_next, stateOr_ite]

theorem timeoutRecord_pending (k : Nat) (write : Bool) (s : State) : (timeoutRecord k write s).pending = s.pending := by
  unfold timeoutRecord
  split <;> simp only [↓settleDma_pending, ↓onEng_pending, ↓txSkip_pending, apply_ite State.pending, ite_self]

theorem storeParity_pending (n : Nat) (s : State) : (storeParity n s).pending = s.pending := by
  unfold storeParity
  simp only [↓setF_pending, ↓setB_pending, ↓fetchInto_pending, ↓enterFault_pending, apply_ite State.pending, ite_self, implies_true, foldl_pending]

theorem readRxf_pending (n : Nat) (bad : Bool) (s : State) : (readRxf n bad s).1.pending = s.pending := by
  unfold readRxf
  (repeat' split) <;> simp only [↓setB_pending, ↓onEng_pending, ↓parityRecord_pending]

theorem clockWaitLevel_pending (n : Nat) (l : Latched) (s : State) : (Clock.state (clockWaitLevel n l s)).pending = s.pending := by
  unfold clockWaitLevel
  (repeat' split) <;> simp only [Clock.state]

theorem execWaitLevel_pending (e : Fin 64) (s : State) : (stateOr (execWaitLevel e s) s).pending = s.pending := by
  unfold execWaitLevel
  simp only [↓runClock_pending, ↓clockWaitLevel_pending, stateOr_next, implies_true]

theorem execRestart_pending (m : Master) (e : Fin 64) (v : Word) (s : State) : (stateOr (execRestart m e v s) s).pending = s.pending := by
  unfold execRestart
  simp only [↓guardWrite_pending, ↓writeScrCtl_pending, stateOr_next, implies_true]

theorem clockFlagNotice_pending (n : Nat) (l : Latched) (s : State) : (Clock.state (clockFlagNotice n l s)).pending = s.pending := by
  unfold clockFlagNotice
  split <;> simp only [↓scrNotice_pending, Clock.state]

theorem setStoreWord_pending (k : Nat) (i : Nat) (w : BitVec 16) (s : State) : (setStoreWord k i w s).pending = s.pending := by
  unfold setStoreWord
  simp only [↓onScribe_pending]

theorem writeStore_pending (k : Nat) (off : Nat) (width : Nat) (v : Word) (s : State) : (writeStore k off width v s).pending = s.pending := by
  unfold writeStore
  simp only [↓setStoreWord_pending, apply_ite State.pending, ite_self]

theorem clockWaitEdge_pending (n : Nat) (l : Latched) (s : State) : (Clock.state (clockWaitEdge n l s)).pending = s.pending := by
  unfold clockWaitEdge
  grind [onEng_pending, stateOr, Clock.state, fresh, foldl_pending]

theorem clockWaitFlag_pending (n : Nat) (l : Latched) (s : State) : (Clock.state (clockWaitFlag n l s)).pending = s.pending := by
  unfold clockWaitFlag
  grind [changeFlags_pending, stateOr, Clock.state, fresh, foldl_pending]

theorem clockWaitCount_pending (n : Nat) (l : Latched) (s : State) : (Clock.state (clockWaitCount n l s)).pending = s.pending := by
  unfold clockWaitCount
  grind [setX_pending, setY_pending, stateOr, Clock.state, fresh, foldl_pending]

theorem shiftIn_pending (n : Nat) (N : Nat) (bits : Nat) (s : State) : (shiftIn n N bits s).pending = s.pending := by
  unfold shiftIn
  simp only [↓setIsc_pending, ↓setIsr_pending]

theorem pushRx_pending (n : Nat) (w : Word) (s : State) : (pushRx n w s).pending = s.pending := by
  unfold pushRx
  simp only [↓onEng_pending]

theorem clockShin_pending (n : Nat) (l : Latched) (s : State) : (Clock.state (clockShin n l s)).pending = s.pending := by
  unfold clockShin
  grind [shiftIn_pending, emptyIsr_pending, pushRx_pending, stateOr, Clock.state, fresh, foldl_pending]

theorem shoutTo_pending (n : Nat) (N : Nat) (dst : Nat) (s : State) : (Clock.state (shoutTo n N dst s)).pending = s.pending := by
  unfold shoutTo
  (repeat' split) <;> simp only [↓setOsc_pending, ↓setOsr_pending, ↓writeLanes_pending, ↓setX_pending, ↓setY_pending, ↓shiftIn_pending, Clock.state]

theorem clockShout_pending (n : Nat) (l : Latched) (s : State) : (Clock.state (clockShout n l s)).pending = s.pending := by
  unfold clockShout
  dsimp only
  split
  · rfl
  · split
    · split
      · rfl
      · rename_i t e; exact takeTx_err_pending e
      · rename_i w t e; exact (shoutTo_pending _ _ _ _).trans ((setOsc_pending _ _ _).trans ((setOsr_pending _ _ _).trans (takeTx_ok_pending e)))
    · exact shoutTo_pending _ _ _ _

theorem replaceYoungest_pending (n : Nat) (w : Word) (s : State) : (replaceYoungest n w s).pending = s.pending := by
  unfold replaceYoungest
  simp only [↓onEng_pending]

theorem clockPush_pending (n : Nat) (l : Latched) (s : State) : (Clock.state (clockPush n l s)).pending = s.pending := by
  unfold clockPush
  grind [emptyIsr_pending, pushRx_pending, bump_pending, replaceYoungest_pending, stateOr, Clock.state, fresh, foldl_pending]

theorem clockSet_pending (n : Nat) (l : Latched) (s : State) : (Clock.state (clockSet n l s)).pending = s.pending := by
  unfold clockSet
  grind [setX_pending, setY_pending, writeLanes_pending, setIsc_pending, setOsc_pending, stateOr, Clock.state, fresh, foldl_pending]

theorem clockJump_pending (n : Nat) (l : Latched) (s : State) : (Clock.state (clockJump n l s)).pending = s.pending := by
  unfold clockJump
  grind [setX_pending, setY_pending, stateOr, Clock.state, fresh, foldl_pending]

theorem clockMark_pending (n : Nat) (l : Latched) (s : State) : (Clock.state (clockMark n l s)).pending = s.pending := by
  unfold clockMark
  grind [setReg_pending, pushRx_pending, bump_pending, stateOr, Clock.state, fresh, foldl_pending]

theorem clockIllegal_pending (x0 : Nat) (x1 : Latched) (s : State) : (Clock.state (clockIllegal x0 x1 s)).pending = s.pending := by
  unfold clockIllegal
  simp only [Clock.state]

theorem clockAny_pending (n : Nat) (l : Latched) (s : State) : (Clock.state (clockAny n l s)).pending = s.pending := by
  unfold clockAny
  extract_lets w op k
  simp only [apply_ite Clock.state, apply_ite State.pending, clockWaitLevel_pending, clockWaitEdge_pending, clockWaitFlag_pending, clockWaitCount_pending,
    clockShin_pending, clockShout_pending, clockPull_pending, clockPush_pending, clockMove_pending, clockSet_pending, clockJump_pending, clockMark_pending,
    clockFlagRaise_pending, clockFlagLower_pending, clockFlagToggle_pending, clockFlagNotice_pending, clockIllegal_pending, ite_self]

theorem execStallComplete_pending (e : Fin 64) (s : State) : (stateOr (execStallComplete e s) s).pending = s.pending := by
  unfold execStallComplete
  split <;> simp only [↓runClock_pending, ↓clockAny_pending, apply_ite State.pending, ite_self, stateOr_next, implies_true]

theorem newOrigin_pending (n : Nat) (oldNum : Nat) (oldDen : Nat) (s : State) : (newOrigin n oldNum oldDen s).pending = s.pending := by
  unfold newOrigin
  simp only [↓onEng_pending]

theorem writeClkdiv_pending (n : Nat) (v : Word) (s : State) : (writeClkdiv n v s).pending = s.pending := by
  unfold writeClkdiv
  simp only [↓newOrigin_pending, ↓plainWrite_pending]

theorem execClkdivWrite_pending (m : Master) (e : Fin 64) (v : Word) (s : State) : (stateOr (execClkdivWrite m e v s) s).pending = s.pending := by
  unfold execClkdivWrite
  simp only [↓guardWrite_pending, ↓writeClkdiv_pending, stateOr_next, implies_true]

theorem execIllegal_pending (e : Fin 64) (s : State) : (stateOr (execIllegal e s) s).pending = s.pending := by
  unfold execIllegal
  simp only [↓runClock_pending, ↓clockIllegal_pending, stateOr_next, implies_true]

theorem execWaitFlag_pending (e : Fin 64) (s : State) : (stateOr (execWaitFlag e s) s).pending = s.pending := by
  unfold execWaitFlag
  simp only [↓runClock_pending, ↓clockWaitFlag_pending, stateOr_next, implies_true]

theorem execClrf_pending (m : Master) (e : Fin 64) (v : Word) (s : State) : (stateOr (execClrf m e v s) s).pending = s.pending := by
  unfold execClrf
  simp only [↓guardWrite_pending, ↓writeScrCtl_pending, stateOr_next, implies_true]

theorem writeTxf_pending (n : Nat) (v : Word) (s : State) : (writeTxf n v s).pending = s.pending := by
  unfold writeTxf
  simp only [↓bump_pending, ↓setB_pending, ↓onEng_pending, apply_ite State.pending, ite_self]

theorem writeCsync_pending (k : Nat) (v : Word) (s : State) : (writeCsync k v s).pending = s.pending := by
  unfold writeCsync
  simp only [↓countPart_pending, ↓disableEngine_pending, ↓newOrigin_pending, ↓enableEngine_pending, apply_ite State.pending, ite_self, implies_true, foldl_pending]

theorem execCsyncStart_pending (m : Master) (k : Fin 16) (v : Word) (s : State) : (stateOr (execCsyncStart m k v s) s).pending = s.pending := by
  unfold execCsyncStart
  simp only [↓guardWrite_pending, ↓writeCsync_pending, stateOr_next, implies_true]

theorem writeScrFlags_pending (k : Nat) (v : Word) (s : State) : (writeScrFlags k v s).pending = s.pending := by
  unfold writeScrFlags
  simp only [↓changeFlags_pending, ↓countPart_pending]

theorem execFlagsSet_pending (m : Master) (k : Fin 16) (v : Word) (s : State) : (stateOr (execFlagsSet m k v s) s).pending = s.pending := by
  unfold execFlagsSet
  simp only [↓guardWrite_pending, ↓writeScrFlags_pending, stateOr_next, implies_true]

theorem execProgramStoreWrite_pending (m : Master) (k : Fin 16) (off : Nat) (width : Nat) (v : Word) (s : State) : (stateOr (execProgramStoreWrite m k off width v s) s).pending = s.pending := by
  unfold execProgramStoreWrite
  simp only [↓guardWriteAt_pending, ↓writeStore_pending, stateOr_next, implies_true]

theorem execScrRxfRead_pending (m : Master) (e : Fin 64) (bad : Bool) (s : State) : (stateOr (execScrRxfRead m e bad s) s).pending = s.pending := by
  unfold execScrRxfRead
  simp only [↓guardReadP_pending, ↓readRxf_pending, stateOr_next, implies_true]

theorem writePc_pending (n : Nat) (v : Word) (s : State) : (writePc n v s).pending = s.pending := by
  unfold writePc
  simp only [↓setB_pending, ↓countPart_pending, ↓plainWrite_pending, ↓emptyLatch_pending, apply_ite State.pending, ite_self]

theorem execWaitCount_pending (e : Fin 64) (s : State) : (stateOr (execWaitCount e s) s).pending = s.pending := by
  unfold execWaitCount
  simp only [↓runClock_pending, ↓clockWaitCount_pending, stateOr_next, implies_true]

theorem startTx_pending (n : Nat) (s : State) : (startTx n s).pending = s.pending := by
  unfold startTx
  simp only [↓settleDma_pending, ↓onEng_pending]

theorem execPcWrite_pending (m : Master) (e : Fin 64) (v : Word) (s : State) : (stateOr (execPcWrite m e v s) s).pending = s.pending := by
  unfold execPcWrite
  simp only [↓guardWrite_pending, ↓writePc_pending, stateOr_next, implies_true]

theorem execScrTxfWrite_pending (m : Master) (e : Fin 64) (v : Word) (s : State) : (stateOr (execScrTxfWrite m e v s) s).pending = s.pending := by
  unfold execScrTxfWrite
  simp only [↓guardWrite_pending, ↓writeTxf_pending, stateOr_next, implies_true]

theorem execShin_pending (e : Fin 64) (s : State) : (stateOr (execShin e s) s).pending = s.pending := by
  unfold execShin
  simp only [↓runClock_pending, ↓clockShin_pending, stateOr_next, implies_true]

theorem raiseFlags_pending (k : Nat) (mask : Nat) (s : State) : (raiseFlags k mask s).pending = s.pending := by
  unfold raiseFlags
  simp only [↓changeFlags_pending]

theorem execWaitEdge_pending (e : Fin 64) (s : State) : (stateOr (execWaitEdge e s) s).pending = s.pending := by
  unfold execWaitEdge
  simp only [↓runClock_pending, ↓clockWaitEdge_pending, stateOr_next, implies_true]

theorem commitRecord_pending (woff : Nat) (words : List (Word × Bool)) (s : State) : (commitRecord woff words s).pending = s.pending := by
  unfold commitRecord
  simp only [↓masterWrite_pending, implies_true, foldl_pending]

theorem execDmaRecordCommit_pending (e : Fin 64) (s : State) : (stateOr (execDmaRecordCommit e s) s).pending = s.pending := by
  unfold execDmaRecordCommit
  grind [acquire_pending, settleDma_pending, endRequest_pending, onEng_pending, recordDenial_pending, bump_pending, commitRecord_pending, stateOr, Clock.state, fresh, foldl_pending]

theorem cycleTx_pending (s : State) : (cycleTx s).pending = s.pending := by
  unfold cycleTx
  simp only [↓txSkip_pending, ↓bump_pending, ↓startTx_pending, apply_ite State.pending, ite_self, implies_true, foldl_pending]

theorem execJump_pending (e : Fin 64) (s : State) : (stateOr (execJump e s) s).pending = s.pending := by
  unfold execJump
  simp only [↓runClock_pending, ↓clockJump_pending, stateOr_next, implies_true]

theorem execCsyncStop_pending (m : Master) (k : Fin 16) (v : Word) (s : State) : (stateOr (execCsyncStop m k v s) s).pending = s.pending := by
  unfold execCsyncStop
  simp only [↓guardWrite_pending, ↓writeCsync_pending, stateOr_next, implies_true]

theorem execPush_pending (e : Fin 64) (s : State) : (stateOr (execPush e s) s).pending = s.pending := by
  unfold execPush
  simp only [↓runClock_pending, ↓clockPush_pending, stateOr_next, implies_true]

theorem execDmaTxReturn_pending (e : Fin 64) (ok : Bool) (s : State) : (stateOr (execDmaTxReturn e ok s) s).pending = s.pending := by
  unfold execDmaTxReturn
  grind [acquire_pending, settleDma_pending, endRequest_pending, onEng_pending, txSkip_pending, recordDenial_pending, stateOr, Clock.state, fresh, foldl_pending]

theorem execFlagNotice_pending (e : Fin 64) (s : State) : (stateOr (execFlagNotice e s) s).pending = s.pending := by
  unfold execFlagNotice
  simp only [↓runClock_pending, ↓clockFlagNotice_pending, stateOr_next, implies_true]

theorem execDmaTxRefill_pending (e : Fin 64) (s : State) : (stateOr (execDmaTxRefill e s) s).pending = s.pending := by
  unfold execDmaTxRefill
  simp only [↓startTx_pending, apply_ite State.pending, ite_self, stateOr_next, stateOr_ite]

theorem execEngineEnable_pending (m : Master) (e : Fin 64) (v : Word) (s : State) : (stateOr (execEngineEnable m e v s) s).pending = s.pending := by
  unfold execEngineEnable
  simp only [↓guardWrite_pending, ↓writeScrCtl_pending, stateOr_next, implies_true]

theorem execFlagsClear_pending (m : Master) (k : Fin 16) (v : Word) (s : State) : (stateOr (execFlagsClear m k v s) s).pending = s.pending := by
  unfold execFlagsClear
  simp only [↓guardWrite_pending, ↓writeScrFlags_pending, stateOr_next, implies_true]

theorem execMark_pending (e : Fin 64) (s : State) : (stateOr (execMark e s) s).pending = s.pending := by
  unfold execMark
  simp only [↓runClock_pending, ↓clockMark_pending, stateOr_next, implies_true]

theorem execScribeSet_pending (e : Fin 64) (s : State) : (stateOr (execScribeSet e s) s).pending = s.pending := by
  unfold execScribeSet
  simp only [↓runClock_pending, ↓clockSet_pending, stateOr_next, implies_true]

theorem execEngineStep_pending (m : Master) (e : Fin 64) (v : Word) (s : State) : (stateOr (execEngineStep m e v s) s).pending = s.pending := by
  unfold execEngineStep
  simp only [↓guardWrite_pending, ↓writeScrCtl_pending, stateOr_next, implies_true]

theorem execShout_pending (e : Fin 64) (s : State) : (stateOr (execShout e s) s).pending = s.pending := by
  unfold execShout
  simp only [↓runClock_pending, ↓clockShout_pending, stateOr_next, implies_true]

theorem mbNotice_pending (m : Nat) (s : State) : (mbNotice m s).pending = s.pending := by
  unfold mbNotice
  simp only [↓postOpen_pending]

theorem setLevel_pending (m : Nat) (l : Nat) (s : State) : (setLevel m l s).pending = s.pending := by
  unfold setLevel
  simp only [↓setF_pending, ↓mbNotice_pending, apply_ite State.pending, ite_self]

theorem s2Event_pending (m : Nat) (s : State) : (s2Event m s).pending = s.pending := by
  unfold s2Event
  simp only [↓bump_pending, ↓setLevel_pending]

theorem writeMap_pending (n : Nat) (isB : Bool) (v : Word) (s : State) : (writeMap n isB v s).pending = s.pending := by
  unfold writeMap
  simp only [↓setB_pending, ↓declineWrite_pending, ↓plainWrite_pending, ↓reviewSource_pending, apply_ite State.pending, ite_self]

theorem execGwMapWrite_pending (m : Master) (n : Fin 512) (b : Bool) (v : Word) (s : State) : (stateOr (execGwMapWrite m n b v s) s).pending = s.pending := by
  unfold execGwMapWrite
  simp only [↓guardWrite_pending, ↓writeMap_pending, stateOr_next, implies_true]

theorem mbFlag_pending (m : Nat) (f : Fld) (s : State) : (mbFlag m f s).pending = s.pending := by
  unfold mbFlag
  simp only [↓setB_pending]

theorem setPending_pending (m : Nat) (n : Nat) (b : Bool) (s : State) : (setPending m n b s).pending = s.pending := by
  unfold setPending
  simp only [↓setReg_pending]

theorem raiseRequest_pending (m : Nat) (n : Nat) (s : State) : (raiseRequest m n s).pending = s.pending := by
  unfold raiseRequest
  simp only [↓setPending_pending, ↓onMb_pending, apply_ite State.pending, ite_self]

theorem requestObj_pending (m : Nat) (n : Nat) (byTrigger : Bool) (s : State) : (requestObj m n byTrigger s).pending = s.pending := by
  unfold requestObj
  simp only [↓bump_pending, ↓mbFlag_pending, ↓raiseRequest_pending, apply_ite State.pending, ite_self]

theorem resetRange_pending (a : Nat) (n : Nat) (s : State) : (resetRange a n s).pending = s.pending := by
  unfold resetRange
  simp only

theorem putObjWord_pending (m : Nat) (n : Nat) (off : Nat) (v : Nat) (s : State) : (putObjWord m n off v s).pending = s.pending := by
  unfold putObjWord
  simp only [↓masterWrite_pending]

theorem markObj_pending (m : Nat) (n : Nat) (bit : Nat) (s : State) : (markObj m n bit s).pending = s.pending := by
  unfold markObj
  simp only [↓putObjWord_pending]

theorem measureDelay_pending (m : Nat) (loop : Option Nat) (s : State) : (measureDelay m loop s).pending = s.pending := by
  unfold measureDelay
  split <;> simp only [↓setF_pending, ↓bump_pending, ↓mbFlag_pending, apply_ite State.pending, ite_self]

theorem copyObj_pending (m : Nat) (n : Nat) (single : Bool) (loop : Option Nat) (s : State) : (copyObj m n single loop s).pending = s.pending := by
  unfold copyObj
  simp only [↓markObj_pending, ↓mbFlag_pending, ↓setPending_pending, ↓mbNotice_pending, ↓consumePoison_pending, ↓onMb_pending, ↓measureDelay_pending, apply_ite State.pending, ite_self]

theorem endWindow_pending (m : Nat) (s : State) : (endWindow m s).pending = s.pending := by
  unfold endWindow
  split <;> simp only [↓onMb_pending, ↓bump_pending, ↓setPending_pending, apply_ite State.pending, ite_self]

theorem clearInit_pending (m : Nat) (bank : Nat) (v : Word) (s : State) : (clearInit m bank v s).pending = s.pending := by
  unfold clearInit
  simp only [↓refreshPin_pending, ↓onPin_pending, ↓setB_pending, ↓plainWrite_pending, implies_true, foldl_pending]

theorem referenceMark_pending (m : Nat) (c : Nat) (age : Nat) (s : State) : (referenceMark m c age s).pending = s.pending := by
  unfold referenceMark
  simp only [↓setLevel_pending, ↓setF_pending, ↓setB_pending, ↓onMb_pending, apply_ite State.pending, ite_self]

theorem hearReference_pending (m : Nat) (f : BusFrame) (age : Nat) (s : State) : (hearReference m f age s).pending = s.pending := by
  unfold hearReference
  simp only [↓bump_pending, ↓setB_pending, ↓referenceMark_pending, apply_ite State.pending, ite_self]

theorem partnerFrame_pending (m : Nat) (n : Nat) (f : BusFrame) (pm : DWord) (sent : Bool) (s : State) : (partnerFrame m n f pm sent s).pending = s.pending := by
  unfold partnerFrame
  simp only [↓sendPartner_pending, apply_ite State.pending, ite_self]

theorem forwardFrame_pending (m : Nat) (n : Nat) (f : BusFrame) (pm : DWord) (s : State) : (forwardFrame m n f pm s).pending = s.pending := by
  unfold forwardFrame
  dsimp only
  split
  · rename_i t e
    rw [keepStamp_pending]
    have h := congrArg (fun p => p.1.pending) e
    simp only [originate_pending, takePosted_pending] at h
    exact h.symm
  · exact bump_pending _ _

theorem storeFrame_pending (m : Nat) (n : Nat) (f : BusFrame) (pm : DWord) (instant : Nat) (s : State) : (storeFrame m n f pm instant s).pending = s.pending := by
  unfold storeFrame
  simp only [↓masterWrite_pending, ↓putObjWord_pending, ↓onMb_pending, ↓setReg_pending, ↓mbNotice_pending, ↓request_pending, ↓onBuses_pending, ↓forwardFrame_pending, apply_ite State.pending, ite_self]

theorem acceptFrame_pending (m : Nat) (f : BusFrame) (age : Nat) (reference : Bool) (s : State) : (acceptFrame m f age reference s).pending = s.pending := by
  unfold acceptFrame
  grind [hearReference_pending, bump_pending, partnerFrame_pending, storeFrame_pending, stateOr, Clock.state, fresh, foldl_pending]

theorem reviewBus_pending (m : Nat) (s : State) : (reviewBus m s).pending = s.pending := by
  unfold reviewBus
  simp only [↓reviewTrack_pending, apply_ite State.pending, ite_self, implies_true, foldl_pending]

theorem setMbState_pending (m : Nat) (st : Nat) (s : State) : (setMbState m st s).pending = s.pending := by
  unfold setMbState
  simp only [↓reviewBus_pending, ↓mbNotice_pending, ↓setF_pending, apply_ite State.pending, ite_self]

theorem takeInit_pending (m : Nat) (s : State) : (takeInit m s).pending = s.pending := by
  unfold takeInit
  simp only [↓onMb_pending, ↓setB_pending, ↓setMbState_pending]

theorem writeMbCtl_pending (m : Nat) (receiving : Bool) (v : Word) (s : State) : (writeMbCtl m receiving v s).pending = s.pending := by
  unfold writeMbCtl
  split <;> simp only [↓mbFlag_pending, ↓declineWrite_pending, ↓plainWrite_pending, ↓clearInit_pending, ↓onMb_pending, ↓takeInit_pending, apply_ite State.pending, ite_self]

theorem showCounts_pending (m : Nat) (s : State) : (showCounts m s).pending = s.pending := by
  unfold showCounts
  simp only [↓setF_pending]

theorem enterBusOff_pending (m : Nat) (s : State) : (enterBusOff m s).pending = s.pending := by
  unfold enterBusOff
  simp only [↓bump_pending, ↓mbFlag_pending, ↓setReg_pending, ↓onMb_pending, ↓setMbState_pending, ↓setB_pending, apply_ite State.pending, ite_self, implies_true, foldl_pending]

theorem reviewMb_pending (m : Nat) (s : State) : (reviewMb m s).pending = s.pending := by
  unfold reviewMb
  simp only [↓showCounts_pending, ↓enterBusOff_pending, ↓setMbState_pending, ↓mbFlag_pending, apply_ite State.pending, ite_self]

theorem lowerRec_pending (m : Nat) (s : State) : (lowerRec m s).pending = s.pending := by
  unfold lowerRec
  grind [reviewMb_pending, onMb_pending, fresh_pending, stateOr, Clock.state, fresh, foldl_pending]

theorem clearNew_pending (m : Nat) (j : Nat) (v : Word) (s : State) : (clearNew m j v s).pending = s.pending := by
  unfold clearNew
  simp only [↓setReg_pending, ↓onMb_pending]

theorem execMbNewClear_pending (m : Master) (c : Fin 8) (j : Fin 4) (v : Word) (s : State) : (stateOr (execMbNewClear m c j v s) s).pending = s.pending := by
  unfold execMbNewClear
  simp only [↓guardWrite_pending, ↓clearNew_pending, stateOr_next, implies_true]

theorem frameEnd_pending (m : Nat) (s : State) : (frameEnd m s).pending = s.pending := by
  unfold frameEnd
  simp only [↓takeInit_pending, apply_ite State.pending, ite_self]

theorem noRetries_pending (m : Nat) (n : Nat) (s : State) : (noRetries m n s).pending = s.pending := by
  unfold noRetries
  simp only [↓onMb_pending]

theorem endAttempt_pending (m : Nat) (counts : Bool) (s : State) : (endAttempt m counts s).pending = s.pending := by
  unfold endAttempt
  split <;> simp only [↓onMb_pending, ↓noRetries_pending, ↓setPending_pending, ↓mbNotice_pending, ↓markObj_pending, ↓mbFlag_pending, apply_ite State.pending, ite_self]

theorem busFault_pending (m : Nat) (kind : BusFault) (tecUp : Nat) (recUp : Nat) (s : State) : (busFault m kind tecUp recUp s).pending = s.pending := by
  unfold busFault
  simp only [↓bump_pending, ↓setF_pending, ↓onMb_pending, ↓frameEnd_pending, ↓reviewMb_pending, ↓endAttempt_pending]

theorem execProtocolException_pending (c : Fin 8) (recUp : Nat) (s : State) : (stateOr (execProtocolException c recUp s) s).pending = s.pending := by
  unfold execProtocolException
  simp only [↓bump_pending, ↓mbFlag_pending, ↓busFault_pending, ↓onMb_pending, apply_ite State.pending, ite_self, stateOr_next, stateOr_ite]

theorem writeMbTiming_pending (m : Nat) (a : Nat) (v : Word) (s : State) : (writeMbTiming m a v s).pending = s.pending := by
  unfold writeMbTiming
  simp only [↓plainWrite_pending, ↓mbFlag_pending, ↓declineWrite_pending, apply_ite State.pending, ite_self]

theorem execMbInitSet_pending (m : Master) (c : Fin 8) (v : Word) (inFrame : Bool) (s : State) : (stateOr (execMbInitSet m c v inFrame s) s).pending = s.pending := by
  unfold execMbInitSet
  simp only [↓guardWrite_pending, ↓writeMbCtl_pending, stateOr_next, implies_true]

theorem execFrameReceived_pending (c : Fin 8) (f : BusFrame) (age : Nat) (reference : Bool) (s : State) : (stateOr (execFrameReceived c f age reference s) s).pending = s.pending := by
  unfold execFrameReceived
  simp only [↓lowerRec_pending, ↓bump_pending, ↓frameEnd_pending, ↓acceptFrame_pending, apply_ite State.pending, ite_self, stateOr_next, stateOr_ite]

theorem execMbTxreq_pending (m : Master) (c : Fin 8) (j : Fin 4) (v : Word) (s : State) : (stateOr (execMbTxreq m c j v s) s).pending = s.pending := by
  unfold execMbTxreq
  simp only [↓guardWrite_pending, ↓requestObj_pending, stateOr_next, implies_true, foldl_pending]

theorem execArbitrationLost_pending (c : Fin 8) (s : State) : (stateOr (execArbitrationLost c s) s).pending = s.pending := by
  unfold execArbitrationLost
  simp only [↓bump_pending, ↓endAttempt_pending, apply_ite State.pending, ite_self, stateOr_next]

theorem s1Event_pending (m : Nat) (s : State) : (s1Event m s).pending = s.pending := by
  unfold s1Event
  simp only [↓onMb_pending, ↓bump_pending, ↓setLevel_pending]

theorem openDelay_pending (s : State) (m : Nat) (n : Nat) : (openDelay s m n).2.pending = s.pending := by
  unfold openDelay
  grind [fresh_pending, stateOr, Clock.state, fresh, foldl_pending]

theorem takeOverTime_pending (m : Nat) (s : State) : (takeOverTime m s).pending = s.pending := by
  unfold takeOverTime
  simp only [↓onMb_pending, ↓requestObj_pending, ↓setB_pending]

theorem fireTrigger_pending (m : Nat) (n : Nat) (busIdle : Bool) (s : State) : (fireTrigger m n busIdle s).pending = s.pending := by
  unfold fireTrigger
  simp only [↓s1Event_pending, ↓onMb_pending, ↓openDelay_pending, ↓copyObj_pending, ↓requestObj_pending, ↓s2Event_pending, ↓takeOverTime_pending, apply_ite State.pending, ite_self]

theorem execTtTrigger_pending (c : Fin 8) (n : Fin 64) (busIdle : Bool) (s : State) : (stateOr (execTtTrigger c n busIdle s) s).pending = s.pending := by
  unfold execTtTrigger
  simp only [↓endWindow_pending, ↓onMb_pending, ↓fireTrigger_pending, apply_ite State.pending, ite_self, stateOr_next, stateOr_ite]

theorem gwEnd_pending (s : State) : (gwEnd s).pending = s.pending := by
  unfold gwEnd
  simp only [↓endRequest_pending, ↓request_pending, apply_ite State.pending, ite_self]

theorem gwNotice_pending (s : State) : (gwNotice s).pending = s.pending := by
  unfold gwNotice
  simp only [↓postOpen_pending]

theorem rateDrop_pending (m : Nat) (n : Nat) (s : State) : (rateDrop m n s).pending = s.pending := by
  unfold rateDrop
  simp only [↓bump_pending, ↓putObjWord_pending]

theorem updateObj_pending (m : Nat) (n : Nat) (s : State) : (updateObj m n s).pending = s.pending := by
  unfold updateObj
  grind [recordDenial_pending, gwNotice_pending, setB_pending, markObj_pending, consumePoison_pending, masterWrite_pending, rateDrop_pending, requestObj_pending, stateOr, Clock.state, fresh, foldl_pending]

theorem execGwImageToBus_pending (s : State) : (stateOr (execGwImageToBus s) s).pending = s.pending := by
  unfold execGwImageToBus
  simp only [↓acquire_pending, ↓gwEnd_pending, ↓onBuses_pending, ↓updateObj_pending, apply_ite State.pending, ite_self, stateOr_next, stateOr_ite, implies_true, foldl_pending]

theorem execMbInitClear_pending (m : Master) (c : Fin 8) (v : Word) (s : State) : (stateOr (execMbInitClear m c v s) s).pending = s.pending := by
  unfold execMbInitClear
  simp only [↓guardWrite_pending, ↓writeMbCtl_pending, stateOr_next, implies_true]

theorem applyEntry_pending (i : Nat) (m : Nat) (n : Nat) (instant : Nat) (s : State) : (applyEntry i m n instant s).pending = s.pending := by
  unfold applyEntry
  simp only [↓bump_pending, ↓recordDenial_pending, ↓reviewSource_pending, ↓feedField_pending, ↓masterWrite_pending, apply_ite State.pending, ite_self]

theorem stopTt_pending (m : Nat) (s : State) : (stopTt m s).pending = s.pending := by
  unfold stopTt
  simp only [↓onMb_pending, ↓setReg_pending]

theorem cancelObj_pending (m : Nat) (n : Nat) (s : State) : (cancelObj m n s).pending = s.pending := by
  unfold cancelObj
  simp only [↓setPending_pending, ↓onMb_pending, apply_ite State.pending, ite_self]

theorem completeObj_pending (m : Nat) (n : Nat) (f : BusFrame) (pm : DWord) (age : Nat) (s : State) : (completeObj m n f pm age s).pending = s.pending := by
  unfold completeObj
  simp only [↓putObjWord_pending, ↓bump_pending, ↓mbNotice_pending, ↓referenceMark_pending, apply_ite State.pending, ite_self]

theorem execTxComplete_pending (c : Fin 8) (age : Nat) (s : State) : (stateOr (execTxComplete c age s) s).pending = s.pending := by
  unfold execTxComplete
  split <;> simp only [↓noRetries_pending, ↓onMb_pending, ↓completeObj_pending, ↓reviewMb_pending, ↓partnerFrame_pending, ↓acceptFrame_pending, ↓bump_pending, ↓frameEnd_pending, apply_ite State.pending, ite_self, stateOr_next]

theorem execTxCopy_pending (c : Fin 8) (loop : Option Nat) (uncorr : Bool) (s : State) : (stateOr (execTxCopy c loop uncorr s) s).pending = s.pending := by
  unfold execTxCopy
  (repeat' split) <;> simp only [↓freshError_pending, ↓copyObj_pending, stateOr_next]

theorem execTtReferenceRequest_pending (c : Fin 8) (s : State) : (stateOr (execTtReferenceRequest c s) s).pending = s.pending := by
  unfold execTtReferenceRequest
  simp only [↓requestObj_pending, ↓onMb_pending, apply_ite State.pending, ite_self, stateOr_next, stateOr_ite]

theorem putFrameWord_pending (m : Nat) (n : Nat) (len : Nat) (e : Envelope) (s : State) (i : Nat) : (putFrameWord m n len e s i).pending = s.pending := by
  unfold putFrameWord
  simp only [↓consumePoison_pending, ↓masterWrite_pending, apply_ite State.pending, ite_self]

theorem takeBusFrame_pending (m : Nat) (n : Nat) (e : Envelope) (s : State) : (takeBusFrame m n e s).pending = s.pending := by
  unfold takeBusFrame
  simp only [↓putObjWord_pending, ↓requestObj_pending, ↓putFrameWord_pending, implies_true, foldl_pending]

theorem startTt_pending (m : Nat) (s : State) : (startTt m s).pending = s.pending := by
  unfold startTt
  extract_lets x y z
  exact (setLevel_pending _ _ _).trans ((onMb_pending _ _ _).trans ((setB_pending _ _ _ _).trans (setReg_pending _ _ _)))

theorem writeTtCfg_pending (m : Nat) (v : Word) (s : State) : (writeTtCfg m v s).pending = s.pending := by
  unfold writeTtCfg
  simp only [↓mbFlag_pending, ↓declineWrite_pending, ↓plainWrite_pending, ↓startTt_pending, ↓stopTt_pending, apply_ite State.pending, ite_self]

theorem execProtocolExceptionRejoin_pending (c : Fin 8) (s : State) : (stateOr (execProtocolExceptionRejoin c s) s).pending = s.pending := by
  unfold execProtocolExceptionRejoin
  simp only [↓frameEnd_pending, ↓onMb_pending, apply_ite State.pending, ite_self, stateOr_next]

theorem writeMbCtlOpen_pending (m : Nat) (v : Word) (s : State) : (writeMbCtlOpen m v s).pending = s.pending := by
  unfold writeMbCtlOpen
  split <;> simp only [↓fresh_pending, ↓writeMbCtl_pending]

end Sys2Proof.Machine
end

