-- ==== Sys2Proof/Laws/Queue5.lean ====
section
/-! SUPPORT. Every operation and meaning leaves the queue of commands as it is. The operations and meanings of Buses, Serial, Waymarks, Timetable, Duplex. -/

namespace Sys2Proof.Machine

theorem writeGwCtl_pending (v : Word) (s : State) : (writeGwCtl v s).pending = s.pending := by
  unfold writeGwCtl
  simp only [↓plainWrite_pending, ↓reviewTrack_pending, apply_ite State.pending, ite_self, implies_true, foldl_pending]

theorem writeTrig_pending (m : Nat) (a : Nat) (v : Word) (s : State) : (writeTrig m a v s).pending = s.pending := by
  unfold writeTrig
  simp only [↓mbFlag_pending, ↓declineWrite_pending, ↓plainWrite_pending, apply_ite State.pending, ite_self]

theorem execGwBusToImage_pending (s : State) : (stateOr (execGwBusToImage s) s).pending = s.pending := by
  unfold execGwBusToImage
  split <;> simp only [↓acquire_pending, ↓gwEnd_pending, ↓onBuses_pending, ↓rateDrop_pending, ↓applyEntry_pending, apply_ite State.pending, ite_self, stateOr_next, stateOr_ite, implies_true, foldl_pending]

theorem execTtEnable_pending (m : Master) (c : Fin 8) (v : Word) (s : State) : (stateOr (execTtEnable m c v s) s).pending = s.pending := by
  unfold execTtEnable
  simp only [↓guardWrite_pending, ↓writeTtCfg_pending, stateOr_next, implies_true]

theorem execMbTxcan_pending (m : Master) (c : Fin 8) (j : Fin 4) (v : Word) (s : State) : (stateOr (execMbTxcan m c j v s) s).pending = s.pending := by
  unfold execMbTxcan
  simp only [↓guardWrite_pending, ↓cancelObj_pending, stateOr_next, implies_true, foldl_pending]

theorem gwBoundary_pending (s : State) : (gwBoundary s).pending = s.pending := by
  unfold gwBoundary
  simp only [↓onBuses_pending]

theorem execBusOffRecovery_pending (c : Fin 8) (s : State) : (stateOr (execBusOffRecovery c s) s).pending = s.pending := by
  unfold execBusOffRecovery
  simp only [↓setMbState_pending, ↓showCounts_pending, ↓onMb_pending, apply_ite State.pending, ite_self, stateOr_next]

theorem execBusError_pending (c : Fin 8) (kind : BusFault) (tecUp : Nat) (recUp : Nat) (s : State) : (stateOr (execBusError c kind tecUp recUp s) s).pending = s.pending := by
  unfold execBusError
  simp only [↓busFault_pending, apply_ite State.pending, ite_self, stateOr_next]

theorem resetMb_pending (m : Nat) (s : State) : (resetMb m s).pending = s.pending := by
  unfold resetMb
  simp only [↓setMbState_pending, ↓onBuses_pending, ↓resetRange_pending, ↓onMb_pending]

theorem execBusIntegrated_pending (c : Fin 8) (s : State) : (stateOr (execBusIntegrated c s) s).pending = s.pending := by
  unfold execBusIntegrated
  simp only [↓reviewMb_pending, ↓setMbState_pending, apply_ite State.pending, ite_self, stateOr_next]

theorem execBusFrame_pending (e : Envelope) (s : State) : (stateOr (execBusFrame e s) s).pending = s.pending := by
  unfold execBusFrame
  extract_lets e1 s1 s2 rw
  have h1 : s1.pending = s.pending := takeDelivered_pending _ _
  have h2 : s2.pending = s.pending := by
    show (if poisonMismatch e1 = true then _ else _ : State).pending = _
    split
    · exact (bump_pending _ _).trans h1
    · exact h1
  have h3 : ∀ r, (rw r).pending = s.pending := fun r => (sendNdn_pending _ _ _ _ _ _ _).trans h2
  clear_value rw s2
  split
  · exact h3 _
  · split
    · exact h3 _
    · split
      · exact h3 _
      · split
        · exact h3 _
        · exact (takeBusFrame_pending _ _ _ _).trans h2

theorem uartNotice_pending (u : Nat) (s : State) : (uartNotice u s).pending = s.pending := by
  unfold uartNotice
  simp only [↓postOpen_pending]

theorem execUartStartBit_pending (u : Fin 16) (confirmed : Bool) (age : Nat) (s : State) : (stateOr (execUartStartBit u confirmed age s) s).pending = s.pending := by
  unfold execUartStartBit
  simp only [↓onUart_pending, ↓setReg_pending, apply_ite State.pending, ite_self, stateOr_next, stateOr_ite]

theorem uartFlag_pending (u : Nat) (f : Fld) (s : State) : (uartFlag u f s).pending = s.pending := by
  unfold uartFlag
  simp only [↓setB_pending]

theorem takeChar_pending (u : Nat) (c : UartChar) (s : State) : (takeChar u c s).pending = s.pending := by
  unfold takeChar
  simp only [↓onUart_pending, ↓bump_pending, ↓uartFlag_pending, ↓uartNotice_pending, apply_ite State.pending, ite_self]

theorem writeEnCtl_pending (n : Nat) (v : Word) (s : State) : (writeEnCtl n v s).pending = s.pending := by
  unfold writeEnCtl
  simp only [↓setB_pending, ↓declineWrite_pending, ↓reviewSource_pending, ↓writeInPart_pending, apply_ite State.pending, ite_self]

theorem closeFrame_pending (u : Nat) (s : State) : (closeFrame u s).pending = s.pending := by
  unfold closeFrame
  simp only [↓onUart_pending]

theorem execUartGap_pending (u : Fin 16) (s : State) : (stateOr (execUartGap u s) s).pending = s.pending := by
  unfold execUartGap
  simp only [↓onUart_pending, ↓uartNotice_pending, ↓closeFrame_pending, apply_ite State.pending, ite_self, stateOr_next, stateOr_ite]

theorem mainsBoundary_pending (i : Nat) (s : State) : (mainsBoundary i s).pending = s.pending := by
  unfold mainsBoundary
  simp only [↓boundaryWrite_pending, apply_ite State.pending, ite_self]

theorem refreshUart_pending (u : Nat) (s : State) : (refreshUart u s).pending = s.pending := by
  unfold refreshUart
  simp only [↓refreshPin_pending, implies_true, foldl_pending]

theorem encCount_pending (n : Nat) (d : Int) (age : Nat) (s : State) : (encCount n d age s).pending = s.pending := by
  unfold encCount
  simp only [↓setB_pending, ↓onEnc_pending, ↓setReg_pending, ↓feedTracks_pending, apply_ite State.pending, ite_self]

theorem rebase_pending (i : Nat) (s : State) : (rebase i s).pending = s.pending := by
  unfold rebase
  simp only [↓onMains_pending]

theorem setMainsState_pending (i : Nat) (st : Nat) (s : State) : (setMainsState i st s).pending = s.pending := by
  unfold setMainsState
  simp only [↓setF_pending, ↓rebase_pending, ↓onMains_pending, ↓setB_pending, ↓reviewSource_pending, ↓postOpen_pending, apply_ite State.pending, ite_self]

theorem judgeError_pending (i : Nat) (err : Int) (s : State) : (judgeError i err s).pending = s.pending := by
  unfold judgeError
  simp only [↓onMains_pending, ↓setMainsState_pending, apply_ite State.pending, ite_self]

theorem correctFreq_pending (i : Nat) (err : Int) (s : State) : (correctFreq i err s).pending = s.pending := by
  unfold correctFreq
  simp only [↓setF_pending, ↓onMains_pending, ↓rebase_pending, ↓bump_pending, ↓setB_pending, apply_ite State.pending, ite_self]

theorem mainsEdge_pending (i : Nat) (age : Nat) (s : State) : (mainsEdge i age s).pending = s.pending := by
  unfold mainsEdge
  simp only [↓rebase_pending, ↓onMains_pending, ↓judgeError_pending, ↓setReg_pending, ↓correctFreq_pending, apply_ite State.pending, ite_self]

theorem execMainsEdge_pending (i : Fin 2) (rising : Bool) (age : Nat) (s : State) : (stateOr (execMainsEdge i rising age s) s).pending = s.pending := by
  unfold execMainsEdge
  (repeat' split) <;> simp only [↓bump_pending, ↓mainsEdge_pending, ↓onMains_pending, apply_ite State.pending, ite_self, stateOr_next, stateOr_ite]

theorem writeUaCtl_pending (u : Nat) (v : Word) (s : State) : (writeUaCtl u v s).pending = s.pending := by
  unfold writeUaCtl
  simp only [↓uartFlag_pending, ↓declineWrite_pending, ↓writeInPart_pending, ↓onPin_pending, ↓onUart_pending, ↓refreshUart_pending, apply_ite State.pending, ite_self, implies_true, foldl_pending]

theorem writeImg2_pending (a : Nat) (stat : Nat) (f : Fld) (v : Word) (s : State) : (writeImg2 a stat f v s).pending = s.pending := by
  unfold writeImg2
  simp only [↓setB_pending, ↓declineWrite_pending, ↓plainWrite_pending, apply_ite State.pending, ite_self]

theorem drainUart_pending (u : Nat) (s : State) : (drainUart u s).pending = s.pending := by
  unfold drainUart
  simp only [↓onUart_pending, ↓closeFrame_pending, apply_ite State.pending, ite_self, implies_true, foldl_pending]

theorem execMainsHoldMax_pending (i : Fin 2) (s : State) : (stateOr (execMainsHoldMax i s) s).pending = s.pending := by
  unfold execMainsHoldMax
  simp only [↓setMainsState_pending, apply_ite State.pending, ite_self, stateOr_next]

theorem encIllegal_pending (n : Nat) (old : Nat) (new : Nat) (s : State) : (encIllegal n old new s).pending = s.pending := by
  unfold encIllegal
  simp only [↓bump_pending, ↓setB_pending, ↓post_pending, apply_ite State.pending, ite_self]

theorem encSample_pending (n : Nat) (a : Bool) (b : Bool) (age : Nat) (s : State) : (encSample n a b age s).pending = s.pending := by
  unfold encSample
  extract_lets old new s1
  have h1 : s1.pending = s.pending := setF_pending _ _ _ _
  clear_value s1
  split
  · exact h1
  · split
    · exact (encIllegal_pending _ _ _ _).trans h1
    · exact (encCount_pending _ _ _ _).trans h1

theorem encIndex_pending (n : Nat) (age : Nat) (s : State) : (encIndex n age s).pending = s.pending := by
  unfold encIndex
  simp only [↓setReg_pending, ↓onEnc_pending, ↓setB_pending, ↓postPm_pending, apply_ite State.pending, ite_self]

theorem execEncoderIndex_pending (n : Fin 16) (z : Bool) (a : Bool) (b : Bool) (age : Nat) (s : State) : (stateOr (execEncoderIndex n z a b age s) s).pending = s.pending := by
  unfold execEncoderIndex
  simp only [↓setB_pending, ↓encSample_pending, ↓encIndex_pending, apply_ite State.pending, ite_self, stateOr_next, stateOr_ite]

theorem writeEnCount_pending (n : Nat) (v : Word) (s : State) : (writeEnCount n v s).pending = s.pending := by
  unfold writeEnCount
  simp only [↓onEnc_pending, ↓plainWrite_pending]

theorem resetUart_pending (u : Nat) (s : State) : (resetUart u s).pending = s.pending := by
  unfold resetUart
  simp only [↓resetRange_pending, ↓onUart_pending]

theorem uartBoundary_pending (u : Nat) (s : State) : (uartBoundary u s).pending = s.pending := by
  unfold uartBoundary
  simp only [↓boundaryWrite_pending, ↓onUart_pending, ↓bumpN_pending, apply_ite State.pending, ite_self]

theorem encBoundary_pending (n : Nat) (s : State) : (encBoundary n s).pending = s.pending := by
  unfold encBoundary
  simp only [↓boundaryWrite_pending, apply_ite State.pending, ite_self]

theorem unitRecords_pending (s : State) : (unitRecords s).pending = s.pending := by
  unfold unitRecords
  simp only [↓uartBoundary_pending, ↓encBoundary_pending, ↓mainsBoundary_pending, implies_true, foldl_pending]

theorem resetMains_pending (i : Nat) (s : State) : (resetMains i s).pending = s.pending := by
  unfold resetMains
  simp only [↓reviewSource_pending, ↓resetRange_pending, ↓onMains_pending, ↓setMainsState_pending]

theorem execZarm_pending (m : Master) (n : Fin 16) (v : Word) (s : State) : (stateOr (execZarm m n v s) s).pending = s.pending := by
  unfold execZarm
  simp only [↓guardWrite_pending, ↓writeEnCtl_pending, stateOr_next, implies_true]

theorem writeMpCtl_pending (i : Nat) (v : Word) (s : State) : (writeMpCtl i v s).pending = s.pending := by
  unfold writeMpCtl
  simp only [↓setB_pending, ↓writeInPart_pending, ↓setF_pending, ↓rebase_pending, ↓setMainsState_pending, ↓onMains_pending, apply_ite State.pending, ite_self]

theorem execMainsEnable_pending (m : Master) (i : Fin 2) (v : Word) (s : State) : (stateOr (execMainsEnable m i v s) s).pending = s.pending := by
  unfold execMainsEnable
  simp only [↓guardWrite_pending, ↓writeMpCtl_pending, stateOr_next, implies_true]

theorem writeTxd_pending (u : Nat) (v : Word) (s : State) : (writeTxd u v s).pending = s.pending := by
  unfold writeTxd
  simp only [↓countPart_pending, ↓bump_pending, ↓uartFlag_pending, ↓onUart_pending, apply_ite State.pending, ite_self]

theorem execUaTxdWrite_pending (m : Master) (u : Fin 16) (v : Word) (s : State) : (stateOr (execUaTxdWrite m u v s) s).pending = s.pending := by
  unfold execUaTxdWrite
  simp only [↓guardWrite_pending, ↓writeTxd_pending, stateOr_next, implies_true]

theorem charFlags_pending (u : Nat) (c : UartChar) (s : State) : (charFlags u c s).pending = s.pending := by
  unfold charFlags
  simp only [↓uartFlag_pending, apply_ite State.pending, ite_self]

theorem compareEcho_pending (u : Nat) (c : UartChar) (s : State) : (compareEcho u c s).pending = s.pending := by
  unfold compareEcho
  simp only [↓onUart_pending, ↓uartNotice_pending, ↓bump_pending, ↓uartFlag_pending, apply_ite State.pending, ite_self]

theorem execUartCharReceived_pending (u : Fin 16) (d : BitVec 9) (par : Bool) (stop : Bool) (s : State) : (stateOr (execUartCharReceived u d par stop s) s).pending = s.pending := by
  unfold execUartCharReceived
  simp only [↓charFlags_pending, ↓onUart_pending, ↓compareEcho_pending, ↓takeChar_pending, apply_ite State.pending, ite_self, stateOr_next, stateOr_ite]

theorem writeEnMod_pending (n : Nat) (v : Word) (s : State) : (writeEnMod n v s).pending = s.pending := by
  unfold writeEnMod
  simp only [↓setB_pending, ↓declineWrite_pending, ↓plainWrite_pending, apply_ite State.pending, ite_self]

theorem resetEnc_pending (n : Nat) (s : State) : (resetEnc n s).pending = s.pending := by
  unfold resetEnc
  simp only [↓reviewSource_pending, ↓resetRange_pending, ↓onEnc_pending]

theorem readRxd_pending (u : Nat) (s : State) : (readRxd u s).1.pending = s.pending := by
  unfold readRxd
  (repeat' split) <;> simp only [↓uartFlag_pending, ↓onUart_pending]

theorem execUartTxStart_pending (u : Fin 16) (s : State) : (stateOr (execUartTxStart u s) s).pending = s.pending := by
  unfold execUartTxStart
  grind [refreshUart_pending, onUart_pending, stateOr, Clock.state, fresh, foldl_pending]

theorem writeUaImg_pending (u : Nat) (v : Word) (s : State) : (writeUaImg u v s).pending = s.pending := by
  unfold writeUaImg
  simp only [↓uartFlag_pending, ↓declineWrite_pending, ↓plainWrite_pending, ↓drainUart_pending, apply_ite State.pending, ite_self]

theorem execEnCountWrite_pending (m : Master) (n : Fin 16) (v : Word) (s : State) : (stateOr (execEnCountWrite m n v s) s).pending = s.pending := by
  unfold execEnCountWrite
  simp only [↓guardWrite_pending, ↓writeEnCount_pending, stateOr_next, implies_true]

theorem execUartTxEnd_pending (u : Fin 16) (s : State) : (stateOr (execUartTxEnd u s) s).pending = s.pending := by
  unfold execUartTxEnd
  simp only [↓refreshUart_pending, ↓onUart_pending, apply_ite State.pending, ite_self, stateOr_next, stateOr_ite]

theorem execMainsEdgeMissing_pending (i : Fin 2) (s : State) : (stateOr (execMainsEdgeMissing i s) s).pending = s.pending := by
  unfold execMainsEdgeMissing
  simp only [↓setMainsState_pending, apply_ite State.pending, ite_self, stateOr_next]

theorem writeUaTiming_pending (u : Nat) (a : Nat) (v : Word) (s : State) : (writeUaTiming u a v s).pending = s.pending := by
  unfold writeUaTiming
  simp only [↓uartFlag_pending, ↓declineWrite_pending, ↓plainWrite_pending, apply_ite State.pending, ite_self]

theorem execUaRxdRead_pending (m : Master) (u : Fin 16) (s : State) : (stateOr (execUaRxdRead m u s) s).pending = s.pending := by
  unfold execUaRxdRead
  simp only [↓guardRead_pending, ↓readRxd_pending, stateOr_next, implies_true]

theorem execEncoderEdge_pending (n : Fin 16) (a : Bool) (b : Bool) (age : Nat) (s : State) : (stateOr (execEncoderEdge n a b age s) s).pending = s.pending := by
  unfold execEncoderEdge
  simp only [↓encSample_pending, apply_ite State.pending, ite_self, stateOr_next]

theorem applySample_pending (n : Nat) (e : Envelope) (tick : Nat) (s : State) : (applySample n e tick s).pending = s.pending := by
  unfold applySample
  simp only [↓onTrack_pending, ↓reviewTrack_pending, ↓judgedJump_pending, ↓evalTrack_pending, apply_ite State.pending, ite_self]

theorem loadEmit_pending (m : Emit) (s : State) : (loadEmit m s).pending = s.pending := by
  unfold loadEmit
  simp only [↓setReg_pending, ↓onChan_pending, ↓setWords_pending]

theorem recordFiring_pending (f : Firing) (e : WmEntry) (s : State) : (recordFiring f e s).pending = s.pending := by
  unfold recordFiring
  simp only [↓wmPut_pending, ↓bump_pending, ↓wmNotice_pending, ↓setB_pending, apply_ite State.pending, ite_self]

theorem execWaymarkCrossing_pending (n : Fin 16) (s : State) : (stateOr (execWaymarkCrossing n s) s).pending = s.pending := by
  unfold execWaymarkCrossing
  simp only [↓evalTrack_pending, stateOr_next]

theorem reachPin_pending (p : Nat) (entry : Nat) (act : Option Bool) (s : State) : (reachPin p entry act s).pending = s.pending := by
  unfold reachPin
  simp only [↓setB_pending, ↓driveWout_pending, ↓onPin_pending, apply_ite State.pending, ite_self]

theorem offerSample_pending (n : Nat) (e : Envelope) (s : State) : (offerSample n e s).1.pending = s.pending := by
  unfold offerSample
  grind [originate_pending, setF_pending, bump_pending, onTrack_pending, setB_pending, stateOr, Clock.state, fresh, foldl_pending]

theorem retrySample_pending (s : State) (x : Nat × Envelope × Nat) : (retrySample s x).pending = s.pending := by
  unfold retrySample
  extract_lets gone
  have hg : ∀ u, (gone u).pending = u.pending := fun u => onTracks_pending _ _
  have h := offerSample_pending x.1 x.2.1 s
  clear_value gone
  split
  · rename_i t e
    rw [e] at h
    split
    · rfl
    · exact (bump_pending _ _).trans ((setB_pending _ _ _ _).trans ((hg _).trans h))
  · rename_i t _ _ e; rw [e] at h; exact (hg _).trans h

theorem cancelPulses_pending (bank : Nat) (mask : Nat) (s : State) : (cancelPulses bank mask s).pending = s.pending := by
  unfold cancelPulses
  grind [onTracks_pending, stateOr, Clock.state, fresh, foldl_pending]

theorem readWmCap_pending (id : MasterId) (s : State) : (readWmCap id s).1.pending = s.pending := by
  unfold readWmCap
  split <;> simp only [↓latchUpper_pending, ↓onTracks_pending]

theorem execWmCapRead_pending (m : Master) (s : State) : (stateOr (execWmCapRead m s) s).pending = s.pending := by
  unfold execWmCapRead
  simp only [↓guardRead_pending, ↓readWmCap_pending, stateOr_next, implies_true]

theorem wmLost_pending (track : Nat) (what : Nat) (kind : Nat) (f : Fld) (s : State) : (wmLost track what kind f s).pending = s.pending := by
  unfold wmLost
  simp only [↓wmNotice_pending, ↓bump_pending, ↓setB_pending]

theorem settleCopies_pending (cs : List (Nat × DWord × DWord)) (s : State) : (settleCopies cs s).pending = s.pending := by
  unfold settleCopies
  simp only [↓onNotices_pending, ↓onTracks_pending]

theorem copyOut_pending (s : State) : (copyOut s).pending = s.pending := by
  unfold copyOut
  split <;> simp only [↓acquire_pending, ↓endRequest_pending, ↓settleCopies_pending, ↓refuse_pending, ↓masterWrite_pending, apply_ite State.pending, ite_self]

theorem actCapture_pending (f : Firing) (s : State) : (actCapture f s).pending = s.pending := by
  unfold actCapture
  simp only [↓onTracks_pending, ↓wmLost_pending, ↓bump_pending, ↓copyOut_pending, ↓settleCopies_pending, apply_ite State.pending, ite_self]

theorem writeTkCfg_pending (n : Nat) (rsrc : Bool) (v : Word) (s : State) : (writeTkCfg n rsrc v s).pending = s.pending := by
  unfold writeTkCfg
  simp only [↓setB_pending, ↓declineWrite_pending, ↓plainWrite_pending, ↓onTrack_pending, ↓reviewTrack_pending, apply_ite State.pending, ite_self]

theorem writeTkCtl_pending (n : Nat) (v : Word) (s : State) : (writeTkCtl n v s).pending = s.pending := by
  unfold writeTkCtl
  simp only [↓reviewTrack_pending, ↓plainWrite_pending]

theorem execTrackHold_pending (m : Master) (n : Fin 16) (v : Word) (s : State) : (stateOr (execTrackHold m n v s) s).pending = s.pending := by
  unfold execTrackHold
  simp only [↓guardWrite_pending, ↓writeTkCtl_pending, stateOr_next, implies_true]

theorem sampleEdge_pending (n : Nat) (s : State) : (sampleEdge n s).pending = s.pending := by
  unfold sampleEdge
  grind [offerSample_pending, onTracks_pending, stateOr, Clock.state, fresh, foldl_pending]

theorem execTrackPublish_pending (n : Fin 16) (s : State) : (stateOr (execTrackPublish n s) s).pending = s.pending := by
  unfold execTrackPublish
  simp only [↓onTt_pending, ↓bump_pending, ↓sampleEdge_pending, apply_ite State.pending, ite_self, stateOr_next, stateOr_ite]

theorem takeFiring_pending (f : Firing) (s : State) : (takeFiring f s).pending = s.pending := by
  unfold takeFiring
  simp only [↓onTracks_pending]

theorem badFiring_pending (f : Firing) (s : State) : (badFiring f s).pending = s.pending := by
  unfold badFiring
  simp only [↓wmBad_pending, ↓latchFault_pending, ↓miNotice_pending, apply_ite State.pending, ite_self]

theorem fire_pending (kind : Nat) (act : Firing → WmEntry → State → State) (s : State) (h0 : ∀ y0 y1 x, (act y0 y1 x).pending = x.pending) : (fire kind act s).pending = s.pending := by
  unfold fire
  (repeat' split) <;> simp only [h0, ↓takeFiring_pending, ↓dropFiring_pending, ↓badFiring_pending, ↓recordFiring_pending, ↓wmMove_pending, ↓wmDisarm_pending, apply_ite State.pending, ite_self]

theorem execActCapture_pending (s : State) : (stateOr (execActCapture s) s).pending = s.pending := by
  unfold execActCapture
  simp only [↓fire_pending, ↓actCapture_pending, stateOr_next, implies_true]

theorem silentJump_pending (n : Nat) (new : Nat) (s : State) : (silentJump n new s).pending = s.pending := by
  unfold silentJump
  simp only [↓evalTrack_pending, ↓onTrack_pending]

theorem writeTkPos_pending (id : MasterId) (n : Nat) (v : Word) (s : State) : (writeTkPos id n v s).pending = s.pending := by
  unfold writeTkPos
  simp only [↓setStage_pending, ↓silentJump_pending, ↓setB_pending, apply_ite State.pending, ite_self]

theorem execTkPosWrite_pending (m : Master) (n : Fin 16) (v : Word) (s : State) : (stateOr (execTkPosWrite m n v s) s).pending = s.pending := by
  unfold execTkPosWrite
  simp only [↓guardWrite_pending, ↓writeTkPos_pending, stateOr_next, implies_true]

theorem writeTkRcfg_pending (n : Nat) (v : Word) (s : State) : (writeTkRcfg n v s).pending = s.pending := by
  unfold writeTkRcfg
  simp only [↓reviewTrack_pending, ↓plainWrite_pending]

theorem writeWmCtl_pending (v : Word) (s : State) : (writeWmCtl v s).pending = s.pending := by
  unfold writeWmCtl
  simp only [↓reviewFiring_pending, ↓plainWrite_pending]

theorem execWmCtlWrite_pending (m : Master) (v : Word) (s : State) : (stateOr (execWmCtlWrite m v s) s).pending = s.pending := by
  unfold execWmCtlWrite
  simp only [↓guardWrite_pending, ↓writeWmCtl_pending, stateOr_next, implies_true]

theorem actPins_pending (entry : Nat) (bank : Nat) (mask : Nat) (act : Nat → Option Bool) (s : State) : (actPins entry bank mask act s).pending = s.pending := by
  unfold actPins
  simp only [↓bumpN_pending, ↓setB_pending, ↓cancelPulses_pending, ↓reachPin_pending, apply_ite State.pending, ite_self, implies_true, foldl_pending]

theorem actPulse_pending (f : Firing) (s : State) : (actPulse f s).pending = s.pending := by
  unfold actPulse
  split <;> simp only [↓wmLost_pending, ↓actPins_pending, ↓onTracks_pending, apply_ite State.pending, ite_self]

theorem execActPulse_pending (s : State) : (stateOr (execActPulse s) s).pending = s.pending := by
  unfold execActPulse
  simp only [↓fire_pending, ↓actPulse_pending, stateOr_next, implies_true]

theorem execEmitDispatch_pending (s : State) : (stateOr (execEmitDispatch s) s).pending = s.pending := by
  unfold execEmitDispatch
  split <;> simp only [↓loadEmit_pending, ↓onTracks_pending, ↓wmLost_pending, ↓issue_pending, apply_ite State.pending, ite_self, stateOr_next, stateOr_ite]

theorem actChain_pending (f : Firing) (pos : Nat) (s : State) : (actChain f pos s).pending = s.pending := by
  unfold actChain
  simp only [↓wmPutPos_pending, ↓wmPut_pending, apply_ite State.pending, ite_self]

theorem execActChain_pending (s : State) : (stateOr (execActChain s) s).pending = s.pending := by
  unfold execActChain
  simp only [↓fire_pending, ↓actChain_pending, stateOr_next, implies_true]

theorem execActFlag_pending (s : State) : (stateOr (execActFlag s) s).pending = s.pending := by
  unfold execActFlag
  simp only [↓fire_pending, ↓raiseFlags_pending, apply_ite State.pending, ite_self, stateOr_next, implies_true]

theorem takeSample_pending (n : Nat) (e : Envelope) (tick : Nat) (s : State) : (takeSample n e tick s).pending = s.pending := by
  unfold takeSample
  simp only [↓bump_pending, ↓setB_pending, ↓setF_pending, ↓onTrack_pending, ↓reviewTrack_pending, ↓applySample_pending, apply_ite State.pending, ite_self]

theorem execTrackSample_pending (e : Envelope) (s : State) : (stateOr (execTrackSample e s) s).pending = s.pending := by
  unfold execTrackSample
  simp only [↓takeDelivered_pending, ↓bump_pending, ↓consumePoison_pending, ↓takeSample_pending, apply_ite State.pending, ite_self, stateOr_next, stateOr_ite, implies_true, foldl_pending]

theorem execTkCfgWrite_pending (m : Master) (n : Fin 16) (rsrc : Bool) (v : Word) (s : State) : (stateOr (execTkCfgWrite m n rsrc v s) s).pending = s.pending := by
  unfold execTkCfgWrite
  simp only [↓guardWrite_pending, ↓writeTkCfg_pending, stateOr_next, implies_true]

theorem writeTkCarm_pending (n : Nat) (v : Word) (s : State) : (writeTkCarm n v s).pending = s.pending := by
  unfold writeTkCarm
  simp only [↓setB_pending, ↓declineWrite_pending, ↓plainWrite_pending, ↓setF_pending, apply_ite State.pending, ite_self]

theorem execActEmit_pending (s : State) : (stateOr (execActEmit s) s).pending = s.pending := by
  unfold execActEmit
  simp only [↓fire_pending, ↓wmLost_pending, ↓onTracks_pending, apply_ite State.pending, ite_self, stateOr_next, implies_true]

theorem execActPin_pending (s : State) : (stateOr (execActPin s) s).pending = s.pending := by
  unfold execActPin
  simp only [↓fire_pending, ↓actPins_pending, stateOr_next, implies_true]

theorem retrySamples_pending (s : State) : (retrySamples s).pending = s.pending := by
  unfold retrySamples
  simp only [↓retrySample_pending, implies_true, foldl_pending]

theorem takeUp_pending (i : Nat) (s : State) : (takeUp i s).pending = s.pending := by
  unfold takeUp
  simp only [↓onTracks_pending, ↓setEntry_pending, ↓wmDiscard_pending, ↓evalEntry_pending, apply_ite State.pending, ite_self]

theorem execWaymarkTakeup_pending (i : Fin 4096) (s : State) : (stateOr (execWaymarkTakeup i s) s).pending = s.pending := by
  unfold execWaymarkTakeup
  simp only [↓takeUp_pending, stateOr_next]

theorem resetTrack_pending (n : Nat) (s : State) : (resetTrack n s).pending = s.pending := by
  unfold resetTrack
  simp only [↓tkNotice_pending, ↓onTracks_pending, ↓onTrack_pending, ↓resetRange_pending, apply_ite State.pending, ite_self]

theorem execTrackFreshExpiry_pending (n : Fin 16) (s : State) : (stateOr (execTrackFreshExpiry n s) s).pending = s.pending := by
  unfold execTrackFreshExpiry
  simp only [↓reviewTrack_pending, apply_ite State.pending, ite_self, stateOr_next]

theorem execTrackCoastExpiry_pending (n : Fin 16) (s : State) : (stateOr (execTrackCoastExpiry n s) s).pending = s.pending := by
  unfold execTrackCoastExpiry
  simp only [↓reviewTrack_pending, apply_ite State.pending, ite_self, stateOr_next]

theorem execActNotice_pending (s : State) : (stateOr (execActNotice s) s).pending = s.pending := by
  unfold execActNotice
  simp only [↓fire_pending, ↓postPm_pending, stateOr_next, implies_true]

theorem execTrackRelease_pending (m : Master) (n : Fin 16) (v : Word) (s : State) : (stateOr (execTrackRelease m n v s) s).pending = s.pending := by
  unfold execTrackRelease
  simp only [↓guardWrite_pending, ↓writeTkCtl_pending, stateOr_next, implies_true]

theorem copiesOut_pending (s : State) : (copiesOut s).pending = s.pending := by
  unfold copiesOut
  simp only [↓copyOut_pending, implies_true, foldl_pending]

theorem execTrackSourceInvalid_pending (n : Fin 16) (s : State) : (stateOr (execTrackSourceInvalid n s) s).pending = s.pending := by
  unfold execTrackSourceInvalid
  simp only [↓reviewTrack_pending, apply_ite State.pending, ite_self, stateOr_next]

theorem execPulseEnd_pending (k : Fin 64) (s : State) : (stateOr (execPulseEnd k s) s).pending = s.pending := by
  unfold execPulseEnd
  split <;> simp only [↓onTracks_pending, ↓driveWout_pending, apply_ite State.pending, ite_self, stateOr_next, stateOr_ite, implies_true, foldl_pending]

theorem execActBus_pending (s : State) : (stateOr (execActBus s) s).pending = s.pending := by
  unfold execActBus
  simp only [↓fire_pending, ↓requestObj_pending, stateOr_next, implies_true]

theorem setTtStage_pending (bank : Nat) (g : Option TtStage) (s : State) : (setTtStage bank g s).pending = s.pending := by
  unfold setTtStage
  simp only [↓onTt_pending]

theorem execInputSeal_pending (s : State) : (stateOr (execInputSeal s) s).pending = s.pending := by
  unfold execInputSeal
  simp only [↓endSeal_pending, stateOr_next]

theorem ttRefuse_pending (s : State) : (ttRefuse s).pending = s.pending := by
  unfold ttRefuse
  simp only [↓setB_pending]

theorem sealInput_pending (s : State) : (sealInput s).pending = s.pending := by
  unfold sealInput
  simp only [↓pinsToImage_pending, ↓unitRecords_pending, ↓startSeal_pending, ↓endSeal_pending]

theorem swapImages_pending (isBoundary : Bool) (s : State) : (swapImages isBoundary s).pending = s.pending := by
  unfold swapImages
  simp only [↓sealInput_pending, ↓cycleTx_pending, ↓gwBoundary_pending, ↓mappedOutputs_pending, ↓swapOutput_pending]

theorem ttNotice_pending (code : Nat) (arg : Nat) (s : State) : (ttNotice code arg s).pending = s.pending := by
  unfold ttNotice
  simp only [↓postOnce_pending]

theorem bankSwap_pending (s : State) : (bankSwap s).pending = s.pending := by
  unfold bankSwap
  simp only [↓setB_pending, ↓bump_pending, ↓ttNotice_pending, apply_ite State.pending, ite_self]

theorem applyService_pending (s : State) : (applyService s).pending = s.pending := by
  unfold applyService
  simp only [↓setF_pending, ↓reviewClaim_pending, ↓reviewFiring_pending, ↓safePins_pending, apply_ite State.pending, ite_self]

theorem swapNow_pending (s : State) : (swapNow s).pending = s.pending := by
  unfold swapNow
  simp only [↓bump_pending, ↓endSeal_pending, ↓swapImages_pending, ↓bankSwap_pending, ↓applyService_pending]

theorem writeTtCtl_pending (v : Word) (s : State) : (writeTtCtl v s).pending = s.pending := by
  unfold writeTtCtl
  simp only [↓ttRefuse_pending, ↓writeInPart_pending, ↓swapNow_pending, apply_ite State.pending, ite_self]

theorem execSwapnow_pending (m : Master) (v : Word) (s : State) : (stateOr (execSwapnow m v s) s).pending = s.pending := by
  unfold execSwapnow
  simp only [↓guardWrite_pending, ↓writeTtCtl_pending, stateOr_next, implies_true]

theorem abandonEntries_pending (s : State) : (abandonEntries s).pending = s.pending := by
  unfold abandonEntries
  grind [ttNotice_pending, bumpN_pending, setB_pending, stateOr, Clock.state, fresh, foldl_pending]

theorem skipBoundaries_pending (n : Nat) (s : State) : (skipBoundaries n s).pending = s.pending := by
  unfold skipBoundaries
  simp only [↓ttNotice_pending, ↓bumpN_pending, ↓setB_pending, apply_ite State.pending, ite_self]

theorem execSwapReq_pending (m : Master) (v : Word) (s : State) : (stateOr (execSwapReq m v s) s).pending = s.pending := by
  unfold execSwapReq
  simp only [↓guardWrite_pending, ↓writeTtCtl_pending, stateOr_next, implies_true]

theorem boundary_pending (k : Nat) (s : State) : (boundary k s).pending = s.pending := by
  unfold boundary
  simp only [↓skipBoundaries_pending, ↓abandonEntries_pending, ↓bump_pending, ↓setReg_pending, ↓onTt_pending, ↓applyService_pending, ↓bankSwap_pending, ↓setB_pending, ↓swapImages_pending, ↓mappedOutputs_pending, apply_ite State.pending, ite_self]

theorem execCycleBoundary_pending (s : State) : (stateOr (execCycleBoundary s) s).pending = s.pending := by
  unfold execCycleBoundary
  split <;> simp only [↓boundary_pending, stateOr_next]

theorem rebaseTt_pending (s : State) : (rebaseTt s).pending = s.pending := by
  unfold rebaseTt
  simp only [↓onTt_pending]

theorem startEntry_pending (bank : Nat) (n : Nat) (s : State) : (startEntry bank n s).pending = s.pending := by
  unfold startEntry
  grind [onTt_pending, latchFault_pending, bump_pending, originate_pending, stateOr, Clock.state, fresh, foldl_pending]

theorem enterTt_pending (l : TtLatch) (s : State) : (enterTt l s).pending = s.pending := by
  unfold enterTt
  simp only [↓rewritten_pending, ↓setReg_pending, ↓onTt_pending, apply_ite State.pending, ite_self]

theorem commitTtEntry_pending (id : MasterId) (bank : Nat) (n : Nat) (v : Word) (s : State) : (commitTtEntry id bank n v s).pending = s.pending := by
  unfold commitTtEntry
  simp only [↓countPart_pending, ↓setTtStage_pending, ↓ttRefuse_pending, ↓ttNotice_pending, ↓bump_pending, ↓setB_pending, ↓onTt_pending, ↓enterTt_pending, apply_ite State.pending, ite_self]

theorem execTtEntryCommit_pending (m : Master) (bank : Fin 2) (n : Fin 256) (v : Word) (s : State) : (stateOr (execTtEntryCommit m bank n v s) s).pending = s.pending := by
  unfold execTtEntryCommit
  simp only [↓guardWrite_pending, ↓commitTtEntry_pending, stateOr_next, implies_true]

theorem execTtRunWrite_pending (m : Master) (v : Word) (s : State) : (stateOr (execTtRunWrite m v s) s).pending = s.pending := by
  unfold execTtRunWrite
  simp only [↓guardWrite_pending, ↓writeTtCtl_pending, stateOr_next, implies_true]

theorem stageTtEntry_pending (id : MasterId) (bank : Nat) (n : Nat) (k : Nat) (v : Word) (s : State) : (stageTtEntry id bank n k v s).pending = s.pending := by
  unfold stageTtEntry
  simp only [↓countPart_pending, ↓setTtStage_pending]

theorem execTtEntryStage_pending (m : Master) (bank : Fin 2) (n : Fin 256) (k : Fin 3) (v : Word) (s : State) : (stateOr (execTtEntryStage m bank n k v s) s).pending = s.pending := by
  unfold execTtEntryStage
  simp only [↓guardWrite_pending, ↓stageTtEntry_pending, stateOr_next, implies_true]

theorem execServiceModeTakesEffect_pending (s : State) : (stateOr (execServiceModeTakesEffect s) s).pending = s.pending := by
  unfold execServiceModeTakesEffect
  simp only [↓applyService_pending, apply_ite State.pending, ite_self, stateOr_next]

theorem execTtEntryStart_pending (s : State) : (stateOr (execTtEntryStart s) s).pending = s.pending := by
  unfold execTtEntryStart
  grind [startEntry_pending, stateOr, Clock.state, fresh, foldl_pending]

theorem execTtEntryHandover_pending (s : State) : (stateOr (execTtEntryHandover s) s).pending = s.pending := by
  unfold execTtEntryHandover
  grind [bump_pending, onTt_pending, enterTt_pending, setB_pending, stateOr, Clock.state, fresh, foldl_pending]

theorem writeTtT0_pending (id : MasterId) (v : Word) (s : State) : (writeTtT0 id v s).pending = s.pending := by
  unfold writeTtT0
  simp only [↓ttRefuse_pending, ↓rebaseTt_pending, ↓commitWide_pending, apply_ite State.pending, ite_self]

theorem stageTtT0_pending (id : MasterId) (v : Word) (s : State) : (stageTtT0 id v s).pending = s.pending := by
  unfold stageTtT0
  simp only [↓ttRefuse_pending, ↓stagePart_pending, apply_ite State.pending, ite_self]

theorem storeCyclic_pending (e : Envelope) (s : State) : (storeCyclic e s).pending = s.pending := by
  unfold storeCyclic
  simp only [↓consumePoison_pending, ↓masterWrite_pending, apply_ite State.pending, ite_self, implies_true, foldl_pending]

theorem writeTtCycle_pending (v : Word) (s : State) : (writeTtCycle v s).pending = s.pending := by
  unfold writeTtCycle
  simp only [↓ttRefuse_pending, ↓declineWrite_pending, ↓rebaseTt_pending, ↓plainWrite_pending, apply_ite State.pending, ite_self]

theorem takeCyclic_pending (e : Envelope) (s : State) : (takeCyclic e s).pending = s.pending := by
  unfold takeCyclic
  grind [bump_pending, ttNotice_pending, setB_pending, onTt_pending, storeCyclic_pending, stateOr, Clock.state, fresh, foldl_pending]

theorem execCyclic_pending (e : Envelope) (s : State) : (stateOr (execCyclic e s) s).pending = s.pending := by
  unfold execCyclic
  simp only [↓takeCyclic_pending, ↓takeDelivered_pending, stateOr_next]

theorem ownPin_pending (p : Nat) (s : State) : (ownPin p s).pending = s.pending := by
  unfold ownPin
  simp only [↓onPin_pending, ↓setB_pending, ↓commitEdge_pending, apply_ite State.pending, ite_self, implies_true, foldl_pending]

theorem ownEnc_pending (n : Nat) (s : State) : (ownEnc n s).pending = s.pending := by
  unfold ownEnc
  simp only [↓onEnc_pending, ↓setReg_pending, ↓feedTracks_pending, apply_ite State.pending, ite_self]

theorem reviewMains_pending (s : State) : (reviewMains s).pending = s.pending := by
  unfold reviewMains
  simp only [↓reviewSource_pending]

end Sys2Proof.Machine
end

