-- ==== Sys2Proof/Laws/Queue6.lean ====
section
/-! SUPPORT. Every operation and meaning leaves the queue of commands as it is. The operations and meanings of Duplex, Power, Locks, Session, Bist, Reset. -/

namespace Sys2Proof.Machine

theorem ownSampling_pending (s : State) : (ownSampling s).pending = s.pending := by
  unfold ownSampling
  simp only [↓ownPin_pending, ↓ownEnc_pending, ↓reviewMains_pending, ↓onDpx_pending, implies_true, foldl_pending]

theorem startFollowing_pending (s : State) : (startFollowing s).pending = s.pending := by
  unfold startFollowing
  simp only [↓onEnc_pending, ↓onDpx_pending, implies_true, foldl_pending]

theorem whileFollowing_pending (f : State → State) (s : State) (h0 : ∀ x, (f x).pending = x.pending) : (whileFollowing f s).pending = s.pending := by
  unfold whileFollowing
  simp only [h0, ↓ownSampling_pending, ↓startFollowing_pending, apply_ite State.pending, ite_self]

theorem dpxRefuse_pending (s : State) : (dpxRefuse s).pending = s.pending := by
  unfold dpxRefuse
  simp only [↓setB_pending]

theorem writeDpxCtl_pending (v : Word) (s : State) : (writeDpxCtl v s).pending = s.pending := by
  unfold writeDpxCtl
  simp only [↓writeInPart_pending, ↓dpxRefuse_pending, ↓setDpxState_pending, ↓refreshPins_pending, ↓dropClaim_pending, ↓bump_pending, ↓latchFault_pending, ↓selfTestKick_pending, apply_ite State.pending, ite_self]

theorem dpxCtlWrite_pending (m : Master) (f : Fld) (b : Nat) (v : Word) (s : State) : (dpxCtlWrite m f b v s).pending = s.pending := by
  unfold dpxCtlWrite
  simp only [↓guardWrite_pending, ↓whileFollowing_pending, ↓writeDpxCtl_pending, implies_true]

theorem execDpxDisable_pending (m : Master) (v : Word) (s : State) : (stateOr (execDpxDisable m v s) s).pending = s.pending := by
  unfold execDpxDisable
  simp only [↓dpxCtlWrite_pending, stateOr_next]

theorem startSpeaking_pending (s : State) : (startSpeaking s).pending = s.pending := by
  unfold startSpeaking
  simp only [↓onDpx_pending, ↓dpxNotice_pending, apply_ite State.pending, ite_self]

theorem setDrive_pending (on : Bool) (s : State) : (setDrive on s).pending = s.pending := by
  unfold setDrive
  simp only [↓refreshPins_pending, ↓setB_pending]

theorem peerTo_pending (level : Bool) (s : State) : (peerTo level s).pending = s.pending := by
  unfold peerTo
  simp only [↓setB_pending, ↓onDpx_pending, ↓setDpxState_pending, ↓dropClaim_pending, ↓setDrive_pending, apply_ite State.pending, ite_self]

theorem partnerRow_pending (e : Envelope) (type : Nat) (words : Nat) (tie : Bool) (f : Envelope → State → State) (s : State) (h0 : ∀ y0 x, (f y0 x).pending = x.pending) : (stateOr (partnerRow e type words tie f s) s).pending = s.pending := by
  unfold partnerRow
  simp only [h0, ↓takeDelivered_pending, ↓bump_pending, apply_ite State.pending, ite_self, stateOr_next]

theorem takeFrame_pending (e : Envelope) (s : State) : (takeFrame e s).pending = s.pending := by
  unfold takeFrame
  simp only [↓completeObj_pending, ↓setPending_pending, ↓storeFrame_pending, apply_ite State.pending, ite_self]

theorem execDpxFrame_pending (e : Envelope) (tie : Bool) (s : State) : (stateOr (execDpxFrame e tie s) s).pending = s.pending := by
  unfold execDpxFrame
  simp only [↓partnerRow_pending, ↓takeFrame_pending, apply_ite State.pending, ite_self, implies_true]

theorem planCaptures_pending (n : Nat) (ws : List DWord) (s : State) : (planCaptures n ws s).pending = s.pending := by
  unfold planCaptures
  split <;> simp only [↓onDpx_pending]

theorem loadEngine_pending (n : Nat) (w1 : DWord) (w2 : DWord) (w3 : DWord) (s : State) : (loadEngine n w1 w2 w3 s).pending = s.pending := by
  unfold loadEngine
  simp only [↓setY_pending, ↓setX_pending, ↓setReg_pending, ↓setOsc_pending, ↓setIsc_pending, ↓onEng_pending, ↓fetchInto_pending, ↓reviewEngineTracks_pending, ↓setEngState_pending, apply_ite State.pending, ite_self]

theorem loadState_pending (ws : List DWord) (s : State) : (loadState ws s).pending = s.pending := by
  unfold loadState
  simp only [↓loadEngine_pending, ↓bump_pending, implies_true, foldl_pending]

theorem raiseClaim_pending (s : State) : (raiseClaim s).pending = s.pending := by
  unfold raiseClaim
  extract_lets x
  exact (setDpxState_pending _ _ _).trans ((setDrive_pending _ _).trans ((onDpx_pending _ _).trans ((bump_pending _ _).trans (setB_pending _ _ _ _))))

theorem applyLevel_pending (ws : List DWord) (m : Nat) (p : Nat) (s : State) : (applyLevel ws m p s).pending = s.pending := by
  unfold applyLevel
  grind [setB_pending, onPin_pending, commitEdge_pending, bumpN_pending, stateOr, Clock.state, fresh, foldl_pending]

theorem execPeerChange_pending (level : Bool) (s : State) : (stateOr (execPeerChange level s) s).pending = s.pending := by
  unfold execPeerChange
  simp only [↓whileFollowing_pending, ↓peerTo_pending, apply_ite State.pending, ite_self, stateOr_next, implies_true]

theorem applyEnc_pending (ws : List DWord) (n : Nat) (s : State) : (applyEnc ws n s).pending = s.pending := by
  unfold applyEnc
  simp only [↓onEnc_pending, ↓setReg_pending, ↓feedTracks_pending, apply_ite State.pending, ite_self]

theorem applyVectors_pending (ws : List DWord) (m : Nat) (s : State) : (applyVectors ws m s).pending = s.pending := by
  unfold applyVectors
  simp only [↓applyLevel_pending, ↓applyEnc_pending, ↓reviewMains_pending, ↓onDpx_pending, implies_true, foldl_pending]

theorem execDpxEnable_pending (m : Master) (v : Word) (s : State) : (stateOr (execDpxEnable m v s) s).pending = s.pending := by
  unfold execDpxEnable
  simp only [↓dpxCtlWrite_pending, stateOr_next]

theorem reportIntent_pending (theirs : DWord) (s : State) : (reportIntent theirs s).pending = s.pending := by
  unfold reportIntent
  simp only [↓setB_pending, ↓onDpx_pending]

theorem sendCaptures_pending (m : Nat) (s : State) : (sendCaptures m s).pending = s.pending := by
  unfold sendCaptures
  simp only [↓onDpx_pending, ↓sendPartner_pending, implies_true, foldl_pending]

theorem leadEdge_pending (m : Nat) (s : State) : (leadEdge m s).pending = s.pending := by
  unfold leadEdge
  grind [sendCaptures_pending, planCaptures_pending, stateOr, Clock.state, fresh, foldl_pending]

theorem missStep_pending (s : State) : (missStep s).pending = s.pending := by
  unfold missStep
  simp only [↓bump_pending, ↓onDpx_pending, ↓dpxNotice_pending, ↓ownSampling_pending, ↓setB_pending, apply_ite State.pending, ite_self]

theorem takeStep_pending (e : Envelope) (mark : RingMark) (s : State) : (takeStep e mark s).pending = s.pending := by
  unfold takeStep
  extract_lets w0 n same first s1 s2 s3 s4 s5
  have h1 : s1.pending = s.pending := by
    show (if same = true then _ else _ : State).pending = _
    split
    · exact setB_pending _ _ _ _
    · rfl
  have h2 : s2.pending = s.pending := by
    show (if first = true then _ else _ : State).pending = _
    split
    · exact (reviewClaim_pending _).trans ((dpxNotice_pending _ _ _).trans h1)
    · exact h1
  have h3 : s3.pending = s.pending := (setB_pending _ _ _ _).trans h2
  have h4 : s4.pending = s.pending := by
    dsimp only [s4]
    split
    · split
      · exact (setB_pending _ _ _ _).trans ((setReg_pending _ _ _).trans h3)
      · exact h3
    · exact h3
  have h5 : s5.pending = s.pending := (onDpx_pending _ _).trans h4
  clear_value s5
  split
  · exact (setB_pending _ _ _ _).trans ((onDpx_pending _ _).trans h5)
  · exact h5

theorem execDpxState_pending (e : Envelope) (tie : Bool) (s : State) : (stateOr (execDpxState e tie s) s).pending = s.pending := by
  unfold execDpxState
  simp only [↓partnerRow_pending, ↓onDpx_pending, apply_ite State.pending, ite_self, implies_true]

theorem execClaimRaise_pending (s : State) : (stateOr (execClaimRaise s) s).pending = s.pending := by
  unfold execClaimRaise
  simp only [↓whileFollowing_pending, ↓raiseClaim_pending, apply_ite State.pending, ite_self, stateOr_next, implies_true]

theorem takeLoads_pending (m : Nat) (s : State) : (takeLoads m s).pending = s.pending := by
  unfold takeLoads
  simp only [↓onDpx_pending, ↓loadState_pending, implies_true, foldl_pending]

theorem compareDomain_pending (dom : Nat) (differs : Bool) (report : State → State) (s : State) (h0 : ∀ x, (report x).pending = x.pending) : (compareDomain dom differs report s).pending = s.pending := by
  unfold compareDomain
  simp only [h0, ↓onDpx_pending, ↓dpxNotice_pending, ↓bump_pending, apply_ite State.pending, ite_self]

theorem compareStep_pending (n : Nat) (ws : List DWord) (s : State) : (compareStep n ws s).pending = s.pending := by
  unfold compareStep
  grind [compareDomain_pending, reportIntent_pending, setReg_pending, stateOr, Clock.state, fresh, foldl_pending]

theorem followEdge_pending (m : Nat) (s : State) : (followEdge m s).pending = s.pending := by
  unfold followEdge
  grind [takeLoads_pending, applyVectors_pending, compareStep_pending, missStep_pending, stateOr, Clock.state, fresh, foldl_pending]

theorem pairEdge_pending (m : Nat) (s : State) : (pairEdge m s).pending = s.pending := by
  unfold pairEdge
  simp only [↓followEdge_pending, ↓leadEdge_pending, ↓ownSampling_pending, ↓onEnc_pending, ↓startSpeaking_pending, ↓sendPartner_pending, ↓onDpx_pending, apply_ite State.pending, ite_self, implies_true, foldl_pending]

theorem execStepEdge_pending (s : State) : (stateOr (execStepEdge s) s).pending = s.pending := by
  unfold execStepEdge
  simp only [↓setReg_pending, ↓pairEdge_pending, apply_ite State.pending, ite_self, stateOr_next, stateOr_ite]

theorem execDpxClrf_pending (m : Master) (v : Word) (s : State) : (stateOr (execDpxClrf m v s) s).pending = s.pending := by
  unfold execDpxClrf
  simp only [↓dpxCtlWrite_pending, stateOr_next]

theorem execDpxSoftFault_pending (m : Master) (v : Word) (s : State) : (stateOr (execDpxSoftFault m v s) s).pending = s.pending := by
  unfold execDpxSoftFault
  simp only [↓dpxCtlWrite_pending, stateOr_next]

theorem execDpxStep_pending (e : Envelope) (tie : Bool) (age : Nat) (ph : Fin 32) (s : State) : (stateOr (execDpxStep e tie age ph s) s).pending = s.pending := by
  unfold execDpxStep
  simp only [↓partnerRow_pending, ↓whileFollowing_pending, ↓takeStep_pending, apply_ite State.pending, ite_self, implies_true]

theorem execHealthReport_pending (s : State) : (stateOr (execHealthReport s) s).pending = s.pending := by
  unfold execHealthReport
  simp only [↓healthReport_pending, apply_ite State.pending, ite_self, stateOr_next]

theorem execDpxYield_pending (m : Master) (v : Word) (s : State) : (stateOr (execDpxYield m v s) s).pending = s.pending := by
  unfold execDpxYield
  simp only [↓dpxCtlWrite_pending, stateOr_next]

theorem putRetries_pending (c : Nat) (n : Nat) (s : State) : (putRetries c n s).pending = s.pending := by
  unfold putRetries
  simp only [↓setF_pending, apply_ite State.pending, ite_self]

theorem restoreRetries_pending (c : Nat) (s : State) : (restoreRetries c s).pending = s.pending := by
  unfold restoreRetries
  simp only [↓onPower_pending, ↓putRetries_pending]

theorem putChan_pending (c : Nat) (st : Nat) (s : State) : (putChan c st s).pending = s.pending := by
  unfold putChan
  simp only [↓setF_pending, ↓setB_pending, apply_ite State.pending, ite_self]

theorem chanOff_pending (c : Nat) (s : State) : (chanOff c s).pending = s.pending := by
  unfold chanOff
  simp only [↓putChan_pending]

theorem clearChan_pending (c : Nat) (s : State) : (clearChan c s).pending = s.pending := by
  unfold clearChan
  simp only [↓restoreRetries_pending, ↓chanOff_pending, apply_ite State.pending, ite_self]

theorem writeChanCtl_pending (c : Nat) (v : Word) (s : State) : (writeChanCtl c v s).pending = s.pending := by
  unfold writeChanCtl
  simp only [↓plainWrite_pending, ↓clearChan_pending, apply_ite State.pending, ite_self]

theorem dropPg_pending (c : Nat) (s : State) : (dropPg c s).pending = s.pending := by
  unfold dropPg
  simp only [↓setB_pending, apply_ite State.pending, ite_self]

theorem feedlessChan_pending (c : Nat) (s : State) : (feedlessChan c s).pending = s.pending := by
  unfold feedlessChan
  simp only [↓dropPg_pending, ↓chanOff_pending, apply_ite State.pending, ite_self]

theorem feedlessAll_pending (s : State) : (feedlessAll s).pending = s.pending := by
  unfold feedlessAll
  simp only [↓feedlessChan_pending, implies_true, foldl_pending]

theorem pdNotice_pending (code : Nat) (arg : Nat) (s : State) : (pdNotice code arg s).pending = s.pending := by
  unfold pdNotice
  simp only [↓postOnce_pending, apply_ite State.pending, ite_self]

theorem pdEvent_pending (f : Fld) (s : State) : (pdEvent f s).pending = s.pending := by
  unfold pdEvent
  simp only [↓setB_pending]

theorem putFeed_pending (n : Nat) (s : State) : (putFeed n s).pending = s.pending := by
  unfold putFeed
  simp only [↓setF_pending]

theorem feedOn_pending (b : Bool) (s : State) : (feedOn b s).pending = s.pending := by
  unfold feedOn
  simp only [↓bump_pending, ↓pdNotice_pending, ↓pdEvent_pending, ↓putFeed_pending]

theorem feedTick_pending (s : State) : (feedTick s).pending = s.pending := by
  unfold feedTick
  simp only [↓feedOn_pending, ↓putFeed_pending, apply_ite State.pending, ite_self]

theorem feedSettle_pending (s : State) : (feedSettle s).pending = s.pending := by
  unfold feedSettle
  simp only [↓feedlessAll_pending, ↓feedTick_pending]

theorem writePdCtl_pending (v : Word) (s : State) : (writePdCtl v s).pending = s.pending := by
  unfold writePdCtl
  simp only [↓plainWrite_pending, ↓feedSettle_pending, ↓setB_pending, apply_ite State.pending, ite_self]

theorem execGfclr_pending (m : Master) (v : Word) (s : State) : (stateOr (execGfclr m v s) s).pending = s.pending := by
  unfold execGfclr
  simp only [↓guardWrite_pending, ↓writePdCtl_pending, stateOr_next, implies_true]

theorem latchSupply_pending (s : State) : (latchSupply s).pending = s.pending := by
  unfold latchSupply
  simp only [↓latchFault_pending, apply_ite State.pending, ite_self]

theorem railLeft_pending (r : Nat) (s : State) : (railLeft r s).pending = s.pending := by
  unfold railLeft
  simp only [↓setReg_pending, ↓bump_pending, ↓pdEvent_pending, ↓pdNotice_pending, ↓latchSupply_pending]

theorem execGateFault_pending (s : State) : (stateOr (execGateFault s) s).pending = s.pending := by
  unfold execGateFault
  simp only [↓setB_pending, ↓putFeed_pending, ↓bump_pending, ↓pdNotice_pending, ↓pdEvent_pending, ↓feedlessAll_pending, apply_ite State.pending, ite_self, stateOr_next, stateOr_ite]

theorem execBrownOut_pending (vin : Nat) (s : State) : (stateOr (execBrownOut vin s) s).pending = s.pending := by
  unfold execBrownOut
  simp only [↓pdEvent_pending, ↓setB_pending, ↓latchSupply_pending, ↓pdNotice_pending, ↓bump_pending, ↓healthReport_pending, apply_ite State.pending, ite_self, stateOr_next, stateOr_ite]

theorem execFldClr_pending (m : Master) (c : Fin 9) (v : Word) (s : State) : (stateOr (execFldClr m c v s) s).pending = s.pending := by
  unfold execFldClr
  simp only [↓guardWrite_pending, ↓writeChanCtl_pending, stateOr_next, implies_true]

theorem roundFree_pending (x : Nat) (d : Nat) (s : State) : (roundFree x d s).2.pending = s.pending := by
  unfold roundFree
  grind [fresh_pending, stateOr, Clock.state, fresh, foldl_pending]

theorem fitFree_pending (w : Nat) (x : Nat) (s : State) : (fitFree w x s).2.pending = s.pending := by
  unfold fitFree
  grind [fresh_pending, stateOr, Clock.state, fresh, foldl_pending]

theorem trip_pending (c : Nat) (cause : Nat) (onTime : Nat) (s : State) : (trip c cause onTime s).pending = s.pending := by
  unfold trip
  simp only [↓dropPg_pending, ↓putChan_pending, ↓onPower_pending, ↓fitFree_pending, ↓pdEvent_pending, ↓setF_pending, ↓bump_pending, ↓pdNotice_pending, ↓setB_pending, apply_ite State.pending, ite_self]

theorem execAllClear_pending (vin : Nat) (s : State) : (stateOr (execAllClear vin s) s).pending = s.pending := by
  unfold execAllClear
  simp only [↓pdEvent_pending, ↓setB_pending, ↓releaseFlash_pending, ↓pdNotice_pending, ↓bump_pending, apply_ite State.pending, ite_self, stateOr_next, stateOr_ite]

theorem channelsOff_pending (s : State) : (channelsOff s).pending = s.pending := by
  unfold channelsOff
  simp only [↓chanOff_pending, implies_true, foldl_pending]

theorem heat_pending (k : Nat) (t : Int) (lo : Int) (hi : Int) (s : State) : (heat k t lo hi s).pending = s.pending := by
  unfold heat
  simp only [↓onPower_pending]

theorem tripHot_pending (c : Nat) (sensor : Nat) (onTime : Nat) (s : State) : (tripHot c sensor onTime s).pending = s.pending := by
  unfold tripHot
  simp only [↓onPower_pending, ↓trip_pending, apply_ite State.pending, ite_self]

theorem execTempMeasure_pending (zone : Option (Fin 8)) (t : BitVec 16) (onTime : Nat) (s : State) : (stateOr (execTempMeasure zone t onTime s) s).pending = s.pending := by
  unfold execTempMeasure
  split <;> simp only [↓heat_pending, ↓tripHot_pending, ↓bump_pending, ↓pdEvent_pending, ↓setF_pending, ↓roundFree_pending, ↓pdNotice_pending, apply_ite State.pending, ite_self, stateOr_next, stateOr_ite, implies_true, foldl_pending]

theorem execPdLock_pending (m : Master) (v : Word) (s : State) : (stateOr (execPdLock m v s) s).pending = s.pending := by
  unfold execPdLock
  simp only [↓guardWrite_pending, ↓writePdCtl_pending, stateOr_next, implies_true]

theorem commitEnergy_pending (id : MasterId) (c : Nat) (v : Word) (s : State) : (commitEnergy id c v s).pending = s.pending := by
  unfold commitEnergy
  simp only [↓commitWide_pending, ↓setStage_pending, ↓pdEvent_pending, apply_ite State.pending, ite_self]

theorem execOvwarn_pending (vin : Nat) (s : State) : (stateOr (execOvwarn vin s) s).pending = s.pending := by
  unfold execOvwarn
  simp only [↓onPower_pending, ↓pdNotice_pending, ↓bump_pending, ↓pdEvent_pending, apply_ite State.pending, ite_self, stateOr_next, stateOr_ite]

theorem execFldLimitEnter_pending (c : Fin 9) (s : State) : (stateOr (execFldLimitEnter c s) s).pending = s.pending := by
  unfold execFldLimitEnter
  simp only [↓putChan_pending, apply_ite State.pending, ite_self, stateOr_next, stateOr_ite]

theorem execFeedDisqualified_pending (b : Bool) (s : State) : (stateOr (execFeedDisqualified b s) s).pending = s.pending := by
  unfold execFeedDisqualified
  simp only [↓feedSettle_pending, ↓setB_pending, stateOr_next]

theorem execFeedHoldExpiry_pending (s : State) : (stateOr (execFeedHoldExpiry s) s).pending = s.pending := by
  unfold execFeedHoldExpiry
  simp only [↓putFeed_pending, apply_ite State.pending, ite_self, stateOr_next, stateOr_ite]

theorem execFastTrip_pending (c : Fin 9) (onTime : Nat) (s : State) : (stateOr (execFastTrip c onTime s) s).pending = s.pending := by
  unfold execFastTrip
  simp only [↓trip_pending, apply_ite State.pending, ite_self, stateOr_next, stateOr_ite]

theorem pdRefuse_pending (a : Nat) (v : Word) (s : State) : (pdRefuse a v s).pending = s.pending := by
  unfold pdRefuse
  simp only [↓countPart_pending, ↓pdEvent_pending]

theorem publish_pending (a : Nat) (f : Fld) (x : Nat) (n : Nat) (d : Nat) (s : State) : (publish a f x n d s).pending = s.pending := by
  unfold publish
  simp only [↓roundFree_pending, ↓fitFree_pending, ↓setF_pending, apply_ite State.pending, ite_self]

theorem putSums_pending (c : Nat) (m : MeterSum) (s : State) : (putSums c m s).pending = s.pending := by
  unfold putSums
  simp only [↓onPower_pending]

theorem execEnergyWrite_pending (m : Master) (c : Fin 9) (v : Word) (s : State) : (stateOr (execEnergyWrite m c v s) s).pending = s.pending := by
  unfold execEnergyWrite
  simp only [↓guardWrite_pending, ↓commitEnergy_pending, stateOr_next, implies_true]

theorem execFeedTransferDone_pending (s : State) : (stateOr (execFeedTransferDone s) s).pending = s.pending := by
  unfold execFeedTransferDone
  simp only [↓feedSettle_pending, ↓feedOn_pending, apply_ite State.pending, ite_self, stateOr_next, stateOr_ite]

theorem execFldPgFall_pending (vout : Nat) (s : State) : (stateOr (execFldPgFall vout s) s).pending = s.pending := by
  unfold execFldPgFall
  simp only [↓setB_pending, apply_ite State.pending, ite_self, stateOr_next, stateOr_ite]

theorem execFldFullyOn_pending (c : Fin 9) (atLimit : Bool) (s : State) : (stateOr (execFldFullyOn c atLimit s) s).pending = s.pending := by
  unfold execFldFullyOn
  simp only [↓putChan_pending, apply_ite State.pending, ite_self, stateOr_next, stateOr_ite]

theorem writeFeedCfg_pending (v : Word) (s : State) : (writeFeedCfg v s).pending = s.pending := by
  unfold writeFeedCfg
  simp only [↓bump_pending, ↓pdRefuse_pending, ↓feedSettle_pending, ↓setReg_pending, ↓plainWrite_pending, apply_ite State.pending, ite_self]

theorem execFldEnable_pending (c : Fin 9) (s : State) : (stateOr (execFldEnable c s) s).pending = s.pending := by
  unfold execFldEnable
  simp only [↓putRetries_pending, ↓putChan_pending, apply_ite State.pending, ite_self, stateOr_next, stateOr_ite]

theorem execFeedQualified_pending (b : Bool) (s : State) : (stateOr (execFeedQualified b s) s).pending = s.pending := by
  unfold execFeedQualified
  simp only [↓feedSettle_pending, ↓setB_pending, stateOr_next]

theorem writePdCfg_pending (a : Nat) (v : Word) (s : State) : (writePdCfg a v s).pending = s.pending := by
  unfold writePdCfg
  simp only [↓bump_pending, ↓pdRefuse_pending, ↓plainWrite_pending, apply_ite State.pending, ite_self]

theorem execFeedModeWrite_pending (m : Master) (v : Word) (s : State) : (stateOr (execFeedModeWrite m v s) s).pending = s.pending := by
  unfold execFeedModeWrite
  simp only [↓guardWrite_pending, ↓writeFeedCfg_pending, stateOr_next, implies_true]

theorem addEnergy_pending (c : Nat) (n : Nat) (s : State) : (addEnergy c n s).pending = s.pending := by
  unfold addEnergy
  simp only [↓setReg_pending]

theorem execMeterSample_pending (c : Fin 10) (x : Nat) (y : Nat) (z : Nat) (s : State) : (stateOr (execMeterSample c x y z s) s).pending = s.pending := by
  unfold execMeterSample
  simp only [↓putSums_pending, ↓roundFree_pending, ↓addEnergy_pending, apply_ite State.pending, ite_self, stateOr_next, stateOr_ite]

theorem powerNodeReset_pending (s : State) : (powerNodeReset s).pending = s.pending := by
  unfold powerNodeReset
  simp only [↓chanOff_pending, ↓setB_pending, apply_ite State.pending, ite_self, implies_true, foldl_pending]

theorem execFldPgAssert_pending (vout : Nat) (s : State) : (stateOr (execFldPgAssert vout s) s).pending = s.pending := by
  unfold execFldPgAssert
  simp only [↓pdNotice_pending, ↓setB_pending, apply_ite State.pending, ite_self, stateOr_next, stateOr_ite]

theorem execRetryRestore_pending (s : State) : (stateOr (execRetryRestore s) s).pending = s.pending := by
  unfold execRetryRestore
  simp only [↓restoreRetries_pending, apply_ite State.pending, ite_self, stateOr_next, stateOr_ite]

theorem execCoolDownEnd_pending (c : Fin 9) (s : State) : (stateOr (execCoolDownEnd c s) s).pending = s.pending := by
  unfold execCoolDownEnd
  simp only [↓chanOff_pending, ↓putChan_pending, ↓bump_pending, ↓pdNotice_pending, ↓pdEvent_pending, ↓putRetries_pending, ↓onPower_pending, ↓feedlessChan_pending, apply_ite State.pending, ite_self, stateOr_next, stateOr_ite]

theorem execFldFaultTimeout_pending (c : Fin 9) (onTime : Nat) (s : State) : (stateOr (execFldFaultTimeout c onTime s) s).pending = s.pending := by
  unfold execFldFaultTimeout
  simp only [↓trip_pending, apply_ite State.pending, ite_self, stateOr_next, stateOr_ite]

theorem execFldDisable_pending (c : Fin 9) (s : State) : (stateOr (execFldDisable c s) s).pending = s.pending := by
  unfold execFldDisable
  simp only [↓feedlessChan_pending, ↓chanOff_pending, apply_ite State.pending, ite_self, stateOr_next]

theorem execFldStartTimeout_pending (c : Fin 9) (s : State) : (stateOr (execFldStartTimeout c s) s).pending = s.pending := by
  unfold execFldStartTimeout
  simp only [↓trip_pending, apply_ite State.pending, ite_self, stateOr_next, stateOr_ite]

theorem execRailOutOfTolerance_pending (out : BitVec 4) (s : State) : (stateOr (execRailOutOfTolerance out s) s).pending = s.pending := by
  unfold execRailOutOfTolerance
  simp only [↓setB_pending, ↓onPower_pending, ↓railLeft_pending, stateOr_next, implies_true, foldl_pending]

theorem execFldLimitExit_pending (c : Fin 9) (length : Nat) (s : State) : (stateOr (execFldLimitExit c length s) s).pending = s.pending := by
  unfold execFldLimitExit
  simp only [↓putChan_pending, ↓bump_pending, ↓pdEvent_pending, ↓post_pending, apply_ite State.pending, ite_self, stateOr_next, stateOr_ite]

theorem execMeterPublish_pending (s : State) : (stateOr (execMeterPublish s) s).pending = s.pending := by
  unfold execMeterPublish
  simp only [↓publish_pending, ↓onPower_pending, stateOr_next, implies_true, foldl_pending]

theorem showLock_pending (s : State) : (showLock s).pending = s.pending := by
  unfold showLock
  simp only [↓setB_pending, ↓showHolder_pending, ↓onArb_pending, ↓arbDecide_pending, apply_ite State.pending, ite_self]

theorem takeLock_pending (l : Lock) (s : State) : (takeLock l s).pending = s.pending := by
  unfold takeLock
  simp only [↓showLock_pending, ↓onBridge_pending]

theorem passLock_pending (page : Option Nat) (s : State) : (passLock page s).pending = s.pending := by
  unfold passLock
  split <;> simp only [↓takeLock_pending, ↓onBridge_pending]

theorem releaseLock_pending (id : MasterId) (s : State) : (releaseLock id s).pending = s.pending := by
  unfold releaseLock
  split <;> simp only [↓passLock_pending, ↓showLock_pending, ↓onBridge_pending]

theorem breakLock_pending (l : Lock) (s : State) : (breakLock l s).pending = s.pending := by
  unfold breakLock
  simp only [↓sendNdn_pending, ↓bump_pending, ↓releaseLock_pending]

theorem execLockTimeout_pending (holder : MasterId) (s : State) : (stateOr (execLockTimeout holder s) s).pending = s.pending := by
  unfold execLockTimeout
  split <;> simp only [↓breakLock_pending, apply_ite State.pending, ite_self, stateOr_next, stateOr_ite]

theorem beginLock_pending (id : MasterId) (s : State) : (beginLock id s).pending = s.pending := by
  unfold beginLock
  simp only [↓showLock_pending, ↓onBridge_pending]

theorem startCommand_pending (who : MonAsker) (s : State) : (startCommand who s).pending = s.pending := by
  unfold startCommand
  split <;> simp only [↓bump_pending, ↓onMon_pending]

theorem answerSession_pending (session : BitVec 16) (node : BitVec 16) (typ : Nat) (text : List Byte) (s : State) : (answerSession session node typ text s).pending = s.pending := by
  unfold answerSession
  simp only [↓bump_pending, ↓sendOrWait_pending, ↓onMon_pending, apply_ite State.pending, ite_self]

theorem freshBytes_pending (x0 : Nat) (s : State) : (freshBytes x0 s).2.pending = s.pending := by
  induction x0 generalizing s with
  | zero => rfl
  | succ n ih => unfold freshBytes; dsimp only; rw [ih]; exact fresh_pending _ _

theorem answerLines_pending (session : BitVec 16) (node : BitVec 16) (x0 : Nat) (s : State) : (answerLines session node x0 s).pending = s.pending := by
  induction x0 generalizing s with
  | zero => rfl
  | succ n ih => unfold answerLines; dsimp only; rw [ih, answerSession_pending]; exact (freshBytes_pending _ _).trans (by rw [fresh_pending])

theorem endCommand_pending (lines : Option Nat) (vals : List DWord) (r : MonResult) (s : State) : (endCommand lines vals r s).pending = s.pending := by
  unfold endCommand
  grind [onMon_pending, fresh_pending, answerSession_pending, answerLines_pending, stateOr, Clock.state, fresh, foldl_pending]

theorem monBistDone_pending (s : State) : (monBistDone s).pending = s.pending := by
  unfold monBistDone
  simp only [↓endCommand_pending]

theorem bistNotice_pending (code : Nat) (arg : Nat) (s : State) : (bistNotice code arg s).pending = s.pending := by
  unfold bistNotice
  simp only [↓postOnce_pending]

theorem latchBist_pending (s : State) : (latchBist s).pending = s.pending := by
  unfold latchBist
  simp only [↓latchFault_pending, apply_ite State.pending, ite_self]

theorem retireBank_pending (b : Nat) (s : State) : (retireBank b s).pending = s.pending := by
  unfold retireBank
  simp only [↓setF_pending, ↓bump_pending, ↓onInteg_pending, ↓bistNotice_pending, ↓latchBist_pending, ↓soNotice_pending, ↓setB_pending, apply_ite State.pending, ite_self]

theorem verdict_pending (t : Nat) (pass : Bool) (s : State) : (verdict t pass s).pending = s.pending := by
  unfold verdict
  simp only [↓setF_pending, ↓bump_pending, ↓bistNotice_pending, ↓monBistDone_pending, apply_ite State.pending, ite_self]

theorem setPhase_pending (n : Nat) (s : State) : (setPhase n s).pending = s.pending := by
  unfold setPhase
  simp only [↓setF_pending]

theorem refreshCluster_pending (k : Nat) (s : State) : (refreshCluster k s).pending = s.pending := by
  unfold refreshCluster
  simp only [↓refreshBank_pending]

theorem startTest_pending (t : Nat) (self : Bool) (s : State) : (startTest t self s).pending = s.pending := by
  unfold startTest
  simp only [↓bump_pending, ↓setF_pending, ↓setPhase_pending, ↓onInteg_pending, ↓refreshCluster_pending, apply_ite State.pending, ite_self]

theorem bistCommand_pending (t : Nat) (s : State) : (bistCommand t s).pending = s.pending := by
  unfold bistCommand
  simp only [↓bump_pending, ↓setB_pending, ↓onInteg_pending, ↓startTest_pending, apply_ite State.pending, ite_self]

theorem endTest_pending (s : State) : (endTest s).pending = s.pending := by
  unfold endTest
  grind [setF_pending, setPhase_pending, onInteg_pending, bistCommand_pending, selfTestKick_pending, stateOr, Clock.state, fresh, foldl_pending]

theorem regainBank_pending (s : State) : (regainBank s).pending = s.pending := by
  unfold regainBank
  skip
  refine (onInteg_pending _ _).trans ((moveCredit_pending _ _).trans ?_)
  exact (foldl_pending _ (fun u p => setF_pending _ _ _ _) _ _).trans (setF_pending _ _ _ _)

theorem scrambleReg_pending (a : Nat) (s : State) : (scrambleReg a s).pending = s.pending := by
  unfold scrambleReg
  simp only [↓fresh_pending, ↓setReg_pending]

theorem scrambleField_pending (a : Nat) (f : Fld) (s : State) : (scrambleField a f s).pending = s.pending := by
  unfold scrambleField
  simp only [↓fresh_pending, ↓setF_pending]

theorem scrambleWords_pending (x0 : Nat) (s : State) : (scrambleWords x0 s).2.pending = s.pending := by
  induction x0 generalizing s with
  | zero => rfl
  | succ n ih => unfold scrambleWords; dsimp only; rw [ih]; exact fresh_pending _ _

theorem scrambleEngine_pending (n : Nat) (s : State) : (scrambleEngine n s).pending = s.pending := by
  unfold scrambleEngine
  simp only [↓scrambleReg_pending, ↓scrambleField_pending, ↓scrambleWords_pending, ↓onEng_pending]

theorem scrambleCluster_pending (k : Nat) (s : State) : (scrambleCluster k s).pending = s.pending := by
  unfold scrambleCluster
  grind [scrambleEngine_pending, scrambleField_pending, scrambleReg_pending, fresh_pending, onScribe_pending, stateOr, Clock.state, fresh, foldl_pending]

theorem raiseSingleton_pending (f : Fld) (s : State) : (raiseSingleton f s).pending = s.pending := by
  unfold raiseSingleton
  simp only [↓latchBist_pending, ↓bistNotice_pending, ↓setB_pending]

theorem failTarget_pending (t : Nat) (s : State) : (failTarget t s).pending = s.pending := by
  unfold failTarget
  simp only [↓retireBank_pending, ↓latchBist_pending, ↓setB_pending, ↓scrambleCluster_pending, ↓setF_pending, ↓raiseSingleton_pending, apply_ite State.pending, ite_self]

theorem execBistTestDone_pending (pass : Bool) (faddr : Word) (misr : Word) (s : State) : (stateOr (execBistTestDone pass faddr misr s) s).pending = s.pending := by
  unfold execBistTestDone
  split <;> simp only [↓setReg_pending, ↓verdict_pending, ↓setPhase_pending, ↓endTest_pending, ↓regainBank_pending, ↓refreshCluster_pending, ↓setB_pending, ↓failTarget_pending, apply_ite State.pending, ite_self, stateOr_next, stateOr_ite]

theorem loseBank_pending (s : State) : (loseBank s).pending = s.pending := by
  unfold loseBank
  skip
  refine (onInteg_pending _ _).trans ((moveCredit_pending _ _).trans ?_)
  exact (foldl_pending _ (fun u p => setF_pending _ _ _ _) _ _).trans (setF_pending _ _ _ _)

theorem lapTime_pending (c : Nat) (s : State) : (lapTime c s).2.pending = s.pending := by
  unfold lapTime
  generalize lapTicks c s * 16 = k
  exact (fitFree_pending _ _ _).trans (roundFree_pending _ _ _)

theorem classAddr_pending (c : Nat) (n : Nat) (s : State) : (classAddr c n s).2.pending = s.pending := by
  unfold classAddr
  grind [fresh_pending, stateOr, Clock.state, fresh, foldl_pending]

theorem writeBistCmd_pending (v : Word) (s : State) : (writeBistCmd v s).pending = s.pending := by
  unfold writeBistCmd
  simp only [↓plainWrite_pending, ↓bistCommand_pending, apply_ite State.pending, ite_self]

theorem execBistGo_pending (m : Master) (v : Word) (s : State) : (stateOr (execBistGo m v s) s).pending = s.pending := by
  unfold execBistGo
  simp only [↓guardWrite_pending, ↓writeBistCmd_pending, stateOr_next, implies_true]

theorem noteStoreError_pending (k : Nat) (a : Nat) (s : State) : (noteStoreError k a s).pending = s.pending := by
  unfold noteStoreError
  simp only [↓onInteg_pending, ↓miNotice_pending, apply_ite State.pending, ite_self]

theorem execScrubWriteback_pending (c : Fin 7) (otherWrite : Bool) (s : State) : (stateOr (execScrubWriteback c otherWrite s) s).pending = s.pending := by
  unfold execScrubWriteback
  simp only [↓onInteg_pending, ↓bump_pending, apply_ite State.pending, ite_self, stateOr_next, stateOr_ite]

theorem showLap_pending (c : Nat) (us : Nat) (s : State) : (showLap c us s).pending = s.pending := by
  unfold showLap
  simp only [↓setReg_pending, apply_ite State.pending, ite_self]

theorem execBucketLeak_pending (c : Fin 7) (s : State) : (stateOr (execBucketLeak c s) s).pending = s.pending := by
  unfold execBucketLeak
  simp only [↓setF_pending, ↓onInteg_pending, apply_ite State.pending, ite_self, stateOr_next, stateOr_ite]

theorem execBistCopyDone_pending (s : State) : (stateOr (execBistCopyDone s) s).pending = s.pending := by
  unfold execBistCopyDone
  split <;> simp only [↓setPhase_pending, ↓onInteg_pending, apply_ite State.pending, ite_self, stateOr_next, stateOr_ite]

theorem execBistReturnDone_pending (s : State) : (stateOr (execBistReturnDone s) s).pending = s.pending := by
  unfold execBistReturnDone
  split <;> simp only [↓endTest_pending, ↓onInteg_pending, apply_ite State.pending, ite_self, stateOr_next, stateOr_ite]

theorem markBad_pending (a : Nat) (s : State) : (markBad a s).pending = s.pending := by
  unfold markBad
  simp only [↓onInteg_pending, apply_ite State.pending, ite_self]

theorem execParityError_pending (p : ParityPlace) (s : State) : (stateOr (execParityError p s) s).pending = s.pending := by
  unfold execParityError
  cases p with
  | store e =>
    dsimp only
    split
    · exact (noteStoreError_pending _ _ _).trans ((parityRecord_pending _ _ _ _ _).trans (storeParity_pending _ _))
    · rfl
  | fifo e =>
    dsimp only
    split
    · rename_i l t h
      have ht : t.pending = s.pending := by
        split at h
        · exact nextInstr_pending h
        · cases h
      split
      · exact (parityRecord_pending _ _ _ _ _).trans ((enterFault_pending _ _ _).trans ((useClock_pending _ _).trans ht))
      · rfl
    · rfl
  | regFile e r => exact markBad_pending _ _
  | table a =>
    dsimp only
    split
    · rfl
    · exact (parityRecord_pending _ _ _ _ _).trans (markBad_pending _ _)
  | semaphore n =>
    dsimp only
    generalize s.bridge.locks.find? _ = o
    cases o with
    | none => rfl
    | some l => simp only [stateOr_next, parityRecord_pending, breakLock_pending]

theorem endLap_pending (c : Nat) (s : State) : (endLap c s).pending = s.pending := by
  unfold endLap
  have hr := lapTime_pending c s
  generalize lapTime c s = r at hr
  exact (bump_pending _ _).trans ((onInteg_pending _ _).trans ((showLap_pending _ _ _).trans hr))

theorem execBistBankDrained_pending (s : State) : (stateOr (execBistBankDrained s) s).pending = s.pending := by
  unfold execBistBankDrained
  simp only [↓setPhase_pending, ↓bump_pending, ↓loseBank_pending, ↓onInteg_pending, apply_ite State.pending, ite_self, stateOr_next, stateOr_ite]

theorem execScrubWord_pending (c : Fin 7) (found : Found) (s : State) : (stateOr (execScrubWord c found s) s).pending = s.pending := by
  unfold execScrubWord
  (repeat' split) <;> simp only [↓classAddr_pending, ↓onInteg_pending, ↓correctedWord_pending, ↓freshError_pending, ↓endLap_pending, apply_ite State.pending, ite_self, stateOr_next]

theorem putLock_pending (sys : Bool) (sds : Bool) (s : State) : (putLock sys sds s).pending = s.pending := by
  unfold putLock
  simp only [↓setB_pending]

theorem execCollapseHoldEnd_pending (s : State) : (stateOr (execCollapseHoldEnd s) s).pending = s.pending := by
  unfold execCollapseHoldEnd
  simp only [↓feedSettle_pending, ↓onPower_pending, apply_ite State.pending, ite_self, stateOr_next, stateOr_ite]

theorem noteCause_pending (f : Fld) (s : State) : (noteCause f s).pending = s.pending := by
  unfold noteCause
  simp only [↓setB_pending]

theorem coldStart_pending (straps : Straps) (monEn : Bool) (s : State) : (coldStart straps monEn s).pending = s.pending := by
  unfold coldStart
  simp only [↓setB_pending, ↓noteCause_pending, apply_ite State.pending, ite_self]

theorem resetDigital_pending (s : State) : (resetDigital s).pending = s.pending := by
  unfold resetDigital
  simp only

end Sys2Proof.Machine
end

