-- ==== Sys2Proof/Laws/Queue7.lean ====
section
/-! SUPPORT. Every operation and meaning leaves the queue of commands as it is. The operations and meanings of Reset, NodeControl, Update, Bus, Departure, Inbound. -/

namespace Sys2Proof.Machine

theorem powerDown_pending (s : State) : (powerDown s).pending = s.pending := by
  unfold powerDown
  simp only [↓channelsOff_pending, ↓onPower_pending, ↓resetDigital_pending, ↓setB_pending]

theorem execPowerDown_pending (s : State) : (stateOr (execPowerDown s) s).pending = s.pending := by
  unfold execPowerDown
  simp only [↓powerDown_pending, stateOr_next]

theorem execRailCollapse_pending (rail : Fin 4) (s : State) : (stateOr (execRailCollapse rail s) s).pending = s.pending := by
  unfold execRailCollapse
  simp only [↓putFeed_pending, ↓onPower_pending, ↓powerDown_pending, apply_ite State.pending, ite_self, stateOr_next, stateOr_ite]

theorem execColdStart_pending (straps : Straps) (monEn : Bool) (s : State) : (stateOr (execColdStart straps monEn s) s).pending = s.pending := by
  unfold execColdStart
  simp only [↓coldStart_pending, stateOr_next]

theorem releaseDie_pending (s : State) : (releaseDie s).pending = s.pending := by
  unfold releaseDie
  simp only [↓onPower_pending, ↓setF_pending, ↓setB_pending, ↓putLock_pending]

theorem nodeReset_pending (cause : Fld) (s : State) : (nodeReset cause s).pending = s.pending := by
  unfold nodeReset
  simp only [↓noteCause_pending, ↓putLock_pending, ↓powerNodeReset_pending, ↓resetDigital_pending]

theorem execRegulatorReady_pending (s : State) : (stateOr (execRegulatorReady s) s).pending = s.pending := by
  unfold execRegulatorReady
  simp only [↓onPower_pending, ↓setB_pending, ↓releaseDie_pending, apply_ite State.pending, ite_self, stateOr_next, stateOr_ite]

theorem execJtagInstruction_pending (code : Byte) (s : State) : (stateOr (execJtagInstruction code s) s).pending = s.pending := by
  unfold execJtagInstruction
  simp only [↓refreshPins_pending, ↓onNode_pending, stateOr_next]

theorem refusedTransition_pending (s : State) : (refusedTransition s).pending = s.pending := by
  unfold refusedTransition
  simp only [↓bump_pending]

theorem quietUnit_pending (cap : Nat) (inst : Nat) (s : State) : (quietUnit cap inst s).pending = s.pending := by
  unfold quietUnit
  simp only [↓onPin_pending, apply_ite State.pending, ite_self, implies_true, foldl_pending]

theorem dropStages_pending (a : Nat) (n : Nat) (s : State) : (dropStages a n s).pending = s.pending := by
  unfold dropStages
  simp only

theorem resetCluster_pending (k : Nat) (s : State) : (resetCluster k s).pending = s.pending := by
  unfold resetCluster
  simp only [↓settleDma_pending, ↓setB_pending, ↓resetRange_pending]

theorem resetUnit_pending (cap : Nat) (inst : Nat) (s : State) : (resetUnit cap inst s).pending = s.pending := by
  unfold resetUnit
  simp only [↓dropStages_pending, ↓resetCluster_pending, ↓resetMb_pending, ↓resetUart_pending, ↓resetEnc_pending, ↓resetMains_pending, ↓resetTrack_pending, apply_ite State.pending, ite_self]

theorem holdUnit_pending (cap : Nat) (inst : Nat) (s : State) : (holdUnit cap inst s).pending = s.pending := by
  unfold holdUnit
  simp only [↓quietUnit_pending, ↓resetUnit_pending, ↓onNode_pending, ↓arbDecide_pending, ↓endRequest_pending, ↓reviewTracks_pending, ↓refreshBank_pending, apply_ite State.pending, ite_self, implies_true, foldl_pending]

theorem releaseUnit_pending (cap : Nat) (inst : Nat) (s : State) : (releaseUnit cap inst s).pending = s.pending := by
  unfold releaseUnit
  simp only [↓onNode_pending, ↓reviewTracks_pending, ↓refreshBank_pending, implies_true, foldl_pending]

theorem writeNodeUrst_pending (v : Word) (s : State) : (writeNodeUrst v s).pending = s.pending := by
  unfold writeNodeUrst
  simp only [↓setB_pending, ↓plainWrite_pending, ↓refusedTransition_pending, ↓holdUnit_pending, ↓releaseUnit_pending, apply_ite State.pending, ite_self]

theorem restartWdog_pending (s : State) : (restartWdog s).pending = s.pending := by
  unfold restartWdog
  simp only [↓onNode_pending]

theorem writeNodeWdog_pending (v : Word) (s : State) : (writeNodeWdog v s).pending = s.pending := by
  unfold writeNodeWdog
  simp only [↓plainWrite_pending, ↓restartWdog_pending, apply_ite State.pending, ite_self]

theorem execClockLoss_pending (s : State) : (stateOr (execClockLoss s) s).pending = s.pending := by
  unfold execClockLoss
  simp only [↓putLock_pending, ↓nodeReset_pending, ↓onNode_pending, stateOr_next]

theorem execUnitResetRelease_pending (m : Master) (v : Word) (s : State) : (stateOr (execUnitResetRelease m v s) s).pending = s.pending := by
  unfold execUnitResetRelease
  simp only [↓guardWrite_pending, ↓writeNodeUrst_pending, stateOr_next, implies_true]

theorem execKick_pending (m : Master) (v : Word) (s : State) : (stateOr (execKick m v s) s).pending = s.pending := by
  unfold execKick
  simp only [↓guardWrite_pending, ↓writeNodeWdog_pending, stateOr_next, implies_true]

theorem judgeClock_pending (i : Nat) (f : Nat) (s : State) : (judgeClock i f s).pending = s.pending := by
  unfold judgeClock
  simp only [↓onNode_pending, ↓latchFault_pending, ↓postOpen_pending, ↓setB_pending, apply_ite State.pending, ite_self]

theorem execClockMonitorWindow_pending (fclk : Nat) (uclk : Nat) (core : Nat) (bus : Nat) (s : State) : (stateOr (execClockMonitorWindow fclk uclk core bus s) s).pending = s.pending := by
  unfold execClockMonitorWindow
  simp only [↓judgeClock_pending, apply_ite State.pending, ite_self, stateOr_next]

theorem execResetLLow_pending (s : State) : (stateOr (execResetLLow s) s).pending = s.pending := by
  unfold execResetLLow
  simp only [↓nodeReset_pending, ↓onNode_pending, stateOr_next]

theorem execUnitResetHold_pending (m : Master) (v : Word) (s : State) : (stateOr (execUnitResetHold m v s) s).pending = s.pending := by
  unfold execUnitResetHold
  simp only [↓guardWrite_pending, ↓writeNodeUrst_pending, stateOr_next, implies_true]

theorem execVddioClassChange_pending (b : Fin 16) (cls : Fin 4) (s : State) : (stateOr (execVddioClassChange b cls s) s).pending = s.pending := by
  unfold execVddioClassChange
  simp only [↓onBank_pending, ↓setF_pending, ↓startSupplyFault_pending, apply_ite State.pending, ite_self, stateOr_next]

theorem writeNodeCtl_pending (m : Master) (v : Word) (s : State) : (writeNodeCtl m v s).pending = s.pending := by
  unfold writeNodeCtl
  simp only [↓plainWrite_pending, ↓refusedTransition_pending, ↓writeInPart_pending, apply_ite State.pending, ite_self]

theorem nodeCtlAccess_pending (m : Master) (v : Word) (s : State) : (nodeCtlAccess m v s).pending = s.pending := by
  unfold nodeCtlAccess
  simp only [↓guardWrite_pending, ↓writeNodeCtl_pending, ↓nodeReset_pending, apply_ite State.pending, ite_self, implies_true]

theorem execSeal_pending (m : Master) (v : Word) (s : State) : (stateOr (execSeal m v s) s).pending = s.pending := by
  unfold execSeal
  simp only [↓nodeCtlAccess_pending, stateOr_next]

theorem execPllLockHeld_pending (s : State) : (stateOr (execPllLockHeld s) s).pending = s.pending := by
  unfold execPllLockHeld
  simp only [↓putLock_pending, ↓onNode_pending, apply_ite State.pending, ite_self, stateOr_next]

theorem execSoftReset_pending (m : Master) (v : Word) (s : State) : (stateOr (execSoftReset m v s) s).pending = s.pending := by
  unfold execSoftReset
  simp only [↓nodeCtlAccess_pending, stateOr_next]

theorem execServiceWrite_pending (m : Master) (v : Word) (s : State) : (stateOr (execServiceWrite m v s) s).pending = s.pending := by
  unfold execServiceWrite
  simp only [↓nodeCtlAccess_pending, stateOr_next]

theorem execResetLRelease_pending (s : State) : (stateOr (execResetLRelease s) s).pending = s.pending := by
  unfold execResetLRelease
  simp only [↓onNode_pending, stateOr_next]

theorem execWatchdogExpiry_pending (s : State) : (stateOr (execWatchdogExpiry s) s).pending = s.pending := by
  unfold execWatchdogExpiry
  simp only [↓nodeReset_pending, apply_ite State.pending, ite_self, stateOr_next]

theorem sendAck_pending (q : Asker) (status : Nat) (reason : Nat) (f : Nat) (s : State) : (sendAck q status reason f s).pending = s.pending := by
  unfold sendAck
  split <;> simp only [↓onUpd_pending, ↓sendOrWait_pending, apply_ite State.pending, ite_self]

theorem refuseFolio_pending (q : Asker) (reason : Nat) (f : Nat) (s : State) : (refuseFolio q reason f s).pending = s.pending := by
  unfold refuseFolio
  simp only [↓bump_pending, ↓setF_pending, ↓updNotice_pending, ↓sendAck_pending, apply_ite State.pending, ite_self]

theorem dropPoisoned_pending (s : State) : (dropPoisoned s).pending = s.pending := by
  unfold dropPoisoned
  simp only [↓bump_pending, ↓latchFault_pending, apply_ite State.pending, ite_self]

theorem judgeQuery_pending (r : FolioReq) (s : State) : (judgeQuery r s).pending = s.pending := by
  unfold judgeQuery
  split <;> simp only [↓refuseFolio_pending, ↓sendAck_pending, apply_ite State.pending, ite_self]

theorem showSession_pending (s : State) : (showSession s).pending = s.pending := by
  unfold showSession
  split <;> simp only [↓setF_pending, ↓setReg_pending]

theorem putSession_pending (x : UpdSession) (s : State) : (putSession x s).pending = s.pending := by
  unfold putSession
  simp only [↓showSession_pending, ↓onUpd_pending]

theorem openSession_pending (r : FolioReq) (h : List Byte) (s : State) : (openSession r h s).pending = s.pending := by
  unfold openSession
  simp only [↓bump_pending, ↓onUpd_pending, ↓writeHeader_pending, ↓eraseFlash_pending, ↓setBytes_pending, ↓putSession_pending, ↓sendAck_pending, ↓updNotice_pending]

theorem judgeHeader_pending (r : FolioReq) (s : State) : ((judgeHeader r s).getD s).pending = s.pending := by
  unfold judgeHeader
  grind [sendAck_pending, refuseFolio_pending, openSession_pending, stateOr, Clock.state, fresh, foldl_pending]

theorem gatherPart_pending (r : FolioReq) (s : State) : (gatherPart r s).pending = s.pending := by
  unfold gatherPart
  split <;> simp only [↓onUpd_pending, ↓sendAck_pending, ↓bump_pending, apply_ite State.pending, ite_self]

theorem judgePart_pending (r : FolioReq) (s : State) : (judgePart r s).pending = s.pending := by
  unfold judgePart
  split <;> simp only [↓refuseFolio_pending, ↓sendAck_pending, ↓bump_pending, ↓gatherPart_pending, apply_ite State.pending, ite_self]

theorem judgeFolio_pending (r : FolioReq) (s : State) : ((judgeFolio r s).getD s).pending = s.pending := by
  unfold judgeFolio
  extract_lets s1
  have h1 : s1.pending = s.pending := by
    show (if r.words = [] then _ else _ : State).pending = _
    split
    · rfl
    · exact bump_pending _ _
  clear_value s1
  have h := judgeHeader_pending r s1
  have h3 : ((judgeHeader r s1).getD s).pending = s.pending := by
    cases e : judgeHeader r s1 with
    | none => rfl
    | some t => rw [e] at h; exact h.trans h1
  simp only [getD_ite, Option.getD_some, refuseFolio_pending, denyEnvelope_pending, h1, apply_ite State.pending, dropPoisoned_pending, ite_self, judgeQuery_pending, judgePart_pending, h3]

theorem takeFolio_pending (p : Nat) (e : Envelope) (s : State) : (takeFolio p e s).pending = s.pending := by
  unfold takeFolio
  grind [sendOrWait_pending, takeDelivered_pending, judgeFolio_pending, bump_pending, stateOr, Clock.state, fresh, foldl_pending]

theorem execFolioQuery_pending (p : Fin 3) (e : Envelope) (s : State) : (stateOr (execFolioQuery p e s) s).pending = s.pending := by
  unfold execFolioQuery
  simp only [↓takeFolio_pending, stateOr_next]

theorem execFolioHeader_pending (p : Fin 3) (e : Envelope) (s : State) : (stateOr (execFolioHeader p e s) s).pending = s.pending := by
  unfold execFolioHeader
  simp only [↓takeFolio_pending, stateOr_next]

theorem advanceHandover_pending (s : State) : (advanceHandover s).pending = s.pending := by
  unfold advanceHandover
  split <;> simp only [↓programHeader_pending, ↓onUpd_pending, ↓arbDecide_pending, ↓endRequest_pending, ↓setReg_pending, apply_ite State.pending, ite_self]

theorem noteFallback_pending (slot : Nat) (s : State) : (noteFallback slot s).pending = s.pending := by
  unfold noteFallback
  simp only [↓updNotice_pending, ↓bump_pending, ↓setB_pending]

theorem requestMode_pending (mode : Nat) (s : State) : (requestMode mode s).pending = s.pending := by
  unfold requestMode
  simp only [↓setF_pending, apply_ite State.pending, ite_self]

theorem enterRecovery_pending (s : State) : (enterRecovery s).pending = s.pending := by
  unfold enterRecovery
  simp only [↓showSession_pending, ↓onUpd_pending, ↓requestMode_pending, ↓writePtCtl_pending, implies_true, foldl_pending]

theorem startSlot_pending (slot : Nat) (trial : Bool) (s : State) : (startSlot slot trial s).pending = s.pending := by
  unfold startSlot
  simp only [↓setB_pending, ↓setF_pending, ↓setReg_pending, ↓showSession_pending, ↓onUpd_pending]

theorem loseRecord_pending (s : State) : (loseRecord s).pending = s.pending := by
  unfold loseRecord
  simp only

theorem chooseSlot_pending (s : State) : (chooseSlot s).2.pending = s.pending := by
  unfold chooseSlot; grind [writeHeader_pending, noteFallback_pending]
theorem chooseByMode_pending (mode : Nat) (s : State) : (chooseByMode mode s).2.pending = s.pending := by
  unfold chooseByMode; grind [chooseSlot_pending]
theorem execHandoverDone_pending (withRecord : Bool) (s : State) : (stateOr (execHandoverDone withRecord s) s).pending = s.pending := by
  unfold execHandoverDone
  grind [advanceHandover_pending, onUpd_pending, setReg_pending, chooseSlot_pending, enterRecovery_pending, setB_pending, startSlot_pending, loseRecord_pending, selfTestKick_pending, updNotice_pending, bump_pending, stateOr, Clock.state, fresh, foldl_pending]

theorem execRecoveryFrame_pending (bs : List Byte) (s : State) : (stateOr (execRecoveryFrame bs s) s).pending = s.pending := by
  unfold execRecoveryFrame
  grind [onUpd_pending, judgeFolio_pending, stateOr, Clock.state, fresh, foldl_pending]

theorem clearSession_pending (s : State) : (clearSession s).pending = s.pending := by
  unfold clearSession
  simp only [↓onUpd_pending, ↓setF_pending, ↓setReg_pending]

theorem updRefuse_pending (s : State) : (updRefuse s).pending = s.pending := by
  unfold updRefuse
  simp only [↓setB_pending]

theorem activate_pending (s : State) : (activate s).pending = s.pending := by
  unfold activate
  split <;> simp only [↓advanceHandover_pending, ↓onUpd_pending, ↓clearSession_pending, ↓updRefuse_pending, apply_ite State.pending, ite_self]

theorem confirmTrial_pending (id : MasterId) (s : State) : (confirmTrial id s).pending = s.pending := by
  unfold confirmTrial
  simp only [↓updRefuse_pending, ↓writeHeader_pending, ↓updNotice_pending, ↓setB_pending, apply_ite State.pending, ite_self]

theorem abortSession_pending (s : State) : (abortSession s).pending = s.pending := by
  unfold abortSession
  split <;> simp only [↓updRefuse_pending, ↓onUpd_pending, ↓closeSession_pending, apply_ite State.pending, ite_self]

theorem writeUpdCtl_pending (id : MasterId) (v : Word) (s : State) : (writeUpdCtl id v s).pending = s.pending := by
  unfold writeUpdCtl
  simp only [↓plainWrite_pending, ↓activate_pending, ↓confirmTrial_pending, ↓abortSession_pending, apply_ite State.pending, ite_self]

theorem execUpdActivate_pending (m : Master) (v : Word) (s : State) : (stateOr (execUpdActivate m v s) s).pending = s.pending := by
  unfold execUpdActivate
  simp only [↓guardWrite_pending, ↓writeUpdCtl_pending, stateOr_next, implies_true]

theorem finishRecovery_pending (x : UpdSession) (s : State) : (finishRecovery x s).pending = s.pending := by
  unfold finishRecovery
  simp only [↓clearSession_pending, ↓writeHeader_pending, ↓nodeReset_pending, ↓setF_pending]

theorem execFolioAck_pending (p : Fin 3) (e : Envelope) (s : State) : (stateOr (execFolioAck p e s) s).pending = s.pending := by
  unfold execFolioAck
  simp only [↓sendOrWait_pending, ↓takeDelivered_pending, apply_ite State.pending, ite_self, stateOr_next, stateOr_ite]

theorem execUpdConfirm_pending (m : Master) (v : Word) (s : State) : (stateOr (execUpdConfirm m v s) s).pending = s.pending := by
  unfold execUpdConfirm
  simp only [↓guardWrite_pending, ↓writeUpdCtl_pending, stateOr_next, implies_true]

theorem execTrialExpiry_pending (s : State) : (stateOr (execTrialExpiry s) s).pending = s.pending := by
  unfold execTrialExpiry
  simp only [↓advanceHandover_pending, ↓onUpd_pending, ↓noteFallback_pending, ↓setB_pending, apply_ite State.pending, ite_self, stateOr_next, stateOr_ite]

theorem failSession_pending (x : UpdSession) (q : Asker) (reason : Nat) (f : Nat) (s : State) : (failSession x q reason f s).pending = s.pending := by
  unfold failSession
  simp only [↓onUpd_pending, ↓putSession_pending, ↓bump_pending, ↓setF_pending, ↓sendAck_pending, ↓updNotice_pending]

theorem execVerifyDone_pending (s : State) : (stateOr (execVerifyDone s) s).pending = s.pending := by
  unfold execVerifyDone
  split <;> simp only [↓putSession_pending, ↓sendAck_pending, ↓updNotice_pending, ↓finishRecovery_pending, ↓failSession_pending, apply_ite State.pending, ite_self, stateOr_next, stateOr_ite]

theorem failApply_pending (s : State) : (failApply s).pending = s.pending := by
  unfold failApply
  simp only [↓updNotice_pending, ↓requestMode_pending, ↓onUpd_pending]

theorem startApply_pending (slot : Nat) (s : State) : (startApply slot s).pending = s.pending := by
  unfold startApply
  simp only [↓onUpd_pending, ↓failApply_pending, apply_ite State.pending, ite_self]

theorem execUpdAbort_pending (m : Master) (v : Word) (s : State) : (stateOr (execUpdAbort m v s) s).pending = s.pending := by
  unfold execUpdAbort
  simp only [↓guardWrite_pending, ↓writeUpdCtl_pending, stateOr_next, implies_true]

theorem showFlash_pending (sfdp : Option (Nat × Bool)) (s : State) : (showFlash sfdp s).pending = s.pending := by
  unfold showFlash
  split <;> simp only [↓setB_pending, ↓setF_pending]

theorem bootImage_pending (soFailed : Bool) (s : State) : (bootImage soFailed s).pending = s.pending := by
  unfold bootImage
  grind [bump_pending, setF_pending, chooseByMode_pending, enterRecovery_pending, startSlot_pending, startApply_pending, bistNotice_pending, stateOr, Clock.state, fresh, foldl_pending]

theorem writeFolio_pending (x : UpdSession) (b : Assembly) (good : Bool) (s : State) : (writeFolio x b good s).pending = s.pending := by
  unfold writeFolio
  grind [onUpd_pending, bump_pending, eraseFlash_pending, setBytes_pending, failSession_pending, putSession_pending, sendAck_pending, stateOr, Clock.state, fresh, foldl_pending]

theorem execFolioWrite_pending (f : Nat) (good : Bool) (s : State) : (stateOr (execFolioWrite f good s) s).pending = s.pending := by
  unfold execFolioWrite
  split <;> simp only [↓writeFolio_pending, apply_ite State.pending, ite_self, stateOr_next, stateOr_ite]

theorem execRomBoot_pending (sfdp : Option (Nat × Bool)) (sram : Bool) (office : Bool) (s : State) : (stateOr (execRomBoot sfdp sram office s) s).pending = s.pending := by
  unfold execRomBoot
  simp only [↓restartWdog_pending, ↓onUpd_pending, ↓onInteg_pending, ↓setB_pending, ↓showFlash_pending, ↓bootImage_pending, apply_ite State.pending, ite_self, stateOr_next, stateOr_ite]

theorem execFolioPart_pending (p : Fin 3) (e : Envelope) (s : State) : (stateOr (execFolioPart p e s) s).pending = s.pending := by
  unfold execFolioPart
  simp only [↓takeFolio_pending, stateOr_next]

theorem readCapture_pending (id : MasterId) (n : Nat) (s : State) : (readCapture id n s).1.pending = s.pending := by
  unfold readCapture
  simp only [↓latchUpper_pending]

theorem readWide_pending (id : MasterId) (w : WideRow) (part : Nat) (lo : Nat) (a : Nat) (s : State) : (readWide id w part lo a s).1.pending = s.pending := by
  unfold readWide
  (repeat' split) <;> simp only [↓latchUpper_pending]

theorem markedAnswer_pending (p : State × Word × Bool) : (markedAnswer p).1.pending = p.1.pending := by cases p; rfl
theorem cleanAnswer_pending (p : State × Word) : (cleanAnswer p).1.pending = p.1.pending := by cases p; rfl
theorem regRead_pending (m : Master) (a : Nat) (bad : BitVec 2) (s : State) : (regRead m a bad s).1.pending = s.pending := by
  unfold regRead
  extract_lets id
  split
  · rfl
  · rename_i r i j _
    split
    · exact (markedAnswer_pending _).trans (popQueue_pending _ _ _ _)
    split
    · exact (markedAnswer_pending _).trans (readItem_pending _ _ _ _)
    split
    · exact (markedAnswer_pending _).trans (readRxf_pending _ _ _)
    split
    · exact (cleanAnswer_pending _).trans (readRxd_pending _ _)
    split
    · exact (cleanAnswer_pending _).trans (readBankCap_pending _ _ _)
    split
    · exact (cleanAnswer_pending _).trans (readWmCap_pending _ _)
    split
    · exact (cleanAnswer_pending _).trans (readCapture_pending _ _ _)
    split
    · rfl
    split
    · rfl
    split
    · rfl
    split
    · exact (cleanAnswer_pending _).trans (readWide_pending _ _ _ _ _ _)
    · rfl

theorem memRead_pending (a : Nat) (n : Nat) (s : State) : (memRead a n s).1.pending = s.pending := by
  unfold memRead
  grind [fresh_pending, stateOr, Clock.state, fresh, foldl_pending]

theorem busRead_pending (m : Master) (lock : Bool) (a : Nat) (n : Nat) (bad : BitVec 2) (s : State) : (busRead m lock a n bad s).1.pending = s.pending := by
  unfold busRead
  grind [refuse_pending, regRead_pending, memRead_pending, stateOr, Clock.state, fresh, foldl_pending]

theorem readAccess_pending (m : Master) (a : Nat) (s : State) : (readAccess m a s).pending = s.pending := by
  unfold readAccess
  simp only [↓busRead_pending, ↓answer_pending, ↓coreMeets_pending, apply_ite State.pending, ite_self]

theorem writeNode_pending (m : Master) (base : Nat) (i : Nat) (v : Word) (s : State) : ((writeNode m base i v s).getD s).pending = s.pending := by
  unfold writeNode
  (repeat' split) <;> simp only [↓writeNodeCtl_pending, ↓nodeReset_pending, ↓writeNodeWdog_pending, ↓writeNodeUrst_pending, ↓plainWrite_pending, ↓writeUpdCtl_pending, ↓writeFuseCmd_pending, ↓writeKeyStage_pending, Option.getD_some, Option.getD_none]

theorem writeScribe_pending (base : Nat) (i : Nat) (j : Nat) (v : Word) (s : State) : ((writeScribe base i j v s).getD s).pending = s.pending := by
  unfold writeScribe
  (repeat' split) <;> simp only [↓writeEngineReg_pending, ↓writeScrCtl_pending, ↓writeCsync_pending, ↓writeScrFlags_pending, ↓writeClkdiv_pending, ↓writeInject_pending, ↓writePc_pending, ↓writeTxf_pending, ↓writeDma_pending, Option.getD_some, Option.getD_none]

theorem writeBuses_pending (base : Nat) (i : Nat) (j : Nat) (a : Nat) (v : Word) (s : State) : ((writeBuses base i j a v s).getD s).pending = s.pending := by
  unfold writeBuses
  (repeat' split) <;> simp only [↓writeMbCtlOpen_pending, ↓writeMbTiming_pending, ↓requestObj_pending, ↓cancelObj_pending, ↓clearNew_pending, ↓writeTtCfg_pending, ↓writeTrig_pending, ↓writeGwCtl_pending, ↓writeMap_pending, implies_true, Option.getD_some, Option.getD_none, foldl_pending]

theorem writeUnits_pending (base : Nat) (i : Nat) (a : Nat) (v : Word) (s : State) : ((writeUnits base i a v s).getD s).pending = s.pending := by
  unfold writeUnits
  (repeat' split) <;> simp only [↓writeUaCtl_pending, ↓writeUaTiming_pending, ↓writeTxd_pending, ↓writeUaImg_pending, ↓writeEnCtl_pending, ↓writeEnMod_pending, ↓writeEnCount_pending, ↓writeImg2_pending, ↓writeMpCtl_pending, Option.getD_some, Option.getD_none]

theorem writeLocal_pending (id : MasterId) (base : Nat) (i : Nat) (j : Nat) (v : Word) (s : State) : ((writeLocal id base i j v s).getD s).pending = s.pending := by
  unfold writeLocal
  simp only [getD_ite, Option.getD_some, Option.getD_none, apply_ite State.pending, writeArbPri_pending, writePhCfg_pending, writePhCtl_pending, writePfa_pending, writeOcCmd_pending,
    writeOcData_pending, writeDlTail_pending, writeUpTail_pending, writeDlFaddr_pending, commitEntry_pending, stageEntry_pending, ite_self]

theorem writeRtCfg_pending (v : Word) (s : State) : (writeRtCfg v s).pending = s.pending := by
  unfold writeRtCfg
  simp only [↓setB_pending, ↓declineWrite_pending, ↓writeInPart_pending, ↓reviewJunction_pending, ↓plainWrite_pending, ↓refreshPins_pending, apply_ite State.pending, ite_self]

theorem writeRing_pending (base : Nat) (i : Nat) (a : Nat) (v : Word) (s : State) : ((writeRing base i a v s).getD s).pending = s.pending := by
  unfold writeRing
  (repeat' split) <;> simp only [↓writeSoRes_pending, ↓writePtCtl_pending, ↓writePtSdsRx_pending, ↓writeI2cCmd_pending, ↓writeCnCmd_pending, ↓writeRtCfg_pending, ↓writeRtGrp_pending, ↓writeJnCtl_pending, Option.getD_some, Option.getD_none]

theorem writeTimes_pending (id : MasterId) (base : Nat) (i : Nat) (j : Nat) (a : Nat) (v : Word) (s : State) : ((writeTimes id base i j a v s).getD s).pending = s.pending := by
  unfold writeTimes
  simp only [getD_ite, Option.getD_some, Option.getD_none, apply_ite State.pending, writeTtCtl_pending, writeTtCycle_pending, writeTtT0_pending, stageTtT0_pending,
    commitTtEntry_pending, stageTtEntry_pending, commitInc_pending, commitStep_pending, commitVd_pending, writeVdCtl_pending, writeTm_pending, ite_self]

theorem writeFmask_pending (v : Word) (s : State) : (writeFmask v s).pending = s.pending := by
  unfold writeFmask
  simp only [↓plainWrite_pending, ↓giveUp_pending, apply_ite State.pending, ite_self]

theorem writeMotion_pending (id : MasterId) (base : Nat) (i : Nat) (v : Word) (s : State) : ((writeMotion id base i v s).getD s).pending = s.pending := by
  unfold writeMotion
  (repeat' split) <;> simp only [↓writeTkCfg_pending, ↓writeTkCtl_pending, ↓writeTkPos_pending, ↓writeTkRcfg_pending, ↓writeTkCarm_pending, ↓writeWmCtl_pending, ↓whileFollowing_pending, ↓writeDpxCtl_pending, ↓writeFmask_pending, implies_true, Option.getD_some, Option.getD_none]

theorem writePower_pending (id : MasterId) (base : Nat) (i : Nat) (a : Nat) (v : Word) (s : State) : ((writePower id base i a v s).getD s).pending = s.pending := by
  unfold writePower
  (repeat' split) <;> simp only [↓writePdCtl_pending, ↓writeFeedCfg_pending, ↓writeChanCtl_pending, ↓writePdCfg_pending, ↓commitEnergy_pending, ↓writeBistCmd_pending, ↓writeCntSnap_pending, Option.getD_some, Option.getD_none]

theorem writePlain_pending (id : MasterId) (a : Nat) (v : Word) (s : State) : (writePlain id a v s).pending = s.pending := by
  unfold writePlain
  (repeat' split) <;> simp only [↓commitWide_pending, ↓countPart_pending, ↓stagePart_pending, ↓plainWrite_pending]

theorem writePins_pending (base i : Nat) (v : Word) (s : State) (t : State × Option Reason) (h : writePins base i v s = some t) : t.1.pending = s.pending := by
  unfold writePins at h; grind [writePinCfg_pending, writePinOut_pending, writePinMap_pending, writeBankCfg_pending, writeBankOut_pending]
theorem regWrite_pending (m : Master) (a : Nat) (v : Word) (s : State) : (regWrite m a v s).1.pending = s.pending := by
  unfold regWrite
  extract_lets id
  split
  · rfl
  · rename_i r i j _ 
    have ho : ((if a < 0x20000 then writeNode m r.base i v s
      else if a < 0x30000 then none
      else if a < 0x40000 then writeScribe r.base i j v s
      else if a < 0x50000 then writeBuses r.base i j a v s
      else if a < 0x60000 then writeUnits r.base i a v s
      else if a < 0x80000 then writeLocal id r.base i j v s
      else if a < 0xA0000 then writeRing r.base i a v s
      else if a < 0xB0000 then writeTimes id r.base i j a v s
      else if a < 0xD0000 then writeMotion id r.base i v s
      else writePower id r.base i a v s : Option State).getD s).pending = s.pending := by
      simp only [getD_ite, Option.getD_none, apply_ite State.pending, writeNode_pending, writeScribe_pending, writeBuses_pending, writeUnits_pending, writeLocal_pending,
        writeRing_pending, writeTimes_pending, writeMotion_pending, writePower_pending, ite_self]
    extract_lets own
    change (own.getD s).pending = s.pending at ho
    clear_value own
    split
    · rfl
    · split
      · cases e : writePins r.base i v s with
        | none => exact writePlain_pending _ _ _ _
        | some t => exact writePins_pending _ _ _ _ _ e
      · cases own with
        | none => exact writePlain_pending _ _ _ _
        | some t => exact ho

theorem memWrite_pending (a : Nat) (bs : List Byte) (pois : Bool) (s : State) : (memWrite a bs pois s).1.pending = s.pending := by
  unfold memWrite
  (repeat' split) <;> simp only [↓writeStore_pending, ↓masterWrite_pending, ↓noteStored_pending]

theorem busWrite_pending (m : Master) (lock : Bool) (a : Nat) (bs : List Byte) (pois : Bool) (s : State) : (busWrite m lock a bs pois s).1.pending = s.pending := by
  unfold busWrite
  grind [refuse_pending, regWrite_pending, dropOverlap_pending, memWrite_pending, stateOr, Clock.state, fresh, foldl_pending]

theorem answerWrite_pending (p : State × Option Reason) : (answerWrite p).pending = p.1.pending := by
  unfold answerWrite; grind [answer_pending]
theorem writeAccess_pending (m : Master) (a : Nat) (bs : List Byte) (s : State) : (writeAccess m a bs s).pending = s.pending := by
  unfold writeAccess
  split
  · exact (answerWrite_pending _).trans (busWrite_pending _ _ _ _ _ _)
  · exact answer_pending _ _

theorem wordWrite_pending (m : Master) (a : Nat) (v : Word) (s : State) : (wordWrite m a v s).pending = s.pending := by
  unfold wordWrite
  simp only [↓nodeCtlAccess_pending, ↓writeAccess_pending, apply_ite State.pending, ite_self]

theorem execSoResWrite_pending (m : Master) (a : Word) (v : Word) (s : State) : (stateOr (execSoResWrite m a v s) s).pending = s.pending := by
  unfold execSoResWrite
  simp only [↓wordWrite_pending, stateOr_next]

theorem execWideHiWrite_pending (m : Master) (a : Word) (v : Word) (s : State) : (stateOr (execWideHiWrite m a v s) s).pending = s.pending := by
  unfold execWideHiWrite
  simp only [↓wordWrite_pending, stateOr_next]

theorem execWideLoWrite_pending (m : Master) (a : Word) (v : Word) (s : State) : (stateOr (execWideLoWrite m a v s) s).pending = s.pending := by
  unfold execWideLoWrite
  simp only [↓wordWrite_pending, stateOr_next]

theorem execRegisterWrite_pending (m : Master) (a : Word) (width : Nat) (v : DWord) (s : State) : (stateOr (execRegisterWrite m a width v s) s).pending = s.pending := by
  unfold execRegisterWrite
  simp only [↓nodeCtlAccess_pending, ↓writeAccess_pending, apply_ite State.pending, ite_self, stateOr_next]

theorem execWideLoRead_pending (m : Master) (a : Word) (s : State) : (stateOr (execWideLoRead m a s) s).pending = s.pending := by
  unfold execWideLoRead
  simp only [↓readAccess_pending, stateOr_next]

theorem stepStarted_pending (o : Nat) (e : Envelope) (m : RingMark) (s : State) : (stepStarted o e m s).pending = s.pending := by
  unfold stepStarted
  simp only [↓onDpx_pending, apply_ite State.pending, ite_self]

theorem noteUncorr_pending (e : Stored) (w : Nat) (s : State) : (noteUncorr e w s).pending = s.pending := by
  unfold noteUncorr
  simp only [↓bump_pending, ↓setB_pending, ↓freshError_pending, apply_ite State.pending, ite_self]

theorem markStart_pending (o : Nat) (e : Envelope) (m : RingMark) (s : State) : (markStart o e m s).pending = s.pending := by
  unfold markStart
  simp only [↓onPort_pending, ↓onNet_pending, apply_ite State.pending, ite_self]

theorem startAt_pending (o : Nat) (c : Nat) (e : Stored) (env : Envelope) (ph : Nat) (s : State) : (startAt o c e env ph s).pending = s.pending := by
  unfold startAt
  simp only [↓onPort_pending, ↓consumePoison_pending, ↓markStart_pending, ↓stepStarted_pending, ↓timeStarted_pending, ↓setSending_pending, ↓notePassed_pending, apply_ite State.pending, ite_self]

theorem setWait_pending (out : Nat) (c : Nat) (b : Bool) (s : State) : (setWait out c b s).pending = s.pending := by
  unfold setWait
  simp only [↓setB_pending]

theorem noteAll_pending (e : Stored) (ws : List Nat) (s : State) : (noteAll e ws s).pending = s.pending := by
  unfold noteAll
  simp only [↓noteUncorr_pending, implies_true, foldl_pending]

theorem countOut_pending (o : Nat) (e : Stored) (s : State) : (countOut o e s).pending = s.pending := by
  unfold countOut
  simp only [↓bump_pending, ↓bumpN_pending, apply_ite State.pending, ite_self]

theorem execInternalDelivery_pending (o : Fin 5) (accept : Bool) (uncorr : BitVec 36) (s : State) : (stateOr (execInternalDelivery o accept uncorr s) s).pending = s.pending := by
  unfold execInternalDelivery
  grind [setWait_pending, noteAll_pending, notePassed_pending, dropTarget_pending, countOut_pending, onOffice_pending, stateOr, Clock.state, fresh, foldl_pending]

theorem execEnvelopeStart_pending (o : Fin 3) (uncorr : BitVec 36) (ph : Fin 32) (s : State) : (stateOr (execEnvelopeStart o uncorr ph s) s).pending = s.pending := by
  unfold execEnvelopeStart
  (repeat' split) <;> simp only [↓noteAll_pending, ↓dropTarget_pending, ↓startAt_pending, apply_ite State.pending, ite_self, stateOr_next, stateOr_ite]

theorem execEnvelopeSent_pending (o : Fin 3) (uncorr : BitVec 36) (s : State) : (stateOr (execEnvelopeSent o uncorr s) s).pending = s.pending := by
  unfold execEnvelopeSent
  (repeat' split) <;> simp only [↓setSending_pending, ↓noteAll_pending, ↓bump_pending, ↓bumpN_pending, ↓countOut_pending, ↓onOffice_pending, ↓dropTarget_pending, ↓sendBlock_pending, ↓sendStamp_pending, apply_ite State.pending, ite_self, stateOr_next]

theorem askPiece_pending (c : Current) (s : State) : (askPiece c s).pending = s.pending := by
  unfold askPiece
  split <;> simp only [↓request_pending, apply_ite State.pending, ite_self]

theorem perform_pending (r : Request) (s : State) : (perform r s).pending = s.pending := by
  unfold perform
  simp only [↓askPiece_pending, ↓onBridge_pending, ↓bump_pending]

theorem lockAndPerform_pending (r : Request) (s : State) : (lockAndPerform r s).pending = s.pending := by
  unfold lockAndPerform
  simp only [↓perform_pending, ↓takeLock_pending]

theorem startWaiter_pending (s : State) : (startWaiter s).pending = s.pending := by
  unfold startWaiter
  (repeat' split) <;> simp only [↓perform_pending, ↓onBridge_pending, ↓lockAndPerform_pending]

theorem execLockWaiterGrant_pending (s : State) : (stateOr (execLockWaiterGrant s) s).pending = s.pending := by
  unfold execLockWaiterGrant
  simp only [↓startWaiter_pending, apply_ite State.pending, ite_self, stateOr_next]

theorem writeBeat_pending (c : Current) (b : Nat × Nat) (s : State) : (writeBeat c b s).1.pending = s.pending := by
  unfold writeBeat
  simp only [↓consumePoison_pending, ↓busWrite_pending, apply_ite State.pending, ite_self]

theorem writePiece_pending (c : Current) (p : Nat × Nat) (s : State) : (writePiece c p s).1.pending = s.pending := by
  unfold writePiece
  split
  · rename_i t r e
    obtain ⟨b, _, hb⟩ := List.exists_of_findSome?_eq_some e
    rcases h : (writeBeat c b s).2 with _ | q
    · rw [h] at hb; cases hb
    · rw [h] at hb; cases hb; exact writeBeat_pending _ _ _
  · exact foldl_pending _ (fun x b => writeBeat_pending _ _ _) _ _

theorem closeRequest_pending (c : Current) (failed : Bool) (s : State) : (closeRequest c failed s).pending = s.pending := by
  unfold closeRequest
  simp only [↓endRequest_pending, ↓onBridge_pending, ↓releaseLock_pending, apply_ite State.pending, ite_self]

theorem refuseRequest_pending (reason : Nat) (cause : Nat) (pieces : Nat) (data : DWord) (pois : Bool) (e : Envelope) (s : State) : (refuseRequest reason cause pieces data pois e s).pending = s.pending := by
  unfold refuseRequest
  simp only [↓bump_pending, ↓sendNdn_pending, apply_ite State.pending, ite_self]

theorem refuseWhole_pending (r : Reason) (e : Envelope) (s : State) : (refuseWhole r e s).pending = s.pending := by
  unfold refuseWhole
  simp only [↓refuseRequest_pending]

theorem failPiece_pending (c : Current) (r : Reason) (s : State) : (failPiece c r s).pending = s.pending := by
  unfold failPiece
  simp only [↓closeRequest_pending, ↓refuseWhole_pending, ↓refuseRequest_pending, apply_ite State.pending, ite_self]

theorem answerDone_pending (e : Envelope) (bytes : List Byte) (pois : BitVec 32) (s : State) : (answerDone e bytes pois s).pending = s.pending := by
  unfold answerDone
  simp only [↓bump_pending, ↓sendOrWait_pending, apply_ite State.pending, ite_self]

theorem foundWord_pending (f : Found) (a : Nat) (s : State) : (foundWord f a s).pending = s.pending := by
  unfold foundWord
  split <;> simp only [↓freshError_pending, ↓correctedWord_pending, apply_ite State.pending, ite_self]

theorem readBeats_pending (id : MasterId) (lock : Bool) (bad : BitVec 2) (f : Found) (x0 : Nat) (x1 : List (Nat × Nat)) (s : State) : (readBeats id lock bad f x0 x1 s).1.pending = s.pending := by
  induction x1 generalizing s f x0 with
  | nil => rfl
  | cons b bs ih =>
    unfold readBeats
    dsimp only
    generalize hs : (if x0 = 0 ∧ (refusal s { m := .ring id, a := b.1, width := b.2, write := false, lock := lock }).isNone = true then foundWord f b.1 s else s) = s1
    have h1 : s1.pending = s.pending := by
      rw [← hs]; split
      · exact foundWord_pending _ _ _
      · rfl
    have h2 := busRead_pending (.ring id) lock b.1 b.2 bad s1
    generalize busRead (.ring id) lock b.1 b.2 bad s1 = p at h2
    split
    · exact h2.trans h1
    · split
      · rename_i e2; have i := ih (if x0 = 0 then Found.clean else f) (x0 - 1) p.1; rw [e2] at i; exact i.trans (h2.trans h1)
      · rename_i e2; have i := ih (if x0 = 0 then Found.clean else f) (x0 - 1) p.1; rw [e2] at i; exact i.trans (h2.trans h1)

theorem fillBuffer_pending (id : MasterId) (e : Nat) (s : State) : (fillBuffer id e s).pending = s.pending := by
  unfold fillBuffer
  grind [readBeats_pending, dropBuf_pending, setBuf_pending, sideGrant_pending, onBridge_pending, stateOr, Clock.state, fresh, foldl_pending]

theorem noteRead_pending (id : MasterId) (a : Nat) (n : Nat) (s : State) : (noteRead id a n s).pending = s.pending := by
  unfold noteRead
  simp only [↓onBridge_pending, ↓fillBuffer_pending, apply_ite State.pending, ite_self]

theorem finishRequest_pending (c : Current) (s : State) : (finishRequest c s).pending = s.pending := by
  unfold finishRequest
  simp only [↓answerDone_pending, ↓closeRequest_pending, ↓noteRead_pending, apply_ite State.pending, ite_self]

theorem nextPiece_pending (c : Current) (s : State) : (nextPiece c s).pending = s.pending := by
  unfold nextPiece
  simp only [↓bump_pending, ↓finishRequest_pending, ↓askPiece_pending, ↓onBridge_pending, apply_ite State.pending, ite_self]

theorem openBeat_pending (f : Found) (n : Nat) (s : State) : (openBeat f n s).2.pending = s.pending := by
  unfold openBeat
  grind [fresh_pending, stateOr, Clock.state, fresh, foldl_pending]

theorem performPiece_pending (bad : BitVec 2) (f : Found) (c : Current) (p : Nat × Nat) (s : State) : (performPiece bad f c p s).pending = s.pending := by
  unfold performPiece
  grind [beginLock_pending, writePiece_pending, failPiece_pending, nextPiece_pending, endRequest_pending, openBeat_pending, readBeats_pending, stateOr, Clock.state, fresh, foldl_pending]

theorem dropReader_pending (id : MasterId) (a : Nat) (n : Nat) (s : State) : (dropReader id a n s).pending = s.pending := by
  unfold dropReader
  grind [dropBuf_pending, stateOr, Clock.state, fresh, foldl_pending]

theorem startLockRead_pending (r : Request) (s : State) : (startLockRead r s).pending = s.pending := by
  unfold startLockRead
  simp only [↓refuseWhole_pending, ↓lockAndPerform_pending, ↓bump_pending, ↓onBridge_pending, apply_ite State.pending, ite_self]

theorem answerBuffer_pending (id : MasterId) (k : Nat) (b : ReadAhead) (e : Envelope) (s : State) : (answerBuffer id k b e s).pending = s.pending := by
  unfold answerBuffer
  simp only [↓onBridge_pending, ↓bump_pending, ↓setBuf_pending, ↓answerDone_pending, ↓fillBuffer_pending, apply_ite State.pending, ite_self]

end Sys2Proof.Machine
end

