-- ==== Sys2Proof/Laws/Queue8.lean ====
section
/-! SUPPORT. Every operation and meaning leaves the queue of commands as it is. The operations and meanings of Inbound, Manifest, Monitor, Step. -/

namespace Sys2Proof.Machine

theorem startRequest_pending (r : Request) (s : State) : (startRequest r s).pending = s.pending := by
  unfold startRequest
  grind [setB_pending, bump_pending, refuseWhole_pending, dropReader_pending, startLockRead_pending, answerBuffer_pending, perform_pending, stateOr, Clock.state, fresh, foldl_pending]

theorem beginRequest_pending (r : Request) (s : State) : (beginRequest r s).pending = s.pending := by
  unfold beginRequest
  simp only [↓startRequest_pending, ↓onBridge_pending]

theorem tryPiece_pending (bad : BitVec 2) (f : Found) (c : Current) (p : Nat × Nat) (s : State) : (tryPiece bad f c p s).pending = s.pending := by
  unfold tryPiece
  simp only [↓acquire_pending, ↓performPiece_pending, apply_ite State.pending, ite_self]

theorem execInboundPiece_pending (bad : BitVec 2) (found : Found) (s : State) : (stateOr (execInboundPiece bad found s) s).pending = s.pending := by
  unfold execInboundPiece
  (repeat' split) <;> simp only [↓failPiece_pending, ↓tryPiece_pending, stateOr_next]

theorem execLiTimeout_pending (requester : Fin 24) (a : Word) (write : Bool) (s : State) : (stateOr (execLiTimeout requester a write s) s).pending = s.pending := by
  unfold execLiTimeout
  grind [noteTimeout_pending, failPiece_pending, failApply_pending, settleCopies_pending, onBuses_pending, timeoutRecord_pending, stateOr, Clock.state, fresh, foldl_pending]

theorem startNext_pending (s : State) : (startNext s).pending = s.pending := by
  unfold startNext
  (repeat' split) <;> simp only [↓startWaiter_pending, ↓beginRequest_pending]

theorem arrive_pending (e : Envelope) (s : State) : (arrive e s).pending = s.pending := by
  unfold arrive
  simp only [↓bump_pending, ↓takeDelivered_pending, ↓refuseWhole_pending, ↓onBridge_pending, ↓startNext_pending, apply_ite State.pending, ite_self]

theorem requestRow_pending (k : BitVec 5) (e : Envelope) (s : State) : (stateOr (requestRow k e s) s).pending = s.pending := by
  unfold requestRow
  simp only [↓arrive_pending, stateOr_next]

theorem execRead_pending (e : Envelope) (s : State) : (stateOr (execRead e s) s).pending = s.pending := by
  unfold execRead
  simp only [↓requestRow_pending]

theorem execWriteA_pending (e : Envelope) (s : State) : (stateOr (execWriteA e s) s).pending = s.pending := by
  unfold execWriteA
  simp only [↓requestRow_pending]

theorem execWriteP_pending (e : Envelope) (s : State) : (stateOr (execWriteP e s) s).pending = s.pending := by
  unfold execWriteP
  simp only [↓requestRow_pending]

theorem execInboundStart_pending (s : State) : (stateOr (execInboundStart s) s).pending = s.pending := by
  unfold execInboundStart
  simp only [↓startNext_pending, stateOr_next]

theorem execUnlockWrite_pending (e : Envelope) (s : State) : (stateOr (execUnlockWrite e s) s).pending = s.pending := by
  unfold execUnlockWrite
  simp only [↓requestRow_pending]

theorem execLockRead_pending (e : Envelope) (s : State) : (stateOr (execLockRead e s) s).pending = s.pending := by
  unfold execLockRead
  simp only [↓requestRow_pending]

theorem manifestRecord_pending (ok : Bool) (act : State → State) (s : State) (h0 : ∀ x, (act x).pending = x.pending) : (manifestRecord ok act s).pending = s.pending := by
  unfold manifestRecord
  simp only [h0, ↓failApply_pending, apply_ite State.pending, ite_self]

theorem firmwareWrites_pending (w : Nat) (x0 : Nat) (x1 : List Nat) (s : State) : (firmwareWrites w x0 x1 s).1.pending = s.pending := by
  induction x1 generalizing s x0 with
  | nil => rfl
  | cons v vs ih => unfold firmwareWrites; grind [busWrite_pending]

theorem recordDone_pending (s : State) : (recordDone s).pending = s.pending := by
  unfold recordDone
  simp only [↓onUpd_pending]

theorem writeRecord_pending (w : Nat) (a : Nat) (vs : List Nat) (s : State) : (writeRecord w a vs s).pending = s.pending := by
  unfold writeRecord
  grind [manifestRecord_pending, firmwareWrites_pending, recordDone_pending, failApply_pending, stateOr, Clock.state, fresh, foldl_pending]

theorem execMfWrite32_pending (a : Word) (ws : List Word) (s : State) : (stateOr (execMfWrite32 a ws s) s).pending = s.pending := by
  unfold execMfWrite32
  simp only [↓writeRecord_pending, stateOr_next]

theorem execMfDelay_pending (us : Nat) (s : State) : (stateOr (execMfDelay us s) s).pending = s.pending := by
  unfold execMfDelay
  simp only [↓manifestRecord_pending, ↓recordDone_pending, stateOr_next, implies_true]

theorem execMfWrite16_pending (a : Word) (hs : List (BitVec 16)) (s : State) : (stateOr (execMfWrite16 a hs s) s).pending = s.pending := by
  unfold execMfWrite16
  simp only [↓writeRecord_pending, stateOr_next]

theorem execMfPoll_pending (a : Word) (mask : Word) (value : Word) (late : Bool) (s : State) : (stateOr (execMfPoll a mask value late s) s).pending = s.pending := by
  unfold execMfPoll
  grind [manifestRecord_pending, busRead_pending, recordDone_pending, failApply_pending, stateOr, Clock.state, fresh, foldl_pending]

theorem execMfEnd_pending (how : ManifestEnd) (s : State) : (stateOr (execMfEnd how s) s).pending = s.pending := by
  unfold execMfEnd
  simp only [↓manifestRecord_pending, ↓onUpd_pending, ↓writeNodeCtl_pending, stateOr_next, implies_true]

theorem setRegs_pending (x0 : List Nat) (x1 : List Word) (s : State) : (setRegs x0 x1 s).pending = s.pending := by
  induction x0 generalizing s x1 with
  | nil => rfl
  | cons a as ih => cases x1 with
    | nil => rfl
    | cons w ws => unfold setRegs; rw [ih, setReg_pending]

theorem restorePersistent_pending (s : State) : (restorePersistent s).pending = s.pending := by
  unfold restorePersistent
  grind [setRegs_pending, onUpd_pending, stateOr, Clock.state, fresh, foldl_pending]

theorem execMfPersist_pending (s : State) : (stateOr (execMfPersist s) s).pending = s.pending := by
  unfold execMfPersist
  simp only [↓manifestRecord_pending, ↓recordDone_pending, ↓onUpd_pending, ↓restorePersistent_pending, stateOr_next, implies_true]

theorem execMfNodecfg_pending (a : Word) (w0 : Word) (w1 : Word) (s : State) : (stateOr (execMfNodecfg a w0 w1 s) s).pending = s.pending := by
  unfold execMfNodecfg
  simp only [↓manifestRecord_pending, ↓writeNodeWdog_pending, ↓plainWrite_pending, ↓recordDone_pending, ↓onUpd_pending, stateOr_next, implies_true]

theorem endLine_pending (vals : List DWord) (r : MonResult) (s : State) : (endLine vals r s).pending = s.pending := by
  unfold endLine
  simp only [↓endCommand_pending, ↓startCommand_pending]

theorem terminalLine_pending (open_ : Bool) (act : State → State) (s : State) (h0 : ∀ x, (act x).pending = x.pending) : (terminalLine open_ act s).pending = s.pending := by
  unfold terminalLine
  simp only [h0, ↓onUpd_pending, ↓endLine_pending, apply_ite State.pending, ite_self]

theorem endOpen_pending (s : State) : (endOpen s).pending = s.pending := by
  unfold endOpen
  simp only [↓fresh_pending, ↓endLine_pending]

theorem sendLine_pending (x : Session) (c : MonCmd) (s : State) : (sendLine x c s).pending = s.pending := by
  unfold sendLine
  simp only [↓startCommand_pending, ↓onMon_pending, ↓sendOrWait_pending]

theorem readOne_pending (m : Master) (a : Nat) (n : Nat) (s : State) : (readOne m a n s).1.pending = s.pending := by
  unfold readOne
  grind [busRead_pending, stateOr, Clock.state, fresh, foldl_pending]

theorem andThen_pending (p : Ran) (f : State → Ran) (h : ∀ x, (f x).1.pending = x.pending) : (p.andThen f).1.pending = p.1.pending := by
  unfold Ran.andThen; grind
theorem readAll_pending (m : Master) (x0 : List (Nat × Nat)) (s : State) : (readAll m x0 s).1.pending = s.pending := by
  induction x0 generalizing s with
  | nil => rfl
  | cons p ps ih => unfold readAll; rw [andThen_pending _ _ (fun x => ih x), readOne_pending]

theorem readRegs_pending (m : Master) (as : List Nat) (s : State) : (readRegs m as s).1.pending = s.pending := by
  unfold readRegs
  simp only [↓readAll_pending]

theorem writeOne_pending (m : Master) (a : Nat) (n : Nat) (v : Nat) (s : State) : (writeOne m a n v s).1.pending = s.pending := by
  unfold writeOne
  grind [busWrite_pending, stateOr, Clock.state, fresh, foldl_pending]

theorem sendMark_pending (id : Nat) (ns : Nat) (s : State) : (sendMark id ns s).1.pending = s.pending := by
  unfold sendMark
  grind [fresh_pending, sendOrWait_pending, stateOr, Clock.state, fresh, foldl_pending]

theorem withReg_pending (m : Master) (a : Nat) (f : Nat → State → Ran) (s : State) (h0 : ∀ y0 x, (f y0 x).1.pending = x.pending) : (withReg m a f s).1.pending = s.pending := by
  unfold withReg
  grind [busRead_pending, stateOr, Clock.state, fresh, foldl_pending]

theorem writeRow_pending (m : Master) (n : Nat) (x0 : Nat) (x1 : List Nat) (s : State) : (writeRow m n x0 x1 s).1.pending = s.pending := by
  induction x1 generalizing s x0 with
  | nil => rfl
  | cons p ps ih => unfold writeRow; rw [andThen_pending _ _ (fun x => ih _ x), writeOne_pending]

theorem carryOut_pending (m : Master) (c : MonCmd) (s : State) : (carryOut m c s).1.pending = s.pending := by
  unfold carryOut
  extract_lets full
  cases c with
  | waymark i arm =>
    cases arm with
    | none => exact readRegs_pending _ _ _
    | some b => exact withReg_pending _ _ _ _ (fun y0 x => writeOne_pending _ _ _ _ _)
  | bist t =>
    dsimp only
    split
    · rename_i u vs e
      have h := writeOne_pending m R.BIST_CMD 4 (F.BIST_CMD_GO.put (BitVec.ofNat 32 t) 1).toNat s
      rw [e] at h
      split
      · exact h
      · exact (readRegs_pending _ _ _).trans h
    · exact writeOne_pending _ _ _ _ _
  | baud rate =>
    dsimp only
    split
    · exact withReg_pending _ _ _ _ (fun y0 x => writeOne_pending _ _ _ _ _)
    · rfl
  | id => exact readRegs_pending _ _ _
  | peek a n => exact readAll_pending _ _ _
  | poke a v => exact writeOne_pending _ _ _ _ _
  | dump a n => exact readAll_pending _ _ _
  | census => exact readRegs_pending _ _ _
  | snap i => exact writeOne_pending _ _ _ _ _
  | snapAt i ns => exact sendMark_pending _ _ _
  | dl => exact withReg_pending _ _ _ _ (fun y0 x => withReg_pending _ _ _ _ (fun y1 x => readRegs_pending _ _ _))
  | dlFree => exact withReg_pending _ _ _ _ (fun y0 x => writeOne_pending _ _ _ _ _)
  | load k a ws => exact writeRow_pending _ _ _ _ _
  | inject e v => exact writeOne_pending _ _ _ _ _
  | step e => exact withReg_pending _ _ _ _ (fun y0 x => (andThen_pending _ _ (fun z => readRegs_pending _ _ _)).trans (writeOne_pending _ _ _ _ _))
  | track n => exact readRegs_pending _ _ _
  | power => exact readRegs_pending _ _ _
  | updateStatus => exact readRegs_pending _ _ _

theorem runCommand_pending (who : MonAsker) (m : Master) (c : MonCmd) (s : State) : (runCommand who m c s).pending = s.pending := by
  unfold runCommand
  grind [carryOut_pending, startCommand_pending, endCommand_pending, stateOr, Clock.state, fresh, foldl_pending]

theorem typed_pending (c : MonCmd) (s : State) : (stateOr (typed c s) s).pending = s.pending := by
  unfold typed
  grind [terminalLine_pending, endOpen_pending, sendLine_pending, runCommand_pending, stateOr, Clock.state, fresh, foldl_pending]

theorem execMonUpdateStatus_pending (s : State) : (stateOr (execMonUpdateStatus s) s).pending = s.pending := by
  unfold execMonUpdateStatus
  simp only [↓typed_pending]

theorem monitorRow_pending (typ : Nat) (e : Envelope) (act : Envelope → State → State) (s : State) (h0 : ∀ y0 x, (act y0 x).pending = x.pending) : (stateOr (monitorRow typ e act s) s).pending = s.pending := by
  unfold monitorRow
  simp only [h0, ↓takeDelivered_pending, apply_ite State.pending, ite_self, stateOr_next]

theorem dropSession_pending (n : BitVec 16) (s : State) : (dropSession n s).pending = s.pending := by
  unfold dropSession
  simp only [↓onMon_pending]

theorem execMonitorDone_pending (e : Envelope) (s : State) : (stateOr (execMonitorDone e s) s).pending = s.pending := by
  unfold execMonitorDone
  grind [monitorRow_pending, takeDelivered_pending, onMon_pending, dropSession_pending, stateOr, Clock.state, fresh, foldl_pending]

theorem execMonitorOutput_pending (e : Envelope) (s : State) : (stateOr (execMonitorOutput e s) s).pending = s.pending := by
  unfold execMonitorOutput
  grind [monitorRow_pending, takeDelivered_pending, onMon_pending, stateOr, Clock.state, fresh, foldl_pending]

theorem openTerminal_pending (node : BitVec 16) (s : State) : (openTerminal node s).pending = s.pending := by
  unfold openTerminal
  simp only [↓endLine_pending, ↓bump_pending, ↓onMon_pending, ↓sendOrWait_pending, apply_ite State.pending, ite_self]

theorem execMonPoke_pending (a : Word) (v : Word) (s : State) : (stateOr (execMonPoke a v s) s).pending = s.pending := by
  unfold execMonPoke
  simp only [↓typed_pending]

theorem execMonitorClose_pending (e : Envelope) (s : State) : (stateOr (execMonitorClose e s) s).pending = s.pending := by
  unfold execMonitorClose
  grind [monitorRow_pending, takeDelivered_pending, onMon_pending, dropSession_pending, stateOr, Clock.state, fresh, foldl_pending]

theorem execMonScribeInject_pending (e : Fin 64) (v : BitVec 16) (s : State) : (stateOr (execMonScribeInject e v s) s).pending = s.pending := by
  unfold execMonScribeInject
  simp only [↓typed_pending]

theorem execMonId_pending (s : State) : (stateOr (execMonId s) s).pending = s.pending := by
  unfold execMonId
  simp only [↓typed_pending]

theorem execMonWaymark_pending (i : Fin 4096) (arm : Option Bool) (s : State) : (stateOr (execMonWaymark i arm s) s).pending = s.pending := by
  unfold execMonWaymark
  simp only [↓typed_pending]

theorem execMonDlFree_pending (s : State) : (stateOr (execMonDlFree s) s).pending = s.pending := by
  unfold execMonDlFree
  simp only [↓typed_pending]

theorem execMonCensus_pending (s : State) : (stateOr (execMonCensus s) s).pending = s.pending := by
  unfold execMonCensus
  simp only [↓typed_pending]

theorem execMonSnapAt_pending (id : BitVec 16) (ns : DWord) (s : State) : (stateOr (execMonSnapAt id ns s) s).pending = s.pending := by
  unfold execMonSnapAt
  simp only [↓typed_pending]

theorem execMonDump_pending (a : Word) (bytes : Nat) (s : State) : (stateOr (execMonDump a bytes s) s).pending = s.pending := by
  unfold execMonDump
  simp only [↓typed_pending]

theorem execMonLock_pending (s : State) : (stateOr (execMonLock s) s).pending = s.pending := by
  unfold execMonLock
  simp only [↓terminalLine_pending, ↓endLine_pending, ↓onMon_pending, stateOr_next, implies_true]

theorem execMonScribeStep_pending (e : Fin 64) (s : State) : (stateOr (execMonScribeStep e s) s).pending = s.pending := by
  unfold execMonScribeStep
  simp only [↓typed_pending]

theorem execMonitorLineTimeout_pending (k : Fin 4) (s : State) : (stateOr (execMonitorLineTimeout k s) s).pending = s.pending := by
  unfold execMonitorLineTimeout
  split <;> simp only [↓bump_pending, ↓onMon_pending, apply_ite State.pending, ite_self, stateOr_next, stateOr_ite]

theorem execMonBist_pending (target : Byte) (s : State) : (stateOr (execMonBist target s) s).pending = s.pending := by
  unfold execMonBist
  simp only [↓typed_pending]

theorem execMonEnChange_pending (level : Bool) (s : State) : (stateOr (execMonEnChange level s) s).pending = s.pending := by
  unfold execMonEnChange
  simp only [↓setB_pending, stateOr_next]

theorem monNotice_pending (code : Nat) (arg : Nat) (s : State) : (monNotice code arg s).pending = s.pending := by
  unfold monNotice
  simp only [↓postOnce_pending]

theorem execMonBaud_pending (rate : Nat) (s : State) : (stateOr (execMonBaud rate s) s).pending = s.pending := by
  unfold execMonBaud
  simp only [↓typed_pending]

theorem leaveSession_pending (s : State) : (leaveSession s).pending = s.pending := by
  unfold leaveSession
  split <;> simp only [↓endLine_pending, ↓sendOrWait_pending, ↓dropSession_pending]

theorem execMonitorSessionIdle_pending (k : Fin 4) (served : Bool) (s : State) : (stateOr (execMonitorSessionIdle k served s) s).pending = s.pending := by
  unfold execMonitorSessionIdle
  (repeat' split) <;> simp only [↓onMon_pending, ↓dropSession_pending, stateOr_next]

theorem refuseUnlock_pending (s : State) : (refuseUnlock s).pending = s.pending := by
  unfold refuseUnlock
  simp only [↓endOpen_pending]

theorem execMonUnlockNonce_pending (s : State) : (stateOr (execMonUnlockNonce s) s).pending = s.pending := by
  unfold execMonUnlockNonce
  grind [terminalLine_pending, refuseUnlock_pending, fresh_pending, endLine_pending, onMon_pending, stateOr, Clock.state, fresh, foldl_pending]

theorem execMonTrack_pending (n : Fin 16) (s : State) : (stateOr (execMonTrack n s) s).pending = s.pending := by
  unfold execMonTrack
  simp only [↓typed_pending]

theorem execMonDl_pending (s : State) : (stateOr (execMonDl s) s).pending = s.pending := by
  unfold execMonDl
  simp only [↓typed_pending]

theorem execMonitorOpen_pending (e : Envelope) (s : State) : (stateOr (execMonitorOpen e s) s).pending = s.pending := by
  unfold execMonitorOpen
  simp only [↓monitorRow_pending, ↓takeDelivered_pending, ↓bump_pending, ↓sendOrWait_pending, ↓onMon_pending, apply_ite State.pending, ite_self, implies_true]

theorem execMonScribeLoad_pending (k : Fin 16) (a : Nat) (words : List (BitVec 16)) (s : State) : (stateOr (execMonScribeLoad k a words s) s).pending = s.pending := by
  unfold execMonScribeLoad
  simp only [↓terminalLine_pending, ↓endLine_pending, ↓typed_pending, apply_ite State.pending, ite_self, stateOr_next, stateOr_ite, implies_true]

theorem execMonSnap_pending (id : BitVec 16) (s : State) : (stateOr (execMonSnap id s) s).pending = s.pending := by
  unfold execMonSnap
  simp only [↓typed_pending]

theorem execMonPeek_pending (a : Word) (n : Nat) (s : State) : (stateOr (execMonPeek a n s) s).pending = s.pending := by
  unfold execMonPeek
  simp only [↓typed_pending]

theorem execMonUnlockToken_pending (k : Fin 4) (r : BitVec 256) (sg : BitVec 256) (s : State) : (stateOr (execMonUnlockToken k r sg s) s).pending = s.pending := by
  unfold execMonUnlockToken
  simp only [↓terminalLine_pending, ↓refuseUnlock_pending, ↓onMon_pending, ↓endLine_pending, ↓monNotice_pending, ↓bump_pending, ↓endOpen_pending, apply_ite State.pending, ite_self, stateOr_next, implies_true]

theorem execMonitorLine_pending (e : Envelope) (s : State) : (stateOr (execMonitorLine e s) s).pending = s.pending := by
  unfold execMonitorLine
  grind [monitorRow_pending, takeDelivered_pending, onMon_pending, runCommand_pending, endCommand_pending, startCommand_pending, stateOr, Clock.state, fresh, foldl_pending]

theorem execMonNode_pending (node : Option (BitVec 16)) (s : State) : (stateOr (execMonNode node s) s).pending = s.pending := by
  unfold execMonNode
  split <;> simp only [↓terminalLine_pending, ↓openTerminal_pending, ↓leaveSession_pending, stateOr_next, implies_true]

theorem execMonPower_pending (s : State) : (stateOr (execMonPower s) s).pending = s.pending := by
  unfold execMonPower
  simp only [↓typed_pending]

theorem execUnlockLockoutEnd_pending (s : State) : (stateOr (execUnlockLockoutEnd s) s).pending = s.pending := by
  unfold execUnlockLockoutEnd
  simp only [↓onMon_pending, apply_ite State.pending, ite_self, stateOr_next]

theorem tick_pending (s : State) : (tick s).pending = s.pending := by
  unfold tick
  simp only [↓fclkEdge_pending, ↓flushOutbox_pending, ↓paceCells_pending, ↓switchSlot_pending, ↓retryPartners_pending, ↓retrySamples_pending, ↓copiesOut_pending, ↓arbDecide_pending, ↓onNotices_pending, apply_ite State.pending, ite_self, implies_true, foldl_pending]

end Sys2Proof.Machine
end

