-- ==== Sys2Proof/Laws/Slices.lean ====
section
/-! SUPPORT. The node's slices (queues, pins, engines, tracks and the like): a slice after it, or another one, is replaced. -/

namespace Sys2Proof.Machine

@[simp] theorem getLatch_setLatch_same (s : State) (n : Nat) (v : Option Latch) : getLatch (setLatch s n v) n = v := tabGet_tabSet_same _ _ _ _
theorem getLatch_setLatch_ne (s : State) {n k : Nat} (v : Option Latch) (h : k ≠ n) : getLatch (setLatch s n v) k = getLatch s k := tabGet_tabSet_ne _ _ _ h
@[simp] theorem setLatch_regs (s : State) (n : Nat) (v : Option Latch) : (setLatch s n v).regs = s.regs := (rfl)

@[simp] theorem getStage_setStage_same (s : State) (n : Nat) (v : Option Stage) : getStage (setStage s n v) n = v := tabGet_tabSet_same _ _ _ _
theorem getStage_setStage_ne (s : State) {n k : Nat} (v : Option Stage) (h : k ≠ n) : getStage (setStage s n v) k = getStage s k := tabGet_tabSet_ne _ _ _ h
@[simp] theorem setStage_regs (s : State) (n : Nat) (v : Option Stage) : (setStage s n v).regs = s.regs := (rfl)

@[simp] theorem getSlot_setSlot_same (s : State) (n : Nat) (v : NpSlot) : getSlot (setSlot n v s) n = v := tabGet_tabSet_same _ _ _ _
theorem getSlot_setSlot_ne (s : State) {n k : Nat} (v : NpSlot) (h : k ≠ n) : getSlot (setSlot n v s) k = getSlot s k := tabGet_tabSet_ne _ _ _ h
@[simp] theorem setSlot_regs (s : State) (n : Nat) (v : NpSlot) : (setSlot n v s).regs = s.regs := (rfl)

@[simp] theorem getItb_setItb_same (s : State) (n : Nat) (v : Itb) : getItb (setItb s n v) n = v := tabGet_tabSet_same _ _ _ _
theorem getItb_setItb_ne (s : State) {n k : Nat} (v : Itb) (h : k ≠ n) : getItb (setItb s n v) k = getItb s k := tabGet_tabSet_ne _ _ _ h
@[simp] theorem setItb_regs (s : State) (n : Nat) (v : Itb) : (setItb s n v).regs = s.regs := (rfl)

@[simp] theorem getPh_setPh_same (s : State) (n : Nat) (v : PhQueue) : getPh (setPh s n v) n = v := tabGet_tabSet_same _ _ _ _
theorem getPh_setPh_ne (s : State) {n k : Nat} (v : PhQueue) (h : k ≠ n) : getPh (setPh s n v) k = getPh s k := tabGet_tabSet_ne _ _ _ h
@[simp] theorem setPh_regs (s : State) (n : Nat) (v : PhQueue) : (setPh s n v).regs = s.regs := (rfl)

@[simp] theorem getPort_setPort_same (s : State) (n : Nat) (v : PortState) : getPort (setPort s n v) n = v := tabGet_tabSet_same _ _ _ _
theorem getPort_setPort_ne (s : State) {n k : Nat} (v : PortState) (h : k ≠ n) : getPort (setPort s n v) k = getPort s k := tabGet_tabSet_ne _ _ _ h
@[simp] theorem setPort_regs (s : State) (n : Nat) (v : PortState) : (setPort s n v).regs = s.regs := (rfl)

@[simp] theorem getBuf_setBuf_same (s : State) (n : Nat) (v : Option ReadAhead) : getBuf (setBuf n v s) n = v := tabGet_tabSet_same _ _ _ _
theorem getBuf_setBuf_ne (s : State) {n k : Nat} (v : Option ReadAhead) (h : k ≠ n) : getBuf (setBuf n v s) k = getBuf s k := tabGet_tabSet_ne _ _ _ h
@[simp] theorem setBuf_regs (s : State) (n : Nat) (v : Option ReadAhead) : (setBuf n v s).regs = s.regs := (rfl)

@[simp] theorem getEntry_setEntry_same (s : State) (n : Nat) (v : Option WmEntry) : getEntry (setEntry n v s) n = v := tabGet_tabSet_same _ _ _ _
theorem getEntry_setEntry_ne (s : State) {n k : Nat} (v : Option WmEntry) (h : k ≠ n) : getEntry (setEntry n v s) k = getEntry s k := tabGet_tabSet_ne _ _ _ h
@[simp] theorem setEntry_regs (s : State) (n : Nat) (v : Option WmEntry) : (setEntry n v s).regs = s.regs := (rfl)

@[simp] theorem getChan_onChan_same (s : State) (n : Nat) (f : Channel → Channel) : getChan (onChan n f s) n = f (getChan s n) := tabGet_tabSet_same _ _ _ _
theorem getChan_onChan_ne (s : State) {n k : Nat} (f : Channel → Channel) (h : k ≠ n) : getChan (onChan n f s) k = getChan s k := tabGet_tabSet_ne _ _ _ h

@[simp] theorem getMb_onMb_same (s : State) (n : Nat) (f : Mb → Mb) : getMb (onMb n f s) n = f (getMb s n) := tabGet_tabSet_same _ _ _ _
theorem getMb_onMb_ne (s : State) {n k : Nat} (f : Mb → Mb) (h : k ≠ n) : getMb (onMb n f s) k = getMb s k := tabGet_tabSet_ne _ _ _ h

@[simp] theorem getNet_onNet_same (s : State) (n : Nat) (f : NetPort → NetPort) : getNet (onNet n f s) n = f (getNet s n) := tabGet_tabSet_same _ _ _ _
theorem getNet_onNet_ne (s : State) {n k : Nat} (f : NetPort → NetPort) (h : k ≠ n) : getNet (onNet n f s) k = getNet s k := tabGet_tabSet_ne _ _ _ h

@[simp] theorem getPin_onPin_same (s : State) (n : Nat) (f : Pin → Pin) : getPin (onPin n f s) n = f (getPin s n) := tabGet_tabSet_same _ _ _ _
theorem getPin_onPin_ne (s : State) {n k : Nat} (f : Pin → Pin) (h : k ≠ n) : getPin (onPin n f s) k = getPin s k := tabGet_tabSet_ne _ _ _ h

@[simp] theorem getBank_onBank_same (s : State) (n : Nat) (f : Bank → Bank) : getBank (onBank n f s) n = f (getBank s n) := tabGet_tabSet_same _ _ _ _
theorem getBank_onBank_ne (s : State) {n k : Nat} (f : Bank → Bank) (h : k ≠ n) : getBank (onBank n f s) k = getBank s k := tabGet_tabSet_ne _ _ _ h

@[simp] theorem getEng_onEng_same (s : State) (n : Nat) (f : Engine → Engine) : getEng (onEng n f s) n = f (getEng s n) := tabGet_tabSet_same _ _ _ _
theorem getEng_onEng_ne (s : State) {n k : Nat} (f : Engine → Engine) (h : k ≠ n) : getEng (onEng n f s) k = getEng s k := tabGet_tabSet_ne _ _ _ h

@[simp] theorem getUart_onUart_same (s : State) (n : Nat) (f : Uart → Uart) : getUart (onUart n f s) n = f (getUart s n) := tabGet_tabSet_same _ _ _ _
theorem getUart_onUart_ne (s : State) {n k : Nat} (f : Uart → Uart) (h : k ≠ n) : getUart (onUart n f s) k = getUart s k := tabGet_tabSet_ne _ _ _ h

@[simp] theorem getEnc_onEnc_same (s : State) (n : Nat) (f : Enc → Enc) : getEnc (onEnc n f s) n = f (getEnc s n) := tabGet_tabSet_same _ _ _ _
theorem getEnc_onEnc_ne (s : State) {n k : Nat} (f : Enc → Enc) (h : k ≠ n) : getEnc (onEnc n f s) k = getEnc s k := tabGet_tabSet_ne _ _ _ h

@[simp] theorem getMains_onMains_same (s : State) (n : Nat) (f : Mains → Mains) : getMains (onMains n f s) n = f (getMains s n) := tabGet_tabSet_same _ _ _ _
theorem getMains_onMains_ne (s : State) {n k : Nat} (f : Mains → Mains) (h : k ≠ n) : getMains (onMains n f s) k = getMains s k := tabGet_tabSet_ne _ _ _ h

@[simp] theorem getVd_onVd_same (s : State) (n : Nat) (f : Vd → Vd) : getVd (onVd n f s) n = f (getVd s n) := tabGet_tabSet_same _ _ _ _
theorem getVd_onVd_ne (s : State) {n k : Nat} (f : Vd → Vd) (h : k ≠ n) : getVd (onVd n f s) k = getVd s k := tabGet_tabSet_ne _ _ _ h

@[simp] theorem getTrack_onTrack_same (s : State) (n : Nat) (f : Track → Track) : getTrack (onTrack n f s) n = f (getTrack s n) := tabGet_tabSet_same _ _ _ _
theorem getTrack_onTrack_ne (s : State) {n k : Nat} (f : Track → Track) (h : k ≠ n) : getTrack (onTrack n f s) k = getTrack s k := tabGet_tabSet_ne _ _ _ h

@[simp] theorem getPort_onPort_same (s : State) (n : Nat) (f : PortState → PortState) : getPort (onPort n f s) n = f (getPort s n) := tabGet_tabSet_same _ _ _ _
theorem getPort_onPort_ne (s : State) {n k : Nat} (f : PortState → PortState) (h : k ≠ n) : getPort (onPort n f s) k = getPort s k := tabGet_tabSet_ne _ _ _ h

/-! Registers, counters and answers are no part of a slice. -/

@[simp] theorem getLatch_setReg (s : State) (n a : Nat) (w : Word) : getLatch (setReg s a w) n = getLatch s n := (rfl)
@[simp] theorem getLatch_setF (s : State) (n a : Nat) (f : Fld) (v : Nat) : getLatch (setF s a f v) n = getLatch s n := (rfl)
@[simp] theorem getLatch_setB (s : State) (n a : Nat) (f : Fld) (v : Bool) : getLatch (setB s a f v) n = getLatch s n := (rfl)
@[simp] theorem getLatch_bump (s : State) (n : Nat) (c : Ctr) : getLatch (bump c s) n = getLatch s n := (rfl)
@[simp] theorem getLatch_answer (s : State) (n : Nat) (r : Resp) : getLatch (answer r s) n = getLatch s n := (rfl)
@[simp] theorem getStage_setReg (s : State) (n a : Nat) (w : Word) : getStage (setReg s a w) n = getStage s n := (rfl)
@[simp] theorem getStage_setF (s : State) (n a : Nat) (f : Fld) (v : Nat) : getStage (setF s a f v) n = getStage s n := (rfl)
@[simp] theorem getStage_setB (s : State) (n a : Nat) (f : Fld) (v : Bool) : getStage (setB s a f v) n = getStage s n := (rfl)
@[simp] theorem getStage_bump (s : State) (n : Nat) (c : Ctr) : getStage (bump c s) n = getStage s n := (rfl)
@[simp] theorem getStage_answer (s : State) (n : Nat) (r : Resp) : getStage (answer r s) n = getStage s n := (rfl)
@[simp] theorem getSlot_setReg (s : State) (n a : Nat) (w : Word) : getSlot (setReg s a w) n = getSlot s n := (rfl)
@[simp] theorem getSlot_setF (s : State) (n a : Nat) (f : Fld) (v : Nat) : getSlot (setF s a f v) n = getSlot s n := (rfl)
@[simp] theorem getSlot_setB (s : State) (n a : Nat) (f : Fld) (v : Bool) : getSlot (setB s a f v) n = getSlot s n := (rfl)
@[simp] theorem getSlot_bump (s : State) (n : Nat) (c : Ctr) : getSlot (bump c s) n = getSlot s n := (rfl)
@[simp] theorem getSlot_answer (s : State) (n : Nat) (r : Resp) : getSlot (answer r s) n = getSlot s n := (rfl)
@[simp] theorem getItb_setReg (s : State) (n a : Nat) (w : Word) : getItb (setReg s a w) n = getItb s n := (rfl)
@[simp] theorem getItb_setF (s : State) (n a : Nat) (f : Fld) (v : Nat) : getItb (setF s a f v) n = getItb s n := (rfl)
@[simp] theorem getItb_setB (s : State) (n a : Nat) (f : Fld) (v : Bool) : getItb (setB s a f v) n = getItb s n := (rfl)
@[simp] theorem getItb_bump (s : State) (n : Nat) (c : Ctr) : getItb (bump c s) n = getItb s n := (rfl)
@[simp] theorem getItb_answer (s : State) (n : Nat) (r : Resp) : getItb (answer r s) n = getItb s n := (rfl)
@[simp] theorem getPh_setReg (s : State) (n a : Nat) (w : Word) : getPh (setReg s a w) n = getPh s n := (rfl)
@[simp] theorem getPh_setF (s : State) (n a : Nat) (f : Fld) (v : Nat) : getPh (setF s a f v) n = getPh s n := (rfl)
@[simp] theorem getPh_setB (s : State) (n a : Nat) (f : Fld) (v : Bool) : getPh (setB s a f v) n = getPh s n := (rfl)
@[simp] theorem getPh_bump (s : State) (n : Nat) (c : Ctr) : getPh (bump c s) n = getPh s n := (rfl)
@[simp] theorem getPh_answer (s : State) (n : Nat) (r : Resp) : getPh (answer r s) n = getPh s n := (rfl)
@[simp] theorem getPort_setReg (s : State) (n a : Nat) (w : Word) : getPort (setReg s a w) n = getPort s n := (rfl)
@[simp] theorem getPort_setF (s : State) (n a : Nat) (f : Fld) (v : Nat) : getPort (setF s a f v) n = getPort s n := (rfl)
@[simp] theorem getPort_setB (s : State) (n a : Nat) (f : Fld) (v : Bool) : getPort (setB s a f v) n = getPort s n := (rfl)
@[simp] theorem getPort_bump (s : State) (n : Nat) (c : Ctr) : getPort (bump c s) n = getPort s n := (rfl)
@[simp] theorem getPort_answer (s : State) (n : Nat) (r : Resp) : getPort (answer r s) n = getPort s n := (rfl)
@[simp] theorem getBuf_setReg (s : State) (n a : Nat) (w : Word) : getBuf (setReg s a w) n = getBuf s n := (rfl)
@[simp] theorem getBuf_setF (s : State) (n a : Nat) (f : Fld) (v : Nat) : getBuf (setF s a f v) n = getBuf s n := (rfl)
@[simp] theorem getBuf_setB (s : State) (n a : Nat) (f : Fld) (v : Bool) : getBuf (setB s a f v) n = getBuf s n := (rfl)
@[simp] theorem getBuf_bump (s : State) (n : Nat) (c : Ctr) : getBuf (bump c s) n = getBuf s n := (rfl)
@[simp] theorem getBuf_answer (s : State) (n : Nat) (r : Resp) : getBuf (answer r s) n = getBuf s n := (rfl)
@[simp] theorem getEntry_setReg (s : State) (n a : Nat) (w : Word) : getEntry (setReg s a w) n = getEntry s n := (rfl)
@[simp] theorem getEntry_setF (s : State) (n a : Nat) (f : Fld) (v : Nat) : getEntry (setF s a f v) n = getEntry s n := (rfl)
@[simp] theorem getEntry_setB (s : State) (n a : Nat) (f : Fld) (v : Bool) : getEntry (setB s a f v) n = getEntry s n := (rfl)
@[simp] theorem getEntry_bump (s : State) (n : Nat) (c : Ctr) : getEntry (bump c s) n = getEntry s n := (rfl)
@[simp] theorem getEntry_answer (s : State) (n : Nat) (r : Resp) : getEntry (answer r s) n = getEntry s n := (rfl)
@[simp] theorem getChan_setReg (s : State) (n a : Nat) (w : Word) : getChan (setReg s a w) n = getChan s n := (rfl)
@[simp] theorem getChan_setF (s : State) (n a : Nat) (f : Fld) (v : Nat) : getChan (setF s a f v) n = getChan s n := (rfl)
@[simp] theorem getChan_setB (s : State) (n a : Nat) (f : Fld) (v : Bool) : getChan (setB s a f v) n = getChan s n := (rfl)
@[simp] theorem getChan_bump (s : State) (n : Nat) (c : Ctr) : getChan (bump c s) n = getChan s n := (rfl)
@[simp] theorem getChan_answer (s : State) (n : Nat) (r : Resp) : getChan (answer r s) n = getChan s n := (rfl)
@[simp] theorem getMb_setReg (s : State) (n a : Nat) (w : Word) : getMb (setReg s a w) n = getMb s n := (rfl)
@[simp] theorem getMb_setF (s : State) (n a : Nat) (f : Fld) (v : Nat) : getMb (setF s a f v) n = getMb s n := (rfl)
@[simp] theorem getMb_setB (s : State) (n a : Nat) (f : Fld) (v : Bool) : getMb (setB s a f v) n = getMb s n := (rfl)
@[simp] theorem getMb_bump (s : State) (n : Nat) (c : Ctr) : getMb (bump c s) n = getMb s n := (rfl)
@[simp] theorem getMb_answer (s : State) (n : Nat) (r : Resp) : getMb (answer r s) n = getMb s n := (rfl)
@[simp] theorem getNet_setReg (s : State) (n a : Nat) (w : Word) : getNet (setReg s a w) n = getNet s n := (rfl)
@[simp] theorem getNet_setF (s : State) (n a : Nat) (f : Fld) (v : Nat) : getNet (setF s a f v) n = getNet s n := (rfl)
@[simp] theorem getNet_setB (s : State) (n a : Nat) (f : Fld) (v : Bool) : getNet (setB s a f v) n = getNet s n := (rfl)
@[simp] theorem getNet_bump (s : State) (n : Nat) (c : Ctr) : getNet (bump c s) n = getNet s n := (rfl)
@[simp] theorem getNet_answer (s : State) (n : Nat) (r : Resp) : getNet (answer r s) n = getNet s n := (rfl)
@[simp] theorem getPin_setReg (s : State) (n a : Nat) (w : Word) : getPin (setReg s a w) n = getPin s n := (rfl)
@[simp] theorem getPin_setF (s : State) (n a : Nat) (f : Fld) (v : Nat) : getPin (setF s a f v) n = getPin s n := (rfl)
@[simp] theorem getPin_setB (s : State) (n a : Nat) (f : Fld) (v : Bool) : getPin (setB s a f v) n = getPin s n := (rfl)
@[simp] theorem getPin_bump (s : State) (n : Nat) (c : Ctr) : getPin (bump c s) n = getPin s n := (rfl)
@[simp] theorem getPin_answer (s : State) (n : Nat) (r : Resp) : getPin (answer r s) n = getPin s n := (rfl)
@[simp] theorem getBank_setReg (s : State) (n a : Nat) (w : Word) : getBank (setReg s a w) n = getBank s n := (rfl)
@[simp] theorem getBank_setF (s : State) (n a : Nat) (f : Fld) (v : Nat) : getBank (setF s a f v) n = getBank s n := (rfl)
@[simp] theorem getBank_setB (s : State) (n a : Nat) (f : Fld) (v : Bool) : getBank (setB s a f v) n = getBank s n := (rfl)
@[simp] theorem getBank_bump (s : State) (n : Nat) (c : Ctr) : getBank (bump c s) n = getBank s n := (rfl)
@[simp] theorem getBank_answer (s : State) (n : Nat) (r : Resp) : getBank (answer r s) n = getBank s n := (rfl)
@[simp] theorem getEng_setReg (s : State) (n a : Nat) (w : Word) : getEng (setReg s a w) n = getEng s n := (rfl)
@[simp] theorem getEng_setF (s : State) (n a : Nat) (f : Fld) (v : Nat) : getEng (setF s a f v) n = getEng s n := (rfl)
@[simp] theorem getEng_setB (s : State) (n a : Nat) (f : Fld) (v : Bool) : getEng (setB s a f v) n = getEng s n := (rfl)
@[simp] theorem getEng_bump (s : State) (n : Nat) (c : Ctr) : getEng (bump c s) n = getEng s n := (rfl)
@[simp] theorem getEng_answer (s : State) (n : Nat) (r : Resp) : getEng (answer r s) n = getEng s n := (rfl)
@[simp] theorem getUart_setReg (s : State) (n a : Nat) (w : Word) : getUart (setReg s a w) n = getUart s n := (rfl)
@[simp] theorem getUart_setF (s : State) (n a : Nat) (f : Fld) (v : Nat) : getUart (setF s a f v) n = getUart s n := (rfl)
@[simp] theorem getUart_setB (s : State) (n a : Nat) (f : Fld) (v : Bool) : getUart (setB s a f v) n = getUart s n := (rfl)
@[simp] theorem getUart_bump (s : State) (n : Nat) (c : Ctr) : getUart (bump c s) n = getUart s n := (rfl)
@[simp] theorem getUart_answer (s : State) (n : Nat) (r : Resp) : getUart (answer r s) n = getUart s n := (rfl)
@[simp] theorem getEnc_setReg (s : State) (n a : Nat) (w : Word) : getEnc (setReg s a w) n = getEnc s n := (rfl)
@[simp] theorem getEnc_setF (s : State) (n a : Nat) (f : Fld) (v : Nat) : getEnc (setF s a f v) n = getEnc s n := (rfl)
@[simp] theorem getEnc_setB (s : State) (n a : Nat) (f : Fld) (v : Bool) : getEnc (setB s a f v) n = getEnc s n := (rfl)
@[simp] theorem getEnc_bump (s : State) (n : Nat) (c : Ctr) : getEnc (bump c s) n = getEnc s n := (rfl)
@[simp] theorem getEnc_answer (s : State) (n : Nat) (r : Resp) : getEnc (answer r s) n = getEnc s n := (rfl)
@[simp] theorem getMains_setReg (s : State) (n a : Nat) (w : Word) : getMains (setReg s a w) n = getMains s n := (rfl)
@[simp] theorem getMains_setF (s : State) (n a : Nat) (f : Fld) (v : Nat) : getMains (setF s a f v) n = getMains s n := (rfl)
@[simp] theorem getMains_setB (s : State) (n a : Nat) (f : Fld) (v : Bool) : getMains (setB s a f v) n = getMains s n := (rfl)
@[simp] theorem getMains_bump (s : State) (n : Nat) (c : Ctr) : getMains (bump c s) n = getMains s n := (rfl)
@[simp] theorem getMains_answer (s : State) (n : Nat) (r : Resp) : getMains (answer r s) n = getMains s n := (rfl)
@[simp] theorem getVd_setReg (s : State) (n a : Nat) (w : Word) : getVd (setReg s a w) n = getVd s n := (rfl)
@[simp] theorem getVd_setF (s : State) (n a : Nat) (f : Fld) (v : Nat) : getVd (setF s a f v) n = getVd s n := (rfl)
@[simp] theorem getVd_setB (s : State) (n a : Nat) (f : Fld) (v : Bool) : getVd (setB s a f v) n = getVd s n := (rfl)
@[simp] theorem getVd_bump (s : State) (n : Nat) (c : Ctr) : getVd (bump c s) n = getVd s n := (rfl)
@[simp] theorem getVd_answer (s : State) (n : Nat) (r : Resp) : getVd (answer r s) n = getVd s n := (rfl)
@[simp] theorem getTrack_setReg (s : State) (n a : Nat) (w : Word) : getTrack (setReg s a w) n = getTrack s n := (rfl)
@[simp] theorem getTrack_setF (s : State) (n a : Nat) (f : Fld) (v : Nat) : getTrack (setF s a f v) n = getTrack s n := (rfl)
@[simp] theorem getTrack_setB (s : State) (n a : Nat) (f : Fld) (v : Bool) : getTrack (setB s a f v) n = getTrack s n := (rfl)
@[simp] theorem getTrack_bump (s : State) (n : Nat) (c : Ctr) : getTrack (bump c s) n = getTrack s n := (rfl)
@[simp] theorem getTrack_answer (s : State) (n : Nat) (r : Resp) : getTrack (answer r s) n = getTrack s n := (rfl)

end Sys2Proof.Machine
end

