-- ==== Sys2Proof/Laws/Access.lean ====
section
/-! SUPPORT. The guarded register accesses: what they answer when the target takes them, when R448 refuses them, and while the die is in
reset; and what posting, counting and the discard of read-ahead leave alone. -/

namespace Sys2Proof.Machine

/-- A write that the target takes is performed on the state whose overlapping read-ahead is discarded. -/
theorem guardWrite_takes {m : Master} {a : Nat} {s : State} (h : Takes s m a) (eff : State → State × Option Reason) :
    guardWrite m a eff s = answerWrite (eff (dropOverlap a 4 s)) := by
  unfold guardWrite guardWriteAt answerWrite
  rw [if_neg (by simp [h.1, h.2.1])]
  simp only [h.2.2]
  all_goals (split <;> rename_i e <;> rw [e])

/-- A write that never fails at its unit answers OK. -/
theorem guardWrite_ok {m : Master} {a : Nat} {s : State} (h : Takes s m a) (f : State → State) :
    guardWrite m a (fun s => (f s, none)) s = answer .ok (f (dropOverlap a 4 s)) := by
  rw [guardWrite_takes h]; rfl

/-- A write that R448 refuses is answered with the reason, and only a denial by a table leaves a record. -/
theorem guardWrite_refused {m : Master} {a : Nat} {s : State} {r : Reason} (hc : clocked s = true)
    (hl : lockedOut s m a = false) (h : refusal s { m := m, a := a, width := 4, write := true, lock := false } = some r) (eff : State → State × Option Reason) :
    guardWrite m a eff s = answer (.err r) (refuse { m := m, a := a, width := 4, write := true, lock := false } s) := by
  unfold guardWrite guardWriteAt
  rw [if_neg (by simp [hc, hl])]
  simp only [h]

/-- A local master that a locked grant holds off gets no answer yet (R150). -/
theorem guardWrite_waits {m : Master} {a : Nat} {s : State} (h : lockedOut s m a = true) (eff : State → State × Option Reason) :
    guardWrite m a eff s = answer .none s := by
  unfold guardWrite guardWriteAt
  rw [if_pos (by simp [h])]

/-- While the digital die is in reset a write is not answered. -/
theorem guardWrite_held {m : Master} {a : Nat} {s : State} (hc : clocked s = false) (eff : State → State × Option Reason) :
    guardWrite m a eff s = answer .none s := by
  unfold guardWrite guardWriteAt
  rw [if_pos (by simp [hc])]

/-- A read that the target takes gives the word, and poison that the management core meets is counted among its consumers. -/
theorem guardReadP_reads {m : Master} {a : Nat} {s : State} (h : Reads s m a) (eff : State → State × Word × Bool) :
    guardReadP m a eff s = answer (.data ((eff s).2.1.zeroExtend 64) (eff s).2.2)
      (coreMeets m (.data ((eff s).2.1.zeroExtend 64) (eff s).2.2) (eff s).1) := by
  unfold guardReadP
  rw [if_neg (by simp [h.1, h.2.1])]
  simp only [h.2.2]

/-- A clean word counts nothing. -/
@[simp] theorem coreMeets_clean (m : Master) (w : DWord) (s : State) : coreMeets m (.data w false) s = s := by
  unfold coreMeets; exact if_neg (by simp)

theorem guardRead_reads {m : Master} {a : Nat} {s : State} (h : Reads s m a) (eff : State → State × Word) :
    guardRead m a eff s = answer (.data ((eff s).2.zeroExtend 64) false) (eff s).1 := by
  unfold guardRead; rw [guardReadP_reads h, coreMeets_clean]

/-! Accesses to registers by address. -/

/-- A write to a register that the target takes is performed by the register's own rule. -/
theorem busWrite_register {m : Master} {a : Nat} {s : State} (h : Takes s m a) (hr : regionOf a = .register) (v : Word) :
    busWrite m false a (leBytes 4 v.toNat) false s = regWrite m a v (dropOverlap a 4 s) := by
  have hl : (leBytes 4 v.toNat).length = 4 := rfl
  have hv : BitVec.ofNat 32 (leNat (leBytes 4 v.toNat)) = v := by
    apply BitVec.eq_of_toNat_eq
    simp only [leBytes, leNat, BitVec.toNat_ofNat]
    omega
  unfold busWrite
  simp only [hl, hv, h.2.2, hr, if_true]
  exact if_neg (by decide)

/-- A word write to a register but NODE_CTL answers as the register's own rule says. -/
theorem wordWrite_register {m : Master} {a : Nat} {s : State} (h : Takes s m a) (hr : regionOf a = .register) (hn : a ≠ R.NODE_CTL)
    (v : Word) : wordWrite m a v s = answerWrite (regWrite m a v (dropOverlap a 4 s)) := by
  unfold wordWrite writeAccess
  rw [if_neg hn, if_pos ⟨h.1, by simp [h.2.1]⟩, busWrite_register h hr]

/-- A register write of 32 bits, but to NODE_CTL, answers as the register's own rule says. -/
theorem execRegisterWrite_register {m : Master} {a : Word} {s : State} (h : Takes s m a.toNat) (hr : regionOf a.toNat = .register)
    (hn : a.toNat ≠ R.NODE_CTL) (v : DWord) :
    execRegisterWrite m a 4 v s = .next (answerWrite (regWrite m a.toNat (v.truncate 32) (dropOverlap a.toNat 4 s))) := by
  have hb : leBytes 4 v.toNat = leBytes 4 (v.truncate 32 : Word).toNat := by
    rw [show (v.truncate 32 : Word).toNat = v.toNat % 2 ^ 32 from BitVec.toNat_setWidth _ _]
    simp only [leBytes]
    congr 1
    · apply BitVec.eq_of_toNat_eq; simp only [BitVec.toNat_ofNat]; omega
    · congr 1
      · apply BitVec.eq_of_toNat_eq; simp only [BitVec.toNat_ofNat]; omega
      · congr 1
        · apply BitVec.eq_of_toNat_eq; simp only [BitVec.toNat_ofNat]; omega
        · congr 1; apply BitVec.eq_of_toNat_eq; simp only [BitVec.toNat_ofNat]; omega
  unfold execRegisterWrite writeAccess
  rw [if_neg (by simp [hn]), if_pos ⟨h.1, by simp [h.2.1]⟩, hb, busWrite_register h hr]

/-- A read of a register that the target takes is performed by the register's own rule. -/
theorem readAccess_register {m : Master} {a : Nat} {s : State} (h : Reads s m a) (hr : regionOf a = .register) :
    readAccess m a s = answer (regRead m a 0 s).2 (coreMeets m (regRead m a 0 s).2 (regRead m a 0 s).1) := by
  unfold readAccess busRead
  rw [if_pos ⟨h.1, by simp [h.2.1]⟩]
  simp only [h.2.2, hr, if_true]

/-! Registers that an operation leaves alone. -/

theorem RegsBut.rfl' {l : List Nat} {s : State} : RegsBut l s s := fun _ _ => rfl
theorem RegsBut.trans {l : List Nat} {s t u : State} (h : RegsBut l s t) (g : RegsBut l t u) : RegsBut l s u :=
  fun a ha => (g a ha).trans (h a ha)
theorem RegsBut.mono {l k : List Nat} {s t : State} (h : RegsBut l s t) (hs : ∀ a ∈ l, a ∈ k) : RegsBut k s t :=
  fun a ha => h a (fun hl => ha (hs a hl))
theorem RegsBut.of_regs {l : List Nat} {s t : State} (h : t.regs = s.regs) : RegsBut l s t := fun a _ => getReg_congr h a
theorem RegsBut.setReg (s : State) (a : Nat) (w : Word) : RegsBut [a] s (setReg s a w) :=
  fun _ hb => getReg_setReg_ne s w (by simpa using hb)
theorem RegsBut.setF (s : State) (a : Nat) (f : Fld) (v : Nat) : RegsBut [a] s (setF s a f v) := RegsBut.setReg _ _ _
theorem RegsBut.setB (s : State) (a : Nat) (f : Fld) (b : Bool) : RegsBut [a] s (setB s a f b) := RegsBut.setReg _ _ _

/-! An answer changes no register. -/

@[simp] theorem getReg_answer (r : Resp) (s : State) (a : Nat) : getReg (answer r s) a = getReg s a := getReg_congr rfl a
@[simp] theorem getF_answer (r : Resp) (s : State) (a : Nat) (f : Fld) : getF (answer r s) a f = getF s a f := getF_congr rfl a f
@[simp] theorem getB_answer (r : Resp) (s : State) (a : Nat) (f : Fld) : getB (answer r s) a f = getB s a f := getB_congr rfl a f

/-! Posting a notice (R157). -/

/-- With fewer than four notices of the source waiting, a posted notice joins them. -/
theorem post_room (q cap inst code arg : Nat) (s : State) (h : (waitingOf s cap inst).length < 4) :
    post q cap inst code arg s = onNotices (fun x => { x with waiting := x.waiting ++ [
      { queue := q,
        item := { cap := cap, inst := inst, code := code, arg := arg % 2 ^ 16, pri := 0, lost := false, seq := 0,
                  pm := if onFclk cap then pmVdTick s (getF s (R.PH_CFG q) F.PH_CFG_VD) else pmVd s (getF s (R.PH_CFG q) F.PH_CFG_VD) } }] }) s := by
  unfold post postPm; dsimp only; rw [if_pos h]

/-- A posted notice writes no register but its queue's PH_STAT. -/
theorem post_regs (q cap inst code arg : Nat) (s : State) : RegsBut [R.PH_STAT q] s (post q cap inst code arg s) := by
  unfold post postPm
  split
  · exact RegsBut.of_regs rfl
  · unfold lostItem; exact RegsBut.trans (RegsBut.setB _ _ _ _) (RegsBut.of_regs rfl)

/-! Discarding read-ahead (R186). -/

theorem foldl_fixed {β : Type} (g : State → β → State) (s : State) (l : List β) (h : ∀ b, g s b = s) : l.foldl g s = s := by
  induction l with
  | nil => rfl
  | cons b l ih => rw [List.foldl_cons, h, ih]

/-- Without a buffer that the write overlaps nothing is discarded. -/
theorem dropOverlap_none (a n : Nat) (s : State) (h : ∀ k b, getBuf s k = some b → ¬(b.addr < a + n ∧ a < b.addr + 64)) :
    dropOverlap a n s = s := by
  refine foldl_fixed _ _ _ (fun k => ?_)
  split
  · rename_i b e; rw [if_neg (h k b e)]
  · rfl

/-- What a change leaves that writes no register but those of discardRegs and nothing of State but counters, the read-ahead buffers, the
dead-letter office and the notices that wait. -/
def OnlyDiscards (s t : State) : Prop :=
  RegsBut discardRegs s t ∧
  t = { s with
    regs := t.regs, mon := { s.mon with counters := t.mon.counters }, bridge := { s.bridge with buffers := t.bridge.buffers },
    dead := t.dead, notices := { s.notices with waiting := t.notices.waiting, srcLost := t.notices.srcLost } }

theorem OnlyDiscards.rfl' {s : State} : OnlyDiscards s s := ⟨RegsBut.rfl', rfl⟩

theorem OnlyDiscards.trans {s t u : State} (h : OnlyDiscards s t) (g : OnlyDiscards t u) : OnlyDiscards s u := by
  refine ⟨RegsBut.trans h.1 g.1, ?_⟩
  rw [g.2, h.2]

theorem OnlyDiscards.setB (s : State) {a : Nat} (f : Fld) (b : Bool) (h : a ∈ discardRegs) : OnlyDiscards s (setB s a f b) :=
  ⟨RegsBut.mono (RegsBut.setB s a f b) (fun _ hx => by rw [List.mem_singleton.1 hx]; exact h), rfl⟩

theorem OnlyDiscards.setF (s : State) {a : Nat} (f : Fld) (v : Nat) (h : a ∈ discardRegs) : OnlyDiscards s (setF s a f v) :=
  ⟨RegsBut.mono (RegsBut.setF s a f v) (fun _ hx => by rw [List.mem_singleton.1 hx]; exact h), rfl⟩

/-- Posting to one of the 32 queues. -/
theorem post_discards (q cap inst code arg : Nat) (s : State) (h : q < 32) : OnlyDiscards s (post q cap inst code arg s) := by
  have hq : R.PH_STAT q ∈ discardRegs := List.mem_append_right _ (List.mem_map.2 ⟨q, List.mem_range.2 h, rfl⟩)
  unfold post postPm
  split
  · exact ⟨RegsBut.of_regs rfl, rfl⟩
  · exact OnlyDiscards.trans (OnlyDiscards.setB s F.PH_STAT_OVF true hq) ⟨RegsBut.of_regs rfl, rfl⟩

theorem getF_lt (s : State) (a : Nat) (f : Fld) : getF s a f < 2 ^ f.width := Nat.mod_lt _ (Nat.two_pow_pos _)

theorem dlNotice_discards (code arg : Nat) (s : State) : OnlyDiscards s (dlNotice code arg s) := by
  unfold dlNotice
  split
  · exact post_discards _ _ _ _ _ _ (getF_lt s R.DL_CTL F.DL_CTL_NTC_Q)
  · exact OnlyDiscards.rfl'

theorem discardBuffer_discards (why : Nat) (b : ReadAhead) (s : State) : OnlyDiscards s (discardBuffer why b s) := by
  unfold discardBuffer
  dsimp only
  refine OnlyDiscards.trans (t := bump (ctr 0x000A 10 0) s) ⟨RegsBut.of_regs rfl, rfl⟩ ?_
  split
  · exact ⟨RegsBut.of_regs rfl, rfl⟩
  · split
    · refine OnlyDiscards.trans ?_ (dlNotice_discards _ _ _)
      exact OnlyDiscards.trans (OnlyDiscards.setB _ F.DL_STAT_UP_OVF true (by simp [discardRegs])) ⟨RegsBut.of_regs rfl, rfl⟩
    · refine OnlyDiscards.trans ?_ (dlNotice_discards _ _ _)
      refine OnlyDiscards.trans ?_ (OnlyDiscards.setF _ F.UP_HEAD_HEAD _ (by simp [discardRegs]))
      split
      · exact ⟨RegsBut.of_regs rfl, rfl⟩
      · exact ⟨RegsBut.of_regs rfl, rfl⟩

theorem dropBuf_discards (why k : Nat) (s : State) : OnlyDiscards s (dropBuf why k s) := by
  unfold dropBuf
  generalize getBuf s k = g
  cases g with
  | none => exact OnlyDiscards.rfl'
  | some b =>
    have h : OnlyDiscards s (setBuf k none s) := ⟨RegsBut.of_regs rfl, rfl⟩
    exact h.trans (discardBuffer_discards why b (setBuf k none s))

/-- A write discards the read-ahead that it overlaps and changes nothing else before it is performed. -/
theorem dropOverlap_discards (a n : Nat) (s : State) : OnlyDiscards s (dropOverlap a n s) := by
  have step : ∀ (l : List Nat) (s : State), OnlyDiscards s (l.foldl (fun s k =>
      match getBuf s k with
      | some b => if b.addr < a + n ∧ a < b.addr + 64 then dropBuf 2 k s else s
      | none => s) s) := by
    intro l
    induction l with
    | nil => exact fun s => OnlyDiscards.rfl'
    | cons k l ih =>
      intro s
      refine OnlyDiscards.trans ?_ (ih _)
      dsimp only
      split
      · split
        · exact dropBuf_discards 2 k s
        · exact OnlyDiscards.rfl'
      · exact OnlyDiscards.rfl'
  exact step _ s

/-- Every other register reads after the discard as before. -/
theorem getReg_dropOverlap (a n : Nat) (s : State) (b : Nat) (h : b ∉ discardRegs) : getReg (dropOverlap a n s) b = getReg s b :=
  (dropOverlap_discards a n s).1 b h

end Sys2Proof.Machine
end

