-- ==== Sys2Proof/Laws/PlainWrite.lean ====
section
/-! SUPPORT. A plain register write (R5 to R7): what each field of the register reads afterwards, the counters it raises, and that it
writes no other register. -/

namespace Sys2Proof.Machine

/-- Two fields share no bit. -/
abbrev Fld.apart (f g : Fld) : Prop := f.lo + f.width ≤ g.lo ∨ g.lo + g.width ≤ f.lo

/-- The fields of a register lie within its 32 bits and share none. -/
def fieldsApart : List FieldRow → Bool
  | [] => true
  | r :: rs => decide (r.fld.lo + r.fld.width ≤ 32) && rs.all (fun x => decide (r.fld.apart x.fld)) && fieldsApart rs

/-! Every register of the tables has its fields apart. -/

/-- Every register of a table has its fields apart. -/
def tableApart (rs : List RegRow) : Bool := rs.all (fun r => fieldsApart r.fields)

theorem apart01 : tableApart rows01 = true := by decide
theorem apart02 : tableApart rows02 = true := by decide
theorem apart03 : tableApart rows03 = true := by decide
theorem apart04 : tableApart rows04 = true := by decide
theorem apart05 : tableApart rows05 = true := by decide
theorem apart06 : tableApart rows06 = true := by decide
theorem apart07 : tableApart rows07 = true := by decide
theorem apart08 : tableApart rows08 = true := by decide
theorem apart09 : tableApart rows09 = true := by decide
theorem apart10 : tableApart rows10 = true := by decide
theorem apart11 : tableApart rows11 = true := by decide
theorem apart12 : tableApart rows12 = true := by decide
theorem apart13 : tableApart rows13 = true := by decide
theorem apart14 : tableApart rows14 = true := by decide
theorem apart15 : tableApart rows15 = true := by decide
theorem apart16 : tableApart rows16 = true := by decide
theorem apart17 : tableApart rows17 = true := by decide
theorem apart18 : tableApart rows18 = true := by decide
theorem apart19 : tableApart rows19 = true := by decide

theorem tableApart_append (a b : List RegRow) : tableApart (a ++ b) = (tableApart a && tableApart b) := List.all_append ..

theorem tableApart_nil : tableApart [] = true := by rfl

theorem rowsAt_apart (a : Nat) : tableApart (rowsAt a) = true := by
  simp only [rowsAt, apply_ite tableApart, tableApart_append, tableApart_nil, apart01, apart02, apart03, apart04, apart05, apart06, apart07, apart08, apart09, apart10, apart11, apart12, apart13, apart14, apart15, apart16, apart17, apart18, apart19, Bool.and_self, ite_self]

theorem mem_findIn {rs : List RegRow} {a i j : Nat} {r : RegRow} (h : findIn rs a = some (r, i, j)) : r ∈ rs := by
  induction rs with
  | nil => cases h
  | cons x rs ih =>
    unfold findIn at h
    split at h
    · injection h with h; injection h with h _; exact h ▸ List.mem_cons_self ..
    · exact List.mem_cons_of_mem _ (ih h)

theorem findReg_apart {a i j : Nat} {r : RegRow} (h : findReg a = some (r, i, j)) : fieldsApart r.fields = true :=
  List.all_eq_true.1 (rowsAt_apart a) r (mem_findIn h)

/-! One field's part of a write. -/

/-- The bits of a field that a write leaves. -/
def fieldAfter (sl : Bool) (v w : Word) (r : FieldRow) : Nat :=
  if r.keep0 ∧ r.fld.get v = 0 then r.fld.get w else
  match r.acc with
  | .rw | .rws => r.fld.get v
  | .rwl => if sl then r.fld.get w else r.fld.get v
  | .w1c => r.fld.get (w &&& ~~~v)
  | .w1s => r.fld.get (w ||| v)
  | .ro | .rc | .wo => r.fld.get w

theorem Fld.get_lt (f : Fld) (w : Word) : f.get w < 2 ^ f.width := Nat.mod_lt _ (Nat.two_pow_pos _)

theorem Fld.testBit_get (f : Fld) (w : Word) (i : Nat) : (f.get w).testBit i = (decide (i < f.width) && w.getLsbD (f.lo + i)) := by
  rw [Fld.get, testBit_bitsOf, BitVec.getLsbD]

theorem Fld.get_clear_same (f : Fld) (w v : Word) : f.get (w &&& ~~~(v &&& f.mask)) = f.get (w &&& ~~~v) := by
  apply Nat.eq_of_testBit_eq
  intro i
  simp only [Fld.testBit_get, BitVec.getLsbD_and, BitVec.getLsbD_not, getLsbD_mask]
  by_cases h : i < f.width <;> by_cases h2 : f.lo + i < 32 <;> simp [h, h2]

theorem Fld.get_set_same (f : Fld) (w v : Word) : f.get (w ||| (v &&& f.mask)) = f.get (w ||| v) := by
  apply Nat.eq_of_testBit_eq
  intro i
  simp only [Fld.testBit_get, BitVec.getLsbD_and, BitVec.getLsbD_or, getLsbD_mask]
  by_cases h : i < f.width <;> by_cases h2 : f.lo + i < 32 <;> simp [h, h2] <;>
    (intro h3; have := BitVec.lt_of_getLsbD h3; omega)

theorem Fld.get_clear_ne (f g : Fld) (w v : Word) (h : f.apart g) : g.get (w &&& ~~~(v &&& f.mask)) = g.get w := by
  apply Nat.eq_of_testBit_eq
  intro i
  simp only [Fld.testBit_get, BitVec.getLsbD_and, BitVec.getLsbD_not, getLsbD_mask]
  by_cases hi : i < g.width
  · rw [show decide (f.lo ≤ g.lo + i ∧ g.lo + i < f.lo + f.width) = false from by simp; omega]
    by_cases h2 : g.lo + i < 32
    · simp [h2]
    · have : w.getLsbD (g.lo + i) = false := BitVec.getLsbD_of_ge _ _ (by omega)
      simp [this]
  · simp [hi]

theorem Fld.get_set_ne (f g : Fld) (w v : Word) (h : f.apart g) : g.get (w ||| (v &&& f.mask)) = g.get w := by
  apply Nat.eq_of_testBit_eq
  intro i
  simp only [Fld.testBit_get, BitVec.getLsbD_and, BitVec.getLsbD_or, getLsbD_mask]
  by_cases hi : i < g.width
  · rw [show decide (f.lo ≤ g.lo + i ∧ g.lo + i < f.lo + f.width) = false from by simp; omega]
    simp
  · simp [hi]

theorem writeField_same (sl : Bool) (v w : Word) (r : FieldRow) (h : r.fld.lo + r.fld.width ≤ 32) :
    r.fld.get (writeField sl v w r) = fieldAfter sl v w r := by
  have hm : ∀ x : Word, r.fld.get x % 2 ^ r.fld.width = r.fld.get x := fun x => Nat.mod_eq_of_lt (Fld.get_lt _ _)
  unfold writeField fieldAfter
  split
  · rfl
  · cases r.acc <;> cases sl <;> simp [Fld.get_put_same _ _ _ h, hm, Fld.get_clear_same, Fld.get_set_same]

theorem writeField_ne (sl : Bool) (v w : Word) (r : FieldRow) (g : Fld) (h : r.fld.apart g) :
    g.get (writeField sl v w r) = g.get w := by
  unfold writeField
  split
  · rfl
  · cases r.acc <;> cases sl <;> simp [Fld.get_put_ne _ _ _ _ h, Fld.get_clear_ne _ _ _ _ h, Fld.get_set_ne _ _ _ _ h]

theorem writeFields_ne (sl : Bool) (v : Word) (g : Fld) (rs : List FieldRow) (w : Word) (h : ∀ x ∈ rs, g.apart x.fld) :
    g.get (rs.foldl (writeField sl v) w) = g.get w := by
  induction rs generalizing w with
  | nil => rfl
  | cons r rs ih =>
    rw [List.foldl_cons, ih _ (fun x hx => h x (List.mem_cons_of_mem _ hx))]
    exact writeField_ne _ _ _ _ _ (Or.symm (h r (List.mem_cons_self ..)))

theorem fieldAfter_congr (sl : Bool) (v w u : Word) (r : FieldRow) (h : r.fld.get u = r.fld.get w)
    (h1 : r.fld.get (u &&& ~~~v) = r.fld.get (w &&& ~~~v)) (h2 : r.fld.get (u ||| v) = r.fld.get (w ||| v)) :
    fieldAfter sl v u r = fieldAfter sl v w r := by
  unfold fieldAfter; rw [h, h1, h2]

theorem Fld.get_and_not_congr (f : Fld) {u w : Word} (v : Word) (h : f.get u = f.get w) : f.get (u &&& ~~~v) = f.get (w &&& ~~~v) := by
  apply Nat.eq_of_testBit_eq
  intro i
  have hb := congrArg (fun n => n.testBit i) h
  simp only [Fld.testBit_get] at hb
  simp only [Fld.testBit_get, BitVec.getLsbD_and, ← Bool.and_assoc, hb]

theorem Fld.get_or_congr (f : Fld) {u w : Word} (v : Word) (h : f.get u = f.get w) : f.get (u ||| v) = f.get (w ||| v) := by
  apply Nat.eq_of_testBit_eq
  intro i
  have hb := congrArg (fun n => n.testBit i) h
  simp only [Fld.testBit_get] at hb
  simp only [Fld.testBit_get, BitVec.getLsbD_or, Bool.and_or_distrib_left, hb]

/-- Each field of the word that a plain write leaves. -/
theorem writeFields_get (sl : Bool) (v : Word) (rs : List FieldRow) (w : Word) (ha : fieldsApart rs = true) {r : FieldRow} (hr : r ∈ rs) :
    r.fld.get (rs.foldl (writeField sl v) w) = fieldAfter sl v w r := by
  induction rs generalizing w with
  | nil => cases hr
  | cons x rs ih =>
    simp only [fieldsApart, Bool.and_eq_true, decide_eq_true_eq, List.all_eq_true] at ha
    obtain ⟨⟨h32, hx⟩, hrs⟩ := ha
    rw [List.foldl_cons]
    rcases List.mem_cons.1 hr with rfl | hr
    · rw [writeFields_ne sl v r.fld rs _ hx, writeField_same _ _ _ _ h32]
    · rw [ih _ hrs hr]
      have hn : r.fld.get (writeField sl v w x) = r.fld.get w := writeField_ne _ _ _ _ _ (hx r hr)
      exact fieldAfter_congr _ _ _ _ _ hn (Fld.get_and_not_congr _ _ hn) (Fld.get_or_congr _ _ hn)

/-! The write of a register. -/

/-- Every field of a register after a plain write of it, by the field's access code (R5, R7). -/
theorem getF_plainWrite {a i j : Nat} {r : RegRow} (h : findReg a = some (r, i, j)) (v : Word) (s : State) {f : FieldRow}
    (hf : f ∈ r.fields) : getF (plainWrite a v s) a f.fld = fieldAfter (sealed s) v (getReg s a) f := by
  unfold plainWrite
  simp only [h]
  have hr : (countWrite r.fields (getReg s a) v (rewritten a (setReg s a (r.fields.foldl (writeField (sealed s) v) (getReg s a))))).regs =
      (setReg s a (r.fields.foldl (writeField (sealed s) v) (getReg s a))).regs := by
    unfold countWrite; dsimp only; split <;> split <;> rfl
  rw [getF_congr hr, getF_setReg_same, writeFields_get _ _ _ _ (findReg_apart h) hf]

/-- Every field of a register after a write that its unit takes in part: by its access code, of the word that the unit takes. -/
theorem getF_writeInPart {a i j : Nat} {r : RegRow} (h : findReg a = some (r, i, j)) (w v : Word) (s : State) {f : FieldRow}
    (hf : f ∈ r.fields) : getF (writeInPart a w v s) a f.fld = fieldAfter (sealed s) w (getReg s a) f := by
  unfold writeInPart
  simp only [h]
  have hr : (countWrite r.fields (getReg s a) v (rewritten a (setReg s a (r.fields.foldl (writeField (sealed s) w) (getReg s a))))).regs =
      (setReg s a (r.fields.foldl (writeField (sealed s) w) (getReg s a))).regs := by
    unfold countWrite; dsimp only; split <;> split <;> rfl
  rw [getF_congr hr, getF_setReg_same, writeFields_get _ _ _ _ (findReg_apart h) hf]

/-! Only some registers change. -/

theorem OnlyRegs.rfl' {l : List Nat} {s : State} : OnlyRegs l s s := ⟨RegsBut.rfl', rfl⟩

theorem OnlyRegs.trans {l : List Nat} {s t u : State} (h : OnlyRegs l s t) (g : OnlyRegs l t u) : OnlyRegs l s u := by
  refine ⟨h.1.trans g.1, ?_⟩
  have h2 := h.2
  have g2 := g.2
  rw [g2, h2]

theorem OnlyRegs.mono {l k : List Nat} {s t : State} (h : OnlyRegs l s t) (hs : ∀ a ∈ l, a ∈ k) : OnlyRegs k s t :=
  ⟨h.1.mono hs, h.2⟩

theorem OnlyRegs.setReg (s : State) (a : Nat) (w : Word) : OnlyRegs [a] s (setReg s a w) := ⟨RegsBut.setReg s a w, rfl⟩
theorem OnlyRegs.setF (s : State) (a : Nat) (f : Fld) (v : Nat) : OnlyRegs [a] s (setF s a f v) := ⟨RegsBut.setReg _ _ _, rfl⟩
theorem OnlyRegs.setB (s : State) (a : Nat) (f : Fld) (b : Bool) : OnlyRegs [a] s (setB s a f b) := ⟨RegsBut.setReg _ _ _, rfl⟩
theorem OnlyRegs.bump (l : List Nat) (c : Ctr) (s : State) : OnlyRegs l s (bump c s) := ⟨RegsBut.of_regs rfl, rfl⟩
theorem OnlyRegs.answer (l : List Nat) (r : Resp) (s : State) : OnlyRegs l s (answer r s) := ⟨RegsBut.of_regs rfl, rfl⟩

/-- A plain write writes its own register only; of the rest of the state only counters and parity marks change. -/
theorem plainWrite_only (a : Nat) (v : Word) (s : State) : OnlyRegs [a] s (plainWrite a v s) := by
  unfold plainWrite
  split
  · exact OnlyRegs.rfl'
  · rename_i r i j h
    refine OnlyRegs.trans (OnlyRegs.setReg s a (r.fields.foldl (writeField (sealed s) v) (getReg s a))) ?_
    unfold countWrite
    dsimp only
    split <;> split <;> exact ⟨RegsBut.of_regs rfl, rfl⟩

/-- A write that a unit takes in part writes its own register only. -/
theorem writeInPart_only (a : Nat) (w v : Word) (s : State) : OnlyRegs [a] s (writeInPart a w v s) := by
  unfold writeInPart
  split
  · exact OnlyRegs.rfl'
  · rename_i r i j h
    refine OnlyRegs.trans (OnlyRegs.setReg s a (r.fields.foldl (writeField (sealed s) w) (getReg s a))) ?_
    unfold countWrite
    dsimp only
    split <;> split <;> exact ⟨RegsBut.of_regs rfl, rfl⟩

/-- A write that a unit declines changes counters only. -/
theorem declineWrite_only (l : List Nat) (a : Nat) (v : Word) (s : State) : OnlyRegs l s (declineWrite a v s) := by
  unfold declineWrite
  split
  · exact OnlyRegs.rfl'
  · unfold countWrite
    dsimp only
    split <;> split <;> exact ⟨RegsBut.of_regs rfl, rfl⟩

/-- A declined write leaves every register as it is. -/
@[simp] theorem declineWrite_regs (a : Nat) (v : Word) (s : State) : (declineWrite a v s).regs = s.regs := by
  unfold declineWrite countWrite
  split
  · rfl
  · dsimp only; split <;> split <;> rfl

/-- A declined write counts reserved bits and refusals by the seal only. -/
theorem getCtr_declineWrite (s : State) (a : Nat) (v : Word) (c : Ctr) (h1 : c ≠ ctr 0x0001 0 0) (h2 : c ≠ ctr 0x0001 1 0) :
    getCtr (declineWrite a v s) c = getCtr s c := by
  unfold declineWrite countWrite
  split
  · rfl
  · dsimp only
    split <;> split <;> first | rfl | simp only [sealWr, rsvdWr, getCtr_bump_ne _ h1, getCtr_bump_ne _ h2]

/-- A write taken in part counts reserved bits and refusals by the seal only. -/
theorem getCtr_writeInPart (s : State) (a : Nat) (w v : Word) (c : Ctr) (h1 : c ≠ ctr 0x0001 0 0) (h2 : c ≠ ctr 0x0001 1 0) :
    getCtr (writeInPart a w v s) c = getCtr s c := by
  unfold writeInPart
  split
  · rfl
  · unfold countWrite
    dsimp only
    split <;> split <;> first | rfl | (simp only [sealWr, rsvdWr, getCtr_bump_ne _ h1, getCtr_bump_ne _ h2]; rfl)

/-- A plain write counts reserved bits and refusals by the seal only. -/
theorem getCtr_plainWrite (s : State) (a : Nat) (v : Word) (c : Ctr) (h1 : c ≠ ctr 0x0001 0 0) (h2 : c ≠ ctr 0x0001 1 0) :
    getCtr (plainWrite a v s) c = getCtr s c := by
  unfold plainWrite
  split
  · rfl
  · unfold countWrite
    dsimp only
    split <;> split <;> first | rfl | (simp only [sealWr, rsvdWr, getCtr_bump_ne _ h1, getCtr_bump_ne _ h2]; rfl)

end Sys2Proof.Machine
end

