-- ==== Sys2Proof/Tests/Slice0.lean ====
section
/-! SUPPORT. The tests: a command of ill-formed operands for each check of wellFormed, the examples of the spec, and for the statements a
state and operands that meet the hypotheses of each clause (witness_<statement>_<clause>). -/

set_option maxRecDepth 4000
set_option Elab.async false

namespace Sys2Proof.Machine

/-! Small states and envelopes. -/

/-- Engine 0 runs with an injected word. -/
def engineWith (w : BitVec 16) : State := setF (onEng 0 (fun e => { e with inj := some w }) State.reset) (rEstat 0) F.SCR_ESTAT_STATE 1
/-- Message-bus controller 0 is error active. -/
def busOn : State := setB (setF State.reset (R.MB_STAT 0) F.MB_STAT_STATE 1) (R.MB_CTL 0) F.MB_CTL_INIT false
/-- Controller 0 is sending a frame of object 3. -/
def busSending : State := onMb 0 (fun b => { b with tx := some { obj := 3, frame := { id := 0, ide := false, rtr := false, fdf := false, brs := false, esi := false, dlc := 0, data := [] }, single := false } }) busOn
/-- Object 3 of controller 0 is an enabled transmit object. -/
def busObject : State := setBytes busOn (objAddr 0 3) (leBytes 4 3)
/-- Access table t lets every master do everything. -/
def ringOpen (t : Nat) (s : State) : State := setReg (setReg s (R.AT_W0 t 0) 0x80F00000) (R.AT_W2 t 0) 0xFFFF0000
/-- The node has left quarantine. -/
def joined : State := setB State.reset R.NODE_STAT F.NODE_STAT_QUARANTINE false
/-- An item. -/
def someItem : Item := { cap := 5, inst := 2, code := 1, arg := 7, pri := 0, lost := false, seq := 0, pm := 0 }
/-- Queue 1 is subscribed to a multicast, valid destination and holds an item. -/
def queueBatch : State := setReg (setReg (setPh joined 1 { PhQueue.empty with items := [someItem] }) (R.PH_CFG 1) (F.PH_CFG_SUB.put (getReg joined (R.PH_CFG 1)) 1)) (R.PH_DST 1) (F.PH_DST_MC.put (F.PH_DST_VALID.put 0 1) 1)
/-- A posted write of four bytes at the address a from node 5. -/
def writeEnv (a : BitVec 48) : Envelope := { Envelope.blank with kind := kWriteP, src := 5, tag := 0x800, lenw := 2, addr := a, payload := [4, 0x12345678] }
/-- A read of four bytes at the address a by node 5. -/
def readEnv (k : BitVec 5) (a : BitVec 48) : Envelope := { Envelope.blank with kind := k, src := 5, lenw := 1, addr := a, payload := [4] }
/-- The request of an envelope. -/
def reqOf (e : Envelope) : Request := { env := e, id := requestId e }
/-- Slot 3 is outstanding for channel 1 at node 7, with generation 2. -/
def slotOut : State := setSlot 3 { gen := 2, use := .out (some 1) 7 1 kRead } joined
/-- An answer to slot 3. -/
def answerEnv (k : BitVec 5) (ws : List DWord) : Envelope := { Envelope.blank with kind := k, src := 7, tag := tagOf 3 2, lenw := BitVec.ofNat 6 ws.length, payload := ws }
/-- The bridge performs a request with one piece left. -/
def performing (e : Envelope) (p : Nat × Nat) : State := onBridge (fun b => { b with current := some { env := e, id := requestId e, pieces := [p], done := 0, bytes := [], poison := 0, locked := false } }) (setReg joined R.ARB_PRESENT 0xFFFFFFFF)
/-- A one-cell envelope stored for output 0 and released there in the Urgent class; port 0 is up with credit. -/
def waitingOut : State := setPort (setF (setReg (onOffice (fun f => { f with nextId := 1, stored := [{ id := 0, env := { writeEnv 0x94008 with cls := 1 }, inp := 3, cells := 1, targets := [0], cutThrough := false, whole := true, bad := false, held := [{ addr := 0, refs := 1 }], handed := 1, slot := 0, first := [], left := [], mark := none }], released := tabSet (fun _ => []) f.released 1 [{ id := 0, cell := 0, out := 0, cls := 1, inp := 3, seq := 0, slot := 0, dead := false }] }) joined) R.SO_SLOT 20) (R.PT_STAT 0) F.PT_STAT_STATE 5) 0 { getPort joined 0 with credit := [(1, 100)] }
/-- The same for internal output 3. -/
def waitingIn : State := onOffice (fun f => { f with stored := [{ id := 0, env := { writeEnv 0x94008 with cls := 1 }, inp := 3, cells := 1, targets := [3], cutThrough := false, whole := true, bad := false, held := [{ addr := 0, refs := 1 }], handed := 1, slot := 0, first := [], left := [], mark := none }], released := tabSet (fun _ => []) f.released 13 [{ id := 0, cell := 0, out := 3, cls := 1, inp := 3, seq := 0, slot := 0, dead := false }] }) joined
theorem hcrcOf_hcrc (e : Envelope) (x : BitVec 16) : hcrcOf { e with hcrc := x } = hcrcOf e := by
  unfold hcrcOf hcrcBytes
  have h : (sealWord { e with hcrc := x }).toNat / 2 ^ 16 = (sealWord e).toNat / 2 ^ 16 := by
    unfold sealWord
    simp only [BitVec.toNat_append, Nat.shiftLeft_eq]
    rw [← Nat.shiftRight_eq_div_pow, ← Nat.shiftRight_eq_div_pow, Nat.shiftRight_or_distrib, Nat.shiftRight_or_distrib]
    rw [Nat.shiftRight_eq_div_pow x.toNat, Nat.shiftRight_eq_div_pow e.hcrc.toNat, Nat.div_eq_of_lt x.isLt, Nat.div_eq_of_lt e.hcrc.isLt]
  rw [h]; rfl
theorem headerGood_withCrcs (e : Envelope) (h : (BitVec.ofNat 6 e.payload.length).toNat ≤ 32) : headerGood (withCrcs e) = true := by
  unfold headerGood withCrcs
  simp only [Bool.and_eq_true, decide_eq_true_eq]
  exact ⟨(hcrcOf_hcrc _ _).symm, h⟩
theorem pcrc_withCrcs (e : Envelope) : (withCrcs e).pcrc = pcrcOf (withCrcs e) := rfl
/-- A census message of an OP from port 0, with EPOCH 3 and an index. -/
def censusMsg (op index : Nat) : Envelope := { Envelope.blank with kind := kCensus, cls := 3, lenw := 3, payload := [BitVec.ofNat 64 (op + 3 * 2 ^ 16 + index * 2 ^ 48 + 2 ^ 60), 0, 0] }
/-- A LINK_EVENT that waits to be applied. -/
def linkMsg : Envelope := { Envelope.blank with kind := kLinkEvent, lenw := 2, payload := [0, 0] }
/-- An envelope of a kind with payload words. -/
def plainEnv (k : BitVec 5) (ws : List DWord) : Envelope := { Envelope.blank with kind := k, lenw := BitVec.ofNat 6 ws.length, payload := ws }
/-- Port 0 is up, and its neighbour at index 4 is known to an admitted hub. -/
def timeUp : State := setB (setF joined (R.PT_STAT 0) F.PT_STAT_STATE 5) (R.RT_NBR 0) F.RT_NBR_VALID true
/-- Firing is on, and the entry i of a kind is queued to fire. -/
def firingAt (i kind : Nat) : State := setEntry i (some { pos := 0, ctl := 1 + 32 * kind, period := 0, side := -1, fresh := false, queued := true }) (onTracks (fun x => { x with queue := [{ entry := i, track := 0, pm := 0, pms := [], tick := 0, pos := 0, late := false, forward := true }] }) (setB (setF { State.reset with time := { State.reset.time with ltick := 100 } } R.NODE_STAT F.NODE_STAT_SERVICE_EFF 1) R.WM_CTL F.WM_CTL_EN true))
/-- SHA-256 of the empty string (FIPS 180-4). -/
def shaEmpty : List Byte := [0xe3, 0xb0, 0xc4, 0x42, 0x98, 0xfc, 0x1c, 0x14, 0x9a, 0xfb, 0xf4, 0xc8, 0x99, 0x6f, 0xb9, 0x24, 0x27, 0xae, 0x41, 0xe4, 0x64, 0x9b, 0x93, 0x4c, 0xa4, 0x95, 0x99, 0x1b, 0x78, 0x52, 0xb8, 0x55]
/-- Slot 0 holds a header whose manifest is empty. -/
def emptyManifest : State := setBytes State.reset (slotBase 0) (List.replicate 0x40 0 ++ shaEmpty)
/-- A hub of ring 1 that knows node 0x1001 as present. -/
def routed : State := setReg (setReg joined R.CN_ADDR 0x1002) (R.RT_PRES 0) 2
/-- Slots 0 and 1 hold keys, and part 0 is the part. -/
def keyed : State := { State.reset with regs := (R.ID_PART, 0) :: (R.ID_KEYS, 5) :: [(0x400, 0xEC2EAC82), (0x404, 0x40AC727A), (0x408, 0x8BBD4BBC), (0x40C, 0x62305588), (0x410, 0xACE35507), (0x414, 0x21D1154E), (0x418, 0x4EAB91C4), (0x41C, 0x8F15792), (0x420, 0xA9D15821), (0x424, 0xEB99B197), (0x428, 0x7B72CBFD), (0x42C, 0xBEB877B9), (0x430, 0xF7279F8F), (0x434, 0xCC6C7E5), (0x438, 0xA4BEFB61), (0x43C, 0xE97D0E3F), (0x440, 0x958E461B), (0x444, 0x453A8DEA), (0x448, 0xA2E09695), (0x44C, 0x358A20EB), (0x450, 0xC3CF7861), (0x454, 0xD6A3891C), (0x458, 0xF98B0A59), (0x45C, 0xB0FA23E7), (0x460, 0x685D85B8), (0x464, 0x4F0402A9), (0x468, 0x22E63691), (0x46C, 0x29CFD44E), (0x470, 0xEA07C3A7), (0x474, 0xE015F05), (0x478, 0xF4FFFF2B), (0x47C, 0x892FCCAB)] }
/-- A header that both keys accept, for a firmware of one byte. -/
def signedHeader : List Byte := [68, 76, 70, 49, 1, 0, 1, 0, 9, 0, 0, 0, 0, 0, 0, 0, 64, 116, 0, 1, 8, 1, 0, 0, 1, 0, 0, 0, 0, 1, 0, 0, 8, 0, 0, 0, 0, 0, 0, 0, 0, 0, 0, 0, 0, 0, 0, 0, 0, 0, 0, 0, 0, 0, 0, 0, 0, 0, 0, 0, 0, 0, 0, 0, 175, 85, 112, 245, 161, 129, 11, 122, 247, 140, 175, 75, 199, 10, 102, 15, 13, 245, 30, 66, 186, 249, 29, 77, 229, 178, 50, 141, 224, 232, 61, 252, 110, 52, 11, 156, 255, 179, 122, 152, 156, 165, 68, 230, 187, 120, 10, 44, 120, 144, 29, 63, 179, 55, 56, 118, 133, 17, 163, 6, 23, 175, 160, 29, 110, 52, 11, 156, 255, 179, 122, 152, 156, 165, 68, 230, 187, 120, 10, 44, 120, 144, 29, 63, 179, 55, 56, 118, 133, 17, 163, 6, 23, 175, 160, 29, 110, 52, 11, 156, 255, 179, 122, 152, 156, 165, 68, 230, 187, 120, 10, 44, 120, 144, 29, 63, 179, 55, 56, 118, 133, 17, 163, 6, 23, 175, 160, 29, 101, 62, 82, 224, 88, 140, 213, 165, 3, 228, 45, 21, 52, 213, 172, 107, 171, 165, 136, 156, 45, 84, 122, 4, 72, 239, 203, 7, 137, 119, 183, 230, 101, 62, 82, 224, 88, 140, 213, 165, 3, 228, 45, 21, 52, 213, 172, 107, 171, 165, 136, 156, 45, 84, 122, 4, 72, 239, 203, 7, 137, 119, 183, 230]
/-- Slot A of the flash holds that image. -/
def imaged : State := { keyed with mem :=
  [(0x10100000, 0x44), (0x10100001, 0x4C), (0x10100002, 0x46), (0x10100003, 0x31), (0x10100004, 0x1), (0x10100005, 0x0), (0x10100006, 0x1), (0x10100007, 0x0), (0x10100008, 0x9), (0x10100009, 0x0), (0x1010000A, 0x0), (0x1010000B, 0x0), (0x1010000C, 0x0), (0x1010000D, 0x0), (0x1010000E, 0x0), (0x1010000F, 0x0), (0x10100010, 0x40), (0x10100011, 0x74), (0x10100012, 0x0), (0x10100013, 0x1), (0x10100014, 0x8), (0x10100015, 0x1), (0x10100016, 0x0), (0x10100017, 0x0), (0x10100018, 0x1), (0x10100019, 0x0), (0x1010001A, 0x0), (0x1010001B, 0x0), (0x1010001C, 0x0), (0x1010001D, 0x1), (0x1010001E, 0x0), (0x1010001F, 0x0), (0x10100020, 0x8), (0x10100021, 0x0), (0x10100022, 0x0), (0x10100023, 0x0), (0x10100024, 0x0), (0x10100025, 0x0), (0x10100026, 0x0), (0x10100027, 0x0), (0x10100028, 0x0), (0x10100029, 0x0), (0x1010002A, 0x0), (0x1010002B, 0x0), (0x1010002C, 0x0), (0x1010002D, 0x0), (0x1010002E, 0x0), (0x1010002F, 0x0), (0x10100030, 0x0), (0x10100031, 0x0), (0x10100032, 0x0), (0x10100033, 0x0), (0x10100034, 0x0), (0x10100035, 0x0), (0x10100036, 0x0), (0x10100037, 0x0), (0x10100038, 0x0), (0x10100039, 0x0), (0x1010003A, 0x0), (0x1010003B, 0x0), (0x1010003C, 0x0), (0x1010003D, 0x0), (0x1010003E, 0x0), (0x1010003F, 0x0)] ++
  [(0x10100040, 0xAF), (0x10100041, 0x55), (0x10100042, 0x70), (0x10100043, 0xF5), (0x10100044, 0xA1), (0x10100045, 0x81), (0x10100046, 0xB), (0x10100047, 0x7A), (0x10100048, 0xF7), (0x10100049, 0x8C), (0x1010004A, 0xAF), (0x1010004B, 0x4B), (0x1010004C, 0xC7), (0x1010004D, 0xA), (0x1010004E, 0x66), (0x1010004F, 0xF), (0x10100050, 0xD), (0x10100051, 0xF5), (0x10100052, 0x1E), (0x10100053, 0x42), (0x10100054, 0xBA), (0x10100055, 0xF9), (0x10100056, 0x1D), (0x10100057, 0x4D), (0x10100058, 0xE5), (0x10100059, 0xB2), (0x1010005A, 0x32), (0x1010005B, 0x8D), (0x1010005C, 0xE0), (0x1010005D, 0xE8), (0x1010005E, 0x3D), (0x1010005F, 0xFC), (0x10100060, 0x6E), (0x10100061, 0x34), (0x10100062, 0xB), (0x10100063, 0x9C), (0x10100065, 0xB3), (0x10100066, 0x7A), (0x10100067, 0x98), (0x10100068, 0x9C), (0x10100069, 0xA5), (0x1010006A, 0x44), (0x1010006B, 0xE6), (0x1010006C, 0xBB), (0x1010006D, 0x78), (0x1010006E, 0xA), (0x1010006F, 0x2C), (0x10100070, 0x78), (0x10100071, 0x90), (0x10100072, 0x1D), (0x10100073, 0x3F), (0x10100074, 0xB3), (0x10100075, 0x37), (0x10100076, 0x38), (0x10100077, 0x76), (0x10100078, 0x85), (0x10100079, 0x11), (0x1010007A, 0xA3), (0x1010007B, 0x6), (0x1010007C, 0x17), (0x1010007D, 0xAF), (0x1010007E, 0xA0), (0x1010007F, 0x1D), (0x10100080, 0x6E)] ++
  [(0x10100081, 0x34), (0x10100082, 0xB), (0x10100083, 0x9C), (0x10100085, 0xB3), (0x10100086, 0x7A), (0x10100087, 0x98), (0x10100088, 0x9C), (0x10100089, 0xA5), (0x1010008A, 0x44), (0x1010008B, 0xE6), (0x1010008C, 0xBB), (0x1010008D, 0x78), (0x1010008E, 0xA), (0x1010008F, 0x2C), (0x10100090, 0x78), (0x10100091, 0x90), (0x10100092, 0x1D), (0x10100093, 0x3F), (0x10100094, 0xB3), (0x10100095, 0x37), (0x10100096, 0x38), (0x10100097, 0x76), (0x10100098, 0x85), (0x10100099, 0x11), (0x1010009A, 0xA3), (0x1010009B, 0x6), (0x1010009C, 0x17), (0x1010009D, 0xAF), (0x1010009E, 0xA0), (0x1010009F, 0x1D), (0x101000A0, 0x6E), (0x101000A1, 0x34), (0x101000A2, 0xB), (0x101000A3, 0x9C), (0x101000A5, 0xB3), (0x101000A6, 0x7A), (0x101000A7, 0x98), (0x101000A8, 0x9C), (0x101000A9, 0xA5), (0x101000AA, 0x44), (0x101000AB, 0xE6), (0x101000AC, 0xBB), (0x101000AD, 0x78), (0x101000AE, 0xA), (0x101000AF, 0x2C), (0x101000B0, 0x78), (0x101000B1, 0x90), (0x101000B2, 0x1D), (0x101000B3, 0x3F), (0x101000B4, 0xB3), (0x101000B5, 0x37), (0x101000B6, 0x38), (0x101000B7, 0x76), (0x101000B8, 0x85), (0x101000B9, 0x11), (0x101000BA, 0xA3), (0x101000BB, 0x6), (0x101000BC, 0x17), (0x101000BD, 0xAF), (0x101000BE, 0xA0), (0x101000BF, 0x1D), (0x101000C0, 0x65), (0x101000C1, 0x3E), (0x101000C2, 0x52)] ++
  [(0x101000C3, 0xE0), (0x101000C4, 0x58), (0x101000C5, 0x8C), (0x101000C6, 0xD5), (0x101000C7, 0xA5), (0x101000C8, 0x3), (0x101000C9, 0xE4), (0x101000CA, 0x2D), (0x101000CB, 0x15), (0x101000CC, 0x34), (0x101000CD, 0xD5), (0x101000CE, 0xAC), (0x101000CF, 0x6B), (0x101000D0, 0xAB), (0x101000D1, 0xA5), (0x101000D2, 0x88), (0x101000D3, 0x9C), (0x101000D4, 0x2D), (0x101000D5, 0x54), (0x101000D6, 0x7A), (0x101000D7, 0x4), (0x101000D8, 0x48), (0x101000D9, 0xEF), (0x101000DA, 0xCB), (0x101000DB, 0x7), (0x101000DC, 0x89), (0x101000DD, 0x77), (0x101000DE, 0xB7), (0x101000DF, 0xE6), (0x101000E0, 0x65), (0x101000E1, 0x3E), (0x101000E2, 0x52), (0x101000E3, 0xE0), (0x101000E4, 0x58), (0x101000E5, 0x8C), (0x101000E6, 0xD5), (0x101000E7, 0xA5), (0x101000E8, 0x3), (0x101000E9, 0xE4), (0x101000EA, 0x2D), (0x101000EB, 0x15), (0x101000EC, 0x34), (0x101000ED, 0xD5), (0x101000EE, 0xAC), (0x101000EF, 0x6B), (0x101000F0, 0xAB), (0x101000F1, 0xA5), (0x101000F2, 0x88), (0x101000F3, 0x9C), (0x101000F4, 0x2D), (0x101000F5, 0x54), (0x101000F6, 0x7A), (0x101000F7, 0x4), (0x101000F8, 0x48), (0x101000F9, 0xEF), (0x101000FA, 0xCB), (0x101000FB, 0x7), (0x101000FC, 0x89), (0x101000FD, 0x77), (0x101000FE, 0xB7), (0x101000FF, 0xE6), (0x10100400, 0x0), (0x10100500, 0x0), (0x10100501, 0x0)] ++
  [(0x10100502, 0x0), (0x10100503, 0x0), (0x10100504, 0x0), (0x10100505, 0x0), (0x10100506, 0x0), (0x10100507, 0x0)] }
/-- The boot has run and a manifest is being applied, after n PERSIST records. -/
def applyingAt (n : Nat) : State := onUpd (fun u => { u with booted := true, apply := { index := 0, persists := n, configs := 0, ended := false } }) State.reset
/-- An update session in a state, for the image of signedHeader. -/
def updating (st : Nat) : State := onUpd (fun u => { u with session := some { num := 1, header := signedHeader, erased := [0], done := [], st := st } }) State.reset
/-- The public key of slot 1 for the token. -/
def tokenWords : List Word := [0xC081AFC3, 0x3558A91D, 0x3CF9DB42, 0xA1CECCB9, 0x4C992549, 0x9120D1ED, 0x5EB53C5B, 0x3469A279, 0xC662827A, 0xAE3E0C36, 0xD893A9ED, 0x43821269, 0x4D9996A4, 0xDEC7F1B3, 0xCA37329D, 0xCCBC31C2]
/-- Both halves of a token that it accepts. -/
def tokenSig : BitVec 256 := 0xb30a90a58df583bd13a218c51a961b4d1032adea9b15e8b2acd5bff2d08b62e8
/-- The monitor has printed the nonce of the token. -/
def tokenAt : State := onMon (fun m => { m with nonce := some 2 }) { State.reset with regs := (R.ID_KEYS, 5) :: (R.ID_SERIAL_LO, 0) :: (List.range 16).map (fun i => (0x440 + 4 * i, tokenWords.getD i 0)) }

/-! Every check of wellFormed refuses. -/

theorem test_ill_registerWrite : wellFormed (.registerWrite (.loc 0) 0x10000 3 0) = false := by decide
theorem test_ill_wideLoRead : wellFormed (.wideLoRead (.loc 0) 0x10000) = false := by decide
theorem test_ill_wideHiWrite : wellFormed (.wideHiWrite (.loc 0) 0x10000 0) = false := by decide
theorem test_ill_wideLoWrite : wellFormed (.wideLoWrite (.loc 0) 0x10000 0) = false := by decide
theorem test_ill_programStoreWrite : wellFormed (.programStoreWrite (.loc 0) 0 0x40 2 0) = false := by decide
theorem test_ill_frameReceived : wellFormed (.frameReceived 0 { id := 0, ide := false, rtr := true, fdf := true, brs := false, esi := false, dlc := 0, data := [] } 0 false) = false := by decide
theorem test_ill_soResWrite : wellFormed (.soResWrite (.loc 0) 0x10000 0) = false := by decide
theorem test_ill_envelopeReceived : wellFormed (.envelopeReceived 0 { Envelope.blank with lenw := 1 } 0 0 0) = false := by decide
theorem test_ill_stamp : wellFormed (.stamp 0 0x99) = false := by decide
theorem test_ill_audit : wellFormed (.audit 0 0x55) = false := by decide
theorem test_ill_train : wellFormed (.train 0 0x55) = false := by decide
theorem test_ill_monScribeLoad : wellFormed (.monScribeLoad 0 32 []) = false := by decide
theorem test_ill_busFrame : wellFormed (.busFrame { Envelope.blank with kind := kWriteP, lenw := 3 }) = false := by decide
theorem test_ill_writeP : wellFormed (.writeP { Envelope.blank with kind := kWriteP, lenw := 3 }) = false := by decide
theorem test_ill_writeA : wellFormed (.writeA { Envelope.blank with kind := kWriteP, lenw := 3 }) = false := by decide
theorem test_ill_read : wellFormed (.read { Envelope.blank with kind := kWriteP, lenw := 3 }) = false := by decide
theorem test_ill_lockRead : wellFormed (.lockRead { Envelope.blank with kind := kWriteP, lenw := 3 }) = false := by decide
theorem test_ill_unlockWrite : wellFormed (.unlockWrite { Envelope.blank with kind := kWriteP, lenw := 3 }) = false := by decide
theorem test_ill_writeAck : wellFormed (.writeAck { Envelope.blank with kind := kWriteP, lenw := 3 }) = false := by decide
theorem test_ill_readData : wellFormed (.readData { Envelope.blank with kind := kWriteP, lenw := 3 }) = false := by decide
theorem test_ill_ndn : wellFormed (.ndn { Envelope.blank with kind := kWriteP, lenw := 3 }) = false := by decide
theorem test_ill_linkEvent : wellFormed (.linkEvent 0 { Envelope.blank with kind := kWriteP, lenw := 3 }) = false := by decide
theorem test_ill_claim : wellFormed (.claim 0 { Envelope.blank with kind := kWriteP, lenw := 3 }) = false := by decide
theorem test_ill_number : wellFormed (.number 0 { Envelope.blank with kind := kWriteP, lenw := 3 } false) = false := by decide
theorem test_ill_censusReply : wellFormed (.censusReply 0 { Envelope.blank with kind := kWriteP, lenw := 3 }) = false := by decide
theorem test_ill_commit : wellFormed (.commit 0 { Envelope.blank with kind := kWriteP, lenw := 3 }) = false := by decide
theorem test_ill_neighbour : wellFormed (.neighbour 0 { Envelope.blank with kind := kWriteP, lenw := 3 }) = false := by decide
theorem test_ill_delayProbe : wellFormed (.delayProbe 0 { Envelope.blank with kind := kWriteP, lenw := 3 } 0 0) = false := by decide
theorem test_ill_delayReply : wellFormed (.delayReply 0 { Envelope.blank with kind := kWriteP, lenw := 3 } 0 0) = false := by decide
theorem test_ill_beacon : wellFormed (.beacon 0 { Envelope.blank with kind := kWriteP, lenw := 3 } 0 0) = false := by decide
theorem test_ill_cyclic : wellFormed (.cyclic { Envelope.blank with kind := kWriteP, lenw := 3 }) = false := by decide
theorem test_ill_trackSample : wellFormed (.trackSample { Envelope.blank with kind := kWriteP, lenw := 3 }) = false := by decide
theorem test_ill_dpxStep : wellFormed (.dpxStep { Envelope.blank with kind := kWriteP, lenw := 3 } false 0 0) = false := by decide
theorem test_ill_dpxState : wellFormed (.dpxState { Envelope.blank with kind := kWriteP, lenw := 3 } false) = false := by decide
theorem test_ill_dpxFrame : wellFormed (.dpxFrame { Envelope.blank with kind := kWriteP, lenw := 3 } false) = false := by decide
theorem test_ill_folioHeader : wellFormed (.folioHeader 0 { Envelope.blank with kind := kWriteP, lenw := 3 }) = false := by decide
theorem test_ill_folioPart : wellFormed (.folioPart 0 { Envelope.blank with kind := kWriteP, lenw := 3 }) = false := by decide
theorem test_ill_folioQuery : wellFormed (.folioQuery 0 { Envelope.blank with kind := kWriteP, lenw := 3 }) = false := by decide
theorem test_ill_snapshotMark : wellFormed (.snapshotMark { Envelope.blank with kind := kWriteP, lenw := 3 }) = false := by decide
theorem test_ill_monitorOpen : wellFormed (.monitorOpen { Envelope.blank with kind := kWriteP, lenw := 3 }) = false := by decide
theorem test_ill_monitorLine : wellFormed (.monitorLine { Envelope.blank with kind := kWriteP, lenw := 3 }) = false := by decide
theorem test_ill_monitorOutput : wellFormed (.monitorOutput { Envelope.blank with kind := kWriteP, lenw := 3 }) = false := by decide
theorem test_ill_monitorDone : wellFormed (.monitorDone { Envelope.blank with kind := kWriteP, lenw := 3 }) = false := by decide
theorem test_ill_monitorClose : wellFormed (.monitorClose { Envelope.blank with kind := kWriteP, lenw := 3 }) = false := by decide
theorem test_ill_folioAck : wellFormed (.folioAck 0 { Envelope.blank with kind := kWriteP, lenw := 3 }) = false := by decide
theorem test_long_monitor_line : wellFormed (.monScribeLoad 0 0 (List.replicate 26 0)) = false := by decide
theorem test_longest_monitor_line : wellFormed (.monScribeLoad 0 0 (List.replicate 25 0)) = true := by decide

/-! The spec's examples. -/

/-- The WRITE_ACK of the example of chapter 10. -/
def ackEnv : Envelope :=
  { Envelope.blank with cls := 1, kind := kWriteAck, dst := 0x103A, src := 0x12C0, hops := 0xFFF, tag := 0x00E, addr := 0x51510, stamp := 0x2A05F200 }
theorem test_route_word : routeWord ackEnv = 0x46103A12C0FFF000 := by decide
theorem test_transaction_word : transWord ackEnv = 0x00E0000000051510 := by decide
theorem test_hcrc_bytes : hcrcBytes ackEnv = [0x00, 0xF0, 0xFF, 0xC0, 0x12, 0x3A, 0x10, 0x46, 0x10, 0x15, 0x05, 0x00, 0x00, 0x00, 0xE0, 0x00, 0x00, 0x00, 0x00, 0xF2, 0x05, 0x2A] := by decide
theorem test_sha256_empty : Crypto.sha256 [] = shaEmpty := by decide +kernel
theorem test_empty_pcrc : pcrcOf ackEnv = 0 := by decide
/-- The bridge's first counter is counter 248 (the example of chapter 19). -/
theorem test_counter_248 : registerIndex (ctr 0x000A 0 0) = 248 := by decide
/-- The requests of a queue are taken in order. -/
theorem test_two_steps : step { State.reset with pending := [.unlockLockoutEnd, .arrayCopyDone] } = .next { State.reset with pending := [.arrayCopyDone] } := rfl

/-! Witnesses. -/
theorem witness_ArbiterRanksAtReset_1 : (0 : Nat) < 24 ∧ (23 : Nat) < 24 := by decide +kernel
theorem witness_FlushEmptiesTheQueue_1 : let l : PopLatch := { tag := masterId State.reset (.loc 0), w1 := 1, w2 := 2, w3 := 3, read1 := true, read2 := false, read3 := false, isItem := true, bad := 0 }; let s := setPh State.reset 1 { PhQueue.empty with latch := some l }; let t := flushQueue 1 s; Takes s (.loc 0) (R.PH_CTL (1 : Fin 32)) ∧ (getPh s (1 : Fin 32)).latch = some l ∧ l.isItem = true ∧ masterId t (.loc 0) = l.tag ∧ Reads t (.loc 0) (R.PH_ITEM (1 : Fin 32) (2 : Fin 3)) ∧ l.read2 = false ∧ l.read3 = false := by decide +kernel
theorem witness_BootFailuresAreCounted_1a : let s := setF State.reset R.UPD_BOOT F.UPD_BOOT_BOOTFAIL 3; s.upd.booted = false ∧ clocked s = true ∧ flashRefused (some (25, true)) = false ∧ 4 ≤ min 15 (getF s R.UPD_BOOT F.UPD_BOOT_BOOTFAIL + 1) := by decide +kernel
theorem witness_BootFailuresAreCounted_1b : let s := setF State.reset R.UPD_BOOT F.UPD_BOOT_MODE 3; s.upd.booted = false ∧ clocked s = true ∧ flashRefused (some (25, true)) = false ∧ min 15 (getF s R.UPD_BOOT F.UPD_BOOT_BOOTFAIL + 1) < 4 ∧ (chooseByMode (getF s R.UPD_BOOT F.UPD_BOOT_MODE) s).1 = none := by decide +kernel
theorem witness_BootFailuresAreCounted_1c : let s := setF imaged R.UPD_BOOT F.UPD_BOOT_MODE 1; s.upd.booted = false ∧ clocked s = true ∧ flashRefused (some (25, true)) = false ∧ min 15 (getF s R.UPD_BOOT F.UPD_BOOT_BOOTFAIL + 1) < 4 ∧ (chooseByMode (getF s R.UPD_BOOT F.UPD_BOOT_MODE) s).1 = some (0, false) := by decide +kernel
theorem witness_BootFailuresAreCounted_2 : let s := setF State.reset R.NODE_CTL F.NODE_CTL_SERVICE 1; ttRunning s = false ∧ requestedMode s = 1 ∧ serviceMode s ≠ 1 := by decide +kernel
theorem witness_EveryStepKeepsTheMemoryForm_1 : let s := { busObject with pending := [.arrayCopyDone] }; busObject.mem ≠ [] ∧ Memory.wf s ∧ ∃ t, step s = .next t := ⟨by decide, by decide, _, rfl⟩
theorem witness_CommandsLeaveTheQueueBehindThem_1 : let s : State := { State.reset with pending := [.monId] }; ∃ t, exec .arrayCopyDone s = .next t := ⟨_, rfl⟩
theorem witness_CommandsLeaveTheQueueBehindThem_2 : let s : State := { State.reset with pending := [.arrayCopyDone, .cycleBoundary] }; ∃ t, step s = .next t := ⟨_, rfl⟩
theorem witness_StepTakesTheFrontOfTheQueue_1 : ({ State.reset with pending := [.monId, .cycleBoundary] } : State).pending = .monId :: [.cycleBoundary] := by decide +kernel
theorem witness_StepTakesTheFrontOfTheQueue_2 : State.reset.pending = [] := by decide +kernel
theorem witness_StepTakesTheFrontOfTheQueue_3 : (nodeReset F.NODE_RST_CAUSE_PIN (onNode (fun x => { x with resetL := true }) State.reset)).pending = [] ∧ clocked (nodeReset F.NODE_RST_CAUSE_PIN (onNode (fun x => { x with resetL := true }) State.reset)) = false := by decide +kernel
theorem witness_RegisterWriteFollowsAccessCodes_1 : Takes State.reset (.loc 0) (0x94008 : Word).toNat := by decide +kernel
theorem witness_RegisterWriteFollowsAccessCodes_2 : Takes State.reset (.loc 0) (0x94008 : Word).toNat ∧ regionOf (0x94008 : Word).toNat = .register := by decide +kernel
theorem witness_WideRegistersLatchAndStage_1 : Reads State.reset (.loc 0) (0xA060C : Word).toNat ∧ regionOf (0xA060C : Word).toNat = .register ∧ (∃ r i j, findReg (0xA060C : Word).toNat = some (r, i, j) ∧ r.base ∉ ownReads) ∧ (∃ w, findWide (0xA060C : Word).toNat = some (w, 0, (0xA060C : Word).toNat) ∧ w.kind ≠ .wo) := ⟨by decide, by decide, ⟨_, _, _, rfl, by decide⟩, ⟨_, rfl, by decide⟩⟩
theorem witness_WideRegistersLatchAndStage_2 : Takes State.reset (.loc 0) (0xA0618 + 4 : Word).toNat ∧ regionOf (0xA0618 + 4 : Word).toNat = .register := by decide +kernel
theorem witness_WideRegistersLatchAndStage_3 : Takes State.reset (.loc 0) (0xA0618 : Word).toNat ∧ (∃ w, findWide (0xA0618 : Word).toNat = some (w, 0, (0xA0618 : Word).toNat) ∧ w.kind = .rw) := ⟨by decide, ⟨_, rfl, rfl⟩⟩
theorem witness_NodeControlWritesRequestModeAndSeal_1 : Takes State.reset (.loc 0) R.NODE_CTL ∧ resetKeyed 2 = false ∧ transitionOk (.loc 0) (dropOverlap R.NODE_CTL 4 State.reset) (F.NODE_CTL_SERVICE.get 2) = true := by decide +kernel
theorem witness_NodeControlWritesRequestModeAndSeal_2 : Takes State.reset (.loc 0) R.NODE_CTL ∧ resetKeyed 1 = false ∧ F.NODE_CTL_SERVICE.get 1 ≠ serviceMode (dropOverlap R.NODE_CTL 4 State.reset) ∧ transitionOk (.loc 0) (dropOverlap R.NODE_CTL 4 State.reset) (F.NODE_CTL_SERVICE.get 1) = false := by decide +kernel
theorem witness_NodeControlWritesRequestModeAndSeal_3 : Takes State.reset (.loc 0) R.NODE_CTL ∧ resetKeyed (F.NODE_CTL_SEAL.put 0 1) = false := by decide +kernel
theorem witness_NodeControlWritesRequestModeAndSeal_4 : Takes State.reset (.loc 0) R.NODE_CTL ∧ F.NODE_CTL_KEY.get 0x5A000008 = 0x5A := by decide +kernel
theorem witness_NodeControlWritesRequestModeAndSeal_5 : ttRunning (setF State.reset R.NODE_CTL F.NODE_CTL_SERVICE 1) = false ∧ requestedMode (setF State.reset R.NODE_CTL F.NODE_CTL_SERVICE 1) ≠ serviceMode (setF State.reset R.NODE_CTL F.NODE_CTL_SERVICE 1) := by decide +kernel
theorem witness_NodeControlWritesRequestModeAndSeal_6 : requestedMode State.reset = serviceMode State.reset := by decide +kernel
theorem witness_NodeResetRestoresTheDigitalDie_1 : F.NODE_RST_CAUSE_WDOG ∈ [F.NODE_RST_CAUSE_PIN, F.NODE_RST_CAUSE_SOFT, F.NODE_RST_CAUSE_WDOG, F.NODE_RST_CAUSE_CLK] := by decide +kernel
theorem witness_NodeResetRestoresTheDigitalDie_2 : Memory.wf State.reset := by decide +kernel
theorem witness_ResetCausesAndClocks_3 : Takes State.reset (.loc 0) R.NODE_WDOG := by decide +kernel
theorem witness_ResetCausesAndClocks_4 : clocked { State.reset with time := { State.reset.time with ltick := 2 ^ 40 } } = true ∧ getB { State.reset with time := { State.reset.time with ltick := 2 ^ 40 } } R.NODE_WDOG F.NODE_WDOG_EN = true ∧ wdogTicks { State.reset with time := { State.reset.time with ltick := 2 ^ 40 } } ≤ (2 ^ 40 + 2 ^ 64 - State.reset.node.wdogFrom) % 2 ^ 64 := by decide +kernel
theorem witness_ResetCausesAndClocks_5 : (State.reset.time.ltick + 2 ^ 64 - State.reset.node.wdogFrom) % 2 ^ 64 < wdogTicks State.reset := by decide +kernel
theorem witness_ResetCausesAndClocks_7 : ({ State.reset with node := { State.reset.node with clkHold := true } } : State).node.clkHold = true := by decide +kernel
theorem witness_ResetCausesAndClocks_8 : clocked (onNode (fun x => { x with good := [(0, 4), (1, 3), (2, 3), (3, 4)] }) State.reset) = true ∧ offBy 4 0 312500 = false ∧ offBy 4 1 250000 = false ∧ offBy 4 2 415000 = false ∧ offBy 4 3 80000 = false ∧ (∀ i, i < 4 → 3 ≤ tabGet (fun _ => 0) (onNode (fun x => { x with good := [(0, 4), (1, 3), (2, 3), (3, 4)] }) State.reset).node.good i) := by decide +kernel
theorem witness_ResetCausesAndClocks_9 : clocked State.reset = true := by decide +kernel
theorem witness_ResetCausesAndClocks_10 : offBy 5 2 900000 = true := by decide +kernel
theorem witness_UnitResetAndSupplyFaults_1 : Takes State.reset (.loc 0) R.NODE_URST ∧ F.NODE_URST_INST.get 0x00020004 < resettable (F.NODE_URST_CAP.get 0x00020004) ∧ inUnitReset (setB (plainWrite R.NODE_URST (F.NODE_URST_HOLD.put 0x00020004 1) (dropOverlap R.NODE_URST 4 State.reset)) R.NODE_URST F.NODE_URST_HOLD false) (F.NODE_URST_CAP.get 0x00020004) (F.NODE_URST_INST.get 0x00020004) = false := by decide +kernel
theorem witness_UnitResetAndSupplyFaults_3 : Takes (onNode (fun x => { x with unitReset := [(4, 2)] }) State.reset) (.loc 0) R.NODE_URST ∧ F.NODE_URST_INST.get 0x00020004 < resettable (F.NODE_URST_CAP.get 0x00020004) ∧ inUnitReset (setB (plainWrite R.NODE_URST (F.NODE_URST_HOLD.put 0x00020004 0) (dropOverlap R.NODE_URST 4 (onNode (fun x => { x with unitReset := [(4, 2)] }) State.reset))) R.NODE_URST F.NODE_URST_HOLD false) (F.NODE_URST_CAP.get 0x00020004) (F.NODE_URST_INST.get 0x00020004) = true := by decide +kernel
theorem witness_UnitResetAndSupplyFaults_4 : Takes State.reset (.loc 0) R.NODE_URST ∧ resettable (F.NODE_URST_CAP.get 0x00000002) ≤ F.NODE_URST_INST.get 0x00000002 := by decide +kernel
theorem witness_UnitResetAndSupplyFaults_5 : let s := setF State.reset (R.BANK_CFG 3) F.BANK_CFG_VDDIO 2; supplyFault s (3 : Fin 16) = false ∧ getF s (R.BANK_CFG (3 : Fin 16)) F.BANK_CFG_VDDIO ≠ 0 := by decide +kernel
theorem witness_UnitResetAndSupplyFaults_6 : supplyFault State.reset (3 : Fin 16) = true ∨ getF State.reset (R.BANK_CFG (3 : Fin 16)) F.BANK_CFG_VDDIO = 0 := by decide +kernel
theorem witness_UnitResetAndSupplyFaults_7 : supplyMismatch (setB State.reset (R.BANK_STAT 3) F.BANK_STAT_VFAULT true) (3 : Fin 16) = false ∧ supplyFault (setB State.reset (R.BANK_STAT 3) F.BANK_STAT_VFAULT true) (3 : Fin 16) = true := by decide +kernel
theorem witness_UnitResetAndSupplyFaults_8 : let s := setF State.reset (R.BANK_STAT 3) F.BANK_STAT_VLEVEL 2; Takes s (.loc 0) (R.BANK_CFG (3 : Fin 16)) ∧ F.BANK_CFG_VDDIO.get 2 ≠ 0 ∧ F.BANK_CFG_VDDIO.get 2 = getF (dropOverlap (R.BANK_CFG (3 : Fin 16)) 4 s) (R.BANK_STAT (3 : Fin 16)) F.BANK_STAT_VLEVEL := by decide +kernel
theorem witness_UnitResetAndSupplyFaults_9 : getF State.reset (R.BANK_CFG 3) F.BANK_CFG_VDDIO = 0 ∧ getF (setF State.reset (R.BANK_CFG 3) F.BANK_CFG_VDDIO 2) (R.BANK_CFG 3) F.BANK_CFG_VDDIO = 2 := by decide +kernel
theorem witness_PinsAndCaptureRecords_1a : let s := onBank 3 (fun k => { k with valid := true }) State.reset; (getBank s (3 : Fin 16)).strapped = false ∧ (getBank s (3 : Fin 16)).valid = true := by decide +kernel
theorem witness_PinsAndCaptureRecords_1b : (getBank State.reset (3 : Fin 16)).strapped = true ∨ (getBank State.reset (3 : Fin 16)).valid = false := by decide +kernel
theorem witness_PinsAndCaptureRecords_2 : Takes State.reset (.loc 0) (R.PIN_CFG (5 : Fin 256)) ∧ F.PIN_CFG_FUNC.get 11 ≠ pinFunc (dropOverlap (R.PIN_CFG 5) 4 State.reset) (5 : Fin 256) ∧ claimRefused (dropOverlap (R.PIN_CFG 5) 4 State.reset) (5 : Fin 256) (F.PIN_CFG_FUNC.get 11) = true := by decide +kernel
theorem witness_PinsAndCaptureRecords_3 : Takes State.reset (.loc 0) (R.PIN_CFG (5 : Fin 256)) ∧ F.PIN_CFG_FUNC.get 0 = pinFunc (dropOverlap (R.PIN_CFG 5) 4 State.reset) (5 : Fin 256) := by decide +kernel
theorem witness_PinsAndCaptureRecords_4a : let s := setReg State.reset (R.PIN_CFG 5) 1; let y := lineRose (5 : Fin 256) true 0 (showRaw (5 : Fin 256) (onPin 5 (fun c => { c with net := true }) s)); (getPin s (5 : Fin 256)).net ≠ true ∧ isInput y (5 : Fin 256) = true ∧ getF y (R.PIN_CFG 5) F.PIN_CFG_DEB = 0 := by decide +kernel
theorem witness_PinsAndCaptureRecords_4b : let s := setF (setReg State.reset (R.PIN_CFG 5) 1) (R.PIN_CFG 5) F.PIN_CFG_DEB 3; let y := lineRose (5 : Fin 256) true 0 (showRaw (5 : Fin 256) (onPin 5 (fun c => { c with net := true }) s)); (getPin s (5 : Fin 256)).net ≠ true ∧ isInput y (5 : Fin 256) = true ∧ getF y (R.PIN_CFG 5) F.PIN_CFG_DEB ≠ 0 ∧ (getPin y 5).episode = none ∧ filteredLevel y 5 ≠ (getPin y 5).own := by decide +kernel
theorem witness_PinsAndCaptureRecords_4c : let s := setReg State.reset (R.PIN_CFG 5) 8; let y := lineRose (5 : Fin 256) true 0 (showRaw (5 : Fin 256) (onPin 5 (fun c => { c with net := true }) s)); (getPin s (5 : Fin 256)).net ≠ true ∧ isInput y (5 : Fin 256) = false := by decide +kernel
theorem witness_PinsAndCaptureRecords_5 : let ep : Episode := { itb := 0, vd := 0, ntc := 0, latch := none }; let s := onPin 5 (fun c => { c with net := true, episode := some ep }) (setReg State.reset (R.PIN_CFG 5) 1); (getPin s 5).episode = some ep ∧ isInput s 5 = true ∧ filteredLevel s 5 ≠ (getPin s 5).own ∧ followsPartner s = false := by decide +kernel
theorem witness_PinsAndCaptureRecords_6 : let ep : Episode := { itb := 0, vd := 0, ntc := 0, latch := none }; let s := onPin 5 (fun c => { c with episode := some ep }) (setReg State.reset (R.PIN_CFG 5) 1); (getPin s 5).episode = some ep ∧ filteredLevel s 5 = (getPin s 5).own := by decide +kernel
theorem witness_PinsAndCaptureRecords_7 : let r : CapRec := { pm := 77, pin := 3, rising := true, lost := false }; Reads (onBank 2 (fun k => { k with caps := [r] }) State.reset) (.loc 0) (R.BANK_CAP_LO (2 : Fin 16)) ∧ (getBank (onBank 2 (fun k => { k with caps := [r] }) State.reset) 2).caps = r :: [] := by decide +kernel
theorem witness_PinsAndCaptureRecords_8 : Reads State.reset (.loc 0) (R.BANK_CAP_LO (2 : Fin 16)) ∧ (getBank State.reset 2).caps = [] := by decide +kernel
theorem witness_PinsAndCaptureRecords_9 : Takes State.reset (.loc 0) (R.PIN_OUT (5 : Fin 256)) ∧ F.PIN_OUT_TOGGLE.get 1 = 0 := by decide +kernel
theorem witness_PinsAndCaptureRecords_10 : Takes State.reset (.loc 0) (R.PIN_OUT (5 : Fin 256)) := by decide +kernel
theorem witness_PinsAndCaptureRecords_11 : Takes State.reset (.loc 0) (R.BANK_OUT_SET (5 : Fin 16)) := by decide +kernel
theorem witness_PinsAndCaptureRecords_12 : Takes State.reset (.loc 0) (R.BANK_OUT_CLR (5 : Fin 16)) := by decide +kernel
theorem witness_PinsAndCaptureRecords_13 : (0x40 : Byte).toNat % 64 = 0 ∧ getB (setB State.reset (R.PIN_STAT 5) F.PIN_STAT_EVER_DRV true) (R.PIN_STAT 5) F.PIN_STAT_EVER_DRV = true := by decide +kernel
theorem witness_ScribeInstructionsTakeEffect_1 : ∃ l t b, ClockRuns 0 (engineWith 0x0040) t l ∧ isKind 0 0 l.word = true ∧ waitLevelOf t (0 : Fin 64) l.word = some b := ⟨_, _, _, ⟨by decide, _, rfl, rfl, by decide⟩, by decide, rfl⟩
theorem witness_ScribeInstructionsTakeEffect_2 : ∃ l t b, ClockRuns 0 (engineWith 0x00C0) t l ∧ isKind 0 1 l.word = true ∧ waitLevelOf t (0 : Fin 64) l.word = some b := ⟨_, _, _, ⟨by decide, _, rfl, rfl, by decide⟩, by decide, rfl⟩
theorem witness_ScribeInstructionsTakeEffect_3a : ∃ l t, ClockRuns 0 (engineWith 0x0140) t l ∧ isKind 0 2 l.word = true ∧ opBits l.word 3 2 = 0 ∧ (opBits l.word 5 1 = 1 → opBits l.word 6 1 = 1) ∧ scrFlag t 0 (opBits l.word 0 3) ≠ decide (opBits l.word 6 1 = 1) := ⟨_, _, ⟨by decide, _, rfl, rfl, by decide⟩, by decide, by decide, by decide, by decide⟩
theorem witness_ScribeInstructionsTakeEffect_3b : ∃ l t, ClockRuns 0 (setReg (engineWith 0x0160) (R.SCR_FLAGS 0) 1) t l ∧ isKind 0 2 l.word = true ∧ opBits l.word 3 2 = 0 ∧ (opBits l.word 5 1 = 1 → opBits l.word 6 1 = 1) ∧ scrFlag t 0 (opBits l.word 0 3) = decide (opBits l.word 6 1 = 1) := ⟨_, _, ⟨by decide, _, rfl, rfl, by decide⟩, by decide, by decide, by decide, by decide⟩
theorem witness_ScribeInstructionsTakeEffect_4a : ∃ l t, ClockRuns 0 (engineWith 0x0180) t l ∧ isKind 0 3 l.word = true ∧ opBits l.word 1 4 = 0 ∧ opBits l.word 5 2 = 0 ∧ opBits l.word 0 1 = 0 := ⟨_, _, ⟨by decide, _, rfl, rfl, by decide⟩, by decide, by decide, by decide, by decide⟩
theorem witness_ScribeInstructionsTakeEffect_4b : ∃ l t, ClockRuns 0 (engineWith 0x0181) t l ∧ isKind 0 3 l.word = true ∧ opBits l.word 1 4 = 0 ∧ opBits l.word 5 2 = 0 ∧ opBits l.word 0 1 = 1 := ⟨_, _, ⟨by decide, _, rfl, rfl, by decide⟩, by decide, by decide, by decide, by decide⟩
theorem witness_ScribeInstructionsTakeEffect_5 : ∃ l t, ClockRuns 0 (engineWith 0x10C8) t l ∧ opcodeOf l.word = 1 ∧ opBits l.word 6 3 < 6 ∧ opBits l.word 5 1 ≠ 1 := ⟨_, _, ⟨by decide, _, rfl, rfl, by decide⟩, by decide, by decide, by decide⟩
theorem witness_ScribeInstructionsTakeEffect_6 : getB State.reset (rShcfg 0) F.SCR_SHCFG_IN_FIRST = false := by decide +kernel
theorem witness_ScribeInstructionsTakeEffect_7 : ∃ l t, ClockRuns 0 (engineWith 0x2088) t l ∧ opcodeOf l.word = 2 ∧ opBits l.word 6 3 ≠ 7 ∧ opBits l.word 5 1 ≠ 1 := ⟨_, _, ⟨by decide, _, rfl, rfl, by decide⟩, by decide, by decide, by decide⟩
theorem witness_ScribeInstructionsTakeEffect_8 : ∃ l t w rest, ClockRuns 0 (onEng 0 (fun x => { x with tx := [(7, false)] }) (engineWith 0x3000)) t l ∧ opcodeOf l.word = 3 ∧ opBits l.word 6 2 ≠ 3 ∧ opBits l.word 0 6 = 0 ∧ (getEng t 0).tx = (w, false) :: rest := ⟨_, _, 7, [], ⟨by decide, _, rfl, rfl, by decide⟩, by decide, by decide, by decide, by decide⟩
theorem witness_ScribeInstructionsTakeEffect_9 : ∃ l t w rest, ClockRuns 0 (onEng 0 (fun x => { x with tx := [(7, true)] }) (engineWith 0x3000)) t l ∧ opcodeOf l.word = 3 ∧ opBits l.word 6 2 ≠ 3 ∧ opBits l.word 0 6 = 0 ∧ (getEng t 0).tx = (w, true) :: rest := ⟨_, _, 7, [], ⟨by decide, _, rfl, rfl, by decide⟩, by decide, by decide, by decide, by decide⟩
theorem witness_ScribeInstructionsTakeEffect_10a : ∃ l t, ClockRuns 0 (engineWith 0x4040) t l ∧ opcodeOf l.word = 4 ∧ opBits l.word 0 6 = 0 ∧ rxRoom t 0 ≠ 0 ∧ opBits l.word 6 2 = 1 := ⟨_, _, ⟨by decide, _, rfl, rfl, by decide⟩, by decide, by decide, by decide, by decide⟩
theorem witness_ScribeInstructionsTakeEffect_10b : ∃ l t, ClockRuns 0 (engineWith 0x4080) t l ∧ opcodeOf l.word = 4 ∧ opBits l.word 0 6 = 0 ∧ rxRoom t 0 ≠ 0 ∧ opBits l.word 6 2 = 2 := ⟨_, _, ⟨by decide, _, rfl, rfl, by decide⟩, by decide, by decide, by decide, by decide⟩
theorem witness_ScribeInstructionsTakeEffect_10c : ∃ l t, ClockRuns 0 (engineWith 0x4000) t l ∧ opcodeOf l.word = 4 ∧ opBits l.word 0 6 = 0 ∧ rxRoom t 0 ≠ 0 ∧ opBits l.word 6 2 = 0 := ⟨_, _, ⟨by decide, _, rfl, rfl, by decide⟩, by decide, by decide, by decide, by decide⟩
theorem witness_ScribeInstructionsTakeEffect_11 : ∃ l t, ClockRuns 0 (engineWith 0x5040) t l ∧ opcodeOf l.word = 5 ∧ opBits l.word 6 3 = 1 := ⟨_, _, ⟨by decide, _, rfl, rfl, by decide⟩, by decide, by decide⟩
theorem witness_ScribeInstructionsTakeEffect_12 : ∃ l t, ClockRuns 0 (engineWith 0x6045) t l ∧ opcodeOf l.word = 6 ∧ opBits l.word 6 3 = 1 := ⟨_, _, ⟨by decide, _, rfl, rfl, by decide⟩, by decide, by decide⟩
theorem witness_ScribeInstructionsTakeEffect_13 : ∃ l t, ClockRuns 0 (engineWith 0x7043) t l ∧ opcodeOf l.word = 7 ∧ opBits l.word 5 1 = 0 ∧ opBits l.word 6 3 = 1 := ⟨_, _, ⟨by decide, _, rfl, rfl, by decide⟩, by decide, by decide, by decide⟩
theorem witness_ScribeInstructionsTakeEffect_14 : ∃ l t, ClockRuns 0 (engineWith 0x8000) t l ∧ opcodeOf l.word = 8 ∧ opBits l.word 0 6 = 0 ∧ opBits l.word 7 2 = 0 := ⟨_, _, ⟨by decide, _, rfl, rfl, by decide⟩, by decide, by decide, by decide⟩
theorem witness_ScribeInstructionsTakeEffect_15a : ∃ l t, ClockRuns 0 (engineWith 0x9003) t l ∧ opBits l.word 3 4 = 0 ∧ isKind 9 0 l.word = true := ⟨_, _, ⟨by decide, _, rfl, rfl, by decide⟩, by decide, by decide⟩
theorem witness_ScribeInstructionsTakeEffect_15b : ∃ l t, ClockRuns 0 (engineWith 0x9083) t l ∧ opBits l.word 3 4 = 0 ∧ isKind 9 1 l.word = true := ⟨_, _, ⟨by decide, _, rfl, rfl, by decide⟩, by decide, by decide⟩
theorem witness_ScribeInstructionsTakeEffect_15c : ∃ l t, ClockRuns 0 (engineWith 0x9103) t l ∧ opBits l.word 3 4 = 0 ∧ isKind 9 2 l.word = true := ⟨_, _, ⟨by decide, _, rfl, rfl, by decide⟩, by decide, by decide⟩
theorem witness_ScribeInstructionsTakeEffect_15d : ∃ l t, ClockRuns 0 (engineWith 0x9183) t l ∧ opBits l.word 3 4 = 0 ∧ isKind 9 3 l.word = true := ⟨_, _, ⟨by decide, _, rfl, rfl, by decide⟩, by decide, by decide⟩
theorem witness_ScribeInstructionsTakeEffect_16 : ∃ l t, ClockRuns 0 (engineWith 0xA000) t l ∧ 10 ≤ opcodeOf l.word := ⟨_, _, ⟨by decide, _, rfl, rfl, by decide⟩, by decide⟩
theorem witness_ScribeEnginesAdvance_2 : 4 < 8 := by decide +kernel
theorem witness_ScribeEnginesAdvance_3 : 4 < 8 := by decide +kernel
theorem witness_ScribeEnginesAdvance_4 : let l : Latched := { word := 0x0040, addr := 0, injected := false, loopFrom := 0, loopTo := 0, edge := none, delay := none }; let s := setF (onEng 0 (fun e => { e with latched := some l }) State.reset) (rEstat 0) F.SCR_ESTAT_STATE 2; (getEng s 0).latched = some l ∧ (getEng s 0).inj = none ∧ ∃ t, ClockRuns 0 s t l := ⟨by decide, by decide, _, by decide, _, rfl, rfl, by decide⟩
theorem witness_ScribeEnginesAdvance_5a : let l : Latched := { word := 0x0640, addr := 0, injected := false, loopFrom := 0, loopTo := 0, edge := none, delay := some 3 }; let s := onTime (fun t => { t with ltick := 40 }) (setF (onEng 0 (fun e => { e with latched := some l }) State.reset) (rEstat 0) F.SCR_ESTAT_STATE 1); (getEng s 0).latched = some l ∧ l.delay = some 3 ∧ running s 0 = true ∧ (getEng s 0).lastMark + 3 ≤ marksNow s 0 := by decide +kernel
theorem witness_ScribeEnginesAdvance_5b : let l : Latched := { word := 0x0640, addr := 0, injected := false, loopFrom := 0, loopTo := 0, edge := none, delay := some 3 }; let s := onEng 0 (fun e => { e with latched := some l }) State.reset; (getEng s 0).latched = some l ∧ l.delay = some 3 ∧ running s 0 = false := by decide +kernel
theorem witness_ScribeEngineControl_1 : Takes State.reset (.loc 0) (rScrCtl (5 : Fin 64)) ∧ engState State.reset 5 ≠ 3 ∧ engEnabled State.reset 5 = false := by decide +kernel
theorem witness_ScribeEngineControl_2 : let s := setB (setF State.reset (rEstat 5) F.SCR_ESTAT_STATE 1) (rScrCtl 5) F.SCR_CTL_EN true; Takes s (.loc 0) (rScrCtl (5 : Fin 64)) ∧ running s 5 = true ∧ (getEng s 5).stepping = false ∧ engEnabled s 5 = true := by decide +kernel
theorem witness_ScribeEngineControl_3 : Takes State.reset (.loc 0) (rScrCtl (5 : Fin 64)) ∧ engState State.reset 5 = 0 ∧ engEnabled State.reset 5 = false := by decide +kernel
theorem witness_ScribeEngineControl_4 : Takes State.reset (.loc 0) (rScrCtl (5 : Fin 64)) ∧ engState State.reset 5 = 0 ∧ engEnabled State.reset 5 = false := by decide +kernel
theorem witness_ScribeEngineControl_5 : let s := setF State.reset (rEstat 5) F.SCR_ESTAT_STATE 3; Takes s (.loc 0) (rScrCtl (5 : Fin 64)) ∧ engState s 5 = 3 ∧ getB s (R.SCR_CSTAT 1) F.SCR_CSTAT_PARITY = false := by decide +kernel
theorem witness_ScribeEngineControl_6 : Takes State.reset (.loc 0) (R.SCR_CSYNC (1 : Fin 16)) := by decide +kernel
theorem witness_ScribeEngineControl_7 : Takes State.reset (.loc 0) (R.SCR_CSYNC (1 : Fin 16)) := by decide +kernel
theorem witness_ScribeEngineControl_8 : Takes State.reset (.loc 0) (R.SCR_CLKDIV ((5 : Fin 64) / 4 : Nat) ((5 : Fin 64) % 4 : Nat)) := by decide +kernel
theorem witness_ScribeRegistersAndDma_1a : Takes State.reset (.loc 0) (R.SCR_INJ ((5 : Fin 64) / 4 : Nat) ((5 : Fin 64) % 4 : Nat)) ∧ engState State.reset 5 ≠ 3 ∧ (getEng State.reset 5).inj = none := by decide +kernel
theorem witness_ScribeRegistersAndDma_1b : Takes (setF State.reset (rEstat 5) F.SCR_ESTAT_STATE 3) (.loc 0) (R.SCR_INJ ((5 : Fin 64) / 4 : Nat) ((5 : Fin 64) % 4 : Nat)) ∧ engState (setF State.reset (rEstat 5) F.SCR_ESTAT_STATE 3) 5 = 3 := by decide +kernel
theorem witness_ScribeRegistersAndDma_2a : clocked State.reset = true ∧ lockedOut State.reset (.loc 0) (0x30400 + 0x1000 * (3 : Fin 16).val + 8) = false ∧ refusal State.reset { m := .loc 0, a := 0x30400 + 0x1000 * (3 : Fin 16).val + 8, width := 4, write := true, lock := false } = none := by decide +kernel
theorem witness_ScribeRegistersAndDma_2b : clocked State.reset = true ∧ lockedOut State.reset (.loc 0) (0x30400 + 0x1000 * (3 : Fin 16).val + 62) = false ∧ refusal State.reset { m := .loc 0, a := 0x30400 + 0x1000 * (3 : Fin 16).val + 62, width := 2, write := true, lock := false } = none := by decide +kernel
theorem witness_ScribeRegistersAndDma_3 : Takes State.reset (.loc 0) (R.SCR_TXF ((5 : Fin 64) / 4 : Nat) ((5 : Fin 64) % 4 : Nat)) ∧ (getEng State.reset 5).tx.length < txCap State.reset 5 ∧ getF State.reset (rDmaTx 5) F.SCR_DMA_TX_MODE = 0 := by decide +kernel
theorem witness_ScribeRegistersAndDma_4a : let s := onEng 5 (fun x => { x with rx := [9] }) State.reset; Reads s (.loc 0) (R.SCR_RXF ((5 : Fin 64) / 4 : Nat) ((5 : Fin 64) % 4 : Nat)) ∧ getF s (rDmaRx 5) F.SCR_DMA_RX_MODE ≠ 1 ∧ (getEng s 5).rx = 9 :: [] := by decide +kernel
theorem witness_ScribeRegistersAndDma_4b : Reads State.reset (.loc 0) (R.SCR_RXF ((5 : Fin 64) / 4 : Nat) ((5 : Fin 64) % 4 : Nat)) ∧ getF State.reset (rDmaRx 5) F.SCR_DMA_RX_MODE ≠ 1 ∧ (getEng State.reset 5).rx = [] := by decide +kernel
theorem witness_ScribeRegistersAndDma_5 : Takes State.reset (.loc 0) (R.SCR_FLAGS (1 : Fin 16)) := by decide +kernel
theorem witness_ScribeRegistersAndDma_6 : Takes State.reset (.loc 0) (R.SCR_FLAGS (1 : Fin 16)) := by decide +kernel
theorem witness_ScribeRegistersAndDma_7a : Takes State.reset (.loc 0) (engineRegAddr (5 : Fin 64) .y) ∧ engEnabled State.reset 5 = false := by decide +kernel
theorem witness_ScribeRegistersAndDma_7b : Takes (setB State.reset (rScrCtl 5) F.SCR_CTL_EN true) (.loc 0) (engineRegAddr (5 : Fin 64) .shcfg) ∧ engEnabled (setB State.reset (rScrCtl 5) F.SCR_CTL_EN true) 5 = true := by decide +kernel
theorem witness_ScribeRegistersAndDma_8 : Takes State.reset (.loc 0) (rPc (5 : Fin 64)) ∧ engEnabled State.reset 5 = false ∧ engState State.reset 5 = 0 := by decide +kernel
theorem witness_ScribeRegistersAndDma_9 : Takes State.reset (.loc 0) (rDmaTx (5 : Fin 64)) ∧ 4 * F.SCR_DMA_TX_WOFF.get 0 + 4 * (F.SCR_DMA_TX_CNT.get 0 + 1) ≤ 0x8000 := by decide +kernel
theorem witness_ScribeRegistersAndDma_10 : let s := setF State.reset (rDmaTx 5) F.SCR_DMA_TX_MODE 2; getF s (rDmaTx 5) F.SCR_DMA_TX_MODE = 2 ∧ underTest s 0x41 = false ∧ (getEng s 5).txOut = none ∧ getF s (rDmaTx 5) F.SCR_DMA_TX_CNT + 1 + (getEng s 5).tx.length ≤ txCap s 5 := by decide +kernel
theorem witness_ScribeRegistersAndDma_11a : let s := onEng 5 (fun x => { x with txOut := some (3, 2) }) (setReg State.reset R.ARB_PRESENT 0xFFFFFFFF); (getEng s (5 : Fin 64)).txOut = some (3, 2) ∧ recordNext s (5 : Fin 64) = true ∧ holds (acquire 5 s) 5 = true ∧ recordRefused (settleDma 1 (endRequest 5 (onEng 5 (fun x => { x with txOut := none }) (acquire 5 s)))) outImage 3 2 false = none ∧ (getEng s 5).tx.length + 2 ≤ txCap s 5 := by decide +kernel
theorem witness_ScribeRegistersAndDma_11b : let s := onEng 5 (fun x => { x with txOut := some (3, 2) }) (setReg (setReg State.reset R.ARB_PRESENT 0xFFFFFFFF) (R.AT_W2 0 0) 0); (getEng s (5 : Fin 64)).txOut = some (3, 2) ∧ recordNext s (5 : Fin 64) = true ∧ holds (acquire 5 s) 5 = true := by decide +kernel
theorem witness_ScribeRegistersAndDma_12 : let s := onEng 5 (fun x => { x with rx := [1, 2] }) (setF State.reset (rDmaRx 5) F.SCR_DMA_RX_MODE 1); getF s (rDmaRx 5) F.SCR_DMA_RX_MODE = 1 ∧ underTest s 0x41 = false ∧ (getEng s 5).rxOut = none ∧ getF s (rDmaRx 5) F.SCR_DMA_RX_CNT + 1 ≤ (getEng s 5).rx.length := by decide +kernel
theorem witness_ScribeRegistersAndDma_13 : let s := onEng 5 (fun x => { x with rxOut := some (3, [(1, false)]) }) (setReg State.reset R.ARB_PRESENT 0xFFFFFFFF); (getEng s (5 : Fin 64)).rxOut = some (3, [(1, false)]) ∧ recordNext s (5 : Fin 64) = true ∧ holds (acquire 5 s) 5 = true ∧ recordRefused (settleDma 1 (endRequest 5 (onEng 5 (fun x => { x with rxOut := none }) (acquire 5 s)))) inImage 3 1 true = none := by decide +kernel
theorem witness_ScribeRegistersAndDma_14 : 5 + [((1 : Word), false)].length ≤ 0x2000 ∧ ∀ i, i < 4 * [((1 : Word), false)].length → inImage + 4 * 3 ≠ writePlace (inImage + 4 * 5 + i) := by decide +kernel
theorem witness_MessageBusControllersStartAndStop_1 : let s := [8, 9].foldl (fun s i => setF s (R.PIN_CFG i) F.PIN_CFG_FUNC 9) State.reset; Takes s (.loc 0) (R.MB_CTL (0 : Fin 8)) ∧ mbInit (dropOverlap (R.MB_CTL 0) 4 s) 0 = true ∧ mbBank (dropOverlap (R.MB_CTL 0) 4 s) (0 : Fin 8) = some 0 ∧ mbTimingOk (dropOverlap (R.MB_CTL 0) 4 s) 0 = true ∧ F.MB_CTL_MODE.get 0 < 5 := by decide +kernel
theorem witness_MessageBusControllersStartAndStop_2 : Takes State.reset (.loc 0) (R.MB_CTL (0 : Fin 8)) ∧ mbInit State.reset 0 = true ∧ mbBank State.reset (0 : Fin 8) = none := by decide +kernel
theorem witness_MessageBusControllersStartAndStop_3 : Takes busOn (.loc 0) (R.MB_CTL (0 : Fin 8)) ∧ mbInit busOn 0 = false ∧ mbMode busOn 0 = F.MB_CTL_MODE.get 0 ∧ (getMb busOn 0).tx = none := by decide +kernel
theorem witness_MessageBusControllersStartAndStop_4 : Takes busOn (.loc 0) (R.MB_CTL (0 : Fin 8)) ∧ mbInit busOn 0 = false ∧ mbMode busOn 0 = F.MB_CTL_MODE.get 0 := by decide +kernel
theorem witness_MessageBusControllersStartAndStop_5 : mbState State.reset 0 ≠ 1 := by decide +kernel
theorem witness_MessageBusControllersStartAndStop_6 : mbInit (setB State.reset (R.MB_CTL 0) F.MB_CTL_INIT false) 0 = false ∧ mbState (setB State.reset (R.MB_CTL 0) F.MB_CTL_INIT false) 0 = 0 ∧ inUnitReset (setB State.reset (R.MB_CTL 0) F.MB_CTL_INIT false) 0x0004 0 = false := by decide +kernel
theorem witness_MessageBusControllersStartAndStop_7 : mbInit (setF busOn (R.MB_STAT 0) F.MB_STAT_STATE 3) 0 = false ∧ mbState (setF busOn (R.MB_STAT 0) F.MB_STAT_STATE 3) 0 = 3 := by decide +kernel
theorem witness_MessageBusControllersStartAndStop_8a : mbOnBus busOn 0 = true ∧ ackWaived busOn (0 : Fin 8) .ack = false := by decide +kernel
theorem witness_MessageBusControllersStartAndStop_8b : let s := setF busSending (R.MB_CTL 0) F.MB_CTL_MODE 3; mbOnBus s (0 : Fin 8) = true ∧ ackWaived s (0 : Fin 8) .ack = true := by decide +kernel
theorem witness_MessageBusControllersStartAndStop_9 : ∃ f, (getMb busSending 0).tx = some f := ⟨_, rfl⟩
theorem witness_MessageBusControllersStartAndStop_10 : mbOnBus busOn 0 = true := by decide +kernel
theorem witness_MessageBusControllersStartAndStop_11 : (getMb (onMb 0 (fun b => { b with away := true }) busOn) 0).away = true := by decide +kernel
theorem witness_MessageBusRequestsAndFrames_1 : Takes busObject (.loc 0) (R.MB_TXREQ (0 : Fin 8) (0 : Fin 4)) ∧ requestRefused busObject 0 3 false = false ∧ requestRefused busObject 0 4 false = true := by decide +kernel
theorem witness_MessageBusRequestsAndFrames_2 : Takes busSending (.loc 0) (R.MB_TXCAN (0 : Fin 8) (0 : Fin 4)) ∧ (getMb busSending 0).tx.isSome = true := by decide +kernel
theorem witness_MessageBusRequestsAndFrames_3 : Takes busOn (.loc 0) (R.MB_NEW (0 : Fin 8) (0 : Fin 4)) := by decide +kernel
theorem witness_MessageBusRequestsAndFrames_4 : canSend (setPending 0 3 true busObject) (0 : Fin 8) = true ∧ arbWinnerObj (setPending 0 3 true busObject) (0 : Fin 8) = some 3 ∧ copyPoisoned (setPending 0 3 true busObject) 0 3 = false := by decide +kernel
theorem witness_MessageBusRequestsAndFrames_5 : canSend (setPoison (setPending 0 3 true busObject) (objAddr 0 3) true) (0 : Fin 8) = true ∧ arbWinnerObj (setPoison (setPending 0 3 true busObject) (objAddr 0 3) true) (0 : Fin 8) = some 3 ∧ copyPoisoned (setPoison (setPending 0 3 true busObject) (objAddr 0 3) true) 0 3 = true := by decide +kernel
theorem witness_MessageBusRequestsAndFrames_6 : ∃ f, (getMb busSending (0 : Fin 8)).tx = some f := ⟨_, rfl⟩
theorem witness_MessageBusRequestsAndFrames_7 : bitOf (objCfg busObject 0 3) 14 = false ∧ ttOn busObject 0 = false := by decide +kernel
theorem witness_MessageBusRequestsAndFrames_8a : mbOnBus busOn (0 : Fin 8) = true ∧ (getMb busOn (0 : Fin 8)).tx = none ∧ mbMode busOn (0 : Fin 8) ≠ 3 := by decide +kernel
theorem witness_MessageBusRequestsAndFrames_8b : mbOnBus State.reset (0 : Fin 8) = false := by decide +kernel
theorem witness_MessageBusRequestsAndFrames_9 : ttOn busOn 0 = false ∧ matchObj busOn 0 { id := 0, ide := false, rtr := false, fdf := false, brs := false, esi := false, dlc := 0, data := [] } = none := by decide +kernel
theorem witness_MessageBusRequestsAndFrames_10 : bitOf (objCfg busObject 0 3) 7 = false ∧ bitOf (objCfg busObject 0 3) 14 = false ∧ getB busObject R.GW_CTL F.GW_CTL_EN = false := by decide +kernel
theorem witness_TimeTriggeredBusFollowsItsSchedule_1 : Takes State.reset (.loc 0) (R.MB_TT_CFG (0 : Fin 8)) ∧ ttOn State.reset 0 = false := by decide +kernel
theorem witness_TimeTriggeredBusFollowsItsSchedule_2 : Takes (setReg State.reset (R.MB_TT_CFG 0) 1) (.loc 0) (R.MB_TT_CFG (0 : Fin 8)) ∧ ttOn (setReg State.reset (R.MB_TT_CFG 0) 1) 0 = true := by decide +kernel
theorem witness_TimeTriggeredBusFollowsItsSchedule_3 : let s := setB (setReg State.reset (R.MB_TT_CFG 0) 1) (R.MB_TT_STAT 0) F.MB_TT_STAT_MASTER true; mastersTime s (0 : Fin 8) = true ∧ regs64 s (R.MB_TT_T0_LO 0) (R.MB_TT_T0_HI 0) + ((getMb s 0).starts + 1) * (getReg s (R.MB_TT_PERIOD 0)).toNat ≤ itbNs s (getF s (R.MB_TT_CFG 0) F.MB_TT_CFG_ITB) := by decide +kernel
theorem witness_TimeTriggeredBusFollowsItsSchedule_4 : requestRefused busObject (0 : Fin 8) 3 false = false := by decide +kernel
theorem witness_TimeTriggeredBusFollowsItsSchedule_5a : let s := setB (setReg (setReg State.reset (R.MB_TT_CFG 0) 1) (R.MB_TRIG_B 0 2) 0xFFFF0000) (R.MB_TT_STAT 0) F.MB_TT_STAT_SYNC true; ttOn s (0 : Fin 8) = true ∧ getB s (R.MB_TT_STAT 0) F.MB_TT_STAT_SYNC = true ∧ ttLevel s 0 ≠ 3 ∧ trigOn s 0 (2 : Fin 64) = true ∧ atMark s 0 (2 : Fin 64) = true := by decide +kernel
theorem witness_TimeTriggeredBusFollowsItsSchedule_5b : ttOn State.reset (0 : Fin 8) = false := by decide +kernel
theorem witness_TimeTriggeredBusFollowsItsSchedule_6a : let s := setF State.reset (R.MB_TRIG_A 0 0) F.MB_TRIG_A_TYPE 2; badWord s (R.MB_TRIG_A 0 0) = false ∧ badWord s (R.MB_TRIG_B 0 0) = false ∧ trigType s 0 0 = 2 ∧ tabGet (fun _ => false) (getMb s 0).seen 0 = false := by decide +kernel
theorem witness_TimeTriggeredBusFollowsItsSchedule_6b : let s := setF State.reset (R.MB_TRIG_A 0 0) F.MB_TRIG_A_TYPE 1; badWord s (R.MB_TRIG_A 0 0) = false ∧ badWord s (R.MB_TRIG_B 0 0) = false ∧ trigType s 0 0 = 1 ∧ ttLevel s 0 < 2 := by decide +kernel
theorem witness_TimeTriggeredBusFollowsItsSchedule_6c : let s := setF State.reset (R.MB_TRIG_A 0 0) F.MB_TRIG_A_TYPE 3; badWord s (R.MB_TRIG_A 0 0) = false ∧ badWord s (R.MB_TRIG_B 0 0) = false ∧ trigType s 0 0 = 3 := by decide +kernel
theorem witness_GatewayMovesFieldsBetweenBusAndImage_1a : Takes State.reset (.loc 0) (R.GW_MAP_B (0 : Fin 512)) ∧ getB (dropOverlap (R.GW_MAP_B 0) 4 State.reset) (R.GW_MAP_A (0 : Fin 512)) F.GW_MAP_A_EN = false := by decide +kernel
theorem witness_GatewayMovesFieldsBetweenBusAndImage_1b : let s := setB State.reset (R.GW_MAP_A 0) F.GW_MAP_A_EN true; Takes s (.loc 0) (R.GW_MAP_B (0 : Fin 512)) ∧ getB (dropOverlap (R.GW_MAP_B 0) 4 s) (R.GW_MAP_A (0 : Fin 512)) F.GW_MAP_A_EN = true := by decide +kernel
theorem witness_GatewayMovesFieldsBetweenBusAndImage_2a : Takes State.reset (.loc 0) (R.GW_MAP_A (0 : Fin 512)) ∧ F.GW_MAP_A_EN.get 0 = 0 := by decide +kernel
theorem witness_GatewayMovesFieldsBetweenBusAndImage_2b : let s := setReg State.reset (R.GW_MAP_B 0) 0xFFFFFFFF; let v := F.GW_MAP_A_EN.put 0 1; Takes s (.loc 0) (R.GW_MAP_A (0 : Fin 512)) ∧ F.GW_MAP_A_EN.get v = 1 ∧ mapInvalid v (getReg (dropOverlap (R.GW_MAP_A 0) 4 s) (R.GW_MAP_B (0 : Fin 512))) = true := by decide +kernel
theorem witness_GatewayMovesFieldsBetweenBusAndImage_3a : let s := setReg (onBuses (fun b => { b with bursts := [(0, 3, 0)] }) State.reset) R.ARB_PRESENT 0xFFFFFFFF; s.buses.bursts = (0, 3, 0) :: [] ∧ holds (acquire 20 s) 20 = true ∧ getB (gwEnd (onBuses (fun b => { b with bursts := [] }) (acquire 20 s))) R.GW_CTL F.GW_CTL_EN = false := by decide +kernel
theorem witness_GatewayMovesFieldsBetweenBusAndImage_3b : let s := setReg (setReg (setB (setB (setReg (onBuses (fun b => { b with bursts := [(0, 3, 0)] }) State.reset) R.ARB_PRESENT 0xFFFFFFFF) R.GW_CTL F.GW_CTL_EN true) R.TT_STAT F.TT_STAT_RUNNING true) (R.GW_MAP_A 7) (F.GW_MAP_A_OBJ.put (F.GW_MAP_A_EN.put 0 1) 3)) (R.GW_MAP_B 7) 0; s.buses.bursts = (0, 3, 0) :: [] ∧ holds (acquire 20 s) 20 = true ∧ getB (gwEnd (onBuses (fun b => { b with bursts := [] }) (acquire 20 s))) R.GW_CTL F.GW_CTL_EN = true ∧ ttRunning (gwEnd (onBuses (fun b => { b with bursts := [] }) (acquire 20 s))) = true ∧ mapEntries (gwEnd (onBuses (fun b => { b with bursts := [] }) (acquire 20 s))) 0 0 3 ≠ [] := by decide +kernel
theorem witness_GatewayMovesFieldsBetweenBusAndImage_4 : getF State.reset (R.GW_MAP_B 0) F.GW_MAP_B_SRC = 0 ∧ getF State.reset (R.GW_MAP_A 0) F.GW_MAP_A_IOFF + widthBytes (getF State.reset (R.GW_MAP_B 0) F.GW_MAP_B_IW) ≤ 0x8000 ∧ storedBytes State.reset 0 3 < getF State.reset (R.GW_MAP_B 0) F.GW_MAP_B_BOFF + widthBytes (getF State.reset (R.GW_MAP_B 0) F.GW_MAP_B_BW) := by decide +kernel
theorem witness_GatewayMovesFieldsBetweenBusAndImage_5 : let s := onBuses (fun b => { b with toBus := true }) (setReg (setB (setB State.reset R.GW_CTL F.GW_CTL_EN true) R.TT_STAT F.TT_STAT_RUNNING true) R.ARB_PRESENT 0xFFFFFFFF); s.buses.toBus = true ∧ holds (acquire 20 s) 20 = true ∧ getB (gwEnd (onBuses (fun b => { b with toBus := false }) (acquire 20 s))) R.GW_CTL F.GW_CTL_EN = true ∧ ttRunning (gwEnd (onBuses (fun b => { b with toBus := false }) (acquire 20 s))) = true := by decide +kernel
theorem witness_GatewayMovesFieldsBetweenBusAndImage_6 : let s := setPoison (setReg State.reset (R.GW_MAP_A 7) (F.GW_MAP_A_DIR.put (F.GW_MAP_A_EN.put 0 1) 1)) outImage true; (mapEntries s 1 0 0).any (fun i => entryPoisoned s i) = true ∧ (∀ i ∈ mapEntries s 1 0 0, tableAllows s (gwAccess (getF s (R.GW_MAP_A i) F.GW_MAP_A_IOFF) (widthBytes (getF s (R.GW_MAP_B i) F.GW_MAP_B_IW)) false) = true) := by decide +kernel
theorem witness_GatewayMovesFieldsBetweenBusAndImage_7 : let e : Envelope := { plainEnv kBusFrame [0, 0] with addr := 0x100180 }; let s := ringOpen (((tableOf (R.MB_CTL 0)).map (fun p => p.1)).getD 0) busObject; objAt e.addr.toNat = some (0, 3) ∧ isFormed e = true ∧ holdsWrite s (taggedMaster e) (R.MB_CTL 0) = true ∧ objOn s 0 3 = true ∧ objTx s 0 3 = true ∧ objTt s 0 3 = false ∧ inUnitReset s 0x0004 0 = false := by decide +kernel
theorem witness_GatewayMovesFieldsBetweenBusAndImage_8a : ctrlAt (0x90000 : BitVec 48).toNat = none := by decide +kernel
theorem witness_GatewayMovesFieldsBetweenBusAndImage_8b : ctrlAt (0x100180 : BitVec 48).toNat = some 0 ∧ holdsWrite State.reset (taggedMaster { plainEnv kBusFrame [0, 0] with addr := 0x100180 }) (R.MB_CTL 0) = false := by decide +kernel
theorem witness_UartsSendAndReceiveCharacters_1a : Takes State.reset (.loc 0) (R.UA_TXD (0 : Fin 16)) ∧ (getUart (dropOverlap (R.UA_TXD 0) 4 State.reset) 0).tx.length < 64 := by decide +kernel
theorem witness_UartsSendAndReceiveCharacters_1b : let s := onUart 0 (fun x => { x with tx := List.replicate 64 0 }) State.reset; Takes s (.loc 0) (R.UA_TXD (0 : Fin 16)) ∧ 64 ≤ (getUart (dropOverlap (R.UA_TXD 0) 4 s) 0).tx.length := by decide +kernel
theorem witness_UartsSendAndReceiveCharacters_2 : let s := onUart 0 (fun x => { x with tx := [65] }) (setB State.reset (R.UA_CTL 0) F.UA_CTL_EN true); (getUart s (0 : Fin 16)).tx = 65 :: [] ∧ uartOn s (0 : Fin 16) = true ∧ inUnitReset s 0x0005 (0 : Fin 16) = false ∧ (getUart s (0 : Fin 16)).inChar = false := by decide +kernel
theorem witness_UartsSendAndReceiveCharacters_3 : let s := onUart 0 (fun x => { x with sending := some 65 }) State.reset; (getUart s (0 : Fin 16)).sending.isSome = true ∧ (getUart s (0 : Fin 16)).tx = [] := by decide +kernel
theorem witness_UartsSendAndReceiveCharacters_4a : let s := setB State.reset (R.UA_CTL 0) F.UA_CTL_EN true; uartListens s (0 : Fin 16) = true ∧ (getUart s (0 : Fin 16)).inChar = false ∧ afterBreak s (0 : Fin 16) 0 = false := by decide +kernel
theorem witness_UartsSendAndReceiveCharacters_4b : uartListens State.reset (0 : Fin 16) = false := by decide +kernel
theorem witness_UartsSendAndReceiveCharacters_5a : let s := onUart 0 (fun x => { x with inChar := true }) (setB State.reset (R.UA_CTL 0) F.UA_CTL_EN true); uartListens s (0 : Fin 16) = true ∧ (getUart s (0 : Fin 16)).inChar = true ∧ uartMode s (0 : Fin 16) ≠ 1 ∧ uartImage s (0 : Fin 16) = false ∧ (getUart s (0 : Fin 16)).rx.length < 64 := by decide +kernel
theorem witness_UartsSendAndReceiveCharacters_5b : let s := onUart 0 (fun x => { x with inChar := true, overrun := true, rx := List.replicate 64 { data := 0, perr := false, ferr := false, brk := false, gap := false } }) (setB State.reset (R.UA_CTL 0) F.UA_CTL_EN true); uartListens s (0 : Fin 16) = true ∧ (getUart s (0 : Fin 16)).inChar = true ∧ uartMode s (0 : Fin 16) ≠ 1 ∧ uartImage s (0 : Fin 16) = false ∧ 64 ≤ (getUart s (0 : Fin 16)).rx.length ∧ (getUart s (0 : Fin 16)).overrun = true := by decide +kernel
theorem witness_UartsSendAndReceiveCharacters_6 : getF State.reset (R.UA_CTL 0) F.UA_CTL_PAR = 0 ∧ getF (setF State.reset (R.UA_CTL 0) F.UA_CTL_PAR 3) (R.UA_CTL 0) F.UA_CTL_PAR = 3 := by decide +kernel
theorem witness_UartsSendAndReceiveCharacters_7 : let s := setF (setB (onUart 0 (fun x => { x with afterGap := false }) State.reset) (R.UA_CTL 0) F.UA_CTL_EN true) (R.UA_GAP 0) F.UA_GAP_IDLE 3; uartOn s (0 : Fin 16) = true ∧ (getUart s (0 : Fin 16)).afterGap = false ∧ (getUart s (0 : Fin 16)).inChar = false ∧ getF s (R.UA_GAP (0 : Fin 16)) F.UA_GAP_IDLE ≠ 0 := by decide +kernel
theorem witness_UartsSendAndReceiveCharacters_9 : Reads State.reset (.loc 0) (R.UA_RXD (0 : Fin 16)) ∧ uartImage State.reset 0 = false := by decide +kernel
theorem witness_EncodersCountAndLatch_1 : let s := setB State.reset (R.EN_CTL 0) F.EN_CTL_EN true; inUnitReset s 0x0006 (0 : Fin 16) = false ∧ encOn s (0 : Fin 16) = true ∧ getF s (R.EN_STAT (0 : Fin 16)) F.EN_STAT_AB ≠ bit1 true + 2 * bit1 false ∧ countOf (getF s (R.EN_CTL (0 : Fin 16)) F.EN_CTL_MODE) (bitOf (getF s (R.EN_STAT (0 : Fin 16)) F.EN_STAT_AB) 0) (bitOf (getF s (R.EN_STAT (0 : Fin 16)) F.EN_STAT_AB) 1) true false = some 1 ∧ followsPartner s = false := by decide +kernel
theorem witness_EncodersCountAndLatch_2 : let s := setB (setB State.reset (R.EN_CTL 0) F.EN_CTL_EN true) (R.EN_STAT 0) F.EN_STAT_ILLEGAL true; inUnitReset s 0x0006 (0 : Fin 16) = false ∧ encOn s (0 : Fin 16) = true ∧ getF s (R.EN_STAT (0 : Fin 16)) F.EN_STAT_AB ≠ bit1 true + 2 * bit1 true ∧ countOf (getF s (R.EN_CTL (0 : Fin 16)) F.EN_CTL_MODE) (bitOf (getF s (R.EN_STAT (0 : Fin 16)) F.EN_STAT_AB) 0) (bitOf (getF s (R.EN_STAT (0 : Fin 16)) F.EN_STAT_AB) 1) true true = none ∧ getB s (R.EN_STAT (0 : Fin 16)) F.EN_STAT_ILLEGAL = true := by decide +kernel
theorem witness_EncodersCountAndLatch_3 : inUnitReset State.reset 0x0006 0 = false ∧ encOn State.reset 0 = false := by decide +kernel
theorem witness_EncodersCountAndLatch_4 : inUnitReset State.reset 0x0006 0 = false := by decide +kernel
theorem witness_EncodersCountAndLatch_5 : getB State.reset (R.EN_CTL 0) F.EN_CTL_ZNTC = false := by decide +kernel
theorem witness_EncodersCountAndLatch_6 : Takes State.reset (.loc 0) (R.EN_COUNT (0 : Fin 16)) := by decide +kernel
theorem witness_EncodersCountAndLatch_7 : Takes State.reset (.loc 0) (R.EN_CTL (0 : Fin 16)) ∧ F.EN_CTL_MODE.get 0 < 5 ∧ encOn (dropOverlap (R.EN_CTL 0) 4 State.reset) (0 : Fin 16) = false := by decide +kernel
theorem witness_EncodersCountAndLatch_8 : let s := setB State.reset (R.EN_CTL 0) F.EN_CTL_EN true; Takes s (.loc 0) (R.EN_CTL (0 : Fin 16)) ∧ F.EN_CTL_MODE.get 0 < 5 ∧ encOn (dropOverlap (R.EN_CTL 0) 4 s) (0 : Fin 16) = true := by decide +kernel
theorem witness_MainsInputsFollowTheLine_1 : Takes State.reset (.loc 0) (R.MP_CTL (0 : Fin 2)) ∧ getB State.reset (R.MP_CTL (0 : Fin 2)) F.MP_CTL_EN = false := by decide +kernel
theorem witness_MainsInputsFollowTheLine_2 : getF State.reset (R.MP_FREQ 0) F.MP_FREQ_STATE ≠ 1 := by decide +kernel
theorem witness_MainsInputsFollowTheLine_3 : let s := onMains 0 (fun x => { x with lastEdge := some 100 }) (setF State.reset (R.MP_FREQ 0) F.MP_FREQ_STATE 1); getF s (R.MP_FREQ (0 : Fin 2)) F.MP_FREQ_STATE ≠ 0 ∧ true ≠ getB s (R.MP_CTL (0 : Fin 2)) F.MP_CTL_EDGE ∧ (getMains s (0 : Fin 2)).lastEdge = some 100 ∧ s.time.ltick * 16 - 5 * 0 < 100 + getF s (R.MP_CTL (0 : Fin 2)) F.MP_CTL_HOLDOFF * 50000 := by decide +kernel
theorem witness_MainsInputsFollowTheLine_4 : let s := setF State.reset (R.MP_FREQ 0) F.MP_FREQ_STATE 1; getF s (R.MP_FREQ (0 : Fin 2)) F.MP_FREQ_STATE ≠ 0 ∧ true ≠ getB s (R.MP_CTL (0 : Fin 2)) F.MP_CTL_EDGE ∧ (getMains s (0 : Fin 2)).lastEdge = none := by decide +kernel
theorem witness_MainsInputsFollowTheLine_5 : (getMains (onMains 0 (fun x => { x with first := true }) State.reset) 0).first = true := by decide +kernel
theorem witness_MainsInputsFollowTheLine_7 : getF (setF State.reset (R.MP_FREQ 0) F.MP_FREQ_STATE 1) (R.MP_FREQ (0 : Fin 2)) F.MP_FREQ_STATE = 1 ∧ getF (setF State.reset (R.MP_FREQ 0) F.MP_FREQ_STATE 3) (R.MP_FREQ (0 : Fin 2)) F.MP_FREQ_STATE = 3 := by decide +kernel
theorem witness_InterconnectArbitration_2 : Takes State.reset (.loc 0) (R.ARB_PRI (3 : Fin 24)) := by decide +kernel
theorem witness_InterconnectArbitration_3 : let s := (fun s : State => { s with arb := { s.arb with holder := some 22, pendingReq := [4] } }) (setReg State.reset R.ARB_PRESENT 0xFFFFFFFF); s.arb.holder = some 22 ∧ getB s R.ARB_STAT F.ARB_STAT_LOCKED = false ∧ eligible s 4 = true ∧ rankOf s 22 < rankOf s 4 ∧ State.reset.arb.holder ≠ some 22 := by decide +kernel
theorem witness_InterconnectArbitration_4 : Takes State.reset (.loc 0) R.ARB_QUOTA := by decide +kernel
theorem witness_NoticesEnterAndLeaveTheirQueues_1 : let s := onNotices (fun x => { x with waiting := [{ queue := 0, item := someItem }] }) State.reset; ((5 : BitVec 16).toNat, (2 : BitVec 8).toNat) ∉ s.notices.uncommitted ∧ takeWaiting 5 2 s.notices.waiting = some ({ queue := 0, item := someItem }, []) ∧ pointersAgree (getPh s 0) = true ∧ getF s (R.PH_CFG 0) F.PH_CFG_EN ≠ 0 ∧ (getPh s 0).items.length < phCapacity s 0 := by decide +kernel
theorem witness_NoticesEnterAndLeaveTheirQueues_2 : pointersAgree (getPh State.reset 1) = true ∧ pointersAgree (getPh (setPh State.reset 1 { PhQueue.empty with wr := 1 }) 1) = false := by decide +kernel
theorem witness_NoticesEnterAndLeaveTheirQueues_3 : let s := setPh State.reset 0 { PhQueue.empty with items := [someItem] }; Reads s (.loc 0) (R.PH_POP (0 : Fin 32)) ∧ getB s (R.PH_CFG (0 : Fin 32)) F.PH_CFG_SUB = false ∧ pointersAgree (getPh s (0 : Fin 32)) = true ∧ nextItem (getPh s (0 : Fin 32)).items = some someItem := by decide +kernel
theorem witness_NoticesEnterAndLeaveTheirQueues_4 : nextItem [someItem] = some someItem := by decide +kernel
theorem witness_NoticesEnterAndLeaveTheirQueues_5 : let l : PopLatch := { tag := masterId State.reset (.loc 0), w1 := 1, w2 := 2, w3 := 3, read1 := false, read2 := false, read3 := false, isItem := true, bad := 0 }; let s := setPh State.reset 0 { PhQueue.empty with latch := some l }; Reads s (.loc 0) (R.PH_ITEM (0 : Fin 32) (1 : Fin 3)) ∧ (getPh s (0 : Fin 32)).latch = some l ∧ l.tag = masterId s (.loc 0) := by decide +kernel
theorem witness_NoticesEnterAndLeaveTheirQueues_6 : Reads State.reset (.loc 0) (R.PH_ITEM (0 : Fin 32) (1 : Fin 3)) ∧ (getPh State.reset 0).latch = none := by decide +kernel
theorem witness_NoticesEnterAndLeaveTheirQueues_7 : Takes State.reset (.loc 0) (R.PH_CTL (0 : Fin 32)) := by decide +kernel
theorem witness_NoticesEnterAndLeaveTheirQueues_8a : Takes State.reset (.loc 0) (R.PH_CFG (0 : Fin 32)) ∧ phCfgRefused (dropOverlap (R.PH_CFG 0) 4 State.reset) 0 0 = true := by decide +kernel
theorem witness_NoticesEnterAndLeaveTheirQueues_8b : let v := getReg State.reset (R.PH_CFG 1); Takes State.reset (.loc 0) (R.PH_CFG (1 : Fin 32)) ∧ phCfgRefused (dropOverlap (R.PH_CFG 1) 4 State.reset) 1 v = false ∧ F.PH_CFG_EN.get v = 1 := by decide +kernel
theorem witness_NoticesEnterAndLeaveTheirQueues_8c : let v := F.PH_CFG_EN.put (getReg State.reset (R.PH_CFG 1)) 0; Takes State.reset (.loc 0) (R.PH_CFG (1 : Fin 32)) ∧ phCfgRefused (dropOverlap (R.PH_CFG 1) 4 State.reset) 1 v = false ∧ F.PH_CFG_EN.get v = 0 := by decide +kernel
theorem witness_NoticeEnvelopesCarryBatches_1 : let s := queueBatch; pointersAgree (getPh s (1 : Fin 32)) = true ∧ getB s (R.PH_CFG (1 : Fin 32)) F.PH_CFG_SUB = true ∧ getB s (R.PH_DST (1 : Fin 32)) F.PH_DST_VALID = true ∧ (getPh s 1).items ≠ [] ∧ (getPh s 1).built = none ∧ quarantined s = false ∧ underTest s 0x70 = false ∧ getB s (R.PH_DST (1 : Fin 32)) F.PH_DST_MC = true ∧ hasRoom s 7 (classOrUrgent (getF s (R.PH_DST (1 : Fin 32)) F.PH_DST_CLASS)) 4 = true := by decide +kernel
theorem witness_NoticeEnvelopesCarryBatches_2 : ∃ e, let s := setPh joined 1 { PhQueue.empty with built := some (build joined 1 kNotice true 0 3 [1, 2]) }; (getPh s (1 : Fin 32)).built = some e ∧ (∀ f ∈ s.bridge.fenceSlots, f.1 = (1 : Fin 32).val → fenceOpen s f = true) ∧ (∀ f ∈ s.bridge.fenceChans ++ s.bridge.fenceWait, f.1 ≠ (1 : Fin 32).val) ∧ underTest s 0x70 = false := ⟨_, rfl, by decide, by decide, by decide⟩
theorem witness_RequestsArriveAndStart_1a : let s := joined; quarantined s = false ∧ s.bridge.inbound.length + bit1 s.bridge.current.isSome < 32 ∧ poisonMismatch (asKind kWriteP (writeEnv 0x94008)) = false ∧ poisonMismatch (asKind kWriteA (writeEnv 0x94008)) = false ∧ poisonMismatch (asKind kRead (readEnv kRead 0x94008)) = false ∧ poisonMismatch (asKind kUnlockWrite (writeEnv 0x94008)) = false ∧ s.bridge.inbound = [] ∧ waiterDue s = false := by decide +kernel
theorem witness_RequestsArriveAndStart_1b : let s := joined; let f := asKind kLockRead (readEnv kLockRead 0x94008); quarantined s = false ∧ s.bridge.inbound.length + bit1 s.bridge.current.isSome < 32 ∧ poisonMismatch f = false ∧ s.bridge.waiters ++ s.bridge.ready = [] := by decide +kernel
theorem witness_RequestsArriveAndStart_2 : let s := onBridge (fun b => { b with waiters := [reqOf (readEnv kLockRead 0x94000)] }) joined; let f := asKind kLockRead (readEnv kLockRead 0x94008); quarantined s = false ∧ s.bridge.inbound.length + bit1 s.bridge.current.isSome < 32 ∧ poisonMismatch f = false ∧ (∃ w ∈ s.bridge.waiters ++ s.bridge.ready, w.id = f.src ++ f.tag.extractLsb' 7 4) := by decide +kernel
theorem witness_RequestsArriveAndStart_3a : let s := onBridge (fun b => { b with inbound := [reqOf (writeEnv 0x94008)] }) joined; bridgeIdle s = true ∧ waiterDue s = false ∧ nextRequest s = some (reqOf (writeEnv 0x94008)) := by decide +kernel
theorem witness_RequestsArriveAndStart_3b : let e := { writeEnv 0x94008 with cls := 2 }; let s := onBridge (fun b => { b with inbound := [reqOf e] }) joined; bridgeIdle s = true ∧ waiterDue s = false ∧ nextRequest s = some (reqOf e) ∧ startClass (reqOf e) = 2 := by decide +kernel
theorem witness_RequestsArriveAndStart_4a : let s := onBridge (fun b => { b with ready := [reqOf (readEnv kLockRead 0x94000)] }) joined; bridgeIdle s = true ∧ s.bridge.ready = [reqOf (readEnv kLockRead 0x94000)] := by decide +kernel
theorem witness_RequestsArriveAndStart_4b : let s := onBridge (fun b => { b with waiters := [reqOf (readEnv kLockRead 0x94000)] }) joined; bridgeIdle s = true ∧ s.bridge.ready = [] ∧ nextLocker s none = some (reqOf (readEnv kLockRead 0x94000)) := by decide +kernel
theorem witness_RequestsArriveAndStart_6 : ∃ p rest, piecesFrom 4 4 0x94008 4 = p :: rest ∧ needsGrant joined { env := writeEnv 0x94008, id := 5, pieces := p :: rest, done := 0, bytes := [], poison := 0, locked := false } p.1 = true := ⟨_, _, rfl, by decide⟩
theorem witness_RequestsArriveAndStart_7a : malformed (writeEnv 0x94008) = none ∧ lockFlagged (writeEnv 0x94008) = false ∧ (writeEnv 0x94008).kind ≠ kRead := by decide +kernel
theorem witness_RequestsArriveAndStart_7b : malformed (writeEnv 0x94009) = some .unaligned ∧ (writeEnv 0x94009).mc = false := by decide +kernel
theorem witness_RequestsArriveAndStart_7c : let e := { readEnv kRead 0x94008 with mc := true }; malformed e = some .badRequest ∧ e.mc = true ∧ e.kind ≠ kWriteP := by decide +kernel
theorem witness_RequestsArriveAndStart_7d : let e := { writeEnv 0x94008 with kind := kUnlockWrite, tag := 0 }; malformed e = none ∧ lockFlagged e = true ∧ e.kind ≠ kLockRead ∧ e.kind ≠ kRead ∧ inSequence joined (reqOf e) = false := by decide +kernel
theorem witness_RequestsArriveAndStart_7e : let e := { writeEnv 0x94008 with kind := kUnlockWrite, tag := 0 }; let s := takeLock (lockFor (reqOf (readEnv kLockRead 0x94008)) joined) joined; malformed e = none ∧ lockFlagged e = true ∧ e.kind ≠ kLockRead ∧ e.kind ≠ kRead ∧ inSequence s (reqOf e) = true := by decide +kernel
theorem witness_RequestsArriveAndStart_7f : malformed (readEnv kLockRead 0x94008) = none ∧ (readEnv kLockRead 0x94008).kind = kLockRead := by decide +kernel
theorem witness_RequestsArriveAndStart_7g : let e := { readEnv kRead 0x94008 with prefetch := true }; malformed e = none ∧ e.kind = kRead ∧ e.lock = false ∧ e.prefetch = true ∧ allPrefetchable (dropReader 5 0x94008 4 joined) 0x94008 4 = false := by decide +kernel
theorem witness_RequestsArriveAndStart_7h : let e := readEnv kRead 0x94008; malformed e = none ∧ e.kind = kRead ∧ e.lock = false ∧ e.prefetch = false ∧ hitBuffer (dropReader (requestId e) 0x94008 4 joined) (requestId e) 0x94008 4 = none := by decide +kernel
theorem witness_RequestsArriveAndStart_7i : ∃ k b, let e := readEnv kRead 0x200000; let s := setBuf 1 (some { master := requestId e, addr := 0x200000, data := [], poison := 0, claimed := 0, pm := 0, used := 1 }) joined; malformed e = none ∧ e.kind = kRead ∧ e.lock = false ∧ e.prefetch = false ∧ hitBuffer (dropReader (requestId e) 0x200000 4 s) (requestId e) 0x200000 4 = some (k, b) := ⟨_, _, by decide, rfl, rfl, rfl, rfl⟩
theorem witness_PiecesArePerformedInOrder_1a : let c : Current := { env := writeEnv 0x94008, id := requestId (writeEnv 0x94008), pieces := [(0x94008, 4)], done := 0, bytes := [], poison := 0, locked := false }; let s := performing (writeEnv 0x94008) (0x94008, 4); s.bridge.current = some c ∧ lostLock s c = false ∧ pieceHeld s c 0x94008 = false ∧ carriesData c.env.kind = true ∧ needsGrant s c 0x94008 = true ∧ holds (acquire 0 s) 0 = true ∧ (writePiece c (0x94008, 4) (acquire 0 s)).2 = some .accessDenied := by decide +kernel
theorem witness_PiecesArePerformedInOrder_1b : let c : Current := { env := writeEnv 0x94008, id := requestId (writeEnv 0x94008), pieces := [(0x94008, 4)], done := 0, bytes := [], poison := 0, locked := false }; let s := ringOpen 114 (performing (writeEnv 0x94008) (0x94008, 4)); s.bridge.current = some c ∧ lostLock s c = false ∧ pieceHeld s c 0x94008 = false ∧ carriesData c.env.kind = true ∧ needsGrant s c 0x94008 = true ∧ holds (acquire 0 s) 0 = true ∧ (writePiece c (0x94008, 4) (acquire 0 s)).2 = none ∧ (endRequest 0 (writePiece c (0x94008, 4) (acquire 0 s)).1).bridge.current.isSome = true := by decide +kernel
theorem witness_PiecesArePerformedInOrder_2a : let e := readEnv kRead 0x0; let c : Current := { env := e, id := requestId e, pieces := [(0, 4)], done := 0, bytes := [], poison := 0, locked := false }; let s := performing e (0, 4); s.bridge.current = some c ∧ lostLock s c = false ∧ pieceHeld s c 0 = false ∧ carriesData e.kind = false ∧ needsGrant s c 0 = true ∧ holds (acquire 0 s) 0 = true ∧ (match readBeats c.id false 0 .clean 0 [(0, 4)] (acquire 0 s) with | (t, .ok _) => (endRequest 0 t).bridge.current.isSome | _ => false) = true := by decide +kernel
theorem witness_PiecesArePerformedInOrder_2b : let e := readEnv kRead 0x94008; let c : Current := { env := e, id := requestId e, pieces := [(0x94008, 4)], done := 0, bytes := [], poison := 0, locked := false }; let s := performing e (0x94008, 4); s.bridge.current = some c ∧ lostLock s c = false ∧ pieceHeld s c 0x94008 = false ∧ carriesData e.kind = false ∧ needsGrant s c 0x94008 = true ∧ holds (acquire 0 s) 0 = true ∧ (match readBeats c.id false 0 .clean 0 [(0x94008, 4)] (acquire 0 s) with | (_, .ok _) => false | _ => true) = true := by decide +kernel
theorem witness_PiecesArePerformedInOrder_3a : let c : Current := { env := writeEnv 0, id := 0, pieces := [], done := 0, bytes := [], poison := 0, locked := false }; endsLock c true = false ∧ c.done = 0 := by decide +kernel
theorem witness_PiecesArePerformedInOrder_3b : let c : Current := { env := writeEnv 0, id := 0, pieces := [], done := 1, bytes := [], poison := 0, locked := false }; endsLock c true = false ∧ c.done ≠ 0 ∧ carriesData c.env.kind = true := by decide +kernel
theorem witness_PiecesArePerformedInOrder_4a : ∃ l, let s := takeLock { holder := 5, page := 0x94, sem := some 0, env := readEnv kLockRead 0x94000, begun := true } joined; lockOf s 5 = some l ∧ l.begun = true ∧ unlocking s 5 = false ∧ nextLocker (showLock (onBridge (fun b => { b with locks := b.locks.filter (fun k => k.holder ≠ 5) }) s)) (l.sem.map (fun _ => l.page)) = none := ⟨_, rfl, rfl, rfl, by decide⟩
theorem witness_PiecesArePerformedInOrder_4b : ∃ l w, let s := onBridge (fun b => { b with waiters := [reqOf (readEnv kLockRead 0x94000)] }) (takeLock { holder := 6, page := 0x94, sem := some 0, env := readEnv kLockRead 0x94000, begun := true } joined); lockOf s 6 = some l ∧ l.begun = true ∧ unlocking s 6 = false ∧ nextLocker (showLock (onBridge (fun b => { b with locks := b.locks.filter (fun k => k.holder ≠ 6) }) s)) (l.sem.map (fun _ => l.page)) = some w := ⟨_, _, rfl, rfl, rfl, rfl⟩
theorem witness_PiecesArePerformedInOrder_5 : ∃ b, getBuf (setBuf 1 (some { master := 5, addr := 0x200000, data := [], poison := 0, claimed := 0, pm := 0, used := 1 }) joined) (1 : Fin 4) = some b := ⟨_, rfl⟩
theorem witness_PiecesArePerformedInOrder_6 : ∃ l, let s := takeLock { holder := 5, page := 0x94, sem := some 0, env := readEnv kLockRead 0x94000, begun := false } joined; lockOf s 5 = some l ∧ l.begun = false := ⟨_, rfl, rfl⟩
theorem witness_PiecesArePerformedInOrder_7a : let e := { writeEnv 0x94008 with kind := kUnlockWrite, tag := 0 }; let c : Current := { env := e, id := 5, pieces := [(0x94008, 4)], done := 0, bytes := [], poison := 0, locked := true }; let s := onBridge (fun b => { b with current := some c }) joined; s.bridge.current = some c ∧ lostLock s c = true := by decide +kernel
theorem witness_PiecesArePerformedInOrder_7b : let e := writeEnv 0x94008; let c : Current := { env := e, id := 5, pieces := [(0x94008, 4)], done := 0, bytes := [], poison := 0, locked := false }; let s := onBridge (fun b => { b with current := some c }) { joined with arb := { joined.arb with holder := some 4 } }; s.bridge.current = some c ∧ lostLock s c = false ∧ pieceHeld s c 0x94008 = false ∧ needsGrant s c 0x94008 = true ∧ holds (acquire 0 s) 0 = false := by decide +kernel
theorem witness_PiecesArePerformedInOrder_7c : let e := readEnv kRead 0x200000; let c : Current := { env := e, id := 5, pieces := [(0x200000, 4)], done := 0, bytes := [], poison := 0, locked := false }; let s := onBridge (fun b => { b with current := some c }) { joined with time := { joined.time with sealing := true } }; s.bridge.current = some c ∧ lostLock s c = false ∧ pieceHeld s c 0x200000 = true := by decide +kernel
theorem witness_ChannelsIssueAndCompleteRequests_1a : let s := State.reset; let u := dropOverlap (R.BR_OC_CMD (1 : Fin 4)) 4 s; Takes s (.loc 1) (R.BR_OC_CMD (1 : Fin 4)) ∧ goRefused u 1 (F.BR_OC_CMD_GO.put 0 1) = true := by decide +kernel
theorem witness_ChannelsIssueAndCompleteRequests_1b : let s := State.reset; let u := dropOverlap (R.BR_OC_CMD (1 : Fin 4)) 4 s; Takes s (.loc 1) (R.BR_OC_CMD (1 : Fin 4)) ∧ goRefused u 1 (F.BR_OC_CMD_GO.put (F.BR_OC_CMD_BYTES.put (F.BR_OC_CMD_KIND.put 0 1) 4) 1) = false := by decide +kernel
theorem witness_ChannelsIssueAndCompleteRequests_2a : let e := requestOf joined 1; e.mc = false ∧ originTargets joined e = [] := by decide +kernel
theorem witness_ChannelsIssueAndCompleteRequests_2b : let s := setReg (setReg joined (R.BR_OC_DST 1) 0x10000) (R.BR_OC_CMD 1) 1; (requestOf s 1).mc = true ∧ (requestOf s 1).kind = kWriteP := by decide +kernel
theorem witness_ChannelsIssueAndCompleteRequests_2c : let s := setReg (setReg joined (R.BR_OC_DST 1) 0x10000) (R.BR_OC_CMD 1) 4; (requestOf s 1).mc = true ∧ (requestOf s 1).kind ≠ kWriteP ∧ freeSlot s (ownerOf s 1) ≠ none := by decide +kernel
theorem witness_ChannelsIssueAndCompleteRequests_2d : let s := (List.range 32).foldl (fun s i => setSlot (32 + i) { gen := 0, use := .quarantine } s) (setReg (setReg joined (R.BR_OC_DST 1) 0x10000) (R.BR_OC_CMD 1) 4); (requestOf s 1).mc = true ∧ (requestOf s 1).kind ≠ kWriteP ∧ freeSlot s (ownerOf s 1) = none := by decide +kernel
theorem witness_ChannelsIssueAndCompleteRequests_2e : let s := setReg (setReg (setReg (setReg routed (R.BR_OC_DST 1) 0x1001) (R.BR_OC_CMD 1) 1) (R.PH_CFG (getF joined R.MON_CTL F.MON_CTL_NTC_Q)) (F.PH_CFG_SUB.put (getReg joined (R.PH_CFG (getF joined R.MON_CTL F.MON_CTL_NTC_Q))) 1)) (R.PH_DST (getF joined R.MON_CTL F.MON_CTL_NTC_Q)) (F.PH_DST_CLASS.put (F.PH_DST_VALID.put 0x1001 1) 2); let e := requestOf s 1; e.mc = false ∧ e.kind = kWriteP ∧ originTargets s e ≠ [] ∧ noticesElsewhere s (ownerOf s 1) e.dst.toNat e.mc e.cls.toNat = true ∧ freeSlot s (ownerOf s 1) ≠ none := by decide +kernel
theorem witness_ChannelsIssueAndCompleteRequests_3a : ∃ e, let s := onChan 1 (fun t => { t with waiting := some (writeEnv 0x94008) }) joined; (getChan s (1 : Fin 4)).waiting = some e ∧ (getChan s (1 : Fin 4)).needSlot = false ∧ underTest s 0x70 = false ∧ (originate 3 (withCrcs { e with stamp := BitVec.ofNat 32 (nowNs s) }) s).2 = .noRoute := ⟨_, rfl, rfl, by decide, by decide⟩
theorem witness_ChannelsIssueAndCompleteRequests_3b : ∃ e, let s := onChan 1 (fun t => { t with waiting := some { writeEnv 0x94008 with cls := 1, dst := 0x1001 } }) routed; (getChan s (1 : Fin 4)).waiting = some e ∧ (getChan s (1 : Fin 4)).needSlot = false ∧ underTest s 0x70 = false ∧ (originate 3 (withCrcs { e with stamp := BitVec.ofNat 32 (nowNs s) }) s).2 = .accepted ∧ e.kind = kWriteP := ⟨_, rfl, rfl, by decide, by decide +kernel, rfl⟩
theorem witness_ChannelsIssueAndCompleteRequests_3c : ∃ e, let s := onChan 1 (fun t => { t with waiting := some { writeEnv 0x94008 with kind := kWriteA, cls := 1, dst := 0x1001 }, converted := true }) routed; (getChan s (1 : Fin 4)).waiting = some e ∧ (getChan s (1 : Fin 4)).needSlot = false ∧ underTest s 0x70 = false ∧ (originate 3 (withCrcs { e with stamp := BitVec.ofNat 32 (nowNs s) }) s).2 = .accepted ∧ e.kind ≠ kWriteP ∧ (getChan s (1 : Fin 4)).converted = true := ⟨_, rfl, rfl, by decide, by decide +kernel, by decide, rfl⟩
theorem witness_ChannelsIssueAndCompleteRequests_3d : ∃ e, let s := onChan 1 (fun t => { t with waiting := some { writeEnv 0x94008 with kind := kWriteA, cls := 1, dst := 0x1001 } }) routed; (getChan s (1 : Fin 4)).waiting = some e ∧ (getChan s (1 : Fin 4)).needSlot = false ∧ underTest s 0x70 = false ∧ (originate 3 (withCrcs { e with stamp := BitVec.ofNat 32 (nowNs s) }) s).2 = .accepted ∧ e.kind ≠ kWriteP ∧ (getChan s (1 : Fin 4)).converted = false := ⟨_, rfl, rfl, by decide, by decide +kernel, by decide, rfl⟩
theorem witness_ChannelsIssueAndCompleteRequests_3e : ∃ e, let s := setF (onChan 1 (fun t => { t with waiting := some { writeEnv 0x94008 with cls := 1, dst := 0x1001 } }) routed) R.SO_POOL F.SO_POOL_ICAP 0; (getChan s (1 : Fin 4)).waiting = some e ∧ (getChan s (1 : Fin 4)).needSlot = false ∧ underTest s 0x70 = false ∧ (originate 3 (withCrcs { e with stamp := BitVec.ofNat 32 (nowNs s) }) s).2 = .noRoom := ⟨_, rfl, rfl, by decide, by decide +kernel⟩
theorem witness_ChannelsIssueAndCompleteRequests_4a : let f := asKind kWriteAck (answerEnv kWriteAck []); let u := takeDelivered f slotOut; poisonMismatch f = false ∧ f.tag.toNat / 4 = 3 ∧ (getSlot u 3).use = .out (some 1) 7 1 kRead ∧ (getSlot u 3).gen = f.tag.toNat % 4 ∧ f.src = 7 := by decide +kernel
theorem witness_ChannelsIssueAndCompleteRequests_4b : let f := asKind kReadData { answerEnv kReadData [5] with poisonAny := true }; let u := bump (ctr 0x000B 7 0) (takeDelivered f slotOut); poisonMismatch f = true ∧ f.tag.toNat / 4 = 3 ∧ (getSlot u 3).use = .out (some 1) 7 1 kRead ∧ (getSlot u 3).gen = f.tag.toNat % 4 ∧ f.src = 7 := by decide +kernel
theorem witness_ChannelsIssueAndCompleteRequests_4c : let f := asKind kNdn (answerEnv kNdn [4, 0]); let u := takeDelivered f slotOut; poisonMismatch f = false ∧ f.tag.toNat / 4 = 3 ∧ (getSlot u 3).use = .out (some 1) 7 1 kRead ∧ (getSlot u 3).gen = f.tag.toNat % 4 ∧ f.src = 7 ∧ f.lenw = 2 := by decide +kernel
theorem witness_ChannelsIssueAndCompleteRequests_5a : (answerEnv kNdn [4]).lenw ≠ 2 := by decide +kernel
theorem witness_ChannelsIssueAndCompleteRequests_5b : (answerEnv kNdn [4, 0]).lenw = 2 := by decide +kernel
theorem witness_ChannelsIssueAndCompleteRequests_6a : (getChan State.reset 1).ntc = false := by decide +kernel
theorem witness_ChannelsIssueAndCompleteRequests_6b : (getChan (onChan 1 (fun t => { t with ntc := true }) State.reset) 1).ntc = true := by decide +kernel
theorem witness_ChannelsIssueAndCompleteRequests_7a : undispatched slotOut (3 : Fin 512) = false ∧ (getSlot slotOut (3 : Fin 512)).use = .out (some 1) 7 1 kRead := by decide +kernel
theorem witness_ChannelsIssueAndCompleteRequests_7b : undispatched (onChan 1 (fun t => { t with waiting := some (readEnv kRead 0x94008), slot := some 3 }) slotOut) (3 : Fin 512) = true := by decide +kernel
theorem witness_ChannelsIssueAndCompleteRequests_8 : (getSlot (quarantineSlot 3 slotOut) (3 : Fin 512)).use = .quarantine := by decide +kernel
theorem witness_ChannelsIssueAndCompleteRequests_9a : let f := asKind kWriteAck (answerEnv kWriteAck []); let u := takeDelivered f joined; poisonMismatch f = false ∧ f.tag.toNat / 4 = 3 ∧ (getSlot u 3).use = .free := by decide +kernel
theorem witness_ChannelsIssueAndCompleteRequests_9b : let f := asKind kReadData (answerEnv kReadData [5]); let u := takeDelivered f (quarantineSlot 3 joined); poisonMismatch f = false ∧ f.tag.toNat / 4 = 3 ∧ (getSlot u 3).use = .quarantine := by decide +kernel
theorem witness_ChannelsIssueAndCompleteRequests_9c : let f := asKind kNdn (answerEnv kNdn [4, 0]); let u := takeDelivered f joined; poisonMismatch f = false ∧ f.tag.toNat / 4 = 3 ∧ (getSlot u 3).use = .free ∧ f.lenw = 2 := by decide +kernel
theorem witness_DeadLettersAreLoggedAndForwarded_1a : dlLevel State.reset ≠ 64 := by decide +kernel
theorem witness_DeadLettersAreLoggedAndForwarded_1b : dlLevel (setReg State.reset R.DL_HEAD 64) = 64 := by decide +kernel
theorem witness_DeadLettersAreLoggedAndForwarded_2a : let u := dropOverlap R.DL_TAIL 4 State.reset; Takes State.reset (.loc 0) R.DL_TAIL ∧ (F.DL_TAIL_TAIL.get 0 + 128 - dlTail u) % 128 ≤ dlLevel u := by decide +kernel
theorem witness_DeadLettersAreLoggedAndForwarded_2b : let u := dropOverlap R.DL_TAIL 4 State.reset; Takes State.reset (.loc 0) R.DL_TAIL ∧ dlLevel u < (F.DL_TAIL_TAIL.get 1 + 128 - dlTail u) % 128 := by decide +kernel
theorem witness_DeadLettersAreLoggedAndForwarded_3a : let u := dropOverlap R.UP_TAIL 4 State.reset; Takes State.reset (.loc 0) R.UP_TAIL ∧ (F.UP_TAIL_TAIL.get 0 + 32 - getF u R.UP_TAIL F.UP_TAIL_TAIL) % 32 ≤ upLevel u := by decide +kernel
theorem witness_DeadLettersAreLoggedAndForwarded_3b : let u := dropOverlap R.UP_TAIL 4 State.reset; Takes State.reset (.loc 0) R.UP_TAIL ∧ upLevel u < (F.UP_TAIL_TAIL.get 1 + 32 - getF u R.UP_TAIL F.UP_TAIL_TAIL) % 32 := by decide +kernel
theorem witness_DeadLettersAreLoggedAndForwarded_4a : let s := onDead (fun d => { d with total := 1 }) (setF (setB (setF joined (R.BR_OC_OWN 2) F.BR_OC_OWN_MASTER 5) R.DL_FWD F.DL_FWD_VALID true) R.DL_HEAD F.DL_HEAD_HEAD 1); getB s R.DL_FWD F.DL_FWD_VALID = true ∧ chanState s 2 ≠ 1 ∧ ownerOf s 2 = 5 ∧ nextForward s < s.dead.total ∧ bitsOf (getReg s (R.DL_ENT 0 0)).toNat 7 4 ≠ 5 := by decide +kernel
theorem witness_DeadLettersAreLoggedAndForwarded_4b : let s := onDead (fun d => { d with total := 1 }) (setF (setB (setF (setReg joined (R.DL_ENT 0 0) 0x280) (R.BR_OC_OWN 2) F.BR_OC_OWN_MASTER 5) R.DL_FWD F.DL_FWD_VALID true) R.DL_HEAD F.DL_HEAD_HEAD 1); getB s R.DL_FWD F.DL_FWD_VALID = true ∧ chanState s 2 ≠ 1 ∧ ownerOf s 2 = 5 ∧ nextForward s < s.dead.total ∧ bitsOf (getReg s (R.DL_ENT 0 0)).toNat 7 4 = 5 := by decide +kernel
theorem witness_OutputsStartAndFinishEnvelopes_1a : ∃ e, let s := waitingOut; portUp s (0 : Fin 3) = true ∧ sendingAt s 0 = none ∧ nextClass s 0 = some 1 ∧ headOf s 0 1 = some e ∧ badWords s e 0 = [] := ⟨_, by decide, by decide, by decide, rfl, by decide⟩
theorem witness_OutputsStartAndFinishEnvelopes_1b : ∃ e, let s := onOffice (fun f => { f with stored := f.stored.map (fun x => { x with inp := 1, env := { x.env with cls := 2 } }), released := tabSet (fun _ => []) f.released 2 [{ id := 0, cell := 0, out := 0, cls := 2, inp := 1, seq := 0, slot := 0, dead := false }] }) (setPort waitingOut 0 { getPort joined 0 with credit := [(2, 100)] }); portUp s (0 : Fin 3) = true ∧ sendingAt s 0 = none ∧ nextClass s 0 = some 2 ∧ headOf s 0 2 = some e ∧ badWords s e 0 = [] ∧ e.inp < 3 := ⟨_, by decide, by decide, by decide, rfl, by decide, by decide⟩
theorem witness_OutputsStartAndFinishEnvelopes_2a : ∃ e, let env := withCrcs (writeEnv 0); let s := setSending 0 (some (0, env)) waitingOut; sendingAt s (0 : Fin 3) = some (0, env) ∧ findStored s 0 = some e ∧ e.whole = true ∧ e.cells ≤ arrivedCells s 0 e ∧ badWords s e 0 = [] := ⟨_, rfl, rfl, rfl, by decide, by decide⟩
theorem witness_OutputsStartAndFinishEnvelopes_2b : ∃ e, let env := stomp (withCrcs { writeEnv 0 with mc := true }); let s := onOffice (fun f => { f with stored := f.stored.map (fun x => { x with env := { x.env with mc := true } }) }) (setSending 0 (some (0, env)) waitingOut); sendingAt s (0 : Fin 3) = some (0, env) ∧ findStored s 0 = some e ∧ e.whole = true ∧ e.cells ≤ arrivedCells s 0 e ∧ badWords s e 0 = [] ∧ payloadCheck env = .stomped ∧ e.env.mc = true := ⟨_, rfl, rfl, rfl, by decide, by decide, by decide +kernel, rfl⟩
theorem witness_OutputsStartAndFinishEnvelopes_3 : ∃ e, let s := onOffice (fun f => { f with released := [] }) (setSending 0 (some (0, writeEnv 0)) waitingOut); sendingAt s (0 : Fin 3) = some (0, writeEnv 0) ∧ findStored s 0 = some e ∧ arrivedCells s 0 e < e.cells := ⟨_, rfl, rfl, by decide⟩
theorem witness_OutputsStartAndFinishEnvelopes_4a : let p : Ptr := { id := 1, cell := 0, out := 3, cls := 1, inp := 3, seq := 1, slot := 0, dead := false }; let s := onOffice (fun f => { f with held := [(p, 0)], stored := [] }) (setF waitingIn R.SO_SLOT F.SO_SLOT_SLOT 20); (∃ h ∈ s.office.held, h.1.out = (3 : Fin 8).val ∧ h.1.inp = (3 : Fin 8).val ∧ h.1.cls = (1 : Fin 4).val ∧ 16 ≤ slotsSince s h.2) ∧ s.office.stored.find? (fun e => ownsNumber e 3 3 1 (tabGet (fun _ => 0) s.office.expected (32 * 3 + 4 * 3 + 1))) = none := by decide +kernel
theorem witness_OutputsStartAndFinishEnvelopes_4b : let p : Ptr := { id := 1, cell := 0, out := 3, cls := 1, inp := 3, seq := 1, slot := 0, dead := false }; let s := onOffice (fun f => { f with held := [(p, 0)] }) (setF waitingIn R.SO_SLOT F.SO_SLOT_SLOT 20); (∃ h ∈ s.office.held, h.1.out = (3 : Fin 8).val ∧ h.1.inp = (3 : Fin 8).val ∧ h.1.cls = (1 : Fin 4).val ∧ 16 ≤ slotsSince s h.2) ∧ (s.office.stored.find? (fun e => ownsNumber e 3 3 1 (tabGet (fun _ => 0) s.office.expected (32 * 3 + 4 * 3 + 1)))).isSome = true := by decide +kernel
theorem witness_OutputsStartAndFinishEnvelopes_5a : ∃ e, let s := waitingIn; nextClass s ((0 : Fin 5).val + 3) = some 1 ∧ headOf s ((0 : Fin 5).val + 3) 1 = some e ∧ e.whole = true ∧ e.cells ≤ arrivedCells s ((0 : Fin 5).val + 3) e ∧ badWords s e 0 = [] := ⟨_, by decide, rfl, rfl, by decide, by decide⟩
theorem witness_OutputsStartAndFinishEnvelopes_5b : ∃ e, let s := waitingIn; nextClass s ((0 : Fin 5).val + 3) = some 1 ∧ headOf s ((0 : Fin 5).val + 3) 1 = some e ∧ e.whole = true ∧ e.cells ≤ arrivedCells s ((0 : Fin 5).val + 3) e ∧ (badWords s e 1).any (spoils e) = true := ⟨_, by decide, rfl, rfl, by decide, by decide⟩
theorem witness_OutputsStartAndFinishEnvelopes_6a : ∃ e, findStored waitingOut 0 = some e ∧ e.targets.filter (fun t => t ≠ 0) = [] := ⟨_, rfl, by decide⟩
theorem witness_OutputsStartAndFinishEnvelopes_6b : ∃ e, findStored waitingOut 0 = some e ∧ e.targets.filter (fun t => t ≠ 2) ≠ [] := ⟨_, rfl, by decide⟩
theorem witness_OutputsStartAndFinishEnvelopes_7a : let u := dropOverlap 0x8000C 4 State.reset; isSoRes (0x8000C : Word).toNat = true ∧ Takes State.reset (.loc 0) (0x8000C : Word).toNat ∧ soResRefused u 0x8000C 0x10001000 = false := by decide +kernel
theorem witness_OutputsStartAndFinishEnvelopes_7b : let u := dropOverlap 0x8000C 4 State.reset; isSoRes (0x8000C : Word).toNat = true ∧ Takes State.reset (.loc 0) (0x8000C : Word).toNat ∧ soResRefused u 0x8000C 0x00003000 = true := by decide +kernel
theorem witness_OutputsStartAndFinishEnvelopes_8 : (2 : Nat) < 3 ∧ (1 : Nat) ≠ 0 := by decide +kernel
theorem witness_OutputsStartAndFinishEnvelopes_9 : ([{ addr := 5, refs := 2 }] : List Cell)[0]? = some { addr := 5, refs := 2 } := by decide +kernel
theorem witness_OutputsStartAndFinishEnvelopes_10a : ∃ e, let s := waitingOut; portUp s (0 : Fin 3) = true ∧ sendingAt s 0 = none ∧ nextClass s 0 = some 1 ∧ headOf s 0 1 = some e ∧ (badWords s e 1).any (spoils e) = true := ⟨_, by decide, by decide, by decide, rfl, by decide⟩
theorem witness_OutputsStartAndFinishEnvelopes_10b : portUp joined (0 : Fin 3) = false := by decide +kernel
theorem witness_PortsComeUpAndGoDown_1 : let u := dropOverlap (R.PT_CTL (0 : Fin 3)) 4 State.reset; Takes State.reset (.loc 0) (R.PT_CTL (0 : Fin 3)) ∧ F.PT_CTL_EN.get (getReg u (R.PT_CTL (0 : Fin 3))) = 1 ∧ F.PT_CTL_RATE.get 0x6 ≠ F.PT_CTL_RATE.get (getReg u (R.PT_CTL (0 : Fin 3))) := by decide +kernel
theorem witness_PortsComeUpAndGoDown_2 : let u := dropOverlap (R.PT_CTL (0 : Fin 3)) 4 State.reset; Takes State.reset (.loc 0) (R.PT_CTL (0 : Fin 3)) ∧ F.PT_CTL_RATE.get 0 = F.PT_CTL_RATE.get (getReg u (R.PT_CTL (0 : Fin 3))) := by decide +kernel
theorem witness_PortsComeUpAndGoDown_3 : let s := setF State.reset (R.PT_STAT 0) F.PT_STAT_STATE 2; let u := dropOverlap (R.PT_CTL (0 : Fin 3)) 4 s; Takes s (.loc 0) (R.PT_CTL (0 : Fin 3)) ∧ F.PT_CTL_EN.get (getReg u (R.PT_CTL (0 : Fin 3))) = 1 ∧ F.PT_CTL_EN.get 1 = 1 ∧ F.PT_CTL_RATE.get 1 = F.PT_CTL_RATE.get (getReg u (R.PT_CTL (0 : Fin 3))) ∧ portState u 0 ≠ 0 := by decide +kernel
theorem witness_PortsComeUpAndGoDown_4 : (2 : Nat) < 3 ∧ (1 : Nat) < 2 := by decide +kernel
theorem witness_PortsComeUpAndGoDown_5a : (getPort (onPort 0 (fun t => { t with moduleOk := true }) State.reset) 0).moduleOk = true := by decide +kernel
theorem witness_PortsComeUpAndGoDown_5b : let s := State.reset; (getPort s 0).moduleOk = false ∧ portState s 0 ≠ 5 ∧ (getPort s 0).receiving = none ∧ portState s 0 < 2 := by decide +kernel
theorem witness_PortsComeUpAndGoDown_5c : let s := setF State.reset (R.PT_STAT 0) F.PT_STAT_STATE 2; 2 ≤ portState s 0 ∧ portState s 0 ≠ 5 ∧ (getPort s 0).receiving = none := by decide +kernel
theorem witness_PortsComeUpAndGoDown_5d : portState (setF State.reset (R.PT_STAT 0) F.PT_STAT_STATE 5) 0 = 5 := by decide +kernel
theorem witness_PortsComeUpAndGoDown_6 : let s := State.reset; getB s (R.PT_STAT (0 : Fin 3)) F.PT_STAT_MODABS ≠ !(getB s (R.PT_STAT (0 : Fin 3)) F.PT_STAT_MODABS) := by decide +kernel
theorem witness_PortsComeUpAndGoDown_7 : let s := setB State.reset (R.PT_STAT 0) F.PT_STAT_MODABS false; getB s (R.PT_STAT (0 : Fin 3)) F.PT_STAT_MODABS = false ∧ getB s (R.PT_CTL (0 : Fin 3)) F.PT_CTL_ANYMOD = false ∧ (3 : Byte) = 3 ∧ (4 : Byte) ≠ 3 := by decide +kernel
theorem witness_PortsComeUpAndGoDown_8 : portState (setF State.reset (R.PT_STAT 0) F.PT_STAT_STATE 2) (0 : Fin 3) = 2 := by decide +kernel
theorem witness_PortsComeUpAndGoDown_9a : portState (setF State.reset (R.PT_STAT 0) F.PT_STAT_STATE 4) (0 : Fin 3) = 4 := by decide +kernel
theorem witness_PortsComeUpAndGoDown_9b : let s := setF State.reset (R.PT_STAT 0) F.PT_STAT_STATE 2; portRate s (0 : Fin 3) = 0 ∧ (getPort s (0 : Fin 3)).downshifted = false ∧ portState s (0 : Fin 3) = 2 := by decide +kernel
theorem witness_PortsComeUpAndGoDown_10a : let s := setF State.reset (R.PT_STAT 0) F.PT_STAT_STATE 5; portState s (0 : Fin 3) = 5 ∧ getB s (R.PT_CTL (0 : Fin 3)) F.PT_CTL_AUTODN = true ∧ portRate s (0 : Fin 3) = 0 := by decide +kernel
theorem witness_PortsComeUpAndGoDown_10b : let s := setB (setF State.reset (R.PT_STAT 0) F.PT_STAT_STATE 5) (R.PT_CTL 0) F.PT_CTL_AUTODN false; portState s (0 : Fin 3) = 5 ∧ getB s (R.PT_CTL (0 : Fin 3)) F.PT_CTL_AUTODN = false := by decide +kernel
theorem witness_PortsComeUpAndGoDown_10c : portState (setF State.reset (R.PT_STAT 0) F.PT_STAT_STATE 3) (0 : Fin 3) = 3 := by decide +kernel
theorem witness_PortsComeUpAndGoDown_11 : (2 : Nat) < 3 ∧ (15 : Nat) < 16 := by decide +kernel
theorem witness_LinksCarryStampsAuditsAndTraining_1 : let s := setF State.reset (R.PT_STAT 0) F.PT_STAT_STATE 4; bitsOf (0x55 : DWord).toNat 0 8 = 0x55 ∧ 4 ≤ portState s (0 : Fin 3) := by decide +kernel
theorem witness_LinksCarryStampsAuditsAndTraining_2 : (getPort State.reset 0).receiving = none := by decide +kernel
theorem witness_LinksCarryStampsAuditsAndTraining_3a : let s := setF State.reset (R.PT_STAT 0) F.PT_STAT_STATE 4; 4 ≤ portState s (0 : Fin 3) ∧ sendingAt s (0 : Fin 3) = none ∧ (getPort s (0 : Fin 3)).sinceAudit < 15 := by decide +kernel
theorem witness_LinksCarryStampsAuditsAndTraining_3b : let s := onPort 0 (fun t => { t with sinceAudit := 15 }) (setF State.reset (R.PT_STAT 0) F.PT_STAT_STATE 5); 4 ≤ portState s (0 : Fin 3) ∧ sendingAt s (0 : Fin 3) = none ∧ 15 ≤ (getPort s (0 : Fin 3)).sinceAudit ∧ portState s (0 : Fin 3) = 5 := by decide +kernel
theorem witness_LinksCarryStampsAuditsAndTraining_3c : let s := setSending 0 (some (0, writeEnv 0)) (setF State.reset (R.PT_STAT 0) F.PT_STAT_STATE 5); 4 ≤ portState s (0 : Fin 3) ∧ (sendingAt s (0 : Fin 3)).isSome = true := by decide +kernel
theorem witness_LinksCarryStampsAuditsAndTraining_5 : let s := setF State.reset (R.PT_STAT 0) F.PT_STAT_STATE 4; bitsOf (0x99 : DWord).toNat 0 8 = 0x99 ∧ 4 ≤ portState s (0 : Fin 3) := by decide +kernel
theorem witness_LinksCarryStampsAuditsAndTraining_6 : let s := State.reset; (0 : Nat) < 3 ∧ (1 : Nat) ≠ 0 ∧ (0 + 65536 - tabGet (fun _ => 0) (getPort s 0).received 1) % 65536 = 0 ∧ 4096 < (5000 + 65536 - tabGet (fun _ => 0) (getPort s 0).received 1) % 65536 ∧ (7 + 65536 - tabGet (fun _ => 0) (getPort s 0).received 1) % 65536 = 7 := by decide +kernel
theorem witness_LinksCarryStampsAuditsAndTraining_7a : let s := setF State.reset (R.PT_STAT 0) F.PT_STAT_STATE 3; bitsOf (0xB66 : DWord).toNat 0 8 = 0x66 ∧ 3 ≤ portState s (0 : Fin 3) ∧ portState s (0 : Fin 3) = 3 ∧ compatible (0 : Fin 3) (bitsOf (0xB66 : DWord).toNat 8 2) = true := by decide +kernel
theorem witness_LinksCarryStampsAuditsAndTraining_7b : let s := setF State.reset (R.PT_STAT 0) F.PT_STAT_STATE 3; bitsOf (0x866 : DWord).toNat 0 8 = 0x66 ∧ 3 ≤ portState s (0 : Fin 3) ∧ portState s (0 : Fin 3) = 3 ∧ compatible (0 : Fin 3) (bitsOf (0x866 : DWord).toNat 8 2) = false := by decide +kernel
theorem witness_LinksCarryStampsAuditsAndTraining_7c : let s := setF State.reset (R.PT_STAT 0) F.PT_STAT_STATE 4; bitsOf (0x866 : DWord).toNat 0 8 = 0x66 ∧ 3 ≤ portState s (0 : Fin 3) ∧ portState s (0 : Fin 3) = 4 := by decide +kernel
theorem witness_LinksCarryStampsAuditsAndTraining_7d : let s := setF State.reset (R.PT_STAT 0) F.PT_STAT_STATE 5; bitsOf (0x866 : DWord).toNat 0 8 = 0x66 ∧ 3 ≤ portState s (0 : Fin 3) ∧ portState s (0 : Fin 3) = 5 := by decide +kernel
theorem witness_LinksCarryStampsAuditsAndTraining_8 : (0 : Nat) < 3 := by decide +kernel
theorem witness_LinksCarryStampsAuditsAndTraining_9a : let u := dropOverlap (R.PT_I2C_CMD (0 : Fin 3)) 4 State.reset; Takes State.reset (.loc 0) (R.PT_I2C_CMD (0 : Fin 3)) ∧ (getPort u (0 : Fin 3)).i2cBusy = false := by decide +kernel
theorem witness_LinksCarryStampsAuditsAndTraining_9b : let s := onPort 0 (fun t => { t with i2cBusy := true }) State.reset; let u := dropOverlap (R.PT_I2C_CMD (0 : Fin 3)) 4 s; Takes s (.loc 0) (R.PT_I2C_CMD (0 : Fin 3)) ∧ (getPort u (0 : Fin 3)).i2cBusy = true := by decide +kernel
theorem witness_LinksCarryStampsAuditsAndTraining_10 : let s := onPort 0 (fun t => { t with i2cBusy := true }) State.reset; (getPort s (0 : Fin 3)).i2cBusy = true ∧ getB s (R.PT_I2C_CMD (0 : Fin 3)) F.PT_I2C_CMD_WRITE = false := by decide +kernel
theorem witness_LinksCarryStampsAuditsAndTraining_11 : let s := onPort 0 (fun t => { t with moduleOk := true }) (setB State.reset (R.PT_MOD 0) F.PT_MOD_DDM true); (getPort s (0 : Fin 3)).moduleOk = true ∧ getB s (R.PT_MOD (0 : Fin 3)) F.PT_MOD_DDM = true := by decide +kernel
theorem witness_LinksCarryStampsAuditsAndTraining_12 : let s := setF State.reset (R.PT_STAT 0) F.PT_STAT_STATE 5; bitsOf (0x0F : DWord).toNat 0 8 = 0x0F ∧ bitsOf (0x33 : DWord).toNat 0 8 = 0x33 ∧ 3 ≤ portState s (0 : Fin 3) ∧ (getPort s (0 : Fin 3)).hunting = false ∧ bitsOf (0x77 : DWord).toNat 0 8 ∉ [0x0F, 0x33, 0x55, 0x66, 0x99] := by decide +kernel
theorem witness_EnvelopesAreReceivedOrDiscarded_1a : let s := setF State.reset (R.PT_STAT 0) F.PT_STAT_STATE 5; let f := asKind kWriteP (withCrcs (writeEnv 0)); canReceive s (0 : Fin 3) = true ∧ (getPort s (0 : Fin 3)).receiving = none ∧ headerGood f = true ∧ cutsEarly (beginReception 0 f (markAt s 0 0) (applyLinks s)) 0 f = false := by decide +kernel
theorem witness_EnvelopesAreReceivedOrDiscarded_1b : let s := setF (setF (setF (setF joined (R.PT_STAT 0) F.PT_STAT_STATE 5) (R.PT_STAT 1) F.PT_STAT_STATE 5) (R.SO_RES_A 0) F.SO_RES_A_URG 100) (R.SO_FWD 1) F.SO_FWD_CT 15; let f := asKind kRead (withCrcs { Envelope.blank with kind := kRead, cls := 1, hops := 5, dst := 0x1001, payload := [1, 2, 3, 4, 5, 6, 7, 8] }); canReceive s (0 : Fin 3) = true ∧ (getPort s (0 : Fin 3)).receiving = none ∧ headerGood f = true ∧ cutsEarly (beginReception 0 f (markAt s 0 0) (applyLinks s)) 0 f = true := by decide +kernel
theorem witness_EnvelopesAreReceivedOrDiscarded_1c : let s := setF State.reset (R.PT_STAT 0) F.PT_STAT_STATE 5; let f := asKind kWriteP { writeEnv 0 with lenw := 40 }; canReceive s (0 : Fin 3) = true ∧ (getPort s (0 : Fin 3)).receiving = none ∧ headerGood f = false := ⟨by decide, by decide, by simp [headerGood, asKind]⟩
theorem witness_EnvelopesAreReceivedOrDiscarded_2 : (getPort (onPort 0 (fun t => { t with hunting := true }) State.reset) (0 : Fin 3)).hunting = true := by decide +kernel
theorem witness_EnvelopesAreReceivedOrDiscarded_3a : 3 ≤ portState (setF State.reset (R.PT_STAT 0) F.PT_STAT_STATE 5) (0 : Fin 3) := by decide +kernel
theorem witness_EnvelopesAreReceivedOrDiscarded_3b : ∃ r, let s := onPort 0 (fun t => { t with receiving := some { env := writeEnv 0, id := none, bad := false, mark := { tick := 0, ph := 0 } } }) State.reset; (getPort s (0 : Fin 3)).receiving = some r ∧ r.id = none := ⟨_, rfl, rfl⟩
theorem witness_EnvelopesAreReceivedOrDiscarded_3c : ∃ r e, let s := onPort 0 (fun t => { t with receiving := some { env := writeEnv 0, id := some 0, bad := false, mark := { tick := 0, ph := 0 } } }) waitingOut; (getPort s (0 : Fin 3)).receiving = some r ∧ r.id = some 0 ∧ findStored (bump (ctr 0x000C 6 0) (onPort 0 (fun t => { t with receiving := none }) (onPort 0 (fun t => { t with hunting := false, inTransit := [] }) s))) 0 = some e := ⟨_, _, rfl, rfl, rfl⟩
theorem witness_EnvelopesAreReceivedOrDiscarded_4a : let s := onPort 0 (fun t => { t with hunting := true }) (setF State.reset (R.PT_STAT 0) F.PT_STAT_STATE 5); 4 ≤ portState s (0 : Fin 3) ∧ (getPort (receiveFills 0 2 (bumpN (ptCtr 1 0) 6 s)) 0).hunting = true := by decide +kernel
theorem witness_EnvelopesAreReceivedOrDiscarded_4b : let s := setF State.reset (R.PT_STAT 0) F.PT_STAT_STATE 5; let f := asKind kWriteP (withCrcs (writeEnv 0)); let x := receiveFills 0 0 (bumpN (ptCtr 1 0) (4 + f.lenw.toNat) s); 4 ≤ portState s (0 : Fin 3) ∧ (getPort x 0).hunting = false ∧ (getPort x 0).receiving = none ∧ headerGood f = true := by decide +kernel
theorem witness_EnvelopesAreReceivedOrDiscarded_4c : let s := setF State.reset (R.PT_STAT 0) F.PT_STAT_STATE 5; let f := asKind kWriteP { writeEnv 0 with lenw := 40 }; let x := receiveFills 0 0 (bumpN (ptCtr 1 0) 44 s); 4 ≤ portState s (0 : Fin 3) ∧ (getPort x 0).hunting = false ∧ (getPort x 0).receiving = none ∧ headerGood f = false := ⟨by decide, by decide, by decide, by simp [headerGood, asKind]⟩
theorem witness_EnvelopesAreReceivedOrDiscarded_4d : ∃ r, let s := onPort 0 (fun t => { t with receiving := some { env := writeEnv 0, id := none, bad := false, mark := { tick := 0, ph := 0 } } }) (setF State.reset (R.PT_STAT 0) F.PT_STAT_STATE 5); let x := receiveFills 0 1 (bumpN (ptCtr 1 0) 6 s); 4 ≤ portState s (0 : Fin 3) ∧ (getPort x 0).hunting = false ∧ (getPort x 0).receiving = some r ∧ r.id = none := ⟨_, by decide, by decide, rfl, rfl⟩
theorem witness_EnvelopesAreReceivedOrDiscarded_4e : ∃ r, let s := onPort 0 (fun t => { t with receiving := some { env := writeEnv 0, id := some 0, bad := true, mark := { tick := 0, ph := 0 } } }) (setF State.reset (R.PT_STAT 0) F.PT_STAT_STATE 5); let x := receiveFills 0 0 (bumpN (ptCtr 1 0) 6 s); 4 ≤ portState s (0 : Fin 3) ∧ (getPort x 0).hunting = false ∧ (getPort x 0).receiving = some r ∧ r.id = some 0 := ⟨_, by decide, by decide, rfl, rfl⟩
theorem witness_EnvelopesAreReceivedOrDiscarded_5a : let s := setF (setF joined (R.PT_STAT 0) F.PT_STAT_STATE 5) (R.SO_RES_A 0) F.SO_RES_A_URG 100; let e := withCrcs { writeEnv 0 with hops := 3, cls := 1 }; reservedKind e.kind = false ∧ e.hops ≠ 0 ∧ breaksPool (applyLinks s) 0 e = false ∧ e.pcrc = pcrcOf e := ⟨by decide, by decide, by decide, pcrc_withCrcs _⟩
theorem witness_EnvelopesAreReceivedOrDiscarded_5b : let s := setF (setF joined (R.PT_STAT 0) F.PT_STAT_STATE 5) (R.SO_RES_A 0) F.SO_RES_A_URG 0; let e := withCrcs { writeEnv 0 with hops := 3, cls := 1 }; reservedKind e.kind = false ∧ e.hops ≠ 0 ∧ breaksPool (applyLinks s) 0 e = true := by decide +kernel
theorem witness_EnvelopesAreReceivedOrDiscarded_5c : let s := setF (setF joined (R.PT_STAT 0) F.PT_STAT_STATE 5) (R.SO_RES_A 0) F.SO_RES_A_URG 100; let e := stomp (withCrcs { writeEnv 0 with hops := 3, cls := 1 }); reservedKind e.kind = false ∧ e.hops ≠ 0 ∧ breaksPool (applyLinks s) 0 e = false ∧ e.pcrc ≠ pcrcOf e ∧ e.pcrc = ~~~(pcrcOf e) := by decide +kernel
theorem witness_EnvelopesAreReceivedOrDiscarded_5d : let s := setF (setF joined (R.PT_STAT 0) F.PT_STAT_STATE 5) (R.SO_RES_A 0) F.SO_RES_A_URG 100; let e := { writeEnv 0 with hops := 3, cls := 1, pcrc := 1 }; reservedKind e.kind = false ∧ e.hops ≠ 0 ∧ breaksPool (applyLinks s) 0 e = false ∧ e.pcrc ≠ pcrcOf e ∧ e.pcrc ≠ ~~~(pcrcOf e) := by decide +kernel
theorem witness_EnvelopesAreReceivedOrDiscarded_5e : reservedKind 0 = true := by decide +kernel
theorem witness_ElectionsAndTheNumberingWave_1a : getB State.reset R.CN_STAT F.CN_STAT_ELIG = false := by decide +kernel
theorem witness_ElectionsAndTheNumberingWave_1b : getB (setB State.reset R.CN_STAT F.CN_STAT_ELIG true) R.CN_STAT F.CN_STAT_ELIG = true := by decide +kernel
theorem witness_ElectionsAndTheNumberingWave_2a : let u := dropOverlap R.CN_CMD 4 State.reset; Takes State.reset (.loc 0) R.CN_CMD ∧ F.CN_CMD_RENUMBER.get 0 = 0 ∧ F.CN_CMD_CLAIM.get 0 = 0 ∧ isRoot u = false := by decide +kernel
theorem witness_ElectionsAndTheNumberingWave_2b : let s := setB State.reset R.CN_STAT F.CN_STAT_ROOT true; let u := dropOverlap R.CN_CMD 4 s; Takes s (.loc 0) R.CN_CMD ∧ F.CN_CMD_CLAIM.get 0 = 0 ∧ isRoot u = true := by decide +kernel
theorem witness_ElectionsAndTheNumberingWave_2c : Takes State.reset (.loc 0) R.CN_CMD ∧ F.CN_CMD_RENUMBER.get 2 = 1 := by decide +kernel
theorem witness_ElectionsAndTheNumberingWave_3a : let f := asKind kCensus (censusMsg 1 0); let s := setF joined R.CN_CFG F.CN_CFG_RPRI 9; let y := showElecting (noteCensus f s); cOp f = 1 ∧ (cField f 1 16 8, cField f 1 32 32) ≠ ownClaim y ∧ mayPass y (cField f 1 16 8, cField f 1 32 32) = true := by decide +kernel
theorem witness_ElectionsAndTheNumberingWave_3b : let f := asKind kCensus (censusMsg 1 0); let s := setF { joined with regs := (R.ID_SERIAL_LO, 0) :: joined.regs } R.CN_CFG F.CN_CFG_RPRI 0; let y := showElecting (noteCensus f s); cOp f = 1 ∧ (cField f 1 16 8, cField f 1 32 32) = ownClaim y ∧ (0 : Fin 3).val ≠ claimPort y := by decide +kernel
theorem witness_ElectionsAndTheNumberingWave_3c : let f := asKind kCensus { censusMsg 1 0 with payload := [BitVec.ofNat 64 (1 + 3 * 2 ^ 16), 0xFF0000, 0] }; let s := onCensus (fun k => { k with best := some (0, 0) }) (setF joined R.CN_CFG F.CN_CFG_RPRI 9); let y := showElecting (noteCensus f s); cOp f = 1 ∧ (cField f 1 16 8, cField f 1 32 32) ≠ ownClaim y ∧ mayPass y (cField f 1 16 8, cField f 1 32 32) = false := by decide +kernel
theorem witness_ElectionsAndTheNumberingWave_4a : let f := asKind kCensus (censusMsg 2 5); cOp f = 2 ∧ isRoot (noteCensus f joined) = false := by decide +kernel
theorem witness_ElectionsAndTheNumberingWave_4b : let f := asKind kCensus (censusMsg 2 5); cOp f = 2 ∧ isRoot (noteCensus f (setB joined R.CN_STAT F.CN_STAT_ROOT true)) = true := by decide +kernel
theorem witness_ElectionsAndTheNumberingWave_5a : let s := joined; let e := censusMsg (2 + 128) 7; numbered s = false ∧ (waveTake (onCensus (fun c => { c with inWave := true, renumber := false }) s) 0 e).isSome = true := by decide +kernel
theorem witness_ElectionsAndTheNumberingWave_5b : let s := joined; let e := censusMsg 2 7; numbered s = false ∧ waveTake (onCensus (fun c => { c with inWave := true, renumber := false }) s) 0 e = none := by decide +kernel
theorem witness_ElectionsAndTheNumberingWave_5c : numbered (setB joined R.RT_KEY F.RT_KEY_VALID true) = true := by decide +kernel
theorem witness_ElectionsAndTheNumberingWave_6 : (4095 : Nat) < 4096 := by decide +kernel
theorem witness_ElectionsAndTheNumberingWave_7 : asKind kLinkEvent linkMsg ∈ (onCensus (fun c => { c with toApply := [linkMsg] }) joined).census.toApply := by decide +kernel
theorem witness_ElectionsAndTheNumberingWave_8 : let s := setF joined (R.PT_STAT 0) F.PT_STAT_STATE 5; portUp s 0 = true ∧ portUp s 1 = false := by decide +kernel
theorem witness_ElectionsAndTheNumberingWave_9 : (censusMsg 2 5).payload = [BitVec.ofNat 64 (2 + 3 * 2 ^ 16 + 5 * 2 ^ 48 + 2 ^ 60), 0, 0] := by decide +kernel
theorem witness_AdmissionAndJoining_1a : isRoot joined = false := by decide +kernel
theorem witness_AdmissionAndJoining_1b : let s := setB joined R.CN_STAT F.CN_STAT_ROOT true; let f := asKind kCensusReply (plainEnv kCensusReply [5, 77]); isRoot s = true ∧ cField f 0 12 4 = 0 ∧ mayAdmit (takeDelivered f s) (cField f 0 0 12) (decide (cField f 0 48 1 = 1)) (cField f 0 49 1) (payloadWord f 1) = true := by decide +kernel
theorem witness_AdmissionAndJoining_1c : let s := onCensus (fun c => { c with holders := [(10, some (78, false))] }) (setB joined R.CN_STAT F.CN_STAT_ROOT true); let f := asKind kCensusReply (plainEnv kCensusReply [5, 77]); isRoot s = true ∧ cField f 0 12 4 = 0 ∧ mayAdmit (takeDelivered f s) (cField f 0 0 12) (decide (cField f 0 48 1 = 1)) (cField f 0 49 1) (payloadWord f 1) = false := by decide +kernel
theorem witness_AdmissionAndJoining_2 : let r : Reply := { port := 0, index := 5, status := 0, pos := 1, epoch := 3 }; let s := onCensus (fun c => { c with reply := some r }) joined; admitted s = false ∧ s.census.reply = some r := by decide +kernel
theorem witness_AdmissionAndJoining_3 : isRoot (setB joined R.CN_STAT F.CN_STAT_ROOT true) = true := by decide +kernel
theorem witness_AdmissionAndJoining_4 : cOp (asKind kCensus (censusMsg 3 0)) = 3 := by decide +kernel
theorem witness_AdmissionAndJoining_5a : numbered joined = false ∧ tabGet (fun _ => none) (onCensus (fun c => { c with across := [(1, some 4)] }) joined).census.across 1 = some 4 := by decide +kernel
theorem witness_AdmissionAndJoining_5b : let s := setB joined R.RT_KEY F.RT_KEY_VALID true; numbered s = true ∧ mapBit (fun _ => [1]) (position s / 2) = true := by decide +kernel
theorem witness_AdmissionAndJoining_5c : let s := onCensus (fun c => { c with across := [(1, some 0)] }) (setF joined (R.PT_STAT 1) F.PT_STAT_STATE 5); tabGet (fun _ => none) s.census.across 1 = some 0 ∧ portUp s 1 = true ∧ mapBit (fun _ => [1]) 0 = true := by decide +kernel
theorem witness_AdmissionAndJoining_6 : let f := asKind kCensus (censusMsg 4 9); cOp f = 4 ∧ numbered joined = false ∧ cField f 0 60 1 = 1 := by decide +kernel
theorem witness_AdmissionAndJoining_7a : let s := onCensus (fun c => { c with heard := [(0, some { index := 9, last := none, ring := 0, epoch := 3 })] }) State.reset; quarantined s = true ∧ numbered s = false ∧ s.census.inWave = false ∧ heardOn s (eastPort s) ≠ none ∧ (joinChoice s).status = 1 := by decide +kernel
theorem witness_AdmissionAndJoining_7b : let s := onCensus (fun c => { c with heard := [(0, some { index := 9, last := some (6, 0), ring := 0, epoch := 3 })] }) { State.reset with regs := (R.ID_SERIAL_LO, 0) :: State.reset.regs }; quarantined s = true ∧ numbered s = false ∧ s.census.inWave = false ∧ heardOn s (eastPort s) ≠ none ∧ (joinChoice s).status ≠ 1 := by decide +kernel
theorem witness_TimeBasesTakeTheirCommits_1 : Takes State.reset (.loc 0) (R.ITB_INC_LO (0 : Fin 4)) ∧ incAllowed (0x33333333 + 2 ^ 32 * 3) = true ∧ incAllowed 5 = false := by decide +kernel
theorem witness_TimeBasesTakeTheirCommits_2 : Takes State.reset (.loc 0) (R.ITB_STEP_LO (0 : Fin 4)) := by decide +kernel
theorem witness_TimeBasesTakeTheirCommits_3 : Takes State.reset (.loc 0) (R.VD_CTL (0 : Fin 16)) := by decide +kernel
theorem witness_TimeBasesTakeTheirCommits_4a : State.reset.pending = [] ∧ clocked State.reset = true ∧ (getItb State.reset 0).pendStep = none ∧ (getItb (applyStep 0 true 5 State.reset) 0).pendStep = some (true, 5) := by decide +kernel
theorem witness_TimeBasesTakeTheirCommits_4b : clocked (onNode (fun n => { n with clkHold := true }) State.reset) = false := by decide +kernel
theorem witness_TimeBasesTakeTheirCommits_5 : F.VD_CTL_FOLLOW.get (getReg (setF (onVd 3 (fun g => { g with loadNext := true }) State.reset) (R.VD_CTL 3) F.VD_CTL_FOLLOW 0) (R.VD_CTL 3)) = 0 ∧ (getVd (setF (onVd 3 (fun g => { g with loadNext := true }) State.reset) (R.VD_CTL 3) F.VD_CTL_FOLLOW 0) 3).loadNext = true := by decide +kernel
theorem witness_NetworkTimeIsExchanged_1 : timeSends timeUp (0 : Fin 3) = true := by decide +kernel
theorem witness_NetworkTimeIsExchanged_2 : timeSends State.reset (0 : Fin 3) = false := by decide +kernel
theorem witness_NetworkTimeIsExchanged_3a : let f := asKind kDelayProbe (plainEnv kDelayProbe [3]); f.payload.length = 1 ∧ timeSends (bump (ctr 0x0010 4 0) (takeDelivered f timeUp)) (0 : Fin 3) = true := by decide +kernel
theorem witness_NetworkTimeIsExchanged_3b : let f := asKind kDelayProbe (plainEnv kDelayProbe [3]); f.payload.length = 1 ∧ timeSends (bump (ctr 0x0010 4 0) (takeDelivered f State.reset)) (0 : Fin 3) = false := by decide +kernel
theorem witness_NetworkTimeIsExchanged_3c : (asKind kDelayProbe (plainEnv kDelayProbe [3, 4])).payload.length ≠ 1 := by decide +kernel
theorem witness_NetworkTimeIsExchanged_4a : let f := asKind kDelayReply (plainEnv kDelayReply [BitVec.ofNat 64 (5 * 2 ^ 16 + 2 ^ 45), 4]); let u := takeDelivered f (onNet 0 (fun n => { n with t1 := [(5, 100)], t4 := [(5, 900)] }) State.reset); f.payload.length = 2 ∧ readingOf (getNet u 0).t1 (wordBits f 0 16 16) = some 100 ∧ readingOf (getNet u 0).t4 (wordBits f 0 16 16) = some 900 ∧ wordBits f 0 45 1 = 1 := by decide +kernel
theorem witness_NetworkTimeIsExchanged_4b : let f := asKind kDelayReply (plainEnv kDelayReply [3, 4]); let u := takeDelivered f State.reset; f.payload.length = 2 ∧ readingOf (getNet u 0).t1 (wordBits f 0 16 16) = none := by decide +kernel
theorem witness_NetworkTimeIsExchanged_4c : (asKind kDelayReply (plainEnv kDelayReply [3])).payload.length ≠ 2 := by decide +kernel
theorem witness_NetworkTimeIsExchanged_5a : let f := asKind kBeacon (plainEnv kBeacon [3, 4, 5]); f.payload.length = 3 ∧ beaconSample (takeDelivered f joined) 0 f = none := by decide +kernel
theorem witness_NetworkTimeIsExchanged_5b : let f := asKind kBeacon (plainEnv kBeacon [BitVec.ofNat 64 (2 ^ 58), 4, 5]); let s := onNet 0 (fun n => { n with rx := some (65535, 9) }) joined; f.payload.length = 3 ∧ beaconSample (takeDelivered f s) 0 f ≠ none := by decide +kernel
theorem witness_NetworkTimeIsExchanged_5c : (asKind kBeacon (plainEnv kBeacon [3])).payload.length ≠ 3 := by decide +kernel
theorem witness_NetworkTimeIsExchanged_6a : (let x := [0, 1, 2].foldl (fun s p => setB s (R.TM_P_BCN p) F.TM_P_BCN_ELIG (beaconEligible State.reset p)) State.reset; quarantined x = true) := by decide +kernel
theorem witness_NetworkTimeIsExchanged_6b : (let s := setF (setB joined R.TM_CTL F.TM_CTL_GM false) R.TM_STAT F.TM_STAT_PARENT 1; let x := [0, 1, 2].foldl (fun y p => setB y (R.TM_P_BCN p) F.TM_P_BCN_ELIG (beaconEligible s p)) s; quarantined x = false ∧ chosenParent x = none ∧ parentPort x ≠ 3) := by decide +kernel
theorem witness_NetworkTimeIsExchanged_6c : (let s := setB joined R.TM_CTL F.TM_CTL_GM false; let x := [0, 1, 2].foldl (fun y p => setB y (R.TM_P_BCN p) F.TM_P_BCN_ELIG (beaconEligible s p)) s; quarantined x = false ∧ chosenParent x = none ∧ parentPort x = 3) := by decide +kernel
theorem witness_NetworkTimeIsExchanged_6d : (let s := setB joined R.TM_CTL F.TM_CTL_GM true; let x := [0, 1, 2].foldl (fun y p => setB y (R.TM_P_BCN p) F.TM_P_BCN_ELIG (beaconEligible s p)) s; quarantined x = false ∧ chosenParent x ≠ none) := by decide +kernel
theorem witness_NetworkTimeIsExchanged_7a : let s := onNet 0 (fun n => { n with bcnSeq := 1 }) timeUp; (plainEnv kBeacon [0, 0, 0]).kind = kBeacon ∧ (wordBits (plainEnv kBeacon [0, 0, 0]) 0 40 16 + 1) % 65536 = (getNet s 0).bcnSeq := by decide +kernel
theorem witness_NetworkTimeIsExchanged_7b : (plainEnv kDelayProbe [3]).kind = kDelayProbe := by decide +kernel
theorem witness_NetworkTimeIsExchanged_7c : let s := onNet 0 (fun n => { n with turnRx := some (3, 9) }) timeUp; (plainEnv kDelayReply [3, 0]).kind = kDelayReply ∧ (getNet s 0).turnRx = some (wordBits (plainEnv kDelayReply [3, 0]) 0 0 16, 9) := by decide +kernel
theorem witness_NetworkTimeIsExchanged_7d : kRead ≠ kBeacon ∧ kRead ≠ kDelayProbe ∧ kRead ≠ kDelayReply := by decide +kernel
theorem witness_CycleBoundariesAndImages_1a : dueBoundary State.reset = none := by decide +kernel
theorem witness_CycleBoundariesAndImages_1b : let s := setItb (setReg State.reset R.TT_CYCLE 20000) 0 { getItb State.reset 0 with val := 50000 * 2 ^ 32 }; dueBoundary s = some 2 ∧ (let z := skipBoundaries 2 s; let y := applyService (onTt (fun t => { t with next := 3, edge := nowNs s, walk := 256, skip := [], waited := false, written := [], cycling := true, published := [] }) (bump (ctr 0x000F 0 0) (setReg z R.TT_CNUM 2))); (getB y R.TT_CTL F.TT_CTL_RUN && decide (serviceMode y ≠ 0)) = false) := by decide +kernel
theorem witness_CycleBoundariesAndImages_1c : let s := setB (setF (setF (setItb (setReg State.reset R.TT_CYCLE 20000) 0 { getItb State.reset 0 with val := 50000 * 2 ^ 32 }) R.NODE_STAT F.NODE_STAT_SERVICE_EFF 1) R.NODE_CTL F.NODE_CTL_SERVICE 1) R.TT_CTL F.TT_CTL_RUN true; dueBoundary s = some 2 ∧ (let z := skipBoundaries 2 s; let y := applyService (onTt (fun t => { t with next := 3, edge := nowNs s, walk := 256, skip := [], waited := false, written := [], cycling := true, published := [] }) (bump (ctr 0x000F 0 0) (setReg z R.TT_CNUM 2))); (getB y R.TT_CTL F.TT_CTL_RUN && decide (serviceMode y ≠ 0)) = true) := by decide +kernel
theorem witness_CycleBoundariesAndImages_2a : getB State.reset R.TT_CTL F.TT_CTL_SWAP_REQ = false := by decide +kernel
theorem witness_CycleBoundariesAndImages_2b : let s := setReg (setB (setB State.reset R.TT_CTL F.TT_CTL_SWAP_REQ true) R.TT_CTL F.TT_CTL_SWAP_AT true) R.TT_SWAPC 5; getB s R.TT_CTL F.TT_CTL_SWAP_REQ = true ∧ getB s R.TT_CTL F.TT_CTL_SWAP_AT = true ∧ signed 32 (cycleNumber s + 2 ^ 32 - (getReg s R.TT_SWAPC).toNat) < 0 := by decide +kernel
theorem witness_CycleBoundariesAndImages_2c : let s := setB State.reset R.TT_CTL F.TT_CTL_SWAP_REQ true; getB s R.TT_CTL F.TT_CTL_SWAP_REQ = true ∧ getB s R.TT_CTL F.TT_CTL_SWAP_AT = false := by decide +kernel
theorem witness_CycleBoundariesAndImages_2d : let s := setB (setB State.reset R.TT_CTL F.TT_CTL_SWAP_REQ true) R.TT_CTL F.TT_CTL_SWAP_AT true; getB s R.TT_CTL F.TT_CTL_SWAP_REQ = true ∧ 0 ≤ signed 32 (cycleNumber s + 2 ^ 32 - (getReg s R.TT_SWAPC).toNat) := by decide +kernel
theorem witness_CycleBoundariesAndImages_3a : (2 : Nat) ≠ 0 ∧ ttFrom State.reset (activeBank State.reset) (cycleNumber State.reset) State.reset.tt.walk = [] := by decide +kernel
theorem witness_CycleBoundariesAndImages_3b : (let s := setReg (onTt (fun t => { t with walk := 255 }) State.reset) (R.TT_ENT_W0 0 255) 0x80000000; ttFrom s (activeBank s) (cycleNumber s) s.tt.walk = 255 :: []) := by decide +kernel
theorem witness_CycleBoundariesAndImages_4a : State.reset.time.sealing = false := by decide +kernel
theorem witness_CycleBoundariesAndImages_4b : (startSeal State.reset).time.sealing = true ∧ Memory.wf (startSeal State.reset) = true := by decide +kernel
theorem witness_CycleBoundariesAndImages_5 : Memory.wf State.reset = true := by decide +kernel
theorem witness_CycleBoundariesAndImages_6a : F.TT_CTL_RUN.get 1 = 1 ∧ ttCycle State.reset = 0 := by decide +kernel
theorem witness_CycleBoundariesAndImages_6b : let w := F.TT_CTL_SWAP_AT.put (F.TT_CTL_SWAP_REQ.put 0 1) 1; F.TT_CTL_SWAP_REQ.get w = 1 ∧ getB State.reset R.TT_CTL F.TT_CTL_SWAP_REQ = false ∧ F.TT_CTL_SWAP_AT.get w = 1 ∧ signed 32 ((getReg State.reset R.TT_SWAPC).toNat + 2 ^ 32 - cycleNumber State.reset) ≤ 0 := by decide +kernel
theorem witness_CycleBoundariesAndImages_6c : F.TT_CTL_SWAPNOW.get (F.TT_CTL_SWAPNOW.put 0 1) = 1 ∧ ttRunning State.reset = false := by decide +kernel
theorem witness_CycleBoundariesAndImages_7 : Takes State.reset (.loc 0) R.TT_CTL := by decide +kernel
theorem witness_TimetableEntriesAreSentAndReceived_1 : Takes State.reset (.loc 0) (R.TT_ENT_W1 (0 : Fin 2) (5 : Fin 256)) ∧ Takes State.reset (.loc 0) (R.TT_ENT_W3 (1 : Fin 2) (255 : Fin 256)) := by decide +kernel
theorem witness_TimetableEntriesAreSentAndReceived_2a : let A := R.TT_ENT_W0 (0 : Fin 2) (5 : Fin 256); let s := State.reset; let u := dropOverlap A 4 s; Takes s (.loc 0) A ∧ ttEntryBad (ttCommitOf u (masterId u (.loc 0)) 0 5 0x80000000) = true := by decide +kernel
theorem witness_TimetableEntriesAreSentAndReceived_2b : let A := R.TT_ENT_W0 (0 : Fin 2) (5 : Fin 256); let s := onTt (fun t => { t with sending := some (0, 5) }) (setF State.reset (R.TT_ENT_W1 0 5) F.TT_ENT_W1_LENW 1); let u := dropOverlap A 4 s; Takes s (.loc 0) A ∧ ttEntryBad (ttCommitOf u (masterId u (.loc 0)) 0 5 0x80000000) = false ∧ s.tt.sending = some (0, 5) ∧ 0 = activeBank u ∧ s.tt.latch = none := by decide +kernel
theorem witness_TimetableEntriesAreSentAndReceived_2c : let A := R.TT_ENT_W0 (0 : Fin 2) (5 : Fin 256); let s := onTt (fun t => { t with sending := some (0, 5), latch := some { bank := 0, entry := 5, w0 := 0, w1 := 0, w2 := 0, w3 := 0 } }) (setF State.reset (R.TT_ENT_W1 0 5) F.TT_ENT_W1_LENW 1); let u := dropOverlap A 4 s; Takes s (.loc 0) A ∧ ttEntryBad (ttCommitOf u (masterId u (.loc 0)) 0 5 0x80000000) = false ∧ s.tt.sending = some (0, 5) ∧ 0 = activeBank u ∧ s.tt.latch ≠ none := by decide +kernel
theorem witness_TimetableEntriesAreSentAndReceived_2d : let A := R.TT_ENT_W0 (0 : Fin 2) (5 : Fin 256); let s := setF State.reset (R.TT_ENT_W1 0 5) F.TT_ENT_W1_LENW 1; let u := dropOverlap A 4 s; Takes s (.loc 0) A ∧ ttEntryBad (ttCommitOf u (masterId u (.loc 0)) 0 5 0x80000000) = false ∧ s.tt.sending ≠ some (0, 5) := by decide +kernel
theorem witness_TimetableEntriesAreSentAndReceived_3 : let l : TtLatch := { bank := 1, entry := 5, w0 := 0, w1 := 0, w2 := 0, w3 := 0 }; l.bank ≠ activeBank State.reset ∧ l.entry < 256 ∧ l.bank < 2 := by decide +kernel
theorem witness_TimetableEntriesAreSentAndReceived_4a : (onTt (fun t => { t with sending := some (0, 0) }) State.reset).tt.sending ≠ none := by decide +kernel
theorem witness_TimetableEntriesAreSentAndReceived_4b : State.reset.tt.sending = none ∧ State.reset.time.sealing = false ∧ ttFrom State.reset (activeBank State.reset) (cycleNumber State.reset) State.reset.tt.walk = [] := by decide +kernel
theorem witness_TimetableEntriesAreSentAndReceived_4c : (let s := setReg (onTt (fun t => { t with walk := 255, edge := 1 }) State.reset) (R.TT_ENT_W0 0 255) 0x80000000; s.time.sealing = false ∧ s.tt.sending = none ∧ ttFrom s (activeBank s) (cycleNumber s) s.tt.walk = 255 :: [] ∧ nowNs s < s.tt.edge + F.TT_ENT_W0_OFFSET.get (ttWord s (activeBank s) 255 0)) := by decide +kernel
theorem witness_TimetableEntriesAreSentAndReceived_4d : (let s := { setReg (onTt (fun t => { t with walk := 255 }) State.reset) (R.TT_ENT_W0 0 255) 0x80000000 with integrity := { State.reset.integrity with badWords := [R.TT_ENT_W0 0 255] } }; s.time.sealing = false ∧ s.tt.sending = none ∧ ttFrom s (activeBank s) (cycleNumber s) s.tt.walk = 255 :: [] ∧ s.tt.edge + F.TT_ENT_W0_OFFSET.get (ttWord s (activeBank s) 255 0) ≤ nowNs s ∧ ttEntryParity s (activeBank s) 255 = true) := by decide +kernel
theorem witness_TimetableEntriesAreSentAndReceived_4e : (let s := setReg (setReg (onTt (fun t => { t with walk := 255 }) routed) (R.TT_ENT_W0 0 255) 0x80000000) (R.TT_ENT_W1 0 255) (F.TT_ENT_W1_DST.put (F.TT_ENT_W1_LENW.put 0 1) 0x1001); s.time.sealing = false ∧ s.tt.sending = none ∧ ttFrom s (activeBank s) (cycleNumber s) s.tt.walk = 255 :: [] ∧ s.tt.edge + F.TT_ENT_W0_OFFSET.get (ttWord s (activeBank s) 255 0) ≤ nowNs s ∧ ttEntryParity s (activeBank s) 255 = false ∧ (originate 4 (cyclicEnv s (activeBank s) 255) s).2 = .accepted) := by decide +kernel
theorem witness_TimetableEntriesAreSentAndReceived_4f : (let s := setReg (onTt (fun t => { t with walk := 255 }) joined) (R.TT_ENT_W0 0 255) 0x80000000; s.time.sealing = false ∧ s.tt.sending = none ∧ ttFrom s (activeBank s) (cycleNumber s) s.tt.walk = 255 :: [] ∧ s.tt.edge + F.TT_ENT_W0_OFFSET.get (ttWord s (activeBank s) 255 0) ≤ nowNs s ∧ ttEntryParity s (activeBank s) 255 = false ∧ (originate 4 (cyclicEnv s (activeBank s) 255) s).2 = .noRoute) := by decide +kernel
theorem witness_TimetableEntriesAreSentAndReceived_4g : (let s := setF (setReg (setReg (onTt (fun t => { t with walk := 255 }) routed) (R.TT_ENT_W0 0 255) 0x80000000) (R.TT_ENT_W1 0 255) (F.TT_ENT_W1_DST.put (F.TT_ENT_W1_LENW.put 0 1) 0x1001)) R.SO_POOL F.SO_POOL_SCHED 0; s.time.sealing = false ∧ s.tt.sending = none ∧ ttFrom s (activeBank s) (cycleNumber s) s.tt.walk = 255 :: [] ∧ s.tt.edge + F.TT_ENT_W0_OFFSET.get (ttWord s (activeBank s) 255 0) ≤ nowNs s ∧ ttEntryParity s (activeBank s) 255 = false ∧ (originate 4 (cyclicEnv s (activeBank s) 255) s).2 = .noRoom) := by decide +kernel
theorem witness_TimetableEntriesAreSentAndReceived_6a : State.reset.tt.sending = none := by decide +kernel
theorem witness_TimetableEntriesAreSentAndReceived_6b : let s := onTt (fun t => { t with sending := some (0, 3) }) State.reset; s.tt.sending ≠ none ∧ s.tt.latch = none := by decide +kernel
theorem witness_TimetableEntriesAreSentAndReceived_6c : let s := onTt (fun t => { t with sending := some (0, 3), latch := some { bank := 0, entry := 3, w0 := 0, w1 := 0, w2 := 0, w3 := 0 } }) State.reset; s.tt.sending ≠ none ∧ s.tt.latch ≠ none := by decide +kernel
theorem witness_TimetableEntriesAreSentAndReceived_7a : let f := asKind kCyclic (plainEnv kCyclic [3]); let x := bump (ctr 0x000F 7 0) (takeDelivered f (setF joined R.NODE_STAT F.NODE_STAT_SERVICE_EFF 2)); 2 ≤ serviceMode x := by decide +kernel
theorem witness_TimetableEntriesAreSentAndReceived_7b : let f := asKind kCyclic { plainEnv kCyclic [3] with tag := 1 }; let x := bump (ctr 0x000F 7 0) (takeDelivered f joined); serviceMode x < 2 ∧ f.tag.toNat ≠ cycleNumber x % 4096 := by decide +kernel
theorem witness_TimetableEntriesAreSentAndReceived_7c : let f := asKind kCyclic (plainEnv kCyclic [3]); let x := bump (ctr 0x000F 7 0) (takeDelivered f joined); serviceMode x < 2 ∧ f.tag.toNat = cycleNumber x % 4096 ∧ cyclicWindow x f = none := by decide +kernel
theorem witness_TimetableEntriesAreSentAndReceived_7d : let f := asKind kCyclic { plainEnv kCyclic [3] with addr := 0x208000 }; let x := bump (ctr 0x000F 7 0) (takeDelivered f (setReg (setReg joined (R.TT_RX_A 31) 0x80000000) (R.TT_RX_B 31) 0x7FF80000)); serviceMode x < 2 ∧ f.tag.toNat = cycleNumber x % 4096 ∧ cyclicWindow x f = some 31 := by decide +kernel
theorem witness_TimetableEntriesAreSentAndReceived_8 : let e := { plainEnv kCyclic [3] with addr := 0x208000 }; 0x208000 ≤ e.addr.toNat ∧ e.addr.toNat + 8 * e.lenw.toNat ≤ 0x210000 := by decide +kernel
theorem witness_TracksFollowTheirSourceAndState_1a : let A := R.TK_CFG (0 : Fin 16); let s := setB State.reset (R.TK_CTL 0) F.TK_CTL_HOLD false; let u := dropOverlap A 4 s; Takes s (.loc 0) A ∧ getB u (R.TK_CTL 0) F.TK_CTL_HOLD = false ∧ changesAny u A [F.TK_CFG_SRC, F.TK_CFG_SEL, F.TK_CFG_VWIN] 1 = true := by decide +kernel
theorem witness_TracksFollowTheirSourceAndState_1b : let A := R.TK_CFG (0 : Fin 16); let s := State.reset; let u := dropOverlap A 4 s; Takes s (.loc 0) A ∧ getB u (R.TK_CTL 0) F.TK_CTL_HOLD = true ∧ changesAny u A [F.TK_CFG_SRC, F.TK_CFG_SEL] 1 = true := by decide +kernel
theorem witness_TracksFollowTheirSourceAndState_1c : let A := R.TK_CFG (0 : Fin 16); let s := State.reset; let u := dropOverlap A 4 s; Takes s (.loc 0) A ∧ getB u (R.TK_CTL 0) F.TK_CTL_HOLD = true ∧ changesAny u A [F.TK_CFG_SRC, F.TK_CFG_SEL] 0 = false := by decide +kernel
theorem witness_TracksFollowTheirSourceAndState_1d : let A := R.TK_RSRC (15 : Fin 16); let s := setF State.reset (R.TK_CFG 15) F.TK_CFG_SRC 3; let u := dropOverlap A 4 s; Takes s (.loc 0) A ∧ getB u (R.TK_CTL 15) F.TK_CTL_HOLD = true ∧ changesAny u A [F.TK_RSRC_NODE, F.TK_RSRC_TRACK, F.TK_RSRC_EN] 5 = true ∧ isRemote u (15 : Fin 16) = true := by decide +kernel
theorem witness_TracksFollowTheirSourceAndState_1e : let A := R.TK_RSRC (15 : Fin 16); let s := State.reset; let u := dropOverlap A 4 s; Takes s (.loc 0) A ∧ getB u (R.TK_CTL 15) F.TK_CTL_HOLD = true ∧ changesAny u A [F.TK_RSRC_NODE, F.TK_RSRC_TRACK, F.TK_RSRC_EN] 5 = true ∧ isRemote u (15 : Fin 16) = false := by decide +kernel
theorem witness_TracksFollowTheirSourceAndState_2a : evalState State.reset 3 = trackState State.reset 3 := by decide +kernel
theorem witness_TracksFollowTheirSourceAndState_2b : let s := setB State.reset (R.TK_CTL 3) F.TK_CTL_HOLD false; evalState s 3 ≠ trackState s 3 := by decide +kernel
theorem witness_TracksFollowTheirSourceAndState_3 : Takes State.reset (.loc 0) (R.TK_CTL (7 : Fin 16)) := by decide +kernel
theorem witness_TracksFollowTheirSourceAndState_4a : let s := State.reset; Takes s (.loc 0) (R.TK_POS_LO (7 : Fin 16)) ∧ isIncremental (dropOverlap (R.TK_POS_LO 7) 4 s) 7 = true := by decide +kernel
theorem witness_TracksFollowTheirSourceAndState_4b : let s := setF State.reset (R.TK_CFG 7) F.TK_CFG_SRC 4; Takes s (.loc 0) (R.TK_POS_LO (7 : Fin 16)) ∧ isIncremental (dropOverlap (R.TK_POS_LO 7) 4 s) 7 = false := by decide +kernel
theorem witness_TracksFollowTheirSourceAndState_5a : isRemote State.reset (3 : Fin 16) = false := by decide +kernel
theorem witness_TracksFollowTheirSourceAndState_5b : isRemote (setF State.reset (R.TK_CFG 3) F.TK_CFG_SRC 3) (3 : Fin 16) = true := by decide +kernel
theorem witness_TracksFollowTheirSourceAndState_6a : getB State.reset (R.TK_PUB_A (3 : Fin 16)) F.TK_PUB_A_EN = false := by decide +kernel
theorem witness_TracksFollowTheirSourceAndState_6b : let s := setB (onTt (fun t => { t with cycling := true }) joined) (R.TK_PUB_A 3) F.TK_PUB_A_EN true; getB s (R.TK_PUB_A (3 : Fin 16)) F.TK_PUB_A_EN = true ∧ quarantined s = false ∧ s.tt.cycling = true ∧ 3 ∉ s.tt.published ∧ getF s R.TT_CYCLE F.TT_CYCLE_NS ≤ getF s (R.TK_PUB_A (3 : Fin 16)) F.TK_PUB_A_OFFSET := by decide +kernel
theorem witness_TracksFollowTheirSourceAndState_6c : let s := setB (onTt (fun t => { t with cycling := true, edge := 1 }) (setReg joined R.TT_CYCLE 20000)) (R.TK_PUB_A 3) F.TK_PUB_A_EN true; getB s (R.TK_PUB_A (3 : Fin 16)) F.TK_PUB_A_EN = true ∧ quarantined s = false ∧ s.tt.cycling = true ∧ 3 ∉ s.tt.published ∧ getF s (R.TK_PUB_A (3 : Fin 16)) F.TK_PUB_A_OFFSET < getF s R.TT_CYCLE F.TT_CYCLE_NS ∧ nowNs s < s.tt.edge + getF s (R.TK_PUB_A (3 : Fin 16)) F.TK_PUB_A_OFFSET := by decide +kernel
theorem witness_TracksFollowTheirSourceAndState_6d : (let s := setF (setB (onTt (fun t => { t with cycling := true }) (setReg routed R.TT_CYCLE 20000)) (R.TK_PUB_A 3) F.TK_PUB_A_EN true) (R.TK_PUB_B 3) F.TK_PUB_B_DST 0x1001; getB s (R.TK_PUB_A (3 : Fin 16)) F.TK_PUB_A_EN = true ∧ quarantined s = false ∧ s.tt.cycling = true ∧ 3 ∉ s.tt.published ∧ getF s (R.TK_PUB_A (3 : Fin 16)) F.TK_PUB_A_OFFSET < getF s R.TT_CYCLE F.TT_CYCLE_NS ∧ s.tt.edge + getF s (R.TK_PUB_A (3 : Fin 16)) F.TK_PUB_A_OFFSET ≤ nowNs s ∧ (let o := originate 5 (sampleEnv s 3) (onTt (fun t => { t with published := 3 :: t.published }) s); o.2 = .accepted ∧ isRemote o.1 3 = false)) := by decide +kernel
theorem witness_TracksFollowTheirSourceAndState_6e : (let s := setF (setF (setB (onTt (fun t => { t with cycling := true }) (setReg routed R.TT_CYCLE 20000)) (R.TK_PUB_A 3) F.TK_PUB_A_EN true) (R.TK_PUB_B 3) F.TK_PUB_B_DST 0x1001) (R.TK_CFG 3) F.TK_CFG_SRC 3; getB s (R.TK_PUB_A (3 : Fin 16)) F.TK_PUB_A_EN = true ∧ quarantined s = false ∧ s.tt.cycling = true ∧ 3 ∉ s.tt.published ∧ getF s (R.TK_PUB_A (3 : Fin 16)) F.TK_PUB_A_OFFSET < getF s R.TT_CYCLE F.TT_CYCLE_NS ∧ s.tt.edge + getF s (R.TK_PUB_A (3 : Fin 16)) F.TK_PUB_A_OFFSET ≤ nowNs s ∧ (let o := originate 5 (sampleEnv s 3) (onTt (fun t => { t with published := 3 :: t.published }) s); o.2 = .accepted ∧ isRemote o.1 3 = true)) := by decide +kernel
theorem witness_TracksFollowTheirSourceAndState_6f : (let s := setB (onTt (fun t => { t with cycling := true }) (setReg joined R.TT_CYCLE 20000)) (R.TK_PUB_A 3) F.TK_PUB_A_EN true; getB s (R.TK_PUB_A (3 : Fin 16)) F.TK_PUB_A_EN = true ∧ quarantined s = false ∧ s.tt.cycling = true ∧ 3 ∉ s.tt.published ∧ getF s (R.TK_PUB_A (3 : Fin 16)) F.TK_PUB_A_OFFSET < getF s R.TT_CYCLE F.TT_CYCLE_NS ∧ s.tt.edge + getF s (R.TK_PUB_A (3 : Fin 16)) F.TK_PUB_A_OFFSET ≤ nowNs s ∧ (originate 5 (sampleEnv s 3) (onTt (fun t => { t with published := 3 :: t.published }) s)).2 = .noRoute) := by decide +kernel
theorem witness_TracksFollowTheirSourceAndState_6g : (let s := setF (setF (setF (setB (onTt (fun t => { t with cycling := true }) (setReg routed R.TT_CYCLE 20000)) (R.TK_PUB_A 3) F.TK_PUB_A_EN true) (R.TK_PUB_B 3) F.TK_PUB_B_DST 0x1001) R.SO_POOL F.SO_POOL_ICAP 0) R.SO_POOL F.SO_POOL_SCHED 0; getB s (R.TK_PUB_A (3 : Fin 16)) F.TK_PUB_A_EN = true ∧ quarantined s = false ∧ s.tt.cycling = true ∧ 3 ∉ s.tt.published ∧ getF s (R.TK_PUB_A (3 : Fin 16)) F.TK_PUB_A_OFFSET < getF s R.TT_CYCLE F.TT_CYCLE_NS ∧ s.tt.edge + getF s (R.TK_PUB_A (3 : Fin 16)) F.TK_PUB_A_OFFSET ≤ nowNs s ∧ (originate 5 (sampleEnv s 3) (onTt (fun t => { t with published := 3 :: t.published }) s)).2 = .noRoom) := by decide +kernel
theorem witness_TracksFollowTheirSourceAndState_7a : isIncremental State.reset 0 = true ∧ (getTrack State.reset 0).window = [] := by decide +kernel
theorem witness_TracksFollowTheirSourceAndState_7b : let s := onTrack 0 (fun t => { t with window := [(1, 2)] }) State.reset; isIncremental s 0 = true ∧ (getTrack s 0).window ≠ [] := by decide +kernel
theorem witness_TracksFollowTheirSourceAndState_8a : let e := plainEnv kTrackSample [3, 0, 0, 0]; let f := asKind kTrackSample e; let s := setReg (setF joined (R.TK_CFG 5) F.TK_CFG_SRC 3) (R.TK_RSRC 5) (F.TK_RSRC_EN.put (F.TK_RSRC_TRACK.put 0 3) 1); (List.range 16).filter (fun n => subscribes (takeDelivered f s) n f.src.toNat (bitsOf (payloadWord f 0).toNat 0 4)) = [5] ∧ f.lenw = 4 := by decide +kernel
theorem witness_TracksFollowTheirSourceAndState_8b : let e := plainEnv kTrackSample [3, 0, 0, 0]; let f := asKind kTrackSample e; (List.range 16).filter (fun n => subscribes (takeDelivered f joined) n f.src.toNat (bitsOf (payloadWord f 0).toNat 0 4)) = [] := by decide +kernel
theorem witness_TracksFollowTheirSourceAndState_9a : sampleDiscarded joined 5 (plainEnv kTrackSample [BitVec.ofNat 64 256, 0, 0, 0]) = true := by decide +kernel
theorem witness_TracksFollowTheirSourceAndState_9b : let e := plainEnv kTrackSample [BitVec.ofNat 64 (3 + 128), 0, 0, 0]; sampleDiscarded joined 5 e = false ∧ bitOf (payloadWord e 0).toNat 7 = true := by decide +kernel
theorem witness_TracksFollowTheirSourceAndState_9c : let e := plainEnv kTrackSample [3, 0, 0, 0]; sampleDiscarded joined 5 e = false ∧ bitsOf (payloadWord e 0).toNat 4 2 < 2 ∧ bitOf (payloadWord e 0).toNat 7 = false := by decide +kernel
theorem witness_TracksFollowTheirSourceAndState_10a : (offerSample 3 (sampleEnv joined 3) joined).2 ≠ .noRoom := by decide +kernel
theorem witness_TracksFollowTheirSourceAndState_10b : (let s := setF (setF (setF routed (R.TK_PUB_B 3) F.TK_PUB_B_DST 0x1001) R.SO_POOL F.SO_POOL_ICAP 0) R.SO_POOL F.SO_POOL_SCHED 0; (offerSample 3 (sampleEnv s 3) s).2 = .noRoom ∧ 2 * ticksSince s 0 ≤ 625) := by decide +kernel
theorem witness_TracksFollowTheirSourceAndState_10c : (let s := setF (setF (setF { routed with time := { routed.time with ltick := 1000 } } (R.TK_PUB_B 3) F.TK_PUB_B_DST 0x1001) R.SO_POOL F.SO_POOL_ICAP 0) R.SO_POOL F.SO_POOL_SCHED 0; (offerSample 3 (sampleEnv s 3) s).2 = .noRoom ∧ 625 < 2 * ticksSince s 0) := by decide +kernel
theorem witness_WaymarksFire_1a : (ramEntry State.reset (7 : Fin 4096)).ctl % 2 = 0 := by decide +kernel
theorem witness_WaymarksFire_1b : let s := setEntry 4095 (some (ramEntry (setMem32 State.reset (wmAddr 4095 2) 1) 4095)) (setMem32 State.reset (wmAddr 4095 2) 1); let r := ramEntry s (4095 : Fin 4096); r.ctl % 2 ≠ 0 ∧ ∃ e, getEntry s 4095 = some e ∧ e.pos = r.pos ∧ e.ctl = r.ctl ∧ e.period = r.period := ⟨by decide, _, rfl, by decide, by decide, by decide⟩
theorem witness_WaymarksFire_1c : let s := setMem32 State.reset (wmAddr 4095 2) 1; (ramEntry s (4095 : Fin 4096)).ctl % 2 ≠ 0 ∧ getEntry s 4095 = none := by decide +kernel
theorem witness_WaymarksFire_2a : firingOn State.reset = false := by decide +kernel
theorem witness_WaymarksFire_2b : let s := setF (setB (setF State.reset R.NODE_STAT F.NODE_STAT_SERVICE_EFF 1) R.WM_CTL F.WM_CTL_EN true) (R.TK_STAT 3) F.TK_STAT_STATE 0; moving s (3 : Fin 16) = true ∧ firingOn s = true := by decide +kernel
theorem witness_WaymarksFire_3a : ({ pos := 0, ctl := 1, period := 0, side := 0, fresh := true, queued := false } : WmEntry).fresh = true := by decide +kernel
theorem witness_WaymarksFire_3b : ({ pos := 0, ctl := 1, period := 0, side := 0, fresh := false, queued := false } : WmEntry).fresh = false := by decide +kernel
theorem witness_WaymarksFire_4a : State.reset.tracks.queue.length < 64 := by decide +kernel
theorem witness_WaymarksFire_4b : 64 ≤ (onTracks (fun x => { x with queue := List.replicate 64 { entry := 0, track := 0, pm := 0, pms := [], tick := 0, pos := 0, late := false, forward := true } }) State.reset).tracks.queue.length := by decide +kernel
theorem witness_WaymarksFire_5a : let f : Firing := { entry := 9, track := 0, pm := 0, pms := [], tick := 0, pos := 0, late := false, forward := true }; let s := setB (firingAt 9 2) R.WM_CTL F.WM_CTL_EN false; nextFiring s 2 = some f ∧ (∃ e, getEntry s 9 = some e) ∧ firingOn s = false := ⟨by decide, ⟨_, rfl⟩, by decide⟩
theorem witness_WaymarksFire_5b : let f : Firing := { entry := 9, track := 0, pm := 0, pms := [], tick := 0, pos := 0, late := false, forward := true }; let s := setPoison (firingAt 9 2) (wmAddr 9 4) true; nextFiring s 2 = some f ∧ firingOn s = true ∧ (∃ e, getEntry s 9 = some e ∧ entryBad s 9 e = true) := ⟨by decide, by decide, _, rfl, by decide⟩
theorem witness_WaymarksFire_5c : let f : Firing := { entry := 9, track := 0, pm := 0, pms := [], tick := 0, pos := 0, late := false, forward := true }; nextFiring (firingAt 9 0) 0 = some f ∧ firingOn (firingAt 9 0) = true ∧ (∃ e, getEntry (firingAt 9 0) 9 = some e ∧ entryBad (firingAt 9 0) 9 e = false) := ⟨by decide, by decide, _, rfl, by decide⟩
theorem witness_WaymarksFire_5d : let s := setMem32 (firingAt 9 1) (wmAddr 9 5) 1; let f : Firing := { entry := 9, track := 0, pm := 0, pms := [], tick := 0, pos := 0, late := false, forward := true }; nextFiring s 1 = some f ∧ firingOn s = true ∧ (∃ e, getEntry s 9 = some e ∧ entryBad s 9 e = false) := ⟨by decide, by decide, _, rfl, by decide⟩
theorem witness_WaymarksFire_5e : let f : Firing := { entry := 9, track := 0, pm := 0, pms := [], tick := 0, pos := 0, late := false, forward := true }; nextFiring (firingAt 9 2) 2 = some f ∧ firingOn (firingAt 9 2) = true ∧ (∃ e, getEntry (firingAt 9 2) 9 = some e ∧ entryBad (firingAt 9 2) 9 e = false) := ⟨by decide, by decide, _, rfl, by decide⟩
theorem witness_WaymarksFire_5f : let f : Firing := { entry := 9, track := 0, pm := 0, pms := [], tick := 0, pos := 0, late := false, forward := true }; let s := firingAt 9 3; ∃ e, nextFiring s 3 = some f ∧ getEntry s 9 = some e ∧ firingOn s = true ∧ entryBad s 9 e = false ∧ wmPeriodic e.ctl = false ∧ (let x := wmDisarm 9 (recordFiring f e (takeFiring f s)); x.tracks.emits.length < 16 ∧ getB x (R.WM_TPL_A (bitsOf (argA x f) 0 6)) F.WM_TPL_A_VALID = false) := ⟨_, by decide, rfl, by decide, by decide, by decide, by decide⟩
theorem witness_WaymarksFire_5g : let f : Firing := { entry := 9, track := 0, pm := 0, pms := [], tick := 0, pos := 0, late := false, forward := true }; let s := setB (firingAt 9 3) (R.WM_TPL_A 0) F.WM_TPL_A_VALID true; ∃ e, nextFiring s 3 = some f ∧ getEntry s 9 = some e ∧ firingOn s = true ∧ entryBad s 9 e = false ∧ wmPeriodic e.ctl = false ∧ (let x := wmDisarm 9 (recordFiring f e (takeFiring f s)); x.tracks.emits.length < 16 ∧ getB x (R.WM_TPL_A (bitsOf (argA x f) 0 6)) F.WM_TPL_A_VALID = true) := ⟨_, by decide, rfl, by decide, by decide, by decide, by decide⟩
theorem witness_WaymarksFire_5h : let f : Firing := { entry := 9, track := 0, pm := 0, pms := [], tick := 0, pos := 0, late := false, forward := true }; nextFiring (firingAt 9 4) 4 = some f ∧ firingOn (firingAt 9 4) = true ∧ (∃ e, getEntry (firingAt 9 4) 9 = some e ∧ entryBad (firingAt 9 4) 9 e = false) := ⟨by decide, by decide, _, rfl, by decide⟩
theorem witness_WaymarksFire_5i : let f : Firing := { entry := 9, track := 0, pm := 0, pms := [], tick := 0, pos := 0, late := false, forward := true }; nextFiring (firingAt 9 5) 5 = some f ∧ firingOn (firingAt 9 5) = true ∧ (∃ e, getEntry (firingAt 9 5) 9 = some e ∧ entryBad (firingAt 9 5) 9 e = false) := ⟨by decide, by decide, _, rfl, by decide⟩
theorem witness_WaymarksFire_5j : let s := setMem32 (firingAt 9 6) (wmAddr 9 4) 1; let f : Firing := { entry := 9, track := 0, pm := 0, pms := [], tick := 0, pos := 0, late := false, forward := true }; nextFiring s 6 = some f ∧ firingOn s = true ∧ (∃ e, getEntry s 9 = some e ∧ entryBad s 9 e = false) := ⟨by decide, by decide, _, rfl, by decide⟩
theorem witness_WaymarksFire_5k : let f : Firing := { entry := 9, track := 0, pm := 0, pms := [], tick := 0, pos := 0, late := false, forward := true }; nextFiring (firingAt 9 7) 7 = some f ∧ firingOn (firingAt 9 7) = true ∧ (∃ e, getEntry (firingAt 9 7) 9 = some e ∧ entryBad (firingAt 9 7) 9 e = false) := ⟨by decide, by decide, _, rfl, by decide⟩
theorem witness_WaymarksFire_6 : nextFiring State.reset 0 = none ∧ nextFiring State.reset 1 = none ∧ nextFiring State.reset 2 = none ∧ nextFiring State.reset 3 = none ∧ nextFiring State.reset 4 = none ∧ nextFiring State.reset 5 = none ∧ nextFiring State.reset 6 = none ∧ nextFiring State.reset 7 = none := by decide +kernel
theorem witness_WaymarksFire_9a : tabGet (fun _ => none) State.reset.tracks.pulses (5 : Fin 64) = none := by decide +kernel
theorem witness_WaymarksFire_9b : ∃ p, tabGet (fun _ => none) (onTracks (fun x => { x with pulses := tabSet (fun _ => none) x.pulses 63 (some { bank := 1, mask := 3, level := false, due := 7 }) }) State.reset).tracks.pulses (63 : Fin 64) = some p ∧ uclkEdges State.reset.time.ltick < p.due := ⟨_, rfl, by decide⟩
theorem witness_WaymarksFire_9c : ∃ p, tabGet (fun _ => none) (onTracks (fun x => { x with pulses := tabSet (fun _ => none) x.pulses 63 (some { bank := 1, mask := 3, level := false, due := 0 }) }) State.reset).tracks.pulses (63 : Fin 64) = some p ∧ p.due ≤ uclkEdges State.reset.time.ltick := ⟨_, rfl, by decide⟩
theorem witness_WaymarksFire_10a : State.reset.tracks.emits = [] := by decide +kernel
theorem witness_WaymarksFire_10b : let m : Emit := { template := 0, data := 0, entry := 0, track := 0, pm := 0 }; let s := onTracks (fun x => { x with emits := [m] }) (setF State.reset (R.BR_OC_OWN 3) F.BR_OC_OWN_MASTER 1); s.tracks.emits = [m] ∧ ownerOf s 3 ≠ 2 := by decide +kernel
theorem witness_WaymarksFire_10c : let m : Emit := { template := 0, data := 0, entry := 0, track := 0, pm := 0 }; let s := setReg (onTracks (fun x => { x with emits := [m] }) (setF State.reset (R.BR_OC_OWN 3) F.BR_OC_OWN_MASTER 2)) (R.WM_TPL_B 0) 2; s.tracks.emits = [m] ∧ chanState s 3 ≠ 1 ∧ ownerOf s 3 = 2 ∧ (let x := loadEmit m (onTracks (fun x => { x with emits := [] }) s); goRefused x 3 (getReg x (R.BR_OC_CMD 3)) = true) := by decide +kernel
theorem witness_WaymarksFire_10d : let m : Emit := { template := 0, data := 0, entry := 0, track := 0, pm := 0 }; let s := onTracks (fun x => { x with emits := [m] }) (setReg (setF (setReg joined (R.RT_PRES 0) 2) (R.BR_OC_OWN 3) F.BR_OC_OWN_MASTER 2) (R.WM_TPL_A 0) (F.WM_TPL_A_DST.put (F.WM_TPL_A_CLASS.put 0 1) 0x1001)); s.tracks.emits = [m] ∧ chanState s 3 ≠ 1 ∧ ownerOf s 3 = 2 ∧ (let x := loadEmit m (onTracks (fun x => { x with emits := [] }) s); goRefused x 3 (getReg x (R.BR_OC_CMD 3)) = false) := by decide +kernel
theorem witness_WaymarksFire_11 : Takes State.reset (.loc 0) R.WM_CTL := by decide +kernel
theorem witness_WaymarksFire_12a : Reads State.reset (.loc 0) R.WM_CAP_LO ∧ State.reset.tracks.caps = [] := by decide +kernel
theorem witness_WaymarksFire_12b : let s := onTracks (fun x => { x with caps := [(1, 2)] }) State.reset; Reads s (.loc 0) R.WM_CAP_LO ∧ s.tracks.caps = [(1, 2)] := by decide +kernel
theorem witness_WaymarksFire_13a : let f : Firing := { entry := 3, track := 0, pm := 0, pms := [], tick := 0, pos := 0, late := false, forward := true }; let s := setBytes State.reset (wmAddr 3 4) (leBytes 4 (7 + 0x3000)); bitOf (argA s f) 12 = true ∧ bitOf (argA s f) 13 = true := by decide +kernel
theorem witness_WaymarksFire_13b : let f : Firing := { entry := 3, track := 0, pm := 0, pms := [], tick := 0, pos := 0, late := false, forward := true }; bitOf (argA State.reset f) 12 = false := by decide +kernel
theorem witness_WaymarksFire_14a : let f : Firing := { entry := 3, track := 0, pm := 0, pms := [], tick := 0, pos := 0, late := false, forward := true }; State.reset.tracks.caps.length < 32 ∧ bitOf (argA State.reset f) 4 = false ∧ freePulse State.reset = some 0 ∧ woutMask State.reset (bitsOf (argA State.reset f) 16 4) (argA State.reset f % 65536) = 0 := by decide +kernel
theorem witness_WaymarksFire_14b : let f : Firing := { entry := 3, track := 0, pm := 0, pms := [], tick := 0, pos := 0, late := false, forward := true }; let s := setMem32 (onTracks (fun x => { x with caps := List.replicate 32 (0, 0) }) State.reset) (wmAddr 3 4) 16; 32 ≤ s.tracks.caps.length ∧ bitOf (argA s f) 4 = true := by decide +kernel
theorem witness_WaymarksFire_14c : let f : Firing := { entry := 3, track := 0, pm := 0, pms := [], tick := 0, pos := 0, late := false, forward := true }; let s := setF (setMem32 State.reset (wmAddr 3 4) 1) (R.PIN_CFG 0) F.PIN_CFG_FUNC 3; freePulse s = some 0 ∧ woutMask s (bitsOf (argA s f) 16 4) (argA s f % 65536) ≠ 0 := by decide +kernel
theorem witness_WaymarksFire_14d : freePulse (onTracks (fun x => { x with pulses := (List.range 64).map (fun k => (k, some { bank := 0, mask := 1, level := false, due := 0 })) }) State.reset) = none := by decide +kernel
theorem witness_DuplexPairsClaimAndStep_1a : let s := State.reset; let u := dropOverlap R.DPX_CTL 4 s; let w := F.DPX_CTL_EN.put (0 : Word) 1; Takes s (.loc 0) R.DPX_CTL ∧ F.DPX_CTL_YIELD.get w = 0 ∧ F.DPX_CTL_CLRF.get w = 0 ∧ F.DPX_CTL_FAULT.get w = 0 ∧ dpxOn u = false ∧ enableOk u = false := by decide +kernel
theorem witness_DuplexPairsClaimAndStep_1b : let s := setF (setF (setB State.reset R.RT_CFG F.RT_CFG_PAIR true) (R.PT_STAT 2) F.PT_STAT_STATE 5) (R.PT_STAT 2) F.PT_STAT_NROLE 2; let u := dropOverlap R.DPX_CTL 4 s; let w := F.DPX_CTL_EN.put (0 : Word) 1; Takes s (.loc 0) R.DPX_CTL ∧ F.DPX_CTL_YIELD.get w = 0 ∧ F.DPX_CTL_CLRF.get w = 0 ∧ F.DPX_CTL_FAULT.get w = 0 ∧ dpxOn u = false ∧ enableOk u = true := by decide +kernel
theorem witness_DuplexPairsClaimAndStep_1c : let w := F.DPX_CTL_EN.put (0 : Word) 0; Takes State.reset (.loc 0) R.DPX_CTL ∧ F.DPX_CTL_YIELD.get w = 0 ∧ F.DPX_CTL_CLRF.get w = 0 ∧ F.DPX_CTL_FAULT.get w = 0 := by decide +kernel
theorem witness_DuplexPairsClaimAndStep_2a : let s := State.reset; let u := dropOverlap R.DPX_CTL 4 s; let w := F.DPX_CTL_YIELD.put (0 : Word) 1; Takes s (.loc 0) R.DPX_CTL ∧ F.DPX_CTL_EN.get w = F.DPX_CTL_EN.get (getReg u R.DPX_CTL) ∧ F.DPX_CTL_CLRF.get w = 0 ∧ F.DPX_CTL_FAULT.get w = 0 := by decide +kernel
theorem witness_DuplexPairsClaimAndStep_2b : let s := State.reset; let u := dropOverlap R.DPX_CTL 4 s; let w := F.DPX_CTL_CLRF.put (0 : Word) 1; Takes s (.loc 0) R.DPX_CTL ∧ F.DPX_CTL_EN.get w = F.DPX_CTL_EN.get (getReg u R.DPX_CTL) ∧ F.DPX_CTL_YIELD.get w = 0 ∧ F.DPX_CTL_FAULT.get w = 0 := by decide +kernel
theorem witness_DuplexPairsClaimAndStep_2c : let s := State.reset; let u := dropOverlap R.DPX_CTL 4 s; let w := F.DPX_CTL_FAULT.put (0 : Word) 1; Takes s (.loc 0) R.DPX_CTL ∧ F.DPX_CTL_EN.get w = F.DPX_CTL_EN.get (getReg u R.DPX_CTL) ∧ F.DPX_CTL_YIELD.get w = 0 ∧ F.DPX_CTL_CLRF.get w = 0 := by decide +kernel
theorem witness_DuplexPairsClaimAndStep_3a : followsPartner State.reset = followsPartner (id State.reset) := by decide +kernel
theorem witness_DuplexPairsClaimAndStep_3b : let s := setF (setB State.reset R.DPX_CTL F.DPX_CTL_EN true) R.DPX_STAT F.DPX_STAT_STATE 1; followsPartner s = true ∧ followsPartner ((fun _ => State.reset) s) = false := by decide +kernel
theorem witness_DuplexPairsClaimAndStep_3c : let s := setF (setB State.reset R.DPX_CTL F.DPX_CTL_EN true) R.DPX_STAT F.DPX_STAT_STATE 1; followsPartner State.reset = false ∧ followsPartner ((fun _ => s) State.reset) = true := by decide +kernel
theorem witness_DuplexPairsClaimAndStep_4a : (1 : Nat) < 4 ∧ dpxState State.reset ≠ 1 := by decide +kernel
theorem witness_DuplexPairsClaimAndStep_4b : (0 : Nat) < 4 ∧ dpxState State.reset = 0 := by decide +kernel
theorem witness_DuplexPairsClaimAndStep_5a : (5 : Nat) < 32 ∧ dpxState State.reset ≠ 1 ∧ dpxState State.reset ≠ 2 := by decide +kernel
theorem witness_DuplexPairsClaimAndStep_5b : let s := setReg (setF State.reset R.DPX_STAT F.DPX_STAT_STATE 2) R.DPX_FMASK 32; (getReg s R.DPX_FMASK).getLsbD 5 = true ∧ dpxState s = 2 := by decide +kernel
theorem witness_DuplexPairsClaimAndStep_5c : let s := setReg (setF State.reset R.DPX_STAT F.DPX_STAT_STATE 1) R.DPX_FMASK 32; (getReg s R.DPX_FMASK).getLsbD 5 = true ∧ dpxState s = 1 := by decide +kernel
theorem witness_DuplexPairsClaimAndStep_6 : ∀ m x, m < 8 → (tabGet (fun _ => Mb.reset) State.reset.buses.mbs m).tx = some x → x.obj < 128 := by intro m x _ h; cases h
theorem witness_DuplexPairsClaimAndStep_7a : getB State.reset R.DPX_STAT F.DPX_STAT_PEER = false := by decide +kernel
theorem witness_DuplexPairsClaimAndStep_7b : let s := State.reset; getB s R.DPX_STAT F.DPX_STAT_PEER ≠ true ∧ dpxOn s = false := by decide +kernel
theorem witness_DuplexPairsClaimAndStep_7c : let s := setB (setB (setB (setF State.reset R.DPX_STAT F.DPX_STAT_ROLE 1) R.DPX_CTL F.DPX_CTL_EN true) R.DPX_STAT F.DPX_STAT_CLAIM true) R.DPX_STAT F.DPX_STAT_PEER false; getB s R.DPX_STAT F.DPX_STAT_PEER ≠ true ∧ dpxOn s = true ∧ getB s R.DPX_STAT F.DPX_STAT_CLAIM = true ∧ dpxRole s = 1 := by decide +kernel
theorem witness_DuplexPairsClaimAndStep_7d : let s := setB (setB (setB State.reset R.DPX_CTL F.DPX_CTL_EN true) R.DPX_STAT F.DPX_STAT_CLAIM true) R.DPX_STAT F.DPX_STAT_PEER true; getB s R.DPX_STAT F.DPX_STAT_PEER ≠ false ∧ dpxOn s = true ∧ getB s R.DPX_STAT F.DPX_STAT_CLAIM = true := by decide +kernel
theorem witness_DuplexPairsClaimAndStep_8a : mayClaim State.reset = false := by decide +kernel
theorem witness_DuplexPairsClaimAndStep_8b : mayClaim (setB (setF (setF (setB joined R.DPX_CTL F.DPX_CTL_EN true) R.DPX_STAT F.DPX_STAT_STATE 1) R.NODE_STAT F.NODE_STAT_SERVICE_EFF 1) R.DPX_STAT F.DPX_STAT_PEER false) = true := by decide +kernel
theorem witness_DuplexPairsClaimAndStep_9a : itbNs State.reset 3 / 1000 % 2 ^ 32 = (getReg State.reset R.DPX_STEP).toNat := by decide +kernel
theorem witness_DuplexPairsClaimAndStep_9b : let s := setItb State.reset 3 { getItb State.reset 3 with val := 5000 * 2 ^ 32 }; itbNs s 3 / 1000 % 2 ^ 32 ≠ (getReg s R.DPX_STEP).toNat ∧ dpxOn s = false := by decide +kernel
theorem witness_DuplexPairsClaimAndStep_9c : let s := setB (setItb State.reset 3 { getItb State.reset 3 with val := 5000 * 2 ^ 32 }) R.DPX_CTL F.DPX_CTL_EN true; itbNs s 3 / 1000 % 2 ^ 32 ≠ (getReg s R.DPX_STEP).toNat ∧ dpxOn s = true := by decide +kernel
theorem witness_DuplexPairsClaimAndStep_10a : (partnerForm 1 (plainEnv kHealth [1])).payload.length < 30 ∧ (partnerForm 2 (plainEnv kHealth [1])).payload.length < 13 ∧ (partnerForm 3 (plainEnv kHealth [1])).payload.length < 2 := by decide +kernel
theorem witness_DuplexPairsClaimAndStep_10b : 30 ≤ (partnerForm 1 (plainEnv kHealth (List.replicate 30 1))).payload.length ∧ 13 ≤ (partnerForm 2 (plainEnv kHealth (List.replicate 30 1))).payload.length ∧ 2 ≤ (partnerForm 3 (plainEnv kHealth (List.replicate 30 1))).payload.length := by decide +kernel
theorem witness_DuplexPairsClaimAndStep_11a : let e := plainEnv kHealth [1]; bitsOf (payloadWord e 0).toNat 4 1 = dpxRole State.reset := by decide +kernel
theorem witness_DuplexPairsClaimAndStep_11b : let e := plainEnv kHealth [17]; bitsOf (payloadWord e 0).toNat 4 1 ≠ dpxRole State.reset := by decide +kernel
theorem witness_DuplexPairsClaimAndStep_11c : let e := plainEnv kHealth [1]; let s := onDpx (fun d => { d with rxStep := some (2 ^ 32 - 1, 7) }) State.reset; s.duplex.rxStep = some (2 ^ 32 - 1, 7) ∧ (2 ^ 32 - 1 + 1) % 2 ^ 32 = bitsOf (payloadWord e 0).toNat 32 32 := by decide +kernel
theorem witness_DuplexPairsClaimAndStep_12a : getF (setF State.reset R.DPX_HCFG F.DPX_HCFG_PERIOD 0) R.DPX_HCFG F.DPX_HCFG_PERIOD = 0 := by decide +kernel
theorem witness_DuplexPairsClaimAndStep_12b : getF State.reset R.DPX_HCFG F.DPX_HCFG_PERIOD ≠ 0 ∧ getB State.reset R.DPX_HDST F.DPX_HDST_VALID = false := by decide +kernel
theorem witness_DuplexPairsClaimAndStep_12c : let s := setB State.reset R.DPX_HDST F.DPX_HDST_VALID true; getF s R.DPX_HCFG F.DPX_HCFG_PERIOD ≠ 0 ∧ getB s R.DPX_HDST F.DPX_HDST_VALID = true := by decide +kernel
theorem witness_DuplexPairsClaimAndStep_13a : (sendOnPort 6 2 (plainEnv kHealth [1]) State.reset).2 = .accepted := by decide +kernel
theorem witness_DuplexPairsClaimAndStep_13b : let s := setF State.reset R.SO_POOL F.SO_POOL_SCHED 0; (sendOnPort 6 2 (plainEnv kHealth [1]) s).2 ≠ .accepted ∧ 2 * ticksSince s 0 ≤ 625 := by decide +kernel
theorem witness_DuplexPairsClaimAndStep_13c : let s := setF { State.reset with time := { State.reset.time with ltick := 1000 } } R.SO_POOL F.SO_POOL_SCHED 0; (sendOnPort 6 2 (plainEnv kHealth [1]) s).2 ≠ .accepted ∧ 625 < 2 * ticksSince s 0 := by decide +kernel
theorem witness_SupplyAndFeedsAreSupervised_1 : getByte State.reset flashBase = memDefault flashBase := by decide +kernel
theorem witness_SupplyAndFeedsAreSupervised_2a : (onPower (fun p => { p with ready := 0 }) State.reset).power.ready = 0 := by decide +kernel
theorem witness_SupplyAndFeedsAreSupervised_2b : (onPower (fun p => { p with ready := 2 }) State.reset).power.ready = 2 := by decide +kernel
theorem witness_SupplyAndFeedsAreSupervised_2c : (onPower (fun p => { p with ready := 3 }) State.reset).power.ready = 3 := by decide +kernel
theorem witness_SupplyAndFeedsAreSupervised_2d : (onPower (fun p => { p with ready := 4 }) State.reset).power.ready = 4 := by decide +kernel
theorem witness_SupplyAndFeedsAreSupervised_2e : 5 ≤ State.reset.power.ready := by decide +kernel
theorem witness_SupplyAndFeedsAreSupervised_3a : let s := State.reset; getB s R.PD_STAT F.PD_STAT_BROWN = false ∧ (56 : Nat) ≤ 56 ∧ 56 < getF s R.SUP_CFG F.SUP_CFG_WARN ∧ clocked s = true := by decide +kernel
theorem witness_SupplyAndFeedsAreSupervised_3b : let s := onPower (fun p => { p with hold := true }) State.reset; getB s R.PD_STAT F.PD_STAT_BROWN = false ∧ (56 : Nat) ≤ 56 ∧ 56 < getF s R.SUP_CFG F.SUP_CFG_WARN ∧ clocked s = false := by decide +kernel
theorem witness_SupplyAndFeedsAreSupervised_3c : let s := setB State.reset R.PD_STAT F.PD_STAT_BROWN true; getB s R.PD_STAT F.PD_STAT_BROWN = true ∧ getF s R.SUP_CFG F.SUP_CFG_WARN + max 1 (getF s R.SUP_CFG F.SUP_CFG_HYST) ≤ 240 := by decide +kernel
theorem witness_SupplyAndFeedsAreSupervised_3d : (55 : Nat) < 56 ∧ getB State.reset R.PD_STAT F.PD_STAT_BROWN = false := by decide +kernel
theorem witness_SupplyAndFeedsAreSupervised_3e : (420 : Nat) < 421 ∧ State.reset.power.overVin = false := by decide +kernel
theorem witness_SupplyAndFeedsAreSupervised_3f : (415 : Nat) ≤ 420 ∧ (414 : Nat) < 415 := by decide +kernel
theorem witness_SupplyAndFeedsAreSupervised_4a : tabWf resetWord State.reset.regs = true ∧ (3 : Fin 4).val < State.reset.power.ready := by decide +kernel
theorem witness_SupplyAndFeedsAreSupervised_4b : let s := onPower (fun p => { p with ready := 0 }) State.reset; s.power.ready ≤ (0 : Fin 4).val ∧ s.power.gatesLow = false := by decide +kernel
theorem witness_SupplyAndFeedsAreSupervised_4c : (onPower (fun p => { p with gatesLow := true }) State.reset).power.gatesLow = true := by decide +kernel
theorem witness_SupplyAndFeedsAreSupervised_6 : (3 : Nat) < 4 ∧ clocked State.reset = true := by decide +kernel
theorem witness_SupplyAndFeedsAreSupervised_7a : let s := setF State.reset (R.ZN_STAT 7) F.ZN_STAT_STATE 2; 1600 ≤ (1600#16).toInt ∧ driven s ((7 : Fin 8).val + 1) = true := by decide +kernel
theorem witness_SupplyAndFeedsAreSupervised_7b : (1599#16).toInt < 1600 := by decide +kernel
theorem witness_SupplyAndFeedsAreSupervised_7c : let s := State.reset; (200#16).toInt < 1350 ∧ (200#16).toInt < 10 * (getF s R.SUP_CFG F.SUP_CFG_TWARN : Int) := by decide +kernel
theorem witness_SupplyAndFeedsAreSupervised_7d : let s := setF State.reset R.SUP_VIN F.SUP_VIN_TJ 1300; (1349#16).toInt < 1350 ∧ (10 * (getF s R.SUP_CFG F.SUP_CFG_TWARN : Int) ≤ signed 16 (getF s R.SUP_VIN F.SUP_VIN_TJ)) := by decide +kernel
theorem witness_SupplyAndFeedsAreSupervised_8a : let s := setB (putFeed 2 State.reset) R.PD_STAT F.PD_STAT_A_OK true; feedState s = (if preferB s = true then 1 else 2) ∧ feedOk s (preferB s) = true := by decide +kernel
theorem witness_SupplyAndFeedsAreSupervised_8b : let s := putFeed 3 State.reset; feedState s = 3 ∧ feedState s ≠ (if preferB s = true then 1 else 2) := by decide +kernel
theorem witness_SupplyAndFeedsAreSupervised_8c : feedState (putFeed 4 State.reset) = 4 := by decide +kernel
theorem witness_SupplyAndFeedsAreSupervised_8d : feedState (putFeed 0 State.reset) ≠ 3 ∧ feedState (putFeed 0 State.reset) ≠ 4 := by decide +kernel
theorem witness_SupplyAndFeedsAreSupervised_9a : let s := putFeed 0 (onPower (fun p => { p with gatesLow := true }) State.reset); feedState s = 0 ∧ s.power.gatesLow = true := by decide +kernel
theorem witness_SupplyAndFeedsAreSupervised_9b : let s := setB (putFeed 0 State.reset) R.PD_STAT F.PD_STAT_A_OK true; feedState s = 0 ∧ s.power.gatesLow = false ∧ gfault s false = false ∧ gfault s true = false ∧ feedOk s (preferB s) = true := by decide +kernel
theorem witness_SupplyAndFeedsAreSupervised_9c : let s := putFeed 0 State.reset; feedState s = 0 ∧ s.power.gatesLow = false ∧ gfault s false = false ∧ gfault s true = false ∧ feedOk s (preferB s) = false := by decide +kernel
theorem witness_SupplyAndFeedsAreSupervised_9d : let s := setB (putFeed 1 State.reset) R.PD_STAT F.PD_STAT_A_OK true; feedState s = 1 ∧ feedOk s (decide (feedState s = 2)) = true ∧ decide (feedState s = 2) = preferB s := by decide +kernel
theorem witness_SupplyAndFeedsAreSupervised_9e : let s := putFeed 1 State.reset; feedState s = 1 ∧ feedOk s (decide (feedState s = 2)) = false := by decide +kernel
theorem witness_SupplyAndFeedsAreSupervised_9f : feedState (putFeed 4 State.reset) = 4 := by decide +kernel
theorem witness_SupplyAndFeedsAreSupervised_11a : Takes State.reset (.loc 0) R.FEED_CFG ∧ getB State.reset R.PD_CTL F.PD_CTL_LOCK = false := by decide +kernel
theorem witness_SupplyAndFeedsAreSupervised_11b : let s := setB State.reset R.PD_CTL F.PD_CTL_LOCK true; Takes s (.loc 0) R.FEED_CFG ∧ getB s R.PD_CTL F.PD_CTL_LOCK = true := by decide +kernel
theorem witness_SupplyAndFeedsAreSupervised_11c : Takes State.reset (.loc 0) R.PD_CTL := by decide +kernel
theorem witness_ChannelsAreSwitchedAndMetered_1a : let s := setB (putFeed 1 State.reset) R.FLD_CTL F.FLD_CTL_EN true; chanSt s (0 : Fin 9) = 0 ∧ chanEn s (0 : Fin 9) = true ∧ feedState s ≠ 0 ∧ getB s R.PD_STAT F.PD_STAT_BROWN = false := by decide +kernel
theorem witness_ChannelsAreSwitchedAndMetered_1b : let s := setB (putFeed 1 State.reset) (R.ZN_CTL 7) F.ZN_CTL_EN true; chanSt s (8 : Fin 9) = 0 ∧ chanEn s (8 : Fin 9) = true ∧ feedState s ≠ 0 ∧ getB s R.PD_STAT F.PD_STAT_BROWN = false := by decide +kernel
theorem witness_ChannelsAreSwitchedAndMetered_1c : chanEn State.reset (8 : Fin 9) = false := by decide +kernel
theorem witness_ChannelsAreSwitchedAndMetered_2a : chanSt (putChan 8 1 State.reset) (8 : Fin 9) = 1 := by decide +kernel
theorem witness_ChannelsAreSwitchedAndMetered_2b : chanSt (putChan 8 2 State.reset) (8 : Fin 9) = 2 := by decide +kernel
theorem witness_ChannelsAreSwitchedAndMetered_2c : chanSt (putChan 8 3 State.reset) (8 : Fin 9) = 3 ∧ (8 : Fin 9).val ≠ 0 := by decide +kernel
theorem witness_ChannelsAreSwitchedAndMetered_2d : let s := putChan 0 3 State.reset; chanSt s (0 : Fin 9) = 3 ∧ clocked s = true ∧ driven s (0 : Fin 9) = true := by decide +kernel
theorem witness_ChannelsAreSwitchedAndMetered_2e : chanSt State.reset (0 : Fin 9) ≠ 1 ∧ chanSt State.reset (0 : Fin 9) ≠ 2 ∧ chanSt State.reset (0 : Fin 9) ≠ 3 ∧ driven State.reset (0 : Fin 9) = false := by decide +kernel
theorem witness_ChannelsAreSwitchedAndMetered_3 : (8 : Nat) < 9 := by decide +kernel
theorem witness_ChannelsAreSwitchedAndMetered_4a : let s := State.reset; chanSt s (8 : Fin 9) ≠ 4 := by decide +kernel
theorem witness_ChannelsAreSwitchedAndMetered_4b : let s := putChan 8 4 State.reset; chanSt s (8 : Fin 9) = 4 ∧ stillHot s (8 : Fin 9) = false ∧ chanEn s (8 : Fin 9) = false := by decide +kernel
theorem witness_ChannelsAreSwitchedAndMetered_4c : let s := setB (putChan 8 4 State.reset) (R.ZN_CTL 7) F.ZN_CTL_EN true; chanSt s (8 : Fin 9) = 4 ∧ stillHot s (8 : Fin 9) = false ∧ chanEn s (8 : Fin 9) = true ∧ retriesLeft s (8 : Fin 9) = 0 := by decide +kernel
theorem witness_ChannelsAreSwitchedAndMetered_4d : let s := putRetries 0 3 (putFeed 0 (setB (putChan 0 4 State.reset) R.FLD_CTL F.FLD_CTL_EN true)); chanSt s (0 : Fin 9) = 4 ∧ stillHot s (0 : Fin 9) = false ∧ chanEn s (0 : Fin 9) = true ∧ retriesLeft s (0 : Fin 9) ≠ 0 ∧ feedState s = 0 := by decide +kernel
theorem witness_ChannelsAreSwitchedAndMetered_4e : let s := putRetries 0 3 (putFeed 1 (setB (putChan 0 4 State.reset) R.FLD_CTL F.FLD_CTL_EN true)); chanSt s (0 : Fin 9) = 4 ∧ stillHot s (0 : Fin 9) = false ∧ chanEn s (0 : Fin 9) = true ∧ retriesLeft s (0 : Fin 9) ≠ 0 ∧ feedState s ≠ 0 := by decide +kernel
theorem witness_ChannelsAreSwitchedAndMetered_5 : Takes State.reset (.loc 0) R.FLD_CTL ∧ Takes State.reset (.loc 0) (R.ZN_CTL 7) := by decide +kernel
theorem witness_ChannelsAreSwitchedAndMetered_6a : let s := putChan 0 2 State.reset; chanSt s 0 = 2 ∧ getF s R.FLD_PGV F.FLD_PGV_RISE ≤ 240 ∧ getB s R.PD_STAT F.PD_STAT_PG = false := by decide +kernel
theorem witness_ChannelsAreSwitchedAndMetered_6b : 0 < getF State.reset R.FLD_PGV F.FLD_PGV_FALL ∧ chanSt State.reset 0 ≠ 2 := by decide +kernel
theorem witness_ChannelsAreSwitchedAndMetered_6c : getB (setB State.reset R.PD_STAT F.PD_STAT_PG true) R.PD_STAT F.PD_STAT_PG = true := by decide +kernel
theorem witness_ChannelsAreSwitchedAndMetered_7a : let s := putChan 0 2 State.reset; (0 : Fin 10).val < 9 ∧ driven s (0 : Fin 10) = true := by decide +kernel
theorem witness_ChannelsAreSwitchedAndMetered_7b : driven State.reset (0 : Fin 10) = false := by decide +kernel
theorem witness_ChannelsAreSwitchedAndMetered_8 : (meterSums (putSums 0 { n := 2, x := 48000, y := 2000, xy := 48000000, z := 0 } State.reset) 0).n ≠ 0 ∧ (meterSums (putSums 0 { n := 2, x := 48000, y := 2000, xy := 48000000, z := 0 } State.reset) 0).x % 2 = 0 := by decide +kernel
theorem witness_ChannelsAreSwitchedAndMetered_9a : Takes State.reset (.loc 0) (energyLo (8 : Fin 9)) ∧ serviceMode State.reset = 0 := by decide +kernel
theorem witness_ChannelsAreSwitchedAndMetered_9b : let s := setF State.reset R.NODE_STAT F.NODE_STAT_SERVICE_EFF 1; Takes s (.loc 0) (energyLo (0 : Fin 9)) ∧ serviceMode s ≠ 0 := by decide +kernel
theorem witness_ChannelsAreSwitchedAndMetered_10 : Takes State.reset (.loc 0) R.PD_CTL ∧ F.PD_CTL_GFCLR.get 0 = 0 := by decide +kernel
theorem witness_ChannelsAreSwitchedAndMetered_11a : let s := setB State.reset R.PD_CTL F.PD_CTL_LOCK true; getB s R.PD_CTL F.PD_CTL_LOCK = true ∧ pdFrozen R.FLD_TIM = true := by decide +kernel
theorem witness_ChannelsAreSwitchedAndMetered_11b : pdBreaks State.reset R.FLD_PGV 0 = true := by decide +kernel
theorem witness_ChannelsAreSwitchedAndMetered_11c : getB State.reset R.PD_CTL F.PD_CTL_LOCK = false ∧ pdBreaks State.reset R.FLD_TIM 5 = false := by decide +kernel
theorem witness_MemoriesAreScrubbedAndTested_1a : (8 : Nat) ≤ 8 ∧ (8 : Nat) < 12 := by decide +kernel
theorem witness_MemoriesAreScrubbedAndTested_1b : (8 : Nat) ≤ 11 ∧ (11 : Nat) < 12 := by decide +kernel
theorem witness_MemoriesAreScrubbedAndTested_2a : fetchDue State.reset (63 : Fin 64) = false ∧ (nextInstr State.reset (63 : Fin 64)).isNone = true := by decide +kernel
theorem witness_MemoriesAreScrubbedAndTested_2b : fetchDue (onTime (fun t => { t with ltick := 40 }) (setF State.reset (rEstat 0) F.SCR_ESTAT_STATE 1)) (0 : Fin 64) = true := by decide +kernel
theorem witness_MemoriesAreScrubbedAndTested_2c : let s := onTime (fun t => { t with ltick := 40 }) (setF (onEng 0 (fun e => { e with inj := some 0x3000, tx := [(1, false)] }) State.reset) (rEstat 0) F.SCR_ESTAT_STATE 1); clockDue s (0 : Fin 64) = true ∧ ∃ l t, nextInstr s (0 : Fin 64) = some (l, t) ∧ readsTx s (0 : Fin 64) l.word = true := ⟨by decide, _, _, rfl, by decide⟩
theorem witness_MemoriesAreScrubbedAndTested_2d : smallTable (0xA1000 : Word).toNat = some (0x000F, 0) ∧ smallTable (0x10000 : Word).toNat = none := by decide +kernel
theorem witness_MemoriesAreScrubbedAndTested_2e : (onBridge (fun b => { b with locks := [{ holder := 0x50, page := 0, sem := some 63, env := Envelope.blank, begun := true }] }) State.reset).bridge.locks.find? (fun l => l.sem = some 63) = some { holder := 0x50, page := 0, sem := some 63, env := Envelope.blank, begun := true } := by decide +kernel
theorem witness_MemoriesAreScrubbedAndTested_4a : bitOf (getF (setF State.reset R.MI_CTL F.MI_CTL_SCRUB 0) R.MI_CTL F.MI_CTL_SCRUB) (6 : Fin 7) = false := by decide +kernel
theorem witness_MemoriesAreScrubbedAndTested_4b : let s := setF State.reset R.MI_CTL F.MI_CTL_SCRUB 127; bitOf (getF s R.MI_CTL F.MI_CTL_SCRUB) (6 : Fin 7) = true ∧ (bistHolds s 6 (tabGet (fun _ => 0) s.integrity.scrubAt 6) || poisoned s (markPlace 6 (tabGet (fun _ => 0) s.integrity.scrubAt 6))) = false := by decide +kernel
theorem witness_MemoriesAreScrubbedAndTested_5 : (6 : Nat) < 7 := by decide +kernel
theorem witness_MemoriesAreScrubbedAndTested_6a : let s := setF State.reset (R.MI_LB_CFG 0) F.MI_LB_CFG_THRESH 0; (0 : Nat) < 7 ∧ getF s (R.MI_LB_STAT 0) F.MI_LB_STAT_LEVEL ≤ getF s (R.MI_LB_CFG 0) F.MI_LB_CFG_THRESH ∧ getF s (R.MI_LB_CFG 0) F.MI_LB_CFG_THRESH < min 65535 (getF s (R.MI_LB_STAT 0) F.MI_LB_STAT_LEVEL + 1) := by decide +kernel
theorem witness_MemoriesAreScrubbedAndTested_6b : let s := setF State.reset (R.MI_LB_CFG 0) F.MI_LB_CFG_THRESH 5; (0 : Nat) < 7 ∧ min 65535 (getF s (R.MI_LB_STAT 0) F.MI_LB_STAT_LEVEL + 1) ≤ getF s (R.MI_LB_CFG 0) F.MI_LB_CFG_THRESH := by decide +kernel
theorem witness_MemoriesAreScrubbedAndTested_7a : tabGet (fun _ => none) State.reset.integrity.writeBack (6 : Fin 7) = none := by decide +kernel
theorem witness_MemoriesAreScrubbedAndTested_7b : tabGet (fun _ => none) (onInteg (fun i => { i with writeBack := tabSet (fun _ => none) i.writeBack 6 (some 3) }) State.reset).integrity.writeBack (6 : Fin 7) ≠ none := by decide +kernel
theorem witness_MemoriesAreScrubbedAndTested_8a : let y := plainWrite R.BIST_CMD (F.BIST_CMD_TARGET.put 0 0x48) (dropOverlap R.BIST_CMD 4 State.reset); Takes State.reset (.loc 0) R.BIST_CMD ∧ (targetRefused y 0x48 || (State.reset.integrity.test.isSome && !State.reset.integrity.selfTest) || State.reset.integrity.queued.isSome || State.reset.upd.handover.isSome) = true := by decide +kernel
theorem witness_MemoriesAreScrubbedAndTested_8b : let s := onInteg (fun i => { i with test := some 3, selfTest := true }) State.reset; let y := plainWrite R.BIST_CMD (F.BIST_CMD_TARGET.put 0 5) (dropOverlap R.BIST_CMD 4 s); Takes s (.loc 0) R.BIST_CMD ∧ (targetRefused y 5 || (s.integrity.test.isSome && !s.integrity.selfTest) || s.integrity.queued.isSome || s.upd.handover.isSome) = false ∧ s.integrity.test ≠ none := by decide +kernel
theorem witness_MemoriesAreScrubbedAndTested_8c : let s := State.reset; let y := plainWrite R.BIST_CMD (F.BIST_CMD_TARGET.put 0 5) (dropOverlap R.BIST_CMD 4 s); Takes s (.loc 0) R.BIST_CMD ∧ (targetRefused y 5 || (s.integrity.test.isSome && !s.integrity.selfTest) || s.integrity.queued.isSome || s.upd.handover.isSome) = false ∧ s.integrity.test = none := by decide +kernel
theorem witness_MemoriesAreScrubbedAndTested_9 : (0 : Nat) < 0x40 ∧ 0 < 2 ^ F.BIST_STAT_LTARGET.width ∧ segmentHeld State.reset = false ∧ State.reset.integrity.spareFor = none := by decide +kernel
theorem witness_MemoriesAreScrubbedAndTested_10a : State.reset.integrity.test = none := by decide +kernel
theorem witness_MemoriesAreScrubbedAndTested_10b : let s := setF (onInteg (fun i => { i with test := some 5 }) State.reset) R.BIST_STAT F.BIST_STAT_PHASE 1; s.integrity.test = some 5 ∧ getF s R.BIST_STAT F.BIST_STAT_PHASE = 1 := by decide +kernel
theorem witness_MemoriesAreScrubbedAndTested_10c : let s := setF (onInteg (fun i => { i with test := some 5 }) State.reset) R.BIST_STAT F.BIST_STAT_PHASE 4; s.integrity.test = some 5 ∧ getF s R.BIST_STAT F.BIST_STAT_PHASE = 4 := by decide +kernel
theorem witness_MemoriesAreScrubbedAndTested_10d : let s := onInteg (fun i => { i with test := some 5, draining := true }) State.reset; s.integrity.draining = true ∧ s.integrity.offline = false ∧ ∀ c ∈ usedCells s, some (c / 1024) ≠ s.integrity.test := by decide +kernel
theorem witness_MemoriesAreScrubbedAndTested_11a : State.reset.integrity.test = none := by decide +kernel
theorem witness_MemoriesAreScrubbedAndTested_11b : let s := onInteg (fun i => { i with test := some 0x71 }) State.reset; s.integrity.test = some 0x71 ∧ ((0x71 < 0x20 ∨ redirected 0x71 = true) → getF s R.BIST_STAT F.BIST_STAT_PHASE = 3) := by decide +kernel
theorem witness_MemoriesAreScrubbedAndTested_11c : let s := onInteg (fun i => { i with test := some 0x48 }) State.reset; s.integrity.test = some 0x48 ∧ ((0x48 < 0x20 ∨ redirected 0x48 = true) → getF s R.BIST_STAT F.BIST_STAT_PHASE = 3) ∧ 0x40 ≤ 0x48 ∧ 0x48 < 0x50 := by decide +kernel
theorem witness_MemoriesAreScrubbedAndTested_11d : let s := setPhase 3 (onInteg (fun i => { i with test := some 31 }) State.reset); s.integrity.test = some 31 ∧ getF s R.BIST_STAT F.BIST_STAT_PHASE = 3 ∧ (verdict 31 true s).integrity.draining = false := by decide +kernel
theorem witness_MemoriesAreScrubbedAndTested_11e : let s := setPhase 3 (onInteg (fun i => { i with test := some 31, draining := true }) State.reset); s.integrity.test = some 31 ∧ getF s R.BIST_STAT F.BIST_STAT_PHASE = 3 ∧ (verdict 31 true s).integrity.draining = true := by decide +kernel
theorem witness_MemoriesAreScrubbedAndTested_11f : let s := onInteg (fun i => { i with test := some 31 }) State.reset; s.integrity.test = some 31 ∧ getF s R.BIST_STAT F.BIST_STAT_PHASE ≠ 3 := by decide +kernel
theorem witness_MemoriesAreScrubbedAndTested_12 : (31 : Nat) < 32 ∧ State.reset.integrity.draining = false := by decide +kernel
theorem witness_BootAndManifestFollowTheFlash_1a : let s := onUpd (fun u => { u with booted := true }) State.reset; s.upd.booted = true := by decide +kernel
theorem witness_BootAndManifestFollowTheFlash_1b : let s := State.reset; s.upd.booted = false ∧ clocked s = true ∧ (false : Bool) = false := by decide +kernel
theorem witness_BootAndManifestFollowTheFlash_1c : let s := State.reset; s.upd.booted = false ∧ clocked s = true ∧ flashRefused none = true := by decide +kernel
theorem witness_BootAndManifestFollowTheFlash_1d : let s := State.reset; s.upd.booted = false ∧ clocked s = true ∧ flashRefused (some (24, true)) = true := by decide +kernel
theorem witness_BootAndManifestFollowTheFlash_1e : let s := State.reset; s.upd.booted = false ∧ clocked s = true ∧ flashRefused (some (25, true)) = false := by decide +kernel
theorem witness_BootAndManifestFollowTheFlash_2a : let s := setF State.reset R.UPD_BOOT F.UPD_BOOT_BOOTFAIL 3; 4 ≤ min 15 (getF s R.UPD_BOOT F.UPD_BOOT_BOOTFAIL + 1) := by decide +kernel
theorem witness_BootAndManifestFollowTheFlash_2b : let s := setF State.reset R.UPD_BOOT F.UPD_BOOT_MODE 3; min 15 (getF s R.UPD_BOOT F.UPD_BOOT_BOOTFAIL + 1) < 4 ∧ (chooseByMode (getF s R.UPD_BOOT F.UPD_BOOT_MODE) (bump (ctr 0x0018 11 3) (setF s R.UPD_BOOT F.UPD_BOOT_BOOTFAIL 1))).1 = none := by decide +kernel
theorem witness_BootAndManifestFollowTheFlash_2c : let s := setF imaged R.UPD_BOOT F.UPD_BOOT_MODE 1; min 15 (getF s R.UPD_BOOT F.UPD_BOOT_BOOTFAIL + 1) < 4 ∧ (chooseByMode (getF s R.UPD_BOOT F.UPD_BOOT_MODE) (bump (ctr 0x0018 11 1) (setF s R.UPD_BOOT F.UPD_BOOT_BOOTFAIL 1))).1 = some (0, false) := by decide +kernel
theorem witness_BootAndManifestFollowTheFlash_3 : (1 : Nat) < 2 := by decide +kernel
theorem witness_BootAndManifestFollowTheFlash_4 : manifestMatches emptyManifest 0 (slotHeader emptyManifest 0) = true := by decide +kernel
theorem witness_BootAndManifestFollowTheFlash_5 : applying State.reset = false := by decide +kernel
theorem witness_BootAndManifestFollowTheFlash_6a : let s := applyingAt 0; applying s = true ∧ ((List.range 1).any (fun i => ownBlock (0x10000 + 4 * i)) || ownBlock 0x10000) = true := by decide +kernel
theorem witness_BootAndManifestFollowTheFlash_6b : let s := applyingAt 0; applying s = true ∧ ((List.range 1).any (fun i => ownBlock (0x1000000 + 4 * i)) || ownBlock 0x1000000) = false ∧ (firmwareWrites 4 0x1000000 [7] s).2 = false ∧ (firmwareWrites 2 0x1000000 [7] s).2 = false := by decide +kernel
theorem witness_BootAndManifestFollowTheFlash_6c : let s := applyingAt 0; applying s = true ∧ ((List.range 1).any (fun i => ownBlock (0x100000 + 4 * i)) || ownBlock 0x100000) = false ∧ (firmwareWrites 4 0x100000 [7] s).2 = true := by decide +kernel
theorem witness_BootAndManifestFollowTheFlash_6d : let s := applyingAt 0; applying s = true ∧ ((List.range 1).any (fun i => ownBlock (0x100000 + 2 * i)) || ownBlock 0x100000) = false ∧ (firmwareWrites 2 0x100000 [7] s).2 = true := by decide +kernel
theorem witness_BootAndManifestFollowTheFlash_7a : let s := applyingAt 0; applying s = true ∧ (100000 : Nat) ≤ 100000 ∧ (100000 : Nat) < 100001 := by decide +kernel
theorem witness_BootAndManifestFollowTheFlash_7b : let s := applyingAt 0; applying s = true ∧ ownBlock (0x10000 : Word).toNat = true := by decide +kernel
theorem witness_BootAndManifestFollowTheFlash_7c : let s := applyingAt 0; applying s = true ∧ ownBlock (0x100000 : Word).toNat = false ∧ (busRead (.loc 0) false 0x100000 4 0 s).2 = .data 0 false ∧ (lo32 0 &&& (0xFF : Word)) = 0 := by decide +kernel
theorem witness_BootAndManifestFollowTheFlash_7d : let s := applyingAt 0; applying s = true ∧ ownBlock (0x100000 : Word).toNat = false ∧ (busRead (.loc 0) false 0x100000 4 0 s).2 = .data 0 false ∧ (lo32 0 &&& (0xFF : Word)) ≠ 1 := by decide +kernel
theorem witness_BootAndManifestFollowTheFlash_8a : let s := applyingAt 1; applying s = true ∧ s.upd.apply.persists ≠ 0 := by decide +kernel
theorem witness_BootAndManifestFollowTheFlash_8b : let s := applyingAt 0; applying s = true ∧ s.upd.apply.persists = 0 := by decide +kernel
theorem witness_BootAndManifestFollowTheFlash_8c : let s := applyingAt 0; applying s = true ∧ decide ((0 : Word) = 0 ∧ ((0x20000 : Word) &&& ~~~0x1FFFF) = 0 ∧ ((0 : Word) &&& ~~~0xFFFF00) = 0 ∧ s.upd.apply.configs = 0) = false := by decide +kernel
theorem witness_BootAndManifestFollowTheFlash_8d : let s := applyingAt 0; applying s = true ∧ decide ((0 : Word) = 0 ∧ ((0x1000A : Word) &&& ~~~0x1FFFF) = 0 ∧ ((0xFF00 : Word) &&& ~~~0xFFFF00) = 0 ∧ s.upd.apply.configs = 0) = true := by decide +kernel
theorem witness_BootAndManifestFollowTheFlash_9a : let s := applyingAt 0; applying s = true ∧ s.upd.apply.persists ≠ 1 := by decide +kernel
theorem witness_BootAndManifestFollowTheFlash_9b : let s := applyingAt 1; applying s = true ∧ ManifestEnd.missing ≠ .endRecord := by decide +kernel
theorem witness_BootAndManifestFollowTheFlash_9c : let s := applyingAt 1; applying s = true ∧ s.upd.apply.persists = 1 ∧ serviceMode s = 0 := by decide +kernel
theorem witness_BootAndManifestFollowTheFlash_10a : let s := State.reset; s.upd.persistWait = [] ∧ 0 < tokens s ∧ flashHeld s = false := by decide +kernel
theorem witness_BootAndManifestFollowTheFlash_10b : let s := setF State.reset R.UPD_FLASH F.UPD_FLASH_TOKENS 0; tokens s = 0 ∧ (∀ w ∈ s.upd.persistWait, w.1 ≠ (2 : Fin 3).val) := by decide +kernel
theorem witness_BootAndManifestFollowTheFlash_10c : let s := onUpd (fun u => { u with persistWait := [(2, recordNow State.reset 2)] }) State.reset; ∃ w ∈ s.upd.persistWait, w.1 = (2 : Fin 3).val := by decide +kernel
theorem witness_BootAndManifestFollowTheFlash_11a : let s := State.reset; (setF s R.UPD_FLASH F.UPD_FLASH_TOKENS (min 16 (tokens s + 1))).upd.persistWait = [] := by decide +kernel
theorem witness_BootAndManifestFollowTheFlash_11b : let s := setB State.reset R.PD_STAT F.PD_STAT_BROWN true; flashHeld s = true := by decide +kernel
theorem witness_BootAndManifestFollowTheFlash_11c : let s := onUpd (fun u => { u with persistWait := [(2, recordNow State.reset 2)] }) State.reset; flashHeld s = false ∧ (setF s R.UPD_FLASH F.UPD_FLASH_TOKENS (min 16 (tokens s + 1))).upd.persistWait = [(2, recordNow State.reset 2)] := by decide +kernel
theorem witness_FoliosWriteAndActivateImages_1 : let s := setB State.reset R.UPD_RELAY_CTL F.UPD_RELAY_CTL_EN true; getB s R.UPD_RELAY_CTL F.UPD_RELAY_CTL_EN = true ∧ (folioOf 0 (asKind kFolio { plainEnv kFolio [1] with addr := 0xFFFF000000 })).session = 0xFFFF ∧ s.upd.recovery = false := by decide +kernel
theorem witness_FoliosWriteAndActivateImages_2a : let s := State.reset; let r := folioOf 0 (plainEnv kFolio [1]); (!holdsWrite (bump (ctr 0x0018 0 0) s) r.id R.UPD_CTL && r.asker.port.isSome) = true := by decide +kernel
theorem witness_FoliosWriteAndActivateImages_2b : let s := State.reset; let r := { folioOf 0 (plainEnv kFolio []) with asker := { port := none, src := 0, tag := 0, addr := 0 }, folio := 8192 }; (!holdsWrite s r.id R.UPD_CTL && r.asker.port.isSome) = false ∧ folioMisfit r = true := by decide +kernel
theorem witness_FoliosWriteAndActivateImages_2c : let s := ringOpen 139 State.reset; let r := { folioOf 0 (plainEnv kFolio []) with poison := true }; (!holdsWrite s r.id R.UPD_CTL && r.asker.port.isSome) = false ∧ folioMisfit r = false ∧ r.poison = true := by decide +kernel
theorem witness_FoliosWriteAndActivateImages_2d : let s := ringOpen 139 State.reset; let r := folioOf 0 (plainEnv kFolio []); (!holdsWrite s r.id R.UPD_CTL && r.asker.port.isSome) = false ∧ folioMisfit r = false ∧ r.poison = false ∧ r.words = [] := by decide +kernel
theorem witness_FoliosWriteAndActivateImages_2e : let s := ringOpen 139 State.reset; let r := folioOf 0 (plainEnv kFolio (List.replicate 32 1)); (!holdsWrite (bump (ctr 0x0018 0 0) s) r.id R.UPD_CTL && r.asker.port.isSome) = false ∧ folioMisfit r = false ∧ r.poison = false ∧ r.words ≠ [] := by decide +kernel
theorem witness_FoliosWriteAndActivateImages_3 : (8 : Nat) < 256 := by decide +kernel
theorem witness_FoliosWriteAndActivateImages_4a : let s := State.reset; s.upd.session = none ∧ getB s R.UPD_STAT F.UPD_STAT_TRIAL = false ∧ acceptable s (wordsBytes []) = false := by decide +kernel
theorem witness_FoliosWriteAndActivateImages_4b : let s := updating 1; let r := { folioOf 0 (plainEnv kFolio []) with session := 1, folio := 1 }; sameSession s r { num := 1, header := signedHeader, erased := [0], done := [], st := 1 } = true ∧ r.folio ≤ hdrFolios signedHeader ∧ r.folio ∉ ([] : List Nat) ∧ r.folio ∈ [1] := by decide +kernel
theorem witness_FoliosWriteAndActivateImages_4c : let s := keyed; let w := wordsBytes (bytesWords 32 signedHeader); s.upd.session = none ∧ getB s R.UPD_STAT F.UPD_STAT_TRIAL = false ∧ acceptable s w = true ∧ hdrImage w ≠ regs64 s R.UPD_RUN_LO R.UPD_RUN_HI := by decide +kernel
theorem witness_FoliosWriteAndActivateImages_5 : ([] : List Byte).length ≤ 256 := by decide +kernel
theorem witness_FoliosWriteAndActivateImages_6a : let s := State.reset; s.upd.session = none := by decide +kernel
theorem witness_FoliosWriteAndActivateImages_6b : let b : Assembly := { folio := 1, parts := [(0, []), (1, []), (2, []), (3, [])], asker := { port := none, src := 0, tag := 0, addr := 0 } }; let s := onUpd (fun u => { u with bufs := [b] }) (updating 4); s.upd.session = some { num := 1, header := signedHeader, erased := [0], done := [], st := 4 } ∧ s.upd.bufs.find? (fun b => b.folio = 1) = some b := by decide +kernel
theorem witness_FoliosWriteAndActivateImages_6c : let b : Assembly := { folio := 1, parts := [(0, []), (1, []), (2, []), (3, [])], asker := { port := none, src := 0, tag := 0, addr := 0 } }; let s := onUpd (fun u => { u with bufs := [b] }) (updating 1); s.upd.session = some { num := 1, header := signedHeader, erased := [0], done := [], st := 1 } ∧ s.upd.bufs.find? (fun b => b.folio = 1) = some b ∧ b.parts.length = 4 ∧ flashHeld s = false ∧ b.folio / 64 ∈ [0] := by decide +kernel
theorem witness_FoliosWriteAndActivateImages_7a : let s := State.reset; s.upd.session = none := by decide +kernel
theorem witness_FoliosWriteAndActivateImages_7b : let s := updating 1; s.upd.session = some { num := 1, header := signedHeader, erased := [0], done := [], st := 1 } ∧ (1 : Nat) ≠ 2 := by decide +kernel
theorem witness_FoliosWriteAndActivateImages_7c : let s := updating 2; s.upd.session = some { num := 1, header := signedHeader, erased := [0], done := [], st := 2 } ∧ s.upd.recovery = false ∧ firmwareMatches s (updateSlot s) signedHeader = false := by decide +kernel
theorem witness_FoliosWriteAndActivateImages_7d : let s := { imaged with upd := { (updating 2).upd with recovery := true } }; s.upd.session = some { num := 1, header := signedHeader, erased := [0], done := [], st := 2 } ∧ flashHeld s = false ∧ firmwareMatches s (updateSlot s) signedHeader = true ∧ manifestMatches s (updateSlot s) signedHeader = true := by decide +kernel
theorem witness_FoliosWriteAndActivateImages_8a : let s := State.reset; let w : Word := F.UPD_CTL_ABORT.put 0 1; Takes s (.loc 0) R.UPD_CTL ∧ F.UPD_CTL_ACTIVATE.get w = 0 ∧ F.UPD_CTL_CONFIRM.get w = 0 := by decide +kernel
theorem witness_FoliosWriteAndActivateImages_8b : let s := State.reset; let w : Word := F.UPD_CTL_ACTIVATE.put 0 1; Takes s (.loc 0) R.UPD_CTL ∧ F.UPD_CTL_ABORT.get w = 0 ∧ F.UPD_CTL_CONFIRM.get w = 0 := by decide +kernel
theorem witness_FoliosWriteAndActivateImages_8c : let s := State.reset; let w : Word := F.UPD_CTL_CONFIRM.put 0 1; Takes s (.loc 0) R.UPD_CTL ∧ F.UPD_CTL_ABORT.get w = 0 ∧ F.UPD_CTL_ACTIVATE.get w = 0 := by decide +kernel
theorem witness_FoliosWriteAndActivateImages_9a : let s := State.reset; s.upd.session = none ∧ s.upd.handover = none := by decide +kernel
theorem witness_FoliosWriteAndActivateImages_9b : let s := updating 2; s.upd.session = some { num := 1, header := signedHeader, erased := [0], done := [], st := 2 } := by decide +kernel
theorem witness_FoliosWriteAndActivateImages_9c : let s := setB (updating 1) R.PD_STAT F.PD_STAT_BROWN true; s.upd.session = some { num := 1, header := signedHeader, erased := [0], done := [], st := 1 } ∧ flashHeld s = true := by decide +kernel
theorem witness_FoliosWriteAndActivateImages_9d : let s := updating 1; s.upd.session = some { num := 1, header := signedHeader, erased := [0], done := [], st := 1 } ∧ flashHeld s = false := by decide +kernel
theorem witness_FoliosWriteAndActivateImages_9e : let s := updating 3; s.upd.session = some { num := 1, header := signedHeader, erased := [0], done := [], st := 3 } ∧ segmentHeld s = false ∧ s.upd.handover = none := by decide +kernel
theorem witness_FoliosWriteAndActivateImages_9f : let s := setB State.reset R.UPD_STAT F.UPD_STAT_TRIAL true; getB s R.UPD_STAT F.UPD_STAT_TRIAL = true ∧ masterId s (.loc 1) ≠ masterId s (.loc 0) := by decide +kernel
theorem witness_FoliosWriteAndActivateImages_10a : (advanceHandover State.reset).upd.handover = none := by decide +kernel
theorem witness_FoliosWriteAndActivateImages_10b : let s := onUpd (fun u => { u with handover := some { header := BootHeader.empty, started := false } }) (setB State.reset R.PD_STAT F.PD_STAT_BROWN true); (advanceHandover s).upd.handover = some { header := BootHeader.empty, started := false } := by decide +kernel
theorem witness_FoliosWriteAndActivateImages_10c : let s := onUpd (fun u => { u with handover := some { header := BootHeader.empty, started := true } }) State.reset; (advanceHandover s).upd.handover = some { header := BootHeader.empty, started := true } ∧ (chooseSlot (setReg (onUpd (fun u => { u with handover := none }) s) R.ARB_PRESENT (getReg s R.ARB_PRESENT ||| 2))).1 = none := by decide +kernel
theorem witness_FoliosWriteAndActivateImages_10d : let s := onUpd (fun u => { u with handover := some { header := BootHeader.empty, started := true } }) imaged; (advanceHandover s).upd.handover = some { header := BootHeader.empty, started := true } ∧ (chooseSlot { onUpd (fun u => { u with handover := none }) s with regs := (R.ARB_PRESENT, getReg s R.ARB_PRESENT ||| 2) :: s.regs }).1 = some (0, false) := by decide +kernel
theorem witness_FoliosWriteAndActivateImages_11a : let s := onTime (fun t => { t with ltick := 60 * 312500000 }) (setB State.reset R.UPD_STAT F.UPD_STAT_TRIAL true); getB s R.UPD_STAT F.UPD_STAT_TRIAL = true ∧ trialSeconds s ≤ trialElapsed s ∧ s.upd.handover = none := by decide +kernel
theorem witness_FoliosWriteAndActivateImages_11b : let s := setB State.reset R.UPD_STAT F.UPD_STAT_TRIAL true; getB s R.UPD_STAT F.UPD_STAT_TRIAL = true ∧ trialElapsed s < trialSeconds s := by decide +kernel
theorem witness_FoliosWriteAndActivateImages_12a : let s := State.reset; s.upd.recovery = false := by decide +kernel
theorem witness_FoliosWriteAndActivateImages_12b : let s := onUpd (fun u => { u with recovery := true }) State.reset; s.upd.recovery = true ∧ unescape [0x7E] = none := by decide +kernel
theorem witness_FoliosWriteAndActivateImages_12c : let s := onUpd (fun u => { u with recovery := true }) State.reset; s.upd.recovery = true ∧ unescape [1, 0x7D, 0x5E] = some [1, 0x7E] ∧ frameFolio s [1, 0x7E] = none := by decide +kernel
theorem witness_FoliosWriteAndActivateImages_12d : let s := onUpd (fun u => { u with recovery := true }) State.reset; let b : List Byte := List.replicate 10 0; s.upd.recovery = true ∧ unescape (b ++ leBytes 4 (crc32 b).toNat) = some (b ++ leBytes 4 (crc32 b).toNat) ∧ (frameFolio s (b ++ leBytes 4 (crc32 b).toNat)).isSome = true := by decide +kernel
theorem witness_FoliosWriteAndActivateImages_13a : let s := setB State.reset R.UPD_RELAY_CTL F.UPD_RELAY_CTL_EN true; getB s R.UPD_RELAY_CTL F.UPD_RELAY_CTL_EN = true ∧ (0 : Fin 3).val = relayPort s := by decide +kernel
theorem witness_FoliosWriteAndActivateImages_13b : let s := State.reset; getB s R.UPD_RELAY_CTL F.UPD_RELAY_CTL_EN = false := by decide +kernel
theorem witness_AccessTablesAndKeyFuses_1a : let s := State.reset; Takes s (.loc 0) (R.AT_W1 3 0) := by decide +kernel
theorem witness_AccessTablesAndKeyFuses_1b : let s := State.reset; Takes s (.loc 0) (R.AT_W2 147 15) := by decide +kernel
theorem witness_AccessTablesAndKeyFuses_2a : let s := State.reset; let u := dropOverlap (R.AT_W0 3 0) 4 s; Takes s (.loc 0) (R.AT_W0 3 0) ∧ F.AT_W2_BASE.get (commitParts u (masterId u (.loc 0)) 3 0).2 ≤ F.AT_W2_LIMIT.get (commitParts u (masterId u (.loc 0)) 3 0).2 ∧ sealed s = false := by decide +kernel
theorem witness_AccessTablesAndKeyFuses_2b : let s := setB State.reset R.NODE_CTL F.NODE_CTL_SEAL true; let u := dropOverlap (R.AT_W0 3 0) 4 s; Takes s (.loc 0) (R.AT_W0 3 0) ∧ F.AT_W2_BASE.get (commitParts u (masterId u (.loc 0)) 3 0).2 ≤ F.AT_W2_LIMIT.get (commitParts u (masterId u (.loc 0)) 3 0).2 ∧ sealed s = true ∧ ¬(fieldBits (R.AT_W0 3 0) 0x80000000 = getReg s (R.AT_W0 3 0)) := by decide +kernel
theorem witness_AccessTablesAndKeyFuses_2c : let s := stageEntry (masterId State.reset (.loc 0)) 3 0 1 0x00010002 State.reset; let u := dropOverlap (R.AT_W0 3 0) 4 s; Takes s (.loc 0) (R.AT_W0 3 0) ∧ F.AT_W2_LIMIT.get (commitParts u (masterId u (.loc 0)) 3 0).2 < F.AT_W2_BASE.get (commitParts u (masterId u (.loc 0)) 3 0).2 := by decide +kernel
theorem witness_AccessTablesAndKeyFuses_3a : let s := setF State.reset R.NODE_STAT F.NODE_STAT_SERVICE_EFF 3; let v : Word := F.ID_FUSE_CMD_KEY.put (F.ID_FUSE_CMD_SLOT.put 0 2) 0xA5; Takes s (.loc 0) R.ID_FUSE_CMD ∧ F.ID_FUSE_CMD_SLOT.get v = 2 ∧ F.ID_FUSE_CMD_KEY.get v = 0xA5 ∧ serviceMode s = 3 ∧ getB s R.PD_STAT F.PD_STAT_BROWN = false ∧ s.tables.fuse = none ∧ bitOf (getReg s R.ID_KEYS).toNat 4 = false := by decide +kernel
theorem witness_AccessTablesAndKeyFuses_3b : let s := setReg (setF State.reset R.NODE_STAT F.NODE_STAT_SERVICE_EFF 3) R.ID_KEYS 0x10; let v : Word := F.ID_FUSE_CMD_KEY.put (F.ID_FUSE_CMD_SLOT.put 0 2) 0xA5; Takes s (.loc 0) R.ID_FUSE_CMD ∧ F.ID_FUSE_CMD_SLOT.get v = 2 ∧ F.ID_FUSE_CMD_KEY.get v = 0xA5 ∧ serviceMode s = 3 ∧ getB s R.PD_STAT F.PD_STAT_BROWN = false ∧ s.tables.fuse = none ∧ bitOf (getReg s R.ID_KEYS).toNat 4 = true ∧ s.upd.keySlot ≠ 2 := by decide +kernel
theorem witness_AccessTablesAndKeyFuses_3c : let s := State.reset; Takes s (.loc 0) R.ID_FUSE_CMD ∧ ¬(F.ID_FUSE_CMD_KEY.get 0 = 0xA5) := by decide +kernel
theorem witness_AccessTablesAndKeyFuses_4a : let s := State.reset; s.tables.fuse = none := by decide +kernel
theorem witness_AccessTablesAndKeyFuses_4b : let s := onTables (fun t => { t with fuse := some (false, 3) }) State.reset; s.tables.fuse = some (false, 3) ∧ (3 : Nat) < 4 := by decide +kernel
theorem witness_AccessTablesAndKeyFuses_4c : let s := onTables (fun t => { t with fuse := some (true, 2) }) State.reset; s.tables.fuse = some (true, 2) ∧ (2 : Nat) < 4 := by decide +kernel
theorem witness_SnapshotsCopyTheCounters_1a : let e := { plainEnv kSnapshotMark [7, 2 ^ 40] with src := 5 }; let s := State.reset; quarantined s = true ∧ (asKind kSnapshotMark e).lenw = 2 := by decide +kernel
theorem witness_SnapshotsCopyTheCounters_1b : let e := { plainEnv kSnapshotMark [7, 2 ^ 40] with src := 5 }; let s := ringOpen 138 joined; let f := asKind kSnapshotMark e; f.lenw = 2 ∧ (payloadWord f 0).toNat / 65536 = 0 ∧ quarantined s = false ∧ holdsWrite s (taggedMaster f) 0xF0000 = true := by decide +kernel
theorem witness_SnapshotsCopyTheCounters_2a : let s := State.reset; (0 : Nat) ≤ nowNs s := by decide +kernel
theorem witness_SnapshotsCopyTheCounters_2b : let s := onMon (fun m => { m with marks := [{ id := 1, instant := 9 }, { id := 2, instant := 9 }, { id := 3, instant := 9 }, { id := 4, instant := 9 }] }) State.reset; nowNs s < 5 ∧ (∀ k ∈ s.mon.marks, k.id ≠ 7) ∧ 4 ≤ s.mon.marks.length := by decide +kernel
theorem witness_SnapshotsCopyTheCounters_2c : let s := onMon (fun m => { m with marks := [{ id := 1, instant := 9 }] }) State.reset; nowNs s < 5 ∧ ∃ k ∈ s.mon.marks, k.id = 1 := by decide +kernel
theorem witness_SnapshotsCopyTheCounters_4a : let s := onMon (fun m => { m with marks := [{ id := 3, instant := 0 }, { id := 5, instant := 0 }, { id := 2, instant := 0 }] }) State.reset; let due := s.mon.marks.filter (fun k => k.instant ≤ nowNs s); due.filter (fun k => k.id % 2 = 1) = [{ id := 3, instant := 0 }, { id := 5, instant := 0 }] := by decide +kernel
theorem witness_SnapshotsCopyTheCounters_4b : let s := onMon (fun m => { m with marks := [{ id := 3, instant := 0 }, { id := 5, instant := 0 }, { id := 2, instant := 0 }] }) State.reset; let due := s.mon.marks.filter (fun k => k.instant ≤ nowNs s); due.filter (fun k => k.id % 2 = 0) = [{ id := 2, instant := 0 }] := by decide +kernel
theorem witness_SnapshotsCopyTheCounters_4c : let s := State.reset; let due := s.mon.marks.filter (fun k => k.instant ≤ nowNs s); due.filter (fun k => k.id % 2 = 0) = [] := by decide +kernel
theorem witness_SnapshotsCopyTheCounters_5a : let s := State.reset; s.mon.arrBusy = false := by decide +kernel
theorem witness_SnapshotsCopyTheCounters_5b : let s := onMon (fun m => { m with arrBusy := true }) State.reset; s.mon.arrBusy = true := by decide +kernel
theorem witness_SnapshotsCopyTheCounters_6a : let s := onMon (fun m => { m with marks := [{ id := 3, instant := 0 }] }) State.reset; let u := plainWrite R.CNT_SNAP (F.CNT_SNAP_GO.put 1 1) (dropOverlap R.CNT_SNAP 4 s); Takes s (.loc 0) R.CNT_SNAP ∧ ∃ k ∈ u.mon.marks, k.instant ≤ nowNs u ∧ k.id % 2 = 1 := by decide +kernel
theorem witness_SnapshotsCopyTheCounters_6b : let s := State.reset; let u := plainWrite R.CNT_SNAP (F.CNT_SNAP_GO.put 1 1) (dropOverlap R.CNT_SNAP 4 s); Takes s (.loc 0) R.CNT_SNAP ∧ ∀ k ∈ u.mon.marks, k.instant ≤ nowNs u → k.id % 2 ≠ 1 := by decide +kernel
theorem witness_MonitorCommandsAtTheTerminal_1a : let s := setB State.reset R.UPD_STAT F.UPD_STAT_FLASHERR true; clocked s = true ∧ getB s R.UPD_STAT F.UPD_STAT_FLASHERR = true := by decide +kernel
theorem witness_MonitorCommandsAtTheTerminal_1b : let s := onMon (fun m => { m with active := some .terminal }) State.reset; takesLine s = false ∧ ¬(clocked s = true ∧ getB s R.UPD_STAT F.UPD_STAT_FLASHERR = true) := by decide +kernel
theorem witness_MonitorCommandsAtTheTerminal_1c : let s := State.reset; takesLine s = true ∧ monUnlocked s = false := by decide +kernel
theorem witness_MonitorCommandsAtTheTerminal_2 : let s := setB State.reset R.MON_STAT F.MON_STAT_STRAP true; (31 : Nat) < 32 ∧ (spell (.load (15 : Fin 16).val 31 ((List.replicate 25 (0xFFFF : BitVec 16)).map (fun w => w.toNat)))).length ≤ 200 ∧ takesLine s = true ∧ currentSession s = none ∧ monUnlocked s = true := by decide +kernel
theorem witness_MonitorCommandsAtTheTerminal_3a : let s := setB State.reset R.MON_STAT F.MON_STAT_STRAP true; takesLine s = true ∧ currentSession s = none ∧ monUnlocked s = true ∧ baudCode 230400 = some 1 ∧ baudCode 9600 = none := by decide +kernel
theorem witness_MonitorCommandsAtTheTerminal_3b : let s := setB State.reset R.MON_STAT F.MON_STAT_STRAP true; let x := bump (ctr 0x0019 2 0) s; let u := { x with mon := { x.mon with active := some .terminal, printed := [], result := none } }; takesLine s = true ∧ currentSession s = none ∧ monUnlocked s = true ∧ (writeOne (.loc 1) R.BIST_CMD 4 (0x30 + 2 ^ 8) u).2 = ([], .ok) := by decide +kernel
theorem witness_MonitorCommandsAtTheTerminal_3c : let s := setB State.reset R.MON_STAT F.MON_STAT_STRAP true; let x := bump (ctr 0x0019 2 0) s; let u := { x with mon := { x.mon with active := some .terminal, printed := [], result := none } }; let y := (fresh 2 u).2; takesLine s = true ∧ currentSession s = none ∧ monUnlocked s = true ∧ quarantined y = true := by decide +kernel
theorem witness_MonitorCommandsAtTheTerminal_4 : (busRead (.loc 1) false R.ID_PART 4 0 State.reset).2 = .data 0xb07440 false ∧ (busRead (.loc 1) false 0x10004002 4 0 State.reset).2 = .err .unaligned ∧ (busWrite (.loc 1) false R.CNT_CTL (leBytes 4 2) false State.reset).2 = none ∧ (busWrite (.loc 1) false R.ID_PART (leBytes 4 2) false State.reset).2 = some .readOnly := by decide +kernel
theorem witness_MonitorCommandsAtTheTerminal_5a : State.reset.mon.active = none := by decide +kernel
theorem witness_MonitorCommandsAtTheTerminal_5b : (startCommand .terminal State.reset).mon.active = some .terminal := by decide +kernel
theorem witness_MonitorCommandsAtTheTerminal_6 : let x : Session := { session := 3, node := 9, busy := false, seq := 1 }; let s := onMon (fun m => { m with terminal := [x], current := some 3 }) (setB State.reset R.MON_STAT F.MON_STAT_STRAP true); takesLine s = true ∧ monUnlocked s = true ∧ currentSession s = some x := by decide +kernel
theorem witness_MonitorCommandsAtTheTerminal_7a : let s := setB State.reset R.MON_STAT F.MON_STAT_STRAP true; takesLine s = true ∧ monUnlocked s = true ∧ (32 : Nat) ≤ 32 := by decide +kernel
theorem witness_MonitorCommandsAtTheTerminal_7b : let s := setB State.reset R.MON_STAT F.MON_STAT_STRAP true; takesLine s = true ∧ monUnlocked s = true ∧ (31 : Nat) < 32 ∧ 200 < (spell (.load (15 : Fin 16).val 31 ((List.replicate 26 (0xFFFF : BitVec 16)).map (fun w => w.toNat)))).length := by decide +kernel
theorem witness_MonitorUnlocksAndSessions_2a : let s := State.reset; takesLine s = true ∧ s.mon.lockedOut = false ∧ tokenValid s (1 : Fin 4).val 0 0 = false := by decide +kernel
theorem witness_MonitorUnlocksAndSessions_2b : let s := onMon (fun m => { m with lockedOut := true }) State.reset; takesLine s = true ∧ s.mon.lockedOut = true := by decide +kernel
theorem witness_MonitorUnlocksAndSessions_2c : let s := tokenAt; takesLine s = true ∧ s.mon.lockedOut = false ∧ tokenValid s (1 : Fin 4).val tokenSig.toNat tokenSig.toNat = true := by decide +kernel
theorem witness_MonitorUnlocksAndSessions_3a : let s := onMon (fun m => { m with lockedOut := true }) State.reset; s.mon.lockedOut = true := by decide +kernel
theorem witness_MonitorUnlocksAndSessions_3b : let s := State.reset; s.mon.lockedOut = false := by decide +kernel
theorem witness_MonitorUnlocksAndSessions_3c : let s := onMon (fun m => { m with tokenUnlocked := true }) State.reset; takesLine s = true ∧ monUnlocked s = true := by decide +kernel
theorem witness_MonitorUnlocksAndSessions_4a : let s := setB State.reset R.MON_STAT F.MON_STAT_STRAP true; takesLine s = true ∧ monUnlocked s = true ∧ s.mon.terminal.length < 4 ∧ currentSession s = none := by decide +kernel
theorem witness_MonitorUnlocksAndSessions_4b : let x : Session := { session := 3, node := 9, busy := false, seq := 1 }; let s := onMon (fun m => { m with terminal := [x, x, x, x], current := some 3 }) (setB State.reset R.MON_STAT F.MON_STAT_STRAP true); takesLine s = true ∧ monUnlocked s = true ∧ 4 ≤ s.mon.terminal.length ∧ currentSession s = some x := by decide +kernel
theorem witness_MonitorUnlocksAndSessions_5a : let s := State.reset; quarantined s = true := by decide +kernel
theorem witness_MonitorUnlocksAndSessions_5b : let e := { plainEnv kMonitor [3] with src := 9 }; let s := joined; let f := { asKind kMonitor e with payload := setField 32 4 0 (asKind kMonitor e).payload }; quarantined s = false ∧ e.lenw ≠ 0 ∧ servedOf s f = none ∧ s.mon.served.length < 4 := by decide +kernel
theorem witness_MonitorUnlocksAndSessions_5c : let e := { plainEnv kMonitor [3] with src := 9 }; let z : Session := { session := 4, node := 9, busy := false, seq := 0 }; let s := onMon (fun m => { m with served := [z, z, z, z] }) joined; let f := { asKind kMonitor e with payload := setField 32 4 0 (asKind kMonitor e).payload }; quarantined s = false ∧ e.lenw ≠ 0 ∧ servedOf s f = none ∧ 4 ≤ s.mon.served.length ∧ standbyHub s = false := by decide +kernel
theorem witness_MonitorUnlocksAndSessions_5d : let e := { plainEnv kMonitor [3] with src := 9 }; let z : Session := { session := 4, node := 9, busy := false, seq := 0 }; let s := setB (onMon (fun m => { m with served := [z, z, z, z] }) joined) R.DPX_CTL F.DPX_CTL_EN true; let f := { asKind kMonitor e with payload := setField 32 4 0 (asKind kMonitor e).payload }; quarantined s = false ∧ e.lenw ≠ 0 ∧ servedOf s f = none ∧ 4 ≤ s.mon.served.length ∧ standbyHub s = true := by decide +kernel
theorem witness_MonitorUnlocksAndSessions_5e : let e := { plainEnv kMonitor [3] with src := 9 }; let z : Session := { session := 3, node := 9, busy := true, seq := 0 }; let s := onMon (fun m => { m with served := [z] }) joined; let f := { asKind kMonitor e with payload := setField 32 4 1 (asKind kMonitor e).payload }; quarantined s = false ∧ e.lenw ≠ 0 ∧ servedOf s f = some z ∧ z.busy = true := by decide +kernel
theorem witness_MonitorUnlocksAndSessions_5f : let e := { plainEnv kMonitor [3 + 2 * 2 ^ 36, 0x6469] with src := 9 }; let z : Session := { session := 3, node := 9, busy := false, seq := 0 }; let s := onMon (fun m => { m with served := [z] }) joined; let f := { asKind kMonitor e with payload := setField 32 4 1 (asKind kMonitor e).payload }; quarantined s = false ∧ e.lenw ≠ 0 ∧ servedOf s f = some z ∧ s.mon.active = none ∧ z.busy = false ∧ parseLine (monText f) = some .id := by decide +kernel
theorem witness_MonitorUnlocksAndSessions_5g : let e := { plainEnv kMonitor [3 + 2 * 2 ^ 36, 0x6060] with src := 9 }; let z : Session := { session := 3, node := 9, busy := false, seq := 0 }; let s := onMon (fun m => { m with served := [z] }) joined; let f := { asKind kMonitor e with payload := setField 32 4 1 (asKind kMonitor e).payload }; quarantined s = false ∧ e.lenw ≠ 0 ∧ servedOf s f = some z ∧ s.mon.active = none ∧ z.busy = false ∧ parseLine (monText f) = none := by decide +kernel
theorem witness_MonitorUnlocksAndSessions_6a : let e := { plainEnv kMonitor [3 + 2 * 2 ^ 36, 0x6469] with src := 9 }; let x : Session := { session := 3, node := 9, busy := true, seq := 0 }; let s := onMon (fun m => { m with terminal := [x] }) joined; let f := { asKind kMonitor e with payload := setField 32 4 2 (asKind kMonitor e).payload }; e.lenw ≠ 0 ∧ quarantined s = false ∧ terminalOf s f = some x ∧ x.busy = true := by decide +kernel
theorem witness_MonitorUnlocksAndSessions_6b : let e := { plainEnv kMonitor [3 + 2 * 2 ^ 36, 0x6B6F] with src := 9 }; let x : Session := { session := 3, node := 9, busy := true, seq := 0 }; let s := onMon (fun m => { m with terminal := [x] }) joined; let f := { asKind kMonitor e with payload := setField 32 4 3 (asKind kMonitor e).payload }; e.lenw ≠ 0 ∧ quarantined s = false ∧ terminalOf s f = some x ∧ x.busy = true := by decide +kernel
theorem witness_MonitorUnlocksAndSessions_6c : let ws := (resultText (.err .busy)); let e := { plainEnv kMonitor [BitVec.ofNat 64 (3 + ws.length * 2 ^ 36), BitVec.ofNat 64 (leNat ws)] with src := 9 }; let x : Session := { session := 3, node := 9, busy := false, seq := 0 }; let s := onMon (fun m => { m with terminal := [x] }) joined; let f := { asKind kMonitor e with payload := setField 32 4 3 (asKind kMonitor e).payload }; e.lenw ≠ 0 ∧ quarantined s = false ∧ terminalOf s f = some x ∧ x.busy = false ∧ monText f = resultText (.err .busy) := by decide +kernel
theorem witness_MonitorUnlocksAndSessions_6d : let e := { plainEnv kMonitor [3 + 2 * 2 ^ 36, 0x6B6F] with src := 9 }; let x : Session := { session := 3, node := 9, busy := false, seq := 0 }; let s := onMon (fun m => { m with terminal := [x] }) joined; let f := { asKind kMonitor e with payload := setField 32 4 3 (asKind kMonitor e).payload }; e.lenw ≠ 0 ∧ quarantined s = false ∧ terminalOf s f = some x ∧ x.busy = false ∧ monText f ≠ resultText (.err .busy) := by decide +kernel
theorem witness_MonitorUnlocksAndSessions_6e : let e := { plainEnv kMonitor [3] with src := 9 }; let s := joined; let f := { asKind kMonitor e with payload := setField 32 4 3 (asKind kMonitor e).payload }; e.lenw ≠ 0 ∧ quarantined s = false ∧ terminalOf s f = none := by decide +kernel
theorem witness_MonitorUnlocksAndSessions_7a : let x : Session := { session := 3, node := 9, busy := true, seq := 1 }; let s := onMon (fun m => { m with terminal := [x] }) State.reset; s.mon.terminal[(0 : Fin 4).val]? = some x ∧ x.busy = true := by decide +kernel
theorem witness_MonitorUnlocksAndSessions_7b : let s := State.reset; s.mon.terminal[(2 : Fin 4).val]? = none := by decide +kernel

end Sys2Proof.Machine
end

section
/-! PROOFS. The pigeonhole queues' flush (R155, R156) and the requesters' ranks at reset (R146). -/

namespace Sys2Proof.Machine

/-! What a popped item's latch holds, part by part (R156). -/

/-- Part k of the latch, k = 0 to 2 for PH_ITEM1 to PH_ITEM3, has been read. -/
def PopLatch.wasRead (l : PopLatch) (k : Nat) : Bool := if k = 0 then l.read1 else if k = 1 then l.read2 else l.read3

/-- Every part of the latch has been read. -/
def PopLatch.allRead (l : PopLatch) : Bool := l.read1 && l.read2 && l.read3

/-- What the latch's holder reads from PH_ITEM register k: the word, and whether it is delivered poisoned. -/
def PopLatch.part (l : PopLatch) (k : Nat) : Word × Bool :=
  if k = 0 then (l.w1, l.bad.getLsbD 0) else if k = 1 then (l.w2, l.bad.getLsbD 1) else (l.w3, l.bad.getLsbD 1)

/-- The latch after its queue is flushed: the parts not yet read are gone (R155). -/
def PopLatch.flushed (l : PopLatch) : PopLatch :=
  { l with w1 := if l.read1 then l.w1 else 0, w2 := if l.read2 then l.w2 else 0, w3 := if l.read3 then l.w3 else 0,
           bad := if l.allRead then l.bad else 0 }

theorem PopLatch.allRead_of_unread {l : PopLatch} {k : Nat} (h : l.wasRead k = false) : l.allRead = false := by
  unfold wasRead at h
  split at h
  · simp [allRead, h]
  · split at h <;> simp [allRead, h]

/-- An unread part of a flushed latch is 0, and clean. -/
theorem PopLatch.flushed_part_of_unread {l : PopLatch} {k : Nat} (h : l.wasRead k = false) : l.flushed.part k = (0, false) := by
  have hbad : l.flushed.bad = 0 := by simp [flushed, allRead_of_unread h]
  unfold wasRead at h
  unfold part
  rw [hbad]
  split at h
  · simp [flushed, *]
  · split at h <;> simp [flushed, *]

/-- The holder of the latch reads its part k. -/
theorem readItem_of_holder {s : State} {q : Nat} {l : PopLatch} (hl : (getPh s q).latch = some l) (k : Nat) :
    (readItem l.tag q k s).2 = l.part k := by
  unfold readItem PopLatch.part
  simp only [hl, if_true]
  split
  · rfl
  · split <;> rfl

/-! Emptying a queue (R155). -/

theorem flushQueue_of_no_latch {q : Nat} {s : State} (h : (getPh s q).latch = none) :
    flushQueue q s = setPh s q { getPh s q with items := [], rd := (getPh s q).wr, rdCopy := (getPh s q).wrCopy } := by
  unfold flushQueue
  simp only [h]

theorem flushQueue_of_latch {q : Nat} {s : State} {l : PopLatch} (h : (getPh s q).latch = some l) :
    flushQueue q s =
      let t := setPh s q { getPh s q with
        items := [], latch := some l.flushed, rd := (getPh s q).wr, rdCopy := (getPh s q).wrCopy }
      if l.isItem && !l.allRead then setB t (R.PH_STAT q) F.PH_STAT_FLUSHED true else t := by
  unfold flushQueue
  simp only [h]
  rfl

/-- The queue after a flush: no items, the read pointers at the write pointers, and the latch cut. -/
theorem getPh_flushQueue (q : Nat) (s : State) :
    getPh (flushQueue q s) q = { getPh s q with
      items := [], latch := (getPh s q).latch.map PopLatch.flushed, rd := (getPh s q).wr, rdCopy := (getPh s q).wrCopy } := by
  cases h : (getPh s q).latch with
  | none => simp only [flushQueue_of_no_latch h, getPh_setPh_same, h, Option.map_none]
  | some l =>
    rw [flushQueue_of_latch h]
    dsimp only
    split
    · rw [getPh_setB, getPh_setPh_same, Option.map_some]
    · rw [getPh_setPh_same, Option.map_some]

/-- A flush that cuts a popped item says so. -/
theorem flushQueue_sets_flushed {q : Nat} {s : State} {l : PopLatch} (hl : (getPh s q).latch = some l) (hi : l.isItem = true)
    (hr : l.allRead = false) : getB (flushQueue q s) (R.PH_STAT q) F.PH_STAT_FLUSHED = true := by
  rw [flushQueue_of_latch hl]
  dsimp only
  rw [if_pos (by simp [hi, hr])]
  exact getB_setB_same _ _ _ _ rfl (by decide)

/-! The commands. -/

/-- A plain register write leaves the queues alone. -/
theorem getPh_plainWrite (a : Nat) (v : Word) (s : State) (q : Nat) : getPh (plainWrite a v s) q = getPh s q := by
  unfold getPh
  rw [(plainWrite_only a v s).2]

/-- A taken FLUSH performs the plain write of PH_CTL and empties the queue. -/
theorem exec_flush_takes {m : Master} {q : Fin 32} {s : State} (h : Takes s m (R.PH_CTL q)) (v : Word) :
    exec (.flush m q v) s = .next (answer .ok
      (flushQueue q (plainWrite (R.PH_CTL q) (F.PH_CTL_FLUSH.put v 1) (dropOverlap (R.PH_CTL q) 4 s)))) := by
  have hset : F.PH_CTL_FLUSH.get (F.PH_CTL_FLUSH.put v 1) = 1 := Fld.get_put_same _ _ _ (by decide)
  change execFlush m q v s = _
  rw [execFlush, guardWrite_ok h, writePhCtl, if_pos hset]

/-- A taken read of PH_ITEM by the latch's holder answers the latched part. -/
theorem exec_phItemRead_of_holder {m : Master} {q : Fin 32} {k : Fin 3} {s : State} {l : PopLatch}
    (h : Reads s m (R.PH_ITEM q k)) (hl : (getPh s q).latch = some l) (hm : masterId s m = l.tag) :
    ∃ r, exec (.phItemRead m q k) s = .next r ∧ r.resp = .data ((l.part k).1.zeroExtend 64) (l.part k).2 := by
  refine ⟨guardReadP m (R.PH_ITEM q k) (readItem (masterId s m) q k) s, rfl, ?_⟩
  rw [guardReadP_reads h, hm, readItem_of_holder hl, answer_resp]

/-- Settles O3: the flush cuts the latch it finds (`getPh_flushQueue`), and what the cut leaves of an unread part is a clean 0. -/
theorem flushEmptiesTheQueue : Obligations.FlushEmptiesTheQueue := by
  unfold Obligations.FlushEmptiesTheQueue
  intro m q v s htakes u
  refine ⟨_, exec_flush_takes htakes v, ?_, ?_, ?_⟩
  · rw [getPh_answer, getPh_flushQueue]
  · rw [getPh_answer, getPh_flushQueue, getPh_plainWrite]
  · intro l hl hitem k (hunread : l.wasRead k = false)
    have hlatch : (getPh (plainWrite (R.PH_CTL q) (F.PH_CTL_FLUSH.put v 1) u) q).latch = some l := by rw [getPh_plainWrite, hl]
    refine ⟨?_, fun h hid hreads => ?_⟩
    · rw [getB_answer]
      exact flushQueue_sets_flushed hlatch hitem (PopLatch.allRead_of_unread hunread)
    · obtain ⟨r, hexec, hresp⟩ := exec_phItemRead_of_holder (l := l.flushed) hreads
        (by rw [getPh_answer, getPh_flushQueue, hlatch, Option.map_some]) hid
      rw [PopLatch.flushed_part_of_unread hunread] at hresp
      exact ⟨r, hexec, hresp⟩

/-! Reset values (R146). -/

/-- In the state after reset every register reads its reset word. -/
theorem getReg_reset (a : Nat) : getReg State.reset a = resetWord a := rfl

/-- Requester n's rank register lies where R146's table has it. -/
theorem findReg_arbPri : ∀ n < 24,
    findReg (R.ARB_PRI n) = some (⟨"ARB_PRI", R.ARB_PRI 0, 24, 4, 1, 0, [⟨F.ARB_PRI_RANK, .rw, 0, false⟩]⟩, n, 0) := by
  decide

theorem resetWord_arbPri {n : Nat} (h : n < 24) : resetWord (R.ARB_PRI n) = BitVec.ofNat 32 (resetRank n) := by
  unfold resetWord
  simp only [findReg_arbPri n h]
  rw [if_neg (by simp), if_pos trivial]

theorem resetRank_lt (n : Nat) : resetRank n < 4 := by
  unfold resetRank
  split
  · decide
  · split
    · decide
    · split <;> decide

/-- A rank register's field after reset is the requester's rank. -/
theorem getF_reset_arbPri {n : Nat} (h : n < 24) : getF State.reset (R.ARB_PRI n) F.ARB_PRI_RANK = resetRank n := by
  have hlt := resetRank_lt n
  rw [getF, getReg_reset, resetWord_arbPri h]
  simp only [Fld.get, bitsOf, BitVec.toNat_ofNat]
  omega

/-- Settles O2: the reset word of ARB_PRIn is the rank that R146 lists. -/
theorem arbiterRanksAtReset : Obligations.ArbiterRanksAtReset := by
  unfold Obligations.ArbiterRanksAtReset
  intro n hn
  have hdma : (n = 3 ∨ (4 ≤ n ∧ n ≤ 20)) ↔ (3 ≤ n ∧ n ≤ 20) := by omega
  simp only [getF_reset_arbPri hn, resetRank, hdma]

end Sys2Proof.Machine
end

section
/-! PROOFS. The ROM's count of failed boots, and NORMAL, which clears it (R421). -/

namespace Sys2Proof.Machine

/-! The boot up to its image (R408, R409). -/

/-- The logic test of the sorting office ran and did not pass. -/
def officeFailed (office : Bool) (s : State) : Bool := getB s R.BIST_BOOT F.BIST_BOOT_SO && !office

/-- The state of a boot that reaches its image: the tests and the flash have left their marks, and nothing is counted yet. -/
def imageReached (sfdp : Option (Nat × Bool)) (office : Bool) (s : State) : State :=
  let x := onInteg (fun i => { i with segment := none }) (restartWdog (onUpd (fun u => { u with booted := true }) s))
  showFlash sfdp (if officeFailed office s then setB x R.BIST_FLAGS F.BIST_FLAGS_SO true else x)

/-- A first boot under running clocks whose SRAM and flash are good goes on with the image. -/
theorem exec_romBoot_of_good_flash {sfdp : Option (Nat × Bool)} {s : State} (office : Bool) (hfirst : s.upd.booted = false)
    (hclk : clocked s = true) (hflash : flashRefused sfdp = false) :
    exec (.romBoot sfdp true office) s = .next (bootImage (officeFailed office s) (imageReached sfdp office s)) := by
  change execRomBoot sfdp true office s = _
  rw [execRomBoot, if_neg (by simp [hfirst, hclk])]
  dsimp only
  rw [if_neg (by simp), hflash]
  rfl

theorem showFlash_upd (sfdp : Option (Nat × Bool)) (s : State) : (showFlash sfdp s).upd = s.upd := by
  cases sfdp <;> rfl

theorem showFlash_regsBut (sfdp : Option (Nat × Bool)) (s : State) : RegsBut [R.UPD_FLASH] s (showFlash sfdp s) := by
  cases sfdp with
  | none => exact RegsBut.rfl'
  | some x => exact (RegsBut.setF s R.UPD_FLASH F.UPD_FLASH_DENSITY x.1).trans (RegsBut.setB _ _ _ _)

theorem imageReached_upd (sfdp : Option (Nat × Bool)) (office : Bool) (s : State) :
    (imageReached sfdp office s).upd = { s.upd with booted := true } := by
  rw [imageReached, showFlash_upd]
  split <;> rfl

/-- The tests and the flash write none of UPD_BOOT. -/
theorem getF_imageReached_updBoot (sfdp : Option (Nat × Bool)) (office : Bool) (s : State) (f : Fld) :
    getF (imageReached sfdp office s) R.UPD_BOOT f = getF s R.UPD_BOOT f := by
  have hreg : getReg (imageReached sfdp office s) R.UPD_BOOT = getReg s R.UPD_BOOT := by
    rw [imageReached, showFlash_regsBut _ _ R.UPD_BOOT (by decide)]
    split
    · exact getReg_setB_ne _ _ _ (by decide)
    · rfl
  rw [getF, hreg, getF]

/-! The count, and what follows from it (R418 to R421). -/

/-- A boot is counted, in BOOTFAIL and in the counter of its boot mode. -/
def countBoot (s : State) : State :=
  bump (ctr 0x0018 11 (getF s R.UPD_BOOT F.UPD_BOOT_MODE))
    (setF s R.UPD_BOOT F.UPD_BOOT_BOOTFAIL (min 15 (getF s R.UPD_BOOT F.UPD_BOOT_BOOTFAIL + 1)))

/-- The four bits of BOOTFAIL hold the saturated count. -/
theorem getF_countBoot (s : State) :
    getF (countBoot s) R.UPD_BOOT F.UPD_BOOT_BOOTFAIL = min 15 (getF s R.UPD_BOOT F.UPD_BOOT_BOOTFAIL + 1) := by
  rw [countBoot, getF_congr (bump_regs _ _), getF_setF_same _ _ _ _ (by decide)]
  exact Nat.mod_eq_of_lt (by change _ < 16; omega)

theorem countBoot_regsBut (s : State) : RegsBut [R.UPD_BOOT] s (countBoot s) :=
  (RegsBut.setF s _ _ _).trans (RegsBut.of_regs (bump_regs _ _))

/-- At four counted failures the boot enters recovery and chooses no slot. -/
theorem bootImage_of_four_failures {s : State} (soFailed : Bool) (h : 4 ≤ getF (countBoot s) R.UPD_BOOT F.UPD_BOOT_BOOTFAIL) :
    bootImage soFailed s = enterRecovery (countBoot s) := by
  rw [getF_countBoot] at h
  simp only [bootImage, if_pos h]
  rfl

/-- Below four failures a boot that finds no slot enters recovery. -/
theorem bootImage_of_no_slot {s w : State} (soFailed : Bool) (h : getF (countBoot s) R.UPD_BOOT F.UPD_BOOT_BOOTFAIL < 4)
    (hc : chooseByMode (getF s R.UPD_BOOT F.UPD_BOOT_MODE) (countBoot s) = (none, w)) :
    bootImage soFailed s = enterRecovery w := by
  rw [getF_countBoot] at h
  unfold countBoot at hc
  simp only [bootImage, if_neg (Nat.not_le.2 h), hc]

/-- Below four failures a boot starts the slot that it finds. -/
theorem bootImage_of_slot {s w : State} {slot : Nat} {trial : Bool} (soFailed : Bool)
    (h : getF (countBoot s) R.UPD_BOOT F.UPD_BOOT_BOOTFAIL < 4)
    (hc : chooseByMode (getF s R.UPD_BOOT F.UPD_BOOT_MODE) (countBoot s) = (some (slot, trial), w)) :
    bootImage soFailed s =
      startApply slot (if soFailed then bistNotice 0xC3 0 (startSlot slot trial w) else startSlot slot trial w) := by
  rw [getF_countBoot] at h
  unfold countBoot at hc
  simp only [bootImage, if_neg (Nat.not_le.2 h), hc]

/-! A service mode comes into force (R28). -/

/-- The requested mode is in force, and BOOTFAIL is cleared if it is NORMAL; outputs, firing and claim are not reviewed yet. -/
def modeInForce (s : State) : State :=
  setF (if requestedMode s = 1 then setF s R.UPD_BOOT F.UPD_BOOT_BOOTFAIL 0 else s) R.NODE_STAT F.NODE_STAT_SERVICE_EFF (requestedMode s)

theorem requestedMode_setF_updBoot (s : State) (f : Fld) (v : Nat) : requestedMode (setF s R.UPD_BOOT f v) = requestedMode s :=
  getF_setF_ne _ _ _ _ (by decide)

/-- Without a running timetable a newly requested mode comes into force at once, and the reviews follow. -/
theorem exec_serviceModeTakesEffect_of_change {s : State} (hstill : ttRunning s = false) (hnew : requestedMode s ≠ serviceMode s) :
    exec .serviceModeTakesEffect s = .next (reviewClaim (reviewFiring (safePins (modeInForce s)))) := by
  change execServiceModeTakesEffect s = _
  rw [execServiceModeTakesEffect, if_neg (by simp [hstill]), applyService, if_neg hnew, modeInForce]
  split
  · dsimp only
    rw [requestedMode_setF_updBoot]
  · rfl

theorem serviceMode_modeInForce (s : State) : serviceMode (modeInForce s) = requestedMode s := by
  rw [serviceMode, modeInForce, getF_setF_same _ _ _ _ (by decide)]
  exact Nat.mod_eq_of_lt (Fld.get_lt F.NODE_CTL_SERVICE (getReg s R.NODE_CTL))

theorem getF_modeInForce_bootfail {s : State} (h : requestedMode s = 1) :
    getF (modeInForce s) R.UPD_BOOT F.UPD_BOOT_BOOTFAIL = 0 := by
  rw [modeInForce, if_pos h, getF_setF_ne _ _ _ _ (by decide), getF_setF_same _ _ _ _ (by decide)]
  rfl

theorem modeInForce_only (s : State) :
    RegsBut [R.NODE_STAT, R.UPD_BOOT] s (modeInForce s) ∧ modeInForce s = { s with regs := (modeInForce s).regs } := by
  unfold modeInForce
  split
  · exact ⟨((RegsBut.setF s R.UPD_BOOT _ _).mono (by simp)).trans ((RegsBut.setF _ R.NODE_STAT _ _).mono (by simp)), rfl⟩
  · exact ⟨(RegsBut.setF s R.NODE_STAT _ _).mono (by simp), rfl⟩

/-- Settles O4: a boot that reaches its image counts itself (`countBoot`) before it chooses a slot, and a mode that
comes into force as NORMAL has cleared BOOTFAIL (`modeInForce`) before the reviews. -/
theorem bootFailuresAreCounted : Obligations.BootFailuresAreCounted := by
  unfold Obligations.BootFailuresAreCounted
  refine ⟨fun sfdp office s hfirst hclk hflash => ?_, fun s hstill hnormal hnew => ?_⟩
  · have hboot := exec_romBoot_of_good_flash office hfirst hclk hflash
    refine ⟨imageReached sfdp office s, countBoot (imageReached sfdp office s), ?_, countBoot_regsBut _, imageReached_upd _ _ _, ?_⟩
    · rw [getF_countBoot, getF_imageReached_updBoot]
    · rw [hboot, ← getF_imageReached_updBoot sfdp office s F.UPD_BOOT_MODE]
      refine ⟨fun hfour => ?_, fun w hfew hnone => ?_, fun slot trial w hfew hsome => ?_⟩
      · rw [bootImage_of_four_failures _ hfour]
      · rw [bootImage_of_no_slot _ hfew hnone]
      · refine ⟨_, ?_, congrArg _ (bootImage_of_slot _ hfew hsome)⟩
        cases officeFailed office s
        · exact .inl rfl
        · exact .inr rfl
  · obtain ⟨hregs, hframe⟩ := modeInForce_only s
    exact ⟨modeInForce s, (serviceMode_modeInForce s).trans hnormal, getF_modeInForce_bootfail hnormal, hregs, hframe,
      exec_serviceModeTakesEffect_of_change hstill (hnormal ▸ hnew.symm)⟩

end Sys2Proof.Machine
end
